-- ==== Sys2Proof/Word.lean ====
section
/-! DEFINITION. The word types of the EB9600: bytes, 32-bit lanes, 64-bit words, 128-bit wide partials
(R8, R45, R68, R70). Every helper that reads fields out of words stands in Machine/Bits.lean. -/

namespace Sys2Proof

/-- One byte of any memory. -/
abbrev Byte := BitVec 8

/-- One 32-bit vector lane (R68). -/
abbrev Lane := BitVec 32

/-- A scalar register, an instruction word or a hardware register (R68, R70, R38). -/
abbrev Word := BitVec 64

/-- A wide partial as stored in memory (R45). -/
abbrev Wide := BitVec 128

end Sys2Proof
end

