-- ==== Sys2Proof/Machine/Bits.lean ====
section
/-! DEFINITION. Bit fields, sign extension and byte order: the little-endian layouts of R8, R70 and R138 read and
written, once for every layer above. -/

namespace Sys2Proof.Machine

/-- Bits `hi` down to `lo` of a natural number. -/
def nbits (n hi lo : Nat) : Nat := (n >>> lo) % 2 ^ (hi + 1 - lo)

/-- Bits `hi` down to `lo` of a word (R70). -/
def field (w : Word) (hi lo : Nat) : Nat := nbits w.toNat hi lo

/-- One bit of a word. -/
def bit (w : Word) (i : Nat) : Bool := w.toNat.testBit i

/-- `n` read as a two's-complement number of `k` bits. -/
def sext (n k : Nat) : Int := if n % 2 ^ k < 2 ^ (k - 1) then ((n % 2 ^ k : Nat) : Int) else ((n % 2 ^ k : Nat) : Int) - (2 ^ k : Nat)

/-- The word that an integer leaves modulo 2^64. -/
def toWord (i : Int) : Word := BitVec.ofInt 64 i

/-- The number that little-endian bytes spell (R8). -/
def leNat : List Byte → Nat
  | [] => 0
  | b :: bs => b.toNat + 256 * leNat bs

/-- The `k` little-endian bytes of a number (R8). -/
def leBytes : Nat → Nat → List Byte
  | 0, _ => []
  | k + 1, n => BitVec.ofNat 8 n :: leBytes k (n / 256)

/-- The `len` bytes from `off` of a byte list, as a number. -/
def bytesAt (bs : List Byte) (off len : Nat) : Nat := leNat ((bs.drop off).take len)

/-- Every byte from `off` to `off + len - 1` is zero (a reserved field, R141). -/
def zeroAt (bs : List Byte) (off len : Nat) : Bool := bytesAt bs off len == 0

/-- `n` zero bytes. -/
def zeros (n : Nat) : List Byte := List.replicate n 0

/-- A list cut or padded with zero bytes to length `n`. -/
def padTo (n : Nat) (bs : List Byte) : List Byte := (bs ++ zeros n).take n

/-- The number of 1 bits of a number below 2^k. -/
def popcount : Nat → Nat → Nat
  | 0, _ => 0
  | k + 1, n => n % 2 + popcount k (n / 2)

/-- The members of a bit map of `k` bits, in rising order. -/
def bitsOf (k n : Nat) : List Nat := (List.range k).filter (fun i => n.testBit i)

/-- The bit map of a list of members. -/
def bitMap (l : List Nat) : Nat := l.foldl (fun acc i => acc ||| (1 <<< i)) 0

/-- 1 for true, 0 for false. -/
def b2n (b : Bool) : Nat := if b then 1 else 0

/-- Saturating count (R38, R245, R340): one more, never past `2^k - 1`. -/
def satInc (k n : Nat) : Nat := if n + 1 < 2 ^ k then n + 1 else 2 ^ k - 1

/-- Saturating count by `m`. -/
def satAdd (k n m : Nat) : Nat := if n + m < 2 ^ k then n + m else 2 ^ k - 1

/-- Wrapping count by `m` in `k` bits. -/
def wrapAdd (k n m : Nat) : Nat := (n + m) % 2 ^ k

/-- `n` rounded up to a multiple of `m`. -/
def roundUp (n m : Nat) : Nat := (n + (m - 1)) / m * m

end Sys2Proof.Machine
end

