-- ==== Sys2Proof/Syntax.lean ====
section
/-! DEFINITION. The commands of the block: one constructor per row of spec/opcode_table.json, with the row's operands.
A kernel instruction carries the core and the 64-bit word its sequencer issues (R70); a hub command carries the
tracker entry it acts on (R160); an event of the board, the host, a partner or the silicon carries what it brings. -/

namespace Sys2Proof

/-- The PCI Express function a request comes from or goes to (R129, R480). -/
inductive Fn where
  | pf
  | vf (v : Nat)
  deriving DecidableEq, Repr

/-- A unit in the numbering of fault records (R408, R10). -/
inductive UnitRef where
  | none
  | core (n : Nat)
  | channel (n : Nat)
  | port (n : Nat)
  | copyEngine (n : Nat)
  | ctrlCore (n : Nat)
  | die (n : Nat)
  | slot (n : Nat)
  deriving DecidableEq, Repr

/-- What on-die ECC reports of one read (R236). -/
inductive EccReport where
  | clean
  | corrected
  | uncorrected
  deriving DecidableEq, Repr

/-- What the error codes of the arrays that a command reads report: physical events of the silicon, which come with the
command that meets them (log entry 99). -/
structure Sram where
  /-- SECDED of the scratchpad (R27) -/
  sp : EccReport := .clean
  /-- SECDED of the scratchpad where a DMA list's entry is read (R27, R84) -/
  entry : EccReport := .clean
  /-- SECDED of the accumulator tiles (R28) -/
  acc : EccReport := .clean
  /-- SECDED of the data cache (R29) -/
  dc : EccReport := .clean
  /-- a parity error in the agent's translation cache (R30) -/
  tc : Bool := false
  /-- SECDED of the slice (R229) -/
  slice : EccReport := .clean
  deriving DecidableEq, Repr

/-- The kind of access a walk serves (R304). -/
inductive Access where
  | read
  | write
  | image
  deriving DecidableEq, Repr

/-- The six bulk packets' common header (R347), its fields as integers. -/
structure FabHeader where
  dst : Nat
  src : Nat
  ttl : Nat
  scol : Nat
  instar : Nat
  window : Nat
  job : Nat
  cseq : Nat
  tag : Nat
  tagPort : Nat
  offset : Nat
  anchor : Int
  status : Nat
  high : Bool
  boottag : Nat
  /-- BSEQ of the HEAD that brings it (R335) -/
  bseq : Nat := 0
  deriving DecidableEq, Repr

/-- The common part of a control message (R348). -/
structure CtlHeader where
  dst : Nat
  src : Nat
  ttl : Nat
  scol : Nat
  instar : Nat
  job : Nat
  mseq : Nat
  deriving DecidableEq, Repr

/-- A flit as it arrives (R319, R320, R328): its 64 bytes, the SEQ that its lane and place stand for, whether its codeword is
uncorrectable, which further flits of its lane are found failed with it (bit k for the one k × L after it), the symbols that FEC
corrected in its codeword (R340), whether the port still has signal (R338), and what a LINK flit's content spells, kind first, whose
layout the spec does not give (log entry 115). -/
structure FlitIn where
  bytes : List Byte
  slot : Nat
  uncorrectable : Bool := false
  along : Nat := 0
  corrected : Nat := 0
  signal : Bool := true
  link : List Nat := []
  deriving DecidableEq, Repr

/-- A transit packet as it arrives (R344): a bulk packet's class, KIND, header and payload (for READ as many bytes as lines asked
for), or a control message. -/
inductive Transit where
  | bulk (cls kind : Nat) (h : FabHeader) (data : List Byte)
  | control (mtype : Nat) (h : CtlHeader) (body : List Nat)
  deriving DecidableEq, Repr

/-- The sensor and energy readings that the power controller takes at an evaluation (R450, R443, R456). -/
structure PowerReading where
  /-- estimated package power averaged over the last 10 ms, in W -/
  packageW : Nat
  /-- VCORE current of dies 0-3 in A -/
  dieA : List Nat
  /-- estimated power of dies 0-3 in W -/
  dieW : List Nat
  /-- hottest junction of dies 0-3, °C -/
  dieTemp : List Nat
  /-- hottest stack of each die, °C -/
  stackTemp : List Nat
  hubTemp : Nat
  /-- per die: the power in W that a step up would add, the VCORE current in A at that state, and the power that a step
  down would save (R450) -/
  upW : List Nat
  upA : List Nat
  downW : List Nat
  /-- estimated energy since the last evaluation in µJ, per colony 0-64 (R192) -/
  energy : List (Nat × Nat)
  deriving DecidableEq, Repr

/-- A boot bundle (R464), as the host's memory holds it; an upload's bytes are those received. Signatures are checked outside the
model: their verdicts come with the command (R379; log entry 22). -/
structure Bundle where
  /-- the read met no PCI Express error -/
  readable : Bool
  /-- its bytes -/
  bytes : List Byte
  /-- the signatures of the device chain verify -/
  chainSigned : Bool
  /-- HSS_PUB of the device certificate is the key derived from DEVICE_SECRET (R382, R385) -/
  hssMatch : Bool
  /-- the calibration record's signature verifies (R456) -/
  pcalSigned : Bool
  /-- the vendor chain runs to FW_ROOT and its signature block verifies (R387) -/
  imageSigned : Bool
  /-- the owner chain runs to OWNER_FW_ROOT and verifies (R387) -/
  ownerSigned : Bool
  deriving DecidableEq, Repr

/-- A vendor-signed lifecycle token (R491), and whether the fuse write it asks for reads back (R375). -/
structure Token where
  kind : Nat
  sigOk : Bool
  idhash : Nat
  boots : Nat
  mgmtRoot : Nat
  ownerRoot : Option Nat
  burnOk : Bool := true
  deriving DecidableEq, Repr

/-- The header of a management datagram as it arrives (R487): session (0 outside one), sequence number, request
number, source of the reply, and whether its GCM tag held. -/
structure MgmtHeader where
  session : Nat
  seq : Nat
  req : Nat
  tagOk : Bool
  deriving DecidableEq, Repr

/-- The commands. Each docstring names the row's rule; the operands are those the rule gives. -/
inductive Instr where
  -- scalar instructions, register operands (R74)
  | add (core : Nat) (w : Word)
  | sub (core : Nat) (w : Word)
  | and (core : Nat) (w : Word)
  | or (core : Nat) (w : Word)
  | xor (core : Nat) (w : Word)
  | shl (core : Nat) (w : Word)
  | shr (core : Nat) (w : Word)
  | sra (core : Nat) (w : Word)
  | mul (core : Nat) (w : Word)
  | mulhu (core : Nat) (w : Word)
  | min (core : Nat) (w : Word)
  | max (core : Nat) (w : Word)
  | minu (core : Nat) (w : Word)
  | maxu (core : Nat) (w : Word)
  | mov (core : Nat) (w : Word)
  | popc (core : Nat) (w : Word)
  -- scalar instructions, immediate operand (R75)
  | addi (core : Nat) (w : Word)
  | andi (core : Nat) (w : Word)
  | ori (core : Nat) (w : Word)
  | xori (core : Nat) (w : Word)
  | shli (core : Nat) (w : Word)
  | shri (core : Nat) (w : Word)
  | srai (core : Nat) (w : Word)
  | muli (core : Nat) (w : Word)
  | movi (core : Nat) (w : Word)
  | movhi (core : Nat) (w : Word)
  -- predicates (R76)
  | cmpeq (core : Nat) (w : Word)
  | cmpne (core : Nat) (w : Word)
  | cmplt (core : Nat) (w : Word)
  | cmpltu (core : Nat) (w : Word)
  | cmpge (core : Nat) (w : Word)
  | cmpgeu (core : Nat) (w : Word)
  | pand (core : Nat) (w : Word)
  | por (core : Nat) (w : Word)
  | pxor (core : Nat) (w : Word)
  | pandn (core : Nat) (w : Word)
  -- control (R77, R78)
  | nop (core : Nat) (w : Word)
  | end_ (core : Nat) (w : Word)
  | br (core : Nat) (w : Word)
  | call (core : Nat) (w : Word)
  | jr (core : Nat) (w : Word)
  -- scratchpad and scalar memory access (R79, R80, R81)
  | lds (core : Nat) (w : Word) (e : Sram)
  | sts (core : Nat) (w : Word)
  | vld (core : Nat) (w : Word) (e : Sram)
  | vst (core : Nat) (w : Word)
  | ldg (core : Nat) (w : Word) (e : Sram)
  | stg (core : Nat) (w : Word) (e : Sram)
  | mfence (core : Nat) (w : Word)
  -- DMA, synchronisation, system values (R82, R86, R90)
  | dma (core : Nat) (w : Word) (e : Sram)
  | dmaWait (core : Nat) (w : Word)
  | dmaWaitall (core : Nat) (w : Word)
  | sig (core : Nat) (w : Word)
  | wait (core : Nat) (w : Word)
  | bar (core : Nat) (w : Word)
  | semrd (core : Nat) (w : Word)
  | sysr (core : Nat) (w : Word)
  -- accumulators and matrix (R91, R104 to R107)
  | accClr (core : Nat) (w : Word)
  | mm (core : Nat) (w : Word)
  | accRaw (core : Nat) (w : Word)
  | accExp (core : Nat) (w : Word)
  | accWr (core : Nat) (w : Word)
  | matrixDispatch (core : Nat) (e : Sram)
  | vectorDispatch (core : Nat) (e : Sram)
  -- vector instructions (R114, R115)
  | vadd (core : Nat) (w : Word)
  | vsub (core : Nat) (w : Word)
  | vmul (core : Nat) (w : Word)
  | vfma (core : Nat) (w : Word)
  | vmin (core : Nat) (w : Word)
  | vmax (core : Nat) (w : Word)
  | vabs (core : Nat) (w : Word)
  | vneg (core : Nat) (w : Word)
  | vcmp (core : Nat) (w : Word)
  | vsel (core : Nat) (w : Word)
  | viadd (core : Nat) (w : Word)
  | vand (core : Nat) (w : Word)
  | vor (core : Nat) (w : Word)
  | vxor (core : Nat) (w : Word)
  | vshl (core : Nat) (w : Word)
  | vshr (core : Nat) (w : Word)
  | vsfu (core : Nat) (w : Word)
  | vcvt (core : Nat) (w : Word)
  | vred (core : Nat) (w : Word)
  | vrmax (core : Nat) (w : Word)
  | vacc (core : Nat) (w : Word)
  | vwpf (core : Nat) (w : Word)
  | vperm (core : Nat) (w : Word)
  -- DMA engine and signals (R31, R33, R87)
  | dmaLineIssue (core : Nat) (e : Sram)
  | dmaReadReply (core tag : Nat)
  | dmaWriteTagReturn (core tag : Nat)
  | signalDelivery (src dst : Nat)
  -- rings (R134, R135, R132, R158, R137)
  | sqDoorbell (fn : Fn) (page ring : Nat) (value : Word)
  | sqEnable (fn : Fn) (page ring : Nat) (value : Word)
  | cqEnable (fn : Fn) (page ring : Nat) (value : Word)
  | resume (fn : Fn) (page ring : Nat) (value : Word)
  | cqHeadWrite (fn : Fn) (page ring : Nat) (value : Word)
  | syncCounterAccess (fn : Fn) (page n : Nat) (value : Word)
  | packetFetch (page ring : Nat) (slot : Option (List Byte)) (ind : Option (List Byte))
  -- queue control (R143, R157, R158)
  | nopCommand (cmd : Nat)
  | fence (cmd : Nat)
  | signal (cmd : Nat)
  | waitCommand (cmd : Nat)
  | waitTimeout (cmd : Nat)
  -- launch, attempts and commits (R164, R170, R154, R159)
  | launch (cmd : Nat)
  | attemptStart (cmd : Nat)
  | coreReturnBound (core : Nat)
  | attemptEnd (cmd : Nat)
  | commitMergeCopy (cmd : Nat) (report : EccReport) (tagOk : Bool)
  | publish (cmd : Nat)
  | shadowFrameReturn (cmd : Nat)
  | completionRecordWrite (cmd : Nat)
  | commit (cmd : Nat)
  | abandon (cmd : Nat)
  -- data movement (R146, R169, R401, R402)
  | copy (cmd : Nat)
  | fill (cmd : Nat)
  | loadSealed (cmd : Nat)
  | storeSealed (cmd : Nat) (iv : Nat)
  -- collectives and handoff (R356 to R367)
  | reduce (cmd : Nat)
  | gather (cmd : Nat)
  | scatter (cmd : Nat)
  | barrier (cmd : Nat)
  | handoffOffer (cmd : Nat)
  | handoffAccept (cmd : Nat)
  | handoffRelease (cmd : Nat)
  | handoffAudit (cmd : Nat)
  -- memory management (R288, R305, R290, R306, R295)
  | map (cmd : Nat)
  | unmap (cmd : Nat)
  | syncTable (cmd : Nat) (src : Option (List Byte))
  | withdrawalDrainEnd (cmd : Nat)
  | compaction (colony : Nat) (dpa : Nat)
  -- composition (R206, R207, R213, R218, R204, R200, R208, R205, R40, R212)
  | bind (cmd : Nat)
  | unbind (cmd : Nat)
  | teardown (cmd : Nat)
  | rebind (cmd : Nat)
  | queryMap (cmd : Nat)
  | mapUpdate (cmd : Nat)
  | oldEntryRetire (colony : Nat)
  | channelWipeDone (channel : Nat) (ok : Bool)
  | portLeaveDrainEnd (port : Nat)
  | coreReplacement (core : Nat)
  | colonyReset (colony : Nat)
  -- security commands (R389, R393, R395, R391, R403)
  | attest (cmd : Nat)
  | keyLoad (cmd : Nat) (blob : Option (List Byte))
  | keyRetire (cmd : Nat)
  | keyZeroise (slot : Nat)
  | keySlotCheckFail (slot : Nat)
  | sealSession (cmd : Nat) (blob : Option (List Byte))
  -- diagnostics (R413, R151, R430, R36)
  | readFault (cmd : Nat)
  | sample (cmd : Nat)
  | perturb (cmd : Nat)
  | perturbExpiry (point : Nat)
  | killComplete (core : Nat) (wipeOk : Bool)
  | timeSliceEnd (colony : Nat)
  | nplimitReached (cmd : Nat)
  | coreFence (core : Nat)
  | coreClrCnt (core : Nat)
  -- translation (R296, R301)
  | translationWalk (agent colony va : Nat) (access : Access) (parity : Bool)
  | translationRecordTimeout (record : Nat)
  -- coherence (R272 to R276): the agent, and the line by channel and channel byte offset (R268)
  | gets (agent channel offset : Nat) (e : Sram)
  | getm (agent channel offset : Nat) (whole : Bool) (e : Sram)
  | ncr (agent channel offset : Nat) (e : Sram)
  | ncw (agent channel offset : Nat) (data : List Byte)
  | putm (agent channel offset : Nat)
  | drop (agent channel offset : Nat)
  | forwardedRequest (agent channel offset : Nat)
  | ownerResponse (agent channel offset : Nat)
  | invalidation (agent channel offset : Nat)
  | invalidationAck (agent channel offset : Nat)
  | nackRetry (agent channel offset : Nat)
  | agentUnresponsive (agent channel offset : Nat)
  -- mesh and HBM (R225, R235 to R245, R263)
  | meshFlitReplay (die replays : Nat)
  | hbmRead (channel offset cmd : Nat) (first second : EccReport) (tagOk : Bool)
  | hbmWrite (channel offset : Nat) (data : List Byte) (cmd : Nat)
  | refresh (channel bank temp : Nat)
  | calibrationSlot (channel margin slopeMilli : Nat) (marginOk tracking : Bool)
  | retrainDone (channel : Nat) (pass : Bool)
  | remapCopy (channel : Nat)
  | patrolScrub (channel row line : Nat) (report : EccReport)
  | hbcClrCnt (channel : Nat)
  | hbcClrPeak (channel : Nat)
  -- regulation, power and clocks (R259, R440 to R454)
  | windowBoundary (reading : PowerReading) (linkMiss : List (Nat × Nat)) (portMiss : List (Nat × Bool))
  | voltageReached (die : Nat)
  | droopTrip (die : Nat)
  | droopHoldExpiry (die : Nat) (target : Nat)
  | senseBelowMinimum (die : Nat)
  | railOutOfTolerance (rail : Nat)
  | pllLockLoss (die : Nat)
  | thermalTrip (sensor : Nat)
  | coolantOkLow
  | coolantLoss
  | pwrCoolClr
  -- hangs, windows, watchdog (R416 to R432)
  | hangWindowExpiry (unit : UnitRef)
  | engineResetDone (unit : UnitRef)
  | engineResetTimeout (unit : UnitRef)
  | watchdogExpiry (ctrl : Nat)
  | reactionWindowExpiry (record : Nat)
  | fltAckKeep (record : Nat)
  | fltAckFence (record : Nat)
  | quarantineTimeout (die : Nat)
  | aliveToggle
  | inject (value : Word)
  | perturbEnableWrite (value : Word)
  | tagHoldExpiry (port tag : Nat)
  -- ports (R313 to R340)
  | portEnWrite (port : Nat) (value : Word)
  | portFence (port : Nat)
  | portUnfence (port : Nat)
  | portRetrain (port : Nat)
  | zltClrCnt (port : Nat)
  | eventRingEnable (value : Word)
  | partnerPresence (port lanes : Nat)
  | trainingDone (port : Nat) (passed : List Nat) (weakest : Nat)
  | trainTimeout (port : Nat) (failed : Nat)
  | discoveryDescriptor (port : Nat) (d : List Byte)
  | authentication (port : Nat) (peerKey : Nat) (chainOk ecdsaOk lmsOk : Bool)
  | laneFailing (port lane : Nat)
  | laneRetrainDone (port lane : Nat) (pass : Bool)
  | lossOfPartner (port cause : Nat)
  | detectHoldoffExpiry (port : Nat)
  | flitReceive (port : Nat) (f : FlitIn)
  | nak (port base : Nat) (mask : Nat)
  | creditReturn (port vl credits : Nat)
  | creditReturnTimer (port vl : Nat)
  | rekey (port : Nat)
  | rekeyAcknowledged (port : Nat)
  | sessionRefreshDone (port : Nat)
  -- fabric (R341 to R369)
  | fabricAddressWrite (value : Word)
  | windowWrite
  | windowRead
  | windowRevoke
  | transitForward (inPort : Nat) (packet : Transit)
  | writePacket (port : Nat) (h : FabHeader) (payload : List Byte)
  | addPacket (port : Nat) (h : FabHeader) (payload : List Byte)
  | readPacket (port : Nat) (h : FabHeader) (lines : Nat)
  | readData (port : Nat) (h : FabHeader) (payload : List Byte)
  | wack (port : Nat) (h : FabHeader)
  | refuse (port : Nat) (h : FabHeader)
  | barrierMessage (port : Nat) (m : CtlHeader) (cseq window boottag : Nat)
  | peerAbort (port : Nat) (m : CtlHeader) (aseq cause origin : Nat)
  | revoke (port : Nat) (m : CtlHeader)
  | instarRetire (port : Nat) (m : CtlHeader) (value boottag : Nat)
  | ack (port : Nat) (m : CtlHeader) (mseq status : Nat)
  | busy (port : Nat) (m : CtlHeader) (mseq : Nat)
  | offer (port : Nat) (m : CtlHeader) (hseq window rcol offset len : Nat)
  | accept (port : Nat) (m : CtlHeader) (hseq rcol : Nat)
  | release (port : Nat) (m : CtlHeader) (hseq rcol : Nat)
  | auditQ (port : Nat) (m : CtlHeader) (hseq state : Nat) (withdraw : Bool)
  | auditR (port : Nat) (m : CtlHeader) (hseq state : Nat)
  | controlRetransmit (mseq : Nat)
  | fabricTimeout (port tag : Nat) (mseq : Nat)
  | collectiveBusyRetry (port tag : Nat)
  | handoffTimer (index : Nat)
  | declinedExpiry (index : Nat)
  -- reset and boot (R459 to R471)
  | powerOn
  | perstNAssert
  | perstNRelease
  | hotReset
  | surpriseRemoval
  | bootSelftest (ctrlPass : List Nat) (fusesOk collectorOk rngOk burnOk : Bool) (boottag : Nat) (deviceKey : BitVec 256)
  | lowerTreeDone
  | bootPrepDone (failedTiles : List (Nat × Nat)) (failedChannels : List Nat)
  | bootGo (value : Word) (b : Bundle)
  | bootPpr (failed : List Nat)
  | bonorLoad
  | vfFlr (vf : Nat)
  | vfEnableClear
  -- management port (R487 to R492)
  | helloA (h : MgmtHeader) (nonce peerKey : Nat)
  | authA (h : MgmtHeader) (chainOk sigOk : Bool)
  | queryState (h : MgmtHeader)
  | lcToken (h : MgmtHeader) (t : Token) (secret : BitVec 256)
  | setFwPolicy (h : MgmtHeader) (sources floor : Nat)
  | bundleBegin (h : MgmtHeader) (len : Nat)
  | bundleData (h : MgmtHeader) (offset : Nat) (data : List Byte)
  | bundleEnd (h : MgmtHeader) (b : Bundle)
  | advanceSvn (h : MgmtHeader) (burnOk : Bool)
  | mgmtAttest (h : MgmtHeader) (nonce : Nat)
  | setPowerCap (h : MgmtHeader) (cap : Nat)
  | getTelemetry (h : MgmtHeader) (seconds : Nat)
  | subscribe (h : MgmtHeader)
  | telemetryPush (session : Nat)
  | faultHistory (h : MgmtHeader) (fromFseq count : Nat)
  | mgmtReset (h : MgmtHeader) (delayMs : Nat)
  | transition (h : MgmtHeader) (delayMs : Nat)
  | handover (h : MgmtHeader) (delayMs : Nat) (root : Nat)
  | retire (h : MgmtHeader) (delayMs : Nat)
  | mgmtDelayExpiry (burnOk : Bool)
  | mgmtSessionExpiry (session : Nat)
  -- registers and the rest
  | registerWrite (fn : Fn) (bar : Nat) (offset : Nat) (value : Word) (size : Nat)
  | unassignedOpcode (core : Nat) (w : Word)
  | copyEngineLine (engine : Nat) (host : Option (List Byte)) (e : Sram)
  | copyEngineFault (engine : Nat)
  | sliceAllocatorFault (slice : Nat)
  | controlCoreUncorrectableError (ctrl : Nat)
  | collectorSelfCheckFailure
  | hotResetEnd
  | pcieLinkTrainingDone
  | configurationRetryEnd
  | hostReadCompletion (cmd : Nat) (poisoned error : Bool)
  | completionTimeout (cmd : Nat)
  | vfEnableSet (numVfs : Nat)
  | d3hot (fn : Fn) (enter : Bool)
  | msiXVectorUnmask (fn : Fn) (vector : Nat)
  | coolantOkHigh
  | handoffWaitTimeout (cmd : Nat)
  | flrWaitCut (vf : Nat)
  | neighborDiscovery (solicited : Option Nat) (prefixAdvert : Option Nat)
  | icmpv6Echo (data : List Byte)
  | pauseFrame (quanta : Nat)
  deriving DecidableEq, Repr

end Sys2Proof
end

