-- ==== Sys2Proof/WellFormed.lean ====
section
/-! DEFINITION. Well-formed commands: every unit an operand names exists (R10, R129), an address named by channel is a
line of its addressable region (R233), and a kernel row carries a word of its own opcode (R73 to R122). An ill-formed
command is no command of the device: no meaning rests on it. -/

namespace Sys2Proof

/-- A function that the endpoint has (R480). -/
def Fn.wf : Fn → Bool
  | .pf => true
  | .vf v => decide (v < 64)

/-- A colony with an address space (R284). -/
def colonyWf (c : Nat) : Bool := decide (1 ≤ c) && decide (c ≤ 64)

/-- A channel byte offset that names a data line (R233). -/
def lineWf (off : Nat) : Bool := decide (off % 64 = 0) && decide (off < 0x76000000)

/-- The header's fields fit their widths (R347). -/
def FabHeader.wf (h : FabHeader) : Bool :=
  decide (h.dst < 2 ^ 24) && decide (h.src < 2 ^ 24) && decide (h.ttl < 256) && decide (h.window < 65536) &&
  decide (h.tag < 4096) && decide (h.tagPort < 16)

/-- A transit packet's header fields fit their widths (R344, R347). -/
def Transit.wf : Transit → Bool
  | .bulk _ _ h _ => FabHeader.wf h
  | .control _ _ _ => true

/-- The word's OP field (R70). -/
def opIs (w : Word) (op : Nat) : Bool := w.toNat / 2 ^ 56 == op

/-- The opcodes that the tables of R74 to R115 assign. -/
def assignedOps : List Nat :=
  [0x01, 0x02, 0x03, 0x04, 0x05,
   0x10, 0x11, 0x12, 0x13, 0x14, 0x15, 0x16, 0x17, 0x18, 0x19, 0x1A, 0x1B, 0x1C, 0x1D, 0x1E, 0x1F,
   0x20, 0x22, 0x23, 0x24, 0x25, 0x26, 0x27, 0x28, 0x2E, 0x2F,
   0x30, 0x31, 0x32, 0x33, 0x34, 0x35, 0x38, 0x39, 0x3A, 0x3B,
   0x40, 0x41, 0x44, 0x45, 0x50, 0x51, 0x52, 0x60, 0x61, 0x62, 0x70, 0x71, 0x72, 0x73, 0x80, 0x90,
   0xA0, 0xA4, 0xA8, 0xA9,
   0xC0, 0xC1, 0xC2, 0xC3, 0xC4, 0xC5, 0xC6, 0xC7, 0xC8, 0xC9, 0xCA, 0xCB, 0xCC, 0xCD, 0xCE, 0xCF,
   0xD0, 0xD8, 0xDA, 0xDB, 0xDC, 0xDD, 0xDE]

/-- The word's opcode is assigned by some table (R73). -/
def assigned (w : Word) : Bool := assignedOps.contains (w.toNat / 2 ^ 56)

/-- A command whose operands name what exists. -/
def Instr.wf : Instr → Bool
  | .add core w => decide (core < 640) && opIs w 16
  | .sub core w => decide (core < 640) && opIs w 17
  | .and core w => decide (core < 640) && opIs w 18
  | .or core w => decide (core < 640) && opIs w 19
  | .xor core w => decide (core < 640) && opIs w 20
  | .shl core w => decide (core < 640) && opIs w 21
  | .shr core w => decide (core < 640) && opIs w 22
  | .sra core w => decide (core < 640) && opIs w 23
  | .mul core w => decide (core < 640) && opIs w 24
  | .mulhu core w => decide (core < 640) && opIs w 25
  | .min core w => decide (core < 640) && opIs w 26
  | .max core w => decide (core < 640) && opIs w 27
  | .minu core w => decide (core < 640) && opIs w 28
  | .maxu core w => decide (core < 640) && opIs w 29
  | .mov core w => decide (core < 640) && opIs w 30
  | .popc core w => decide (core < 640) && opIs w 31
  | .addi core w => decide (core < 640) && opIs w 32
  | .andi core w => decide (core < 640) && opIs w 34
  | .ori core w => decide (core < 640) && opIs w 35
  | .xori core w => decide (core < 640) && opIs w 36
  | .shli core w => decide (core < 640) && opIs w 37
  | .shri core w => decide (core < 640) && opIs w 38
  | .srai core w => decide (core < 640) && opIs w 39
  | .muli core w => decide (core < 640) && opIs w 40
  | .movi core w => decide (core < 640) && opIs w 46
  | .movhi core w => decide (core < 640) && opIs w 47
  | .cmpeq core w => decide (core < 640) && opIs w 48
  | .cmpne core w => decide (core < 640) && opIs w 49
  | .cmplt core w => decide (core < 640) && opIs w 50
  | .cmpltu core w => decide (core < 640) && opIs w 51
  | .cmpge core w => decide (core < 640) && opIs w 52
  | .cmpgeu core w => decide (core < 640) && opIs w 53
  | .pand core w => decide (core < 640) && opIs w 56
  | .por core w => decide (core < 640) && opIs w 57
  | .pxor core w => decide (core < 640) && opIs w 58
  | .pandn core w => decide (core < 640) && opIs w 59
  | .nop core w => decide (core < 640) && opIs w 1
  | .end_ core w => decide (core < 640) && opIs w 2
  | .br core w => decide (core < 640) && opIs w 3
  | .call core w => decide (core < 640) && opIs w 4
  | .jr core w => decide (core < 640) && opIs w 5
  | .lds core w _ => decide (core < 640) && opIs w 64
  | .sts core w => decide (core < 640) && opIs w 65
  | .vld core w _ => decide (core < 640) && opIs w 68
  | .vst core w => decide (core < 640) && opIs w 69
  | .ldg core w _ => decide (core < 640) && opIs w 80
  | .stg core w _ => decide (core < 640) && opIs w 81
  | .mfence core w => decide (core < 640) && opIs w 82
  | .dma core w _ => decide (core < 640) && opIs w 96
  | .dmaWait core w => decide (core < 640) && opIs w 97
  | .dmaWaitall core w => decide (core < 640) && opIs w 98
  | .sig core w => decide (core < 640) && opIs w 112
  | .wait core w => decide (core < 640) && opIs w 113
  | .bar core w => decide (core < 640) && opIs w 114
  | .semrd core w => decide (core < 640) && opIs w 115
  | .sysr core w => decide (core < 640) && opIs w 128
  | .accClr core w => decide (core < 640) && opIs w 144
  | .mm core w => decide (core < 640) && opIs w 160
  | .accRaw core w => decide (core < 640) && opIs w 164
  | .accExp core w => decide (core < 640) && opIs w 169
  | .accWr core w => decide (core < 640) && opIs w 168
  | .matrixDispatch core _ => decide (core < 640)
  | .vectorDispatch core _ => decide (core < 640)
  | .vadd core w => decide (core < 640) && opIs w 192
  | .vsub core w => decide (core < 640) && opIs w 193
  | .vmul core w => decide (core < 640) && opIs w 194
  | .vfma core w => decide (core < 640) && opIs w 195
  | .vmin core w => decide (core < 640) && opIs w 196
  | .vmax core w => decide (core < 640) && opIs w 197
  | .vabs core w => decide (core < 640) && opIs w 198
  | .vneg core w => decide (core < 640) && opIs w 199
  | .vcmp core w => decide (core < 640) && opIs w 200
  | .vsel core w => decide (core < 640) && opIs w 201
  | .viadd core w => decide (core < 640) && opIs w 202
  | .vand core w => decide (core < 640) && opIs w 203
  | .vor core w => decide (core < 640) && opIs w 204
  | .vxor core w => decide (core < 640) && opIs w 205
  | .vshl core w => decide (core < 640) && opIs w 206
  | .vshr core w => decide (core < 640) && opIs w 207
  | .vsfu core w => decide (core < 640) && opIs w 208
  | .vcvt core w => decide (core < 640) && opIs w 216
  | .vred core w => decide (core < 640) && opIs w 218
  | .vrmax core w => decide (core < 640) && opIs w 219
  | .vacc core w => decide (core < 640) && opIs w 220
  | .vwpf core w => decide (core < 640) && opIs w 221
  | .vperm core w => decide (core < 640) && opIs w 222
  | .dmaLineIssue core _ => decide (core < 640)
  | .dmaReadReply core _ => decide (core < 640)
  | .dmaWriteTagReturn core _ => decide (core < 640)
  | .signalDelivery _ _ => true
  | .sqDoorbell fn page ring _ => Fn.wf fn && decide (page < 65) && decide (ring < 16)
  | .sqEnable fn page ring _ => Fn.wf fn && decide (page < 65) && decide (ring < 16)
  | .cqEnable fn page ring _ => Fn.wf fn && decide (page < 65) && decide (ring < 16)
  | .resume fn page ring _ => Fn.wf fn && decide (page < 65) && decide (ring < 16)
  | .cqHeadWrite fn page ring _ => Fn.wf fn && decide (page < 65) && decide (ring < 16)
  | .syncCounterAccess fn page n _ => Fn.wf fn && decide (page < 65) && decide (n < 256)
  | .packetFetch page ring _ _ => decide (page < 65) && decide (ring < 16)
  | .nopCommand _ => true
  | .fence _ => true
  | .signal _ => true
  | .waitCommand _ => true
  | .waitTimeout _ => true
  | .launch _ => true
  | .attemptStart _ => true
  | .coreReturnBound core => decide (core < 640)
  | .attemptEnd _ => true
  | .commitMergeCopy _ _ _ => true
  | .publish _ => true
  | .shadowFrameReturn _ => true
  | .completionRecordWrite _ => true
  | .commit _ => true
  | .abandon _ => true
  | .copy _ => true
  | .fill _ => true
  | .loadSealed _ => true
  | .storeSealed _ _ => true
  | .reduce _ => true
  | .gather _ => true
  | .scatter _ => true
  | .barrier _ => true
  | .handoffOffer _ => true
  | .handoffAccept _ => true
  | .handoffRelease _ => true
  | .handoffAudit _ => true
  | .map _ => true
  | .unmap _ => true
  | .syncTable _ _ => true
  | .withdrawalDrainEnd _ => true
  | .compaction colony _ => colonyWf colony
  | .bind _ => true
  | .unbind _ => true
  | .teardown _ => true
  | .rebind _ => true
  | .queryMap _ => true
  | .mapUpdate _ => true
  | .oldEntryRetire colony => colonyWf colony
  | .channelWipeDone channel _ => decide (channel < 512)
  | .portLeaveDrainEnd port => decide (port < 16)
  | .coreReplacement core => decide (core < 640)
  | .colonyReset colony => colonyWf colony
  | .attest _ => true
  | .keyLoad _ _ => true
  | .keyRetire _ => true
  | .keyZeroise slot => decide (slot < 128)
  | .keySlotCheckFail slot => decide (slot < 128)
  | .sealSession _ _ => true
  | .readFault _ => true
  | .sample _ => true
  | .perturb _ => true
  | .perturbExpiry point => decide (point < 64)
  | .killComplete core _ => decide (core < 640)
  | .timeSliceEnd colony => colonyWf colony
  | .nplimitReached _ => true
  | .coreFence core => decide (core < 640)
  | .coreClrCnt core => decide (core < 640)
  | .translationWalk agent colony _ _ _ => decide (agent < 680) && colonyWf colony
  | .translationRecordTimeout record => decide (record < 512)
  | .gets agent channel offset _ => decide (agent < 680) && decide (channel < 512) && lineWf offset
  | .getm agent channel offset _ _ => decide (agent < 680) && decide (channel < 512) && lineWf offset
  | .ncr agent channel offset _ => decide (agent < 680) && decide (channel < 512) && lineWf offset
  | .ncw agent channel offset _ => decide (agent < 680) && decide (channel < 512) && lineWf offset
  | .putm agent channel offset => decide (agent < 680) && decide (channel < 512) && lineWf offset
  | .drop agent channel offset => decide (agent < 680) && decide (channel < 512) && lineWf offset
  | .forwardedRequest agent channel offset => decide (agent < 680) && decide (channel < 512) && lineWf offset
  | .ownerResponse agent channel offset => decide (agent < 680) && decide (channel < 512) && lineWf offset
  | .invalidation agent channel offset => decide (agent < 680) && decide (channel < 512) && lineWf offset
  | .invalidationAck agent channel offset => decide (agent < 680) && decide (channel < 512) && lineWf offset
  | .nackRetry agent channel offset => decide (agent < 680) && decide (channel < 512) && lineWf offset
  | .agentUnresponsive agent channel offset => decide (agent < 680) && decide (channel < 512) && lineWf offset
  | .meshFlitReplay die _ => decide (die < 4)
  | .hbmRead channel offset _ _ _ _ => decide (channel < 512) && lineWf offset
  | .hbmWrite channel offset _ _ => decide (channel < 512) && lineWf offset
  | .refresh channel _ _ => decide (channel < 512)
  | .calibrationSlot channel _ _ _ _ => decide (channel < 512)
  | .retrainDone channel _ => decide (channel < 512)
  | .remapCopy channel => decide (channel < 512)
  | .patrolScrub channel row line _ => decide (channel < 512) && decide (row < 966656) && decide (line < 32)
  | .hbcClrCnt channel => decide (channel < 512)
  | .hbcClrPeak channel => decide (channel < 512)
  | .windowBoundary _ _ _ => true
  | .voltageReached die => decide (die < 4)
  | .droopTrip die => decide (die < 4)
  | .droopHoldExpiry die _ => decide (die < 4)
  | .senseBelowMinimum die => decide (die < 4)
  | .railOutOfTolerance rail => decide (rail < 12)
  | .pllLockLoss die => decide (die < 5)
  | .thermalTrip _ => true
  | .coolantOkLow => true
  | .coolantLoss => true
  | .pwrCoolClr => true
  | .hangWindowExpiry _ => true
  | .engineResetDone _ => true
  | .engineResetTimeout _ => true
  | .watchdogExpiry ctrl => decide (ctrl < 16)
  | .reactionWindowExpiry record => decide (record < 1024)
  | .fltAckKeep record => decide (record < 512)
  | .fltAckFence record => decide (record < 512)
  | .quarantineTimeout die => decide (die < 4)
  | .aliveToggle => true
  | .inject _ => true
  | .perturbEnableWrite _ => true
  | .tagHoldExpiry port _ => decide (port < 16)
  | .portEnWrite port _ => decide (port < 16)
  | .portFence port => decide (port < 16)
  | .portUnfence port => decide (port < 16)
  | .portRetrain port => decide (port < 16)
  | .zltClrCnt port => decide (port < 16)
  | .eventRingEnable _ => true
  | .partnerPresence port _ => decide (port < 16)
  | .trainingDone port _ _ => decide (port < 16)
  | .trainTimeout port _ => decide (port < 16)
  | .discoveryDescriptor port _ => decide (port < 16)
  | .authentication port _ _ _ _ => decide (port < 16)
  | .laneFailing port lane => decide (port < 16) && decide (lane < 64)
  | .laneRetrainDone port lane _ => decide (port < 16) && decide (lane < 64)
  | .lossOfPartner port _ => decide (port < 16)
  | .detectHoldoffExpiry port => decide (port < 16)
  | .flitReceive port _ => decide (port < 16)
  | .nak port _ _ => decide (port < 16)
  | .creditReturn port _ _ => decide (port < 16)
  | .creditReturnTimer port _ => decide (port < 16)
  | .rekey port => decide (port < 16)
  | .rekeyAcknowledged port => decide (port < 16)
  | .sessionRefreshDone port => decide (port < 16)
  | .fabricAddressWrite _ => true
  | .windowWrite => true
  | .windowRead => true
  | .windowRevoke => true
  | .transitForward inPort t => decide (inPort < 16) && Transit.wf t
  | .writePacket port h _ => decide (port < 17) && h.wf
  | .addPacket port h _ => decide (port < 17) && h.wf
  | .readPacket port h _ => decide (port < 17) && h.wf
  | .readData port h _ => decide (port < 17) && h.wf
  | .wack port h => decide (port < 17) && h.wf
  | .refuse port h => decide (port < 17) && h.wf
  | .barrierMessage port _ _ _ _ => decide (port < 17)
  | .peerAbort port _ _ _ _ => decide (port < 17)
  | .revoke port _ => decide (port < 17)
  | .instarRetire port _ _ _ => decide (port < 17)
  | .ack port _ _ _ => decide (port < 17)
  | .busy port _ _ => decide (port < 17)
  | .offer port _ _ _ _ _ _ => decide (port < 17)
  | .accept port _ _ _ => decide (port < 17)
  | .release port _ _ _ => decide (port < 17)
  | .auditQ port _ _ _ _ => decide (port < 17)
  | .auditR port _ _ _ => decide (port < 17)
  | .controlRetransmit _ => true
  | .fabricTimeout port _ _ => decide (port < 16)
  | .collectiveBusyRetry port _ => decide (port < 16)
  | .handoffTimer _ => true
  | .declinedExpiry _ => true
  | .powerOn => true
  | .perstNAssert => true
  | .perstNRelease => true
  | .hotReset => true
  | .surpriseRemoval => true
  | .bootSelftest _ _ _ _ _ _ _ => true
  | .lowerTreeDone => true
  | .bootPrepDone _ _ => true
  | .bootGo _ _ => true
  | .bootPpr _ => true
  | .bonorLoad => true
  | .vfFlr vf => decide (vf < 64)
  | .vfEnableClear => true
  | .helloA _ _ _ => true
  | .authA _ _ _ => true
  | .queryState _ => true
  | .lcToken _ _ _ => true
  | .setFwPolicy _ _ _ => true
  | .bundleBegin _ _ => true
  | .bundleData _ _ _ => true
  | .bundleEnd _ _ => true
  | .advanceSvn _ _ => true
  | .mgmtAttest _ _ => true
  | .setPowerCap _ _ => true
  | .getTelemetry _ _ => true
  | .subscribe _ => true
  | .telemetryPush _ => true
  | .faultHistory _ _ _ => true
  | .mgmtReset _ _ => true
  | .transition _ _ => true
  | .handover _ _ _ => true
  | .retire _ _ => true
  | .mgmtDelayExpiry _ => true
  | .mgmtSessionExpiry _ => true
  | .registerWrite fn _ _ _ size => Fn.wf fn && (size == 4 || size == 8)
  | .unassignedOpcode core w => decide (core < 640) && !assigned w
  | .copyEngineLine engine _ _ => decide (engine < 16)
  | .copyEngineFault engine => decide (engine < 16)
  | .sliceAllocatorFault slice => decide (slice < 512)
  | .controlCoreUncorrectableError ctrl => decide (ctrl < 16)
  | .collectorSelfCheckFailure => true
  | .hotResetEnd => true
  | .pcieLinkTrainingDone => true
  | .configurationRetryEnd => true
  | .hostReadCompletion _ _ _ => true
  | .completionTimeout _ => true
  | .vfEnableSet _ => true
  | .d3hot fn _ => Fn.wf fn
  | .msiXVectorUnmask fn _ => Fn.wf fn
  | .coolantOkHigh => true
  | .handoffWaitTimeout _ => true
  | .flrWaitCut vf => decide (vf < 64)
  | .neighborDiscovery _ _ => true
  | .icmpv6Echo _ => true
  | .pauseFrame _ => true

end Sys2Proof
end

