-- ==== Sys2Proof/Decode.lean ====
section
/-! DEFINITION. Commands read from words. spec/opcode_table.json gives no row any bits: the device takes commands, not
words, so no word spells one. The kernel's own 64-bit words are read by Machine/Operands.lean (R70 to R72). -/

namespace Sys2Proof

/-- The command that a word of the opcode table spells: none, since the table gives its rows no bits. -/
def decodeTableWord (_nbits _w : Nat) : Option Instr := none

end Sys2Proof
end

