-- ==== Sys2Proof/Config.lean ====
section
/-! DEFINITION. What the spec leaves open as a value: constants without a body, so that nothing can be proved of them
but what the spec says. State.free counts the values drawn. -/

namespace Sys2Proof

/-- The result of VSFU function `f` on an input for which R117 states none: RSQRT of +Infinity. Free value, log entry 15. -/
opaque Config.sfu (f : Nat) (x : Lane) : Lane

/-- Which of the encodings within R117's error bound VSFU function `f` gives, the same for the same input on every EB9600
(R64): taken modulo their number. Free value, log entry 15. -/
opaque Config.ulpChoice (f : Nat) (x : Lane) : Nat

/-- The 64 bytes of AES-256-GCM key stream that a key and a 96-bit IV give for the n-th 64-byte block (R401, R402, R404).
The cipher is its standard's, not this model's: log entry 22. -/
opaque Config.gcmStream (key : BitVec 256) (iv n : Nat) : BitVec 512

/-- The GCM tag over additional authenticated data and a ciphertext (R401, R402, R404). Log entry 22. -/
opaque Config.gcmTag (key : BitVec 256) (iv : Nat) (aad ct : List Byte) : BitVec 128

/-- A digest, key derivation or signature that the spec takes from its standards (R381, R382, R390, R394, R403), as a
number made of its inputs. Log entry 22. -/
opaque Config.digest (label : Nat) (data : List Byte) : Nat

/-- The 56 content bytes of a LINK flit of a kind with its fields, sealed under the link's key where R332 seals it: R320 names what
LINK flits carry and gives no layout. Log entry 115. -/
opaque Config.linkContent (key : BitVec 256) (kind : Nat) (body : List Nat) : List Byte

/-- The bytes between a packet's payload and its tag (R321, R330), which the spec does not give. Log entry 115. -/
opaque Config.linkGap (i : Nat) : Byte

/-- The hash of source, destination and job group that spreads flows over ports (R335, R343). Free value, log entry 28. -/
opaque Config.flowHash (src dst job : Nat) : Nat

/-- SHA-384 of the boot ROM, fixed per silicon revision (R390). Log entry 22. -/
opaque Config.romId : Nat

/-- The tile of a channel's slice, which the boot fixes (R245) and the spec does not give. Log entry 32. -/
opaque Config.sliceTile (channel : Nat) : Nat

/-- Pseudo-channel, bank and physical row, as bits [33:9] of R465's entry, of a channel's addressable row: the controller's
mapping (R234), which the spec does not give. Log entry 32. -/
opaque Config.rowPlace (row : Nat) : Nat

/-- How many refreshes of a bank the JEDEC standard lets a controller postpone (R238); the spec does not give the number. Log
entry 103. -/
opaque Config.refreshAllowance : Nat

/-- The n-th free value drawn: where the spec leaves a result open and the machine goes on. Log entry 4. -/
opaque Config.freeValue (n : Nat) : Nat

end Sys2Proof
end

