-- ==== Sys2Proof/Machine/State.lean ====
section
/-! DEFINITION. The state of the device as plain data: every register, memory, queue, table and pin that the spec
names, each field with its width, its rule and its value at reset. A table `Tbl` lists only the entries that have been
written; an entry not listed holds the default that its reader names. -/

namespace Sys2Proof.Machine

/-- A table of numbered entries, sorted by number; entries not listed hold their default. -/
abbrev Tbl (α : Type) := List (Nat × α)

/-- CORE.STATE.STATE (R34, R38). -/
inductive CoreState where
  | idle
  | bound
  | running
  | killed
  | fenced
  deriving DecidableEq, Repr

/-- The special state of an accumulator element (R46). -/
inductive Special where
  | finite
  | posInf
  | negInf
  | nan
  deriving DecidableEq, Repr

/-- One element of an accumulator tile (R46): 136-bit sum and special state. -/
structure Elem where
  sum : BitVec 136 := 0
  st : Special := .finite
  deriving DecidableEq, Repr

/-- An accumulator tile (R28, R46, R52). -/
structure Tile where
  /-- elements by 128·row + column; 136-bit sum and state each; R28, R46; reset 0, FINITE (wiped, R469) -/
  elems : Tbl Elem := []
  /-- sticky LOW flag; 1 bit; R46; reset 0 -/
  low : Bool := false
  /-- sticky HIGH flag; 1 bit; R46; reset 0 -/
  high : Bool := false
  /-- anchor; signed 10 bits; R47, R69; reset 0 -/
  anchor : Int := 0
  /-- anchor mode code; 2 bits; R52, R69; reset 0 (KERNEL) -/
  mode : Nat := 0
  deriving DecidableEq, Repr

/-- A matrix or vector instruction in its queue (R92): its word, its index, its program order and the scalar operands
read at issue (R104, R114). -/
structure QInstr where
  word : Word
  index : Nat
  order : Nat
  x : Word := 0
  y : Word := 0
  z : Word := 0
  u : Word := 0
  deriving DecidableEq, Repr

/-- A descriptor in the DMA engine (R82 to R85). -/
structure DmaDesc where
  id : Nat
  group : Nat
  toHbm : Bool
  list : Bool
  va : Nat
  spo : Nat
  lspo : Nat
  lines : Nat
  rows : Nat
  hstride : Int
  sstride : Nat
  /-- lines issued so far -/
  issued : Nat := 0
  /-- lines whose reply or write tag is still out -/
  out : Nat := 0
  /-- scratchpad offset of the descriptor -/
  offset : Nat
  /-- program order of its DMA among queued instructions (R93) -/
  order : Nat := 0
  word : Word
  index : Nat
  deriving DecidableEq, Repr

/-- An outstanding DMA tag (R31 to R33). -/
structure DmaTag where
  tag : Nat
  write : Bool
  urgent : Bool
  epoch : Nat
  desc : Nat
  spo : Nat
  data : List Byte
  instar : Nat
  colony : Nat
  /-- the command whose attempt issued it, and which attempt (R176) -/
  cmd : Nat
  attempt : Nat := 0
  /-- commands finished on the device when it was issued: what a publish's drain waits for (R170 step 6) -/
  mark : Nat := 0
  /-- translation epoch it carries (R306) -/
  xepoch : Bool := false
  /-- channel of its line -/
  chan : Nat := 0
  deriving DecidableEq, Repr

/-- The state of a line in a caching agent (R272). -/
inductive CacheMode where
  | shared
  | exclusive
  | modified
  deriving DecidableEq, Repr

/-- A line in a coherent cache (R29, R267): home channel, channel byte offset, its data. -/
structure CacheLine where
  channel : Nat
  offset : Nat
  mode : CacheMode
  data : List Byte
  deriving DecidableEq, Repr

/-- A cached leaf in a translation cache (R296). -/
structure TcEntry where
  colony : Nat
  instar : Nat
  va : Nat
  size : Nat
  dpa : Nat
  r : Bool
  w : Bool
  i : Bool
  deriving DecidableEq, Repr

/-- What a request carries (R197, R306): its colony, the instar and the translation epoch it was issued under. -/
structure ReqStamp where
  colony : Nat := 0
  instar : Nat := 0
  epoch : Bool := false
  deriving DecidableEq, Repr

/-- Why a core does not retire (R89, R299). -/
inductive Stall where
  | none
  | semaphore
  | barrier
  | dmaWait
  | translation
  deriving DecidableEq, Repr

/-- One core number and the physical core that holds it (R16, R38, R68). -/
structure Core where
  /-- CORE.ID.PHYS, physical tile; 8 bits; R38; reset Boot (0xFF until the boot assigns one) -/
  phys : Nat := 0xFF
  /-- CORE.STATE.STATE; 3 bits; R34, R38; reset 0 IDLE -/
  st : CoreState := .idle
  /-- CORE.STATE.COLONY; 7 bits; R38; reset 0 -/
  colony : Nat := 0
  /-- CORE.STATE.INSTAR; 8 bits; R38; reset 0 -/
  instar : Nat := 0
  /-- CORE.STATE.WIPE_BUSY; 1 bit; R38; reset 0 -/
  wipeBusy : Bool := false
  /-- CORE.STATE.REPLACE_PENDING; 1 bit; R38, R39; reset 0 -/
  replacePending : Bool := false
  /-- CORE.PROG.SEQ_PROG; 32 bits; R38; reset 0 -/
  seqProg : Nat := 0
  /-- instructions retired since SEQ_PROG last advanced; 8 bits; R38; reset 0 -/
  retired : Nat := 0
  /-- CORE.PROG.DMA_PROG; 32 bits; R38; reset 0 -/
  dmaProg : Nat := 0
  /-- CORE.ERR [7:0]; 8 bits; R38; reset 0 -/
  err : BitVec 8 := 0
  /-- CORE.CECNT.SP_CE; 16 bits; R38; reset 0 -/
  spCe : Nat := 0
  /-- CORE.CECNT.DC_CE; 16 bits; R38; reset 0 -/
  dcCe : Nat := 0
  /-- CORE.SPBANK.SPARE0_MAP; 6 bits; R38; reset 0x3F -/
  spare0 : Nat := 0x3F
  /-- CORE.SPBANK.SPARE1_MAP; 6 bits; R38; reset 0x3F -/
  spare1 : Nat := 0x3F
  /-- CORE.SPBANK.PENDING; 6 bits; R27, R38; reset 0x3F -/
  pend1 : Nat := 0x3F
  /-- CORE.SPBANK.PENDING2; 6 bits; R27, R38; reset 0x3F -/
  pend2 : Nat := 0x3F
  /-- CORE.SPBANK.OVER; 1 bit; R27, R38; reset 0 -/
  overBank : Bool := false
  /-- correctable errors per bank within one binding; R27; reset 0 -/
  bankCe : Tbl Nat := []
  /-- core SRAM uncorrectable errors within one binding; R415; reset 0 -/
  sramUe : Nat := 0
  /-- accumulator uncorrectable errors within one binding; R28; reset 0 -/
  accUe : Nat := 0
  /-- CORE.DMAQ.EPOCH, kill epoch; 4 bits; R33, R38; reset 0 -/
  epoch : Nat := 0
  /-- the advance of the kill epoch is held back, since tags of its next value are still out; R33; reset 0 -/
  epochHeld : Bool := false
  /-- outstanding DMA tags (CORE.DMAQ RD_OUT, WR_OUT, URG_OUT count them); R31, R33; reset none -/
  tags : List DmaTag := []
  /-- s0-s31; 32 × 64 bits; R68; reset 0 (wiped core; R69 sets 0 at a kernel's start) -/
  sregs : Tbl Word := []
  /-- v0-v31, lane i of v[n] at 256·n + i; 32 × 256 × 32 bits; R68; reset 0 -/
  vregs : Tbl Lane := []
  /-- p0-p7; 8 bits; R68; reset 0x01 (p0 reads 1) -/
  preds : BitVec 8 := 1
  /-- PC; 13 bits; R68; reset 0 -/
  pc : Nat := 0
  /-- acc0; R68; reset cleared -/
  acc0 : Tile := {}
  /-- acc1; R68; reset cleared -/
  acc1 : Tile := {}
  /-- semaphores; 16 × 32 bits; R68; reset 0 -/
  sems : Tbl Nat := []
  /-- DMA groups, outstanding descriptors; 16 counters; R68, R82; reset 0 -/
  groups : Tbl Nat := []
  /-- scratchpad bytes that are not 0; 1.5 MiB; R21; reset wiped, 0 (R13, R469) -/
  sp : List Host.Cell := []
  /-- instruction memory, CODE_LEN words, the rest zero words; 8,192 × 64 bits; R20, R96; reset wiped, 0 -/
  im : List Word := []
  /-- digest of the image the core holds; R96; reset none -/
  image : Option Nat := none
  /-- matrix queue; 8 entries; R92; reset empty -/
  mq : List QInstr := []
  /-- vector queue; 8 entries; R92; reset empty -/
  vq : List QInstr := []
  /-- program order of the next queued instruction; R92; reset 0 -/
  order : Nat := 0
  /-- DMA descriptors queued; 64; R82; reset empty -/
  dq : List DmaDesc := []
  /-- next descriptor number; R82; reset 0 -/
  nextDesc : Nat := 0
  /-- data cache; 128 lines; R29, R272; reset empty (wiped) -/
  dc : List CacheLine := []
  /-- translation cache; 64 entries; R30, R296; reset empty -/
  tc : List TcEntry := []
  /-- LOW_SPILL of the running command; 1 bit; R51; reset 0 -/
  lowSpill : Bool := false
  /-- HIGH_SPILL of the running command; 1 bit; R51; reset 0 -/
  highSpill : Bool := false
  /-- the command whose attempt the core runs; R164; reset none -/
  cmd : Option Nat := none
  /-- rank within the attempt; 10 bits; R97; reset 0 -/
  rank : Nat := 0
  /-- END executed in the running attempt; R87, R92; reset 0 -/
  ended : Bool := false
  /-- BARs executed; R88; reset 0 -/
  bars : Nat := 0
  /-- what the core stalls on; R89, R419; reset none -/
  stall : Stall := .none
  /-- address that the sequencer's LDG or STG waits to have translated, and whether it writes; R81, R299; reset none -/
  want : Option (Nat × Bool) := none
  /-- address that the DMA engine's next line waits to have translated, and whether it writes; R85, R299; reset none -/
  dmaWant : Option (Nat × Bool) := none
  /-- home colony of a lent core; R184; reset 0 (none) -/
  home : Nat := 0
  /-- urgent LAUNCH that the core is taken for, or will be once it is free; R185; reset none -/
  heldFor : Option Nat := none
  /-- in transit between owners; R194; reset 0 -/
  transit : Bool := false
  /-- named by a running composition command; R203; reset none -/
  claim : Option Nat := none
  /-- a composition command has completed since the fence: its replacement is due; R39; reset 0 -/
  replaceDue : Bool := false
  deriving DecidableEq, Repr

/-- A signal on its way to a semaphore (R86, R87). -/
structure SignalMsg where
  cmd : Nat
  src : Nat
  dst : Nat
  sem : Nat
  value : Nat
  index : Nat
  word : Word
  /-- descriptors numbered below this were issued earlier: the release condition -/
  after : Nat
  deriving DecidableEq, Repr

/-- HUB.SQSTAT.STATE (R133). -/
inductive SqState where
  | disabled
  | running
  | stopped
  deriving DecidableEq, Repr

/-- A submission ring's registers (R133). -/
structure SqRing where
  /-- HUB.SQBASE.BASE, host address bits [63:12]; 52 bits; R133; reset 0 -/
  base : Nat := 0
  /-- HUB.SQCFG.LOG2N; 5 bits; R133; reset 0 -/
  log2n : Nat := 0
  /-- HUB.SQCFG.ENABLE; 1 bit; R133; reset 0 -/
  enable : Bool := false
  /-- HUB.SQCFG.URGENT; 1 bit; R133, R136; reset 0 -/
  urgent : Bool := false
  /-- HUB.SQCFG.ERR_STOP; 1 bit; R133; reset 0 -/
  errStop : Bool := false
  /-- HUB.SQCFG.CQ; 4 bits; R133; reset 0 -/
  cq : Nat := 0
  /-- HUB.SQSTAT.HEAD; 16 bits; R133; reset 0 -/
  head : Nat := 0
  /-- the ring's tail, last accepted doorbell; 16 bits; R131, R134; reset 0 -/
  tail : Nat := 0
  /-- HUB.SQSTAT.STATE; 2 bits; R133; reset 0 DISABLED -/
  st : SqState := .disabled
  /-- HUB.SQSTAT.DBERR; 1 bit; R133, R134; reset 0 -/
  dberr : Bool := false
  /-- HUB.SQSTAT.FETCHERR; 1 bit; R133, R134; reset 0 -/
  fetcherr : Bool := false
  deriving DecidableEq, Repr

/-- A completion ring's registers (R133). -/
structure CqRing where
  /-- HUB.CQBASE.BASE; 52 bits; R133; reset 0 -/
  base : Nat := 0
  /-- HUB.CQCFG.LOG2N; 5 bits; R133; reset 0 -/
  log2n : Nat := 0
  /-- HUB.CQCFG.ENABLE; 1 bit; R133; reset 0 -/
  enable : Bool := false
  /-- HUB.CQCFG.VEC; 6 bits; R133; reset 0 -/
  vec : Nat := 0
  /-- HUB.CQCFG.IRQ_ALL; 1 bit; R133; reset 0 -/
  irqAll : Bool := false
  /-- HUB.CQHEAD.HEAD; 16 bits; R133; reset 0 -/
  head : Nat := 0
  /-- HUB.CQHEAD.TAIL; 16 bits; R133; reset 0 -/
  tail : Nat := 0
  /-- PHASE of the pass under way; 1 bit; R132, R135; DESIGN CHOICE 1 at reset, as at enabling (log entry 3) -/
  phase : Bool := true
  deriving DecidableEq, Repr

/-- Where a command stands (R157, R159, R164). -/
inductive Phase where
  /-- fetched and valid, not started -/
  | fetched
  /-- LAUNCH past steps 2 and 3, waiting for cores; or a movement waiting for engines -/
  | ready
  /-- carried out by Bonor directly and waiting inside its sequence -/
  | started
  /-- an attempt runs -/
  | running
  /-- killed: cores and engines stopping; then rerun, or ended with its status -/
  | killing
  /-- attempt ended, outputs not yet committed -/
  | ended
  /-- merge copies done -/
  | merged
  /-- deferred LAUNCH ended, outputs held -/
  | held
  /-- final status known; the record is due -/
  | done
  /-- record written, frames still to return -/
  | written
  deriving DecidableEq, Repr

/-- A shadow frame bound to an output page (R165, R168). -/
structure Shadow where
  /-- device-physical address of the page -/
  dpa : Nat
  /-- page size in bytes -/
  size : Nat
  /-- frame address of the shadow frame -/
  frame : Nat
  /-- written-line bitmap: the line numbers whose bit is set -/
  lines : List Nat := []
  deriving DecidableEq, Repr

/-- A page frame or a run of frames taken in one interleave set (R165, R293), by frame address. -/
structure Frames where
  colony : Nat
  start : Nat
  size : Nat
  deriving DecidableEq, Repr

/-- A step of a collective plan (R356). -/
structure PlanStep where
  op : Nat
  buf : Nat
  window : Nat
  peer : Nat
  loff : Nat
  roff : Nat
  count : Nat
  nsrc : Nat
  /-- units sent (sends) or, per unit, contributions received (expects) -/
  sent : Nat := 0
  acked : Nat := 0
  got : Tbl Nat := []
  bars : Nat := 0
  done : Bool := false
  deriving DecidableEq, Repr

/-- HUB.ACCT[c], eight 64-bit counters (R191). -/
structure Acct where
  /-- CORE_NS; 64 bits; R191; reset 0 -/
  coreNs : Nat := 0
  /-- HBMRD.LINES; 64 bits; R191; reset 0 -/
  hbmRd : Nat := 0
  /-- HBMWR.LINES; 64 bits; R191; reset 0 -/
  hbmWr : Nat := 0
  /-- HOSTIN.BYTES; 64 bits; R191; reset 0 -/
  hostIn : Nat := 0
  /-- HOSTOUT.BYTES; 64 bits; R191; reset 0 -/
  hostOut : Nat := 0
  /-- FABOUT.BYTES; 64 bits; R191; reset 0 -/
  fabOut : Nat := 0
  /-- ENERGY.UJ; 64 bits; R191, R192; reset 0 -/
  energy : Nat := 0
  /-- RECORDS.COUNT; 64 bits; R191; reset 0 -/
  records : Nat := 0
  deriving DecidableEq, Repr

/-- A frame on its way back to its pool (R170 step 6, R176): a shadow frame or reserve of an attempt, which waits for that attempt's
writes; or, with `drain`, an old frame, which waits for the requests of the colony up to that mark. -/
structure Giving where
  frame : Frames
  attempt : Nat
  drain : Option Nat := none
  deriving DecidableEq, Repr

/-- A command in the tracker (R160), with the record it will write (R153). -/
structure Cmd where
  /-- ring page that carried it; R129 -/
  page : Nat
  /-- submission ring; R153 -/
  ring : Nat
  /-- the 64 packet bytes; R138 -/
  pkt : List Byte
  /-- the indirect descriptor's bytes; R140 -/
  ind : List Byte := []
  /-- colony acted for; R130 -/
  colony : Nat
  /-- its ring was urgent when it was fetched; R136, R160 -/
  urgent : Bool := false
  phase : Phase := .fetched
  /-- final STATUS once known; R155 -/
  status : Nat := 0
  /-- DETAIL; R153 -/
  detail : Nat := 0
  /-- RESULT; R153 -/
  result : Nat := 0
  /-- LOW_SPILL, HIGH_SPILL; R51, R153 -/
  low : Bool := false
  high : Bool := false
  /-- HELD: deferred LAUNCH ended with outputs held; R153 -/
  held : Bool := false
  recovered : Bool := false
  /-- FAULT and FAULT_ID; R153 -/
  faultId : Option Nat := none
  attempts : Nat := 0
  /-- attempts ended by the faults of R156's second row -/
  faultRuns : Nat := 0
  /-- kills at the ends of turns; R182 -/
  turnKills : Nat := 0
  /-- core time charged, ns; R190 -/
  coreNs : Nat := 0
  /-- tick at which the running attempt started; R179, R190 -/
  startTick : Nat := 0
  /-- core time of the running attempt so far, ns; R190 -/
  attemptNs : Nat := 0
  /-- output regions (VA, length); R144, R152 -/
  regions : List (Nat × Nat) := []
  /-- core count n and the cores by rank; R97 -/
  n : Nat := 0
  cores : List Nat := []
  /-- BARs that each core of the attempt had executed at its END; R88 -/
  endBars : Tbl Nat := []
  /-- cores or engines whose kill is not yet complete; R175 -/
  killing : List Nat := []
  /-- what happens once the kill is complete: none reruns, some status ends it; R156 -/
  after : Option Nat := none
  /-- shadow frames bound; R165 -/
  shadows : List Shadow := []
  /-- frames reserved and not yet bound; R165 -/
  reserve : List Frames := []
  /-- frames waiting for their return to the pool; R170 step 6, R176 -/
  returning : List Giving := []
  /-- COMMIT or ABANDON that claimed it, or the target it claimed; R159 -/
  claimedBy : Option Nat := none
  target : Option Nat := none
  /-- the COMMIT or ABANDON that was fetched first for it; R159 -/
  takenBy : Option Nat := none
  /-- what the running attempt has counted and is not yet charged; R190, R191 -/
  use : Acct := {}
  /-- traffic class of its requests; R248 -/
  cls : Nat := 0
  /-- copy engines at work, and the bytes still to move; R169 -/
  engines : List Nat := []
  moved : Nat := 0
  /-- bytes collected for a report, record copy or blob that is written when the command ends; R169 -/
  buffer : List Byte := []
  /-- NPLIMIT in force at its start, µs; R179 -/
  npLimit : Nat := 0
  /-- image header fields read at step 3: CODE_LEN, ENTRY, SAMPLE0-3; R95 -/
  codeLen : Nat := 0
  entry : Nat := 0
  samples : List Nat := []
  /-- digest of the image read; R96 -/
  image : Nat := 0
  /-- collective plan and scratch; R356, R358 -/
  plan : List PlanStep := []
  members : Nat := 0
  scratch : Tbl Elem := []
  /-- the IV drawn at fetch; R402 -/
  iv : Nat := 0
  /-- stage of a sequence carried out by Bonor; R205, R206, R213, R306 -/
  stage : Nat := 0
  /-- units named by a composition command still to arrive; R207 -/
  units : List UnitRef := []
  /-- the command may no longer wait on faults or rerun (teardown, reset); R299 -/
  dying : Bool := false
  /-- its record is written; R154 -/
  recorded : Bool := false
  /-- when it finished, among all commands; R154's order of records -/
  fin : Nat := 0
  /-- MIN_CORES, MAX_CORES and CORE_MULT of the header read at step 3; R95, R97 -/
  hdr : List Nat := []
  /-- tick at which its ring's turn ended while it ran non-preemptibly; R183 -/
  turnOver : Option Nat := none
  /-- cores fenced in transit while a composition command moved them; R211 -/
  transitFenced : List Nat := []
  /-- shadow frames that a MAP or SYNC_TABLE waits for: set and size; R165, R295 -/
  needs : List (Nat × Nat) := []
  /-- table frames that a withdrawal has emptied and returns at its end; R306 -/
  emptied : List Nat := []
  deriving DecidableEq, Repr

/-- HUB.RUNCTL (R181). -/
structure RunCtl where
  /-- NP_ALLOW; 1 bit; R181; reset 0 -/
  npAllow : Bool := false
  /-- RECALL; 1 bit; R181, R184; reset 0 -/
  recallOn : Bool := false
  /-- SLICE; 10 bits; R181; reset 20 -/
  slice : Nat := 20
  deriving DecidableEq, Repr

/-- HUB.CLASS[c] (R261). -/
structure ClassCfg where
  /-- MIN; 8 bits; R261; reset 16 -/
  min : Nat := 16
  /-- WEIGHT; 8 bits; R261; reset 16 -/
  weight : Nat := 16
  /-- QMIN; 10 bits; R261; reset 64 -/
  qmin : Nat := 64
  /-- CAPMIN; 4 bits; R261; reset 1 -/
  capmin : Nat := 1
  deriving DecidableEq, Repr

/-- A hub copy engine (R169, R296). -/
structure CopyEngine where
  /-- in service; R417; reset 1 -/
  inService : Bool := true
  /-- command it works for; R169; reset none -/
  cmd : Option Nat := none
  /-- faults within 1 s; R415; reset 0 -/
  faults : Nat := 0
  /-- tick of its latest fault; R415; reset 0 -/
  faultTick : Nat := 0
  /-- line buffer; 64 lines; R267; reset empty -/
  lines : List CacheLine := []
  /-- translation cache; 64 entries; R296; reset empty -/
  tc : List TcEntry := []
  /-- address that waits to be translated, and whether it writes; R299; reset none -/
  want : Option (Nat × Bool) := none
  deriving DecidableEq, Repr

/-- A hub control core (R421, R461). -/
inductive CtrlCore where
  | untested
  | failed
  | active
  | standby
  | unused
  | fenced
  deriving DecidableEq, Repr

/-- The hub: rings, tracker limits, run control, counters, engines (R129 to R192). -/
structure Hub where
  /-- submission rings by 16·page + ring; 65 × 16; R129, R133; reset as SqRing -/
  sqs : Tbl SqRing := []
  /-- completion rings by 16·page + ring; 65 × 16; R129, R133; reset as CqRing -/
  cqs : Tbl CqRing := []
  /-- HUB.SYNC by 256·page + n; 64 bits each; R133, R158; reset 0 -/
  syncs : Tbl Word := []
  /-- urgent rings (page, ring) in the order their doorbells were noticed; R137; reset none -/
  urgOrder : List (Nat × Nat) := []
  /-- the normal ring being visited (page, ring) and the packets taken from it; up to 16; R137; reset none -/
  visit : Option (Nat × Nat × Nat) := none
  /-- the page that had the latest turn, and each page's ring that had its latest turn; R137; reset 64 and 15: page 0 and ring 0
  come first (DESIGN CHOICE, log entry 108) -/
  lastPage : Nat := 64
  lastRing : Tbl Nat := []
  /-- HUB.TRKLIM[c].LIMIT; 12 bits; R161; reset 256 -/
  trkLim : Tbl Nat := []
  /-- HUB.RUNCFG.NPLIMIT; 11 bits; R180; reset 100 -/
  npLimit : Nat := 100
  /-- HUB.RUNCTL[c]; R181; reset 0, 0, 20 -/
  runCtl : Tbl RunCtl := []
  /-- HUB.ACCT[c]; 8 × 64 bits; R191; reset 0 -/
  acct : Tbl Acct := []
  /-- record sequence CSEQ per ring page; 32 bits; R153; reset 1 -/
  cseq : Tbl Nat := []
  /-- HUB.CLASS[c] in force, c = 1-6; R261; reset 16, 16, 64, 1 -/
  classes : Tbl ClassCfg := []
  /-- HUB.CLASS writes waiting for the boundary; R259, R260; reset none -/
  classesNext : Tbl ClassCfg := []
  /-- HUB.REGCTL.MODE; 1 bit; R261; reset 0 -/
  regMode : Bool := false
  /-- HUB.REGCTL.OUTLIM; 9 bits; R261; reset 64 -/
  outLim : Nat := 64
  /-- HUB.REGCTL.PMAX; 10 bits; R261; reset 64 -/
  pMax : Nat := 64
  /-- HUB.REGCTL write waiting for the boundary (MODE, OUTLIM, PMAX); R259; reset none -/
  regNext : Option (Bool × Nat × Nat) := none
  /-- HUB.REGSTAT.REJECT; 1 bit; R261; reset 0 -/
  regReject : Bool := false
  /-- window boundaries until the device-wide cold window ends (HUB.REGSTAT.COLD while above 0); R259, R261; reset 2 (COLD 1) -/
  cold : Nat := 2
  /-- class-0 lines have crossed the mesh in the present window; R263, R265; reset 0 -/
  urgSeen : Bool := false
  /-- HUB.REGSTAT.WINDOWS; 32 bits; R261; reset 0 -/
  windows : Nat := 0
  /-- HUB.SEXTON.AGENT; 10 bits; R283; reset 0 -/
  sextonAgent : Nat := 0
  /-- HUB.SEXTON.LOST; 16 bits; R283; reset 0 -/
  sextonLost : Nat := 0
  /-- HUB.SEXTON.SWEEPS; 16 bits; R283; reset 0 -/
  sextonSweeps : Nat := 0
  /-- hub copy engines 0-15; R169; reset in service, idle -/
  engines : Tbl CopyEngine := []
  /-- hub control cores 0 upward (8 active and standby after boot); R421, R461; reset untested -/
  ctrl : Tbl CtrlCore := []
  /-- control core caches, 512 lines each; R267; reset empty -/
  ctrlLines : Tbl (List CacheLine) := []
  /-- translation caches of the control cores; 64 entries each; R296; reset empty -/
  ctrlTc : Tbl (List TcEntry) := []
  /-- commands finished so far, the order of records; R154; reset 0 -/
  finished : Nat := 0
  deriving DecidableEq, Repr

/-- COL.STATE.STATE (R202). -/
inductive ColState where
  | free
  | binding
  | active
  | resetting
  | teardown
  deriving DecidableEq, Repr

/-- A generation entry of the colony map (R196). -/
structure MapEntry where
  /-- VALID; 1 bit; R196; reset 0 (hub SRAM wiped) -/
  valid : Bool := false
  /-- MERGED; 1 bit; R196; reset 0 -/
  merged : Bool := false
  /-- INSTAR; 8 bits; R196, R198; reset 0 -/
  instar : Nat := 0
  /-- INFLIGHT; 18 bits; R196, R197; reset 0 -/
  inflight : Nat := 0
  /-- CORES; 640 bits; R196; reset 0 -/
  cores : List Nat := []
  /-- CHANNELS; 512 bits; R196; reset 0 -/
  channels : List Nat := []
  /-- PORTS; 16 bits; R196; reset 0 -/
  ports : List Nat := []
  deriving DecidableEq, Repr

/-- A leaf of a colony's tables (R285, R286). -/
structure Pte where
  va : Nat
  /-- 0 64 KiB, 1 2 MiB, 2 1 GiB -/
  size : Nat
  dpa : Nat
  r : Bool
  w : Bool
  i : Bool
  deriving DecidableEq, Repr

/-- An entry of a walker cache (R296): a leaf, or a level-2 or level-3 pointer entry, which has none; `va` is the first address
it covers. -/
structure WalkEntry where
  colony : Nat
  level : Nat
  va : Nat
  leaf : Option Pte := none
  deriving DecidableEq, Repr

/-- Where an unfinished reset, teardown or withdrawal stands (R212, R213, R306). -/
inductive SeqStage where
  | none
  | issueStopped
  | draining
  | waitingPeers
  | wiping
  deriving DecidableEq, Repr

/-- A colony, its registers, map entries, tables and context (R193 to R219, R262, R284 to R309). -/
structure Colony where
  /-- COL.STATE.STATE; 3 bits; R202, R217; reset 0 FREE -/
  st : ColState := .free
  /-- COL.CTL.CLASS_MODE; 1 bit; R217; reset 0 -/
  classMode : Bool := false
  /-- COL.CTL.SHADOW; 6 bits; R210, R217; reset 4 -/
  shadow : Nat := 4
  /-- composition commands in progress that name it (COL.STATE.RECOMPOSING while above 0); R217; reset 0 -/
  recomposing : Nat := 0
  /-- current map entry; R196; reset all 0 -/
  cur : MapEntry := {}
  /-- old map entry; R196; reset all 0 -/
  old : MapEntry := {}
  /-- mapped VF; 7 bits; R215, R217; reset 0x7F -/
  vf : Nat := 0x7F
  /-- TENANT; 6 bits; R195, R217; reset 0 -/
  tenant : Nat := 0
  /-- KEYSLOT; 7 bits; R196; reset 0 -/
  keySlot : Nat := 0
  /-- COL.STALE.DROPPED; 32 bits; R217; reset 0 -/
  stale : Nat := 0
  /-- COL.CLASSMAP.CORE, COPY, PORT, CTRL; 3 bits each; R262; reset 4 -/
  mapCore : Nat := 4
  mapCopy : Nat := 4
  mapPort : Nat := 4
  mapCtrl : Nat := 4
  /-- COL.SHARE.LINKW in force; 8 bits; R262; reset 16 -/
  linkw : Nat := 16
  /-- COL.SHARE write waiting for the boundary; R259; reset none -/
  linkwNext : Option Nat := none
  /-- window boundaries until the colony's own cold window ends; R259; reset 0 -/
  cold : Nat := 0
  /-- leaves of the tables; R285, R286; reset empty -/
  ptes : List Pte := []
  /-- table frames held, by frame address, each with its tables: first 256-byte unit, level, index of the table's range; R285, R294; reset none -/
  tables : List (Nat × List (Nat × Nat × Nat)) := []
  /-- frame behind a device-physical 64 KiB page, by page number (default: its own); R293; reset its own -/
  frames : Tbl Nat := []
  /-- frames standing behind no page: free runs of the shadow pools; R293; reset none -/
  pool : List Frames := []
  /-- XLT.FCTL.IRQ_EN; 1 bit; R309; reset 0 -/
  fIrq : Bool := false
  /-- XLT.FCTL.VEC; 6 bits; R309; reset 0 -/
  fVec : Nat := 0
  /-- XLT.FCTL.MAXREC; 9 bits; R309; reset 16 -/
  fMax : Nat := 16
  /-- XLT.FCTL.TIMEOUT; 10 bits; R309; reset 100 -/
  fTimeout : Nat := 100
  /-- agents stalled without a record (XLT.FSTAT.STALLED counts them); R300, R309; reset none -/
  stalled : List Nat := []
  /-- XLT.FSTAT.FAULTS; 32 bits; R309; reset 0 -/
  faults : Nat := 0
  /-- XLT.WD.BUSY: the withdrawal between steps 2 and 5; R306, R309; reset none -/
  wdBusy : Option Nat := none
  /-- XLT.WD.EPOCH; 1 bit; R306, R309; reset 0 -/
  epoch : Bool := false
  /-- XLT.WD.LAST_US; 32 bits; R309; reset 0 -/
  wdLast : Nat := 0
  /-- FLT.DIAG.SLOTS; 10 bits; R433; reset 0 -/
  diagSlots : Nat := 0
  /-- FLT.DIAG.VA bits [47:16]; 32 bits; R433; reset 0 -/
  diagVa : Nat := 0
  /-- next sample slot and directory entry, round robin; R422; reset 0 -/
  diagSlot : Nat := 0
  diagDir : Nat := 0
  /-- the named part of the peer set: FADDR and job group; R353; reset empty -/
  peers : List (Nat × Nat) := []
  /-- peer-set-all mark; R353; reset 0 -/
  peersAll : Bool := false
  /-- job groups aborted until teardown; R364; reset none -/
  aborted : List Nat := []
  /-- highest CSEQ run per job group; R359; reset none -/
  jobSeq : Tbl Nat := []
  /-- sealed session: (last inbound counter, next outbound counter); R403, R404; reset none -/
  sealSess : Option (Nat × Nat) := none
  /-- keys of the sealed session, host to device and device to host; 2 × 256 bits; R391, R403; reset none, 0 -/
  sealKey : BitVec 256 := 0
  sealKeyOut : BitVec 256 := 0
  /-- reset or teardown under way; R212, R213; reset none -/
  stage : SeqStage := .none
  /-- messages whose acknowledgement the reset or teardown awaits (MSEQ); R212, R213; reset none -/
  awaiting : List Nat := []
  /-- UNBIND command that started the teardown; R213; reset none (none also for KEY_RETIRE) -/
  unbind : Option Nat := none
  /-- records dropped at the teardown; R162; reset 0 -/
  dropped : Nat := 0
  /-- a peer was fenced during the teardown; R213; reset 0 -/
  peerFenced : Bool := false
  /-- instars advanced since the last retire message; R201; reset 0 -/
  sinceRetire : Nat := 0
  /-- turn: the ring whose turn it is while sliced; R182; reset none -/
  turn : Option Nat := none
  /-- overrun still to subtract, per ring, in ticks; R183; reset 0 -/
  overrun : Tbl Nat := []
  /-- tick at which the turn ends; R182, R183; reset 0 -/
  turnEnd : Nat := 0
  /-- turn length given to the present turn; R183; reset 0 -/
  turnStart : Nat := 0
  deriving DecidableEq, Repr

/-- HBC.STATE.MODE (R245). -/
inductive ChanMode where
  | inService
  | transit
  | fenced
  deriving DecidableEq, Repr

/-- The stable and transient states of a directory entry (R270, R272). -/
inductive DirState where
  | shared
  | owned
  | invalidating
  | forwarding
  | recallingShared
  | recallingOwned
  deriving DecidableEq, Repr

/-- The kind of a coherence request (R272). -/
inductive ReqKind where
  | gets
  | getm
  /-- GETM without data, of an agent that will overwrite the whole line -/
  | getw
  | ncr
  | ncw
  deriving DecidableEq, Repr

/-- A directory entry (R270). -/
structure DirEntry where
  offset : Nat
  st : DirState
  coarse : Bool := false
  sharers : List Nat := []
  owner : Nat := 0
  /-- PEND: requester and kind of a transient state -/
  pendAgent : Nat := 0
  pendKind : ReqKind := .gets
  /-- line data of a pending full-line write -/
  pendData : List Byte := []
  /-- the owner's response on its way to the home: the line it sends, nothing from a clean owner -/
  answer : Option (List Byte) := none
  /-- what the pending request carries; R197, R306 -/
  pendStamp : ReqStamp := {}
  /-- agents whose acknowledgement is awaited -/
  acks : List Nat := []
  /-- recency for R271's choice -/
  used : Nat := 0
  deriving DecidableEq, Repr

/-- A NACKed request at its agent (R273, R274). -/
structure Nacked where
  agent : Nat
  offset : Nat
  kind : ReqKind
  data : List Byte := []
  count : Nat
  reserved : Bool := false
  /-- what the request carries; R197, R306 -/
  stamp : ReqStamp := {}
  deriving DecidableEq, Repr

/-- A line in a slice (R229). -/
structure SliceLine where
  offset : Nat
  cls : Nat
  dirty : Bool
  used : Nat
  deriving DecidableEq, Repr

/-- The part of a slice's request buffer that an entry stands in (R254). -/
inductive BufPart where
  | urgent
  | maintenance
  | reserved
  | shared
  deriving DecidableEq, Repr

/-- A transaction of a DMA engine that holds an entry of a slice's request buffer, or of its channel's controller queue
(R231, R232): the core and tag that wait for it. -/
structure MemReq where
  master : Nat
  tag : Nat
  cls : Nat
  offset : Nat
  part : BufPart
  deriving DecidableEq, Repr

/-- A channel, its controller, its slice and its slice's directory (R229 to R245, R263, R270, R283). -/
structure Channel where
  /-- HBC.STATE.MODE; 2 bits; R245; reset 0 IN_SERVICE -/
  mode : ChanMode := .inService
  /-- HBC.STATE.WIPE_BUSY; 1 bit; R245; reset 0 -/
  wipeBusy : Bool := false
  /-- a second wipe is due after the one under way, since its receiver was torn down; R211; reset 0 -/
  rewipe : Bool := false
  /-- the colony whose old entry must retire before the channel's wipe starts; R205; reset none -/
  awaits : Option Nat := none
  /-- HBC.STATE.CAL_BUSY; 1 bit; R245; reset 0 -/
  calBusy : Bool := false
  /-- HBC.STATE.COLONY; 7 bits; R245; reset 0 -/
  colony : Nat := 0
  /-- HBC.STATE.TEMP; 7 bits; R245; reset 0 -/
  temp : Nat := 0
  /-- HBC.ECC.CE; 16 bits; R245; reset 0 -/
  ce : Nat := 0
  /-- HBC.ECC.RETRY_OK; 16 bits; R245; reset 0 -/
  retryOk : Nat := 0
  /-- HBC.ECC.UE; 16 bits; R245; reset 0 -/
  ue : Nat := 0
  /-- HBC.ECC.TAG_FAIL; 16 bits; R245; reset 0 -/
  tagFail : Nat := 0
  /-- remap table: addressable row to spare row; R237, R245; reset empty -/
  remap : Tbl Nat := []
  /-- next free spare row (HBC.REMAP.USED); R237, R245; reset 0 -/
  spareNext : Nat := 0
  /-- rows queued for remapping (HBC.REMAP.PENDING); R237, R245; reset none -/
  remapQueue : List Nat := []
  /-- rows held for uncorrected lines (HBC.REMAP.HELD); R237, R245; reset none -/
  heldRows : List Nat := []
  /-- corrected reads per row in the patrol period; R237; reset 0 -/
  rowCe : Tbl Nat := []
  /-- lines (channel byte offsets) left uncorrected until overwritten; R236; reset none -/
  badLines : List Nat := []
  /-- lines whose tag no longer matches until overwritten; R235, R432; reset none -/
  badTags : List Nat := []
  /-- rows found uncorrected by patrol scrub, listed for the fault history; R240, R490; reset none -/
  scrubRows : List Nat := []
  /-- HBM_UE faults in the patrol period; R415; reset 0 -/
  ueFaults : Nat := 0
  /-- spare exhaustion reported; R237; reset 0 -/
  sparesReported : Bool := false
  /-- HBC.CAL.RATE; 2 bits; R242, R245; reset 0 -/
  calRate : Nat := 0
  /-- HBC.CAL.MARGIN; 8 bits; R245; reset 0 -/
  margin : Nat := 0
  /-- HBC.CAL.SLOTS; 16 bits; R245; reset 0 -/
  slots : Nat := 0
  /-- HBC.CAL.BORROW_NS; 16 bits; R245; reset 0 -/
  borrowNs : Nat := 0
  /-- HBC.CAL.RETRAINS; 8 bits; R245; reset 0 -/
  retrains : Nat := 0
  /-- a retrain runs (R243); reset 0 -/
  retraining : Bool := false
  /-- µs of slot intervals since a faster condition; R242; reset 0 -/
  calm : Nat := 0
  /-- controller queue, oldest first (HBC.QUEUE.OCC counts it); 256; R232, R245; reset empty -/
  queue : List MemReq := []
  /-- HBC.QUEUE.PEAK; 9 bits; R245; reset 0 -/
  qPeak : Nat := 0
  /-- HBC.MAINT.BYTES; 64 bits; R263; reset 0 -/
  maint : Nat := 0
  /-- HBC.URG.OVER; 16 bits; R263; reset 0 -/
  urgOver : Nat := 0
  /-- HBC.URG.PEAK; 8 bits; R263; reset 0 -/
  urgPeak : Nat := 0
  /-- HBC.CLSBYTES[k]; 8 × 64 bits; R263; reset 0 -/
  clsBytes : Tbl Nat := []
  /-- bank refreshes done at their due time, per bank; R238; reset 0 -/
  refreshes : Tbl Nat := []
  /-- refresh interval halved (stack above 85 °C); R238; reset 0 -/
  fastRefresh : Bool := false
  /-- refreshes postponed for queued class-0 requests, per bank; R238; reset 0 -/
  postponed : Tbl Nat := []
  /-- a slot or refresh has ended with a class-0 request queued, which issues first; R244; reset 0 -/
  urgentFirst : Bool := false
  /-- the 128 ns interval of the latest class-0 line, and its class-0 lines so far; R263; reset 0 -/
  urgSlot : Nat := 0
  urgNow : Nat := 0
  /-- window boundaries until the channel's own cold window ends; R259, R260; reset 0 -/
  cold : Nat := 0
  /-- slice tile, SLC.ID.PHYS; 8 bits; R245; reset Boot (DESIGN CHOICE 0 until the boot, log entry 3) -/
  slicePhys : Nat := 0
  /-- lines held by the slice, their class and dirtiness; 16,384; R229, R255; reset empty -/
  lines : List SliceLine := []
  /-- SLC.HIT.COUNT; 64 bits; R245; reset 0 -/
  hit : Nat := 0
  /-- SLC.MISS.COUNT; 64 bits; R245; reset 0 -/
  miss : Nat := 0
  /-- request buffer, oldest first (SLC.BUF.OCC and URG_OCC count it); 1,024; R231, R245, R254; reset empty -/
  buf : List MemReq := []
  /-- frame blocks of 64 KiB whose written-line bitmaps the 32 KiB bitmap cache holds, least recently used first; 4,096 of
  8 bytes each; R230; reset empty -/
  bitmapCache : List Nat := []
  /-- tag lines in the controller's tag cache and whether each is dirty, least recently used first; 1,024; R234; reset empty -/
  tagCache : List (Nat × Bool) := []
  /-- limit mode by allocator fault; R256; reset 0 -/
  limit : Bool := false
  /-- directory entries (SLC.DIR.OCC counts them); 120; R270, R283; reset empty -/
  dir : List DirEntry := []
  /-- requests NACKed or in a reserved entry (SLC.DIR.RSV counts the latter); R273, R274, R283; reset none -/
  nacked : List Nacked := []
  /-- SLC.DIR.RECALLS; 32 bits; R283; reset 0 -/
  recalls : Nat := 0
  /-- SLC.NACK.COUNT; 64 bits; R283; reset 0 -/
  nacks : Nat := 0
  /-- recency counter of the directory and the slice; R229, R271; reset 0 -/
  clock : Nat := 0
  /-- named by a running composition command; R203; reset none -/
  claim : Option Nat := none
  deriving DecidableEq, Repr

/-- ZLT.STATE.STATE (R314, R340). -/
inductive PortState where
  | disabled
  | detect
  | train
  | discover
  | auth
  | active
  | refused
  | fenced
  deriving DecidableEq, Repr

/-- A flit kept for replay or reordering (R323, R327, R328). -/
structure Flit where
  seq : Nat
  kind : Nat
  vl : Nat
  kp : Bool
  content : List Byte
  lane : Nat := 0
  /-- what a received LINK flit's content spells -/
  link : List Nat := []
  deriving DecidableEq, Repr

/-- What leaves the device: writes to host memory, interrupt messages, packets, messages, datagrams and pin levels.
The model's own log of the block's outputs, oldest first; DESIGN CHOICE, log entry 5. -/
inductive Out where
  /-- a posted write to host memory under a function's requester ID (R139, R154) -/
  | hostWrite (fn : Fn) (addr : Nat) (data : List Byte)
  /-- an MSI-X message (R481) -/
  | msix (fn : Fn) (vector : Nat)
  /-- a bulk packet handed to a port, 16 for the local delivery of R342 (R347) -/
  | packet (port kind : Nat) (h : FabHeader) (data : List Byte)
  /-- a control message handed to a port: type, header, body fields (R348) -/
  | message (port mtype : Nat) (h : CtlHeader) (body : List Nat)
  /-- a flit on a lane of a port: its 64 bytes (R319) -/
  | flit (port lane : Nat) (bytes : List Byte)
  /-- what this side sends in a step of the join: 4 the descriptor; 5 the ephemeral key and the identity chain, then the
  signatures (R315 to R317) -/
  | join (port step : Nat) (data : List Byte)
  /-- what a LINK flit carries (R320, R326, R328, R331) -/
  | link (port kind : Nat) (body : List Nat)
  /-- a management message's response: session, request, status and body, and the datagrams that carry it (R487, R488) -/
  | mgmt (session req status : Nat) (body : List Byte) (datagrams : List (List Byte))
  /-- a network reply of the management port (R486) -/
  | net (kind : Nat) (data : List Byte)
  /-- a level of ALIVE (R425) -/
  | alive (level : Bool)
  deriving DecidableEq, Repr

/-- A packet that waits for credits at a port, or is sent and not wholly acknowledged (R326, R335). -/
structure TxPacket where
  vl : Nat
  cls : Nat
  /-- flits it takes (R321) -/
  flits : Nat
  bseq : Nat := 0
  /-- transit traffic, not the owner's (R324) -/
  transit : Bool := false
  out : Out
  /-- SEQ of its last flit once sent -/
  last : Nat := 0
  deriving DecidableEq, Repr

/-- A deficit round robin (R324): the party whose turn it is, and the parties' deficits in flits. -/
structure Drr where
  turn : Nat := 0
  deficit : Tbl Nat := []
  deriving DecidableEq, Repr

/-- The keys of one direction of a link (R317). -/
structure LinkKey where
  key : BitVec 256 := 0
  salt : BitVec 32 := 0
  secret : BitVec 384 := 0
  /-- index of the key in its chain (R331) -/
  index : Nat := 0
  deriving DecidableEq, Repr

/-- The kind of a bulk request outstanding at a port engine (R347). -/
inductive FabKind where
  | write
  | add
  | read
  deriving DecidableEq, Repr

/-- A remote request of a port engine (R310, R347). -/
structure FabReq where
  tag : Nat
  kind : FabKind
  cmd : Nat
  step : Nat
  unit : Nat
  units : Nat
  colony : Nat
  instar : Nat
  dst : Nat
  window : Nat
  offset : Nat
  busy : Nat := 0
  waiting : Bool := false
  /-- translation epoch it carries; R306 -/
  xepoch : Bool := false
  deriving DecidableEq, Repr

/-- A Zilte port (R310 to R340). -/
structure Port where
  /-- ZLT.CTL.EN; 1 bit; R340; reset 1 -/
  en : Bool := true
  /-- ZLT.STATE.STATE; 4 bits; R314, R340; reset 1 DETECT -/
  st : PortState := .detect
  /-- active lanes in rank order (ZLT.STATE.LANES, LANEMAP); R312, R340; reset none -/
  lanes : List Nat := []
  /-- trained spare lane (ZLT.STATE.SPARE_OK); R313, R340; reset none -/
  spare : Option Nat := none
  /-- lanes retraining in the background; R313; reset none -/
  retraining : List Nat := []
  /-- lanes out of service until all lanes next train; R313; reset none -/
  outLanes : List Nat := []
  /-- ZLT.STATE.KP; 1 bit; R331, R340; reset 0 -/
  kp : Bool := false
  /-- ZLT.STATE.COLONY, owner; 7 bits; R340; reset 0 -/
  colony : Nat := 0
  /-- ZLT.PEER.FADDR; 24 bits; R340; reset 0 -/
  peerFaddr : Nat := 0
  /-- ZLT.PEER.PORT; 4 bits; R340; reset 0 -/
  peerPort : Nat := 0
  /-- ZLT.PEER.VALID; 1 bit; R340; reset 0 -/
  peerValid : Bool := false
  /-- partner's IDHASH, LMS_OK, and the IDHASH of the last partner; R316, R337; reset 0 -/
  idhash : Nat := 0
  peerLms : Bool := false
  lastId : Nat := 0
  /-- ZLT.ERR.CE_SYM; 32 bits; R340; reset 0 -/
  ceSym : Nat := 0
  /-- ZLT.ERR.UNCORR; 16 bits; R340; reset 0 -/
  uncorr : Nat := 0
  /-- ZLT.ERR.REPLAY; 16 bits; R340; reset 0 -/
  replays : Nat := 0
  /-- ZLT.URG.OVER; 16 bits; R340; reset 0 -/
  urgOver : Nat := 0
  /-- ZLT.URG.PEAK; 8 bits; R340; reset 0 -/
  urgPeak : Nat := 0
  /-- ZLT.ARB.TRANSITW; 8 bits; R340; reset 16 -/
  transitw : Nat := 16
  /-- ZLT.LMISS.OWNER; 1 bit; R340; reset 0 -/
  missOwner : Bool := false
  /-- ZLT.LMISS.TRANSIT; 1 bit; R340; reset 0 -/
  missTransit : Bool := false
  /-- ZLT.LMISS.EN; 1 bit; R340; reset 0 -/
  missEn : Bool := false
  /-- ZLT.LMISS.VEC; 6 bits; R340; reset 0 -/
  missVec : Nat := 0
  /-- ZLT.BOND.GROUP; 4 bits; R340; reset 0 -/
  bond : Nat := 0
  /-- next link sequence number to send; 13 bits; R320; reset 0 -/
  txSeq : Nat := 0
  /-- next link sequence number to release; 13 bits; R320, R323; reset 0 -/
  rxSeq : Nat := 0
  /-- replay buffer; 4,096 flits; R327; reset empty -/
  replayBuf : List Flit := []
  /-- flits held for reordering; R323, R328; reset empty -/
  rxHold : List Flit := []
  /-- per-VL receive queues of released flits not yet a whole packet; R323; reset empty -/
  rxQueue : Tbl (List Flit) := []
  /-- transmit credits per VL; R326; reset 0 (initial values at ACTIVE) -/
  credits : Tbl Nat := []
  /-- credits owed to the partner per VL; R326; reset 0 -/
  owed : Tbl Nat := []
  /-- failures of one flit in a row, per sequence number; R313; reset 0 -/
  fails : Tbl Nat := []
  /-- flits sent under the current key; R331; reset 0 -/
  keyFlits : Nat := 0
  /-- the next key is derived and announced, not acknowledged; R331; reset 0 -/
  rekeying : Bool := false
  /-- keys live in the transmit direction, 0 to 2; R331; reset 0 -/
  keysLive : Nat := 0
  /-- packet counter of the sending key's IV; 64 bits; R330; reset 0 -/
  packets : Nat := 0
  /-- a session refresh is under way; R332; reset 0 -/
  refreshing : Bool := false
  /-- the port is leaving its owner, drain under way; R205; reset 0 -/
  leaving : Bool := false
  /-- in transit between owners; R194; reset 0 -/
  transit : Bool := false
  /-- named by a running composition command; R203; reset none -/
  claim : Option Nat := none
  /-- ticks of the departures from ACTIVE within the last second; R315; reset none -/
  departures : List Nat := []
  /-- held in DETECT for 1 s; R315; reset 0 -/
  holdoff : Bool := false
  /-- translation cache of the port engine; 64 entries; R296; reset empty -/
  tc : List TcEntry := []
  /-- address that the port engine waits to have translated, whether it writes, and its command; R299; reset none -/
  want : Option (Nat × Bool × Nat) := none
  /-- remote requests outstanding; 4,096; R310, R347; reset none -/
  reqs : List FabReq := []
  /-- ended tags held out of reuse; R423; reset none -/
  heldTags : List Nat := []
  /-- requests of ended attempts whose replies are awaited: of a colony that the port leaves, or one in reset or teardown; R205,
  R212, R213; reset none -/
  drain : List FabReq := []
  /-- a second wipe and refresh is due after the one under way, since the port's receiver was torn down; R211; reset 0 -/
  rewipe : Bool := false
  /-- the LMS_OK that this side sent in its descriptor; 1 bit; R316; reset 0 -/
  ownLms : Bool := false
  /-- descriptors of this join, as sent and as received; 128 bytes each; R316, R317; reset none -/
  ownDesc : List Byte := []
  peerDesc : List Byte := []
  /-- this side's ephemeral ECDH key; 97 bytes; R317; reset none, 0 -/
  ecdh : Nat := 0
  /-- NONCEs of the session, this side's and the partner's; 32 bytes each; R316, R332; reset none, 0 -/
  nonce : Nat := 0
  peerNonce : Nat := 0
  /-- transmit and receive keys of the session; 256 + 32 + 384 bits each; R317, R331; reset none, 0 -/
  txKey : LinkKey := {}
  rxKey : LinkKey := {}
  /-- key phase of the partner's flits; 1 bit; R331; reset 0 -/
  rxKp : Bool := false
  /-- the partner's older key while packets under it are still arriving; R331; reset none -/
  rxOld : Option LinkKey := none
  /-- the partner's next key, of a rekey announced or a session refresh, used from its KP inversion on; R331, R332; reset none -/
  rxNext : Option LinkKey := none
  /-- packet counter of the receiving key's IV; 64 bits; R330; reset 0 -/
  rxPackets : Nat := 0
  /-- per VL the key phase and IV counter of the packet arriving; R323, R330; reset none -/
  rxIv : Tbl (Bool × Nat) := []
  /-- the partner's active lanes in rank order; R312; reset none -/
  rxLanes : List Nat := []
  /-- lane swaps named by the partner: the SEQ from which a spare carries a rank, the rank, the spare; R313; reset none -/
  rxSwaps : List (Nat × Nat × Nat) := []
  /-- LINK flits due, kind and fields, oldest first; R324, R327; reset empty -/
  linkQueue : List (Nat × List Nat) := []
  /-- VL1's round robin between owner 0 and transit 1, and within each between classes; R324; reset 0 -/
  arb : Drr := {}
  arbCls : Tbl Drr := []
  /-- per direction, transmit and receive, the present 128 ns interval and its VL0 flits; R325; reset 0 -/
  urgTx : Nat × Nat := (0, 0)
  urgRx : Nat × Nat := (0, 0)
  /-- packets waiting for credits, oldest first; R326; reset empty -/
  txQueue : List TxPacket := []
  /-- packets sent whose last flit is not acknowledged; R327, R335; reset none -/
  sent : List TxPacket := []
  deriving DecidableEq, Repr

/-- A window entry (R350). -/
structure Window where
  base : Nat
  len : Nat
  sfaddr : Nat
  scol : Nat
  colony : Nat
  rd : Bool
  wr : Bool
  add : Bool
  bar : Bool
  cls : Nat
  rmark : Nat
  job : Nat
  valid : Bool
  revoking : Bool
  sboot : Nat
  deriving DecidableEq, Repr

/-- Handoff state codes (R365). -/
inductive HState where
  | none
  | offered
  | offerSeen
  | accepting
  | accepted
  | acceptedSeen
  | releasing
  | retaken
  | declined
  deriving DecidableEq, Repr

/-- A handoff record (R365, R366). -/
structure Handoff where
  colony : Nat
  job : Nat
  hseq : Nat
  peer : Nat
  peerColony : Nat
  st : HState
  timer : Nat
  window : Nat := 0
  offset : Nat := 0
  len : Nat := 0
  cmd : Option Nat := none
  deriving DecidableEq, Repr

/-- An unacknowledged control message (R346, R349). -/
structure OutMsg where
  mseq : Nat
  mtype : Nat
  dst : Nat
  scol : Nat
  instar : Nat
  job : Nat
  body : List Nat
  cmd : Option Nat := none
  /-- an AUDIT_Q acknowledged whose AUDIT_R is awaited; R346, R367 -/
  acked : Bool := false
  /-- answered BUSY since it last went out; R348, R359 -/
  busy : Bool := false
  deriving DecidableEq, Repr

/-- The fabric registers and tables (R341 to R370). -/
structure Fabric where
  /-- FAB.ID.FADDR; 24 bits; R370; reset 0 -/
  faddr : Nat := 0
  /-- FAB.CFG.DIAMETER; 8 bits; R370; reset 8 -/
  diameter : Nat := 8
  /-- FAB.CFG.HOPTIME; 10 bits; R370; reset 5 -/
  hoptime : Nat := 5
  /-- FAB.WSEL.INDEX; 16 bits; R370; reset 0 -/
  wsel : Nat := 0
  /-- FAB.WDATA[0-3]; 4 × 64 bits; R370; reset 0 -/
  wdata : Tbl Word := []
  /-- FAB.WSTAT.REJECT; 1 bit; R370; reset 0 -/
  wReject : Bool := false
  /-- window table; 65,536 × 32 bytes; R350; reset wiped -/
  windows : Tbl Window := []
  /-- FAB.DROP.TTL; 16 bits; R370; reset 0 -/
  dropTtl : Nat := 0
  /-- FAB.DROP.NOROUTE; 16 bits; R370; reset 0 -/
  dropNoRoute : Nat := 0
  /-- FAB.DROP.STALE; 16 bits; R370; reset 0 -/
  dropStale : Nat := 0
  /-- FAB.DROP.REFUSED; 16 bits; R370; reset 0 -/
  dropRefused : Nat := 0
  /-- handoff records (FAB.HOFF.USED counts them); 1,024; R365, R370; reset none -/
  handoffs : Tbl Handoff := []
  /-- FAB.HOFF.TIMERS; 32 bits; R370; reset 0 -/
  hoffTimers : Nat := 0
  /-- FAB.ABORT.RAISED; 32 bits; R370; reset 0 -/
  raised : Nat := 0
  /-- FAB.ABORT.RECEIVED; 32 bits; R370; reset 0 -/
  received : Nat := 0
  /-- FAB.BOOT.TAG; 32 bits; R355, R370; reset Boot (DESIGN CHOICE 0 until boot step 4, log entry 3) -/
  bootTag : Nat := 0
  /-- FAB.RTE[i]; 4,096 × 64 bits; R342, R370; reset 0 -/
  routes : Tbl Word := []
  /-- next MSEQ; 32 bits; R348; DESIGN CHOICE 0 (log entry 3) -/
  mseq : Nat := 0
  /-- next ASEQ; 32 bits; R363; DESIGN CHOICE 0 (log entry 3) -/
  aseq : Nat := 0
  /-- messages sent and not acknowledged; R346; reset none -/
  unacked : List OutMsg := []
  /-- (SRC, MSEQ, reply type, reply status or state, tick) acted on within the last fabric timeout; R349; reset none -/
  seen : List (Nat × Nat × Nat × Nat × Nat) := []
  /-- peer aborts seen: (origin, ASEQ); R364; reset none -/
  aborts : List (Nat × Nat) := []
  deriving DecidableEq, Repr

/-- SEC.SLOT.STATE (R392, R406). -/
inductive SlotState where
  | empty
  | loading
  | active
  | retiring
  | failed
  deriving DecidableEq, Repr

/-- A key-vault slot (R391, R406). -/
structure Slot where
  /-- STATE; 3 bits; R406; reset 0 EMPTY -/
  st : SlotState := .empty
  /-- KIND; 1 bit; R406; reset 0 -/
  kind : Nat := 0
  /-- TENANT; 6 bits; R406; reset 0 -/
  tenant : Nat := 0
  /-- ASSIGN; 7 bits; R406; reset 0 -/
  assign : Nat := 0
  /-- the key; 256 bits; R391; reset wiped -/
  key : BitVec 256 := 0
  /-- KEYID; 128 bits; R393; reset 0 -/
  keyid : Nat := 0
  /-- STORE_SEALED operations since the load; R402; reset 0 -/
  stores : Nat := 0
  /-- KEY_LOAD filling the slot, or KEY_RETIRE awaiting the zeroise; R392, R395; reset none -/
  cmd : Option Nat := none
  /-- the blob being loaded is wrapped, FORMAT 1; 1 bit; R392, R393; reset none -/
  wrapped : Bool := false
  /-- the tag of that blob holds; 1 bit; R393, R394; reset none -/
  wrapOk : Bool := false
  deriving DecidableEq, Repr

/-- Fuses, identity, keys and vault (R374 to R406). -/
structure Security where
  /-- LIFECYCLE steps burned; 16; R374, R406; reset Fuse: DESIGN CHOICE 3, DEPLOYED (log entry 2) -/
  lcSteps : Nat := 3
  /-- BONOR_SVN steps burned; 64; R374; reset Fuse: DESIGN CHOICE 0 (log entry 2) -/
  fuseSvn : Nat := 0
  /-- BOOT_COUNTER steps burned; 8,192; R374; reset Fuse: DESIGN CHOICE 0 (log entry 2) -/
  boots : Nat := 0
  /-- fuse spare rows left; 16; R374, R375; reset Fuse: DESIGN CHOICE 16 (log entry 2) -/
  spareRows : Nat := 16
  /-- DEVICE_SECRET; 256 bits; R374; reset Fuse: DESIGN CHOICE 0 (log entry 2) -/
  secret : BitVec 256 := 0
  /-- ID_ROOT; 384 bits; R374; reset Fuse: DESIGN CHOICE 0 (log entry 2) -/
  idRoot : Nat := 0
  /-- FW_ROOT; 384 bits; R374; reset Fuse: DESIGN CHOICE 0 (log entry 2) -/
  fwRoot : Nat := 0
  /-- OWNER_FW_ROOT; 384 bits or unprogrammed; R374; reset Fuse: DESIGN CHOICE unprogrammed (log entry 2) -/
  ownerRoot : Option Nat := none
  /-- MGMT_ROOT slots programmed; 4 × 384 bits; R374; reset Fuse: DESIGN CHOICE one slot, 0 (log entry 2) -/
  mgmtRoots : List Nat := [0]
  /-- IDHASH derived from the secret; 384 bits; R382; DESIGN CHOICE 0 (log entry 2) -/
  idhash : Nat := 0
  /-- SEC.LC.LMS_EXHAUSTED; 1 bit; R406; reset 0 -/
  lmsExhausted : Bool := false
  /-- SEC.LC.LMS_SPENT; 1 bit; R406; reset 0 -/
  lmsSpent : Bool := false
  /-- SEC.LMS.LEFT; 16 bits; R406; reset 0 -/
  lmsLeft : Nat := 0
  /-- SEC.LMS.SIGNED; 32 bits; R406; reset 0 -/
  lmsSigned : Nat := 0
  /-- vault slots 0-127; R391, R406; reset EMPTY -/
  slots : Tbl Slot := []
  /-- SEC.VAULT.SPARES; 4 bits; R406; reset 8 -/
  spares : Nat := 8
  /-- SEC.RETSTAT.REFUSED; 32 bits; R406; reset 0 -/
  refused : Nat := 0
  /-- SEC.RETSTAT.SQUASHED; 32 bits; R406; reset 0 -/
  squashed : Nat := 0
  /-- free-pool device key; 256 bits; R399; reset wiped, drawn at boot step 4 -/
  deviceKey : BitVec 256 := 0
  /-- KA_PUB, public part of the boot's key-agreement pair; 776 bits; R390, R394; reset wiped, made at boot step 4 -/
  kaPub : Nat := 0
  /-- its private part; 384 bits; R394; reset wiped, made at boot step 4 -/
  kaPriv : Nat := 0
  /-- Bonor measurement; 384 bits; R387; reset 0 -/
  measurement : Nat := 0
  /-- SVN of the running image; R390; reset 0 -/
  imageSvn : Nat := 0
  deriving DecidableEq, Repr

/-- STATE of a fault record (R408, R410). -/
inductive RecState where
  | free
  | opened
  | window
  | resetting
  | fenced
  | closed
  deriving DecidableEq, Repr

/-- A fault record (R408, R409) or a translation record (R304, R495). -/
structure FaultRec where
  cause : Nat
  severity : Nat
  st : RecState
  unit : UnitRef
  colony : Nat
  instar : Nat := 0
  status : Nat := 0
  occur : Nat := 1
  cause2 : Nat := 0
  gnat : Bool := false
  injected : Bool := false
  fseq : Nat
  cmdTag : Nat := 0
  cmdRing : Nat := 0
  cmdValid : Bool := false
  rank : Nat := 0
  addr : Nat := 0
  addrKind : Nat := 0
  lost : Nat := 0
  diag : Nat := 0x3FF
  word : Word := 0
  ticks : Nat := 0
  job : Nat := 0
  /-- translation record (R304): page VA, access map, level, waiters by agent ID, first waiter, END -/
  xlt : Bool := false
  va : Nat := 0
  access : Nat := 0
  level : Nat := 0
  waiters : List Nat := []
  first : Nat := 0
  fin : Nat := 0
  deriving DecidableEq, Repr

/-- A perturbation point in force (R430, R433). -/
structure Gnat where
  action : Nat
  magnitude : Nat
  /-- µs from its application, 0 until cleared -/
  duration : Nat
  /-- tick of its application -/
  start : Nat
  deriving DecidableEq, Repr

/-- The fault collector (R407 to R433). -/
structure Faults where
  /-- fault table; 512 × 64 bytes; R407; reset wiped, every record FREE -/
  recs : Tbl FaultRec := []
  /-- FLT.CTL.IRQ_EN; 1 bit; R433; reset 0 -/
  irqEn : Bool := false
  /-- FLT.CTL.VEC; 6 bits; R433; reset 0 -/
  vec : Nat := 0
  /-- FLT.CTL.EVENT_IRQ; 1 bit; R433; reset 0 -/
  eventIrq : Bool := false
  /-- FLT.CTL.WIN_MS; 7 bits; R433; reset 10 -/
  winMs : Nat := 10
  /-- FLT.CTL.HANGWIN; 10 bits; R433; reset 20 -/
  hangWin : Nat := 20
  /-- FLT.STATUS.DEGRADED; 1 bit; R433; reset 0 -/
  degraded : Bool := false
  /-- FLT.STATUS.FATAL; 1 bit; R433; reset 0 -/
  fatal : Bool := false
  /-- FLT.STATUS.QUAR; 4 bits; R433; reset 0 -/
  quar : List Nat := []
  /-- quarantines not yet confirmed, by die, with the 100 µs windows passed since; R417; reset none -/
  quarPending : Tbl Nat := []
  /-- FLT.SEQ.LAST; 32 bits; R433; reset 0 -/
  last : Nat := 0
  /-- FLT.SEQ.UNRECORDED; 32 bits; R433; reset 0 -/
  unrecorded : Nat := 0
  /-- FLT.ALIVE.TOGGLING; 1 bit; R433; reset 0 -/
  toggling : Bool := false
  /-- level of the ALIVE land: none while not driven; R425, R436; reset none -/
  alive : Option Bool := none
  /-- FLT.ALIVE.STOP_CAUSE; 8 bits; R433; reset 0 -/
  stopCause : Nat := 0
  /-- FLT.ALIVE.BEATS; 32 bits; R433; reset 0 -/
  beats : Nat := 0
  /-- FLT.PCTL.EN; 1 bit; R433; reset 0 -/
  pctlEn : Bool := false
  /-- tick at which a point was last cleared (FLT.PCTL.ACTIVE for 100 µs more); R431, R433; reset none -/
  pctlClear : Option Nat := none
  /-- FLT.GNAT[p]; 64 × 64 bits; R433; reset 0 -/
  gnats : Tbl Gnat := []
  /-- FLT.INJ.KIND; 4 bits; R433; reset 0 -/
  injKind : Nat := 0
  /-- FLT.INJ.TARGET; 10 bits; R433; reset 0 -/
  injTarget : Nat := 0
  /-- armed injections (kind, target), and units that an injection hangs; R432; reset none -/
  armed : List (Nat × Nat) := []
  /-- FLT.LATE.DISCARDED; 32 bits; R433; reset 0 -/
  late : Nat := 0
  /-- faults handled without a record whose unit waits for its window's end; R412; reset none -/
  unrecordedWin : List UnitRef := []
  /-- resets under way without a record; R412; reset none -/
  unrecordedReset : List UnitRef := []
  deriving DecidableEq, Repr

/-- State of a die's power controller (R454). -/
inductive DieMode where
  | steady
  | raising
  | hold
  | stopped
  deriving DecidableEq, Repr

/-- A compute die's performance state (R448 to R454). -/
structure DiePower where
  /-- performance state of the divider, P0-P4; 3 bits; R448, R461; reset 4 (boot step 1) -/
  pstate : Nat := 4
  /-- controller state; R454; DESIGN CHOICE STEADY (log entry 3) -/
  mode : DieMode := .steady
  /-- state whose core voltage the die holds or last reached; R448, R453; reset 4 -/
  vstate : Nat := 4
  /-- state before the first trip of the hold; R453; reset 4 -/
  preTrip : Nat := 4
  /-- every second cycle gated; R453; reset 0 -/
  gating : Bool := false
  /-- window boundaries to pass before the next state change: 0 once 100 µs have passed since the last; R451; reset 0 -/
  wait : Nat := 0
  /-- a further step owed at the end of the spacing; R453; reset 0 -/
  owed : Bool := false
  /-- time in holds this second, in windows; R454; reset 0 -/
  holdWindows : Nat := 0
  deriving DecidableEq, Repr

/-- Power, cooling and clocks (R436 to R458). -/
structure Power where
  /-- PWR.TEMP DIE0-DIE3; 4 × 8 bits; R457; reset 0 -/
  dieTemp : List Nat := [0, 0, 0, 0]
  /-- PWR.TEMP.HUB; 8 bits; R457; reset 0 -/
  hubTemp : Nat := 0
  /-- PWR.TEMP.HBM_MAX; 8 bits; R457; reset 0 -/
  hbmMax : Nat := 0
  /-- PWR.COOL.COOLANT_OK, level of the land; 1 bit; R457; reset 0 -/
  coolantOk : Bool := false
  /-- PWR.COOL.LOST; 1 bit; R457; reset 0 -/
  lost : Bool := false
  /-- PWR.COOL.TRIP, THERM_TRIP_N driven low; 1 bit; R457; reset 0 -/
  trip : Bool := false
  /-- PWR.ENERGY.UJ; 64 bits; R457; reset 0 -/
  energy : Nat := 0
  /-- PWR.RAIL.GOOD; 12 bits; R457; reset 0 -/
  railGood : BitVec 12 := 0
  /-- PWR.RAIL.FAULT; 12 bits; R457; reset 0 -/
  railFault : BitVec 12 := 0
  /-- CLK.STAT.ROOT_LOCK; 5 bits; R457; reset 0 -/
  rootLock : BitVec 5 := 0
  /-- CLK.STAT.ZLT_LOCK; 1 bit; R457; reset 0 -/
  zltLock : Bool := false
  /-- CLK.STAT.PCIE_LOCK; 1 bit; R457; reset 0 -/
  pcieLock : Bool := false
  /-- compute dies 0-3; R448; reset P4 -/
  dies : Tbl DiePower := []
  /-- power cap in 10 W units; 9 bits; R450, R493; reset 400 -/
  cap : Nat := 400
  /-- CAP_UNMET; 1 bit; R450; reset 0 -/
  capUnmet : Bool := false
  /-- characterised minima of the accepted PCAL, mV, by 5·die + state; R456; reset none -/
  vmin : List Nat := []
  /-- telemetry per second, newest first: energy, hold fractions, CAP_UNMET, temperatures; R490; reset none -/
  telemetry : List (Nat × List Nat × Bool × List Nat) := []
  /-- energy since the last telemetry entry; R490; reset 0 -/
  secondUj : Nat := 0
  deriving DecidableEq, Repr

/-- HUB.BOOTSTAT.STAGE (R468). -/
inductive Stage where
  | hold
  | selftest
  | waitBundle
  | verify
  | ready
  | start
  | running
  | failed
  deriving DecidableEq, Repr

/-- Reset, boot and link state (R459 to R472, R484). -/
structure Boot where
  /-- PERST_N land low; R436, R459; reset 1 (held low until release) -/
  perstLow : Bool := true
  /-- rails up; R439; DESIGN CHOICE 0: the device starts unpowered with the rails down (log entry 1) -/
  powered : Bool := false
  /-- reset entry has been done and no boot has begun; R460; reset 1 -/
  inReset : Bool := true
  /-- held by a hot reset or link disable; R459; reset 0 -/
  hotHeld : Bool := false
  /-- STAGE; 4 bits; R468; reset 0 HOLD -/
  stage : Stage := .hold
  /-- PREP_DONE; 1 bit; R468; reset 0 -/
  prepDone : Bool := false
  /-- COOL_WAIT; 1 bit; R468; reset 0 -/
  coolWait : Bool := false
  /-- TREE_DONE; 1 bit; R468; reset 0 -/
  treeDone : Bool := false
  /-- REFUSE; 8 bits; R468; reset 0 -/
  refuse : Nat := 0
  /-- BUNDLES; 8 bits; R468; reset 0 -/
  bundles : Nat := 0
  /-- PPR_DONE; 7 bits; R468; reset 0 -/
  pprDone : Nat := 0
  /-- PPR_FAIL; 7 bits; R468; reset 0 -/
  pprFail : Nat := 0
  /-- HUB.BOOTADDR.ADDR; 52 bits; R468; reset 0 -/
  addr : Nat := 0
  /-- HUB.BOOTLEN.LEN; 26 bits; R468; reset 0 -/
  len : Nat := 0
  /-- HUB.BOOTTIME.RUN_US; 32 bits; R468; reset 0 -/
  runUs : Nat := 0
  /-- HUB.BOOTTIME.WAIT_US; 32 bits; R468; reset 0 -/
  waitUs : Nat := 0
  /-- tick at which WAIT_BUNDLE was last entered; R468; reset 0 -/
  waitFrom : Nat := 0
  /-- repairs of the accepted bundle still to run; R467; reset none -/
  ppr : List (Nat × Nat × Nat × Nat) := []
  /-- repairs that failed; R467, R490; reset none -/
  pprBad : List (Nat × Nat × Nat × Nat) := []
  /-- step 11 done; R461; reset 0 -/
  pprRun : Bool := false
  /-- the device's identity chain as the bundle brought it, in hub SRAM; R385, R466; reset wiped -/
  chain : List Byte := []
  /-- the calibration record as the bundle brought it, in hub SRAM; R456, R466; reset wiped -/
  pcal : List Byte := []
  /-- the Bonor image as the bundle brought it, in hub SRAM; R386, R466; reset wiped -/
  image : List Byte := []
  /-- spare tiles per die after the boot; R17, R39; reset none -/
  spares : Tbl (List Nat) := []
  /-- channels that failed training or wipe; R462; reset none -/
  badChannels : List Nat := []
  /-- PCI Express link up; R461, R484; reset 0 -/
  link : Bool := false
  /-- configuration requests answered; R463; reset 0 -/
  cfg : Bool := false
  /-- after a surprise removal no ring is served until a device reset; R484; reset 0 -/
  removed : Bool := false
  deriving DecidableEq, Repr

/-- A management session (R488). -/
structure Session where
  id : Nat
  /-- handshake done -/
  live : Bool
  /-- highest SEQ accepted, and those accepted within 64 of it -/
  top : Nat := 0
  got : List Nat := []
  /-- cached responses, newest first: request number, type, status, body; R487 -/
  cache : List (Nat × Nat × Nat × List Byte) := []
  /-- seconds of pushed telemetry left -/
  pushes : Nat := 0
  /-- SEQ of the next datagram sent -/
  txSeq : Nat := 1
  /-- the agent's and the device's nonce; R405, R488 -/
  nonceA : Nat := 0
  nonceD : Nat := 0
  /-- the device's ephemeral ECDH key, private and public, and the agent's public one; R405 -/
  ecdhPriv : Nat := 0
  ecdhPub : Nat := 0
  peerKey : Nat := 0
  /-- key and salt of each direction; R488. The verdict on an arriving tag comes with the command, so that nothing reads `rxKey` -/
  txKey : LinkKey := {}
  rxKey : LinkKey := {}
  deriving DecidableEq, Repr

/-- A delayed management action (R490). -/
inductive MgmtAction where
  | reset
  | transition
  | handover (root : Nat)
  | retire
  deriving DecidableEq, Repr

/-- The management port (R486 to R493). -/
structure Mgmt where
  /-- MGT.STATE.LINK; 1 bit; R493; reset 0 -/
  link : Bool := false
  /-- sessions, live or in handshake (MGT.STATE.SESSIONS); R488, R493; reset none -/
  sessions : List Session := []
  /-- next session number; R487; DESIGN CHOICE 1 (log entry 3) -/
  nextSession : Nat := 1
  /-- windows until another handshake may start (5 s); R488; reset 0 -/
  handshakeWait : Nat := 0
  /-- MGT.STATE.POLICY_SRC; 2 bits; R493; reset 0b11 -/
  policySrc : BitVec 2 := 3
  /-- MGT.STATE.POLICY_FLOOR; 7 bits; R493; reset 0 -/
  policyFloor : Nat := 0
  /-- MGT.STATE.PENDING: delayed action; R490, R493; reset none -/
  pending : Option MgmtAction := none
  /-- MGT.CTL.IRQ_EN; 1 bit; R493; reset 0 -/
  irqEn : Bool := false
  /-- MGT.CTL.VEC; 6 bits; R493; reset 0 -/
  vec : Nat := 0
  /-- MGT.NOTICE.KIND; 4 bits; R493; reset 0 -/
  noticeKind : Nat := 0
  /-- MGT.NOTICE.DELAY_MS; 14 bits; R493; reset 0 -/
  noticeDelay : Nat := 0
  /-- MGT.NOTICE.NSEQ; 32 bits; R493; reset 0 -/
  nseq : Nat := 0
  /-- bundle upload open: its length; R490; reset none -/
  upload : Option Nat := none
  /-- boot staging buffer; 32 MiB; R490; reset wiped -/
  staging : List Host.Cell := []
  /-- the upload was discarded by a PCI Express GO; R492; reset 0 -/
  uploadLost : Bool := false
  /-- neighbour solicitations, prefixes and PAUSE quanta: addresses formed, quanta to wait; R486; reset none -/
  addrs : List Nat := []
  pause : Nat := 0
  deriving DecidableEq, Repr

/-- MSI-X state of a function: its table and its pending bits (R481). -/
structure MsiX where
  /-- vectors unmasked; R481; reset every entry masked -/
  unmasked : List Nat := []
  /-- pending bits; R481; reset 0 -/
  pend : List Nat := []
  /-- message address, upper address and data words, by 4·vector + word; 32 bits each; R479, R481; reset DESIGN CHOICE 0
  (log entry 33) -/
  msg : Tbl Nat := []
  deriving DecidableEq, Repr

/-- The PCI Express endpoint (R474 to R485). -/
structure Pcie where
  /-- VF Enable; 1 bit; R480; reset 0 -/
  vfEnable : Bool := false
  /-- NumVFs; 16 bits; R480; reset 0 -/
  numVfs : Nat := 0
  /-- functions in D3hot, 0 the PF and v + 1 VF v; R475; reset none -/
  d3 : List Nat := []
  /-- MSI-X per function, 0 the PF and v + 1 VF v; R481; reset masked -/
  msix : Tbl MsiX := []
  /-- VFs whose FLR is under way; R482; reset none -/
  flr : List Nat := []
  /-- VFs that cease to exist when their FLR completes; R483; reset none -/
  ceasing : List Nat := []
  /-- AER errors logged, newest first: 0 a ring slot's read, 1 poisoned data, 2 a timeout or an error status, 3 an unsupported request; R485; reset none -/
  aer : List Nat := []
  deriving DecidableEq, Repr

/-- Zilte device-wide registers (R339, R340). -/
structure ZltDev where
  /-- ZLT.EVBASE; 52 bits; R340; reset 0 -/
  evBase : Nat := 0
  /-- ZLT.EVCFG.LOG2N; 4 bits; R340; reset 0 -/
  evLog2n : Nat := 0
  /-- ZLT.EVCFG.ENABLE; 1 bit; R340; reset 0 -/
  evEnable : Bool := false
  /-- ZLT.EVCFG.VEC; 6 bits; R340; reset 0 -/
  evVec : Nat := 0
  /-- ZLT.EVHEAD.HEAD; 12 bits; R340; reset 0 -/
  evHead : Nat := 0
  /-- ZLT.EVHEAD.TAIL; 12 bits; R340; reset 0 -/
  evTail : Nat := 0
  /-- ZLT.EVHEAD.DROPPED; 32 bits; R340; reset 0 -/
  evDropped : Nat := 0
  /-- PHASE of the event ring's pass; 1 bit; R339; DESIGN CHOICE 1 (log entry 3) -/
  evPhase : Bool := true
  /-- next EVSEQ; 32 bits; R339; reset 1 -/
  evSeq : Nat := 1
  /-- ZLT.ADMIT.LIST; 1 bit; R340; reset 0 -/
  admitList : Bool := false
  /-- ZLT.ADMIT.ECDSA_ONLY; 1 bit; R340; reset 0 -/
  ecdsaOnly : Bool := false
  /-- ZLT.ALLOW words by 8·i + word; 256 × 8 × 64 bits; R340; reset 0 -/
  allow : Tbl Word := []
  /-- next BSEQ to send per bond (a port alone as 16 + port); 16 bits each; R335; reset 0 -/
  bseqs : Tbl Nat := []
  /-- BSEQs delivered per bond, last 32,768, newest first; R335; reset none -/
  delivered : Tbl (List Nat) := []
  deriving DecidableEq, Repr

/-- MESH registers of a die (R245, R263). -/
structure Mesh where
  /-- MESH.ERR.REPLAYS; 32 bits; R245; reset 0 -/
  replays : Nat := 0
  /-- MESH.LMISS.COLONY; 64 bits; R263; reset 0 -/
  lmiss : Word := 0
  /-- MESH.LMISSCTL.EN; 1 bit; R263; reset 0 -/
  missEn : Bool := false
  /-- MESH.LMISSCTL.VEC; 6 bits; R263; reset 0 -/
  missVec : Nat := 0
  /-- MESH.URG.OVER; 32 bits; R263; reset 0 -/
  urgOver : Nat := 0
  /-- XLT.WALK.WALKS of the die's walker; 64 bits; R309; reset 0 -/
  walks : Nat := 0
  /-- walker cache: leaves and pointer entries (XLT.WCACHE.OCC counts them); 4,096, 8-way; R296, R309; reset empty -/
  wcache : List WalkEntry := []
  /-- XLT.WCACHE.PARITY; 32 bits; R309; reset 0 -/
  wparity : Nat := 0
  deriving DecidableEq, Repr

/-- Why a step faults. No meaning of this model faults: what the spec calls an error ends a command, sets a flag or
is ignored. -/
inductive Fault where
  /-- raised by nothing; kept so that the type is inhabited; safe -/
  | none
  deriving DecidableEq, Repr

/-- Why a step is refused. -/
inductive Refusal where
  /-- raised by Dispatch for a row without a meaning yet (none is left in this model); safe: nothing follows from it -/
  | notModelled (mnemonic : String)
  deriving DecidableEq, Repr

/-- The state of the device. -/
structure State where
  /-- commands waiting, first in first out; the block's queue; reset empty -/
  pending : List Instr := []
  /-- CLK.TICKS.COUNT and SYSR TICKS; 64 bits; R447, R457; reset 0 -/
  ticks : Nat := 0
  /-- the model's own count of free values drawn (Config.freeValue); DESIGN CHOICE 0, log entry 4 -/
  free : Nat := 0
  /-- outputs, oldest first; the model's own log; reset empty -/
  out : List Out := []
  /-- cores 0-639; R10, R16; reset as Core -/
  cores : Tbl Core := []
  /-- signals on their way; R87; reset none -/
  signals : List SignalMsg := []
  /-- hub; reset as Hub -/
  hub : Hub := {}
  /-- the command tracker by fetch number; 4,096 entries; R160; reset empty -/
  cmds : Tbl Cmd := []
  /-- next fetch number; R157; reset 0 -/
  nextCmd : Nat := 0
  /-- colonies 1-64; R193; reset as Colony -/
  cols : Tbl Colony := []
  /-- channels 0-511 with their slices; R10; reset as Channel -/
  chans : Tbl Channel := []
  /-- HBM bytes that are not 0, by 2^31 · channel + channel byte offset; 1,024 GiB; R226, R233; reset wiped, 0 (R13, R469) -/
  hbm : List Host.Cell := []
  /-- Zilte ports 0-15; R310; reset as Port -/
  ports : Tbl Port := []
  /-- Zilte device registers; R340; reset as ZltDev -/
  zlt : ZltDev := {}
  /-- fabric; R341-R370; reset as Fabric -/
  fab : Fabric := {}
  /-- security; R374-R406; reset as Security -/
  sec : Security := {}
  /-- fault collector; R407-R433; reset as Faults -/
  flt : Faults := {}
  /-- power and clocks; R434-R458; reset as Power -/
  pwr : Power := {}
  /-- mesh and walkers, dies 0-3; R245, R263, R309; reset as Mesh -/
  mesh : Tbl Mesh := []
  /-- boot; R459-R472; reset as Boot -/
  boot : Boot := {}
  /-- management; R486-R493; reset as Mgmt -/
  mgt : Mgmt := {}
  /-- PCI Express; R474-R485; reset as Pcie -/
  pcie : Pcie := {}
  deriving DecidableEq, Repr

/-- The machine right after reset: held in reset by PERST_N with every register at its reset value, the tracker, the
tables and the queue empty and every memory wiped (R459, R469, R470; log entries 1 to 4). -/
def State.reset : State := {}

end Sys2Proof.Machine
end

