-- ==== Sys2Proof/Machine/Table.lean ====
section
/-! DEFINITION. Reading and writing the two kinds of sparse data that State holds: tables of numbered entries, and byte
memories in their canonical form (addresses strictly rising, no zero byte listed; an unlisted byte reads as the 0 that a
wipe leaves, R13, R469). -/

namespace Sys2Proof.Machine

/-- Entry `n` of a table, the default `d` where it is not listed. -/
def tget {α : Type} (d : α) : Tbl α → Nat → α
  | [], _ => d
  | (k, v) :: r, n => if k = n then v else tget d r n

/-- Entry `n` of a table, if it is listed. -/
def tfind {α : Type} : Tbl α → Nat → Option α
  | [], _ => none
  | (k, v) :: r, n => if k = n then some v else tfind r n

/-- A table with entry `n` set. -/
def tset {α : Type} : Tbl α → Nat → α → Tbl α
  | [], n, x => [(n, x)]
  | (k, v) :: r, n, x => if n < k then (n, x) :: (k, v) :: r else if k = n then (n, x) :: r else (k, v) :: tset r n x

/-- A table without entry `n`. -/
def tdel {α : Type} : Tbl α → Nat → Tbl α
  | [], _ => []
  | (k, v) :: r, n => if k = n then tdel r n else (k, v) :: tdel r n

/-- A table with entry `n` changed. -/
def tmod {α : Type} (d : α) (t : Tbl α) (n : Nat) (f : α → α) : Tbl α := tset t n (f (tget d t n))

/-- A byte of a memory; 0 where nothing is listed. -/
def mget : List Host.Cell → Nat → Byte
  | [], _ => 0
  | (k, v) :: r, a => if k = a then v else mget r a

/-- A memory with one byte stored, in canonical form. -/
def mput : List Host.Cell → Nat → Byte → List Host.Cell
  | [], a, b => if b = 0 then [] else [(a, b)]
  | (k, v) :: r, a, b =>
    if a < k then (if b = 0 then (k, v) :: r else (a, b) :: (k, v) :: r)
    else if k = a then (if b = 0 then r else (a, b) :: r)
    else (k, v) :: mput r a b

/-- `n` bytes of a memory from address `a`. -/
def mread (m : List Host.Cell) (a : Nat) : Nat → List Byte
  | 0 => []
  | n + 1 => mget m a :: mread m (a + 1) n

/-- A memory with bytes stored from address `a`. -/
def mwrite (m : List Host.Cell) (a : Nat) : List Byte → List Host.Cell
  | [] => m
  | b :: bs => mwrite (mput m a b) (a + 1) bs

/-- A memory with `n` bytes from `a` set to zero. -/
def mwipe (m : List Host.Cell) (a n : Nat) : List Host.Cell := m.filter (fun c => !(decide (a ≤ c.1) && decide (c.1 < a + n)))

/-- Every listed address lies above `lo`, they rise strictly, and no listed byte is zero. -/
def Memory.wfFrom : Option Nat → List Host.Cell → Bool
  | _, [] => true
  | lo, (k, v) :: r => (match lo with | none => true | some l => decide (l < k)) && !(v == 0) && Memory.wfFrom (some k) r

/-- The canonical form of a byte memory. -/
def Memory.wf (m : List Host.Cell) : Bool := Memory.wfFrom none m

/-- The first element of a list that meets a test, with its position. -/
def findIdx? {α : Type} (p : α → Bool) : List α → Option (Nat × α)
  | [] => none
  | x :: xs => if p x then some (0, x) else (findIdx? p xs).map (fun (i, y) => (i + 1, y))

/-- A list with an element added unless it is there (held locks, sharers: no repeats). -/
def insertNew (l : List Nat) (x : Nat) : List Nat := if l.contains x then l else l ++ [x]

/-- Insertion into a rising list without repeats. -/
def insertSorted : List Nat → Nat → List Nat
  | [], x => [x]
  | y :: ys, x => if x < y then x :: y :: ys else if x = y then y :: ys else y :: insertSorted ys x

/-- A list sorted into rising order without repeats. -/
def sortNat (l : List Nat) : List Nat := l.foldl insertSorted []

/-- The least number below `n` that is not in `l`. -/
def leastFree (l : List Nat) (n : Nat) : Option Nat := (List.range n).find? (fun i => !l.contains i)

end Sys2Proof.Machine
end

