-- ==== Sys2Proof/Machine/Ops.lean ====
section
/-! DEFINITION. Named operations over State that every family shares: access to each numbered unit, outputs and
interrupts, the fields of a command packet (R138 to R151), and the fault collector's record (R407 to R413). -/

namespace Sys2Proof.Machine

/-- The outcome of a command. -/
abbrev Res := Host.Outcome State Fault Refusal

/- Units by number. -/

def coreAt (s : State) (n : Nat) : Core := tget {} s.cores n
def setCore (s : State) (n : Nat) (c : Core) : State := { s with cores := tset s.cores n c }
def modCore (s : State) (n : Nat) (f : Core → Core) : State := setCore s n (f (coreAt s n))

def colAt (s : State) (n : Nat) : Colony := tget {} s.cols n
def setCol (s : State) (n : Nat) (c : Colony) : State := { s with cols := tset s.cols n c }
/-- The instar that a request issued now carries (R197, R204). -/
def stampOf (s : State) (colony : Nat) : Nat := (colAt s colony).cur.instar
def modCol (s : State) (n : Nat) (f : Colony → Colony) : State := setCol s n (f (colAt s n))

def chanAt (s : State) (n : Nat) : Channel := tget {} s.chans n
def setChan (s : State) (n : Nat) (c : Channel) : State := { s with chans := tset s.chans n c }
def modChan (s : State) (n : Nat) (f : Channel → Channel) : State := setChan s n (f (chanAt s n))

def portAt (s : State) (n : Nat) : Port := tget {} s.ports n
def setPort (s : State) (n : Nat) (p : Port) : State := { s with ports := tset s.ports n p }
def modPort (s : State) (n : Nat) (f : Port → Port) : State := setPort s n (f (portAt s n))

def meshAt (s : State) (n : Nat) : Mesh := tget {} s.mesh n
def modMesh (s : State) (n : Nat) (f : Mesh → Mesh) : State := { s with mesh := tset s.mesh n (f (meshAt s n)) }

def cmdAt (s : State) (id : Nat) : Option Cmd := tfind s.cmds id
def setCmd (s : State) (id : Nat) (c : Cmd) : State := { s with cmds := tset s.cmds id c }
def modCmd (s : State) (id : Nat) (f : Cmd → Cmd) : State :=
  match cmdAt s id with
  | some c => setCmd s id (f c)
  | none => s

def modHub (s : State) (f : Hub → Hub) : State := { s with hub := f s.hub }
def engineAt (s : State) (n : Nat) : CopyEngine := tget {} s.hub.engines n
def modEngine (s : State) (n : Nat) (f : CopyEngine → CopyEngine) : State :=
  modHub s (fun h => { h with engines := tset h.engines n (f (engineAt s n)) })
def ctrlAt (s : State) (n : Nat) : CtrlCore := tget .untested s.hub.ctrl n
def setCtrl (s : State) (n : Nat) (c : CtrlCore) : State := modHub s (fun h => { h with ctrl := tset h.ctrl n c })
def sqAt (s : State) (page ring : Nat) : SqRing := tget {} s.hub.sqs (16 * page + ring)
def setSq (s : State) (page ring : Nat) (r : SqRing) : State :=
  modHub s (fun h => { h with sqs := tset h.sqs (16 * page + ring) r })
def cqAt (s : State) (page ring : Nat) : CqRing := tget {} s.hub.cqs (16 * page + ring)
def setCq (s : State) (page ring : Nat) (r : CqRing) : State :=
  modHub s (fun h => { h with cqs := tset h.cqs (16 * page + ring) r })
def syncAt (s : State) (page n : Nat) : Word := tget 0 s.hub.syncs (256 * page + n)
def setSync (s : State) (page n : Nat) (v : Word) : State :=
  modHub s (fun h => { h with syncs := tset h.syncs (256 * page + n) v })
def slotAt (s : State) (n : Nat) : Slot := tget {} s.sec.slots n
def modSlot (s : State) (n : Nat) (f : Slot → Slot) : State :=
  { s with sec := { s.sec with slots := tset s.sec.slots n (f (slotAt s n)) } }
def dieAt (s : State) (n : Nat) : DiePower := tget {} s.pwr.dies n
def modDie (s : State) (n : Nat) (f : DiePower → DiePower) : State :=
  { s with pwr := { s.pwr with dies := tset s.pwr.dies n (f (dieAt s n)) } }
def runCtlAt (s : State) (c : Nat) : RunCtl := tget {} s.hub.runCtl c
def acctAt (s : State) (c : Nat) : Acct := tget {} s.hub.acct c

/-- A change to a colony's counters, each wrapping at 2^64 (R191). -/
def modAcct (s : State) (c : Nat) (f : Acct → Acct) : State :=
  modHub s (fun h => { h with acct := tset h.acct c (f (acctAt s c)) })

/-- Die of a core number, a channel's die and an agent's die (R10, R17). -/
def dieOfCore (n : Nat) : Nat := n / 160
def dieOfChannel (n : Nat) : Nat := n / 128

/-- The lifecycle state as evidence byte 8 codes it (R376, R390): 0 BLANK, 1 FACTORY_TEST, 2 PROVISIONED, 3 DEPLOYED, 4
RETIRED. -/
def lifecycle (s : State) : Nat :=
  let k := s.sec.lcSteps
  if k = 0 then 0 else if k = 1 then 1 else if 9 < k then 4 else if k % 2 = 0 then 2 else 3

/-- Every per-agent translation cache keeps only some entries (R296). -/
def filterTcs (s : State) (keep : TcEntry → Bool) : State :=
  let s1 := { s with cores := s.cores.map (fun e => (e.1, { e.2 with tc := e.2.tc.filter keep }))
                     ports := s.ports.map (fun e => (e.1, { e.2 with tc := e.2.tc.filter keep })) }
  modHub s1 (fun h => { h with engines := h.engines.map (fun e => (e.1, { e.2 with tc := e.2.tc.filter keep }))
                               ctrlTc := h.ctrlTc.map (fun e => (e.1, e.2.filter keep)) })

/-- Every walker cache keeps only some entries (R296). -/
def filterWalkers (s : State) (keep : WalkEntry → Bool) : State :=
  { s with mesh := s.mesh.map (fun e => (e.1, { e.2 with wcache := e.2.wcache.filter keep })) }

/-- The number of device ticks in a number of microseconds: SYSREF periods of 6.4 ns (R447), rounded up. -/
def ticksOfUs (us : Nat) : Nat := (us * 10000 + 63) / 64

/- Outputs and interrupts. -/

/-- One more output (log entry 5). -/
def emit (s : State) (o : Out) : State := { s with out := s.out ++ [o] }

def fnIndex : Fn → Nat
  | .pf => 0
  | .vf v => v + 1

def msixAt (s : State) (fn : Fn) : MsiX := tget {} s.pcie.msix (fnIndex fn)
def setMsix (s : State) (fn : Fn) (m : MsiX) : State :=
  { s with pcie := { s.pcie with msix := tset s.pcie.msix (fnIndex fn) m } }

/-- A VF exists while VF Enable is 1 and its number lies below NumVFs, and has not ceased (R480, R482, R483). -/
def fnPresent (s : State) : Fn → Bool
  | .pf => true
  | .vf v => s.pcie.vfEnable && decide (v < s.pcie.numVfs) && !s.pcie.ceasing.contains v

/-- An MSI-X event of a function (R481): a message, or a pending bit while the vector is masked. A VF in FLR sends
nothing (R482 step 1), nor does one that does not exist; without a link nothing is sent. -/
def raiseMsix (s : State) (fn : Fn) (v : Nat) : State :=
  let m := msixAt s fn
  let silent := match fn with
    | .pf => false
    | .vf k => s.pcie.flr.contains k || !fnPresent s fn
  if silent then s
  else if m.unmasked.contains v && s.boot.link then emit s (.msix fn v)
  else setMsix s fn { m with pend := insertNew m.pend v }

/-- The function that owns a ring page (R130, R215): the mapped VF of the colony, else the PF. -/
def pageOwner (s : State) (page : Nat) : Fn :=
  if page = 0 then .pf
  else
    let v := (colAt s page).vf
    if v = 0x7F then .pf else .vf v

/- Fields of a packet (R138 to R151). -/

def Cmd.byte (c : Cmd) (off len : Nat) : Nat := bytesAt c.pkt off len
def Cmd.op (c : Cmd) : Nat := c.byte 0 1
def Cmd.irq (c : Cmd) : Bool := (c.byte 1 1).testBit 0
def Cmd.hostRerun (c : Cmd) : Bool := (c.byte 1 1).testBit 1
def Cmd.label (c : Cmd) : Nat := c.byte 2 1 % 8
def Cmd.tag (c : Cmd) : Nat := c.byte 4 4
def Cmd.isLaunch (c : Cmd) : Bool := c.op == 0x10

/-- RESULT of a command that ends with a failure (R153): a LAUNCH's core count; of bytes and entries, none stand (R155). -/
def Cmd.failResult (c : Cmd) : Nat := if c.isLaunch then c.result else 0

/-- Two accounts added, counter by counter (R191). -/
def Acct.plus (a b : Acct) : Acct :=
  { coreNs := wrapAdd 64 a.coreNs b.coreNs, hbmRd := wrapAdd 64 a.hbmRd b.hbmRd, hbmWr := wrapAdd 64 a.hbmWr b.hbmWr
    hostIn := wrapAdd 64 a.hostIn b.hostIn, hostOut := wrapAdd 64 a.hostOut b.hostOut, fabOut := wrapAdd 64 a.fabOut b.fabOut
    energy := wrapAdd 64 a.energy b.energy, records := wrapAdd 64 a.records b.records }

/-- What a command does is counted for its colony (R190, R191): at once, or, for a running attempt, when the attempt is charged. -/
def countFor (s : State) (id colony : Nat) (f : Acct → Acct) : State :=
  match cmdAt s id with
  | some c => if c.phase = .running then setCmd s id { c with use := f c.use } else modAcct s colony f
  | none => modAcct s colony f

/-- LAUNCH fields (R144). -/
def Cmd.imageVa (c : Cmd) : Nat := c.byte 16 8
def Cmd.paramsVa (c : Cmd) : Nat := c.byte 24 8
def Cmd.anchor (c : Cmd) : Int := sext (c.byte 32 2) 10
def Cmd.scaleA (c : Cmd) : Nat := c.byte 34 1
def Cmd.scaleB (c : Cmd) : Nat := c.byte 35 1
def Cmd.headroom (c : Cmd) : Nat := c.byte 36 1 % 64
def Cmd.legacy (c : Cmd) : Bool := c.isLaunch && (c.byte 36 1).testBit 6
def Cmd.nonPreempt (c : Cmd) : Bool := c.isLaunch && (c.byte 36 1).testBit 7
def Cmd.defer (c : Cmd) : Bool := c.isLaunch && (c.byte 37 1).testBit 0
def Cmd.coreLimit (c : Cmd) : Nat := c.byte 38 2
def Cmd.fmtA (c : Cmd) : Nat := c.byte 44 1 % 8
def Cmd.fmtB (c : Cmd) : Nat := c.byte 44 1 / 8 % 8

/-- The job group of a command, 0 for none (R144, R147, R362). -/
def Cmd.job (c : Cmd) : Nat :=
  if c.op = 0x10 then c.byte 40 2
  else if 0x30 ≤ c.op ∧ c.op ≤ 0x33 then c.byte 16 2
  else if c.op = 0x34 then c.byte 18 2
  else 0

/-- REDUCE, GATHER, SCATTER or BARRIER (R147). -/
def Cmd.isCollective (c : Cmd) : Bool := decide (0x30 ≤ c.op) && decide (c.op ≤ 0x33)

/-- The command is carried out through attempts (R159's list; every other opcode is carried out by Bonor directly). -/
def Cmd.attempted (c : Cmd) : Bool :=
  [0x10, 0x20, 0x21, 0x22, 0x23, 0x30, 0x31, 0x32, 0x33, 0x34, 0x71].contains c.op

/-- The command has its final status (R155). -/
def Cmd.finished (c : Cmd) : Bool :=
  match c.phase with
  | .done => true
  | .written => true
  | _ => false

/-- A deferred LAUNCH that ended with a failure and that no COMMIT or ABANDON has disposed of yet (R159, R160; log entry 93). -/
def Cmd.unsettled (c : Cmd) : Bool :=
  c.isLaunch && c.defer && !c.dying && c.claimedBy.isNone && c.finished && !List.contains [0x00, 0x02, 0x0E] c.status

/-- The command has started (R157, R177): a killed command that is rerun counts as started. -/
def Cmd.started (c : Cmd) : Bool :=
  match c.phase with
  | .fetched => decide (0 < c.attempts)
  | .ready => decide (0 < c.attempts)
  | _ => true

/-- The commands of State by fetch number, oldest first. -/
def cmdList (s : State) : List (Nat × Cmd) := s.cmds

/- The fault collector (R407 to R413). -/

/-- A fault record not yet numbered: its cause, severity, unit and colony. -/
def blankRec (cause severity : Nat) (unit : UnitRef) (colony : Nat) : FaultRec :=
  { cause := cause, severity := severity, st := .opened, unit := unit, colony := colony, fseq := 0 }

/-- A record that names a command (R409): its tag, ring, colony and job. -/
def nameCmd (s : State) (r : FaultRec) (id : Nat) : FaultRec :=
  match cmdAt s id with
  | some c => { r with cmdTag := c.tag, cmdRing := c.ring, cmdValid := true, job := c.job }
  | none => r

/-- Where a new record of a severity begins (R410); an EVENT closes at once. -/
def firstState (severity : Nat) : RecState :=
  if severity = 0 then .closed else if severity = 2 then .window else if severity = 3 then .resetting else .opened

/-- The record is still being handled: OPEN, WINDOW or RESETTING. -/
def RecState.live : RecState → Bool
  | .opened => true
  | .window => true
  | .resetting => true
  | _ => false

/-- R411: an existing record takes the new fault. -/
def merges (old new : FaultRec) : Bool :=
  !old.xlt && !new.xlt &&
  ((old.st.live && new.unit != .none && old.unit == new.unit) ||
   (new.severity == 0 && old.severity == 0 && old.st != .free && old.cause == new.cause && old.unit == new.unit
      && old.colony == new.colony))

/-- The latest record that takes a new fault (R411). -/
def mergeTarget (recs : Tbl FaultRec) (new : FaultRec) : Option (Nat × FaultRec) :=
  recs.foldl (fun best e =>
    if merges e.2 new then
      match best with
      | some b => if b.2.fseq < e.2.fseq then some e else best
      | none => some e
    else best) none

/-- The entry a new record takes (R412): the lowest FREE one, else the CLOSED or FENCED one of lowest FSEQ. -/
def recEntry (recs : Tbl FaultRec) : Option Nat :=
  match (List.range 512).find? (fun i => match tfind recs i with | none => true | some r => r.st == .free) with
  | some i => some i
  | none =>
    (recs.foldl (fun best e =>
      if e.2.st.live then best
      else match best with
        | some b => if e.2.fseq < b.2.fseq then some e else best
        | none => some e) (none : Option (Nat × FaultRec))).map (fun e => e.1)

/-- A perturbation point is active (R431). -/
def perturbed (s : State) : Bool := s.flt.gnats.any (fun g => g.2.action != 0)

/-- The next fault number, never 0 (R408). -/
def nextFseq (n : Nat) : Nat := if (n + 1) % 2 ^ 32 = 0 then 1 else (n + 1) % 2 ^ 32

/-- R413's interrupt for a severity. -/
def faultIrq (s : State) (severity : Nat) : State :=
  if !s.flt.irqEn then s
  else if severity = 0 then (if s.flt.eventIrq then raiseMsix s .pf s.flt.vec else s)
  else if 2 ≤ severity then raiseMsix s .pf s.flt.vec
  else s

/-- A fault merges into the record at an index (R410, R411). -/
def mergeInto (s : State) (i : Nat) (r : FaultRec) : State :=
  match tfind s.flt.recs i with
  | none => s
  | some o =>
    let sev := max o.severity r.severity
    let o' := { o with
      occur := satInc 16 o.occur
      cause2 := if r.cause = o.cause then o.cause2 else r.cause
      severity := sev
      status := if o.status = 0 then r.status else o.status
      st := if o.severity < r.severity then firstState r.severity else o.st }
    let s1 := { s with flt := { s.flt with recs := tset s.flt.recs i o' } }
    if o.severity < r.severity && 2 ≤ r.severity then faultIrq s1 sev else s1

/-- A fault reaches the collector (R407, R410 to R413): it merges, or takes an entry, or is counted unrecorded. The
answer is the record's index, if it has one. -/
def recordFault (s : State) (r : FaultRec) : State × Option Nat :=
  match mergeTarget s.flt.recs r with
  | some (i, _) => (mergeInto s i r, some i)
  | none =>
    match recEntry s.flt.recs with
    | some i =>
      let q := nextFseq s.flt.last
      let r' := { r with
        fseq := q, st := firstState r.severity, ticks := s.ticks, gnat := perturbed s
        instar := (colAt s r.colony).cur.instar }
      let s1 := { s with flt := { s.flt with recs := tset s.flt.recs i r', last := q } }
      (faultIrq s1 r.severity, some i)
    | none =>
      let w := if r.severity = 2 then s.flt.unrecordedWin ++ [r.unit] else s.flt.unrecordedWin
      let z := if r.severity = 3 then s.flt.unrecordedReset ++ [r.unit] else s.flt.unrecordedReset
      let s1 := { s with flt := { s.flt with unrecorded := satInc 32 s.flt.unrecorded, unrecordedWin := w, unrecordedReset := z } }
      (faultIrq s1 r.severity, none)

/-- A change to one fault record. -/
def modRec (s : State) (i : Nat) (f : FaultRec → FaultRec) : State :=
  match tfind s.flt.recs i with
  | some r => { s with flt := { s.flt with recs := tset s.flt.recs i (f r) } }
  | none => s

/-- The reaction of a record is complete and no unit is fenced (R410). -/
def closeRec (s : State) (i : Option Nat) : State :=
  match i with
  | some k => modRec s k (fun r => if r.st == .opened then { r with st := .closed } else r)
  | none => s

/-- The open records that name a unit become FENCED when its fence is complete (R410). -/
def fencedRecs (s : State) (u : UnitRef) : State :=
  { s with flt := { s.flt with recs := s.flt.recs.map (fun e =>
      if e.2.unit == u && e.2.st.live && !e.2.xlt then (e.1, { e.2 with st := .fenced }) else e) } }

/-- An injection of a kind is armed on a unit (R432). -/
def armed (s : State) (kind n : Nat) : Bool := s.flt.armed.contains (kind, n)

/-- An armed injection is used up (R432). -/
def disarm (s : State) (kind n : Nat) : State :=
  { s with flt := { s.flt with armed := s.flt.armed.filter (fun x => x != (kind, n)) } }

/-- The model's next free value (Config.freeValue), and the count advanced (log entry 4). -/
def drawFree (s : State) : Nat × State := (Config.freeValue s.free, { s with free := s.free + 1 })

/-- The raw syndrome of a memory error (R409), which no rule gives: a free value (log entry 4). -/
def syndrome (s : State) : Word × State := (BitVec.ofNat 64 (drawFree s).1, (drawFree s).2)

/-- Every word of a zero-based range paired with an index. -/
def enumNat {α : Type} (l : List α) : List (Nat × α) := (List.range l.length).zip l

end Sys2Proof.Machine
end

