-- ==== Sys2Proof/Machine/Bundle.lean ====
section
/-! DEFINITION. The boot bundle in bytes (R464 to R466): its header, the boot configuration (R465), the device's identity chain
(R385), the calibration record (R456) and the Bonor image (R386). Signatures are checked outside the model: their verdicts come
with the command (log entry 22). -/

namespace Sys2Proof.Machine

/-- `len` bytes from `off`. -/
def slice (b : List Byte) (off len : Nat) : List Byte := (b.drop off).take len

/- The header (R464). -/

/-- Offset and length of section `k`: 1 the configuration, 2 the chain, 3 the calibration record, 4 the image. -/
def sectionOf (b : List Byte) (k : Nat) : Nat × Nat := (bytesAt b (8 * k) 4, bytesAt b (8 * k + 4) 4)

/-- A section's bytes. -/
def sectionBytes (b : List Byte) (k : Nat) : List Byte := slice b (sectionOf b k).1 (sectionOf b k).2

/-- Two sections do not overlap. -/
def apart (x y : Nat × Nat) : Bool := decide (x.1 + x.2 ≤ y.1) || decide (y.1 + y.2 ≤ x.1)

/-- The header's form: MAGIC, VERSION, the reserved fields, and sections that lie after it, within the bundle and apart. -/
def bundleFormOk (b : List Byte) : Bool :=
  let z := ([1, 2, 3, 4] : List Nat).map (sectionOf b)
  decide (256 ≤ b.length) && bytesAt b 0 4 == 0x4E424245 && bytesAt b 4 2 == 1 && zeroAt b 6 2 && zeroAt b 40 216 &&
  (sectionOf b 1).2 == 1024 && z.all (fun x => x.1 % 64 == 0 && decide (256 ≤ x.1) && decide (x.1 + x.2 ≤ b.length)) &&
  (enumNat z).all (fun x => (enumNat z).all (fun y => x.1 == y.1 || apart x.2 y.2))

/- The boot configuration (R465). -/

/-- A PPR entry: channel, pseudo-channel, bank, row. -/
def pprEntry (cfg : List Byte) (i : Nat) : Nat × Nat × Nat × Nat :=
  let v := bytesAt cfg (64 + 8 * i) 8
  (v % 512, v / 512 % 2, v / 1024 % 64, v / 65536 % 2 ^ 18)

/-- The repairs that a configuration names. -/
def repairsOf (cfg : List Byte) : List (Nat × Nat × Nat × Nat) := (List.range (bytesAt cfg 6 2)).map (pprEntry cfg)

/-- R465's rules on the repairs: units in range, at most 120 entries, 4 to a channel, one to a bank. -/
def pprOk (l : List (Nat × Nat × Nat × Nat)) : Bool :=
  decide (l.length ≤ 120) &&
  l.all (fun e => decide (e.1 < 512) && decide (e.2.1 < 2) && decide (e.2.2.1 < 48) && decide (e.2.2.2 < 2 ^ 18) &&
    decide ((l.filter (fun x => x.1 == e.1)).length ≤ 4) &&
    decide ((l.filter (fun x => x.1 == e.1 && x.2.1 == e.2.1 && x.2.2.1 == e.2.2.1)).length ≤ 1))

/-- The configuration's form and its entries (R465). -/
def configOk (cfg : List Byte) : Bool :=
  let n := bytesAt cfg 6 2
  bytesAt cfg 0 4 == 0x43424245 && bytesAt cfg 4 2 == 1 && decide (n ≤ 120) && zeroAt cfg 8 56 &&
  (List.range n).all (fun i => decide (bytesAt cfg (64 + 8 * i) 8 < 2 ^ 34)) && zeroAt cfg (64 + 8 * n) (960 - 8 * n) && pprOk (repairsOf cfg)

/- The identity chain (R379, R385). -/

/-- The key-pair hash of a root: SHA-384 of its 157 bytes. -/
def rootHash (chain : List Byte) : List Byte := sha384 (slice chain 0 157)

/-- The key-pair hash of a certificate's subject. -/
def subjectHash (chain : List Byte) (at_ : Nat) : List Byte := sha384 (slice chain (at_ + 64) 97 ++ slice chain (at_ + 164) 60)

/-- A certificate with its signature block takes this many bytes (R381, R385). -/
def certBytes (chain : List Byte) (at_ : Nat) : Nat := 356 + bytesAt chain (at_ + 256) 2

/-- The form of a certificate of a role whose issuer's key-pair hash is `issuer`. -/
def certOk (chain : List Byte) (at_ role : Nat) (issuer : List Byte) : Bool :=
  decide (at_ + certBytes chain at_ ≤ chain.length) && bytesAt chain at_ 4 == 0x54434245 && bytesAt chain (at_ + 4) 2 == 1 &&
  bytesAt chain (at_ + 6) 1 == role && zeroAt chain (at_ + 7) 1 && slice chain (at_ + 16) 48 == issuer && zeroAt chain (at_ + 161) 3 &&
  zeroAt chain (at_ + 224) 32 && decide (bytesAt chain (at_ + 258) 1 < 2) && zeroAt chain (at_ + 259) 1

/-- Where the device certificate lies: after the root and the identity CA's. -/
def deviceCertAt (chain : List Byte) : Nat := 157 + certBytes chain 157

/-- The device chain runs to ID_ROOT through an identity CA and a device certificate. -/
def chainRuns (chain : List Byte) (idRoot : Nat) : Bool :=
  leNat (rootHash chain) == idRoot && certOk chain 157 1 (rootHash chain) && certOk chain (deviceCertAt chain) 2 (subjectHash chain 157)

/-- IDHASH (R382) of the device certificate's ECDSA key. -/
def certIdhash (chain : List Byte) : Nat := leNat (sha384 (slice chain (deviceCertAt chain + 64) 97))

/- The calibration record (R456). -/

/-- The record's form, and that it names this device. -/
def pcalNames (p : List Byte) (idhash : Nat) : Bool :=
  decide (1124 ≤ p.length) && bytesAt p 0 4 == 0x4C414350 && bytesAt p 4 2 == 1 && zeroAt p 6 2 && bytesAt p 8 48 == idhash &&
  zeroAt p 168 184 && zeroAt p 352 672

/-- VMIN in mV, index 5·die + state. -/
def pcalVmin (p : List Byte) : List Nat := (List.range 20).map (fun i => bytesAt p (56 + 2 * i) 2)

/- The Bonor image (R386, R387). -/

/-- The manifest's form, and CODE_DIGEST over the code. -/
def manifestOk (img : List Byte) : Bool :=
  let n := bytesAt img 12 4
  bytesAt img 0 4 == 0x57464245 && bytesAt img 4 2 == 1 && decide (bytesAt img 6 2 < 4) && decide (bytesAt img 8 2 ≤ 64) && zeroAt img 10 2 &&
  n % 64 == 0 && decide (64 ≤ n) && decide (n ≤ 2 ^ 24) && zeroAt img 80 176 && decide (256 + n ≤ img.length) &&
  slice img 16 48 == sha384 (slice img 256 n)

def imageFactoryOnly (img : List Byte) : Bool := (bytesAt img 6 2).testBit 0
def imageOwnerSigned (img : List Byte) : Bool := (bytesAt img 6 2).testBit 1
def imageSvn (img : List Byte) : Nat := bytesAt img 8 2

/-- The Bonor measurement (R387): SHA-384 of the manifest. -/
def measurementOf (img : List Byte) : Nat := leNat (sha384 (img.take 256))

end Sys2Proof.Machine
end

