-- ==== Sys2Proof/Machine/Fp.lean ====
section
/-! DEFINITION. Number formats and exact arithmetic (R42 to R65, R115, R118). A finite value is an integer times a
power of two, computed exactly; rounding happens once, explicitly, at the end. -/

namespace Sys2Proof.Machine

/-- A binary floating-point format (R42): exponent width is implied by the largest finite encoding. -/
structure Fmt where
  /-- width of M -/
  m : Nat
  /-- weight of the least subnormal, as a power of two -/
  base : Int
  /-- encoding of the largest finite magnitude -/
  top : Nat
  /-- sign bit position -/
  sign : Nat
  /-- encoding of +Infinity, if the format has one -/
  inf : Option Nat
  /-- NaN encodings are those magnitudes from this one on (above inf), if any -/
  nan : Option Nat
  deriving DecidableEq, Repr

def fp32 : Fmt := ⟨23, -149, 0x7F7FFFFF, 31, some 0x7F800000, some 0x7F800001⟩
def bf16 : Fmt := ⟨7, -133, 0x7F7F, 15, some 0x7F80, some 0x7F81⟩
def fp16 : Fmt := ⟨10, -24, 0x7BFF, 15, some 0x7C00, some 0x7C01⟩
def e5m2 : Fmt := ⟨2, -16, 0x7B, 7, some 0x7C, some 0x7D⟩
def e4m3 : Fmt := ⟨3, -9, 0x7E, 7, none, some 0x7F⟩
def e2m3 : Fmt := ⟨3, -3, 0x1F, 5, none, none⟩
def e2m1 : Fmt := ⟨1, -1, 0x7, 3, none, none⟩

/-- A finite value m · 2^e, with the sign of a zero kept apart. -/
structure Dy where
  neg : Bool
  m : Nat
  e : Int
  deriving DecidableEq, Repr

/-- A value of any format (R42, R43). -/
inductive Val where
  | fin (d : Dy)
  | inf (neg : Bool)
  | nan
  deriving DecidableEq, Repr

/-- The value that an encoding has (R42, R43: subnormals kept, every NaN encoding a NaN). -/
def decodeFp (f : Fmt) (c : Nat) : Val :=
  let neg := c.testBit f.sign
  let a := c % 2 ^ f.sign
  if (match f.nan with | some n => decide (n ≤ a) | none => false) then .nan
  else if (match f.inf with | some i => decide (i = a) | none => false) then .inf neg
  else if a / 2 ^ f.m = 0 then .fin ⟨neg, a, f.base⟩
  else .fin ⟨neg, 2 ^ f.m + a % 2 ^ f.m, f.base + ((a / 2 ^ f.m : Nat) : Int) - 1⟩

/-- An 8-bit two's-complement integer as a value (R42). -/
def decodeInt8 (c : Nat) : Val :=
  let i := sext c 8
  .fin ⟨decide (i < 0), i.natAbs, 0⟩

/-- m / 2^s rounded to nearest, ties to even (s ≥ 1), or exact for s ≤ 0. -/
def rne (m : Nat) (s : Int) : Nat :=
  if s ≤ 0 then m * 2 ^ s.natAbs
  else
    let k := s.natAbs
    let q := m >>> k
    let r := m % 2 ^ k
    if 2 * r < 2 ^ k then q else if 2 ^ k < 2 * r then q + 1 else q + q % 2

/-- m · 2^e truncated to an integer, and whether bits were lost. -/
def truncShift (m : Nat) (e : Int) : Nat × Bool :=
  if 0 ≤ e then (m * 2 ^ e.natAbs, false) else (m >>> e.natAbs, decide (m % 2 ^ e.natAbs ≠ 0))

/-- The magnitude encoding of m · 2^e rounded to nearest even, which may pass the format's largest finite one (R58). -/
def roundMag (f : Fmt) (m : Nat) (e : Int) : Nat :=
  if m = 0 then 0
  else
    let t := max f.base ((Nat.log2 m : Int) + e - f.m)
    (t - f.base).toNat * 2 ^ f.m + rne m (t - e)

/-- A sign and a magnitude encoding. -/
def withSign (f : Fmt) (neg : Bool) (a : Nat) : Nat := if neg then a + 2 ^ f.sign else a

/-- FP32 rounding of a finite value (R64): overflow gives an infinity, a zero keeps its sign. -/
def roundFp32 (d : Dy) : Lane :=
  let a := roundMag fp32 d.m d.e
  BitVec.ofNat 32 (withSign fp32 d.neg (if a ≤ fp32.top then a else 0x7F800000))

/-- The one NaN that FP32 arithmetic writes (R64). -/
def qnan : Lane := 0x7FC00000

/-- An FP32 result (R64). -/
def encFp32 : Val → Lane
  | .fin d => roundFp32 d
  | .inf neg => if neg then 0xFF800000 else 0x7F800000
  | .nan => qnan

/-- An FP32 lane's value. -/
def valOf (x : Lane) : Val := decodeFp fp32 x.toNat

/-- The exact sum of two finite values; an exact zero is negative only when both terms are (IEEE 754-2019, R64). -/
def dyAdd (a b : Dy) : Dy :=
  let e := min a.e b.e
  let x : Int := (if a.neg then -1 else 1) * ((a.m * 2 ^ (a.e - e).toNat : Nat) : Int)
  let y : Int := (if b.neg then -1 else 1) * ((b.m * 2 ^ (b.e - e).toNat : Nat) : Int)
  let z := x + y
  ⟨if z = 0 then a.neg && b.neg else decide (z < 0), z.natAbs, e⟩

/-- The exact product of two finite values. -/
def dyMul (a b : Dy) : Dy := ⟨a.neg != b.neg, a.m * b.m, a.e + b.e⟩

/-- A sum of values before rounding. -/
def valAdd : Val → Val → Val
  | .nan, _ => .nan
  | _, .nan => .nan
  | .inf a, .inf b => if a = b then .inf a else .nan
  | .inf a, .fin _ => .inf a
  | .fin _, .inf b => .inf b
  | .fin a, .fin b => .fin (dyAdd a b)

/-- A product of values before rounding (R49's product table; IEEE 754-2019). -/
def valMul : Val → Val → Val
  | .nan, _ => .nan
  | _, .nan => .nan
  | .inf a, .inf b => .inf (a != b)
  | .inf a, .fin d => if d.m = 0 then .nan else .inf (a != d.neg)
  | .fin d, .inf b => if d.m = 0 then .nan else .inf (d.neg != b)
  | .fin a, .fin b => .fin (dyMul a b)

def valNeg : Val → Val
  | .nan => .nan
  | .inf a => .inf (!a)
  | .fin d => .fin { d with neg := !d.neg }

def valAbs : Val → Val
  | .nan => .nan
  | .inf _ => .inf false
  | .fin d => .fin { d with neg := false }

def fadd (x y : Lane) : Lane := encFp32 (valAdd (valOf x) (valOf y))
def fsub (x y : Lane) : Lane := encFp32 (valAdd (valOf x) (valNeg (valOf y)))
def fmul (x y : Lane) : Lane := encFp32 (valMul (valOf x) (valOf y))
def ffma (x y z : Lane) : Lane := encFp32 (valAdd (valMul (valOf x) (valOf y)) (valOf z))
def fabs (x : Lane) : Lane := encFp32 (valAbs (valOf x))
def fneg (x : Lane) : Lane := encFp32 (valNeg (valOf x))

def isNan (x : Lane) : Bool := valOf x == .nan

/-- The order of non-NaN FP32 encodings, −0 below +0 (R115). -/
def fkey (x : Lane) : Int := if x.toNat.testBit 31 then -((x.toNat % 2 ^ 31 : Nat) : Int) - 1 else (x.toNat : Int)

/-- IEEE 754-2019 minimum and maximum (R115): NaN when either input is NaN. -/
def fmin (x y : Lane) : Lane := if isNan x || isNan y then qnan else if fkey x ≤ fkey y then x else y
def fmax (x y : Lane) : Lane := if isNan x || isNan y then qnan else if fkey x ≤ fkey y then y else x

/-- Numeric order: the two zeros are equal. -/
def fnum (x : Lane) : Int := if x.toNat % 2 ^ 31 = 0 then 0 else if x.toNat.testBit 31 then -((x.toNat % 2 ^ 31 : Nat) : Int) else (x.toNat : Int)

/-- VCMP's conditions (R115): 0 EQ, 1 NE, 2 LT, 3 LE; with a NaN only NE holds. -/
def fcmp (c : Nat) (x y : Lane) : Bool :=
  if isNan x || isNan y then c = 1
  else if c = 0 then fnum x = fnum y
  else if c = 1 then fnum x ≠ fnum y
  else if c = 2 then fnum x < fnum y
  else fnum x ≤ fnum y

/-- A finite value rounded to an integer, to nearest even, kept within `lo` and `hi` (R59). -/
def roundInt (lo hi : Int) (d : Dy) : Int :=
  let q : Int := (rne d.m (-d.e) : Nat)
  let v := if d.neg then -q else q
  if v < lo then lo else if hi < v then hi else v

/-- R59's columns for a format: overflow, NaN and infinity, with the rule for zero left to the caller. -/
def encOut (f : Fmt) : Val → Nat
  | .nan => if f.top = 0x7E then 0x7F else if f.sign = 31 then 0x7FC00000 else if f.top = 0x7B then 0x7E
      else if f.top = 0x7F7F then 0x7FC0 else 0x7E00
  | .inf neg => match f.inf with
      | some i => withSign f neg i
      | none => 0x7F
  | .fin d =>
      let a := roundMag f d.m d.e
      if a ≤ f.top then withSign f d.neg a
      else match f.inf with
        | some i => withSign f d.neg i
        | none => withSign f d.neg f.top

/-- Write-out of one value in a floating-point format: R59's columns, and a zero result written as +0. -/
def writeOut (f : Fmt) (v : Val) : Nat :=
  let c := encOut f v
  if c % 2 ^ f.sign = 0 then 0 else c

/-- R59's INT32 row. -/
def writeInt32 : Val → Nat
  | .nan => 0x80000000
  | .inf neg => if neg then 0x80000000 else 0x7FFFFFFF
  | .fin d => (roundInt (-(2 ^ 31 : Nat)) (2 ^ 31 - 1 : Nat) d % (2 ^ 32 : Nat)).toNat

/-- FP32 to INT8 (R118). -/
def writeInt8 : Val → Nat
  | .nan => 0x80
  | .inf neg => if neg then 0x80 else 0x7F
  | .fin d => (roundInt (-128) 127 d % 256).toNat

/-- The integer square root by binary digits: the greatest r below 2^k with r·r ≤ n. -/
def isqrt : Nat → Nat → Nat
  | 0, _ => 0
  | k + 1, n =>
    let r := 2 * isqrt k (n / 4)
    if (r + 1) * (r + 1) ≤ n then r + 1 else r

/-- The correctly rounded square root of a finite positive value (R117): 30 extra digits and a sticky bit. -/
def sqrtFp32 (d : Dy) : Lane :=
  let odd : Bool := d.e % 2 ≠ 0
  let m := if odd then 2 * d.m else d.m
  let e := if odd then d.e - 1 else d.e
  let big := m * 2 ^ 60
  let r := isqrt 64 big
  let sticky := if r * r = big then 0 else 1
  roundFp32 ⟨false, 2 * r + sticky, e / 2 - 31⟩

/-- One level of R64's tree: lane 2i meets lane 2i + 1. -/
def pairUp (op : Lane → Lane → Lane) : List Lane → List Lane
  | a :: b :: r => op a b :: pairUp op r
  | r => r

/-- `k` levels of R64's tree over a list padded to 2^k. -/
def treeFold (op : Lane → Lane → Lane) : Nat → List Lane → List Lane
  | 0, l => l
  | k + 1, l => treeFold op k (pairUp op l)

/-- The number of levels of the tree over n lanes: the next power of two's exponent, and one for n = 1 (R64, R119). -/
def treeLevels (n : Nat) : Nat := if n ≤ 1 then 1 else Nat.log2 (n - 1) + 1

/-- A cross-lane reduction of the first n lanes (R64, R119). -/
def crossLane (op : Lane → Lane → Lane) (pad : Lane) (lanes : List Lane) (n : Nat) : Lane :=
  let k := treeLevels n
  ((treeFold op k ((lanes.take n ++ List.replicate (2 ^ k) pad).take (2 ^ k)))[0]?).getD pad

end Sys2Proof.Machine
end

