-- ==== Sys2Proof/Machine/Link.lean ====
section
/-! DEFINITION. What leaves through the Zilte ports: packets as flits (R319 to R322), credits and the replay buffer (R326,
R327), seals and keys (R317, R330, R331), the order of transmission (R324), bonds (R335), the route table (R342, R343), and control
messages (R345, R346, R348). Flits are kept as they go over the cable; the cipher itself is its standard's (log entry 22). -/

namespace Sys2Proof.Machine

/- Layouts (R321, R347, R348). -/

/-- A two's-complement field of `k` bits. -/
def ofInt (k : Nat) (i : Int) : Nat := (BitVec.ofInt k i).toNat

/-- The 51-byte fabric header (R347). -/
def headerBytes (kind : Nat) (h : FabHeader) : List Byte :=
  leBytes 3 h.dst ++ leBytes 3 h.src ++ leBytes 1 h.ttl ++ leBytes 1 kind ++ leBytes 1 h.scol ++ leBytes 1 h.instar ++ leBytes 2 h.window ++
  leBytes 2 h.job ++ leBytes 4 h.cseq ++ leBytes 2 (h.tag % 4096 + 4096 * h.tagPort) ++ leBytes 8 h.offset ++ leBytes 2 (ofInt 10 h.anchor) ++
  leBytes 1 h.status ++ leBytes 1 (b2n h.high) ++ leBytes 4 h.boottag ++ zeros 15

/-- Bytes 16 to 39 of a control message by type (R348). -/
def messageBody (mtype : Nat) (body : List Nat) : List Byte :=
  let f (i : Nat) : Nat := body.getD i 0
  padTo 24 (
    if mtype = 1 then leBytes 4 (f 0) ++ leBytes 2 (f 1) ++ zeros 2 ++ leBytes 4 (f 2)
    else if mtype = 2 then leBytes 4 (f 0) ++ leBytes 1 (f 1) ++ leBytes 3 (f 2)
    else if mtype = 4 then leBytes 1 (f 0) ++ zeros 3 ++ leBytes 4 (f 1)
    else if mtype = 5 then leBytes 4 (f 0) ++ leBytes 1 (f 1)
    else if mtype = 6 then leBytes 4 (f 0)
    else if mtype = 0x10 then leBytes 4 (f 0) ++ leBytes 2 (f 1) ++ leBytes 1 (f 2) ++ zeros 1 ++ leBytes 8 (f 3) ++ leBytes 8 (f 4)
    else if mtype = 0x11 ∨ mtype = 0x12 then leBytes 4 (f 0) ++ zeros 2 ++ leBytes 1 (f 1)
    else if mtype = 0x13 then leBytes 4 (f 0) ++ leBytes 1 (f 1) ++ leBytes 1 (f 2)
    else if mtype = 0x14 then leBytes 4 (f 0) ++ leBytes 1 (f 1)
    else [])

/-- The 40 bytes of a control message (R348). -/
def messageBytes (mtype : Nat) (h : CtlHeader) (body : List Nat) : List Byte :=
  leBytes 3 h.dst ++ leBytes 3 h.src ++ leBytes 1 h.ttl ++ leBytes 1 mtype ++ leBytes 1 h.scol ++ leBytes 1 h.instar ++ leBytes 2 h.job ++
  leBytes 4 h.mseq ++ messageBody mtype body

/-- DATA flits of a payload of `lines` lines and its tag (R321). -/
def dataFlits (lines : Nat) : Nat := (64 * lines + 16 + 55) / 56

/-- The virtual lane of a class (R322). -/
def laneOf (cls : Nat) : Nat := if cls = 0 then 0 else if cls < 7 then 1 else 2

/-- Bytes cut into contents of 56. -/
def cut56 : Nat → List Byte → List (List Byte)
  | 0, _ => []
  | k + 1, d => padTo 56 (d.take 56) :: cut56 k (d.drop 56)

/- Flits on the cable (R319, R320). -/

/-- One bit of a CRC-32C: the polynomial 0x1EDC_6F41 in its reflected form (R319; log entry 116). -/
def crcBit (c : Nat) : Nat := if c % 2 = 1 then (c / 2) ^^^ 0x82F63B78 else c / 2

/-- One byte of a CRC-32C. -/
def crcByte (c : Nat) (b : Byte) : Nat := crcBit (crcBit (crcBit (crcBit (crcBit (crcBit (crcBit (crcBit (c ^^^ b.toNat))))))))

/-- CRC-32C of some bytes (R319; log entry 116). -/
def crc32c (l : List Byte) : Nat := l.foldl crcByte 0xFFFFFFFF ^^^ 0xFFFFFFFF

/-- The link header (R320). -/
def linkHeader (f : Flit) (ack : Nat) : Nat := f.kind % 8 + 8 * f.vl + 32 * b2n f.kp + 64 * f.seq + 2 ^ 19 * ack

/-- The 60 bytes of a flit that its CRC covers (R319). -/
def flitBody (f : Flit) (ack : Nat) : List Byte := leBytes 4 (linkHeader f ack) ++ f.content

/-- ACK: the highest SEQ received in order (R320). -/
def ackOf (p : Port) : Nat := (p.rxSeq + 8191) % 8192

/-- The 64 bytes of a flit (R319). -/
def flitBytes (f : Flit) (ack : Nat) : List Byte := flitBody f ack ++ leBytes 4 (crc32c (flitBody f ack))

/-- A flit leaves on its lane with the present ACK (R319, R320, R327). An armed corruption of the port's next flit spoils its CRC
and is used up (R432 kind 5). -/
def emitFlit (n : Nat) (s : State) (f : Flit) : State :=
  let ack := ackOf (portAt s n)
  if s.flt.armed.contains (5, n) then
    emit { s with flt := { s.flt with armed := s.flt.armed.filter (fun x => x != (5, n)) } } (.flit n f.lane (flitBody f ack ++ leBytes 4 (crc32c (flitBody f ack) ^^^ 1)))
  else emit s (.flit n f.lane (flitBytes f ack))

/- Seals (R330, R401, R402, R404). -/

/-- Two byte strings exclusive-ored. -/
def xorBytes (a b : List Byte) : List Byte := List.zipWith (fun x y => x ^^^ y) a b

/-- The key stream of the n-th 64-byte block, as bytes. -/
def streamBytes (key : BitVec 256) (iv n : Nat) : List Byte := leBytes 64 (Config.gcmStream key iv n).toNat

/-- The tag as 16 bytes. -/
def tagBytes (key : BitVec 256) (iv : Nat) (aad ct : List Byte) : List Byte := leBytes 16 (Config.gcmTag key iv aad ct).toNat

/-- Bytes under the key stream of a key and an IV, from its first block on: sealed from plaintext, opened from ciphertext. -/
def gcmBytes (key : BitVec 256) (iv : Nat) (l : List Byte) : List Byte :=
  xorBytes l ((List.range ((l.length + 63) / 64)).flatMap (streamBytes key iv))

/-- A packet's IV (R330): the 4-byte salt, then the 64-bit packet counter. -/
def packetIv (k : LinkKey) (counter : Nat) : Nat := k.salt.toNat + 2 ^ 32 * counter

/-- A packet's additional authenticated data (R330): TYPE, VL and KP of each of its flits, bits [5:0] of their headers. -/
def packetAad (vl : Nat) (kp : Bool) (kinds : List Nat) : List Byte := kinds.map (fun t => BitVec.ofNat 8 (t % 8 + 8 * vl + 32 * b2n kp))

/-- Bytes filled up to a length with what the spec leaves open (log entry 115). -/
def gapTo (n : Nat) (l : List Byte) : List Byte := l ++ (List.range (n - l.length)).map Config.linkGap

/-- The sealed flits of a bulk packet, type and content (R321, R330): HEAD content and payload under the key stream, the tag in the
last 16 bytes. -/
def sealBulk (key : LinkKey) (counter vl : Nat) (kp : Bool) (head pay : List Byte) (d : Nat) : List (Nat × List Byte) :=
  let iv := packetIv key counter
  let ct := gcmBytes key.key iv (head ++ pay)
  let tag := tagBytes key.key iv (packetAad vl kp (1 :: List.replicate d 2)) ct
  (1, ct.take 56) :: (cut56 d (gapTo (56 * d - 16) (ct.drop 56) ++ tag)).map (fun c => (2, c))

/-- The sealed flit of a control packet (R321, R330). -/
def sealControl (key : LinkKey) (counter : Nat) (kp : Bool) (message : List Byte) : List (Nat × List Byte) :=
  let iv := packetIv key counter
  let ct := gcmBytes key.key iv message
  [(3, ct ++ tagBytes key.key iv (packetAad 0 kp [3]) ct)]

/-- HEAD content of a bulk packet (R321): PLEN, class, BSEQ, fabric header. -/
def headContent (k : TxPacket) (kind lines : Nat) (h : FabHeader) : List Byte :=
  leBytes 2 lines ++ leBytes 1 k.cls ++ leBytes 2 k.bseq ++ headerBytes kind h

/-- The sealed flits of a packet: type and content (R320, R321, R330). READ carries the lines it asks for in PLEN and no payload
(log entry 29). -/
def flitsOf (p : Port) (k : TxPacket) : List (Nat × List Byte) :=
  match k.out with
  | .packet _ kind h data =>
    let lines := if kind = 3 then data.length else data.length / 64
    sealBulk p.txKey p.packets k.vl p.kp (headContent k kind lines h) (if kind = 3 then [] else data) (k.flits - 1)
  | .message _ mtype h body => sealControl p.txKey p.packets p.kp (messageBytes mtype h body)
  | _ => []

/-- VL0 flits cross a port in one direction, counted in the 128 ns interval of a tick, 20 ticks of 6.4 ns (R325, R340): the most in
one interval, and the intervals with more than floor(50 × L / 8). -/
def noteVl0 (p : Port) (tick k : Nat) (received : Bool) : Port :=
  let u := if received then p.urgRx else p.urgTx
  let was := if u.1 = tick / 20 then u.2 else 0
  let most := 50 * p.lanes.length / 8
  let q := { p with urgPeak := max p.urgPeak (min 255 (was + k))
                    urgOver := if was ≤ most ∧ most < was + k then satInc 16 p.urgOver else p.urgOver }
  if received then { q with urgRx := (tick / 20, was + k) } else { q with urgTx := (tick / 20, was + k) }

/- Credits, keys and the replay buffer (R326, R327, R331). -/

/-- Initial credits per VL (R310, R326). -/
def creditCap (vl : Nat) : Nat := if vl = 1 then 3584 else if vl < 3 then 256 else 0

/-- New packets wait for a key (R331, R338): none starts once 2^32 flits went under one, nor while a second rekey is due
with two keys live. -/
def keySpent (p : Port) : Bool :=
  decide (2 ^ 32 ≤ p.keyFlits) || (decide (2 ^ 32 - 2 ^ 24 ≤ p.keyFlits) && !p.rekeying && p.keysLive == 2)

/-- A packet may start (R326, R327). -/
def mayStart (p : Port) (k : TxPacket) : Bool :=
  p.st == .active && decide (k.flits ≤ tget 0 p.credits k.vl) && decide (p.replayBuf.length + k.flits ≤ 4096) && !keySpent p

/-- The lane that carries a SEQ (R312). -/
def laneOfSeq (p : Port) (seq : Nat) : Nat := if p.lanes.isEmpty then 0 else p.lanes.getD (seq % p.lanes.length) 0

/-- A packet's flits take the next SEQs (R320, R323): sealed under the present key, its credits spent, its flits kept for replay,
its IV counted. -/
def startPacket (s : State) (n : Nat) (k : TxPacket) : State :=
  let p := portAt s n
  let fl := (enumNat (flitsOf p k)).map (fun e =>
    let q := (p.txSeq + e.1) % 8192
    ({ seq := q, kind := e.2.1, vl := k.vl, kp := p.kp, content := e.2.2, lane := laneOfSeq p q } : Flit))
  let p1 : Port := { p with
    txSeq := (p.txSeq + fl.length) % 8192
    credits := tset p.credits k.vl (tget 0 p.credits k.vl - fl.length)
    replayBuf := p.replayBuf ++ fl
    keyFlits := p.keyFlits + fl.length
    packets := p.packets + 1
    sent := p.sent ++ [{ k with last := (p.txSeq + fl.length + 8191) % 8192 }] }
  fl.foldl (emitFlit n) (emit (setPort s n (if k.vl = 0 then noteVl0 p1 s.ticks fl.length false else p1)) k.out)

/-- The LINK flit that leaves next (R320). Kinds: 1 credits, 2 NAK, 3 lane swap, 4 rekey, 5 session refresh. -/
def linkFlit (p : Port) (kind : Nat) (body : List Nat) : Flit :=
  { seq := p.txSeq, kind := 4, vl := 0, kp := p.kp, content := padTo 56 (Config.linkContent p.txKey.key kind body), lane := laneOfSeq p p.txSeq }

/-- A LINK flit leaves (R320): no credit, a SEQ, and replay. -/
def startLink (s : State) (n kind : Nat) (body : List Nat) : State :=
  let p := portAt s n
  let f := linkFlit p kind body
  emitFlit n (emit (setPort s n { p with
    txSeq := (p.txSeq + 1) % 8192, replayBuf := p.replayBuf ++ [f], keyFlits := p.keyFlits + 1 }) (.link n kind body)) f

/-- LINK flits that are due leave while the replay buffer holds them (R324, R327); the others stay due. -/
def pumpLinks (n : Nat) : List (Nat × List Nat) → State → State
  | [], s => modPort s n (fun p => { p with linkQueue := [] })
  | x :: r, s =>
    if (portAt s n).replayBuf.length < 4096 then pumpLinks n r (startLink s n x.1 x.2)
    else modPort s n (fun p => { p with linkQueue := x :: r })

/-- The packets of one virtual lane start in order while they can; the others stay. -/
def pumpLane (n vl : Nat) : List TxPacket → State → State × List TxPacket
  | [], s => (s, [])
  | k :: r, s =>
    if k.vl ≠ vl then (let (t, l) := pumpLane n vl r s; (t, k :: l))
    else if mayStart (portAt s n) k then pumpLane n vl r (startPacket s n k)
    else (s, k :: r)

/-- Deficit round robin over `n` parties (R324): the party served next and the round robin then. A party's quantum is added when its
turn comes, what its head takes is subtracted, a party with nothing waiting keeps no deficit (log entry 117). -/
def drrNext (n : Nat) (quantum : Nat → Nat) (size : Nat → Option Nat) : Nat → Drr → Option (Nat × Drr)
  | 0, _ => none
  | k + 1, d =>
    let x := (d.turn + 1) % n
    let pass (have_ : Nat) : Drr :=
      let l := tset d.deficit d.turn have_
      { turn := x, deficit := tset l x (tget 0 l x + max 1 (quantum x)) }
    match size d.turn with
    | none => drrNext n quantum size k (pass 0)
    | some f =>
      let have_ := tget 0 d.deficit d.turn
      if f ≤ have_ then some (d.turn, { d with deficit := tset d.deficit d.turn (have_ - f) })
      else drrNext n quantum size k (pass have_)

/-- The VL1 packet that the transmitter takes next (R324): owner and transit share by LINKW and TRANSITW, the classes within either by
WEIGHT. -/
def pickShared (s : State) (n : Nat) : Option (TxPacket × Port) :=
  let p := portAt s n
  let q := p.txQueue.filter (fun k => k.vl == 1)
  let head (party cls : Nat) : Option TxPacket := q.find? (fun k => k.cls == cls && k.transit == (party == 1))
  let within (party : Nat) : Option (Nat × Drr) :=
    if q.any (fun k => k.transit == (party == 1)) then
      drrNext 8 (fun c => (tget ({} : ClassCfg) s.hub.classes c).weight) (fun c => (head party c).map (fun k => k.flits)) 640 (tget {} p.arbCls party)
    else none
  let w0 := within 0
  let w1 := within 1
  let of (party : Nat) : Option (Nat × Drr) := if party = 0 then w0 else w1
  let packetOf (party : Nat) : Option TxPacket := (of party).bind (fun w => head party w.1)
  if q.isEmpty then none
  else match drrNext 2 (fun x => if x = 0 then (colAt s p.colony).linkw else p.transitw) (fun x => (packetOf x).map (fun k => k.flits)) 160 p.arb with
    | none => none
    | some (party, d) =>
      match packetOf party, of party with
      | some k, some w => some (k, { p with txQueue := p.txQueue.erase k, arb := d, arbCls := tset p.arbCls party w.2 })
      | _, _ => none

/-- VL1 packets start in that order while the next one can. -/
def pumpShared (n : Nat) : Nat → State → State
  | 0, s => s
  | k + 1, s =>
    match pickShared s n with
    | none => s
    | some (x, p) => if mayStart (portAt s n) x then pumpShared n k (startPacket (setPort s n p) n x) else s

/-- The packets of VL0 or VL2 start in order (R324). -/
def pumpVl (s : State) (n vl : Nat) : State :=
  let (u, l) := pumpLane n vl (portAt s n).txQueue s
  modPort u n (fun p => { p with txQueue := l })

/-- What waits at a port starts (R324): LINK flits that are due, then VL0, VL1, VL2. -/
def pump (s : State) (n : Nat) : State :=
  let s1 := pumpVl (pumpLinks n (portAt s n).linkQueue s) n 0
  pumpVl (pumpShared n (portAt s1 n).txQueue.length s1) n 2

/-- A LINK flit falls due (R320, R324). -/
def sendLink (s : State) (n kind : Nat) (body : List Nat) : State :=
  pump (modPort s n (fun p => { p with linkQueue := p.linkQueue ++ [(kind, body)] })) n

/-- A link key out of derived material (R317, R331; log entry 22). -/
def keyFrom (material : List Byte) (index : Nat) : LinkKey :=
  let d (label : Nat) : Nat := Config.digest label material
  { key := BitVec.ofNat 256 (d 1), salt := BitVec.ofNat 32 (d 2), secret := BitVec.ofNat 384 (d 3), index := index }

/-- This side is the initiator of the join: its IDHASH is the lower (R317). -/
def initiates (s : State) (p : Port) : Bool := decide (s.sec.idhash < p.idhash)

/-- The session key of a direction, from the ECDH secret with both NONCEs as salt (R317): direction 0 is from the initiator. -/
def sessionKey (s : State) (p : Port) (secret : Nat) (sending : Bool) : LinkKey :=
  let first := initiates s p
  keyFrom (leBytes 48 secret ++ leBytes 32 (if first then p.nonce else p.peerNonce) ++ leBytes 32 (if first then p.peerNonce else p.nonce) ++
    leBytes 1 (b2n (first != sending))) 0

/-- The next key of a direction, from the rekey secret and the key index (R331). -/
def nextKey (k : LinkKey) : LinkKey := keyFrom (leBytes 48 k.secret.toNat ++ leBytes 8 (k.index + 1)) (k.index + 1)

/-- The old key is retired once nothing sent under it is left to acknowledge (R331). -/
def retireKey (p : Port) : Port :=
  if p.keysLive == 2 && !p.rekeying && p.replayBuf.all (fun f => f.kp == p.kp) then { p with keysLive := 1 } else p

/-- A session refresh begins (R332): a fresh ephemeral key and NONCE, free values (log entry 4), go to the partner in LINK flits sealed
under the session's key. -/
def startRefresh (s : State) (n : Nat) : State :=
  let (k, s1) := drawFree s
  let (v, s2) := drawFree s1
  sendLink (modPort s2 n (fun p => { p with refreshing := true, ecdh := k % 2 ^ 776, nonce := v % 2 ^ 256 })) n 5 [v % 2 ^ 256, k % 2 ^ 776]

/- Bonds (R335). -/

/-- The ACTIVE port of lowest number in a bond group, which the others must agree with (log entry 30). -/
def bondRef (s : State) (g : Nat) : Option Nat :=
  (List.range 16).find? (fun n => (portAt s n).bond == g && (portAt s n).st == .active)

/-- The port is a member of its bond. -/
def bondMember (s : State) (n : Nat) : Bool :=
  let p := portAt s n
  p.st == .active && p.bond != 0 &&
  (match bondRef s p.bond with
   | some r => (portAt s r).idhash == p.idhash && (portAt s r).colony == p.colony
   | none => false)

/-- The ports that bond with a port, itself included. -/
def bondMates (s : State) (n : Nat) : List Nat :=
  if bondMember s n then (List.range 16).filter (fun m => (portAt s m).bond == (portAt s n).bond && bondMember s m) else [n]

/-- Where a port's BSEQs are counted: its bond, or itself. -/
def bondKey (s : State) (n : Nat) : Nat := if bondMember s n then (portAt s n).bond else 16 + n

/-- A packet joins a port's queue, a bulk packet with the next BSEQ of the bond, and starts when it can. -/
def queuePacket (s : State) (n cls : Nat) (bulk transit : Bool) (flits : Nat) (out : Out) : State :=
  let vl := if bulk then laneOf cls else 0
  let key := bondKey s n
  let b := tget 0 s.zlt.bseqs key
  let s1 := if bulk then { s with zlt := { s.zlt with bseqs := tset s.zlt.bseqs key ((b + 1) % 65536) } } else s
  pump (modPort s1 n (fun p => { p with txQueue := p.txQueue ++ [{ vl := vl, cls := cls, flits := flits, bseq := if bulk then b else 0, transit := transit, out := out }] })) n

/- Routes (R342, R343). -/

/-- Fields of a route entry (R342). -/
def rteDest (w : Word) : Nat := field w 23 0
def rtePlen (w : Word) : Nat := field w 28 24
def rteValid (w : Word) : Bool := bit w 29 && decide (rtePlen w ≤ 24)
def rtePrimary (w : Word) : List Nat := bitsOf 16 (field w 47 32)
def rteAlternate (w : Word) : List Nat := bitsOf 16 (field w 63 48)

/-- The entry matches a destination (R342). -/
def rteMatches (w : Word) (dst : Nat) : Bool := rteValid w && dst / 2 ^ (24 - rtePlen w) == rteDest w / 2 ^ (24 - rtePlen w)

/-- The entry that applies: the longest prefix, the lowest index among equals (R342). -/
def routeEntry (s : State) (dst : Nat) : Option Word :=
  s.fab.routes.foldl (fun best e =>
    if rteMatches e.2 dst then
      match best with
      | some w => if rtePlen w < rtePlen e.2 then some e.2 else best
      | none => some e.2
    else best) none

/-- A port is usable (R343): for a colony's own traffic where the colony owns it, for transit and messages (colony 0)
wherever it is ACTIVE. -/
def usable (s : State) (colony n : Nat) : Bool := (portAt s n).st == .active && (colony == 0 || (portAt s n).colony == colony)

/-- VL0 flits queued at a port. -/
def queued0 (s : State) (n : Nat) : Nat := (((portAt s n).txQueue.filter (fun k => k.vl == 0)).map (fun k => k.flits)).sum

/-- The ports of a list that stand for it where a bond counts as one port (R343): each that no lower member of its bond precedes. -/
def bondReps (s : State) (l : List Nat) : List Nat := l.filter (fun n => !l.any (fun m => decide (m < n) && (bondMates s n).contains m))

/-- The first of a list with the least value. -/
def leastBy (f : Nat → Nat) (l : List Nat) : Option Nat :=
  l.foldl (fun best n => match best with
    | some b => if f n < f b then some n else best
    | none => some n) none

/-- The port chosen among usable ones (R335, R343), a bond counting as one port: by hash over ports and then over a bond's members,
or for VL0 the one with the fewest VL0 flits queued, then the bond's member with the fewest, the lowest number on a tie (log entry
28). -/
def choosePort (s : State) (l : List Nat) (vl src dst job : Nat) : Option Nat :=
  let reps := bondReps s l
  let mates (r : Nat) : List Nat := (bondMates s r).filter (fun m => l.contains m)
  if vl = 0 then (leastBy (fun r => ((mates r).map (queued0 s)).sum) reps).bind (fun r => leastBy (queued0 s) (r :: mates r))
  else
    match reps.getD (Config.flowHash src dst job % max 1 reps.length) 16 with
    | 16 => none
    | r => some ((mates r).getD (Config.flowHash src dst job % max 1 (mates r).length) r)

/-- What a route lookup gives (R342, R343). -/
inductive Route where
  | here
  | port (n : Nat)
  | noEntry
  | fenced
  | down
  deriving DecidableEq, Repr

/-- R342 and R343, for a colony's request or, with colony 0, for a message or a transit packet. -/
def route (s : State) (colony vl src dst job : Nat) : Route :=
  if dst = s.fab.faddr then .here
  else match routeEntry s dst with
    | none => .noEntry
    | some w =>
      let p := (rtePrimary w).filter (usable s colony)
      let l := if p.isEmpty then (rteAlternate w).filter (usable s colony) else p
      match choosePort s l vl src dst job with
      | some n => .port n
      | none => if (rtePrimary w ++ rteAlternate w).any (fun n => (portAt s n).st == .fenced) then .fenced else .down

/-- The status with which a colony's request ends that finds no port (R343). -/
def routeStatus : Route → Nat
  | .noEntry => 0x04
  | .fenced => 0x0F
  | _ => 0x07

/- Control messages (R345, R346, R348). -/

/-- MTYPEs that are acknowledged by an ACK (R348). -/
def ackedType (mtype : Nat) : Bool := mtype != 5 && mtype != 6 && mtype != 0x14

/-- The colony whose traffic a message is (R343): that of the opcode that sends it, for BARRIER, OFFER, ACCEPT, RELEASE and AUDIT_Q; 0 for
Bonor's own messages (log entry 125). -/
def messageColony (mtype scol : Nat) : Nat := if mtype = 1 ∨ (0x10 ≤ mtype ∧ mtype ≤ 0x13) then scol else 0

/-- A message goes out by the route to its destination, a colony's own over its colony's ports (R343); without one nothing leaves. -/
def putMsg (s : State) (mtype : Nat) (h : CtlHeader) (body : List Nat) : State :=
  match route s (messageColony mtype h.scol) 0 h.src h.dst h.job with
  | .here => emit s (.message 16 mtype h body)
  | .port n => queuePacket s n 0 false false 1 (.message n mtype h body)
  | _ => s

/-- A control message leaves, and waits for its acknowledgement where its type has one; a device without a fabric address
sends none (R341). -/
def sendMsg (s : State) (mtype dst scol instar job : Nat) (body : List Nat) (cmd : Option Nat) : State :=
  let f := s.fab
  if f.faddr = 0 then s else
  let h : CtlHeader := { dst := dst, src := f.faddr, ttl := f.diameter, scol := scol, instar := instar, job := job, mseq := f.mseq }
  let f' := { f with
    mseq := wrapAdd 32 f.mseq 1
    unacked := if ackedType mtype then f.unacked ++ [⟨f.mseq, mtype, dst, scol, instar, job, body, cmd, false, false⟩] else f.unacked }
  putMsg { s with fab := f' } mtype h body

/-- A bulk packet goes out by a port, 16 for local delivery (R342, R347); `lines` is its payload, or for READ the lines asked
for. -/
def putPacket (s : State) (n cls kind : Nat) (h : FabHeader) (data : List Byte) : State :=
  if 16 ≤ n then emit s (.packet 16 kind h data)
  else queuePacket s n cls true false (1 + dataFlits (if kind = 3 then 0 else data.length / 64)) (.packet n kind h data)

/-- What a port loses when it leaves ACTIVE toward a partner (R336): its link state; its remote requests are answered
for by the caller. -/
def dropLink (p : Port) (st : PortState) : Port :=
  { p with st := st, lanes := [], spare := none, retraining := [], outLanes := [], kp := false, peerValid := false
           txSeq := 0, rxSeq := 0, replayBuf := [], rxHold := [], rxQueue := [], credits := [], owed := [], fails := []
           keyFlits := 0, rekeying := false, keysLive := 0, packets := 0, refreshing := false, txKey := {}, rxKey := {}, rxKp := false
           rxOld := none, rxNext := none, rxPackets := 0, rxIv := [], rxLanes := [], rxSwaps := [], linkQueue := [], arb := {}, arbCls := []
           txQueue := [], sent := [], ownLms := false, ownDesc := [], peerDesc := [], ecdh := 0, nonce := 0, peerNonce := 0 }

/-- A packet handed to another port. -/
def Out.at (n : Nat) : Out → Out
  | .packet _ kind h data => .packet n kind h data
  | .message _ mtype h body => .message n mtype h body
  | o => o

/-- A lost bond member's unacknowledged packets and those still queued go out on the members left (R335), by the bond's
choice for each. -/
def resendBond (s : State) (n : Nat) : State :=
  let mates := (bondMates s n).filter (fun m => m != n)
  let p := portAt s n
  if mates.isEmpty then s
  else (p.sent ++ p.txQueue).foldl (fun t k =>
    let (src, dst, job) : Nat × Nat × Nat := match k.out with
      | .packet _ _ h _ => (h.src, h.dst, h.job)
      | .message _ _ h _ => (h.src, h.dst, h.job)
      | _ => (0, 0, 0)
    match choosePort t mates k.vl src dst job with
    | some m => pump (modPort t m (fun q => { q with txQueue := q.txQueue ++ [{ k with out := Out.at m k.out }] })) m
    | none => t) (modPort s n (fun q => { q with sent := [], txQueue := [] }))

end Sys2Proof.Machine
end

