-- ==== Sys2Proof/Machine/Space.lean ====
section
/-! DEFINITION. Where a byte of a colony lies: device-physical addresses (R226, R227), the frame behind a page (R293),
the colony's tables and their walk (R284 to R287, R296, R299), lines of HBM with their written-line bitmaps (R167,
R168), ownership checks (R197) and the frame pools (R165, R293, R294). -/

namespace Sys2Proof.Machine

/- Device-physical addresses. -/

/-- The interleave set of a DPA or frame address (R226). -/
def setOf (a : Nat) : Nat := a >>> 35
/-- The set offset O (R226). -/
def setOff (a : Nat) : Nat := a % 2 ^ 35
/-- The end of memory within a set (R226). -/
def setTop : Nat := 0x760000000

/-- The channel that holds a DPA or frame address (R227). -/
def channelOf (a : Nat) : Nat :=
  16 * setOf a + (nbits a 13 10 ^^^ nbits a 17 14 ^^^ nbits a 21 18)

/-- The channel byte offset of a DPA or frame address (R227). -/
def chanOff (a : Nat) : Nat := setOff a / 2 ^ 14 * 1024 + a % 1024

/-- The frame address that a channel and a channel byte offset name: R227 read backwards. -/
def frameAddr (ch off : Nat) : Nat :=
  let g := off / 1024
  ch / 16 * 2 ^ 35 + g * 2 ^ 14 + ((ch % 16) ^^^ (g % 16) ^^^ (g / 16 % 16)) * 1024 + off % 1024

/-- The place of a channel's byte in State's HBM memory: 2 GiB of offsets per channel (R233). -/
def hbmKey (ch off : Nat) : Nat := 2 ^ 31 * ch + off
def keyOf (fa : Nat) : Nat := hbmKey (channelOf fa) (chanOff fa)

/-- The line that holds an address. -/
def lineBase (a : Nat) : Nat := a / 64 * 64

/-- Page sizes by SIZE code (R286). -/
def pageBytes (size : Nat) : Nat := if size = 0 then 2 ^ 16 else if size = 1 then 2 ^ 21 else 2 ^ 30

/-- The address within `a`'s 16 KiB that lies on the channel of `home` (R170, R227; log entry 94): a page stays on its
channels whichever frame of its set stands behind it, so that one home slice serves a line's old and new value (R167). -/
def onChannel (home a : Nat) : Nat :=
  a / 2 ^ 14 * 2 ^ 14 + (channelOf home % 16 ^^^ nbits a 17 14 ^^^ nbits a 21 18) * 1024 + a % 1024

/-- The frame behind the 64 KiB of a device-physical address (R293). -/
def frameBase (c : Colony) (dpa : Nat) : Nat := tget (dpa / 65536) c.frames (dpa / 65536) * 65536

/-- The frame address behind a device-physical address (R293). -/
def frameOf (c : Colony) (dpa : Nat) : Nat :=
  match tfind c.frames (dpa / 65536) with
  | some f => onChannel dpa (f * 65536 + dpa % 65536)
  | none => dpa

/- Tables and walks. -/

/-- The valid leaf that covers an address (R285). -/
def leafFor (ptes : List Pte) (va : Nat) : Option Pte :=
  ptes.find? (fun p => decide (p.va ≤ va) && decide (va < p.va + pageBytes p.size))

/-- The index of the table of a level that covers an address (R285). -/
def tableIndex (level va : Nat) : Nat := if level = 2 then va / 2 ^ 39 else if level = 3 then va / 2 ^ 30 else va / 2 ^ 21

/-- The colony has a table of a level with an index. -/
def hasTable (c : Colony) (level index : Nat) : Bool := c.tables.any (fun f => f.2.any (fun x => x.2.1 == level && x.2.2 == index))

/-- The level of the invalid entry that a walk meets at an address without a leaf (R285, R299, R304). -/
def missLevel (c : Colony) (va : Nat) : Nat :=
  if !hasTable c 2 (tableIndex 2 va) then 1
  else if !hasTable c 3 (tableIndex 3 va) then 2
  else if !hasTable c 4 (tableIndex 4 va) then 3
  else 4

/-- The kinds of right that an access needs (R286). -/
def permits (r w i : Bool) : Access → Bool
  | .read => r
  | .write => w
  | .image => i

/-- What a fresh walk of a colony's tables answers for an access (R284, R297, R299). -/
inductive Look where
  | ok (dpa : Nat) (p : Pte)
  | miss (level : Nat)
  | denied
  deriving DecidableEq, Repr

def walk (c : Colony) (va : Nat) (acc : Access) : Look :=
  if 2 ^ 48 ≤ va then .denied
  else match leafFor c.ptes va with
    | none => .miss (missLevel c va)
    | some p => if permits p.r p.w p.i acc then .ok (p.dpa + (va - p.va)) p else .denied

/-- A cached leaf of a colony and instar that covers an address (R30, R296). -/
def tcHit (tc : List TcEntry) (colony instar va : Nat) : Option TcEntry :=
  tc.find? (fun e => e.colony == colony && e.instar == instar && decide (e.va ≤ va) && decide (va < e.va + pageBytes e.size))

/-- What a translation cache answers: a DPA, a miss, or a permission failure on the cached leaf that a fresh walk must
confirm (R297). -/
def tcLook (c : Colony) (tc : List TcEntry) (colony instar va : Nat) (acc : Access) : Look :=
  if 2 ^ 48 ≤ va then .denied
  else match tcHit tc colony instar va with
    | none => .miss 0
    | some e =>
      if permits e.r e.w e.i acc then .ok (e.dpa + (va - e.va)) ⟨e.va, e.size, e.dpa, e.r, e.w, e.i⟩
      else walk c va acc

/-- An entry joins a cache of `cap` entries; the oldest leaves (DESIGN CHOICE, log entry 16). -/
def cacheInsert (cap : Nat) (tc : List TcEntry) (e : TcEntry) : List TcEntry :=
  let rest := tc.filter (fun x => !(x.colony == e.colony && x.instar == e.instar && x.va == e.va && x.size == e.size))
  (rest.drop (rest.length + 1 - cap)) ++ [e]

/- Ownership of requests (R197). -/

/-- What the checking unit of a channel answers to a stamped instar. -/
inductive OwnCheck where
  | pass
  | denied
  | stale
  deriving DecidableEq, Repr

def ownCheck (c : Colony) (instar ch : Nat) : OwnCheck :=
  if c.cur.valid && c.cur.instar == instar then (if c.cur.channels.contains ch then .pass else .denied)
  else if c.old.valid && c.old.instar == instar then
    (if (if c.old.merged then c.cur.channels else c.old.channels).contains ch then .pass else .denied)
  else .stale

/-- A request of a generation begins (R196, R197). -/
def inflightInc (s : State) (colony instar : Nat) : State :=
  modCol s colony (fun c =>
    if c.cur.instar = instar || c.old.merged then { c with cur := { c.cur with inflight := c.cur.inflight + 1 } }
    else { c with old := { c.old with inflight := c.old.inflight + 1 } })

/-- A request of a generation ends or is squashed (R197, R199). -/
def inflightDec (s : State) (colony instar : Nat) : State :=
  modCol s colony (fun c =>
    if c.cur.instar = instar || c.old.merged then { c with cur := { c.cur with inflight := c.cur.inflight - 1 } }
    else { c with old := { c.old with inflight := c.old.inflight - 1 } })

/-- A request or reply dropped for a non-live instar (R197, R217). -/
def countStale (s : State) (colony : Nat) : State := modCol s colony (fun c => { c with stale := satInc 32 c.stale })

/- Lines of HBM. -/

/-- The 64 bytes of a line, by frame address. -/
def lineData (s : State) (fa : Nat) : List Byte := mread s.hbm (keyOf (lineBase fa)) 64

/-- Whether a shadow frame holds an address. -/
def Shadow.holds (sh : Shadow) (fa : Nat) : Bool := decide (sh.frame ≤ fa) && decide (fa < sh.frame + sh.size)

/-- The DPA that an address of a shadow frame serves. -/
def Shadow.dpaAt (sh : Shadow) (fa : Nat) : Nat := onChannel fa (sh.dpa + (fa - sh.frame))

/-- The written-line bit of a line that lies in some command's shadow frame is set (R168). -/
def markWritten (s : State) (fa : Nat) : State :=
  { s with cmds := s.cmds.map (fun e => (e.1, { e.2 with shadows := e.2.shadows.map (fun sh =>
      if sh.holds fa then { sh with lines := insertSorted sh.lines ((sh.dpaAt fa - sh.dpa) / 64) } else sh) })) }

/-- The addressable row of a channel byte offset (R234). -/
def rowOf (off : Nat) : Nat := off / 2048

/-- The line's address within its channel leaves the lists of unreadable lines: a full-line write replaces it (R236). A
held row without unreadable lines left is queued for remapping (R237). -/
def clearBad (c : Channel) (off : Nat) : Channel :=
  let bad := c.badLines.filter (fun x => x != off)
  let c1 := { c with badLines := bad, badTags := c.badTags.filter (fun x => x != off) }
  if c.heldRows.contains (rowOf off) && !bad.any (fun x => rowOf x == rowOf off) then
    { c1 with heldRows := c.heldRows.filter (fun r => r != rowOf off), remapQueue := insertNew c.remapQueue (rowOf off) }
  else c1

/-- A row joins the queue for remapping, unless it is queued or holds a line left uncorrected (R237). -/
def queueRow (c : Channel) (row : Nat) : Channel :=
  if c.heldRows.contains row then c else { c with remapQueue := insertNew c.remapQueue row }

/-- A line left uncorrected: it stays unreadable until overwritten, and its row is held (R236, R237). -/
def holdLine (c : Channel) (off : Nat) : Channel :=
  { c with badLines := insertNew c.badLines off, heldRows := insertNew c.heldRows (rowOf off)
           remapQueue := c.remapQueue.filter (fun r => r != rowOf off) }

/-- A full line written to HBM at a frame address (R168, R236): its bytes, its bitmap bit, and an unreadable line
replaced. An armed tag corruption of R432 marks the line's tag. -/
def writeLine (s : State) (fa : Nat) (data : List Byte) : State :=
  let ch := channelOf fa
  let off := chanOff (lineBase fa)
  let corrupt := armed s 4 ch
  let s1 := { s with hbm := mwrite s.hbm (hbmKey ch off) (padTo 64 data) }
  let s2 := modChan s1 ch (fun c => clearBad c off)
  let s3 := if corrupt then
      modChan (disarm s2 4 ch) ch
        (fun c => { c with badTags := insertNew c.badTags off })
    else s2
  markWritten s3 (lineBase fa)

/-- Why a line cannot be read (R235, R236, R417). -/
inductive BadRead where
  | fenced
  | uncorrectable
  | tag
  deriving DecidableEq, Repr

/-- The slice holds a line (R229). -/
def resident (c : Channel) (off : Nat) : Bool := c.lines.any (fun l => l.offset == off)

/-- Whether a line can be read: its channel in service, and, unless its slice holds it (R229), the line and its tag intact. -/
def lineProblem (s : State) (fa : Nat) : Option BadRead :=
  let c := chanAt s (channelOf fa)
  let off := chanOff (lineBase fa)
  if c.mode == .fenced then some .fenced
  else if resident c off then none
  else if c.badLines.contains off then some .uncorrectable
  else if c.badTags.contains off then some .tag
  else none

/-- The shadow frame that stands behind an output page of a command, if one is bound (R165). -/
def shadowFor (c : Cmd) (dpa : Nat) : Option Shadow :=
  c.shadows.find? (fun sh => decide (sh.dpa ≤ dpa) && decide (dpa < sh.dpa + sh.size))

/-- The shadow frame address of a DPA within a shadow frame. -/
def Shadow.addr (sh : Shadow) (dpa : Nat) : Nat := onChannel dpa (sh.frame + (dpa - sh.dpa))

/-- The line's bit is set in its written-line bitmap (R168). -/
def Shadow.written (sh : Shadow) (dpa : Nat) : Bool := sh.lines.contains ((dpa - sh.dpa) / 64)

/-- The shadow frame that holds a frame address, with its colony. -/
def shadowAt (s : State) (fa : Nat) : Option (Nat × Shadow) :=
  s.cmds.findSome? (fun e => (e.2.shadows.find? (fun sh => sh.holds fa)).map (fun sh => (e.2.colony, sh)))

/-- The device-physical address that a frame address serves in a colony (R293). -/
def dpaOf (s : State) (colony fa : Nat) : Nat :=
  match shadowAt s fa with
  | some (_, sh) => sh.dpaAt fa
  | none => match (colAt s colony).frames.find? (fun e => e.2 == fa / 65536) with
    | some e => onChannel fa (e.1 * 65536 + fa % 65536)
    | none => fa

/-- Where a line's value stands (R167, R168): a shadow frame's line that no write has reached reads as the committed
line of its page. -/
def sourceAddr (s : State) (fa : Nat) : Nat :=
  match shadowAt s fa with
  | some (c, sh) => if sh.written (sh.dpaAt fa) then fa else frameOf (colAt s c) (sh.dpaAt fa)
  | none => fa

/-- The slice has a directory entry for a line (R270, R271). -/
def dirHas (s : State) (fa : Nat) : Bool :=
  (chanAt s (channelOf fa)).dir.any (fun e => e.offset == chanOff (lineBase fa))

/-- The frame address that serves a read of a command at a DPA (R167): the shadow frame where the attempt has written
the line, or still holds it modified in a cache; else the committed frame. -/
def readAddr (s : State) (col : Colony) (cmd : Option Cmd) (dpa : Nat) : Nat :=
  match cmd.bind (fun c => shadowFor c dpa) with
  | some sh => if sh.written dpa || dirHas s (sh.addr dpa) then sh.addr dpa else frameOf col dpa
  | none => frameOf col dpa

/- Frame pools (R165, R293, R294). -/

/-- The first withheld set offset for a SHADOW value (R293). -/
def withheldFrom (shadow : Nat) : Nat := setTop - shadow * 0x1D800000

/-- The colony holds every channel of a set (R228). -/
def holdsSet (e : MapEntry) (set : Nat) : Bool := (List.range 16).all (fun i => e.channels.contains (16 * set + i))

/-- The sets a map entry holds in full. -/
def fullSets (e : MapEntry) : List Nat := (List.range 32).filter (fun k => holdsSet e k)

/-- A free run offers an aligned frame of a size: its lowest such address. -/
def runOffer (r : Frames) (size : Nat) : Option Nat :=
  let a := roundUp r.start size
  if a + size ≤ r.start + r.size then some a else none

/-- The run that offers the lowest aligned frame of a size in a set. -/
def bestOffer (pool : List Frames) (set size : Nat) : Option Nat :=
  pool.foldl (fun best r =>
    if setOf r.start = set then
      match runOffer r size, best with
      | some a, some b => if a < b then some a else best
      | some a, none => some a
      | none, _ => best
    else best) none

/-- A frame taken out of the free runs. -/
def carve (pool : List Frames) (a size : Nat) : List Frames :=
  pool.flatMap (fun r =>
    if decide (r.start ≤ a) && decide (a + size ≤ r.start + r.size) then
      (if r.start < a then [{ r with size := a - r.start }] else []) ++
      (if a + size < r.start + r.size then [{ r with start := a + size, size := r.start + r.size - (a + size) }] else [])
    else [r])

/-- A frame drawn from a colony's pool in a set (R294); the lowest aligned one (DESIGN CHOICE, log entry 13). -/
def takeFrame (c : Colony) (set size : Nat) : Option (Nat × Colony) :=
  match bestOffer c.pool set size with
  | some a => some (a, { c with pool := carve c.pool a size })
  | none => none

/-- Frames of given sizes drawn one after another in one set; none of them where one is missing. -/
def takeFrames (c : Colony) : List (Nat × Nat) → Option (List Frames × Colony)
  | [] => some ([], c)
  | (set, size) :: r =>
    match takeFrame c set size with
    | none => none
    | some (a, c1) =>
      match takeFrames c1 r with
      | none => none
      | some (fs, c2) => some ({ colony := 0, start := a, size := size } :: fs, c2)

/-- Neighbouring runs of one set become one, in rising order. -/
def joinRuns (l : List Frames) : List Frames :=
  l.foldr (fun a acc =>
    match acc with
    | b :: r => if a.start + a.size = b.start ∧ setOf a.start = setOf b.start then { a with size := a.size + b.size } :: r
        else a :: b :: r
    | [] => [a]) []

/-- A run put in its place among runs in rising order. -/
def insertRun : List Frames → Frames → List Frames
  | [], f => [f]
  | r :: rs, f => if f.start < r.start then f :: r :: rs else r :: insertRun rs f

/-- A frame returned to the pool. -/
def giveFrame (c : Colony) (f : Frames) : Colony := { c with pool := joinRuns (insertRun c.pool { f with colony := 0 }) }

/-- The interleave-set pool of a colony holding a set, as BIND and each arrival lay it out (R210, R293). -/
def freshPool (shadow set : Nat) : Frames :=
  { colony := 0, start := set * 2 ^ 35 + withheldFrom shadow, size := setTop - withheldFrom shadow }

/-- The bytes of shadow capacity held by reserves of a colony: command reserves, bound frames, frames waiting to
return, and table frames (R181, R294). -/
def reservedBytes (s : State) (colony : Nat) : Nat :=
  (s.cmds.filter (fun e => e.2.colony == colony)).foldl (fun n e =>
    n + (e.2.reserve.map (fun f => f.size)).sum + (e.2.shadows.map (fun f => f.size)).sum
      + (e.2.returning.map (fun f => f.frame.size)).sum) 0
  + 65536 * (colAt s colony).tables.length

/-- The shadow pool of a colony in bytes: SHADOW / 64 of the addressable capacity of each channel bound to it (R210). -/
def poolBytes (c : Colony) : Nat := c.cur.channels.length * (c.shadow * 0x1D80000)

end Sys2Proof.Machine
end

