-- ==== Sys2Proof/Machine/Buffer.lean ====
section
/-! DEFINITION. The request buffer of a slice and the queue of its channel's controller (R231, R232, R254, R256): who may
issue a request, where a transaction waits, and what leaves and follows when one retires. -/

namespace Sys2Proof.Machine

/-- A slice is in limit mode (R256). -/
def limited (s : State) (c : Channel) : Bool := s.hub.regMode || c.limit

/-- QMIN of a class in force (R254, R261). -/
def qminOf (s : State) (cls : Nat) : Nat := (tget ({} : ClassCfg) s.hub.classes cls).qmin

/-- The entries of the shared pool of a slice (R254): 864 less the class reserves, which limit mode does not apply (R256). -/
def sharedPool (s : State) (c : Channel) : Nat :=
  864 - (if limited s c then 0 else (([1, 2, 3, 4, 5, 6] : List Nat).map (qminOf s)).sum)

/-- Entries of a part of the request buffer in use. -/
def partUse (c : Channel) (p : BufPart) : Nat := (c.buf.filter (fun r => r.part == p)).length

/-- A free entry of the shared pool for a master (R254): within the pool, and within PMAX but in limit mode (R256). -/
def sharedEntry (s : State) (c : Channel) (master : Nat) : Option BufPart :=
  if decide (partUse c .shared < sharedPool s c) &&
     (limited s c || decide ((c.buf.filter (fun r => r.part == .shared && r.master == master)).length < s.hub.pMax))
  then some .shared else none

/-- The outstanding requests of a master of classes 1 to 7 (R256): a core's DMA tags outside the urgent lane. -/
def outstanding (s : State) (master : Nat) : Nat := ((coreAt s master).tags.filter (fun t => !t.urgent)).length

/-- The entry of a slice's request buffer that a request of a class may take (R231, R254, R256), class 8 being maintenance;
none stalls the request at its master. -/
def creditFor (s : State) (ch master cls : Nat) : Option BufPart :=
  let c := chanAt s ch
  if cls = 0 then (if partUse c .urgent < 128 then some .urgent else sharedEntry s c master)
  else if 8 ≤ cls then (if partUse c .maintenance < 32 then some .maintenance else none)
  else if limited s c && decide (s.hub.outLim ≤ outstanding s master) then none
  else if cls < 7 && !limited s c && decide ((c.buf.filter (fun r => r.part == .reserved && r.cls == cls)).length < qminOf s cls) then some .reserved
  else sharedEntry s c master

/-- Room in the controller queue (R232): 256 transactions, 32 of them held for class 0. -/
def queueRoom (c : Channel) (cls : Nat) : Bool :=
  decide (c.queue.length < 256) && (cls == 0 || decide ((c.queue.filter (fun r => r.cls != 0)).length < 224))

/-- A request that an agent makes and that is served within its command finds an entry, and on a miss a place in the
controller queue of a channel that is not retraining (R231, R232, R243); else it waits at its master. -/
def mayIssue (s : State) (master cls ch off : Nat) : Bool :=
  let c := chanAt s ch
  (creditFor s ch master cls).isSome && (resident c off || (queueRoom c cls && !c.retraining))

/-- A transaction joins the controller queue; QUEUE.PEAK follows (R245). -/
def enqueue (c : Channel) (r : MemReq) : Channel :=
  { c with queue := c.queue ++ [r], qPeak := max c.qPeak (c.queue.length + 1) }

/-- The requests that wait in the buffer go on into the controller queue while it has room, oldest first (R231). -/
def forwardBuf (c : Channel) : Channel :=
  c.buf.foldl (fun x r => if queueRoom x r.cls then { enqueue x r with buf := x.buf.erase r } else x) c

/-- A read that has missed in the slice: into the controller queue, which gives its credit back, or it keeps its entry of
the request buffer (R231, R232). -/
def placeMiss (s : State) (ch : Nat) (r : MemReq) : State :=
  modChan s ch (fun c => if queueRoom c r.cls then enqueue c r else { c with buf := c.buf ++ [r] })

/-- A transaction retires from a channel's queue; a class-0 one lets the next slot or refresh start (R244). -/
def retireReq (c : Channel) (r : MemReq) : Channel :=
  forwardBuf { c with queue := c.queue.erase r, buf := c.buf.erase r, urgentFirst := c.urgentFirst && r.cls != 0 }

/-- The transaction of a core's tag, where it waits for its channel. -/
def reqOf (c : Channel) (master tag : Nat) : Option MemReq :=
  (c.buf ++ c.queue).find? (fun r => r.master == master && r.tag == tag)

/-- The transaction of a core's tag leaves its channel. -/
def dropReq (s : State) (ch master tag : Nat) : State :=
  match reqOf (chanAt s ch) master tag with
  | some r => modChan s ch (fun c => retireReq c r)
  | none => s

/-- The reply to a tag cannot come yet: its transaction waits in the request buffer, or in the queue of a retraining
channel (R232, R243). -/
def replyHeld (s : State) (ch master tag : Nat) : Bool :=
  let c := chanAt s ch
  let is (r : MemReq) : Bool := r.master == master && r.tag == tag
  c.buf.any is || (c.retraining && c.queue.any is)

end Sys2Proof.Machine
end

