-- ==== Sys2Proof/Machine/Directory.lean ====
section
/-! DEFINITION. The coherent domain (R267 to R282): the caches of the agents, the directory of each slice, the handling
of requests under R272 with NACKs and reserved entries (R273, R274), and the reclaim sweep (R280, R281). -/

namespace Sys2Proof.Machine

/- Caches of agents (R267). -/

def isCaching (agent : Nat) : Bool := decide (agent < 664)

/-- The lines that a caching agent holds. -/
def cacheOf (s : State) (agent : Nat) : List CacheLine :=
  if agent < 640 then (coreAt s agent).dc
  else if agent < 648 then tget [] s.hub.ctrlLines (agent - 640)
  else (engineAt s (agent - 648)).lines

def setCache (s : State) (agent : Nat) (l : List CacheLine) : State :=
  if agent < 640 then modCore s agent (fun c => { c with dc := l })
  else if agent < 648 then modHub s (fun h => { h with ctrlLines := tset h.ctrlLines (agent - 640) l })
  else modEngine s (agent - 648) (fun e => { e with lines := l })

/-- Sets and ways of an agent's cache (R16, R267): 128 and 512 lines, 4-way, in a core and a control core; a line buffer's 64
lines stand in one set (log entry 16). -/
def cacheSets (agent : Nat) : Nat := if agent < 640 then 32 else if agent < 648 then 128 else 1
def cacheWays (agent : Nat) : Nat := if agent < 648 then 4 else 64

/-- The set that a line falls in: its channel byte offset's line number modulo the sets (DESIGN CHOICE, log entry 16). -/
def cacheSet (agent off : Nat) : Nat := off / 64 % cacheSets agent

def cacheFind (l : List CacheLine) (ch off : Nat) : Option CacheLine :=
  l.find? (fun x => x.channel == ch && x.offset == off)

def cacheDrop (l : List CacheLine) (ch off : Nat) : List CacheLine :=
  l.filter (fun x => !(x.channel == ch && x.offset == off))

/-- A fenced agent answers nothing (R280, R417). -/
def agentFenced (s : State) (agent : Nat) : Bool :=
  if agent < 640 then (coreAt s agent).st == .fenced
  else if agent < 648 then ctrlAt s (agent - 640) == .fenced
  else !(engineAt s (agent - 648)).inService

/- Directory entries. -/

def dirFind (c : Channel) (off : Nat) : Option DirEntry := c.dir.find? (fun e => e.offset == off)
def dirPut (c : Channel) (e : DirEntry) : Channel :=
  { c with dir := c.dir.filter (fun x => x.offset != e.offset) ++ [{ e with used := c.clock }], clock := c.clock + 1 }
def dirDel (c : Channel) (off : Nat) : Channel := { c with dir := c.dir.filter (fun x => x.offset != off) }

def DirState.transient : DirState → Bool
  | .shared => false
  | .owned => false
  | _ => true

/-- The directory set of a line: bits [9:6] of its channel byte offset (R270). -/
def dirSet (off : Nat) : Nat := off / 64 % 16

/-- The agents that an entry's sharer list sends invalidations to: the list, or every agent of each marked group in a
coarse map (R270); a fenced agent is out of the domain. -/
def sharerAgents (s : State) (e : DirEntry) : List Nat :=
  let all := if e.coarse then (List.range 664).filter (fun a => e.sharers.any (fun x => x / 8 == a / 8)) else e.sharers
  all.filter (fun a => !agentFenced s a)

/-- A sharer joins; the ninth makes the map coarse (R270). -/
def addSharer (e : DirEntry) (agent : Nat) : DirEntry :=
  let l := insertNew e.sharers agent
  { e with sharers := l, coarse := e.coarse || decide (8 < l.length) }

/- The slice's data side (R229, R245). -/

/-- A class holds more lines of a slice than its entitlement (R255): CAPMIN/16 of the 16,384 lines for classes 1-6, always
for class 7, never for class 0; lines of maintenance traffic, here class 8, have no rule and count as class 0 (log entry 12). -/
def overShare (s : State) (c : Channel) (cls : Nat) : Bool :=
  if cls = 7 then true
  else if cls = 0 ∨ 7 < cls then false
  else decide ((tget ({} : ClassCfg) s.hub.classes cls).capmin * 1024 < (c.lines.filter (fun l => l.cls == cls)).length)

/-- The line of a full set that a fill replaces (R255); the list runs from least to most recently used. -/
def sliceVictim (s : State) (c : Channel) (mates : List SliceLine) : Option SliceLine :=
  match mates.find? (fun l => overShare s c l.cls) with
  | some l => some l
  | none => mates.head?

/-- The class of the requests that an agent issues (R248): that of the command it works for. -/
def agentClass (s : State) (agent : Nat) : Nat :=
  let of (id : Option Nat) : Nat := (id.bind (cmdAt s)).elim 8 (fun c => c.cls)
  if agent < 640 then of (coreAt s agent).cmd
  else if 648 ≤ agent ∧ agent < 664 then of (engineAt s (agent - 648)).cmd
  else 8

/-- The slice finds a shadow frame's written-line bitmap in its bitmap cache, where it then is the most recently used (R230):
32 KiB, 4,096 frame blocks. -/
def noteBitmap (c : Channel) (block : Nat) : Channel :=
  let l := c.bitmapCache.filter (fun b => b != block) ++ [block]
  { c with bitmapCache := l.drop (l.length - 4096) }

/-- The slice looks a line up for a request of a class: a hit, or a miss that allocates it (R229, R255). DESIGN CHOICE (log
entry 16): a line falls in the set that its channel byte offset's line number names modulo 1,024. -/
def sliceTouch (s : State) (cls ch off : Nat) (dirty : Bool) : State :=
  let shadowed := (shadowAt s (frameAddr ch off)).isSome
  let sU := if cls = 0 then modHub s (fun h => { h with urgSeen := true }) else s
  modChan sU ch (fun c0 =>
    let c := if shadowed then noteBitmap c0 (frameAddr ch off / 65536) else c0
    match c.lines.find? (fun l => l.offset == off) with
    | some l =>
      { c with hit := wrapAdd 64 c.hit 1, clock := c.clock + 1
               lines := c.lines.filter (fun x => x.offset != off) ++
                 [{ l with used := c.clock, dirty := l.dirty || dirty, cls := if dirty then cls else l.cls }] }
    | none =>
      let mates := c.lines.filter (fun x => x.offset / 64 % 1024 == off / 64 % 1024)
      let kept := if mates.length < 16 then c.lines
        else match sliceVictim s c mates with
          | some v => c.lines.filter (fun x => x.offset != v.offset)
          | none => c.lines
      { c with miss := wrapAdd 64 c.miss 1, clock := c.clock + 1
               lines := kept ++ [{ offset := off, cls := cls, dirty := dirty, used := c.clock }] })

/-- A line leaves the slice. -/
def sliceDrop (c : Channel) (off : Nat) : Channel := { c with lines := c.lines.filter (fun l => l.offset != off) }

/-- A write of a full line at its home, by channel and channel byte offset. A line whose tag an injection corrupts (R432) is
not kept in the slice, so that its next read meets the tag (DESIGN CHOICE, log entry 104). -/
def homeWrite (s : State) (cls ch off : Nat) (data : List Byte) : State :=
  let s1 := sliceTouch (writeLine s (frameAddr ch off) data) cls ch off true
  if (chanAt s1 ch).badTags.contains off then modChan s1 ch (fun c => sliceDrop c off) else s1

/-- What SECDED reports of a slice line that is read (R229): an uncorrectable error drops a clean line, which is then fetched
again; a dirty one is unreadable as after an HBM uncorrectable error. -/
def sliceError (s : State) (ch off : Nat) (e : EccReport) : State :=
  match e, (chanAt s ch).lines.find? (fun l => l.offset == off) with
  | .uncorrected, some l => modChan s ch (fun c => if l.dirty then holdLine (sliceDrop c off) off else sliceDrop c off)
  | _, _ => s

/-- The line's data at its home (R167). -/
def homeData (s : State) (ch off : Nat) : List Byte := lineData s (sourceAddr s (frameAddr ch off))

/-- Every line that any agent caches. -/
def allLines (s : State) : List CacheLine :=
  s.cores.flatMap (fun e => e.2.dc) ++ s.hub.ctrlLines.flatMap (fun e => e.2) ++ s.hub.engines.flatMap (fun e => e.2.lines)

/-- The value of a line as the coherent domain serves it: an owner's modified copy, else its home's. -/
def coherentData (s : State) (fa : Nat) : List Byte :=
  let ch := channelOf fa
  let off := chanOff (lineBase fa)
  match (allLines s).find? (fun l => l.channel == ch && l.offset == off && l.mode == .modified) with
  | some l => l.data
  | none => homeData s ch off

/-- No agent holds a line any more, and no stable entry names it: what a full-line write of a non-caching requester
leaves once every copy has been invalidated (R272). -/
def purgeLine (s : State) (ch off : Nat) : State :=
  let s1 := { s with cores := s.cores.map (fun e => (e.1, { e.2 with dc := cacheDrop e.2.dc ch off })) }
  let s2 := modHub s1 (fun h => { h with
    ctrlLines := h.ctrlLines.map (fun e => (e.1, cacheDrop e.2 ch off))
    engines := h.engines.map (fun e => (e.1, { e.2 with lines := cacheDrop e.2.lines ch off })) })
  modChan s2 ch (fun c => { c with dir := c.dir.filter (fun e => e.offset != off || e.st.transient) })

/-- A line's frame changes hands or is wiped (R278, R279): no cache holds it, no entry names it, and the requests that wait for
it are given up. -/
def closeLine (s : State) (ch off : Nat) : State :=
  modChan (purgeLine s ch off) ch (fun c =>
    { c with dir := c.dir.filter (fun e => e.offset != off), nacked := c.nacked.filter (fun n => n.offset != off) })

/-- A request of an agent waits at a slice: NACKed, or named by a transient entry. -/
def requestWaits (s : State) (agent ch off : Nat) : Bool :=
  let c := chanAt s ch
  c.nacked.any (fun n => n.agent == agent && n.offset == off) ||
  c.dir.any (fun e => e.offset == off && e.st.transient && e.pendAgent == agent)

/-- A non-caching request to a line in transition is NACKed (R272): any while FORWARDING or RECALLING from OWNED, a write also
while INVALIDATING or RECALLING from SHARED. -/
def ncBlocked (s : State) (ch off : Nat) (write : Bool) : Bool :=
  match dirFind (chanAt s ch) off with
  | some e => e.st == .forwarding || e.st == .recallingOwned || (write && e.st.transient)
  | none => false

/-- A full line written coherently at a frame address by a non-caching requester (R272's NCW, taken whole). -/
def ncWriteLine (s : State) (cls fa : Nat) (data : List Byte) : State :=
  let ch := channelOf fa
  let off := chanOff (lineBase fa)
  homeWrite (purgeLine s ch off) cls ch off data

/-- A line read coherently at a frame address by a non-caching requester (R272's NCR, taken whole). -/
def ncReadLine (s : State) (cls fa : Nat) : State × List Byte :=
  (sliceTouch s cls (channelOf fa) (chanOff (lineBase fa)) false, coherentData s fa)

/- Requests. -/

/-- A line leaves an agent's full cache (R272): silently from S and E; from M with PUTM, which may cross a forward or a recall
on its way home. -/
def evictLine (s : State) (agent : Nat) (v : CacheLine) : State :=
  let s0 := setCache s agent (cacheDrop (cacheOf s agent) v.channel v.offset)
  let home (t : State) : State := homeWrite t (agentClass s agent) v.channel v.offset v.data
  let put (t : State) (e : DirEntry) : State := modChan t v.channel (fun c => dirPut c e)
  if v.mode != .modified then s0
  else match dirFind (chanAt s0 v.channel) v.offset with
    | none => home s0
    | some e => match e.st with
      | .owned => if e.owner = agent then modChan (home s0) v.channel (fun c => dirDel c v.offset) else s0
      | .forwarding =>
        if !e.acks.contains agent then s0
        else put (if e.pendKind = .ncr then home s0 else s0) { e with acks := [], answer := some (if e.pendKind = .ncw then [] else v.data) }
      | .recallingOwned => if e.owner = agent then put s0 { e with pendData := v.data } else s0
      | _ => s0

/-- A line enters an agent's cache; the oldest line of a full set leaves (log entry 16). -/
def fillCache (s : State) (agent ch off : Nat) (mode : CacheMode) (data : List Byte) : State :=
  let s0 := setCache s agent (cacheDrop (cacheOf s agent) ch off)
  let mates := (cacheOf s0 agent).filter (fun l => cacheSet agent l.offset == cacheSet agent off)
  let s1 := match mates with
    | v :: _ => if mates.length < cacheWays agent then s0 else evictLine s0 agent v
    | [] => s0
  setCache s1 agent (cacheOf s1 agent ++ [⟨ch, off, mode, data⟩])

/-- The reserved entries of a slice in use (R270, R274). -/
def reservedUse (c : Channel) : Nat := (c.nacked.filter (fun n => n.reserved)).length

/-- The colony that an agent works for. -/
def agentColony (s : State) (agent : Nat) : Nat :=
  if agent < 640 then (coreAt s agent).colony
  else if agent < 648 then 0
  else if agent < 664 then ((engineAt s (agent - 648)).cmd.bind (cmdAt s)).elim 0 (fun c => c.colony)
  else (portAt s (agent - 664)).colony

/-- What an agent's request for a line carries (R197, R306): its colony, instar and translation epoch, as it was first sent. -/
def reqStamp (s : State) (agent ch off : Nat) : ReqStamp :=
  match (chanAt s ch).nacked.find? (fun n => n.agent == agent && n.offset == off) with
  | some n => n.stamp
  | none =>
    let k := agentColony s agent
    { colony := k, instar := stampOf s k, epoch := (colAt s k).epoch }

/-- What the requests that wait at a slice carry: NACKed, or named by a transient entry with a request pending. -/
def waitingStamps (c : Channel) : List ReqStamp :=
  c.nacked.map (fun n => n.stamp) ++
  (c.dir.filter (fun e => e.st == .invalidating || e.st == .forwarding)).map (fun e => e.pendStamp)

/-- The requests of a colony's instar that wait at slices. -/
def waitingUnder (s : State) (colony instar : Nat) : Nat :=
  (s.chans.map (fun e => ((waitingStamps e.2).filter (fun r => r.colony == colony && r.instar == instar)).length)).sum

/-- INFLIGHT of a colony's current entry (R197, R199): what a merged old entry has outstanding counts there. -/
def inflightCur (s : State) (n : Nat) : Nat :=
  let c := colAt s n
  c.cur.inflight + waitingUnder s n c.cur.instar + (if c.old.valid && c.old.merged then waitingUnder s n c.old.instar else 0)

/-- INFLIGHT of a colony's old entry (R197, R200): none where it is merged or retired. -/
def inflightOld (s : State) (n : Nat) : Nat :=
  let c := colAt s n
  if c.old.valid && !c.old.merged then c.old.inflight + waitingUnder s n c.old.instar else 0

/-- A NACK (R273, R274): counted; the eighth of one request places it in a reserved entry, if one is free and no request with
more NACKs waits for it. -/
def nack (s : State) (agent ch off : Nat) (kind : ReqKind) (data : List Byte) : State :=
  let stamp := reqStamp s agent ch off
  modChan s ch (fun c =>
    let prev := c.nacked.find? (fun n => n.agent == agent && n.offset == off)
    let k : Nat := (match prev with | some n => n.count | none => 0) + 1
    let rest := c.nacked.filter (fun n => !(n.agent == agent && n.offset == off))
    let rsv := decide (8 ≤ k) && decide (reservedUse c < 8) && !rest.any (fun m => !m.reserved && decide (k < m.count))
    { c with nacks := wrapAdd 64 c.nacks 1
             nacked := rest ++ [{ agent := agent, offset := off, kind := kind, data := data, count := k, reserved := rsv, stamp := stamp }] })

/-- A reserved entry that has come free goes to the waiting request with the most NACKs, at least eight (R274). -/
def promote (c : Channel) : Channel :=
  if 8 ≤ reservedUse c then c
  else
    let best := c.nacked.foldl (fun b n =>
      if n.reserved || decide (n.count < 8) then b
      else match b with
        | some m => if m.count < n.count then some n else b
        | none => some n) (none : Option Nacked)
    match best with
    | some n => { c with nacked := c.nacked.erase n ++ [{ n with reserved := true }] }
    | none => c

/-- A request is no longer waiting at its agent. -/
def unNack (s : State) (agent ch off : Nat) : State :=
  modChan s ch (fun c => { c with nacked := c.nacked.filter (fun n => !(n.agent == agent && n.offset == off)) })

/-- Room for one more general entry in the line's set (R270, R271; 8 ways a set, 120 in all, log entry 16). -/
def dirRoom (c : Channel) (off : Nat) : Bool :=
  decide ((c.dir.filter (fun e => dirSet e.offset == dirSet off)).length < 8) && decide (c.dir.length < 120)

/-- The entry that R271 recalls: the least recently used that is not transient, of a full set; where only the slice's 120
entries are all in use, of the slice (log entry 16). -/
def recallVictim (c : Channel) (off : Nat) : Option DirEntry :=
  let mates := c.dir.filter (fun e => dirSet e.offset == dirSet off)
  ((if mates.length < 8 then c.dir else mates).filter (fun e => !e.st.transient)).foldl (fun best e =>
    match best with
    | some b => if e.used < b.used then some e else best
    | none => some e) none

/-- An entry goes into recall: its sharers or its owner are asked to give the line up (R271, R272, R278, R279). -/
def beginRecall (s : State) (ch : Nat) (e : DirEntry) : State :=
  match e.st with
  | .shared =>
    let acks := sharerAgents s e
    modChan s ch (fun c => if acks.isEmpty then dirDel c e.offset else dirPut c { e with st := .recallingShared, acks := acks })
  | .owned =>
    if agentFenced s e.owner then modChan s ch (fun c => dirDel c e.offset)
    else modChan s ch (fun c => dirPut c { e with st := .recallingOwned, acks := [e.owner], pendData := [] })
  | _ => s

/-- The entry of a line that one agent owns. -/
def ownedBy (off agent : Nat) : DirEntry := { offset := off, st := .owned, owner := agent }

/-- The home cannot supply a line (R235, R236). -/
def homeBad (s : State) (ch off : Nat) : Bool := (lineProblem s (sourceAddr s (frameAddr ch off))).isSome

/-- A grant with the home's data (R272). A line that cannot be read is granted to nobody: its requester meets the report at
its next read of it (R235, R236). -/
def grantHome (s : State) (agent ch off : Nat) (e : DirEntry) (mode : CacheMode) : State :=
  if homeBad s ch off then
    (if (dirFind (chanAt s ch) off).any (fun x => x.st.transient) then modChan s ch (fun c => dirDel c off) else s)
  else fillCache (modChan (sliceTouch s (agentClass s agent) ch off false) ch (fun c => dirPut c e)) agent ch off mode (homeData s ch off)

/-- A grant of ownership (R272): E for GETS, M for GETM; for GETM without data the grant carries none, and what the cache
shows of the line until its agent overwrites it is a free value (log entry 105). -/
def grantOwned (s : State) (agent ch off : Nat) (kind : ReqKind) : State :=
  if kind = .getw then
    let (v, s1) := drawFree s
    fillCache (modChan s1 ch (fun c => dirPut c (ownedBy off agent))) agent ch off .modified (leBytes 64 v)
  else grantHome s agent ch off (ownedBy off agent) (if kind = .gets then .exclusive else .modified)

/-- A non-caching read served at the slice. -/
def serveNcr (s : State) (agent ch off : Nat) : State := unNack (sliceTouch s (agentClass s agent) ch off false) agent ch off

/-- A request served at an UNCACHED line (R272). -/
def serveUncached (s : State) (agent ch off : Nat) (kind : ReqKind) (data : List Byte) : State :=
  match kind with
  | .ncr => serveNcr s agent ch off
  | .ncw => unNack (homeWrite s (agentClass s agent) ch off data) agent ch off
  | k => grantOwned (unNack s agent ch off) agent ch off k

/-- R272's table: a request at a line's home directory. -/
def dirServe (s : State) (agent ch off : Nat) (kind : ReqKind) (data : List Byte) : State :=
  let c := chanAt s ch
  match dirFind c off with
  | none =>
    if kind = .ncr || kind = .ncw then serveUncached s agent ch off kind data
    else if dirRoom c off then serveUncached s agent ch off kind data
    else match recallVictim c off with
      | some v => nack (modChan (beginRecall s ch v) ch (fun x => { x with recalls := satInc 32 x.recalls })) agent ch off kind data
      | none => nack s agent ch off kind data
  | some e =>
    let pend (acks : List Nat) (st : DirState) : State := modChan (unNack s agent ch off) ch (fun x =>
      dirPut x { e with st := st, acks := acks, pendAgent := agent, pendKind := kind, pendData := data, pendStamp := reqStamp s agent ch off })
    match e.st with
    | .shared =>
      match kind with
      | .gets => grantHome (unNack s agent ch off) agent ch off (addSharer e agent) .shared
      | .ncr => serveNcr s agent ch off
      | .ncw =>
        let all := sharerAgents s e
        if all.isEmpty then modChan (serveUncached s agent ch off .ncw data) ch (fun x => dirDel x off) else pend all .invalidating
      | k =>
        let others := (sharerAgents s e).filter (fun a => a != agent)
        if others.isEmpty then grantOwned (unNack s agent ch off) agent ch off k else pend others .invalidating
    | .owned => pend [e.owner] .forwarding
    | .invalidating => if kind = .ncr then serveNcr s agent ch off else nack s agent ch off kind data
    | .recallingShared => if kind = .ncr then serveNcr s agent ch off else nack s agent ch off kind data
    | .forwarding => nack s agent ch off kind data
    | .recallingOwned => nack s agent ch off kind data

/-- The line that a request reads comes from its home (R272), not from an owner. -/
def homeSupplies (c : Channel) (off : Nat) (kind : ReqKind) : Bool :=
  kind != .ncw && kind != .getw &&
  (match dirFind c off with
   | none => true
   | some e => e.st == .shared || (kind == .ncr && (e.st == .invalidating || e.st == .recallingShared)))

/-- A request reaches its home: a reserved request of another agent on the line goes first (R274). -/
def dirRequest (s : State) (agent ch off : Nat) (kind : ReqKind) (data : List Byte) : State :=
  if (chanAt s ch).nacked.any (fun n => n.reserved && n.offset == off && n.agent != agent) then nack s agent ch off kind data
  else dirServe s agent ch off kind data

/-- A reserved request can be served (R274): its line is in no transient state, and an entry is free if it needs one. -/
def reservedReady (c : Channel) (n : Nacked) : Bool :=
  match dirFind c n.offset with
  | some e => !e.st.transient
  | none => n.kind == .ncr || n.kind == .ncw || dirRoom c n.offset

/-- A recall runs in a line's set. -/
def recallRuns (c : Channel) (off : Nat) : Bool :=
  c.dir.any (fun e => dirSet e.offset == dirSet off && (e.st == .recallingShared || e.st == .recallingOwned))

/-- One reserved request is tried (R274), unless one reserved before it waits on its line: served, without a NACK; or an entry is
recalled for it. -/
def serveOne (ch : Nat) (s : State) (n : Nacked) : State :=
  let c := chanAt s ch
  let serve (t : State) : State := modChan (dirServe t n.agent ch n.offset n.kind n.data) ch promote
  if !List.contains c.nacked n || (c.nacked.takeWhile (fun m => m != n)).any (fun m => m.reserved && m.offset == n.offset) then s
  else if reservedReady c n then serve s
  else if (dirFind c n.offset).isSome || recallRuns c n.offset then s
  else match recallVictim c n.offset with
    | some v =>
      let t := modChan (beginRecall s ch v) ch (fun x => { x with recalls := satInc 32 x.recalls })
      if reservedReady (chanAt t ch) n then serve t else t
    | none => s

/-- The reserved requests of a slice, in the order they were reserved (R274). -/
def serveReserved (s : State) (ch : Nat) : State :=
  ((chanAt s ch).nacked.filter (fun n => n.reserved)).foldl (serveOne ch) s

/-- The requester of a transient state that waits for a line has been fenced (R280) or killed (R36) meanwhile. -/
def requesterGone (s : State) (e : DirEntry) : Bool :=
  (e.pendKind == .gets || e.pendKind == .getm || e.pendKind == .getw) && (!isCaching e.pendAgent || agentFenced s e.pendAgent)

/-- INVALIDATING ends: grant M to the requester, or perform the write (R272). -/
def endInvalidating (s : State) (ch : Nat) (e : DirEntry) : State :=
  let s1 :=
    if e.pendKind = .ncw then modChan (homeWrite s (agentClass s e.pendAgent) ch e.offset e.pendData) ch (fun c => dirDel c e.offset)
    else if requesterGone s e then modChan s ch (fun c => dirDel c e.offset)
    else grantOwned s e.pendAgent ch e.offset e.pendKind
  serveReserved s1 ch

/-- A line after a forwarded GETS that gives its requester nothing: SHARED by an owner that has kept it as S, else
UNCACHED. -/
def leaveShared (s : State) (ch : Nat) (e : DirEntry) : State :=
  modChan s ch (fun c =>
    if (cacheFind (cacheOf s e.owner) ch e.offset).isSome then dirPut c { offset := e.offset, st := .shared, sharers := [e.owner] }
    else dirDel c e.offset)

/-- FORWARDING ends with the owner's response: `data` is what a dirty owner sent, nothing otherwise; the slice then
supplies the line (R272). For NCW `e.pendData` is the write's own data. -/
def endForwarding (s : State) (ch : Nat) (e : DirEntry) (dirty : List Byte) : State :=
  let cls := agentClass s e.pendAgent
  let kept : State := if dirty.isEmpty then s else homeWrite s cls ch e.offset dirty
  let unsupplied := requesterGone s e || (dirty.isEmpty && homeBad s ch e.offset)
  let s1 := match e.pendKind with
    | .gets =>
      if unsupplied then leaveShared kept ch e
      else
        let sh := if (cacheFind (cacheOf kept e.owner) ch e.offset).isSome then insertNew [e.owner] e.pendAgent else [e.pendAgent]
        let s2 := modChan kept ch (fun c => dirPut c { offset := e.offset, st := .shared, sharers := sh })
        fillCache s2 e.pendAgent ch e.offset .shared (if dirty.isEmpty then homeData s ch e.offset else dirty)
    | .getm =>
      if unsupplied then modChan kept ch (fun c => dirDel c e.offset)
      else fillCache (modChan s ch (fun c => dirPut c (ownedBy e.offset e.pendAgent))) e.pendAgent ch e.offset .modified
        (if dirty.isEmpty then homeData s ch e.offset else dirty)
    | .getw =>
      if requesterGone s e then modChan kept ch (fun c => dirDel c e.offset) else grantOwned s e.pendAgent ch e.offset .getw
    | .ncr => modChan s ch (fun c => if agentFenced s e.owner then dirDel c e.offset else dirPut c (ownedBy e.offset e.owner))
    | .ncw => modChan (homeWrite s cls ch e.offset e.pendData) ch (fun c => dirDel c e.offset)
  serveReserved s1 ch

/-- A recall ends: the entry is freed and data sent by the owner is written to the slice (R272). -/
def endRecall (s : State) (ch : Nat) (e : DirEntry) : State :=
  let s1 := if e.pendData.isEmpty then s else homeWrite s (agentClass s e.owner) ch e.offset e.pendData
  serveReserved (modChan s1 ch (fun c => dirDel c e.offset)) ch

/-- One agent's acknowledgement reaches the home; the last one ends the transient state. -/
def ackFrom (s : State) (ch off agent : Nat) : State :=
  match dirFind (chanAt s ch) off with
  | none => s
  | some e =>
    if !e.acks.contains agent then s
    else
      let e' := { e with acks := e.acks.filter (fun a => a != agent) }
      match e.st with
      | .invalidating => if e'.acks.isEmpty then endInvalidating s ch e' else modChan s ch (fun c => dirPut c e')
      | .recallingShared => if e'.acks.isEmpty then endRecall s ch e' else modChan s ch (fun c => dirPut c e')
      | .recallingOwned => if e'.acks.isEmpty then endRecall s ch e' else modChan s ch (fun c => dirPut c e')
      | _ => s

/-- DROP of a modified line, or its loss with its agent: nothing written, the slice value stands (R272, R280). -/
def dropLine (s : State) (agent ch off : Nat) : State :=
  let s0 := setCache s agent (cacheDrop (cacheOf s agent) ch off)
  match dirFind (chanAt s0 ch) off with
  | none => s0
  | some e =>
    match e.st with
    | .owned => if e.owner = agent then modChan s0 ch (fun c => dirDel c off) else s0
    | .forwarding => if e.owner = agent && e.acks.contains agent then endForwarding s0 ch { e with acks := [] } [] else s0
    | .recallingOwned => if e.owner = agent then endRecall s0 ch { e with acks := [], pendData := [] } else s0
    | _ => s0

/-- An agent's other copy is invalidated at its home (R36 step 4, R277). -/
def invalidateLine (s : State) (agent ch off : Nat) : State :=
  let s0 := setCache s agent (cacheDrop (cacheOf s agent) ch off)
  match dirFind (chanAt s0 ch) off with
  | none => s0
  | some e =>
    match e.st with
    | .shared =>
      let e' := if e.coarse then e else { e with sharers := e.sharers.filter (fun a => a != agent) }
      modChan s0 ch (fun c => if e'.sharers.isEmpty then dirDel c off else dirPut c e')
    | .owned => if e.owner = agent then modChan s0 ch (fun c => dirDel c off) else s0
    | .forwarding => if e.owner = agent && e.acks.contains agent then endForwarding s0 ch { e with acks := [] } [] else s0
    | _ => ackFrom s0 ch off agent

/-- PUTM: a modified line is written back to its home (R272). -/
def putLine (s : State) (agent ch off : Nat) : State :=
  match cacheFind (cacheOf s agent) ch off with
  | none => s
  | some l =>
    if l.mode != .modified then s
    else
      let s0 := setCache s agent (cacheDrop (cacheOf s agent) ch off)
      match dirFind (chanAt s0 ch) off with
      | none => homeWrite s0 (agentClass s agent) ch off l.data
      | some e =>
        match e.st with
        | .owned => if e.owner = agent then modChan (homeWrite s0 (agentClass s agent) ch off l.data) ch (fun c => dirDel c off) else s0
        | .forwarding => if e.owner = agent then
            (if e.pendKind = .ncr then
              endForwarding (homeWrite s0 (agentClass s agent) ch off l.data) ch { e with acks := [] } l.data
            else endForwarding s0 ch { e with acks := [] } l.data) else s0
        | .recallingOwned => if e.owner = agent then endRecall s0 ch { e with acks := [], pendData := l.data } else s0
        | _ => s0

/-- Every line of an agent's cache leaves it by an operation on one line. -/
def eachLine (f : State → CacheLine → State) (s : State) (agent : Nat) : State := (cacheOf s agent).foldl f s

/-- An agent's requests leave every slice: those NACKed are given up, and a line on its way to it goes to nobody. -/
def cancelRequests (s : State) (agent : Nat) : State :=
  { s with chans := s.chans.map (fun e => (e.1, { e.2 with
      nacked := e.2.nacked.filter (fun n => n.agent != agent)
      dir := e.2.dir.map (fun d => if d.st.transient && d.pendAgent == agent then { d with pendAgent := 1023, pendStamp := {} } else d) })) }

/-- The cache on a kill (R36 step 4, R277): every modified line dropped, every other invalidated. -/
def killCache (s : State) (agent : Nat) : State :=
  let s1 := eachLine (fun t l => if l.mode == .modified then dropLine t agent l.channel l.offset
    else invalidateLine t agent l.channel l.offset) (cancelRequests s agent) agent
  setCache s1 agent []

/-- The cache at END (R277): every modified line written back, every line of a shadow frame invalidated. -/
def flushCache (s : State) (agent : Nat) : State :=
  eachLine (fun t l =>
    if l.mode == .modified then putLine t agent l.channel l.offset
    else if (shadowAt t (frameAddr l.channel l.offset)).isSome then invalidateLine t agent l.channel l.offset
    else t) s agent

/-- The reclaim sweep of a fenced agent (R280, R281) over one channel. -/
def sweepChannel (agent : Nat) (s : State) (ch : Nat) : State :=
  let c0 := chanAt s ch
  let s0 := setChan s ch { c0 with nacked := c0.nacked.filter (fun n => n.agent != agent) }
  c0.dir.foldl (fun t e0 =>
    match dirFind (chanAt t ch) e0.offset with
    | none => t
    | some e =>
      match e.st with
      | .shared =>
        if e.coarse then t
        else if e.sharers.contains agent then
          let l := e.sharers.filter (fun a => a != agent)
          modChan t ch (fun c => if l.isEmpty then dirDel c e.offset else dirPut c { e with sharers := l })
        else t
      | .owned => if e.owner = agent then modChan t ch (fun c => dirDel c e.offset) else t
      | .forwarding => if e.acks.contains agent then endForwarding t ch { e with acks := [] } [] else t
      | _ => ackFrom t ch e.offset agent) s0

/-- The DPA of a line at its home (R281): the page's, for a line of a shadow frame or of an exchanged committed frame. -/
def homeDpa (s : State) (ch off : Nat) : Nat := dpaOf s (chanAt s ch).colony (frameAddr ch off)

/-- A line of a table frame (R287): no DPA reaches it, and no agent but Bonor's control cores has it. -/
def tableLine (s : State) (ch off : Nat) : Bool :=
  let fa := frameAddr ch off
  s.cols.any (fun e => e.2.tables.any (fun t => decide (t.1 ≤ fa) && decide (fa < t.1 + 65536)))

/-- The lines that a sweep counts as lost: those whose entry shows the agent as owner (R280 step 4), by DPA (R281). -/
def lostLines (s : State) (agent : Nat) : List Nat :=
  s.chans.flatMap (fun e => (e.2.dir.filter (fun d =>
    d.owner == agent && (d.st == .owned || d.st == .forwarding || d.st == .recallingOwned))).map (fun d => homeDpa s e.1 d.offset))

/-- The sweep of every slice, with HUB.SEXTON's account of it (R280, R283). -/
def sexton (s : State) (agent : Nat) : State :=
  let lost := (lostLines s agent).length
  let s1 := (s.chans.map (fun e => e.1)).foldl (sweepChannel agent) s
  let s2 := setCache s1 agent []
  modHub s2 (fun h => { h with sextonAgent := agent, sextonLost := lost % 2 ^ 16, sextonSweeps := satInc 16 h.sextonSweeps })

end Sys2Proof.Machine
end

