-- ==== Sys2Proof/Machine/Walker.lean ====
section
/-! DEFINITION. Walks of a colony's tables (R285, R287, R296, R297): the caches that hold their results, the walker that serves an
agent, the table entries it reads, and the walks of Bonor's own accesses. -/

namespace Sys2Proof.Machine

/- Translation caches of agents (R296). -/

/-- The translation cache of an agent: core, control core, copy engine or port engine. -/
def agentTc (s : State) (agent : Nat) : List TcEntry :=
  if agent < 640 then (coreAt s agent).tc
  else if agent < 648 then tget [] s.hub.ctrlTc (agent - 640)
  else if agent < 664 then (engineAt s (agent - 648)).tc
  else (portAt s (agent - 664)).tc

def setTc (s : State) (agent : Nat) (l : List TcEntry) : State :=
  if agent < 640 then modCore s agent (fun c => { c with tc := l })
  else if agent < 648 then modHub s (fun h => { h with ctrlTc := tset h.ctrlTc (agent - 640) l })
  else if agent < 664 then modEngine s (agent - 648) (fun x => { x with tc := l })
  else modPort s (agent - 664) (fun p => { p with tc := l })

/-- A leaf as a cache holds it, for a colony and instar. -/
def leafEntry (p : Pte) (colony instar : Nat) : TcEntry := ⟨colony, instar, p.va, p.size, p.dpa, p.r, p.w, p.i⟩

/-- A leaf enters an agent's translation cache (R296). -/
def fillTc (s : State) (agent : Nat) (e : TcEntry) : State := setTc s agent (cacheInsert 64 (agentTc s agent) e)

/- The walker of a die (R285, R296, R309). -/

/-- The die whose walker serves an agent (R296); a hub agent's by the die of the address's set, die 0's where no leaf gives
one (log entry 21). -/
def walkerDie (agent : Nat) (leaf : Option Pte) : Nat :=
  if agent < 640 then agent / 160
  else if 664 ≤ agent then (agent - 664) / 4
  else match leaf with
    | some p => if setOf p.dpa / 8 % 2 = 0 then 0 else 1
    | none => 0

/-- The bytes of address that an entry of a walker cache covers. -/
def WalkEntry.span (e : WalkEntry) : Nat :=
  match e.leaf with
  | some p => pageBytes p.size
  | none => if e.level = 2 then 2 ^ 30 else 2 ^ 21

/-- A colony's entry of a walker cache covers an address. -/
def WalkEntry.covers (e : WalkEntry) (colony va : Nat) : Bool :=
  e.colony == colony && decide (e.va ≤ va) && decide (va < e.va + e.span)

/-- The set of an 8-way walker cache that an entry falls in: the number of its span modulo 512 (DESIGN CHOICE, log entry 16). -/
def WalkEntry.set (e : WalkEntry) : Nat := e.va / e.span % 512

/-- An entry joins a walker cache; the oldest of a full set leaves (log entry 16). -/
def walkInsert (l : List WalkEntry) (e : WalkEntry) : List WalkEntry :=
  let rest := l.filter (fun x => !(x.colony == e.colony && x.level == e.level && x.va == e.va))
  let mates := rest.filter (fun x => x.set == e.set)
  (if mates.length < 8 then rest else match mates with | v :: _ => rest.erase v | [] => rest) ++ [e]

/-- The pointer entry of a level that covers an address. -/
def pointerEntry (colony level va : Nat) : WalkEntry :=
  let span := if level = 2 then 2 ^ 30 else 2 ^ 21
  { colony := colony, level := level, va := va / span * span }

/-- A walker cache holds the pointer entry of a level for an address. -/
def hasPointer (l : List WalkEntry) (colony level va : Nat) : Bool :=
  l.any (fun e => e.leaf.isNone && e.level == level && e.covers colony va)

/-- The leaf that a walker cache holds for an address. -/
def walkerLeaf (l : List WalkEntry) (colony va : Nat) : Option Pte :=
  (l.find? (fun e => e.leaf.isSome && e.covers colony va)).bind (fun e => e.leaf)

/-- The level whose table holds a leaf of a size (R285). -/
def leafLevel (size : Nat) : Nat := if size = 2 then 2 else if size = 1 then 3 else 4

/-- The last table level that a walk of an address reads: its leaf's, or that of the invalid entry (R285, R299). -/
def walkEnd (c : Colony) (va : Nat) : Nat :=
  match leafFor c.ptes va with
  | some p => leafLevel p.size
  | none => missLevel c va

/-- The first table level that a walk reads: after the deepest pointer entry that the walker cache holds, else level 2, the root
standing in hub SRAM (R285, R296). -/
def walkFrom (l : List WalkEntry) (colony va : Nat) : Nat :=
  if hasPointer l colony 3 va then 4 else if hasPointer l colony 2 va then 3 else 2

/-- The index within its table of the entry for an address (R285). -/
def entryIndex (level va : Nat) : Nat :=
  if level = 2 then va / 2 ^ 30 % 512 else if level = 3 then va / 2 ^ 21 % 512 else va / 2 ^ 16 % 32

/-- The address, in a table frame, of the entry of a level for an address (R285). -/
def entryAt (c : Colony) (level va : Nat) : Option Nat :=
  c.tables.findSome? (fun f => (f.2.find? (fun x => x.2.1 == level && x.2.2 == tableIndex level va)).map
    (fun x => f.1 + 256 * x.1 + 8 * entryIndex level va))

/-- A walker reads a table entry (R287, R296): the line is looked up at its slice, in the class of the request that missed (R248). -/
def readEntry (cls : Nat) (c : Colony) (va : Nat) (s : State) (level : Nat) : State :=
  match entryAt c level va with
  | some fa => sliceTouch s cls (channelOf fa) (chanOff (lineBase fa)) false
  | none => s

/-- A full or partial walk (R296, R309): its table entries read, its valid pointer entries and its leaf cached. -/
def walkTables (s : State) (die cls colony va : Nat) : State :=
  let c := colAt s colony
  let first := walkFrom (meshAt s die).wcache colony va
  let last := walkEnd c va
  let s1 := (([2, 3, 4] : List Nat).filter (fun l => decide (first ≤ l) && decide (l ≤ last))).foldl (readEntry cls c va) s
  let pointers := (([2, 3] : List Nat).filter (fun l => decide (first ≤ l) && decide (l < last))).map (fun l => pointerEntry colony l va)
  let leaf := match leafFor c.ptes va with
    | some p => [({ colony := colony, level := leafLevel p.size, va := p.va, leaf := some p } : WalkEntry)]
    | none => []
  modMesh s1 die (fun m => { m with walks := wrapAdd 64 m.walks 1, wcache := (pointers ++ leaf).foldl walkInsert m.wcache })

/-- A miss of an agent's translation cache at its walker (R296): the leaf that the walker cache holds, else a walk. -/
def walkFor (s : State) (agent cls colony va : Nat) : State × Option Pte :=
  let leaf := leafFor (colAt s colony).ptes va
  let die := walkerDie agent leaf
  match walkerLeaf (meshAt s die).wcache colony va with
  | some p => (s, some p)
  | none => (walkTables s die cls colony va, leaf)

/-- A parity error in the walker cache (R296): the entry that a walk of the address would use, its leaf or its deepest pointer, is
invalidated and counted; the walk then reads it again. -/
def walkerParity (s : State) (die colony va : Nat) : State :=
  let m := meshAt s die
  let mine := m.wcache.filter (fun e => e.covers colony va)
  let used := match mine.find? (fun e => e.leaf.isSome) with
    | some e => some e
    | none => match mine.find? (fun e => e.level == 3) with
      | some e => some e
      | none => mine.head?
  match used with
  | some e => modMesh s die (fun x => { x with wcache := x.wcache.erase e, wparity := satInc 32 x.wparity })
  | none => s

/-- A leaf that has no right for an access is walked again once (R297): past the walker cache's leaf, and the fresh leaf replaces
the cached ones. -/
def rewalk (s : State) (agent cls colony va : Nat) (acc : Access) : State :=
  match tcHit (agentTc s agent) colony (stampOf s colony) va with
  | none => s
  | some e =>
    if permits e.r e.w e.i acc then s
    else
      let leaf := leafFor (colAt s colony).ptes va
      let die := walkerDie agent leaf
      let s1 := modMesh s die (fun m => { m with wcache := m.wcache.filter (fun x => x.leaf.isNone || !x.covers colony va) })
      let s2 := walkTables s1 die cls colony va
      match leaf with
      | some p => fillTc s2 agent (leafEntry p colony (stampOf s colony))
      | none => s2

/- Faults (R299, R300). -/

/-- The agent waits on an open record: it has at most one fault outstanding (R299). -/
def agentWaits (s : State) (agent : Nat) : Bool := s.flt.recs.any (fun e => e.2.xlt && e.2.st == .opened && e.2.waiters.contains agent)

/-- A faulting agent stalls, with a record or without one, and issues nothing further (R299, R300). -/
def agentHalted (s : State) (agent : Nat) : Bool := agentWaits s agent || s.cols.any (fun e => e.2.stalled.contains agent)

/- Bonor's own accesses (R248, R284, R296). -/

/-- The agent whose translation cache Bonor's accesses go through: the lowest-numbered active control core (DESIGN CHOICE, log
entry 113). -/
def bonorAgent (s : State) : Nat := 640 + (((List.range 8).find? (fun n => ctrlAt s n == .active)).getD 0)

/-- An agent translates an address without waiting for a row of its own (R296, R297): its cache and its walker see it. -/
def noteWalk (s : State) (agent cls colony va : Nat) (acc : Access) : State :=
  let s0 := rewalk s agent cls colony va acc
  match tcHit (agentTc s0 agent) colony (stampOf s0 colony) va with
  | some _ => s0
  | none => match walkFor s0 agent cls colony va with
    | (t, some p) => fillTc t agent (leafEntry p colony (stampOf t colony))
    | (t, none) => t

/-- An agent's reads of the lines from an address on, as its translation cache, its walker and the slices see them (R229, R248,
R296, R297). -/
def noteLines (agent cls colony : Nat) (acc : Access) (s : State) : Nat → Nat → State
  | _, 0 => s
  | va, k + 1 =>
    let s1 := noteWalk s agent cls colony va acc
    let s2 := match walk (colAt s1 colony) va acc with
      | .ok dpa _ => let fa := frameOf (colAt s1 colony) (lineBase dpa); sliceTouch s1 cls (channelOf fa) (chanOff (lineBase fa)) false
      | _ => s1
    noteLines agent cls colony acc s2 (va + 64) k

/-- The class of a read that Bonor makes for a command (R248). -/
def ctrlClass (s : State) (c : Cmd) : Nat :=
  if c.urgent then 0 else if (colAt s c.colony).classMode then c.label else (colAt s c.colony).mapCtrl

/-- Bonor reads colony memory for a command (R248, R296): what its control core, the walker and the slices see of it. DESIGN CHOICE
(log entry 113): the lines are not kept in the control core's cache. -/
def noteRead (s : State) (c : Cmd) (va len : Nat) (acc : Access) : State :=
  noteLines (bonorAgent s) (ctrlClass s c) c.colony acc s (lineBase va) ((va % 64 + len + 63) / 64)

end Sys2Proof.Machine
end

