-- ==== Sys2Proof/Machine/Units.lean ====
section
/-! DEFINITION. What happens to units and attempts as wholes: ending and killing commands (R155, R156, R175 to R177), the
core kill and wipe (R33, R34, R36, R37), peer aborts (R363, R364, R424), the diagnostic area (R422), fencing of each
kind of unit, quarantine and the device stop (R417, R421, R425, R426). -/

namespace Sys2Proof.Machine

/-- The device serves commands: it is RUNNING, out of reset, and no DEVICE fault has stopped it (R425, R426, R468). -/
def serving (s : State) : Bool := s.boot.stage == .running && !s.boot.inReset && !s.flt.fatal

/- The end of a command. -/

/-- Shadow frames as runs, for their return to the pool. -/
def Shadow.run (sh : Shadow) : Frames := { colony := 0, start := sh.frame, size := sh.size }

/-- What a command held goes to be returned (R176): bound frames and reserve; its flags go with its outputs (R51). -/
def Cmd.discard (c : Cmd) : Cmd :=
  { c with low := false, high := false, returning := c.returning ++ (c.shadows.map Shadow.run ++ c.reserve).map (fun f => ⟨f, c.attempts, none⟩), shadows := [], reserve := [], buffer := [], scratch := [] }

/-- An agent no longer waits on any translation record (R301, R303). -/
def leaveWaiters (s : State) (agent : Nat) : State :=
  { s with
    flt := { s.flt with recs := s.flt.recs.map (fun e =>
      if e.2.xlt && e.2.st == .opened then (e.1, { e.2 with waiters := e.2.waiters.filter (fun a => a != agent) }) else e) }
    cols := s.cols.map (fun e => (e.1, { e.2 with stalled := e.2.stalled.filter (fun a => a != agent) })) }

/-- Copy engines leave a command (R175). -/
def freeEngines (s : State) (id : Nat) : State :=
  (List.range 16).foldl (fun t e =>
    if (engineAt t e).cmd == some id then modEngine (leaveWaiters (killCache t (648 + e)) (648 + e)) e (fun x => { x with cmd := none, want := none }) else t) s

/-- Remote requests are finished: the generation that issued each counts one less (R197). -/
def finishReqs (s : State) (l : List FabReq) : State := l.foldl (fun t r => inflightDec t r.colony r.instar) s

/-- Requests outstanding at port engines go on without their command: their replies are awaited, and do nothing (R205, R212). -/
def drainReqs (s : State) (p : Nat → FabReq → Bool) : State :=
  { s with ports := s.ports.map (fun e => (e.1, { e.2 with
      drain := e.2.drain ++ e.2.reqs.filter (p e.1), reqs := e.2.reqs.filter (fun r => !p e.1 r) })) }

/-- The requests that a port still drains are squashed: counted in COL.STALE, their tags held out of reuse (R197, R205, R423). -/
def squashDrain (s : State) (n : Nat) (p : FabReq → Bool) : State :=
  let gone := (portAt s n).drain.filter p
  let s1 := finishReqs (modPort s n (fun q => { q with
    drain := q.drain.filter (fun r => !p r), heldTags := q.heldTags ++ gone.map (fun r => r.tag) })) gone
  gone.foldl (fun t r => countStale t r.colony) s1

/-- Port-engine requests of a command end; their tags are held out of reuse (R423). -/
def endReqs (s : State) (id : Nat) : State :=
  let gone := s.ports.flatMap (fun e => e.2.reqs.filter (fun r => r.cmd == id))
  let s := (s.ports.filter (fun e => e.2.want.any (fun w => w.2.2 == id))).foldl (fun t e => leaveWaiters t (664 + e.1)) s
  finishReqs { s with ports := s.ports.map (fun e =>
      (e.1, { e.2 with
        heldTags := e.2.heldTags ++ (e.2.reqs.filter (fun r => r.cmd == id)).map (fun r => r.tag)
        want := e.2.want.filter (fun w => w.2.2 != id)
        reqs := e.2.reqs.filter (fun r => r.cmd != id) })) } gone

/-- The record open for a command's fault closes when the command has ended or is queued for its rerun (R410). -/
def closeCmdRec (s : State) (c : Cmd) : State :=
  match c.faultId with
  | some i => modRec s i (fun r => if r.st == .opened && r.severity == 1 && !r.xlt then { r with st := .closed } else r)
  | none => s

/-- A command takes its place in the order in which commands finish (R154). -/
def stampFin (s : State) (id : Nat) : State :=
  modCmd (modHub s (fun h => { h with finished := h.finished + 1 })) id (fun c => { c with fin := s.hub.finished })

/-- A command has its final status: outputs discarded unless it completed, its record due (R154, R155). -/
def endOne (s : State) (id status detail result : Nat) : State :=
  match cmdAt s id with
  | none => s
  | some c =>
    if c.finished then s
    else
      let c1 := if status = 0 then c else c.discard
      let s1 := setCmd (freeEngines (endReqs s id) id) id
        { c1 with phase := .done, status := status, detail := detail, result := result, engines := [] }
      closeCmdRec (stampFin s1 id) c

/-- A command ends (R155); a COMMIT or ABANDON that waited for it ends with it (R159): an ABANDON with OK, a COMMIT with
NOT_PERMITTED, whose DETAIL is the status of a deferred target. DESIGN CHOICE (log entry 101): a target that is not deferred is
no longer eligible once it has ended, so that its COMMIT ends as one without a match, with DETAIL 0 (R145). -/
def endCmd (s : State) (id status detail result : Nat) : State :=
  match cmdAt s id with
  | none => s
  | some c =>
    let s1 := endOne s id status detail result
    if c.finished then s
    else match c.claimedBy with
    | none => s1
    | some k => match cmdAt s1 k with
      | none => s1
      | some b =>
        if b.op = 0x12 then endOne (modCmd s1 k (fun x => { x with attempts := 1 })) k 0 0 0
        else endOne (modCmd (modCmd s1 id (fun x => { x with claimedBy := none })) k (fun x => { x with attempts := 1 })) k 0x0B (if c.defer then status else 0) 0

/-- A command carried out directly completes OK (R153: one attempt). -/
def completeOk (s : State) (id result : Nat) : State :=
  endCmd (modCmd s id (fun c => { c with attempts := 1 })) id 0 0 result

/-- A command carried out directly has one attempt once it starts; another has those that it began (R153). -/
def Cmd.asStarted (c : Cmd) : Cmd := { c with attempts := if c.attempted then c.attempts else max 1 c.attempts }

/-- A command that has started, or is looked at for its start, ends with a status (R153). -/
def refuseCmd (s : State) (id status detail result : Nat) : State :=
  endCmd (modCmd s id Cmd.asStarted) id status detail result

/-- A command whose record is written and that has no frame left to return leaves State. -/
def leaveTracker (s : State) (id : Nat) : State :=
  match cmdAt s id with
  | some c => if c.phase == .written && c.returning.isEmpty && !c.unsettled then { s with cmds := tdel s.cmds id } else s
  | none => s

/- The kill of a core (R33, R34, R36). -/

/-- Core time in ns since a tick: SYSREF periods of 6.4 ns (R190, R447). -/
def nsSince (s : State) (tick : Nat) : Nat := (s.ticks - tick) * 32 / 5

/-- The kill epoch advances, unless tags of its next value are still out (R33). -/
def advanceEpoch (c : Core) : Core :=
  let next := wrapAdd 4 c.epoch 1
  if c.tags.any (fun t => t.epoch == next) then { c with epochHeld := true } else { c with epoch := next, epochHeld := false }

/-- Steps 2 to 4 of R36 on one core, and the start of step 5; the core is KILLED until its wipe ends. -/
def coreKill (s : State) (n : Nat) : State :=
  let s1 := leaveWaiters (killCache s n) n
  modCore s1 n (fun c => { advanceEpoch c with
    st := .killed, wipeBusy := true, mq := [], vq := [], dq := [], groups := [], tc := []
    stall := .none, want := none, dmaWant := none, cmd := none, ended := false })

/-- An attempt's cores that still run (R175). -/
def runningCores (s : State) (id : Nat) (c : Cmd) : List Nat :=
  c.cores.filter (fun n => (coreAt s n).st == .running && (coreAt s n).cmd == some id)

/-- An attempt is charged, its core time and what it has counted: to the colony, or to colony 0 (R190, R191). -/
def chargeAttempt (s : State) (id : Nat) (toColony : Bool) : State :=
  match cmdAt s id with
  | none => s
  | some c =>
    let s1 := modAcct s (if toColony then c.colony else 0) (fun a => a.plus { c.use with coreNs := c.attemptNs })
    setCmd s1 id { c with attemptNs := 0, use := {}, coreNs := if toColony then c.coreNs + c.attemptNs else c.coreNs }

/-- The ring of a command, as the turn of a sliced colony names it. -/
def ringOf (c : Cmd) : Nat := 16 * c.page + c.ring

/-- The overrun of a non-preemptible attempt that ends (R183): from the end of its ring's turn, however it ends. -/
def noteOverrun (s : State) (id : Nat) : State :=
  match cmdAt s id with
  | none => s
  | some c => match c.turnOver with
    | some t => setCmd (modCol s c.colony (fun x => { x with overrun := tset x.overrun (ringOf c) (tget 0 x.overrun (ringOf c) + (s.ticks - t)) }))
        id { c with turnOver := none }
    | none => s

/-- The status of a held LAUNCH's COMMIT where its commit fails: the held LAUNCH has its record already (R154), so it
only gives its outputs up, and the COMMIT ends with the status. -/
def failHeld (s : State) (id status : Nat) : State :=
  match cmdAt s id with
  | none => s
  | some c =>
    let s1 := leaveTracker (setCmd s id { c.discard with phase := if c.recorded then .written else .done, claimedBy := none }) id
    match c.claimedBy with
    | some k => endOne (modCmd s1 k (fun x => { x with attempts := 1 })) k status 0 0
    | none => s1

/-- The kill of an attempt is complete: the command is queued for its rerun, or ends (R156, R175 to R177). -/
def finishKill (s : State) (id : Nat) : State :=
  match cmdAt s id with
  | none => s
  | some c =>
    match c.after with
    | some st => endCmd (setCmd s id { c with after := none, killing := [] }) id st c.detail c.result
    | none =>
      closeCmdRec (setCmd s id { c.discard with phase := .fetched, killing := [], cores := [], n := 0, low := false, high := false, moved := 0, plan := [] }) c

/-- Bonor kills an attempt (R175): its cores, its copy engines and its remote requests stop; `after` is what follows,
a rerun for none or the final status; `toColony` says who is charged (R190). -/
def killAttempt (s : State) (id : Nat) (after : Option Nat) (toColony : Bool) : State :=
  match cmdAt s id with
  | none => s
  | some c =>
    let run := runningCores s id c
    let ns := c.attemptNs + run.length * nsSince s c.startTick
    let s0 := { s with signals := s.signals.filter (fun m => m.cmd != id) }
    let s1 := setCmd s0 id { c with attemptNs := ns, phase := .killing, killing := run, after := after, engines := [] }
    let s2 := run.foldl coreKill (chargeAttempt (noteOverrun s1 id) id toColony)
    let s3 := endReqs (freeEngines s2 id) id
    if run.isEmpty then finishKill s3 id else s3

/-- A command is ended at once whatever it is doing, unless it has its status already or publishes (R162, R364). -/
def abortCmd (s : State) (id status : Nat) : State :=
  match cmdAt s id with
  | none => s
  | some c =>
    match c.phase with
    | .done => s
    | .written => s
    | .held => s
    | .running => killAttempt s id (some status) true
    | .killing => setCmd s id { c with after := if c.after.isSome then c.after else some status }
    | _ => if c.held then failHeld s id status else endCmd s id status 0 c.failResult

/-- A kill for pre-emption, reclaim, recomposition or the end of a turn (R156): rerun by Bonor, or
KILLED_RERUNNABLE with HOST_RERUN set; the killed attempt is charged to colony 0 (R190). -/
def preempt (s : State) (id : Nat) : State :=
  match cmdAt s id with
  | none => s
  | some c => killAttempt s id (if c.hostRerun then some 1 else none) false

/- Peer aborts (R363, R364, R424). -/

/-- The devices that the windows in force admit to a colony, each with its window's job group (R350, R353). -/
def windowPeers (s : State) (colony : Nat) : List (Nat × Nat) :=
  (s.fab.windows.filter (fun e => e.2.valid && e.2.colony == colony)).map (fun e => (e.2.sfaddr, e.2.job))

/-- The peer set of a colony (R353): what it has named since its BIND, and what its windows admit. -/
def peerSet (s : State) (colony : Nat) : List (Nat × Nat) := (colAt s colony).peers ++ windowPeers s colony

/-- The peers of a colony that were named for a job group (R353, R364). -/
def peersFor (s : State) (colony job : Nat) : List Nat := sortNat (((peerSet s colony).filter (fun p => p.2 == job)).map (fun p => p.1))

/-- Every command of a job group in some colonies that holds a tracker entry ends PEER_ABORT (R364 step 1). -/
def endJob (s : State) (cols : List Nat) (job except : Nat) (faultId : Option Nat) : State :=
  s.cmds.foldl (fun t e =>
    match cmdAt t e.1 with
    | none => t
    | some c =>
      if e.1 != except && c.job == job && cols.contains c.colony && !c.finished && c.phase != .held then
        abortCmd (setCmd t e.1 { c with faultId := if faultId.isSome then faultId else c.faultId }) e.1 7
      else t) s

/-- A fresh abort of a job group from one colony (R363, R364): the group is marked, its peers are told by a device message, and the other
commands of the group end (R424). -/
def raiseAbort (s : State) (colony job status except : Nat) (faultId : Option Nat) : State :=
  if job = 0 then s
  else
    let aseq := s.fab.aseq
    let s1 := { s with fab := { s.fab with aseq := wrapAdd 32 aseq 1, raised := wrapAdd 32 s.fab.raised 1 } }
    let s2 := modCol s1 colony (fun x => { x with aborted := insertNew x.aborted job })
    let s3 := (peersFor s colony job).foldl (fun t d => sendMsg t 2 d 0 0 job [aseq, status, s.fab.faddr] none) s2
    let cols := sortNat (colony :: (s.cols.filter (fun e => (peerSet s e.1).any (fun p => p.2 == job))).map (fun e => e.1))
    endJob s3 cols job except faultId

/-- A command meets a fault (R156, R190, R363): `rerunnable` marks the statuses of R156's second row. -/
def faultCmd (s : State) (id status : Nat) (rec : Option Nat) (rerunnable : Bool) : State :=
  match cmdAt s id with
  | none => s
  | some c =>
    if c.finished then s
    else
      let again := rerunnable && c.job == 0 && decide (c.faultRuns + 1 < 3)
      let c1 := { c with faultId := if rec.isSome then rec else c.faultId
                         faultRuns := if rerunnable then c.faultRuns + 1 else c.faultRuns
                         recovered := c.recovered || again }
      let s1 := setCmd s id c1
      let s2 := if c.phase = .running || c.phase = .killing then
          (if c.phase = .killing then modCmd s1 id (fun x => { x with after := if again then x.after else some status })
           else killAttempt s1 id (if again then none else some status) (status = 8 || !again))
        else if again then finishKill (setCmd s1 id { c1 with after := none }) id
        else endCmd s1 id status 0 c1.failResult
      if c.job = 0 then s2 else raiseAbort s2 c.colony c.job status id rec

/-- A kill for recomposition (R156, R205, R363): as `preempt`, and a command of a job group aborts its group, itself
included (log entry 20). -/
def preemptMove (s : State) (id : Nat) : State :=
  match cmdAt s id with
  | none => s
  | some c => raiseAbort (preempt s id) c.colony c.job 7 s.nextCmd none

/-- A fault of severity COMMAND found on a command (R410, R414, R494): its record, then its reaction. -/
def commandFault (s : State) (id cause status : Nat) (unit : UnitRef) (rank addr addrKind : Nat) (word : Word)
    (rerunnable : Bool) : State :=
  let colony := (cmdAt s id).elim 0 (fun c => c.colony)
  let r := nameCmd s { blankRec cause 1 unit colony with
    status := status, rank := rank, addr := addr, addrKind := addrKind, word := word } id
  let (s1, i) := recordFault s r
  faultCmd s1 id status i rerunnable

/- The diagnostic area (R422). -/

/-- A line of the diagnostic area written through its home directory (R269, R422). -/
def diagLine (s : State) (colony va : Nat) (data : List Byte) : State :=
  let c := colAt s colony
  match walk c va .write with
  | .ok dpa _ =>
    let fa := frameOf c dpa
    dirRequest s 648 (channelOf fa) (chanOff (lineBase fa)) .ncw (padTo 64 data)
  | _ => s

def diagLines (s : State) (colony va : Nat) : Nat → List Byte → State
  | 0, _ => s
  | k + 1, d => diagLines (diagLine s colony va (d.take 64)) colony (va + 64) k (d.drop 64)

/-- The area can be written: it exists, its pages are mapped with R and W, the colony is not in reset or teardown. -/
def diagUsable (c : Colony) (va len : Nat) : Bool :=
  decide (0 < c.diagSlots) && decide (0 < c.diagVa) && c.st == .active &&
  (List.range (len / 65536 + 1)).all (fun i =>
    match walk c (va + 65536 * i) .write, walk c (va + 65536 * i) .read with
    | .ok _ _, .ok _ _ => true
    | _, _ => false)

/-- A sample or lost-line list takes the next slot and directory entry (R422); the record's DIAG names the entry. -/
def diagWrite (s : State) (colony : Nat) (rec : Option Nat) (kind rank core : Nat) (offsets : List Nat) (data : List Byte) : State :=
  match rec with
  | none => s
  | some i =>
    match tfind s.flt.recs i with
    | none => s
    | some r =>
      let c := colAt s colony
      let base := c.diagVa * 65536
      let slot := c.diagSlot % c.diagSlots
      let slotVa := base + 65536 * (slot + 1)
      if !diagUsable c base 0 || !diagUsable c slotVa 0 then s
      else
        let s1 := diagLines s colony slotVa ((data.length + 63) / 64) data
        let e := c.diagDir % 1023
        let entry := leBytes 4 r.fseq ++ leBytes 2 i ++ leBytes 1 kind ++ zeros 1 ++ leBytes 2 rank ++ leBytes 2 core ++
          leBytes 4 r.cmdTag ++ leBytes 1 r.cmdRing ++ zeros 1 ++ leBytes 2 slot ++ leBytes 4 data.length ++
          (padTo 16 (offsets.flatMap (leBytes 4))) ++ zeros 24
        let s2 := diagLine s1 colony (base + 64 * e) entry
        let s3 := modCol s2 colony (fun x => { x with diagSlot := (slot + 1) % c.diagSlots, diagDir := (e + 1) % 1023 })
        modRec s3 i (fun x => { x with diag := e })

/- Fencing (R34, R417). -/

/-- A named core, channel or port leaves the claim of a composition command when it is fenced (R211): the command will end
UNIT_FENCED. -/
def noteTransitFence (s : State) (claim : Option Nat) (u : UnitRef) : State :=
  match claim with
  | some id => modCmd s id (fun c =>
      { c with units := c.units.filter (fun x => x != u), status := 9
               transitFenced := match u with | .core n => n :: c.transitFenced | _ => c.transitFenced })
  | none => s

/-- The lines that a sweep has lost go to the record of the fence (R280 step 5, R281, R282): their count, the DPA of the first, and
the list in the diagnostic area. -/
def noteLost (s : State) (colony : Nat) (rec : Option Nat) (rank core : Nat) (lost : List Nat) : State :=
  match rec with
  | none => s
  | some i =>
    if lost.isEmpty then s
    else diagWrite (modRec s i (fun r => { r with
        lost := (r.lost + lost.length) % 65536, addr := if r.lost = 0 then lost.headD 0 else r.addr, addrKind := 2 }))
      colony rec 2 rank core [] (lost.flatMap (leBytes 8))

/-- Core n is fenced (R34, R35): isolated, swept from the directories, and its command ended with `status` or rerun;
`rec` is the record of the fault that fences it. -/
def fenceCore (s : State) (n status : Nat) (rec : Option Nat) : State :=
  let c := coreAt s n
  if c.st == .fenced then s
  else
    let lost := lostLines s n
    let sT := match c.cmd with
      | some id => if c.st = .running then modCmd s id (fun k => { k with attemptNs := k.attemptNs + nsSince s k.startTick }) else s
      | none => s
    let s1 := setCore (leaveWaiters sT n) n { c with
      st := .fenced, replacePending := true, wipeBusy := false, mq := [], vq := [], dq := [], groups := [], tc := []
      stall := .none, want := none, dmaWant := none, cmd := none, ended := false, transit := false
      colony := if c.transit then 0 else c.colony, claim := none }
    let s2 := sexton s1 n
    let s3 := noteLost s2 c.colony rec c.rank n lost
    let s4 := noteTransitFence s3 c.claim (.core n)
    let s5 := match c.cmd with
      | some id => faultCmd s4 id status rec true
      | none => s4
    -- a kill that awaited this core goes on without it
    s5.cmds.foldl (fun t e =>
      match cmdAt t e.1 with
      | some k => if k.phase = .killing && k.killing.contains n then
          let k' := { k with killing := k.killing.filter (fun m => m != n) }
          let t1 := setCmd t e.1 k'
          if k'.killing.isEmpty then finishKill t1 e.1 else t1
        else t
      | none => t) s5

/-- A channel is fenced with its slice and controller (R211, R417); the commands that use it meet UNIT_FENCED when
they touch it (R173). -/
def fenceChannel (s : State) (n : Nat) : State :=
  let c := chanAt s n
  if c.mode == .fenced then s
  else
    let inTransit := c.mode == .transit
    let s1 := setChan s n { c with
      mode := .fenced, wipeBusy := false, rewipe := false, awaits := none, calBusy := false, retraining := false, dir := [], nacked := [], lines := [], buf := [], queue := [], urgentFirst := false
      colony := if inTransit then 0 else c.colony, claim := none }
    noteTransitFence s1 c.claim (.channel n)

/-- The port engine that works for a command on its own memory: one of the colony's ports, else Bonor itself. -/
def localEngine (s : State) (c : Cmd) : Option Nat := (colAt s c.colony).cur.ports.find? (fun n => (portAt s n).st != .fenced)

/-- The running collectives whose plan steps stand on a port engine (R357, R419). -/
def planOn (s : State) (n : Nat) : List Nat :=
  (s.cmds.filter (fun e => e.2.phase == .running && e.2.isCollective && localEngine s e.2 == some n)).map (fun e => e.1)

/-- The ports whose remote requests end with a port: itself, and members of its bond group already out of ACTIVE. -/
def goneWith (s : State) (n : Nat) : List Nat :=
  n :: (List.range 16).filter (fun m => m != n && (portAt s n).bond != 0 && (portAt s m).bond == (portAt s n).bond && (portAt s m).st != .active)

/-- Every command with a remote request outstanding on a port ends with a status and aborts its group (R336, R363). -/
def endPortCmds (s : State) (n status : Nat) (rec : Option Nat) : State :=
  let ids := sortNat ((goneWith s n).flatMap (fun m => (portAt s m).reqs.map (fun r => r.cmd)))
  ids.foldl (fun t id =>
    match cmdAt t id with
    | some c =>
      if c.finished then t
      else raiseAbort (abortCmd (setCmd t id { c with faultId := if rec.isSome then rec else c.faultId }) id status)
        c.colony c.job status id rec
    | none => t) s

/-- The remote requests of a port that has left ACTIVE (R336, R369): a bond member's stay with its engine, else their commands end;
what it still drained is squashed. -/
def closeReqs (s : State) (n status : Nat) (rec : Option Nat) (bonded : Bool) : State :=
  if bonded then squashDrain s n (fun _ => true)
  else
    let s1 := endPortCmds s n status rec
    let s2 := squashDrain (finishReqs s1 (portAt s1 n).reqs) n (fun _ => true)
    modPort s2 n (fun q => { q with reqs := [], heldTags := q.heldTags ++ q.reqs.map (fun r => r.tag) })

/-- The 32 bytes of a port event (R339). -/
def eventBytes (z : ZltDev) (p : Port) (event n detail : Nat) : List Byte :=
  let known (k : Nat) : Nat := if p.peerValid && event != 9 then k else 0
  leBytes 1 event ++ leBytes 1 (n % 16 + 128 * b2n z.evPhase) ++ zeros 2 ++ leBytes 3 (known p.peerFaddr) ++ leBytes 1 (known p.peerPort) ++
  leBytes 4 z.evSeq ++ leBytes 4 detail ++ leBytes 16 (known p.idhash)

/-- A port event (R339): its record and interrupt while the event ring is enabled; on a full ring it is counted and dropped. -/
def zltEvent (s : State) (event n detail : Nat) : State :=
  let z := s.zlt
  let slots := 2 ^ z.evLog2n
  let z1 := { z with evSeq := wrapAdd 32 z.evSeq 1 }
  if !z.evEnable then { s with zlt := z1 }
  else if (z.evTail + 1) % slots = z.evHead then { s with zlt := { z1 with evDropped := satInc 32 z.evDropped } }
  else
    let s1 := emit s (.hostWrite .pf (z.evBase * 4096 + 32 * z.evTail) (eventBytes z (portAt s n) event n detail))
    let z2 := { z1 with evTail := (z.evTail + 1) % slots, evPhase := if z.evTail + 1 = slots then !z.evPhase else z.evPhase }
    raiseMsix { s1 with zlt := z2 } .pf z.evVec

/-- A port is fenced (R314, R336, R339, R369, R417); `detail` is PORT_FENCED's: 0 host, 1 teardown, 2 fault; 3
is the write of EN = 0, which goes to DISABLED without an event. The requests of a bond member stay with its engine, unless
the engine itself is at fault. -/
def fencePortAs (s : State) (n status : Nat) (rec : Option Nat) (detail : Nat) : State :=
  let p := portAt s n
  if p.st == .disabled then s
  else if p.st == .fenced && detail != 3 then zltEvent s 8 n detail
  else
    let s0 := resendBond (if detail = 3 then s else zltEvent s 8 n detail) n
    let s1 := modPort s0 n (fun q => dropLink q (if detail = 3 then .disabled else .fenced))
    let s2 := closeReqs s1 n status rec (decide (1 < (bondMates s n).length) && detail != 2)
    let s3 := modPort s2 n (fun q => { q with
      leaving := false, rewipe := false, transit := false, colony := if q.transit then 0 else q.colony, claim := none })
    noteTransitFence s3 p.claim (.port n)

/-- A port is fenced for a fault. -/
def fencePort (s : State) (n status : Nat) (rec : Option Nat) : State := fencePortAs s n status rec 2

/-- A copy engine leaves service (R417); its command goes on with the engines left, or its attempt is rerun (R156). -/
def fenceEngine (s : State) (n : Nat) (rec : Option Nat) : State :=
  let e := engineAt s n
  let lost := lostLines s (648 + n)
  let s0 := sexton (modEngine (leaveWaiters s (648 + n)) n (fun x => { x with inService := false, cmd := none, want := none, tc := [] })) (648 + n)
  let s1 := noteLost s0 ((e.cmd.bind (cmdAt s)).elim 0 (fun c => c.colony)) rec 0 0 lost
  match e.cmd with
  | some id => faultCmd (modCmd s1 id (fun c => { c with engines := c.engines.filter (fun k => k != n) })) id 9 rec true
  | none => s1

/-- A vault slot is FAILED (R391, R417). -/
def failSlot (s : State) (n : Nat) : State := modSlot s n (fun x => { x with st := .failed, key := 0 })

/-- The control cores in a state. -/
def ctrlIn (s : State) (c : CtrlCore) : List Nat := (s.hub.ctrl.filter (fun e => e.2 == c)).map (fun e => e.1)

/-- The device stops (R425, R426): FLT.STATUS.FATAL stands, ALIVE goes low and stays, the stop cause is kept, the Zilte
transmitters fall idle, and a boot under way fails with code 0x84 (R471); State's flag keeps every engine and Bonor from doing anything more until a reset. -/
def deviceStop (s : State) (cause : Nat) : State :=
  if s.flt.fatal then s
  else
    let s0 := { s with flt := { s.flt with fatal := true, toggling := false, alive := some false, stopCause := cause }
                       mgt := { s.mgt with pending := none } }
    let s1 := if s0.boot.stage = .running then s0 else { s0 with boot := { s0.boot with stage := .failed, refuse := 0x84 } }
    let s2 := { s1 with ports := s1.ports.map (fun e => (e.1, if e.2.st == .fenced || e.2.st == .disabled then e.2 else dropLink e.2 .disabled)) }
    if s.flt.alive == some false then s2 else emit s2 (.alive false)

/-- A DEVICE fault: its record, then the stop (R410, R414). -/
def deviceFault (s : State) (cause : Nat) (unit : UnitRef) : State :=
  deviceStop (recordFault s (blankRec cause 5 unit 0)).1 cause

/-- A control core is lost (R421): fenced; a standby takes its work; with none left Bonor runs on the rest, degraded
below 6, and with no control core the device stops. -/
def loseCtrl (s : State) (n : Nat) (rec : Option Nat) : State :=
  let was := ctrlAt s n
  let s1 := noteLost (sexton (setCtrl s n .fenced) (640 + n)) 0 rec 0 0 (lostLines s (640 + n))
  let s2 := if was == .active then
      match ctrlIn s1 .standby with
      | k :: _ => setCtrl s1 k .active
      | [] => s1
    else s1
  let active := (ctrlIn s2 .active).length
  if active = 0 then deviceFault s2 0x51 (.ctrlCore n)
  else if active < 6 then { s2 with flt := { s2.flt with degraded := true } } else s2

/-- Losing this die with those already quarantined would leave a die without a path to the hub die: dies 0 and 1 join
the hub, 2 hangs on 0 and 3, 3 on 1 and 2 (R221, R417). -/
def cutsOff (gone : List Nat) : Bool :=
  let on (d : Nat) : Bool := !gone.contains d
  (on 2 && !on 0 && !(on 3 && on 1)) || (on 3 && !on 1 && !(on 2 && on 0))

/-- A die is quarantined (R417): every core, channel and port of it fenced; its confirmation is awaited. The ports of
die d are 4d to 4d + 3 (R310). -/
def quarantine (s : State) (d : Nat) (rec : Option Nat) : State :=
  if s.flt.quar.contains d then s
  else if cutsOff (d :: s.flt.quar) then deviceFault s 0x50 (.die d)
  else
    let s1 := { s with flt := { s.flt with quar := insertSorted s.flt.quar d, quarPending := tset s.flt.quarPending d 0 } }
    let s2 := (List.range 160).foldl (fun t i => fenceCore t (160 * d + i) 9 rec) s1
    let s3 := (List.range 128).foldl (fun t i => fenceChannel t (128 * d + i)) s2
    let s4 := (List.range 4).foldl (fun t i => fencePort t (4 * d + i) 0x0F rec) s3
    modDie s4 d (fun x => { x with mode := .stopped })

/-- A unit is fenced at once for a record (R410, R417); the records that name it, and the one it is fenced for, become FENCED. -/
def fenceUnit (s : State) (u : UnitRef) (status : Nat) (rec : Option Nat) : State :=
  let s1 := match u with
    | .none => s
    | .core n => fenceCore s n status rec
    | .channel n => fenceChannel s n
    | .port n => fencePort s n 0x0F rec
    | .copyEngine n => fenceEngine s n rec
    | .ctrlCore n => loseCtrl s n rec
    | .die d => quarantine s d rec
    | .slot n => failSlot s n
  let s2 := match rec with
    | some i => modRec s1 i (fun r => if r.st.live && !r.xlt then { r with st := .fenced } else r)
    | none => s1
  fencedRecs s2 u

/-- A record that names the command running on its unit, if there is one (R409). -/
def nameUnit (s : State) (r : FaultRec) : UnitRef → FaultRec
  | .core n => match (coreAt s n).cmd with
    | some id => nameCmd s { r with rank := (coreAt s n).rank } id
    | none => r
  | .copyEngine n => match (engineAt s n).cmd with
    | some id => nameCmd s r id
    | none => r
  | .port n => match (portAt s n).reqs.head? with
    | some q => nameCmd s r q.cmd
    | none => r
  | _ => r

/-- A FENCE fault on a unit: its record, which names the command that the fence ends, then the fence (R409, R410, R414). -/
def fenceFault (s : State) (cause : Nat) (u : UnitRef) (colony status : Nat) : State :=
  let (s1, i) := recordFault s (nameUnit s { blankRec cause 4 u colony with status := status } u)
  fenceUnit s1 u status i

end Sys2Proof.Machine
end

