-- ==== Sys2Proof/Machine/Operands.lean ====
section
/-! DEFINITION. Every operand form of the kernel instruction set (R70 to R72, R79 to R91, R104 to R107, R114): the
fields of a word, the registers they name, the guard, and what makes a word illegal at decode (R98). -/

namespace Sys2Proof.Machine

/- Fields of the word. -/

def opOf (w : Word) : Nat := field w 63 56
def fPN (w : Word) : Bool := bit w 55
def fPG (w : Word) : Nat := field w 54 52
def fD (w : Word) : Nat := field w 51 47
def fA (w : Word) : Nat := field w 46 42
def fB (w : Word) : Nat := field w 41 37
def fC (w : Word) : Nat := field w 36 32
def fImm (w : Word) : Nat := field w 31 0
/-- Format M: width in bytes and sign extension (R79). -/
def fWidth (w : Word) : Nat := 2 ^ field w 41 40
def fX (w : Word) : Bool := bit w 39
/-- Format P (R76). -/
def fPD (w : Word) : Nat := field w 51 49
def fIB (w : Word) : Bool := bit w 32
/-- Format L (R72). -/
def fPA (w : Word) : Nat := field w 48 46
def fPB (w : Word) : Nat := field w 45 43
/-- Format B (R77). -/
def fTgt (w : Word) : Int := sext (field w 15 0) 16
/-- Format V (R80). -/
def fStr (w : Word) : Nat := field w 41 30
def fOffV (w : Word) : Nat := field w 20 0
/-- DMA and synchronisation fields (R82, R86). -/
def fG (w : Word) : Nat := field w 50 47
def fSem (w : Word) : Nat := field w 41 38
/-- Accumulator and matrix fields (R91, R104, R106, R107). -/
def fT (w : Word) : Bool := bit w 51
def fMode (w : Word) : Nat := field w 50 49
def fFA (w : Word) : Nat := field w 50 48
def fFB (w : Word) : Nat := field w 47 45
def fRA (w : Word) : Nat := field w 44 40
def fRB (w : Word) : Nat := field w 39 35
def fRSA (w : Word) : Nat := field w 34 30
def fRSB (w : Word) : Nat := field w 29 25
def fSCA (w : Word) : Bool := bit w 24
def fSCB (w : Word) : Bool := bit w 23
def fSP (w : Word) : Bool := bit w 22
def fKB (w : Word) : Nat := field w 21 14
def fFO (w : Word) : Nat := field w 50 48
def fLAY (w : Word) : Nat := field w 47 46
def fGD (w : Word) : Bool := bit w 45
def fNR (w : Word) : Nat := field w 29 23
def fNC (w : Word) : Nat := field w 22 16
/-- Vector fields (R114). -/
def fBS (w : Word) : Bool := bit w 31
def fSub (w : Word) : Nat := field w 7 0

/- Registers (R68). -/

/-- A scalar register; s0 reads as 0. -/
def sreg (c : Core) (n : Nat) : Word := if n = 0 then 0 else tget 0 c.sregs n
/-- A scalar register written; a write to s0 is discarded. -/
def setSreg (c : Core) (n : Nat) (v : Word) : Core := if n = 0 then c else { c with sregs := tset c.sregs n v }
/-- A predicate; p0 reads as 1. -/
def pred (c : Core) (n : Nat) : Bool := decide (n = 0) || c.preds.toNat.testBit n
/-- A predicate written; a write to p0 is discarded. -/
def setPred (c : Core) (n : Nat) (v : Bool) : Core :=
  if n = 0 then c
  else { c with preds := if v then c.preds ||| (1#8 <<< n) else c.preds &&& ~~~(1#8 <<< n) }
/-- Lane i of a vector register. -/
def vlane (c : Core) (n i : Nat) : Lane := tget 0 c.vregs (256 * n + i)
/-- The 256 lanes of a vector register. -/
def vreg (c : Core) (n : Nat) : List Lane := (List.range 256).map (vlane c n)
/-- Lanes written from lane `i` on. -/
def setLanes (t : Tbl Lane) (base : Nat) : List Lane → Tbl Lane
  | [] => t
  | x :: xs => setLanes (tset t base x) (base + 1) xs
/-- A vector register written from its lane 0 on. -/
def setVreg (c : Core) (n : Nat) (l : List Lane) : Core := { c with vregs := setLanes c.vregs (256 * n) l }
/-- An accumulator tile by its T bit. -/
def tile (c : Core) (t : Bool) : Tile := if t then c.acc1 else c.acc0
def setTile (c : Core) (t : Bool) (x : Tile) : Core := if t then { c with acc1 := x } else { c with acc0 := x }
/-- A semaphore. -/
def sem (c : Core) (n : Nat) : Nat := tget 0 c.sems n
/-- Outstanding descriptors of a DMA group. -/
def group (c : Core) (n : Nat) : Nat := tget 0 c.groups n

/-- The guard (R71): p[PG] XOR PN. -/
def guardHolds (c : Core) (w : Word) : Bool := pred c (fPG w) != fPN w

/-- The sign-extended immediate and byte offset (R75, R79). -/
def immS (w : Word) : Int := sext (fImm w) 32
/-- An effective address of format M, computed in 64 bits (R79, R81). -/
def effAddr (c : Core) (w : Word) : Nat := (sreg c (fA w) + toWord (immS w)).toNat
/-- A descriptor's offset (R82). -/
def descAddr (c : Core) (w : Word) : Nat := (sreg c (fA w) + toWord (immS w)).toNat
/-- The base offset of format V (R80). -/
def vecBase (c : Core) (w : Word) : Nat := (sreg c (fA w) + BitVec.ofNat 64 (fOffV w)).toNat
/-- The second operand of a compare (R76). -/
def cmpB (c : Core) (w : Word) : Word := if fIB w then toWord (immS w) else sreg c (fB w)
/-- A scratchpad offset operand: s[r][20:0] (R104 to R107, R120). -/
def spOperand (x : Word) : Nat := x.toNat % 2 ^ 21

/- Legality at decode (R98, R105, R109, R114, R115, R118, R122). -/

def isZeroBits (w : Word) (hi lo : Nat) : Bool := field w hi lo == 0

/-- Formats whose fields are all 0. -/
def bareOk (w : Word) : Bool := isZeroBits w 51 0
def formatAOk (w : Word) : Bool := isZeroBits w 36 0
def formatIOk (w : Word) : Bool := isZeroBits w 41 32
def formatMOk (w : Word) : Bool := isZeroBits w 38 32
def formatPOk (w : Word) : Bool :=
  isZeroBits w 48 47 && isZeroBits w 36 33 && (if fIB w then isZeroBits w 41 37 else isZeroBits w 31 0)
def formatLOk (w : Word) : Bool := isZeroBits w 42 0
def formatBOk (w : Word) : Bool := isZeroBits w 41 16
def formatVOk (w : Word) : Bool := isZeroBits w 29 21 && !isZeroBits w 41 30

/-- Rate class of an operand format (R103): 0 for 4-bit, 1 for 8-bit, 2 for 16-bit, 3 for the reserved code. -/
def rateClass (f : Nat) : Nat := if f = 0 then 0 else if f < 5 then 1 else if f < 7 then 2 else 3

/-- MM's conditions (R105). -/
def mmOk (w : Word) : Bool :=
  isZeroBits w 13 0 && fFA w != 7 && fFB w != 7 && rateClass (fFA w) == rateClass (fFB w) &&
  !(fSCA w && rateClass (fFA w) == 2) && !(fSCB w && rateClass (fFB w) == 2) &&
  !(fSP w && !(fFB w == 0 || fFB w == 2 || fFB w == 3)) &&
  (fSCA w || fRSA w == 0) && (fSCB w || fRSB w == 0)

/-- Block-scaled output formats (R107). -/
def scaledOut (w : Word) : Bool := fFO w == 5 || fFO w == 6

/-- ACC.WR's conditions (R107, R109). -/
def accWrOk (w : Word) : Bool :=
  let groups (n : Nat) : Bool := (n + 1) % 32 == 0
  isZeroBits w 15 0 && fLAY w != 3 &&
  !(fLAY w != 0 && (fFO w == 0 || fFO w == 7 || fNR w != 127 || fNC w != 127)) &&
  !(fGD w && !(fLAY w == 0 && scaledOut w)) &&
  !(scaledOut w && fLAY w == 0 && !(if fGD w then groups (fNR w) else groups (fNC w))) &&
  (fLAY w == 0 || fRB w == 0) && (scaledOut w || fRSA w == 0)

/-- VCVT's selector (R118): the number of Q values, 0 for a reserved conversion. -/
def cvtQs (sub : Nat) : Nat :=
  if [0x01, 0x02, 0x11, 0x12].contains sub then 2
  else if [0x03, 0x04, 0x06, 0x13, 0x14, 0x16].contains sub then 4
  else if [0x05, 0x15].contains sub then 1
  else 0

/-- Which fields a vector opcode uses (R114, R115): A, B as a vector, C, D. -/
def vecUses (op : Nat) : Bool × Bool × Bool × Bool :=
  if op = 0xC3 || op = 0xC9 then (true, true, true, true)
  else if [0xC6, 0xC7, 0xCE, 0xCF, 0xD0, 0xD8, 0xDA, 0xDB].contains op then (true, false, false, true)
  else if op = 0xDC then (true, false, false, false)
  else if op = 0xDD then (false, false, false, true)
  else (true, true, false, true)

/-- The sub-operation field is in range (R115, R117, R118, R120). -/
def subOk (op sub : Nat) : Bool :=
  if op = 0xC8 then decide (sub ≤ 3)
  else if op = 0xCE || op = 0xCF then decide (sub < 32)
  else if op = 0xD0 then decide (sub ≤ 6)
  else if op = 0xD8 then decide (sub / 64 < cvtQs (sub % 64))
  else if op = 0xDA || op = 0xDB then true
  else if op = 0xDC then decide (sub ≤ 1)
  else sub == 0

/-- A vector word's reserved and unused fields (R114, R122). -/
def vecOk (w : Word) : Bool :=
  let op := opOf w
  let (_, b, c, d) := vecUses op
  let scalars := op == 0xDC || op == 0xDD
  isZeroBits w 30 8 && subOk op (fSub w) &&
  (d || isZeroBits w 51 47) &&
  (b || scalars || (isZeroBits w 41 37 && !fBS w)) && (!scalars || !fBS w) &&
  (c || isZeroBits w 36 32)

/-- The fields that the word's opcode reserves or requires to be 0 are 0 (R98). -/
def fieldsOk (w : Word) : Bool :=
  let op := opOf w
  if op = 0x01 || op = 0x02 || op = 0x52 || op = 0x62 || op = 0x72 then bareOk w
  else if op = 0x03 then formatBOk w && isZeroBits w 51 42
  else if op = 0x04 then formatBOk w && isZeroBits w 46 42
  else if op = 0x05 then formatBOk w && isZeroBits w 51 47 && isZeroBits w 15 0
  else if op = 0x1E || op = 0x1F then formatAOk w && isZeroBits w 41 37
  else if 0x10 ≤ op && op ≤ 0x1D then formatAOk w
  else if op = 0x25 || op = 0x26 || op = 0x27 then formatIOk w && isZeroBits w 31 6
  else if op = 0x2E || op = 0x2F then formatIOk w && isZeroBits w 46 42
  else if 0x20 ≤ op && op ≤ 0x2D then formatIOk w
  else if 0x30 ≤ op && op ≤ 0x35 then formatPOk w
  else if 0x38 ≤ op && op ≤ 0x3B then formatLOk w
  else if op = 0x40 || op = 0x50 then formatMOk w
  else if op = 0x41 || op = 0x51 then formatMOk w && !fX w
  else if op = 0x44 || op = 0x45 then formatVOk w
  else if op = 0x60 then !bit w 51 && isZeroBits w 41 32
  else if op = 0x61 then !bit w 51 && isZeroBits w 46 32
  else if op = 0x70 then isZeroBits w 51 47 && isZeroBits w 37 32
  else if op = 0x71 then isZeroBits w 51 42 && isZeroBits w 37 32
  else if op = 0x73 then isZeroBits w 46 42 && isZeroBits w 37 0
  else if op = 0x80 then formatIOk w && isZeroBits w 46 42 && decide (fImm w ≤ 7)
  else if op = 0x90 then isZeroBits w 48 47 && isZeroBits w 41 0 && fMode w != 3 && (fMode w == 0 || isZeroBits w 46 42)
  else if op = 0xA0 then mmOk w
  else if op = 0xA4 || op = 0xA9 then isZeroBits w 50 45 && isZeroBits w 39 0
  else if op = 0xA8 then accWrOk w
  else vecOk w

/-- A word that is legal at decode (R71, R98). -/
def legalWord (w : Word) : Bool := assigned w && !(fPG w == 0 && fPN w) && fieldsOk w

end Sys2Proof.Machine
end

