-- ==== Sys2Proof/Machine/Flags.lean ====
section
/-! DEFINITION. Every flag the kernel instruction set computes: the predicates of compares and predicate logic (R76), an
accumulator's LOW and HIGH with its special state (R46 to R50), and the command's spill flags (R51). -/

namespace Sys2Proof.Machine

/-- The conditions of CMPEQ, CMPNE, CMPLT, CMPLTU, CMPGE and CMPGEU (R76), by opcode. -/
def compare (op : Nat) (a b : Word) : Bool :=
  if op = 0x30 then a == b
  else if op = 0x31 then a != b
  else if op = 0x32 then decide (a.toInt < b.toInt)
  else if op = 0x33 then decide (a.toNat < b.toNat)
  else if op = 0x34 then decide (b.toInt ≤ a.toInt)
  else decide (b.toNat ≤ a.toNat)

/-- PAND, POR, PXOR and PANDN (R76), by opcode. -/
def predLogic (op : Nat) (a b : Bool) : Bool :=
  if op = 0x38 then a && b
  else if op = 0x39 then a || b
  else if op = 0x3A then a != b
  else a && !b

/-- The finite limit L = 2^127 - 2 (R45). -/
def accLimit : Nat := 2 ^ 127 - 2

/-- R49's second table: the element state after a term of a given state. -/
def joinState : Special → Special → Special
  | _, .nan => .nan
  | .nan, _ => .nan
  | .finite, t => t
  | .posInf, .negInf => .nan
  | .negInf, .posInf => .nan
  | st, _ => st

/-- The special state of a value used as a term (R49). -/
def stateOf : Val → Special
  | .nan => .nan
  | .inf neg => if neg then .negInf else .posInf
  | .fin _ => .finite

/-- R48: a finite product cut to the window of an anchor: the term, LOW and HIGH. -/
def cutTerm (anchor : Int) (d : Dy) : Int × Bool × Bool :=
  let (t, low) := truncShift d.m (d.e - (anchor - 64))
  let high := decide (accLimit < t)
  let t' : Nat := if high then accLimit else t
  (if d.neg then -(t' : Int) else (t' : Int), low, high)

/-- An element with one term added (R48, R49), and the flags that the term sets. -/
def addTerm (anchor : Int) (e : Elem) (v : Val) : Elem × Bool × Bool :=
  match v with
  | .fin d =>
    let (t, low, high) := cutTerm anchor d
    ({ e with sum := e.sum + BitVec.ofInt 136 t }, low, high)
  | _ => ({ e with st := joinState e.st (stateOf v) }, false, false)

/-- A finite element's value as it leaves a tile, and whether it was out of range (R50). -/
def clampSum (e : Elem) : Int × Bool :=
  let i := e.sum.toInt
  if (accLimit : Int) < i then (accLimit, true) else if i < -(accLimit : Int) then (-(accLimit : Int), true) else (i, false)

/-- The value of an element under an anchor (R45, R50). -/
def elemVal (anchor : Int) (e : Elem) : Val :=
  match e.st with
  | .nan => .nan
  | .posInf => .inf false
  | .negInf => .inf true
  | .finite =>
    let (i, _) := clampSum e
    .fin ⟨decide (i < 0), i.natAbs, anchor - 64⟩

/-- The element leaves out of range: it sets the tile's HIGH (R50). -/
def elemHigh (e : Elem) : Bool := e.st == .finite && (clampSum e).2

/-- The wide partial of an element (R45, R61). -/
def elemWide (e : Elem) : Wide :=
  match e.st with
  | .nan => 0x80000000000000000000000000000000
  | .negInf => 0x80000000000000000000000000000001
  | .posInf => 0x7FFFFFFFFFFFFFFFFFFFFFFFFFFFFFFF
  | .finite => BitVec.ofInt 128 (clampSum e).1

/-- A wide partial added to an element as raw accumulation adds it (R61). -/
def addWide (e : Elem) (x : Wide) : Elem :=
  if x = 0x80000000000000000000000000000000 then { e with st := joinState e.st .nan }
  else if x = 0x80000000000000000000000000000001 then { e with st := joinState e.st .negInf }
  else if x = 0x7FFFFFFFFFFFFFFFFFFFFFFFFFFFFFFF then { e with st := joinState e.st .posInf }
  else { e with sum := e.sum + BitVec.ofInt 136 x.toInt }

/-- The value of a wide partial under an anchor (R45, R65). -/
def wideVal (anchor : Int) (x : Wide) : Val := elemVal anchor (addWide {} x)

/-- The tile's flags join the command flags of its core (R51). -/
def foldFlags (c : Core) (t : Bool) : Core :=
  { c with lowSpill := c.lowSpill || (tile c t).low, highSpill := c.highSpill || (tile c t).high }

/-- R53's M for an operand format. -/
def boundOf (f : Nat) : Int := if f = 0 || f = 1 then 3 else if f = 2 then 9 else if f = 3 then 16 else 8

/-- A declared operand format is BF16 or FP16 (R53, R103). -/
def is16 (f : Nat) : Bool := f == 5 || f == 6

/-- The SCALED anchor of a command (R53). No field says that an operand has no block scales, which count as 0: SCALE_MAX is always taken
as supplied, 127 for such an operand. DEDUCED, log entry 122. -/
def scaledAnchor (c : Cmd) : Int :=
  ((c.scaleA : Int) - 127) + ((c.scaleB : Int) - 127) + boundOf c.fmtA + boundOf c.fmtB + c.headroom - 63

end Sys2Proof.Machine
end

