-- ==== Sys2Proof/Machine/Issue.lean ====
section
/-! DEFINITION. Issue: how a core fetches, checks, guards, stalls and retires an instruction (R20, R70, R71, R92, R98,
R99, R112), and every access of an instruction to the scratchpad with its errors (R21, R22, R27). -/

namespace Sys2Proof.Machine

/-- The instruction index and command of a fault at issue (R99). -/
def kernelFault (s : State) (n : Nat) (cause status : Nat) (index : Nat) (w : Word) (rerunnable : Bool) : State :=
  let c := coreAt s n
  match c.cmd with
  | none => s
  | some id => commandFault s id cause status (.core n) c.rank index 4 w rerunnable

/-- An illegal instruction (R99): CAUSE ILLEGAL_INSTRUCTION, status NOT_PERMITTED, never rerun. -/
def illegal (s : State) (n : Nat) (index : Nat) (w : Word) : State := kernelFault s n 0x01 0x0B index w false

/-- A range, alignment, permission or region fault (R99, R415): status ACCESS_DENIED. -/
def accessFault (s : State) (n : Nat) (index : Nat) (w : Word) : State := kernelFault s n 0x02 0x04 index w false

/-- A flag of CORE.ERR is set (R38). -/
def setErr (s : State) (n : Nat) (i : Nat) : State := modCore s n (fun c => { c with err := c.err ||| (1#8 <<< i) })

/-- A scratchpad range violation (R21): CORE.ERR.SP_RANGE, then ACCESS_DENIED. -/
def rangeFault (s : State) (n : Nat) (index : Nat) (w : Word) : State := accessFault (setErr s n 6) n index w

/-- The core runs the command's kernel: in service, RUNNING and not at its END. -/
def running (s : State) (c : Core) : Bool := !s.flt.fatal && c.st == .running && c.cmd.isSome && !c.ended

/-- The word at the program counter; instruction memory from CODE_LEN on holds zero words (R96). -/
def fetched (c : Core) : Word := (c.im[c.pc]?).getD 0

/-- One instruction retires and the next program counter is set (R38: SEQ_PROG advances once per 256). -/
def retireTo (c : Core) (pc : Nat) : Core :=
  if c.retired + 1 < 256 then { c with pc := pc, retired := c.retired + 1, stall := .none, want := none }
  else { c with pc := pc, retired := 0, seqProg := wrapAdd 32 c.seqProg 1, stall := .none, want := none }

/-- A core's new registers, retired to the next instruction. -/
def retire (s : State) (n : Nat) (c : Core) : State := setCore s n (retireTo c (c.pc + 1))

/-- An uncorrectable error in a core's SRAM (R20, R27 to R29, R415): flag `i` of CORE.ERR, and the command ends with
UNCORRECTABLE_MEMORY. The second in one binding is REACT on the core; the second of the accumulators fences it, and the
command then ends UNIT_FENCED (R28, R34, R35; log entry 100). -/
def sramFault (s : State) (n i : Nat) (acc injected : Bool) (index : Nat) : State :=
  let c := coreAt s n
  let (raw, s0) := syndrome s
  let s1 := modCore (setErr s0 n i) n (fun x => { x with sramUe := x.sramUe + 1, accUe := if acc then x.accUe + 1 else x.accUe })
  let sev := if acc && decide (0 < c.accUe) then 4 else if 0 < c.sramUe then 2 else 1
  let r := { blankRec 0x06 sev (.core n) c.colony with
    status := if sev = 4 then 0x09 else 0x06, rank := c.rank, addr := index, addrKind := 4, word := raw, injected := injected }
  match c.cmd with
  | none => s1
  | some id =>
    let (s2, k) := recordFault s1 (nameCmd s1 r id)
    if sev = 4 then fenceUnit s2 (.core n) 0x09 k else faultCmd s2 id 0x06 k true

/-- A word read with an odd number of bits changed fails its parity bit (R20): the core stops and its command is killed
with UNCORRECTABLE_MEMORY. -/
def parityFault (s : State) (n : Nat) : State := sramFault s n 3 false false (coreAt s n).pc

/-- The frame of every kernel instruction: `w` is the word that the fetch delivers, `row` that it is a word of the row.
A core that does not run, or whose sequencer an injection hangs (R432), does nothing; a word with a parity error stops it (R20); an illegal word is illegal whatever its
guard (R98, R99); a guard of 0 only retires (R71); else `body` acts. -/
def issueRow (s : State) (n : Nat) (row : Bool) (w : Word) (body : Core → State) : State :=
  let c := coreAt s n
  if !running s c || !row || armed s 7 n then s
  else if w != fetched c then
    (if popcount 64 (w.toNat ^^^ (fetched c).toNat) % 2 = 1 then parityFault s n else s)
  else if !legalWord w then illegal s n c.pc w
  else if !guardHolds c w then retire s n c
  else body c

/-- The frame for the words of one opcode. -/
def issue (s : State) (n op : Nat) (w : Word) (body : Core → State) : State := issueRow s n (opIs w op) w body

/-- An instruction that only computes on registers. -/
def issueReg (s : State) (n op : Nat) (w : Word) (f : Core → Core) : State := issue s n op w (fun c => retire s n (f c))

/- Hazards (R92). -/

/-- The v register that a queued vector instruction writes, if any. -/
def vecDest (w : Word) : Option Nat := if opOf w = 0xDC then none else some (fD w)

/-- VCVT narrowing, which leaves part of v[D] unchanged and reads it (R116, R118). -/
def narrows (w : Word) : Bool := opOf w == 0xD8 && decide (fSub w % 64 < 0x10)

/-- The v registers that a vector instruction reads. -/
def vecSources (w : Word) : List Nat :=
  let op := opOf w
  let (_, b, c, _) := vecUses op
  (if op = 0xDD then [] else [fA w]) ++ (if b && !fBS w then [fB w] else []) ++ (if c then [fC w] else []) ++
  (if narrows w then [fD w] else [])

/-- A v register is still to be written by a queued instruction. -/
def vPending (c : Core) (r : Nat) : Bool := c.vq.any (fun q => vecDest q.word == some r)
/-- A v register is still to be read by a queued instruction. -/
def vReadPending (c : Core) (r : Nat) : Bool := c.vq.any (fun q => (vecSources q.word).contains r)

/- Scratchpad lines of queued instructions (R112). -/

/-- Bytes per stored block of an operand (R100, R102). -/
def blockBytes (f : Nat) (sparse : Bool) : Nat :=
  if sparse then (if f = 0 then 1536 else 2560)
  else if f = 0 then 2048 else if f = 1 then 3072 else if f < 5 then 4096 else 8192

/-- Bits per element of an output format (R107). -/
def outBits (fo : Nat) : Nat := if fo = 0 || fo = 7 then 32 else if fo = 1 || fo = 2 then 16 else if fo = 5 then 4 else 8

/-- The byte ranges that a queued matrix or vector instruction reads from the scratchpad. -/
def spReads (q : QInstr) : List (Nat × Nat) :=
  let w := q.word
  if opOf w = 0xA0 then
    let nb := fKB w + 1
    [(spOperand q.x, nb * blockBytes (fFA w) false), (spOperand q.y, nb * blockBytes (fFB w) (fSP w))] ++
    (if fSCA w then [(spOperand q.z, nb * 128)] else []) ++ (if fSCB w then [(spOperand q.u, nb * 128)] else [])
  else if opOf w = 0xA4 then [(spOperand q.x, 262144)]
  else if opOf w = 0xDD then [(spOperand q.x, 4096)]
  else []

/-- The bytes of scale codes that a block-scaled ACC.WR writes (R108). -/
def scaleOutBytes (w : Word) : Nat :=
  if !scaledOut w then 0
  else if fLAY w = 1 then 512
  else if fLAY w = 2 then 512
  else if fGD w then (fNR w + 1) / 32 * 128 - 128 + (fNC w + 1)
  else (fNC w + 1) / 32 * 128 - 128 + (fNR w + 1)

/-- The bytes of one written row in row-major layout. -/
def rowBytes (w : Word) : Nat := ((fNC w + 1) * outBits (fFO w) + 7) / 8

/-- The byte ranges that a queued matrix instruction writes to the scratchpad. -/
def spWrites (q : QInstr) : List (Nat × Nat) :=
  let w := q.word
  if opOf w = 0xA9 then [(spOperand q.x, 262144)]
  else if opOf w = 0xA8 then
    (if fLAY w = 0 then (List.range (fNR w + 1)).map (fun i => (spOperand q.x + i * spOperand q.y, rowBytes w))
     else [(spOperand q.x, 4 * blockBytes (if fFO w = 5 then 0 else if outBits (fFO w) = 16 then 5 else 2) false)]) ++
    (if scaledOut w then [(spOperand q.z, scaleOutBytes w)] else [])
  else []

/-- Two byte ranges share a 64-byte line. -/
def shareLine (a b : Nat × Nat) : Bool :=
  decide (0 < a.2) && decide (0 < b.2) && decide (a.1 / 64 ≤ (b.1 + b.2 - 1) / 64) && decide (b.1 / 64 ≤ (a.1 + a.2 - 1) / 64)

def anyShare (l m : List (Nat × Nat)) : Bool := l.any (fun a => m.any (fun b => shareLine a b))

/-- The queued instructions of a core. -/
def queued (c : Core) : List QInstr := c.mq ++ c.vq

/-- R112: an instruction that reads `rd` and writes `wr` stalls behind a queued one. -/
def interlocked (qs : List QInstr) (rd wr : List (Nat × Nat)) : Bool :=
  qs.any (fun q => anyShare wr (spReads q) || anyShare wr (spWrites q) || anyShare rd (spWrites q))

/- Scratchpad errors (R27, R432). -/

/-- The logical bank of a scratchpad offset (R22). -/
def bankOf (off : Nat) : Nat := off / 64 % 48

/-- A bank is marked for repair (R27): PENDING, then PENDING2, then OVER. -/
def markBank (c : Core) (b : Nat) : Core :=
  if c.pend1 = b || c.pend2 = b then c
  else if c.pend1 = 0x3F then { c with pend1 := b }
  else if c.pend2 = 0x3F then { c with pend2 := b }
  else { c with overBank := true }

/-- A correctable scratchpad error in a bank (R27): counted; a bank that has shown sixteen in one binding is marked. A spare
bank that takes the number starts from 0 (`repairBanks`). -/
def spCorrectable (c : Core) (b : Nat) : Core :=
  let k := tget 0 c.bankCe b + 1
  let c1 := { c with err := c.err ||| 1#8, spCe := satInc 16 c.spCe, bankCe := tset c.bankCe b k }
  if 16 ≤ k then markBank c1 b else c1

/-- What SECDED's report `e`, or an armed injection (R432 kinds 1 and 2), makes of a scratchpad read at an offset: the state
with a corrected error, or the command's end (R27, R415). The Bool says that the read goes on. -/
def spRead (s : State) (n off : Nat) (e : EccReport) (index : Nat) : State × Bool :=
  let b := bankOf off
  if armed s 2 n || e == .uncorrected then
    (sramFault (modCore (disarm s 2 n) n (fun c => markBank c b)) n 1 false (armed s 2 n) index, false)
  else if armed s 1 n || e == .corrected then (modCore (disarm s 1 n) n (fun c => spCorrectable c b), true)
  else (s, true)

/-- The end of the scratchpad (R21). -/
def spTop : Nat := 0x180000

/- Queues (R92). -/

/-- A matrix instruction enters its queue with the scalar operands read at issue (R92, R104). -/
def enqueueMatrix (s : State) (n : Nat) (c : Core) (q : QInstr) : State :=
  if 8 ≤ c.mq.length then s
  else if interlocked (queued c) (spReads q) (spWrites q) then s
  else retire s n { c with mq := c.mq ++ [{ q with order := c.order, index := c.pc }], order := c.order + 1 }

/-- A vector instruction enters its queue (R92, R114); its registers must not be waiting for an earlier one. -/
def enqueueVector (s : State) (n : Nat) (c : Core) (q : QInstr) : State :=
  let touched := vecSources q.word ++ (match vecDest q.word with | some d => [d] | none => [])
  if 8 ≤ c.vq.length then s
  else if touched.any (vPending c) then s
  else if interlocked (queued c) (spReads q) (spWrites q) then s
  else retire s n { c with vq := c.vq ++ [{ q with order := c.order, index := c.pc }], order := c.order + 1 }

end Sys2Proof.Machine
end

