-- ==== Sys2Proof/Machine/Access.lean ====
section
/-! DEFINITION. Accesses to the colony's memory: what an unreadable line does to its reader (R235, R236, R415, R417),
what a failed ownership check does (R197), declared output regions (R144) and the shadow frame bound at a page's first
write (R165). -/

namespace Sys2Proof.Machine

/-- A line is read from HBM at a frame address: why it cannot be read, if so, with an armed injection of R432 kind 3
used up. The Bool says that the report was injected. -/
def checkRead (s : State) (fa : Nat) : State × Option (BadRead × Bool) :=
  let ch := channelOf fa
  match lineProblem s fa with
  | some p => (s, some (p, false))
  | none =>
    if armed s 3 ch then (disarm s 3 ch, some (.uncorrectable, true))
    else (s, none)

/-- The fault of a line that cannot be read (R235, R236, R415): its counters and its record, naming the DPA; WORD holds the raw
syndrome of a memory error (R409). -/
def lineRecord (s : State) (ch colony dpa : Nat) (cmd : Option Nat) (rank : Nat) (word : Word) (p : BadRead) (injected : Bool) :
    State × Option Nat :=
  let c := chanAt s ch
  match p with
  | .fenced => (s, none)
  | .uncorrectable =>
    let (raw, s0) := syndrome s
    let s1 := setChan s0 ch { c with ue := satInc 16 c.ue, ueFaults := c.ueFaults + 1 }
    let r := { blankRec 0x05 (if c.ueFaults + 1 = 8 then 2 else 1) (.channel ch) colony with
      status := 0x06, addr := dpa, addrKind := 2, rank := rank, word := raw, injected := injected }
    recordFault s1 (match cmd with | some id => nameCmd s1 r id | none => r)
  | .tag =>
    let s1 := setChan s ch { c with tagFail := satInc 16 c.tagFail }
    let r := { blankRec 0x04 1 (.channel ch) colony with
      status := 0x05, addr := dpa, addrKind := 2, rank := rank, word := word, injected := injected }
    recordFault s1 (match cmd with | some id => nameCmd s1 r id | none => r)

/-- The status that an unreadable line gives its command (R235, R236, R417). -/
def badStatus : BadRead → Nat
  | .fenced => 0x09
  | .uncorrectable => 0x06
  | .tag => 0x05

/-- An attempt reads a line that cannot be read: its command ends, never rerun (R156, R173). -/
def lineFault (s : State) (id ch dpa rank : Nat) (word : Word) (p : BadRead) (injected : Bool) : State :=
  let colony := (cmdAt s id).elim 0 (fun c => c.colony)
  let (s1, i) := lineRecord s ch colony dpa (some id) rank word p injected
  faultCmd s1 id (badStatus p) i false

/-- A byte range lies within one declared output region (R144). -/
def inRegions (c : Cmd) (va len : Nat) : Bool := c.regions.any (fun r => decide (r.1 ≤ va) && decide (va + len ≤ r.1 + r.2))

/-- The shadow frame behind a page that a command writes (R165): the one bound, else one of the reserve in the page's set
and size, bound now. -/
def bindShadow (s : State) (id : Nat) (p : Pte) : Option (Shadow × State) :=
  match cmdAt s id with
  | none => none
  | some c =>
    match shadowFor c p.dpa with
    | some sh => some (sh, s)
    | none =>
      match findIdx? (fun f => setOf f.start == setOf p.dpa && f.size == pageBytes p.size) c.reserve with
      | none => none
      | some (k, f) =>
        let sh : Shadow := { dpa := p.dpa, size := f.size, frame := f.start }
        some (sh, setCmd s id { c with shadows := c.shadows ++ [sh], reserve := c.reserve.eraseIdx k })

/-- The class of a core's requests (R248, R249). -/
def coreClass (s : State) (c : Core) : Nat := (c.cmd.bind (cmdAt s)).elim 4 (fun x => x.cls)

/-- What an ownership check's failure does to a command (R197): ACCESS_DENIED, or the squash with kill and rerun. -/
def ownFault (s : State) (id colony : Nat) (o : OwnCheck) (unit : UnitRef) (rank index : Nat) (word : Word) : State :=
  match o with
  | .pass => s
  | .denied => commandFault s id 0x02 0x04 unit rank index 4 word false
  | .stale => preempt (countStale s colony) id

/- Where Bonor reads colony memory itself (R299, R494). -/

/-- A fault that Bonor finds itself while it carries out a command (R299, R494): it names no unit; the command ends. -/
def bonorFault (s : State) (id cause status detail : Nat) : State :=
  match cmdAt s id with
  | none => s
  | some c =>
    let (s1, i) := recordFault s (nameCmd s { blankRec cause 1 .none c.colony with status := status } id)
    let s2 := endCmd (modCmd s1 id (fun x => { x with faultId := i })) id status detail 0
    raiseAbort s2 c.colony c.job status id i

/-- What Bonor's own access to colony memory meets: an invalid entry or a right missing, or a line that cannot be read. -/
inductive VaErr where
  | access
  | bad (ch dpa : Nat) (p : BadRead)
  deriving DecidableEq, Repr

/-- The committed line of a colony at a virtual address, as Bonor reads it. -/
def vaLine (s : State) (colony va : Nat) (acc : Access) : Except VaErr (List Byte) :=
  let c := colAt s colony
  match walk c va acc with
  | .ok dpa _ =>
    let fa := frameOf c (lineBase dpa)
    if ownCheck c c.cur.instar (channelOf fa) != .pass then .error .access
    else match lineProblem s fa with
      | some p => .error (.bad (channelOf fa) dpa p)
      | none => .ok (coherentData s fa)
  | _ => .error .access

/-- `k` lines from a line's address on. -/
def vaLines (s : State) (colony : Nat) (acc : Access) : Nat → Nat → Except VaErr (List Byte)
  | _, 0 => .ok []
  | va, k + 1 =>
    match vaLine s colony va acc with
    | .error e => .error e
    | .ok l => match vaLines s colony acc (va + 64) k with
      | .error e => .error e
      | .ok r => .ok (l ++ r)

/-- `len` committed bytes of a colony from a virtual address. -/
def vaRead (s : State) (colony va len : Nat) (acc : Access) : Except VaErr (List Byte) :=
  match vaLines s colony acc (lineBase va) ((va % 64 + len + 63) / 64) with
  | .error e => .error e
  | .ok l => .ok ((l.drop (va % 64)).take len)

/-- The end of a command whose own read by Bonor fails (R299, R494). -/
def vaFault (s : State) (id : Nat) : VaErr → State
  | .access => bonorFault s id 0x02 0x04 0
  | .bad ch dpa p => lineFault s id ch dpa 0 0 p false

end Sys2Proof.Machine
end

