-- ==== Sys2Proof/Machine/Rings.lean ====
section
/-! DEFINITION. Ring pages: doorbells, enabling, RESUME, completion heads, sync counters (R129 to R135, R158), and which
writes of a function reach a page (R130, R463, R475, R482). -/

namespace Sys2Proof.Machine

/-- A function takes register accesses: the link is up, configuration is answered, the function exists, is not in D3hot
and is not in FLR (R463, R475, R480, R482); after a surprise removal no register takes one (R484). -/
def fnLive (s : State) (fn : Fn) : Bool :=
  s.boot.link && s.boot.cfg && !s.boot.removed && fnPresent s fn && !s.pcie.d3.contains (fnIndex fn) &&
  (match fn with | .pf => true | .vf v => !s.pcie.flr.contains v)

/-- A function's write reaches a ring page: it owns the page and Bonor runs (R129, R130). -/
def ownsPage (s : State) (fn : Fn) (page ring : Nat) : Bool :=
  serving s && fnLive s fn && decide (page ≤ 64) && decide (ring < 16) && decide (pageOwner s page = fn)

/-- The slots of a ring (R131, R132). -/
def ringSlots (log2n : Nat) : Nat := 2 ^ log2n

/-- A legal ring size (R133). -/
def sizeOk (log2n : Nat) : Bool := decide (6 ≤ log2n) && decide (log2n ≤ 16)

/-- How far one index lies past another in ring order. -/
def ahead (n from_ to_ : Nat) : Nat := (to_ + n - from_) % n

/-- R134's grounds for ignoring a doorbell. -/
def doorbellBad (r : SqRing) (tail : Nat) : Bool :=
  let n := ringSlots r.log2n
  decide (n ≤ tail) || r.st == .disabled ||
  (decide (0 < ahead n r.head tail) && decide (ahead n r.head tail < ahead n r.head r.tail)) ||
  (decide (tail = r.head) && decide (r.tail ≠ r.head))

/-- An urgent ring's doorbell is noticed (R136, R137). -/
def noticeRing (s : State) (page ring : Nat) : State :=
  if (sqAt s page ring).urgent && !s.hub.urgOrder.contains (page, ring) then modHub s (fun h => { h with urgOrder := h.urgOrder ++ [(page, ring)] }) else s

/-- SQ_DOORBELL: a write of HUB.SQTAIL (R131, R134). -/
def execSqDoorbell (fn : Fn) (page ring : Nat) (value : Word) (s : State) : Res :=
  if !ownsPage s fn page ring then .next s
  else
    let r := sqAt s page ring
    let tail := field value 15 0
    .next (if doorbellBad r tail then setSq s page ring { r with dberr := true } else noticeRing (setSq s page ring { r with tail := tail }) page ring)

/-- SQ_ENABLE: a write of HUB.SQCFG (R133, R135). -/
def execSqEnable (fn : Fn) (page ring : Nat) (value : Word) (s : State) : Res :=
  if !ownsPage s fn page ring then .next s
  else
    let r := sqAt s page ring
    let r1 := { r with urgent := if fn = .pf then bit value 6 else r.urgent, errStop := bit value 7 }
    if r.enable then
      .next (setSq s page ring (if bit value 5 then r1 else { r1 with enable := false, st := .disabled }))
    else
      let r2 := { r1 with log2n := field value 4 0, cq := field value 11 8 }
      let q := cqAt s page r2.cq
      if bit value 5 && sizeOk r2.log2n && q.enable && sizeOk q.log2n then
        .next (setSq s page ring { r2 with enable := true, st := .running, head := 0, tail := 0 })
      else .next (setSq s page ring r2)

/-- The highest MSI-X vector of a function (R133, R481). -/
def maxVec : Fn → Nat
  | .pf => 63
  | .vf _ => 29

/-- CQ_ENABLE: a write of HUB.CQCFG (R132, R133, R135). -/
def execCqEnable (fn : Fn) (page ring : Nat) (value : Word) (s : State) : Res :=
  if !ownsPage s fn page ring then .next s
  else
    let r := cqAt s page ring
    let r1 := { r with vec := if field value 11 6 ≤ maxVec fn then field value 11 6 else r.vec, irqAll := bit value 12 }
    if r.enable then .next (setCq s page ring { r1 with enable := bit value 5 })
    else
      let r2 := { r1 with log2n := field value 4 0 }
      .next (setCq s page ring
        (if bit value 5 && sizeOk r2.log2n then { r2 with enable := true, head := 0, tail := 0, phase := true } else r2))

/-- RESUME: a write of HUB.SQCTL (R133, R134). -/
def execResume (fn : Fn) (page ring : Nat) (value : Word) (s : State) : Res :=
  let r := sqAt s page ring
  if ownsPage s fn page ring && bit value 0 && r.st == .stopped then .next (noticeRing (setSq s page ring { r with st := .running }) page ring)
  else .next s

/-- CQ_HEAD_WRITE: a write of HUB.CQHEAD (R132, R133). -/
def execCqHeadWrite (fn : Fn) (page ring : Nat) (value : Word) (s : State) : Res :=
  if !ownsPage s fn page ring then .next s
  else .next (setCq s page ring { cqAt s page ring with head := field value 15 0 })

/- Sync counters (R158). -/

/-- A WAIT's condition (R143). -/
def waitHolds (c : Cmd) (v : Word) : Bool :=
  let x := c.byte 24 8
  if (c.byte 18 1).testBit 0 then decide (v.toNat = x) else decide (x ≤ v.toNat)

/-- A counter changes: every WAIT that waits on it and whose condition now holds is satisfied (R158). -/
def changeSync (s : State) (page n : Nat) (v : Word) : State :=
  let s1 := setSync s page n v
  s1.cmds.foldl (fun t e =>
    match cmdAt t e.1 with
    | some c => if c.op = 0x03 ∧ c.phase = .started ∧ c.page = page ∧ c.byte 16 2 = n ∧ waitHolds c v then completeOk t e.1 v.toNat else t
    | none => t) s1

/-- SYNC_COUNTER_ACCESS: a host write of HUB.SYNC[n] (R133, R158). -/
def execSyncCounterAccess (fn : Fn) (page n : Nat) (value : Word) (s : State) : Res :=
  if ownsPage s fn page 0 && decide (n < 256) then .next (changeSync s page n value) else .next s

end Sys2Proof.Machine
end

