-- ==== Sys2Proof/Machine/Fetch.lean ====
section
/-! DEFINITION. PACKET_FETCH: which ring may be fetched (R137, R160, R202), the checks of a packet in order with the offset that
DETAIL names (R136, R138 to R152), the colony it acts for (R130) and its output regions (R144, R146, R152). -/

namespace Sys2Proof.Machine

/- Fields (R138, R139). -/

def failIf (b : Bool) (off : Nat) : List Nat := if b then [off] else []

/-- Every reserved byte from `lo` to `hi - 1` that is not zero. -/
def reservedBytesOf (c : Cmd) (lo hi : Nat) : List Nat := (List.range (hi - lo)).flatMap (fun i => failIf (c.byte (lo + i) 1 != 0) (lo + i))

/-- The reserved bits of a byte, from bit `b` up. -/
def topBits (c : Cmd) (off b : Nat) : List Nat := failIf (c.byte off 1 / 2 ^ b != 0) off

/-- A field's 8 bytes as a dual address: its H bit. -/
def Cmd.isHost (c : Cmd) (off : Nat) : Bool := (c.byte off 8).testBit 63
/-- The address without H. -/
def Cmd.addr (c : Cmd) (off : Nat) : Nat := c.byte off 8 % 2 ^ 63

/-- A VA field: bits [63:48] reserved, and its alignment. -/
def vaBad (c : Cmd) (off align : Nat) : List Nat := failIf (decide (2 ^ 48 ≤ c.byte off 8) || c.byte off 8 % align != 0) off
/-- A dual address field. -/
def dualBad (c : Cmd) (off align : Nat) : List Nat :=
  failIf ((!c.isHost off && decide (2 ^ 48 ≤ c.addr off)) || c.addr off % align != 0) off
/-- A destination that may lie in colony memory (R152): 64-byte aligned there, and no such destination for colony 0. -/
def destBad (c : Cmd) (off : Nat) : List Nat :=
  failIf (!c.isHost off && (decide (2 ^ 48 ≤ c.addr off) || c.addr off % 64 != 0 || c.colony == 0)) off
/-- A length: a multiple of 64 from 64 to a limit. -/
def lenBad (c : Cmd) (off limit : Nat) : List Nat :=
  failIf (c.byte off 8 % 64 != 0 || c.byte off 8 == 0 || decide (limit < c.byte off 8)) off
/-- A value outside a range. -/
def rangeBad (c : Cmd) (off len lo hi : Nat) : List Nat := failIf (decide (c.byte off len < lo) || decide (hi < c.byte off len)) off

/-- The opcodes of R142. -/
def opcodes : List Nat :=
  [0x00, 0x01, 0x02, 0x03, 0x10, 0x11, 0x12, 0x20, 0x21, 0x22, 0x23, 0x30, 0x31, 0x32, 0x33, 0x34, 0x40, 0x41, 0x42,
   0x50, 0x51, 0x52, 0x53, 0x60, 0x61, 0x62, 0x63, 0x70, 0x71, 0x72]

/-- Opcodes that only PF rings carry (R142). -/
def pfOnly (op : Nat) : Bool := [0x50, 0x51, 0x52, 0x53, 0x72].contains op

/-- The value that COLONY holds on a PF ring is one that R130 requires. -/
def colonyFieldOk (op scope colony : Nat) : Bool :=
  let named := decide (1 ≤ colony) && decide (colony ≤ 64)
  if op ≤ 0x03 then colony == 0
  else if op = 0x60 then (if scope % 2 = 1 then named else colony == 0)
  else if [0x61, 0x62, 0x70, 0x50, 0x51, 0x52, 0x53, 0x72].contains op then colony == 0
  else named

/-- The colony that a packet acts for (R130). -/
def actsFor (page : Nat) (pkt : List Byte) : Nat :=
  if page ≠ 0 then page else if bytesAt pkt 3 1 % 128 ≤ 64 then bytesAt pkt 3 1 % 128 else 0

/-- The length of the indirect descriptor that a packet calls for, 0 for none (R140, R144, R149). -/
def indLen (c : Cmd) : Nat :=
  if c.op = 0x10 then (if 2 ≤ c.byte 42 2 then 16 * c.byte 42 2 else 0)
  else if c.op = 0x50 ∨ c.op = 0x52 then 256
  else if c.op = 0x51 then (if c.byte 17 1 % 2 = 1 then 0 else 256)
  else 0

/-- Failing fields of the common header (R138, R140). -/
def headerBad (c : Cmd) : List Nat :=
  topBits c 1 2 ++ topBits c 2 3 ++ topBits c 3 7 ++
  failIf (c.page == 0 && !colonyFieldOk c.op (c.byte 16 1) (c.byte 3 1 % 128)) 3 ++
  (if indLen c = 0 then failIf (c.byte 8 8 != 0) 8 else dualBad c 8 64)

/-- Failing fields of LAUNCH (R144). The rule of LEGACY joins ANCHOR and the fields after it, so DETAIL names ANCHOR (R141). -/
def launchBad (c : Cmd) : List Nat :=
  let legacy := (c.byte 36 1).testBit 6
  vaBad c 16 256 ++ vaBad c 24 1 ++ failIf (decide (1024 ≤ c.byte 32 2)) 32 ++
  failIf (legacy && (c.byte 32 4 != 0 || c.byte 36 1 % 64 != 0 || c.byte 44 1 != 0)) 32 ++
  failIf (c.byte 34 1 == 0xFF) 34 ++ failIf (c.byte 35 1 == 0xFF) 35 ++
  topBits c 37 1 ++ rangeBad c 38 2 0 640 ++ rangeBad c 42 2 0 256 ++
  failIf (decide (64 ≤ c.byte 44 1) || c.byte 44 1 % 8 == 7 || c.byte 44 1 / 8 % 8 == 7) 44 ++ reservedBytesOf c 45 48 ++
  (if c.byte 42 2 = 1 then vaBad c 48 64 ++ lenBad c 56 (2 ^ 40) else failIf (c.byte 48 16 != 0) 48)

/-- Failing fields of MAP, UNMAP and SYNC_TABLE that the three share (R148). -/
def pagesBad (c : Cmd) : List Nat :=
  failIf (decide (2 ^ 48 ≤ c.byte 16 8) || (decide (c.byte 36 1 < 3) && c.byte 16 8 % (if c.byte 36 1 = 0 then 2 ^ 16 else if c.byte 36 1 = 1 then 2 ^ 21 else 2 ^ 30) != 0)) 16 ++
  rangeBad c 32 4 1 (2 ^ 24) ++ rangeBad c 36 1 0 2

/-- Failing fields of the collectives (R147; the plan's alignment R356). -/
def collectiveBad (c : Cmd) : List Nat :=
  failIf (c.byte 16 2 == 0) 16 ++ reservedBytesOf c 18 20 ++
  (if c.op = 0x33 then reservedBytesOf c 24 48
   else vaBad c 24 64 ++ vaBad c 32 64 ++
    (if c.op = 0x30 then
      failIf (c.byte 40 4 % 4 != 0 || c.byte 40 4 == 0 || decide (2 ^ 28 < c.byte 40 4)) 40 ++ failIf (decide (1024 ≤ c.byte 44 2)) 44 ++
      failIf (!(List.contains [0, 1, 2, 3, 4, 7, 8] (c.byte 46 1))) 46 ++ reservedBytesOf c 47 48
     else lenBad c 40 (2 ^ 40))) ++
  vaBad c 48 64 ++ reservedBytesOf c 56 64

/-- Failing fields of HANDOFF (R147). -/
def handoffBad (c : Cmd) : List Nat :=
  rangeBad c 16 1 1 4 ++ reservedBytesOf c 17 18 ++ failIf (c.byte 18 2 == 0) 18 ++ rangeBad c 24 4 0 (2 ^ 24 - 1) ++
  rangeBad c 28 1 1 64 ++ reservedBytesOf c 29 32 ++ vaBad c 32 64 ++
  failIf (c.byte 40 8 % 64 != 0 || decide (2 ^ 40 < c.byte 40 8)) 40 ++
  failIf (c.byte 48 4 != 0 && (decide (c.byte 48 4 < 100) || decide (1000000 < c.byte 48 4))) 48 ++ reservedBytesOf c 52 64

/-- MAGNITUDE's range by ACTION (R430). -/
def magnitudeOk (action m : Nat) : Bool :=
  if action = 0 then m == 0
  else if action = 3 then decide (2 ≤ m) && decide (m ≤ 1024)
  else if action = 4 then decide (1 ≤ m) && decide (m ≤ 50000)
  else decide (1 ≤ m) && decide (m ≤ 100000)

/-- Failing fields of the parameter block, by opcode (R143 to R151). -/
def paramBad (c : Cmd) : List Nat :=
  let op := c.op
  if op = 0x00 then reservedBytesOf c 16 64
  else if op = 0x01 then topBits c 16 1 ++ reservedBytesOf c 17 64
  else if op = 0x02 then
    rangeBad c 16 2 0 255 ++ topBits c 18 1 ++ reservedBytesOf c 19 24 ++ dualBad c 32 8 ++
    failIf (c.byte 32 8 != 0 && !c.isHost 32 && c.colony == 0) 32 ++ reservedBytesOf c 40 64
  else if op = 0x03 then
    rangeBad c 16 2 0 255 ++ topBits c 18 1 ++ reservedBytesOf c 19 20 ++ rangeBad c 20 4 0 60000 ++ reservedBytesOf c 32 64
  else if op = 0x10 then launchBad c
  else if op = 0x11 ∨ op = 0x12 then topBits c 20 4 ++ reservedBytesOf c 21 64
  else if op = 0x20 then
    dualBad c 16 64 ++ failIf (c.isHost 16 && c.isHost 24) 16 ++ dualBad c 24 64 ++ lenBad c 32 (2 ^ 40) ++ reservedBytesOf c 40 64
  else if op = 0x21 then vaBad c 16 64 ++ lenBad c 24 (2 ^ 40) ++ reservedBytesOf c 40 64
  else if op = 0x22 then
    dualBad c 16 1 ++ vaBad c 24 64 ++ lenBad c 32 (2 ^ 36 - 64) ++ rangeBad c 40 1 0 127 ++ reservedBytesOf c 41 48 ++ reservedBytesOf c 60 64
  else if op = 0x23 then vaBad c 16 64 ++ dualBad c 24 1 ++ lenBad c 32 (2 ^ 36 - 64) ++ rangeBad c 40 1 0 127 ++ reservedBytesOf c 41 64
  else if op ≤ 0x33 then collectiveBad c
  else if op = 0x34 then handoffBad c
  else if op = 0x40 then pagesBad c ++ failIf (decide (2 ^ 40 ≤ c.byte 24 8)) 24 ++ topBits c 37 3 ++ reservedBytesOf c 38 64
  else if op = 0x41 then pagesBad c ++ reservedBytesOf c 24 32 ++ topBits c 37 1 ++ reservedBytesOf c 38 64
  else if op = 0x42 then pagesBad c ++ dualBad c 24 1 ++ reservedBytesOf c 37 64
  else if op = 0x50 then
    rangeBad c 16 1 1 64 ++ failIf (decide (63 < c.byte 17 1) && c.byte 17 1 != 0x7F) 17 ++ topBits c 18 6 ++ reservedBytesOf c 19 64
  else if op = 0x51 then rangeBad c 16 1 1 64 ++ topBits c 17 1 ++ reservedBytesOf c 18 64
  else if op = 0x52 then rangeBad c 16 1 1 64 ++ rangeBad c 17 1 0 64 ++ reservedBytesOf c 18 64
  else if op = 0x53 then rangeBad c 16 1 0 64 ++ reservedBytesOf c 17 24 ++ destBad c 24 ++ reservedBytesOf c 32 64
  else if op = 0x60 then topBits c 16 1 ++ reservedBytesOf c 17 24 ++ destBad c 24
  else if op = 0x61 then
    rangeBad c 16 1 0 127 ++ topBits c 17 1 ++ topBits c 18 6 ++ reservedBytesOf c 19 24 ++ dualBad c 24 1 ++ rangeBad c 32 2 1 4096 ++
    reservedBytesOf c 34 64
  else if op = 0x62 then rangeBad c 16 1 0 127 ++ topBits c 17 1 ++ reservedBytesOf c 18 64
  else if op = 0x63 then reservedBytesOf c 16 24 ++ dualBad c 24 1 ++ destBad c 32 ++ reservedBytesOf c 40 64
  else if op = 0x70 then
    failIf (decide (511 < c.byte 16 2) || decide (512 < c.byte 16 2 + c.byte 18 2)) 16 ++ rangeBad c 18 2 1 512 ++ reservedBytesOf c 20 24 ++
    destBad c 24 ++ reservedBytesOf c 32 64
  else if op = 0x71 then topBits c 20 4 ++ reservedBytesOf c 21 24 ++ vaBad c 24 64 ++ reservedBytesOf c 32 64
  else rangeBad c 16 1 0 63 ++ rangeBad c 17 1 0 4 ++ reservedBytesOf c 18 20 ++
    failIf (!magnitudeOk (c.byte 17 1 % 8) (c.byte 20 4)) 20 ++ reservedBytesOf c 28 64

/-- The entries of an output-region list (R144). -/
def regionList (bs : List Byte) (n : Nat) : List (Nat × Nat) := (List.range n).map (fun i => (bytesAt bs (16 * i) 8, bytesAt bs (16 * i + 8) 8))

/-- Two regions share a byte (R144, R166). -/
def regionsMeet (a b : Nat × Nat) : Bool := decide (a.1 < b.1 + b.2) && decide (b.1 < a.1 + a.2)

/-- Failing fields of the indirect descriptor, by DETAIL (R141, R144, R149). -/
def indBad (c : Cmd) : List Nat :=
  if c.op = 0x10 then
    let l := enumNat (regionList c.ind (c.byte 42 2))
    l.flatMap (fun e =>
      failIf (decide (2 ^ 48 ≤ e.2.1) || e.2.1 % 64 != 0) (0x100 + 16 * e.1) ++
      failIf (e.2.2 % 64 != 0 || e.2.2 == 0 || decide (2 ^ 40 < e.2.2)) (0x108 + 16 * e.1) ++
      failIf (l.any (fun o => o.1 != e.1 && regionsMeet o.2 e.2)) (0x100 + 16 * e.1))
  else (List.range 110).flatMap (fun i => failIf (bytesAt c.ind (146 + i) 1 != 0) (0x100 + 146 + i))

/-- The lowest offset of a list of failing fields. -/
def lowest (l : List Nat) : Option Nat := l.foldl (fun m x => match m with | none => some x | some y => some (min x y)) none

/-- Failing fields of R141's second check. -/
def notPermitted (c : Cmd) : List Nat :=
  failIf (c.page != 0 && pfOnly c.op) 0 ++ failIf (c.page != 0 && c.byte 3 1 % 128 != 0) 3 ++
  failIf (if c.urgent then c.label != 0 else c.label == 0) 2

/-- R141: the first check that fails, with its status and DETAIL. -/
def validate (c : Cmd) (indOk : Bool) : Option (Nat × Nat) :=
  if !opcodes.contains c.op then some (0x0A, 0)
  else match lowest (notPermitted c) with
    | some d => some (0x0B, d)
    | none => match lowest (headerBad c ++ paramBad c) with
      | some d => some (0x0A, d)
      | none =>
        if indLen c != 0 && !indOk then some (0x04, 8)
        else if indLen c = 0 then none
        else (lowest (indBad c)).map (fun d => (0x0A, d))

/- Regions and limits. -/

/-- Bytes of an element of DST in REDUCE's OUTFMT (R147, R358): a raw wide partial takes 16. -/
def outBytes (fmt : Nat) : Nat := if fmt = 8 then 16 else if fmt = 0 ∨ fmt = 7 then 4 else if fmt = 1 ∨ fmt = 2 then 2 else 1

/-- The output regions known at fetch (R144, R146, R147, R152); of a GATHER and of what a MAP or SYNC_TABLE withdraws, what
the packet gives: the rest with the plan and the entries (R305, R356). -/
def fetchRegions (c : Cmd) : List (Nat × Nat) :=
  let here (off len : Nat) : List (Nat × Nat) := if c.isHost off then [] else [(c.addr off, len)]
  let op := c.op
  if op = 0x10 then (if c.byte 42 2 = 1 then [(c.byte 48 8, c.byte 56 8)] else regionList c.ind (c.byte 42 2))
  else if op = 0x02 then (if c.byte 32 8 = 0 then [] else (here 32 8).map (fun r => (lineBase r.1, 64)))
  else if op = 0x20 then here 24 (c.byte 32 8)
  else if op = 0x21 then [(c.byte 16 8, c.byte 24 8)]
  else if op = 0x22 then [(c.byte 24 8, c.byte 32 8)]
  else if op = 0x23 then here 24 (c.byte 32 8 + 64)
  else if op = 0x30 then [(c.byte 32 8, roundUp (c.byte 40 4 * outBytes (c.byte 46 1)) 64)]
  else if op = 0x31 ∨ op = 0x32 then [(c.byte 32 8, c.byte 40 8)]
  else if op = 0x34 then (if c.byte 16 1 % 8 = 2 ∧ c.byte 40 8 ≠ 0 then [(c.byte 32 8, c.byte 40 8)] else [])
  else if op = 0x60 then here 24 4096
  else if op = 0x63 then here 32 3584
  else if op = 0x70 then here 24 (64 * c.byte 18 2)
  else if op = 0x41 then [(c.byte 16 8, c.byte 32 4 * (if c.byte 36 1 = 0 then 2 ^ 16 else if c.byte 36 1 = 1 then 2 ^ 21 else 2 ^ 30))]
  else []

/-- The command holds a tracker entry (R160): until its record is written, and a held LAUNCH until its disposal. -/
def Cmd.tracked (c : Cmd) : Bool := c.phase != .written

/-- Entries held for a colony, by normal rings, in all, and by one ring. -/
def usedBy (s : State) (colony : Nat) : Nat := (s.cmds.filter (fun e => e.2.tracked && e.2.colony == colony)).length
def usedNormal (s : State) : Nat := (s.cmds.filter (fun e => e.2.tracked && !e.2.urgent)).length
def usedAll (s : State) : Nat := (s.cmds.filter (fun e => e.2.tracked)).length
def ringInflight (s : State) (page ring : Nat) : Nat :=
  (s.cmds.filter (fun e => e.2.tracked && e.2.page == page && e.2.ring == ring)).length

/-- HUB.TRKLIM[c].LIMIT (R161). -/
def limitOf (s : State) (colony : Nat) : Nat := tget 256 s.hub.trkLim colony

/-- A deferred LAUNCH is held, or its attempt runs or is being killed (R161). -/
def Cmd.deferredNow (c : Cmd) : Bool := c.defer && ((c.held && !c.finished) || c.phase == .running || c.phase == .killing)

/-- Deferred LAUNCHes held or running, of one colony or of all (R161). -/
def deferredOf (s : State) (p : Nat → Bool) : Nat := (s.cmds.filter (fun e => e.2.deferredNow && p e.2.colony)).length

/-- A FENCE or WAIT of the ring is not yet satisfied (R137). -/
def ringBlocked (s : State) (page ring : Nat) : Bool :=
  s.cmds.any (fun e => e.2.page == page && e.2.ring == ring && (e.2.op == 0x01 || e.2.op == 0x03) && !e.2.finished)

/-- The ring has a packet and nothing holds its fetch but the limits of normal rings (R137, R160). -/
def ringOpen (s : State) (page ring : Nat) (r : SqRing) : Bool :=
  r.st == .running && r.head != r.tail && (page == 0 || (colAt s page).st == .active) && !ringBlocked s page ring && decide (usedAll s < 4096)

/-- A colony is below its tracker limit (R160). -/
def belowLimit (s : State) (colony : Nat) : Bool := decide (usedBy s colony < limitOf s colony)

/-- The ring may be fetched for a packet (R137, R160). -/
def fetchable (s : State) (page ring : Nat) (r : SqRing) (pkt : List Byte) : Bool :=
  ringOpen s page ring r && (r.urgent || (decide (usedNormal s < 3840) && belowLimit s (actsFor page pkt)))

/- The order of fetching (R137). -/

/-- A normal ring may be fetched whatever its next packet is: a PF ring, whose packet names its colony, where no colony is at its
limit. -/
def normalReady (s : State) (page ring : Nat) (r : SqRing) : Bool :=
  !r.urgent && ringOpen s page ring r && decide (usedNormal s < 3840) &&
  (if page = 0 then (List.range 65).all (belowLimit s) else belowLimit s page)

/-- An urgent ring may be fetched. -/
def urgentReady (s : State) (page ring : Nat) : Bool := (sqAt s page ring).urgent && ringOpen s page ring (sqAt s page ring)

/-- A normal ring's place in the rotation of pages, and of rings within a page. -/
def turnPlace (s : State) (page ring : Nat) : Nat := (page + 64 - s.hub.lastPage) % 65 * 16 + (ring + 15 - tget 15 s.hub.lastRing page) % 16

/-- The visit under way goes on: fewer than 16 packets have been taken and the ring may be fetched. -/
def visitGoesOn (s : State) (page ring : Nat) : Bool :=
  match s.hub.visit with
  | some (p, r, k) => p == page && r == ring && decide (k < 16)
  | none => false

/-- Another ring is being visited and may be fetched on. -/
def visitElsewhere (s : State) (page ring : Nat) : Bool :=
  match s.hub.visit with
  | some (p, r, k) => !(p == page && r == ring) && decide (k < 16) && normalReady s p r (sqAt s p r)
  | none => false

/-- Bonor fetches from this ring next (R137): urgent rings in the order of their doorbells, else the ring being visited, up to 16
packets, else the first in rotation that may be fetched. -/
def fetchTurn (s : State) (page ring : Nat) : Bool :=
  let ahead := s.hub.urgOrder.takeWhile (fun e => e != (page, ring))
  if (sqAt s page ring).urgent then !ahead.any (fun e => urgentReady s e.1 e.2)
  else
    !s.hub.sqs.any (fun e => urgentReady s (e.1 / 16) (e.1 % 16)) && !visitElsewhere s page ring &&
    (visitGoesOn s page ring ||
     !s.hub.sqs.any (fun e => normalReady s (e.1 / 16) (e.1 % 16) e.2 && decide (turnPlace s (e.1 / 16) (e.1 % 16) < turnPlace s page ring)))

/-- A packet of a ring has been fetched. -/
def noteFetch (s : State) (page ring : Nat) : State :=
  if (sqAt s page ring).urgent then
    (if (sqAt s page ring).head = (sqAt s page ring).tail then modHub s (fun h => { h with urgOrder := h.urgOrder.filter (fun e => e != (page, ring)) }) else s)
  else if visitGoesOn s page ring then modHub s (fun h => { h with visit := h.visit.map (fun v => (v.1, v.2.1, v.2.2 + 1)) })
  else modHub s (fun h => { h with visit := some (page, ring, 1), lastPage := page, lastRing := tset h.lastRing page ring })

/-- A device read of host memory meets a PCI Express error: AER logs it (R485). -/
def logAer (s : State) (kind : Nat) : State := { s with pcie := { s.pcie with aer := kind :: s.pcie.aer } }

/-- The command that a slot's packet becomes; `ind` is what a host descriptor read gave. -/
def newCmd (s : State) (page ring : Nat) (pkt : List Byte) (ind : Option (List Byte)) : Cmd × Bool :=
  let c : Cmd := { page := page, ring := ring, pkt := pkt, colony := actsFor page pkt, urgent := (sqAt s page ring).urgent }
  if indLen c = 0 then (c, true)
  else
    let got := if c.isHost 8 then ind.map (padTo (indLen c))
      else if c.colony = 0 then none
      else (vaRead s c.colony (c.addr 8) (indLen c) .read).toOption
    match got with
    | some b => ({ c with ind := b }, true)
    | none => (c, false)

/-- A COPY of a colony with a live session that touches host memory is sealed; one to the host is given its counter (R404). -/
def sealAtFetch (s : State) (id : Nat) : State :=
  match cmdAt s id with
  | none => s
  | some c => match (colAt s c.colony).sealSess with
    | none => s
    | some (last, n) =>
      if c.op != 0x20 || !(c.isHost 16 || c.isHost 24) then s
      else if c.isHost 16 then setCmd s id { c with stage := 1 }
      else modCol (setCmd s id { c with stage := 1, iv := 2 + 2 ^ 32 * n }) c.colony (fun x => { x with sealSess := some (last, n + 1) })

/-- What a COMMIT or ABANDON may do with a candidate (R159). -/
inductive Eligible where
  | no
  | waits
  | acts
  | refused (detail : Nat)
  deriving DecidableEq, Repr

/-- A non-preemptible attempt runs. -/
def npRunning (c : Cmd) : Bool := c.nonPreempt && c.phase == .running

/-- R159's rows for a COMMIT. -/
def commitRow (c : Cmd) : Eligible :=
  match c.phase with
  | .held => .acts
  | .done => if c.unsettled then .refused c.status else .no
  | .written => if c.unsettled then .refused c.status else .no
  | _ => if npRunning c || c.defer then .waits else .no

/-- R159's rows for an ABANDON. DESIGN CHOICE (log entry 109): a commit is in progress from step 3 of R170 on (R174); the model's publish is one event, so no
ABANDON meets one, and before it a target's outputs are discarded. -/
def abandonRow (c : Cmd) : Eligible :=
  match c.phase with
  | .held => .acts
  | .done => if c.unsettled then .refused 0 else .no
  | .written => if c.unsettled then .refused 0 else .no
  | .started => if c.attempted || c.op == 0x03 then .acts else .refused 1
  | _ => if npRunning c then .waits else .acts

/-- A command taken for another COMMIT or ABANDON that was fetched first and has not ended (R159). -/
def takenElsewhere (s : State) (id : Nat) (x : Cmd) : Bool := x.takenBy.any (fun k => k != id && (cmdAt s k).any (fun b => !b.finished))

/-- The oldest command with the tag on the ring that a COMMIT or ABANDON can have (R145, R159). -/
def targetFor (s : State) (id : Nat) (c : Cmd) (row : Cmd → Eligible) : Option (Nat × Cmd) :=
  s.cmds.find? (fun e => e.1 != id && e.2.page == c.page && e.2.ring == c.byte 20 1 % 16 && e.2.tag == c.byte 16 4 &&
    (e.2.tracked || e.2.unsettled) && e.2.claimedBy.isNone && !takenElsewhere s id e.2 && row e.2 != .no)

/-- The oldest command with the tag on the ring that holds a tracker entry: SAMPLE's choice (R145, R151). -/
def sampleFor (s : State) (id : Nat) (c : Cmd) : Option (Nat × Cmd) :=
  s.cmds.find? (fun e => e.1 != id && e.2.page == c.page && e.2.ring == c.byte 20 1 % 16 && e.2.tag == c.byte 16 4 && e.2.tracked)

/-- The target that a COMMIT, ABANDON or SAMPLE has at its fetch. -/
def targetAtFetch (s : State) (id : Nat) (c : Cmd) : Option (Nat × Cmd) :=
  if c.op = 0x11 then targetFor s id c commitRow
  else if c.op = 0x12 then targetFor s id c abandonRow
  else if c.op = 0x71 then sampleFor s id c
  else none

/-- COLONY names another colony than the one the target acts for (R130). -/
def wrongColony (c : Cmd) (t : Option (Nat × Cmd)) : Bool := t.any (fun e => e.2.colony != c.colony)

/-- The first COMMIT or ABANDON to be fetched takes the target (R159). -/
def takeAtFetch (s : State) (id : Nat) (c : Cmd) : State :=
  if c.op = 0x71 then s
  else match targetAtFetch s id c with
    | some (t, _) => modCmd s t (fun x => { x with takenBy := some id })
    | none => s

/-- The bytes of host memory that a fetch reads, packet and host descriptor, are counted (R191); a descriptor in colony memory is
read by Bonor (R299). -/
def countFetch (s : State) (c : Cmd) : State :=
  let s1 := modAcct s c.colony (fun a => { a with hostIn := wrapAdd 64 a.hostIn (64 + (if c.isHost 8 then indLen c else 0)) })
  if indLen c = 0 ∨ c.isHost 8 ∨ c.colony = 0 then s1 else noteRead s1 c (c.addr 8) (indLen c) .read

/-- PACKET_FETCH (R134, R137 to R142, R157, R160, R161): `slot` is what the host read of the slot gave, none for a PCI
Express error; `ind` what the host read of an indirect descriptor in host memory gives. -/
def execPacketFetch (page ring : Nat) (slot ind : Option (List Byte)) (s : State) : Res :=
  let r := sqAt s page ring
  if !serving s || decide (64 < page) || decide (16 ≤ ring) || s.boot.removed then .next s
  else match slot with
  | none =>
    if fetchable s page ring r [] && fetchTurn s page ring then .next (logAer (setSq s page ring { r with st := .stopped, fetcherr := true }) 0) else .next s
  | some raw =>
    let pkt := padTo 64 raw
    if !fetchable s page ring r pkt || !fetchTurn s page ring then .next s
    else
      let s0 := noteFetch (setSq s page ring { r with head := (r.head + 1) % ringSlots r.log2n }) page ring
      let s1 := countFetch s0 (newCmd s0 page ring pkt ind).1
      let id := s1.nextCmd
      let (c, indOk) := newCmd s1 page ring pkt ind
      let put (x : Cmd) : State := { s1 with cmds := tset s1.cmds id x, nextCmd := id + 1 }
      match validate c indOk with
      | some (status, detail) =>
        let c0 := { c with dying := true }
        .next (if status = 0x04 then bonorFault (put c0) id 0x02 0x04 detail else endCmd (put c0) id status detail 0)
      | none =>
        let c1 := { c with regions := fetchRegions c }
        if wrongColony c1 (targetAtFetch s1 id c1) then .next (endCmd (put { c with dying := true }) id 0x0A 3 0)
        else if c1.defer && (decide (max 1 (limitOf s c1.colony / 2) ≤ deferredOf s (fun k => k == c1.colony)) || decide (2048 ≤ deferredOf s (fun _ => true))) then
          .next (endCmd (put c1) id 0x0C 0 0)
        else .next (takeAtFetch (sealAtFetch (put c1) id) id c1)

end Sys2Proof.Machine
end

