-- ==== Sys2Proof/Machine/Sched.lean ====
section
/-! DEFINITION. When a command may start (R157, R164, R166, R202), the shadow reserve (R165), what an attempt publishes
(R170, R172, R278), and queue control: NOP, FENCE, SIGNAL, WAIT (R143, R157, R158), COMMIT, ABANDON (R145, R159), and
completion records (R153, R154). -/

namespace Sys2Proof.Machine

/- Starting. -/

/-- The command comes earlier on the same ring. -/
def earlierOnRing (id : Nat) (c : Cmd) (e : Nat × Cmd) : Bool := decide (e.1 < id) && e.2.page == c.page && e.2.ring == c.ring

/-- The pages that a MAP or SYNC_TABLE not yet started may withdraw (R305): those of its range that a MAP takes a permission
from; for SYNC_TABLE, whose entries lie with the host, every valid page of its range. -/
def pendingWithdrawal (s : State) (c : Cmd) : List (Nat × Nat) :=
  let size := c.byte 36 1 % 4
  let perm := c.byte 37 1
  let hit (p : Pte) : Bool := p.size == size && decide (c.byte 16 8 ≤ p.va) && decide (p.va < c.byte 16 8 + c.byte 32 4 * pageBytes size)
  let loses (p : Pte) : Bool := (p.r && !perm.testBit 0) || (p.w && !perm.testBit 1) || (p.i && !perm.testBit 2)
  ((colAt s c.colony).ptes.filter (fun p => hit p && (c.op == 0x42 || loses p))).map (fun p => (p.va, pageBytes p.size))

/-- The members that a GATHER's plan names, as far as it can be read before the start (R356, R360). -/
def plannedMembers (s : State) (c : Cmd) : Nat :=
  match vaRead s c.colony (c.byte 48 8) 16 .read with
  | .ok h => max 1 (bytesAt h 8 2)
  | .error _ => 1

/-- A command's output regions as they stand for R166: what a GATHER's plan and a withdrawal add is known before their start too. -/
def regionsNow (s : State) (c : Cmd) : List (Nat × Nat) :=
  if (c.op = 0x40 ∨ c.op = 0x42) ∧ c.regions = [] then pendingWithdrawal s c
  else if c.op = 0x31 ∧ c.members = 0 then [(c.byte 32 8, c.byte 40 8 * plannedMembers s c)]
  else c.regions

/-- An earlier-fetched, uncommitted command of the colony conflicts with the command: their output regions share a byte (R166). -/
def conflicted (s : State) (id : Nat) (c : Cmd) : Bool :=
  s.cmds.any (fun e => decide (e.1 < id) && e.2.colony == c.colony && !e.2.finished &&
    (regionsNow s e.2).any (fun r => c.regions.any (fun q => regionsMeet r q)))

/-- An earlier command of the ring that holds later ones back (R157, R158): not started, or a FENCE or WAIT not yet done.
COMMIT and ABANDON do not wait behind a command held at step 2 of R164, nor behind the commands that stand behind it. -/
def holdsBack (s : State) (c : Cmd) (e : Nat × Cmd) : Bool :=
  ((e.2.op == 0x01 || e.2.op == 0x03) && !e.2.finished) ||
  (!e.2.started && !((c.op == 0x11 || c.op == 0x12) &&
    s.cmds.any (fun d => decide (d.1 ≤ e.1) && d.2.page == c.page && d.2.ring == c.ring && !d.2.started && conflicted s d.1 d.2)))

/-- A fetched command may start now; commands of a colony in reset, teardown or BINDING wait. -/
def canStart (s : State) (id : Nat) (c : Cmd) : Bool :=
  serving s && c.phase == .fetched && !s.cmds.any (fun e => earlierOnRing id c e && holdsBack s c e) &&
  (c.colony == 0 || (colAt s c.colony).st == .active || (colAt s c.colony).st == .free)

/-- The frame of a command that Bonor carries out directly: it acts once it may start. -/
def direct (s : State) (id op : Nat) (body : Cmd → State) : State :=
  match cmdAt s id with
  | none => s
  | some c => if c.op = op ∧ canStart s id c then body c else s

/-- The same for a command that may also be waiting inside its own sequence already. -/
def directOrWaiting (s : State) (id op : Nat) (body : Cmd → State) : State :=
  match cmdAt s id with
  | none => s
  | some c => if c.op = op ∧ (canStart s id c ∨ (serving s ∧ c.phase = .started)) then body c else s

/-- A command waits inside its sequence. -/
def waitIn (s : State) (id : Nat) : State := modCmd s id (fun c => { c.asStarted with phase := .started })

/- Shadow reserve (R165, R293, R294). -/

/-- The pages of a colony that some region touches (R165). -/
def touchedPages (c : Colony) (regions : List (Nat × Nat)) : List Pte :=
  c.ptes.filter (fun p => regions.any (fun r => regionsMeet r (p.va, pageBytes p.size)))

/-- Frames needed, the largest first: (set, size). -/
def needOf (pages : List Pte) : List (Nat × Nat) :=
  ([2, 1, 0] : List Nat).flatMap (fun z => (pages.filter (fun p => p.size == z)).map (fun p => (setOf p.dpa, pageBytes p.size)))

/-- The whole pools of a colony, nothing taken (R210, R293). -/
def wholePool (c : Colony) : List Frames := (fullSets c.cur).map (freshPool c.shadow)

/-- What a reserve meets. -/
inductive Reserve where
  | taken (frames : List Frames) (col : Colony)
  | wait
  | never
  deriving Repr

/-- R165: the reserve of a need, taken set by set. -/
def reserveOf (c : Colony) (need : List (Nat × Nat)) : Reserve :=
  match takeFrames c need with
  | some (fs, c1) => .taken fs c1
  | none => match takeFrames { c with pool := wholePool c } need with
    | some _ => .wait
    | none => .never

/-- Frames go back to a colony's pool (R165, R170 step 6, R176) while it holds their set in full. -/
def giveBack (s : State) (colony : Nat) (fs : List Frames) : State :=
  modCol s colony (fun c => fs.foldl (fun x f => if holdsSet x.cur (setOf f.start) then giveFrame x f else x) c)

/- Publish (R170, R172, R278). -/

/-- A cached leaf lies on a page that is being published. -/
def onPage (dpa size leaf bytes : Nat) : Bool := decide (dpa < leaf + bytes) && decide (leaf < dpa + size)

/-- Every translation cache forgets a page of a colony (R170 step 3). -/
def forgetPage (s : State) (colony dpa size : Nat) : State :=
  filterWalkers (filterTcs s (fun e => !(e.colony == colony && onPage dpa size e.dpa (pageBytes e.size))))
    (fun e => !(e.colony == colony && e.leaf.any (fun p => onPage dpa size p.dpa (pageBytes p.size))))

/-- The lines of a frame that some cache or directory entry names leave every cache (R278). -/
def recallFrame (s : State) (frame size : Nat) : State :=
  let named := s.chans.flatMap (fun e => e.2.dir.map (fun d => (e.1, d.offset))) ++ (allLines s).map (fun l => (l.channel, l.offset))
  named.foldl (fun t k => let fa := frameAddr k.1 k.2
    if decide (frame ≤ fa) && decide (fa < frame + size) then closeLine t k.1 k.2 else t) s

/-- The frames behind a page's 64 KiB parts, as runs. -/
def oldFrames (c : Colony) (sh : Shadow) : List Frames :=
  (List.range (sh.size / 65536)).foldr (fun i acc =>
    insertRun acc { colony := 0, start := frameBase c (sh.dpa + 65536 * i), size := 65536 }) []

/-- The exchange of one page's frame with its shadow frame (R170 step 4): the page's DPA keeps its name. -/
def exchange (s : State) (id colony : Nat) (sh : Shadow) : State :=
  let old := joinRuns (oldFrames (colAt s colony) sh)
  let s1 := forgetPage (old.foldl (fun t f => recallFrame t f.start f.size) s) colony sh.dpa sh.size
  let s2 := modCol s1 colony (fun c => { c with frames := (List.range (sh.size / 65536)).foldl (fun t i =>
    tset t (sh.dpa / 65536 + i) (sh.frame / 65536 + i)) c.frames })
  modCmd s2 id (fun c => { c with returning := c.returning ++ old.map (fun f => ⟨f, c.attempts, some s.hub.finished⟩) })

/-- All of a command's pages, and its unbound reserve given up. -/
def exchangeAll (s : State) (id : Nat) : State :=
  match cmdAt s id with
  | none => s
  | some c =>
    let s1 := c.shadows.foldl (fun t sh => exchange t id c.colony sh) s
    modCmd s1 id (fun x => { x with returning := x.returning ++ x.reserve.map (fun f => ⟨f, x.attempts, none⟩), reserve := [], shadows := [] })

/- Queue control (R143, R157, R158). -/

/-- NOP_COMMAND (R143). -/
def execNopCommand (cmd : Nat) (s : State) : Res := .next (direct s cmd 0x00 (fun _ => completeOk s cmd 0))

/-- The commands in a FENCE's scope (R130, R143, R157). -/
def inScope (id : Nat) (c : Cmd) (e : Nat × Cmd) : Bool :=
  decide (e.1 < id) &&
  (if (c.byte 16 1).testBit 0 then (if c.colony = 0 then e.2.page == 0 else e.2.colony == c.colony)
   else e.2.page == c.page && e.2.ring == c.ring)

/-- FENCE (R143, R157): satisfied once every command in its scope has written its record. -/
def execFence (cmd : Nat) (s : State) : Res :=
  .next (directOrWaiting s cmd 0x01 (fun c =>
    if s.cmds.any (fun e => inScope cmd c e && !e.2.recorded) then waitIn s cmd else completeOk s cmd 0))

/-- A SIGNAL's counter after it acts (R143). -/
def signalled (s : State) (c : Cmd) : Word :=
  let v := BitVec.ofNat 64 (c.byte 24 8)
  if (c.byte 18 1).testBit 0 then v else syncAt s c.page (c.byte 16 2) + v

/-- A host write of the device for a colony, counted (R139, R191). -/
def hostOut (s : State) (page colony addr : Nat) (data : List Byte) : State :=
  modAcct (emit s (.hostWrite (pageOwner s page) addr data)) colony (fun a => { a with hostOut := wrapAdd 64 a.hostOut data.length })

/-- A host write of a command's attempt (R169, R190). -/
def hostPut (s : State) (id page colony addr : Nat) (data : List Byte) : State :=
  countFor (emit s (.hostWrite (pageOwner s page) addr data)) id colony (fun a => { a with hostOut := wrapAdd 64 a.hostOut data.length })

/-- The page that a destination of R152 lies on: mapped and writable, on channels of the colony. -/
def destPage (s : State) (colony va : Nat) : Option Pte :=
  match walk (colAt s colony) va .write with
  | .ok _ p => some p
  | _ => none

/-- Every page of a colony-memory destination is mapped and writable (R152, R299). -/
def destOk (s : State) (c : Cmd) : Bool :=
  c.regions.all (fun r => (List.range ((r.1 % 65536 + r.2 + 65535) / 65536)).all (fun i =>
    (destPage s c.colony (r.1 / 65536 * 65536 + 65536 * i)).isSome))

/-- The common start of a command of R152 that writes colony memory: its destination, the conflict of R166 and the
reserve of R165; then `body` with the reserve held. -/
def reserved (s : State) (id : Nat) (c : Cmd) (body : State → State) : State :=
  if !destOk s c then bonorFault (modCmd s id Cmd.asStarted) id 0x02 0x04 0
  else if conflicted s id c then s
  else match reserveOf (colAt s c.colony) (needOf (touchedPages (colAt s c.colony) c.regions)) with
    | .never => refuseCmd s id 0x0B 0 0
    | .wait => s
    | .taken fs col => body (modCmd (setCol s c.colony col) id (fun x => { x with reserve := fs, attempts := max 1 x.attempts }))

/-- A whole line written into a command's shadow frame at a virtual address (R165, R168); nothing without a writable page. -/
def shadowWrite (s : State) (id va : Nat) (data : List Byte) : State :=
  match cmdAt s id with
  | none => s
  | some c =>
    match walk (colAt s c.colony) va .write with
    | .ok dpa p => match bindShadow s id p with
      | some (sh, s1) => ncWriteLine s1 c.cls (sh.addr (lineBase dpa)) data
      | none => s
    | _ => s

/-- Bytes written line by line from a line's address. -/
def shadowWriteAll (s : State) (id va : Nat) : Nat → List Byte → State
  | 0, _ => s
  | k + 1, d => shadowWriteAll (shadowWrite s id va (padTo 64 (d.take 64))) id (va + 64) k (d.drop 64)

/-- A report goes to its destination at packet offset `off` (R139, R152): host memory at once, colony memory through
shadow frames and a commit; RESULT is given. -/
def writeReport (s : State) (id : Nat) (c : Cmd) (off : Nat) (data : List Byte) (result : Nat) : State :=
  if c.isHost off then completeOk (hostOut s c.page c.colony (c.addr off) data) id result
  else reserved s id c (fun t =>
    modCmd (shadowWriteAll t id (c.addr off) ((data.length + 63) / 64) data) id (fun x => { x with phase := .ended, result := result }))

/-- What the SRC field of a command at a packet offset gives (R139, R191, R299): host memory, as the operand says, none for a PCI
Express error; or colony memory. -/
def srcRead (s : State) (c : Cmd) (off len : Nat) (host : Option (List Byte)) : Except VaErr (State × List Byte) :=
  if c.isHost off then
    match host with
    | some b => .ok (modAcct s c.colony (fun a => { a with hostIn := wrapAdd 64 a.hostIn len }), padTo len b)
    | none => .error .access
  else match vaRead s c.colony (c.addr off) len .read with
    | .error e => .error e
    | .ok b => .ok (noteRead s c (c.addr off) len .read, b)

/-- SIGNAL (R143, R152, R158): it acts once every earlier command of its ring has written its record; a NOTIFY in colony
memory changes with the counter at its publish. -/
def execSignal (cmd : Nat) (s : State) : Res :=
  .next (direct s cmd 0x02 (fun c =>
    if s.cmds.any (fun e => earlierOnRing cmd c e && !e.2.recorded) then s
    else if c.byte 32 8 ≠ 0 ∧ !c.isHost 32 then
      reserved s cmd c (fun t =>
        match vaRead t c.colony (lineBase (c.addr 32)) 64 .write with
        | .error e => vaFault t cmd e
        | .ok line => modCmd (shadowWrite (noteRead t c (lineBase (c.addr 32)) 64 .write) cmd (lineBase (c.addr 32)) line) cmd (fun x => { x with phase := .ended }))
    else
      let v := signalled s c
      let s1 := changeSync s c.page (c.byte 16 2) v
      let s2 := if c.byte 32 8 = 0 then s1 else hostOut s1 c.page c.colony (c.addr 32) (leBytes 8 v.toNat)
      completeOk s2 cmd v.toNat))

/-- WAIT_COMMAND (R143, R158): its test; where it fails the command waits for a change of the counter. -/
def execWaitCommand (cmd : Nat) (s : State) : Res :=
  .next (direct s cmd 0x03 (fun c =>
    let v := syncAt s c.page (c.byte 16 2)
    if waitHolds c v then completeOk s cmd v.toNat else waitIn s cmd))

/-- WAIT_TIMEOUT (R143, R158). -/
def execWaitTimeout (cmd : Nat) (s : State) : Res :=
  match cmdAt s cmd with
  | some c => .next (if c.op = 0x03 ∧ c.phase = .started ∧ c.byte 20 4 ≠ 0 ∧ serving s then refuseCmd s cmd 0x0C 0 0 else s)
  | none => .next s

/- Completion records (R153, R154). -/

/-- CORE_US (R153, R190): rounded up, saturating. -/
def coreUs (c : Cmd) : Nat := min ((c.coreNs + 999) / 1000) (2 ^ 32 - 1)

/-- The 32 bytes of a completion record (R153). -/
def recordBytes (c : Cmd) (head : Nat) (phase : Bool) (cseq : Nat) : List Byte :=
  leBytes 4 c.tag ++ leBytes 2 head ++ leBytes 1 (c.ring % 16 + 128 * b2n phase) ++ leBytes 1 c.status ++ leBytes 1 c.op ++
  leBytes 1 (b2n c.low + 2 * b2n c.high + 4 * b2n c.held + 8 * b2n c.recovered + 16 * b2n c.faultId.isSome) ++
  leBytes 1 (min 255 c.attempts) ++ zeros 1 ++ leBytes 2 (c.faultId.getD 0) ++ leBytes 2 c.detail ++ leBytes 8 c.result ++
  leBytes 4 (coreUs c) ++ leBytes 4 cseq

/-- The record of a command is due. -/
def Cmd.due (c : Cmd) : Bool := !c.recorded && (c.phase == .done || c.held)

/-- A deferred LAUNCH beyond a limit of R161, which did not run. -/
def Cmd.refusedAtFetch (c : Cmd) : Bool := c.status == 0x0C && c.attempts == 0

/-- The command has written its record: it leaves the tracker, unless it still holds outputs or frames (R160). A deferred LAUNCH
that failed stays until its disposal, without an entry where it was refused at its fetch (R159 to R161; log entry 93). -/
def afterRecord (s : State) (id : Nat) : State :=
  match cmdAt s id with
  | none => s
  | some c =>
    if c.phase ≠ .done then setCmd s id { c with recorded := true }
    else if c.unsettled then setCmd s id { c with recorded := true, phase := if c.refusedAtFetch then .written else .done }
    else if c.returning.isEmpty then { s with cmds := tdel s.cmds id }
    else setCmd s id { c with recorded := true, phase := .written }

/-- RECORDS_DROPPED (R135, R415). -/
def dropRecord (s : State) (colony : Nat) : State := (recordFault s (blankRec 0x32 0 .none colony)).1

/-- A record dropped at the teardown of its page's colony counts in the RESULT of the UNBIND (R162). -/
def countDropped (s : State) (page : Nat) : State :=
  if (colAt s page).st = .teardown then modCol s page (fun x => { x with dropped := x.dropped + 1 }) else s

/-- A record due to a disabled completion ring is dropped (R135, R162). -/
def dropDisabled (s : State) (id : Nat) (c : Cmd) : State := countDropped (afterRecord (dropRecord s c.colony) id) c.page

/-- An earlier-finished command of the same page and completion ring still waits for its record (R154). -/
def recordBehind (s : State) (id : Nat) (c : Cmd) (cq : Nat) : Bool :=
  s.cmds.any (fun e => e.1 != id && e.2.due && e.2.page == c.page && (sqAt s e.2.page e.2.ring).cq == cq && decide (e.2.fin < c.fin))

/-- The record is sent (R132, R153, R154, R191). -/
def sendRecord (s : State) (id : Nat) (c : Cmd) : State :=
  let sq := sqAt s c.page c.ring
  let q := cqAt s c.page sq.cq
  let n := ringSlots q.log2n
  let owner := pageOwner s c.page
  let cseq := tget 1 s.hub.cseq c.page
  let s1 := hostOut s c.page c.colony (q.base * 4096 + 32 * q.tail) (recordBytes c sq.head q.phase cseq)
  let s2 := setCq s1 c.page sq.cq { q with tail := (q.tail + 1) % n, phase := if q.tail + 1 = n then !q.phase else q.phase }
  let s3 := modHub s2 (fun h => { h with cseq := tset h.cseq c.page (wrapAdd 32 cseq 1) })
  let s4 := modAcct s3 c.colony (fun a => { a with records := wrapAdd 64 a.records 1 })
  let s5 := if q.irqAll || c.irq || c.status != 0 then raiseMsix s4 owner q.vec else s4
  let s6 := if sq.errStop && c.status != 0 && sq.st == .running then setSq s5 c.page c.ring { sq with st := .stopped } else s5
  afterRecord s6 id

/-- COMPLETION_RECORD_WRITE (R132, R135, R153, R154). -/
def execCompletionRecordWrite (cmd : Nat) (s : State) : Res :=
  match cmdAt s cmd with
  | none => .next s
  | some c =>
    let q := cqAt s c.page (sqAt s c.page c.ring).cq
    if !serving s || !c.due || recordBehind s cmd c (sqAt s c.page c.ring).cq then .next s
    else if !q.enable then .next (dropDisabled s cmd c)
    else if (q.tail + 1) % ringSlots q.log2n = q.head then .next s
    else .next (sendRecord s cmd c)

/- COMMIT and ABANDON (R145, R159). -/

/-- The target of a COMMIT or ABANDON (R145, R159): the one it waits for, else the oldest that it can have. -/
def targetOf (s : State) (id : Nat) (c : Cmd) (row : Cmd → Eligible) : Option (Nat × Cmd) :=
  match c.target with
  | some t => (cmdAt s t).map (fun x => (t, x))
  | none => targetFor s id c row

/-- The command waits with its target taken. -/
def claimTarget (s : State) (id t : Nat) : State :=
  modCmd (modCmd (waitIn s id) id (fun c => { c with target := some t })) t (fun c => { c with claimedBy := some id })

/-- COMMIT (R145, R157, R159). -/
def execCommit (cmd : Nat) (s : State) : Res :=
  .next (directOrWaiting s cmd 0x11 (fun c =>
    match targetOf s cmd c commitRow with
    | none => refuseCmd s cmd 0x0B 0 0
    | some (t, x) =>
      if x.colony != c.colony then refuseCmd s cmd 0x0A 3 0
      else match commitRow x with
      | .acts => modCmd (claimTarget s cmd t) t (fun y => { y with phase := .ended })
      | .waits => claimTarget s cmd t
      | .refused d => refuseCmd s cmd 0x0B d 0
      | .no => if x.phase = .ended ∨ x.phase = .merged then s else refuseCmd s cmd 0x0B 0 0))

/-- A held LAUNCH's outputs are discarded (R159): its HELD record stands, or is still to be written. -/
def discardHeld (s : State) (t : Nat) : State :=
  leaveTracker (modCmd s t (fun c => { c.discard with phase := if c.recorded then .written else .done })) t

/-- A failed deferred LAUNCH is disposed of: its entry is free once its record is written and its frames have returned (R159,
R160). -/
def disposeFailed (s : State) (t : Nat) (by_ : Option Nat) : State :=
  match cmdAt s t with
  | none => s
  | some c =>
    if !c.recorded then setCmd s t { c with claimedBy := by_, dying := true }
    else if c.returning.isEmpty then { s with cmds := tdel s.cmds t }
    else setCmd s t { c with phase := .written, dying := true }

/-- ABANDON (R145, R159). -/
def execAbandon (cmd : Nat) (s : State) : Res :=
  .next (directOrWaiting s cmd 0x12 (fun c =>
    match targetOf s cmd c abandonRow with
    | none => refuseCmd s cmd 0x0B 0 0
    | some (t, x) =>
      if x.colony != c.colony then refuseCmd s cmd 0x0A 3 0
      else match abandonRow x with
      | .acts => if x.phase = .held then completeOk (discardHeld s t) cmd 0
          else completeOk (abortCmd (modCmd s t (fun y => { y with claimedBy := none })) t 2) cmd 0
      | .waits => claimTarget s cmd t
      | .refused 0 => completeOk (disposeFailed s t (some cmd)) cmd 0
      | .refused d => refuseCmd s cmd 0x0B d 0
      | .no => refuseCmd s cmd 0x0B 0 0))

end Sys2Proof.Machine
end

