-- ==== Sys2Proof/Machine/Map.lean ====
section
/-! DEFINITION. The colony map and the instar (R196 to R201, R204), the wipe of a core with its bank repairs (R27, R36,
R37), and core reclaim (R184, R185). -/

namespace Sys2Proof.Machine

/- Map updates. -/

/-- An advance must wait: the old entry is VALID and unmerged (R200). -/
def advanceHeld (c : Colony) : Bool := c.old.valid && !c.old.merged

/-- A new generation (R198, R199): the current entry becomes the old one; with `mayMerge` and the same channels and ports
it merges, and its outstanding requests are counted in the new entry. An update that changes a unit starts a cold window of the
colony (R259). -/
def advance (c : Colony) (mayMerge : Bool) (cores channels ports : List Nat) : Colony :=
  let merge := mayMerge && c.cur.channels == channels && c.cur.ports == ports
  { c with
    cur := { valid := true, merged := false, instar := (c.cur.instar + 1) % 256, inflight := if merge then c.cur.inflight else 0
             cores := cores, channels := channels, ports := ports }
    old := { c.cur with merged := merge, inflight := if merge then 0 else c.cur.inflight }
    sinceRetire := c.sinceRetire + 1
    cold := if c.cur.cores == cores && c.cur.channels == channels && c.cur.ports == ports then c.cold else 2 }

/-- The translation caches of a colony's units are flushed (R30, R204). -/
def flushTcs (s : State) (colony : Nat) : State := filterTcs s (fun e => e.colony != colony)

/-- Where a colony's revokes and retires go (R353): its peers, or with the peer-set-all mark every DEST of a valid route
entry with PLEN 24. -/
def peerDests (s : State) (colony : Nat) : List Nat :=
  if (colAt s colony).peersAll then sortNat ((s.fab.routes.filter (fun e => bit e.2 29 && field e.2 28 24 == 24)).map (fun e => field e.2 23 0))
  else sortNat ((peerSet s colony).map (fun p => p.1))

/-- A retire message goes to every peer of the colony's peer set (R201, R348), each colony of a peer device once. -/
def sendRetire (s : State) (colony value : Nat) (cmd : Option Nat) : State :=
  let c := colAt s colony
  (peerDests s colony).foldl (fun t d => sendMsg t 4 d colony c.cur.instar 0 [value, t.fab.bootTag] cmd) s

/-- Every 64 advances the value of two generations back is retired at the peers (R201). -/
def retireDue (s : State) (colony : Nat) : State :=
  let c := colAt s colony
  if c.sinceRetire < 64 then s
  else modCol (sendRetire s colony ((c.cur.instar + 254) % 256) none) colony (fun x => { x with sinceRetire := 0 })

/-- The colony's cores switch to its instar (R204). -/
def switchCores (s : State) (colony : Nat) : State :=
  let e := (colAt s colony).cur
  { s with cores := s.cores.map (fun x => (x.1, if e.cores.contains x.1 then { x.2 with instar := e.instar } else x.2)) }

/-- A map update of a colony (R204): its units change, its instar advances, its cores switch and its caches are flushed. -/
def mapUpdate (s : State) (colony : Nat) (mayMerge : Bool) (cores channels ports : List Nat) : State :=
  retireDue (flushTcs (switchCores (modCol s colony (fun c => advance c mayMerge cores channels ports)) colony) colony) colony

/- The wipe of a core (R27, R36 step 5, R37). -/

/-- The storage of a core after its wipe. -/
def wiped (c : Core) : Core :=
  { c with sp := [], im := [], image := none, acc0 := {}, acc1 := {}, dc := [], tc := [], sregs := [], vregs := [], preds := 1
           sems := [], groups := [], mq := [], vq := [], dq := [], pc := 0, cmd := none, ended := false, bars := 0, stall := .none
           want := none, dmaWant := none, lowSpill := false, highSpill := false, wipeBusy := false }

/-- Pending bank repairs taken by free spare banks in the order of marking, each with a count of its own from 0; the Bool says that they do not suffice (R27). -/
def repairBanks (c : Core) : Core × Bool :=
  let marks := [c.pend1, c.pend2].filter (fun b => b != 0x3F)
  let use (x : Core × Bool) (b : Nat) : Core × Bool :=
    if x.1.spare0 = 0x3F then ({ x.1 with spare0 := b, bankCe := tdel x.1.bankCe b }, x.2)
    else if x.1.spare1 = 0x3F then ({ x.1 with spare1 := b, bankCe := tdel x.1.bankCe b }, x.2)
    else (x.1, true)
  let (c1, short) := marks.foldl use (c, false)
  ({ c1 with pend1 := 0x3F, pend2 := 0x3F, overBank := false }, short || c.overBank)

/-- The record being handled while a core is killed (R411): that of the command whose kill awaits the core. -/
def killRecord (s : State) (n : Nat) : Option Nat :=
  (s.cmds.findSome? (fun e => if e.2.phase == .killing && e.2.killing.contains n then e.2.faultId else none)).filter (fun i =>
    (tfind s.flt.recs i).any (fun r => r.st.live && !r.xlt))

/-- A core's wipe fails its check (R35) or finds too few spare banks (R27): the core is fenced, and the fault merges into the record being handled (R411),
else it takes a record of its own. -/
def wipeFault (s : State) (n cause status : Nat) : State :=
  match killRecord s n with
  | some i => fenceUnit (mergeInto s i { blankRec cause 4 (.core n) (coreAt s n).colony with status := status }) (.core n) status (some i)
  | none => fenceFault s cause (.core n) (coreAt s n).colony status

/-- The wipe of a core: every line invalidated at its home, storage zeroed, repairs applied; without spare banks enough
the core is fenced at its end (R27, R415). -/
def wipeCore (s : State) (n : Nat) : State :=
  let s1 := killCache s n
  let (c, short) := repairBanks (wiped (coreAt s1 n))
  let s2 := setCore s1 n c
  if short then wipeFault s2 n 0x30 0x09 else s2

/-- A core takes its place in a colony: BOUND, its counts of one binding cleared (R27, R34). -/
def bindCore (s : State) (n colony : Nat) : State :=
  modCore s n (fun c =>
    if c.st == .fenced then { c with colony := colony, transit := false, claim := none }
    else { c with st := .bound, colony := colony, instar := stampOf s colony, transit := false, claim := none
                  bankCe := [], sramUe := 0, accUe := 0, home := if c.home = colony then 0 else c.home })

/-- A core takes its place in the free pool (R34, R194). -/
def freeCore (s : State) (n : Nat) : State :=
  modCore s n (fun c =>
    if c.st == .fenced then { c with colony := 0, transit := false, claim := none }
    else { c with st := .idle, colony := 0, instar := 0, transit := false, claim := none, bankCe := [], sramUe := 0, accUe := 0 })

/- Cores of a colony. -/

/-- The core numbers of a colony that are not FENCED (R97). -/
def usableCores (s : State) (colony : Nat) : List Nat :=
  (colAt s colony).cur.cores.filter (fun n => (coreAt s n).st != .fenced)

/-- A unit's reset is under way. -/
def resetting (s : State) (u : UnitRef) : Bool :=
  s.flt.recs.any (fun e => e.2.st == .resetting && e.2.unit == u) || s.flt.unrecordedReset.contains u

/-- The urgent LAUNCH that a core is kept for, while it waits to start (R185). -/
def keptFor (s : State) (n : Nat) : Option Nat := (coreAt s n).heldFor.filter (fun id => (cmdAt s id).any (fun c => c.phase == .ready))

/-- The colony's cores that are free for a command: BOUND, in no attempt, in no composition command, in no reset (R420 step 4) and
kept for no other urgent LAUNCH (R185). -/
def freeFor (s : State) (colony id : Nat) : List Nat :=
  (colAt s colony).cur.cores.filter (fun n => (coreAt s n).st == .bound && (coreAt s n).cmd.isNone && !(coreAt s n).transit && (coreAt s n).claim.isNone &&
    !resetting s (.core n) && (keptFor s n).all (fun k => k == id))

/-- The colony's cores that are free for any command. -/
def freeCores (s : State) (colony : Nat) : List Nat := (freeFor s colony s.nextCmd)

/-- The cores of a home colony that are away from home (R184). -/
def awayCores (s : State) (u : Nat) : List Nat :=
  (s.cores.filter (fun e => e.2.home == u && e.2.colony != u && e.2.colony != 0 && e.2.st != .fenced && !e.2.transit)).map (fun e => e.1)

/-- COL and TO of a composition command (R149, R207). -/
def Cmd.colField (c : Cmd) : Nat := c.byte 16 1
def Cmd.toField (c : Cmd) : Nat := if c.op = 0x52 then c.byte 17 1 else if c.op = 0x50 then c.byte 16 1 else 0

/-- A composition command is no longer in progress on its colonies (R202, R217). -/
def composed (s : State) (c : Cmd) : State :=
  let down (t : State) (n : Nat) : State := if n = 0 then t else modCol t n (fun x => { x with recomposing := x.recomposing - 1 })
  down (if c.toField = c.colField then s else down s c.toField) c.colField

/-- A command's claims on units are given up. -/
def dropClaims (s : State) (id : Nat) : State :=
  { s with cores := s.cores.map (fun e => (e.1, if e.2.claim = some id then { e.2 with claim := none } else e.2))
           chans := s.chans.map (fun e => (e.1, if e.2.claim = some id then { e.2 with claim := none } else e.2))
           ports := s.ports.map (fun e => (e.1, if e.2.claim = some id then { e.2 with claim := none } else e.2)) }

/-- A composition command that named a core which reclaim takes before its removal update ends NOT_PERMITTED (R211). -/
def breakClaim (s : State) (n : Nat) : State :=
  match (coreAt s n).claim with
  | some id => match cmdAt s id with
    | some c => refuseCmd (composed (dropClaims s id) c) id 0x0B 0 0
    | none => dropClaims s id
  | none => s

/- Reclaim (R184, R185). -/

/-- Idle cores of one lending colony return home (R185): both map entries advance and merge, the cores are wiped. -/
def bringHome (s : State) (u d : Nat) (ns : List Nat) : State :=
  if ns.isEmpty || advanceHeld (colAt s u) || advanceHeld (colAt s d) then s
  else
    let s0 := ns.foldl breakClaim s
    let e := (colAt s0 d).cur
    let s1 := mapUpdate s0 d true (e.cores.filter (fun n => !ns.contains n)) e.channels e.ports
    let s2 := ns.foldl wipeCore s1
    let h := (colAt s2 u).cur
    let s3 := mapUpdate s2 u true (sortNat (h.cores ++ ns)) h.channels h.ports
    ns.foldl (fun t n => bindCore t n u) s3

/-- The core is in no attempt and no reset. -/
def idleCore (s : State) (n : Nat) : Bool := (coreAt s n).st == .bound && (coreAt s n).cmd.isNone && !resetting s (.core n)

/-- The cores kept for an urgent LAUNCH. -/
def keptCores (s : State) (id : Nat) : List Nat := (s.cores.filter (fun e => e.2.heldFor == some id && e.2.st != .fenced)).map (fun e => e.1)

/-- Cores are kept for an urgent LAUNCH, up to the number it needs (R185). -/
def keep (s : State) (id need : Nat) (ns : List Nat) : State :=
  ((ns.filter (fun n => (keptFor s n).isNone)).take (need - (keptCores s id).length)).foldl
    (fun t n => modCore t n (fun c => { c with heldFor := some id })) s

/-- Cores of an attempt that would come to an urgent LAUNCH of u: those of u at home, and those of u lent out (R185). -/
def coresFor (s : State) (u : Nat) (c : Cmd) : List Nat :=
  c.cores.filter (fun n => let k := coreAt s n; k.st != .fenced && (k.colony == u || k.home == u) && (keptFor s n).isNone)

/-- Running attempts of normal rings that hold cores for u, in the order of choice: highest CLASS label first, then latest
started (R185). -/
def reclaimOrder (s : State) (u : Nat) (nonPreempt : Bool) : List (Nat × Cmd) :=
  let l := s.cmds.filter (fun e => e.2.phase == .running && e.2.isLaunch && !e.2.urgent && e.2.nonPreempt == nonPreempt && !(coresFor s u e.2).isEmpty)
  let before (a b : Nat × Cmd) : Bool :=
    decide (b.2.label < a.2.label) || (a.2.label == b.2.label && (decide (b.2.startTick < a.2.startTick) || (a.2.startTick == b.2.startTick && decide (b.1 < a.1))))
  l.foldl (fun acc x => (acc.takeWhile (fun y => before y x)) ++ [x] ++ (acc.dropWhile (fun y => before y x))) []

/-- Cores of u, at home or lent out, that a kill or a reset is freeing already. -/
def freeing (s : State) (u : Nat) : List Nat :=
  (s.cores.filter (fun e => (e.2.st == .killed || (e.2.st == .bound && resetting s (.core e.1))) && (e.2.colony == u || e.2.home == u))).map (fun e => e.1)

/-- Group 2 of R185: attempts are killed in order until cores enough are kept; a surplus stays with its colony. -/
def reclaimKills (s : State) (u id need : Nat) : List (Nat × Cmd) → State
  | [] => s
  | e :: r =>
    if need ≤ (keptCores s id).length then s
    else reclaimKills (preempt (keep s id need (coresFor s u e.2)) e.1) u id need r

/-- The kept cores away from home that are idle by now return home, lending colony by lending colony (R185). -/
def returnKept (s : State) (u id : Nat) : State :=
  let idle := (keptCores s id).filter (fun n => (coreAt s n).colony != u && idleCore s n && !(coreAt s n).transit)
  (sortNat (idle.map (fun n => (coreAt s n).colony))).foldl (fun t d => bringHome t u d (idle.filter (fun n => (coreAt t n).colony == d))) s

/-- URGENT_RECLAIM (R185): u's free cores, then group 1, the cores being freed already, group 2 with its kills, and group 3, whose
attempts are waited for; what is taken is kept for the LAUNCH until it starts. -/
def reclaim (s : State) (u id need : Nat) : State :=
  let s1 := keep s id need (freeFor s u id)
  let s2 := keep s1 id need ((awayCores s1 u).filter (idleCore s1))
  let s3 := keep s2 id need (freeing s2 u)
  let s4 := reclaimKills s3 u id need (reclaimOrder s3 u false)
  let s5 := keep s4 id need ((reclaimOrder s4 u true).flatMap (fun e => coresFor s4 u e.2))
  returnKept s5 u id

/-- A reclaim waits to bring cores home from or to a colony: its map updates go first (R204). -/
def reclaimWaits (s : State) (n : Nat) : Bool :=
  s.cores.any (fun e => (keptFor s e.1).isSome && e.2.home != 0 && e.2.colony != e.2.home && (e.2.colony == n || e.2.home == n) && idleCore s e.1 && !e.2.transit)

end Sys2Proof.Machine
end

