-- ==== Sys2Proof/Machine/Launch.lean ====
section
/-! DEFINITION. LAUNCH, its attempts, their ends and their commits (R69, R95 to R97, R164 to R179), kills and their
completion (R33 to R37, R175 to R177), time slices (R182, R183) and the non-preemptible limit (R179). -/

namespace Sys2Proof.Machine

/- The image header (R95, R96). -/

/-- R96's header rows: the status that refuses the image, if any. -/
def headerStatus (h : List Byte) (legacy : Bool) : Option Nat :=
  let f (off len : Nat) : Nat := bytesAt h off len
  let flags := f 0x12 2
  let okRange := decide (1 ≤ f 8 2) && decide (f 8 2 ≤ 8192) && decide (f 0xA 2 < f 8 2) && decide (1 ≤ f 0xC 2) && decide (f 0xC 2 ≤ 640) &&
    decide (f 0xC 2 ≤ f 0xE 2) && decide (f 0xE 2 ≤ 640) && decide (1 ≤ f 0x10 2) && decide (f 0x10 2 ≤ 640) &&
    decide (flags < 3) && zeroAt h 0x14 4 && zeroAt h 0x28 8 && zeroAt h 0x70 0x90 &&
    ([0, 1, 2, 3] : List Nat).all (fun i => f (0x18 + 4 * i) 4 % 64 == 0 && decide (f (0x18 + 4 * i) 4 ≤ 0x17C000))
  if f 0 4 != 0x394B4245 || f 4 2 != 1 || f 6 2 != 1 then some 0x0A
  else if !okRange then some 0x0A
  else if (legacy && flags.testBit 0) || (!legacy && flags.testBit 1) then some 0x0A
  else none

/-- The header's fields kept with the command. -/
def keepHeader (c : Cmd) (h : List Byte) : Cmd :=
  { c with codeLen := bytesAt h 8 2, entry := bytesAt h 0xA 2, hdr := [bytesAt h 0xC 2, bytesAt h 0xE 2, bytesAt h 0x10 2]
           samples := ([0, 1, 2, 3] : List Nat).map (fun i => bytesAt h (0x18 + 4 * i) 4), image := bytesAt h 0x30 48 }

/-- R97's choice of n: the largest multiple of CORE_MULT within the header's range, the core limit and the usable cores. -/
def chooseN (c : Cmd) (usable : Nat) : Option Nat :=
  match c.hdr with
  | [lo, hi, mult] =>
    let top := min (min hi usable) (if c.coreLimit = 0 then 640 else c.coreLimit)
    let n := top / mult * mult
    if lo ≤ n ∧ 0 < n then some n else none
  | _ => none

/-- The cores that count for R97 (R184): for an urgent ring also the colony's cores away from home. -/
def countCores (s : State) (c : Cmd) : Nat :=
  (usableCores s c.colony).length + (if c.urgent then (awayCores s c.colony).length else 0)

/-- The command's job group is aborted in its colony (R364). -/
def jobAborted (s : State) (c : Cmd) : Bool := c.job != 0 && (colAt s c.colony).aborted.contains c.job

/-- A region overlaps the colony's diagnostic area (R422). -/
def inDiag (c : Colony) (r : Nat × Nat) : Bool :=
  c.diagVa != 0 && regionsMeet r (c.diagVa * 65536, 65536 * (1 + c.diagSlots))

/- Time slices (R182). -/

/-- The rings whose LAUNCHes hold cores. -/
def holdingRings (s : State) (colony : Nat) : List Nat :=
  sortNat ((s.cmds.filter (fun e => e.2.colony == colony && e.2.isLaunch && !e.2.urgent && e.2.phase == .running)).map (fun e => ringOf e.2))

/-- The colony is sliced (R182): a normal ring's LAUNCH lacks cores and another of its normal rings holds some. -/
def sliced (s : State) (colony : Nat) : Bool :=
  s.cmds.any (fun e => e.2.colony == colony && e.2.isLaunch && !e.2.urgent && e.2.phase == .ready &&
    (match chooseN e.2 (countCores s e.2) with
     | some n => decide ((freeCores s colony).length < n)
     | none => false) &&
    (holdingRings s colony).any (fun r => r != ringOf e.2))

/-- A turn's length in ticks: SLICE units of 100 µs (R181). -/
def turnTicks (s : State) (colony : Nat) : Nat := 15625 * (runCtlAt s colony).slice

/-- A colony becomes sliced or ceases to be (R182). DESIGN CHOICE (log entry 110): the first turn goes to the lowest-numbered ring
that holds cores, which the spec does not say. -/
def settleTurn (s : State) (colony : Nat) : State :=
  if sliced s colony then
    (if (colAt s colony).turn.isSome then s
     else modCol s colony (fun c => { c with turn := (holdingRings s colony).head?, turnStart := turnTicks s colony, turnEnd := s.ticks + turnTicks s colony }))
  else modCol s colony (fun c => { c with turn := none })

/-- LAUNCH (R144, R164 steps 2 and 3, R165, R166, R179): held while it conflicts, refused by its header, or ready with its
reserve. DESIGN CHOICE (log entry 111): NP_ALLOW is tested here, at step 2 of every attempt, a rerun's too; the spec does not say when. -/
def execLaunch (cmd : Nat) (s : State) : Res :=
  .next (direct s cmd 0x10 (fun c =>
    if c.nonPreempt && !(runCtlAt s c.colony).npAllow then endCmd s cmd 0x0B 0 0
    else if jobAborted s c then endCmd s cmd 0x07 0 0
    else if conflicted s cmd c then s
    else match vaRead s c.colony c.imageVa 256 .image with
      | .error e => vaFault s cmd e
      | .ok h =>
        let s := noteRead s c c.imageVa 256 .image
        match headerStatus h c.legacy with
        | some st => endCmd s cmd st 0 0
        | none =>
          let c1 := keepHeader c h
          if c.regions.any (fun r => inDiag (colAt s c.colony) r) then endCmd s cmd 0x0B 0 0
          else match chooseN c1 (countCores s c1) with
          | none => s
          | some n =>
            match reserveOf (colAt s c.colony) (needOf (touchedPages (colAt s c.colony) c.regions)) with
            | .never => endCmd s cmd 0x0B 0 0
            | .wait => s
            | .taken fs col => settleTurn (setCmd (setCol s c.colony col) cmd { c1 with phase := .ready, n := n, reserve := fs }) c.colony))

/- Starting an attempt (R69, R89, R164 steps 4 to 7). -/

/-- The class of a LAUNCH's requests (R248). -/
def launchClass (s : State) (c : Cmd) : Nat :=
  if c.urgent then 0 else if (colAt s c.colony).classMode then c.label else (colAt s c.colony).mapCore

/-- The 64-bit words of code bytes. -/
def codeWords : Nat → List Byte → List Word
  | 0, _ => []
  | k + 1, d => BitVec.ofNat 64 (leNat (d.take 8)) :: codeWords k (d.drop 8)

/-- A core armed with a kernel and started (R69, R89). -/
def armCore (id entry rank image : Nat) (code : List Word) (c : Core) : Core :=
  { c with st := .running, cmd := some id, rank := rank, im := code, image := some image, pc := entry
           sregs := [], vregs := [], preds := 1, acc0 := {}, acc1 := {}, sems := [], groups := [], bars := 0, ended := false
           mq := [], vq := [], dq := [], order := 0, nextDesc := 0, lowSpill := false, highSpill := false, stall := .none
           want := none, dmaWant := none }

/-- A normal ring has a LAUNCH ready to start or running (R182). -/
def ringActive (s : State) (colony ring : Nat) : Bool :=
  s.cmds.any (fun e => e.2.colony == colony && e.2.isLaunch && !e.2.urgent && ringOf e.2 == ring && (e.2.phase == .ready || e.2.phase == .running))

/-- A killed LAUNCH that is to be rerun, from its kill until it starts again (R177). -/
def Cmd.rerunning (c : Cmd) : Bool :=
  c.isLaunch && decide (0 < c.attempts) && (c.phase == .ready || c.phase == .fetched || (c.phase == .killing && c.after.isNone))

/-- Another command goes first on the colony's cores: one killed and to be rerun that was fetched earlier (R177), which for an
urgent ring's LAUNCH is one of an urgent ring (R182, R187); or, in a sliced colony, one of the turn's ring (R182). -/
def coresPromised (s : State) (id : Nat) (c : Cmd) : Bool :=
  s.cmds.any (fun e => decide (e.1 < id) && e.2.colony == c.colony && e.2.rerunning && (!c.urgent || e.2.urgent)) ||
  (!c.urgent && sliced s c.colony &&
   (match (colAt s c.colony).turn with
    | some r => r != ringOf c && s.cmds.any (fun e => e.2.colony == c.colony && e.2.isLaunch && e.2.phase == .ready && ringOf e.2 == r && !e.2.urgent)
    | none => false))

/-- An earlier urgent LAUNCH of the colony still waits to start (R187). -/
def urgentAhead (s : State) (id : Nat) (c : Cmd) : Bool :=
  s.cmds.any (fun e => decide (e.1 < id) && e.2.colony == c.colony && e.2.isLaunch && e.2.urgent && e.2.phase == .ready)

/-- The cores start together (R89). -/
def startCores (s : State) (id : Nat) (c : Cmd) (n : Nat) (code : List Byte) : State :=
  let cores := (freeFor s c.colony id).take n
  let words := codeWords c.codeLen code
  let s0 := (keptCores s id).foldl (fun t m => modCore t m (fun k => { k with heldFor := none })) s
  let s1 := (enumNat cores).foldl (fun t e => modCore t e.2 (armCore id c.entry e.1 c.image words)) s0
  settleTurn (setCmd s1 id { c with
    phase := .running, n := n, cores := cores, result := n, attempts := c.attempts + 1, startTick := s.ticks, endBars := [], use := {}
    cls := launchClass s c, npLimit := s.hub.npLimit, attemptNs := 0, low := false, high := false, turnOver := none }) c.colony

/-- ATTEMPT_START (R96, R97, R164, R177, R182, R185): with cores enough the code is read, its SHA-384 checked against CODE_DIGEST,
and they start; an urgent LAUNCH short of cores takes them by reclaim. -/
def execAttemptStart (cmd : Nat) (s : State) : Res :=
  match cmdAt s cmd with
  | none => .next s
  | some c =>
    if !serving s || !c.isLaunch || c.phase != .ready || (colAt s c.colony).st != .active || coresPromised s cmd c then .next s
    else if jobAborted s c then .next (endCmd s cmd 0x07 0 0)
    else match chooseN c (countCores s c) with
    | none => .next s
    | some n =>
      if (freeFor s c.colony cmd).length < n then
        .next (if c.urgent && !urgentAhead s cmd c then reclaim s c.colony cmd n else s)
      else match vaRead s c.colony (c.imageVa + 256) (8 * c.codeLen) .image with
        | .error e => .next (vaFault s cmd e)
        | .ok code =>
          let s1 := noteRead s c (c.imageVa + 256) (8 * c.codeLen) .image
          if leNat (sha384 code) ≠ c.image then .next (bonorFault s1 cmd 0x04 0x05 0)
          else .next (startCores s1 cmd c n code)

/- The end of an attempt (R34, R51, R164 steps 8 to 10, R183, R190). -/

/-- CORE_RETURN_BOUND (R34, R51): the core has ended and every write tag has returned. -/
def execCoreReturnBound (core : Nat) (s : State) : Res :=
  let c := coreAt s core
  match c.cmd with
  | none => .next s
  | some id =>
    match cmdAt s id with
    | none => .next s
    | some cmd =>
      if s.flt.fatal || c.st != .running || !c.ended || c.tags.any (fun t => t.write) then .next s
      else
        let c1 := if cmd.legacy then c else foldFlags (foldFlags c false) true
        let s1 := setCore s core { c1 with st := .bound, cmd := none, ended := false, stall := .none }
        .next (setCmd s1 id { cmd with low := cmd.low || c1.lowSpill, high := cmd.high || c1.highSpill
                                       attemptNs := cmd.attemptNs + nsSince s cmd.startTick })

/-- ABANDON waits for the end of a non-preemptible attempt and then discards (R159). -/
def abandonAtEnd (s : State) (id : Nat) (c : Cmd) : Option State :=
  match c.claimedBy with
  | some k => match cmdAt s k with
    | some b => if b.op = 0x12 ∧ !c.defer then some (endCmd s id 2 0 0) else none
    | none => none
  | none => none

/-- ATTEMPT_END (R164 step 9, R190): every core is BOUND again; the outputs go to their commit, or are held. -/
def execAttemptEnd (cmd : Nat) (s : State) : Res :=
  match cmdAt s cmd with
  | none => .next s
  | some c =>
    if !serving s || !c.isLaunch || c.phase != .running || !(runningCores s cmd c).isEmpty then .next s
    else
      let s1 := chargeAttempt (noteOverrun s cmd) cmd true
      match abandonAtEnd s1 cmd c with
      | some t => .next (settleTurn t c.colony)
      | none =>
        .next (settleTurn (if c.defer then stampFin (modCmd s1 cmd (fun x => { x with phase := .held, held := true })) cmd
          else modCmd s1 cmd (fun x => { x with phase := .ended })) c.colony)

/- Commit (R170 to R174). -/

/-- The lines of a page that the attempt did not write, by line number. -/
def unwritten (sh : Shadow) : List Nat := (List.range (sh.size / 64)).filter (fun i => !sh.lines.contains i)

/-- The first committed line that step 1 cannot read (R173): its DPA and why. DEDUCED (log entry 112): of a partly written page whose
set holds a fenced channel, R173 says both that only a line read or written there ends the command and that it always ends; the
model ends it where an unwritten line lies on that channel. -/
def mergeProblem (s : State) (c : Cmd) : Option (Nat × BadRead) :=
  let col := colAt s c.colony
  c.shadows.findSome? (fun sh => (unwritten sh).findSome? (fun i =>
    (lineProblem s (frameOf col (sh.dpa + 64 * i))).map (fun p => (sh.dpa + 64 * i, p))))

/-- The first line that step 1 reads. -/
def firstMerged (c : Cmd) : Option Nat := c.shadows.findSome? (fun sh => ((unwritten sh).head?).map (fun i => sh.dpa + 64 * i))

/-- A line that a merge moves counts as maintenance at its channel (R250, R263). -/
def countMerge (s : State) (ch : Nat) : State := modChan s ch (fun x => { x with maint := wrapAdd 64 x.maint 64 })

/-- One page's unwritten lines copied from the committed page (R170 step 1). -/
def mergePage (s : State) (col : Colony) (cls : Nat) (sh : Shadow) : State :=
  (unwritten sh).foldl (fun t i =>
    let a := sh.addr (sh.dpa + 64 * i)
    let b := frameOf col (sh.dpa + 64 * i)
    homeWrite (countMerge (countMerge t (channelOf b)) (channelOf a)) cls (channelOf a) (chanOff a) (coherentData t b)) s

/-- The end of a commit that cannot publish (R173): a held LAUNCH's COMMIT ends with the status instead. -/
def failCommit (s : State) (id ch dpa : Nat) (p : BadRead) : State :=
  match cmdAt s id with
  | none => s
  | some c =>
    if c.held then failHeld (lineRecord s ch c.colony dpa (some id) 0 0 p false).1 id (badStatus p)
    else lineFault s id ch dpa 0 0 p false

/-- The number of lines that step 1 copies. -/
def mergeCount (c : Cmd) : Nat := (c.shadows.map (fun sh => (unwritten sh).length)).sum

/-- COMMIT_MERGE_COPY (R170 step 1, R173, R190, R191). `report` and `tagOk` are what the reads of committed lines meet. -/
def execCommitMergeCopy (cmd : Nat) (report : EccReport) (tagOk : Bool) (s : State) : Res :=
  match cmdAt s cmd with
  | none => .next s
  | some c =>
    if !serving s || c.phase != .ended then .next s
    else match mergeProblem s c with
    | some (dpa, p) => .next (failCommit s cmd (channelOf (frameOf (colAt s c.colony) dpa)) dpa p)
    | none =>
      match firstMerged c with
      | none => .next (modCmd s cmd (fun x => { x with phase := .merged }))
      | some dpa =>
        let ch := channelOf (frameOf (colAt s c.colony) dpa)
        if report = .uncorrected then .next (failCommit s cmd ch dpa .uncorrectable)
        else if !tagOk then .next (failCommit s cmd ch dpa .tag)
        else
          let s1 := c.shadows.foldl (fun t sh => mergePage t (colAt s c.colony) 8 sh) s
          let s2 := modAcct s1 c.colony (fun a => { a with hbmRd := wrapAdd 64 a.hbmRd (mergeCount c), hbmWr := wrapAdd 64 a.hbmWr (mergeCount c) })
          .next (modCmd s2 cmd (fun x => { x with phase := .merged }))

/-- Every older command of the ring has committed or been discarded, a held LAUNCH counting as done (R157, R170 step 2). -/
def ringSettled (s : State) (id : Nat) (c : Cmd) : Bool :=
  !s.cmds.any (fun e => earlierOnRing id c e && !e.2.finished && !e.2.held)

/-- What a SIGNAL's publish does beside the exchange (R152, R158): the counter changes and its new value lies in NOTIFY. -/
def publishSignal (s : State) (id : Nat) (c : Cmd) : State :=
  let v := signalled s c
  let va := c.addr 32
  match walk (colAt s c.colony) (lineBase va) .write with
  | .ok dpa p =>
    match bindShadow s id p with
    | some (sh, s1) =>
      let old := coherentData s1 (sh.addr dpa)
      let s2 := ncWriteLine s1 c.cls (sh.addr dpa) (old.take (va % 64) ++ leBytes 8 v.toNat ++ old.drop (va % 64 + 8))
      modCmd (changeSync s2 c.page (c.byte 16 2) v) id (fun x => { x with result := v.toNat })
    | none => s
  | _ => s

/-- The end of a publish (R159, R170 step 5): the command is complete; a held LAUNCH's COMMIT completes with it. -/
def endPublish (s : State) (id : Nat) : State :=
  match cmdAt s id with
  | none => s
  | some c =>
    if c.held then
      let s1 := leaveTracker (setCmd s id { c with phase := if c.recorded then .written else .done, claimedBy := none }) id
      match c.claimedBy with
      | some k => completeOk s1 k 0
      | none => s1
    else endOne s id 0 0 c.result

/- Handoff fields and records (R147, R365). -/

def Cmd.hseq (c : Cmd) : Nat := c.byte 20 4
def Cmd.hPeer (c : Cmd) : Nat := c.byte 24 3
def Cmd.hPeerColony (c : Cmd) : Nat := c.byte 28 1

/-- The handoff record of a key (R365). -/
def findHandoff (s : State) (colony job hseq peer peerColony : Nat) : Option (Nat × Handoff) :=
  s.fab.handoffs.find? (fun e => e.2.colony == colony && e.2.job == job && e.2.hseq == hseq && e.2.peer == peer && e.2.peerColony == peerColony)

/-- The record that a HANDOFF command works on. -/
def cmdHandoff (s : State) (c : Cmd) : Option (Nat × Handoff) := findHandoff s c.colony c.job c.hseq c.hPeer c.hPeerColony

def setHandoff (s : State) (i : Nat) (h : Handoff) : State := { s with fab := { s.fab with handoffs := tset s.fab.handoffs i h } }

/-- After the publish of a HANDOFF ACCEPT (R366 step 4): the record is ACCEPTED and the sender is told; this side owns. -/
def handedOver (s : State) (c : Cmd) : State :=
  match cmdHandoff s c with
  | some (i, h) => sendMsg (setHandoff s i { h with st := .accepted, cmd := none }) 0x11 c.hPeer c.colony (stampOf s c.colony) c.job [c.hseq, c.colony] none
  | none => s

/-- A HANDOFF ACCEPT whose record is not ACCEPTING any more does not publish (R367: a DECLINED record refuses it). -/
def acceptLost (s : State) (c : Cmd) : Bool := c.op == 0x34 && !(cmdHandoff s c).any (fun x => x.2.st == .accepting)

/-- PUBLISH (R157, R170 steps 2 to 5, R172, R278, R366): every output page changes its frame at once. -/
def execPublish (cmd : Nat) (s : State) : Res :=
  match cmdAt s cmd with
  | none => .next s
  | some c =>
    if !serving s || c.phase != .merged || !ringSettled s cmd c then .next s
    else if acceptLost s c then .next (endCmd s cmd 0x0B 0 0)
    else
      let s1 := if c.op = 0x02 then publishSignal s cmd c else s
      let s2 := exchangeAll s1 cmd
      let s3 := if c.op = 0x34 then handedOver s2 c else s2
      .next (endPublish s3 cmd)

/-- A request of a core still stands in the way of a frame (R170 step 6, R176): a write of the attempt that gave a shadow frame up;
for an old frame any request of the colony from before the publish. -/
def delays (id colony : Nat) (g : Giving) (t : DmaTag) : Bool :=
  match g.drain with
  | none => t.write && t.cmd == id && t.attempt == g.attempt
  | some k => t.colony == colony && decide (t.mark ≤ k)

/-- Nothing stands in the way of a frame any more. -/
def landed (s : State) (id colony : Nat) (g : Giving) : Bool := !s.cores.any (fun e => e.2.tags.any (delays id colony g))

/-- SHADOW_FRAME_RETURN (R165, R170 step 6, R176, R294): the frames that a command gave up go back to the pool, each once what it
waits for has landed or been squashed. -/
def execShadowFrameReturn (cmd : Nat) (s : State) : Res :=
  match cmdAt s cmd with
  | none => .next s
  | some c =>
    let (now, later) := c.returning.partition (landed s cmd c.colony)
    if !serving s || now.isEmpty then .next s
    else .next (leaveTracker (setCmd (giveBack s c.colony (now.map (fun g => g.frame))) cmd { c with returning := later }) cmd)

/- Time slices and the run limit (R179, R182, R183). -/

/-- The normal rings of a colony with LAUNCHes ready or running, in order. -/
def activeRings (s : State) (colony : Nat) : List Nat :=
  sortNat ((s.cmds.filter (fun e => e.2.colony == colony && e.2.isLaunch && !e.2.urgent && (e.2.phase == .ready || e.2.phase == .running))).map (fun e => ringOf e.2))

/-- The rings after `cur` in cyclic order. -/
def ringsAfter (l : List Nat) (cur : Nat) : List Nat := l.filter (fun r => decide (cur < r)) ++ l.filter (fun r => decide (r ≤ cur))

/-- The next turn (R183): a ring whose overrun takes its whole turn is skipped, what remains carried on. -/
def nextTurn (s : State) (colony : Nat) : List Nat → State
  | [] => modCol s colony (fun c => { c with turn := none })
  | r :: rs =>
    let o := tget 0 (colAt s colony).overrun r
    let len := turnTicks s colony
    if o < len then modCol s colony (fun c => { c with turn := some r, overrun := tset c.overrun r 0, turnStart := len - o, turnEnd := s.ticks + (len - o) })
    else nextTurn (modCol s colony (fun c => { c with overrun := tset c.overrun r (o - len) })) colony rs

/-- The turn's ring gives up its preemptible attempts, but for commands already killed twice at turn ends (R182); a
non-preemptible one runs on and its overrun counts from here (R183). -/
def endTurn (s : State) (colony ring : Nat) : State :=
  s.cmds.foldl (fun t e =>
    match cmdAt t e.1 with
    | some c =>
      if c.colony = colony ∧ c.isLaunch ∧ c.urgent = false ∧ ringOf c = ring ∧ c.phase = .running then
        (if c.nonPreempt then setCmd t e.1 { c with turnOver := some t.ticks }
         else if c.turnKills < 2 then preempt (setCmd t e.1 { c with turnKills := c.turnKills + 1 }) e.1
         else t)
      else t
    | none => t) s

/-- TIME_SLICE_END (R182, R183; the first turn's ring is `settleTurn`'s choice, log entry 110). -/
def execTimeSliceEnd (colony : Nat) (s : State) : Res :=
  if !serving s || decide (colony = 0) || decide (64 < colony) then .next s
  else if !sliced s colony then .next (modCol s colony (fun c => { c with turn := none }))
  else
    let cur := match (colAt s colony).turn with
      | some r => r
      | none => (holdingRings s colony).headD 0
    .next (nextTurn (endTurn s colony cur) colony (ringsAfter (activeRings s colony) cur))

/-- NPLIMIT_REACHED (R179). -/
def execNplimitReached (cmd : Nat) (s : State) : Res :=
  match cmdAt s cmd with
  | none => .next s
  | some c => .next (if serving s && npRunning c then killAttempt s cmd (some 0x0C) true else s)

end Sys2Proof.Machine
end

