-- ==== Sys2Proof/Machine/Translate.lean ====
section
/-! DEFINITION. Translation walks, translation records and their resolution (R296 to R304, R495), MAP, UNMAP, SYNC_TABLE
and the withdrawal of mappings (R285 to R294, R305, R306), and compaction (R295). -/

namespace Sys2Proof.Machine

/- Agents (R267, R296). -/

/-- The unit that an agent ID names in a record (R267, R304, R495). -/
def agentUnit (agent : Nat) : UnitRef :=
  if agent < 640 then .core agent
  else if agent < 648 then .ctrlCore (agent - 640)
  else if agent < 664 then .copyEngine (agent - 648)
  else .port (agent - 664)

/-- What an agent waits to have translated: the address, whether it writes, and the extra ACCESS bits of R304. -/
def agentWants (s : State) (agent : Nat) : List (Nat × Bool × Nat) :=
  if agent < 640 then
    let c := coreAt s agent
    (c.want.map (fun w => (w.1, w.2, 0))).toList ++ (c.dmaWant.map (fun w => (w.1, w.2, 8))).toList
  else if agent < 648 then []
  else if agent < 664 then ((engineAt s (agent - 648)).want.map (fun w => (w.1, w.2, 0))).toList
  else ((portAt s (agent - 664)).want.map (fun w => (w.1, w.2.1, 0))).toList

/-- The command that an agent works for. -/
def agentCmd (s : State) (agent : Nat) : Option Nat :=
  if agent < 640 then (coreAt s agent).cmd
  else if agent < 648 then none
  else if agent < 664 then (engineAt s (agent - 648)).cmd
  else (portAt s (agent - 664)).want.map (fun w => w.2.2)

/-- An address no longer waits at its agent: it walks or goes on. -/
def clearWant (s : State) (agent va : Nat) : State :=
  if agent < 640 then modCore s agent (fun c =>
    { c with want := c.want.filter (fun w => w.1 != va), dmaWant := c.dmaWant.filter (fun w => w.1 != va)
             stall := if c.stall == .translation && c.want.any (fun w => w.1 == va) then .none else c.stall })
  else if agent < 648 then s
  else if agent < 664 then modEngine s (agent - 648) (fun e => { e with want := none })
  else modPort s (agent - 664) (fun p => { p with want := none })

/- Translation records (R300 to R304). -/

/-- An open translation record of a colony. -/
def xltOpen (r : FaultRec) (colony : Nat) : Bool := r.xlt && r.st == .opened && r.colony == colony

/-- The open record of a page (R300). -/
def xltOn (s : State) (colony page : Nat) : Option (Nat × FaultRec) :=
  s.flt.recs.find? (fun e => xltOpen e.2 colony && e.2.va / 65536 == page)

/-- Open translation records of a colony, and of all colonies (R300). -/
def xltCount (s : State) (p : FaultRec → Bool) : Nat := (s.flt.recs.filter (fun e => e.2.xlt && e.2.st == .opened && p e.2)).length

/-- An agent stalls without a record (R300). -/
def stallBare (s : State) (agent colony : Nat) : State := modCol s colony (fun c => { c with stalled := insertSorted c.stalled agent })

/-- A new translation record (R300, R304, R495), with its interrupt. -/
def newXlt (s : State) (agent colony va access : Nat) (cmd : Option Nat) : State :=
  let c := colAt s colony
  let r0 : FaultRec := { blankRec 0x03 1 (agentUnit agent) colony with
    xlt := true, va := va, access := access, level := missLevel c va, waiters := [agent], first := agent }
  let r := match cmd with | some id => nameCmd s r0 id | none => r0
  let s1 := (recordFault s r).1
  let s2 := modCol s1 colony (fun x => { x with faults := wrapAdd 32 x.faults 1, stalled := x.stalled.filter (fun a => a != agent) })
  if c.fIrq then raiseMsix s2 (pageOwner s2 colony) c.fVec else s2

/-- TRANSLATION_FAULT (R299, R300, R302): a walk found no valid leaf; the agent joins the page's record, makes one, or
stalls without one at a limit. -/
def xltFault (s : State) (agent colony va access : Nat) : State :=
  let cmd := agentCmd s agent
  if (cmd.bind (cmdAt s)).any (fun c => c.dying) then
    match cmd with
    | some id => faultCmd s id 0x03 none false
    | none => s
  else match xltOn s colony (va / 65536) with
    | some (i, _) => modCol (modRec s i (fun r => { r with waiters := insertNew r.waiters agent, occur := satInc 16 r.occur })) colony
        (fun c => { c with stalled := c.stalled.filter (fun a => a != agent) })
    | none =>
      if (colAt s colony).fMax ≤ xltCount s (fun r => r.colony == colony) ∨ 256 ≤ xltCount s (fun _ => true) ∨ recEntry s.flt.recs = none then
        stallBare s agent colony
      else newXlt s agent colony va access cmd

/-- The ACCESS bits of an access (R304). -/
def accessBits (write : Bool) (dma : Nat) : Nat := (if write then 2 else 1) + dma

/-- An agent that stalled without a record stalls no more (R300). -/
def unstall (s : State) (agent colony : Nat) : State :=
  modCol s colony (fun c => { c with stalled := c.stalled.filter (fun a => a != agent) })

/-- An agent's walk (R296): its answer, where it is a leaf, goes into the agent's cache, and the address waits no more. The Bool says
that a leaf was found. -/
def walkAgent (s : State) (agent cls colony va : Nat) : State × Bool :=
  match walkFor s agent cls colony va with
  | (t, some p) => (unstall (clearWant (fillTc t agent (leafEntry p colony (stampOf t colony))) agent va) agent colony, true)
  | (t, none) => (t, false)

/-- TRANSLATION_WALK (R296, R297, R299, R300): the walk of an address that an agent of a colony waits for; a control core
walks for Bonor's own accesses at any time. `parity` says that the walker's cache meets a parity error. -/
def execTranslationWalk (agent colony va : Nat) (access : Access) (parity : Bool) (s : State) : Res :=
  let sP := if parity then walkerParity s (walkerDie agent (leafFor (colAt s colony).ptes va)) colony va else s
  if !serving s || decide (colony = 0) || decide (64 < colony) || decide (680 ≤ agent) || decide (2 ^ 48 ≤ va) then .next s
  else if decide (640 ≤ agent) && decide (agent < 648) then .next (walkAgent sP agent 8 colony va).1
  else match (agentWants s agent).find? (fun w => w.1 == va && (w.2.1 == (access == .write))) with
    | none => .next s
    | some w =>
      let own := (agentCmd s agent).bind (cmdAt s)
      if !own.any (fun c => c.colony == colony) || agentWaits s agent then .next s
      else
        let (t, found) := walkAgent sP agent (own.elim 8 (fun c => c.cls)) colony va
        .next (if found then t else xltFault t agent colony va (accessBits w.2.1 w.2.2))

/-- A record closes (R301): what ended it, and the status given to its waiters' commands. -/
def closeXlt (s : State) (i fin status : Nat) : State :=
  modRec s i (fun r => { r with st := .closed, fin := fin, status := status })

/-- A record is rejected or times out (R301): every waiter's command is killed and ends TRANSLATION_FAULT. -/
def rejectXlt (s : State) (i fin : Nat) : State :=
  match tfind s.flt.recs i with
  | none => s
  | some r =>
    let ids := sortNat (r.waiters.filterMap (agentCmd s))
    ids.foldl (fun t id => faultCmd t id 0x03 (some i) false) (closeXlt s i fin 0x03)

/-- The open records of a colony whose page lies in a range. -/
def xltIn (s : State) (colony va len : Nat) : List Nat :=
  (s.flt.recs.filter (fun e => xltOpen e.2 colony && regionsMeet (e.2.va / 65536 * 65536, 65536) (va, len))).map (fun e => e.1)

/-- TRANSLATION_RECORD_TIMEOUT (R301). -/
def execTranslationRecordTimeout (record : Nat) (s : State) : Res :=
  match tfind s.flt.recs record with
  | none => .next s
  | some r => .next (if r.xlt && r.st == .opened && serving s then rejectXlt s record 4 else s)

/-- Records whose page has become valid resolve: their waiters walk again (R301). -/
def resolveXlt (s : State) (colony : Nat) : State :=
  s.flt.recs.foldl (fun t e =>
    if xltOpen e.2 colony && (leafFor (colAt t colony).ptes e.2.va).isSome then closeXlt t e.1 1 0 else t) s

/- Entries and checks (R286, R288). -/

/-- What MAP or SYNC_TABLE gives for one page: its address and its entry, none for V = 0. -/
abbrev PageEntry := Nat × Option Pte

/-- The size of a command's pages, their number and first address (R148). -/
def Cmd.pgSize (c : Cmd) : Nat := c.byte 36 1 % 4
def Cmd.pgBytes (c : Cmd) : Nat := pageBytes c.pgSize
def Cmd.pgCount (c : Cmd) : Nat := c.byte 32 4
def Cmd.pgVa (c : Cmd) : Nat := c.byte 16 8

/-- The entries of a MAP (R148, R286, R288). -/
def mapEntries (c : Cmd) : List PageEntry :=
  let perm := c.byte 37 1
  (List.range c.pgCount).map (fun i =>
    (c.pgVa + i * c.pgBytes, some ⟨c.pgVa + i * c.pgBytes, c.pgSize, c.byte 24 8 + i * c.pgBytes, perm.testBit 0, perm.testBit 1, perm.testBit 2⟩))

/-- One 8-byte entry of the host's array (R286). -/
def hostEntry (va e : Nat) : PageEntry :=
  (va, if e.testBit 0 then some ⟨va, nbits e 5 4, nbits e 39 16 * 65536, e.testBit 1, e.testBit 2, e.testBit 3⟩ else none)

/-- The form of an entry (R286). -/
def hostEntryOk (size e : Nat) : Bool :=
  if e.testBit 0 then
    (e.testBit 1 || e.testBit 2 || e.testBit 3) && nbits e 5 4 == size && nbits e 15 6 == 0 && nbits e 63 40 == 0 &&
      nbits e 39 16 * 65536 % pageBytes size == 0
  else e == 0

/-- The first index of a list that fails a test. -/
def firstBad {α : Type} (ok : α → Bool) (l : List α) : Option Nat := (findIdx? (fun x => !ok x) l).map (fun x => x.1)

/-- R288's row on sets: the page's set is held in full. -/
def setOk (c : Colony) (e : PageEntry) : Bool := match e.2 with | some p => holdsSet c.cur (setOf p.dpa) | none => true

/-- R288's row on the withheld top. -/
def topOk (c : Colony) (e : PageEntry) : Bool :=
  match e.2 with | some p => decide (setOff p.dpa + pageBytes p.size ≤ withheldFrom c.shadow) | none => true

/-- R288's row on leaves of another size. -/
def shapeOk (c : Colony) (e : PageEntry) : Bool :=
  match e.2 with
  | some p => !c.ptes.any (fun q => q.size != p.size && regionsMeet (q.va, pageBytes q.size) (p.va, pageBytes p.size))
  | none => true

/-- R288's row on another DPA. -/
def sameOk (c : Colony) (e : PageEntry) : Bool :=
  match e.2 with
  | some p => !c.ptes.any (fun q => q.va == p.va && q.size == p.size && q.dpa != p.dpa)
  | none => true

/-- R288's row on aliases: against the colony's pages at other addresses, and against earlier entries of the command. -/
def aliasOk (c : Colony) (l : List PageEntry) (x : Nat × PageEntry) : Bool :=
  match x.2.2 with
  | some p =>
    let meets (q : Pte) : Bool := q.va != p.va && regionsMeet (q.dpa, pageBytes q.size) (p.dpa, pageBytes p.size)
    !c.ptes.any meets && !(l.take x.1).any (fun e => e.2.any meets)
  | none => true

/-- R288's rows after the form of packet and entries: the status of the first that fails, and the page. -/
def pageRows (c : Colony) (l : List PageEntry) : Option (Nat × Nat) :=
  match firstBad (setOk c) l with
  | some i => some (0x04, i)
  | none => match firstBad (topOk c) l with
    | some i => some (0x04, i)
    | none => match firstBad (shapeOk c) l with
      | some i => some (0x0B, i)
      | none => match firstBad (sameOk c) l with
        | some i => some (0x0B, i)
        | none => (firstBad (aliasOk c l) (enumNat l)).map (fun i => (0x0B, i))

/-- The first page of a run that passes a limit. -/
def runOver (base size count limit : Nat) : List Nat :=
  if limit < base + count * size then [if base < limit then (limit - base) / size else 0] else []

/-- R288's first row for a MAP: (offset, page) of each failure. -/
def mapFields (c : Cmd) : List (Nat × Nat) :=
  (runOver c.pgVa c.pgBytes c.pgCount (2 ^ 48)).map (fun i => (16, i)) ++
  (runOver (c.byte 24 8) c.pgBytes c.pgCount (2 ^ 40)).map (fun i => (24, i)) ++
  (if c.byte 24 8 % c.pgBytes = 0 then [] else [(24, 0)]) ++ (if c.byte 37 1 % 8 = 0 then [(37, 0)] else [])

/-- The lowest offset and the first page of some failures. -/
def worst (l : List (Nat × Nat)) : Option (Nat × Nat) :=
  match l with
  | [] => none
  | x :: r => some (r.foldl (fun a b => min a b.1) x.1, r.foldl (fun a b => min a b.2) x.2)

/- Tables and frames (R165, R285, R294). -/

/-- A 256-byte unit of a frame is free of tables. -/
def unitFree (tabs : List (Nat × Nat × Nat)) (u : Nat) : Bool :=
  !tabs.any (fun x => decide (x.1 ≤ u) && decide (u < x.1 + (if x.2.1 = 4 then 1 else 16)))

/-- Where a table of a level fits in a frame (R285); the lowest place (log entry 13). -/
def tableRoom (tabs : List (Nat × Nat × Nat)) (level : Nat) : Option Nat :=
  if level = 4 then (List.range 256).find? (unitFree tabs)
  else ((List.range 16).find? (fun g => (List.range 16).all (fun i => unitFree tabs (16 * g + i)))).map (fun g => 16 * g)

/-- A new table in the first frame with room, else in a frame drawn from the pool of the first set that has one. -/
def placeTable (c : Colony) (level index : Nat) : Option Colony :=
  match findIdx? (fun f => (tableRoom f.2 level).isSome) c.tables with
  | some (k, f) =>
    some { c with tables := c.tables.set k (f.1, f.2 ++ [((tableRoom f.2 level).getD 0, level, index)]) }
  | none =>
    match (fullSets c.cur).findSome? (fun z => takeFrame c z 65536) with
    | some (a, c1) => some { c1 with tables := c1.tables ++ [(a, [(0, level, index)])] }
    | none => none

/-- The tables that a page needs: level and index (R285). -/
def tablesFor (p : Pte) : List (Nat × Nat) :=
  (2, tableIndex 2 p.va) :: (if p.size < 2 then [(3, tableIndex 3 p.va)] else []) ++ (if p.size = 0 then [(4, tableIndex 4 p.va)] else [])

/-- Tables placed one after another where they do not exist yet. -/
def placeTables (c : Colony) : List (Nat × Nat) → Option Colony
  | [] => some c
  | (l, i) :: r => if hasTable c l i then placeTables c r else match placeTable c l i with
    | some c1 => placeTables c1 r
    | none => none

/-- The level-3 and level-4 tables that have become empty are freed (R306 step 2); their frames follow at step 6. `coming` are the
pages that the same command makes valid at its record. -/
def freeTables (c : Colony) (coming : List Pte) : Colony :=
  let ptes := c.ptes ++ coming
  let used (level index : Nat) : Bool :=
    if level = 4 then ptes.any (fun p => p.size == 0 && tableIndex 4 p.va == index)
    else if level = 3 then ptes.any (fun p => decide (p.size < 2) && tableIndex 3 p.va == index)
    else true
  { c with tables := c.tables.map (fun f => (f.1, f.2.filter (fun x => used x.2.1 x.2.2))) }

/-- The frames that hold no table. -/
def emptyFrames (c : Colony) : List Nat := (c.tables.filter (fun f => f.2.isEmpty)).map (fun f => f.1)

/-- Frames that a withdrawal has emptied go back to the pool, where they still hold no table (R285, R306 step 6). -/
def dropFrames (mine : List Nat) (c : Colony) : Colony :=
  let goes (f : Nat × List (Nat × Nat × Nat)) : Bool := f.2.isEmpty && mine.contains f.1
  (c.tables.filter goes).foldl (fun x f => giveFrame x { colony := 0, start := f.1, size := 65536 })
    { c with tables := c.tables.filter (fun f => !goes f) }

/-- The command holds a reserve for its output regions (R165). -/
def Cmd.holdsReserve (c : Cmd) : Bool :=
  match c.phase with
  | .ready => true
  | .running => true
  | .ended => true
  | .merged => true
  | .held => true
  | _ => false

/-- The frames that newly valid pages add to the reserves of uncommitted commands (R165): command, set and size. -/
def addedNeed (s : State) (colony : Nat) (newPages : List Pte) : List (Nat × Nat × Nat) :=
  newPages.flatMap (fun p => (s.cmds.filter (fun e => e.2.colony == colony && e.2.holdsReserve &&
    e.2.regions.any (fun r => regionsMeet r (p.va, pageBytes p.size)))).map (fun e => (e.1, setOf p.dpa, pageBytes p.size)))

/-- Frames for those needs. -/
def takeNeeds (c : Colony) : List (Nat × Nat × Nat) → Option (List (Nat × Frames) × Colony)
  | [] => some ([], c)
  | (id, set, size) :: r =>
    match takeFrame c set size with
    | none => none
    | some (a, c1) => match takeNeeds c1 r with
      | none => none
      | some (l, c2) => some ((id, ⟨0, a, size⟩) :: l, c2)

/-- Tables and reserve frames of a change, drawn together. -/
def drawAll (c : Colony) (tabs : List (Nat × Nat)) (needs : List (Nat × Nat × Nat)) : Option (List (Nat × Frames) × Colony) :=
  match placeTables c tabs with
  | none => none
  | some c1 => takeNeeds c1 needs

/- Changes (R289, R290, R305, R306). -/

/-- The leaf at an address of a size. -/
def leafAt (c : Colony) (va size : Nat) : Option Pte := c.ptes.find? (fun p => p.va == va && p.size == size)

/-- An entry's value changes. -/
def changes (c : Colony) (size : Nat) (e : PageEntry) : Bool := leafAt c e.1 size != e.2

/-- A change that clears an entry or takes a permission away (R305). -/
def withdraws (c : Colony) (size : Nat) (e : PageEntry) : Bool :=
  match leafAt c e.1 size, e.2 with
  | some q, some p => (q.r && !p.r) || (q.w && !p.w) || (q.i && !p.i)
  | some _, none => true
  | none, _ => false

/-- Leaves in rising order of address. -/
def insertPte : List Pte → Pte → List Pte
  | [], p => [p]
  | q :: r, p => if p.va < q.va then p :: q :: r else q :: insertPte r p

/-- One entry changed. -/
def putEntry (size : Nat) (c : Colony) (e : PageEntry) : Colony :=
  let rest := c.ptes.filter (fun q => !(q.va == e.1 && q.size == size))
  { c with ptes := match e.2 with | some p => insertPte rest p | none => rest }

/-- An entry as step 2 of a withdrawal leaves it (R289, R306): cleared, or without the rights that it loses. -/
def narrowed (c : Colony) (size : Nat) (e : PageEntry) : PageEntry :=
  match leafAt c e.1 size, e.2 with
  | some q, some p => (e.1, some { q with r := q.r && p.r, w := q.w && p.w, i := q.i && p.i })
  | some _, none => (e.1, none)
  | none, _ => e

/-- The control core writes table entries through to their home slices (R267), as maintenance traffic (R250). -/
def writeEntries (s : State) (colony size : Nat) (l : List PageEntry) : State :=
  l.foldl (fun t e => match entryAt (colAt t colony) (leafLevel size) e.1 with
    | some fa => sliceTouch t 8 (channelOf fa) (chanOff (lineBase fa)) true
    | none => t) s

/-- Pointer entries of tables that no longer stand leave every walker cache (R306 step 3). -/
def forgetTables (s : State) (colony : Nat) : State :=
  filterWalkers s (fun e => e.colony != colony || e.leaf.isSome || hasTable (colAt s colony) (e.level + 1) (tableIndex (e.level + 1) e.va))

/-- Steps 2 and 3 of a withdrawal (R306): its entries cleared or narrowed, empty tables freed, and the pages forgotten by every
cache. `l` are all entries of the command. -/
def withdraw (s : State) (id colony size : Nat) (l : List PageEntry) : State :=
  let c := colAt s colony
  let gone := l.filter (withdraws c size)
  let before := emptyFrames c
  let s1 := setCol (writeEntries s colony size gone) colony (freeTables ((gone.map (narrowed c size)).foldl (putEntry size) c) (l.filterMap (fun e => e.2)))
  let s2 := gone.foldl (fun t e => match leafAt c e.1 size with
    | some q => forgetPage t colony q.dpa (pageBytes size)
    | none => t) s1
  let own := (emptyFrames (colAt s2 colony)).filter (fun f => !before.contains f)
  modCmd (forgetTables s2 colony) id (fun x => { x with emptied := own })

/-- The command's entries apply, from its record on (R289, R291), and the records of pages now valid resolve (R301). -/
def applyEntries (s : State) (colony size : Nat) (l : List PageEntry) : State :=
  let s1 := writeEntries s colony size (l.filter (changes (colAt s colony) size))
  resolveXlt (modCol s1 colony (fun c => l.foldl (putEntry size) c)) colony

/-- Step 4 of a withdrawal (R306): the colony's epoch flips once no other withdrawal is between steps 4 and 5. -/
def flipEpoch (s : State) (id colony : Nat) : State :=
  if (colAt s colony).wdBusy.isSome then s
  else modCmd (modCol s colony (fun c => { c with epoch := !c.epoch, wdBusy := some id })) id (fun c => { c with stage := 2 })

/-- The command changes entries: at once where nothing is withdrawn, else as a withdrawal (R289, R290, R305, R306).
Stage 1: entries cleared or narrowed, the epoch still to flip; stage 2: waiting for the drain. -/
def changeEntries (s : State) (id : Nat) (c : Cmd) (l : List PageEntry) (wd : Bool) : State :=
  let n := (l.filter (changes (colAt s c.colony) c.pgSize)).length
  if !wd then completeOk (applyEntries s c.colony c.pgSize l) id n
  else flipEpoch (withdraw (waitIn (modCmd s id (fun x => { x with stage := 1, result := n, startTick := s.ticks })) id) id c.colony c.pgSize l) id c.colony

/-- The frames that a change needs are drawn, and it goes on; it waits or is refused where they are missing (R165, R294). -/
def withFrames (s : State) (id : Nat) (c : Cmd) (l : List PageEntry) (go : State → State) : State :=
  let col := colAt s c.colony
  let valid := l.filterMap (fun e => if (leafAt col e.1 c.pgSize).isNone then e.2 else none)
  let tabs := valid.flatMap tablesFor
  let needs := addedNeed s c.colony valid
  match drawAll col tabs needs with
  | some (fs, col1) =>
    go (modCmd (fs.foldl (fun t x => modCmd t x.1 (fun y => { y with reserve := y.reserve ++ [x.2] })) (setCol s c.colony col1)) id
      (fun y => { y with needs := [] }))
  | none =>
    if needs.all (fun x => (takeFrame { col with pool := wholePool col } x.2.1 x.2.2).isSome) && !(fullSets col.cur).isEmpty then
      waitIn (modCmd s id (fun y => { y with needs := needs.map (fun x => x.2) })) id
    else refuseCmd s id 0x0B 0 0

/-- Checked entries take effect: a withdrawal first waits under R305, its pages counting as its output region. -/
def takeEntries (s : State) (id : Nat) (c : Cmd) (l : List PageEntry) : State :=
  let gone := l.filter (withdraws (colAt s c.colony) c.pgSize)
  let c1 := { c with regions := gone.map (fun e => (e.1, c.pgBytes)) }
  if conflicted s id c1 then waitIn (setCmd s id c1) id
  else withFrames s id c l (fun t => changeEntries (modCmd t id (fun x => { x with regions := c1.regions })) id c l (!gone.isEmpty))

/-- The withdrawal's later stages: the epoch still to flip. -/
def wdStage (s : State) (id : Nat) (c : Cmd) (first : State) : State :=
  if c.stage = 0 then first else if c.stage = 1 then flipEpoch s id c.colony else s

/-- MAP (R148, R165, R288, R289, R301). -/
def execMap (cmd : Nat) (s : State) : Res :=
  .next (directOrWaiting s cmd 0x40 (fun c =>
    wdStage s cmd c (
      match worst (mapFields c) with
      | some (d, i) => refuseCmd s cmd 0x0A d i
      | none => match pageRows (colAt s c.colony) (mapEntries c) with
        | some (st, i) => refuseCmd s cmd st 0 i
        | none => takeEntries s cmd c (mapEntries c))))

/-- The valid pages that an UNMAP clears. -/
def unmapEntries (c : Cmd) (col : Colony) : List PageEntry :=
  (col.ptes.filter (fun p => p.size == c.pgSize && decide (c.pgVa ≤ p.va) && decide (p.va < c.pgVa + c.pgCount * c.pgBytes))).map (fun p => (p.va, none))

/-- UNMAP (R148, R301, R305, R306): REJECT first resolves the pending records on its pages. -/
def execUnmap (cmd : Nat) (s : State) : Res :=
  .next (directOrWaiting s cmd 0x41 (fun c =>
    wdStage s cmd c (
      let s1 := if (c.byte 37 1).testBit 0 then
          (xltIn s c.colony c.pgVa (c.pgCount * c.pgBytes)).foldl (fun t i => rejectXlt t i 2) s
        else s
      if conflicted s1 cmd c then waitIn s1 cmd
      else changeEntries s1 cmd c (unmapEntries c (colAt s1 c.colony)) true)))

/-- The 8-byte entries of an array. -/
def words8 : Nat → List Byte → List Nat
  | 0, _ => []
  | k + 1, d => leNat (d.take 8) :: words8 k (d.drop 8)

/-- The entries of a SYNC_TABLE, from its array (R286, R290). -/
def syncList (c : Cmd) (bytes : List Byte) : List PageEntry :=
  (enumNat (words8 c.pgCount bytes)).map (fun e => hostEntry (c.pgVa + e.1 * c.pgBytes) e.2)

/-- The entries that a command changes at its record: a MAP's from its packet, a SYNC_TABLE's from the array it has read. -/
def Cmd.pageList (c : Cmd) : List PageEntry :=
  if c.op = 0x40 then mapEntries c else if c.op = 0x42 then syncList c c.buffer else []

/-- SYNC_TABLE with the host's array in hand (R288, R290). -/
def syncEntries (s : State) (cmd : Nat) (c : Cmd) (bytes : List Byte) : State :=
  let raw := words8 c.pgCount bytes
  let l := syncList c bytes
  match runOver c.pgVa c.pgBytes c.pgCount (2 ^ 48) with
  | i :: _ => refuseCmd s cmd 0x0A 16 i
  | [] => match firstBad (hostEntryOk c.pgSize) raw with
    | some i => refuseCmd s cmd 0x0A 24 i
    | none => match pageRows (colAt s c.colony) l with
      | some (st, i) => refuseCmd s cmd st 0 i
      | none => takeEntries s cmd c l

/-- SYNC_TABLE (R148, R288, R290): `src` is what the host read of the array gives, none for a PCI Express error. -/
def execSyncTable (cmd : Nat) (src : Option (List Byte)) (s : State) : Res :=
  .next (directOrWaiting s cmd 0x42 (fun c =>
    wdStage s cmd c (
      match srcRead s c 24 (8 * c.pgCount) src with
      | .error e => vaFault s cmd e
      | .ok (s1, b) => syncEntries (setCmd s1 cmd { c with buffer := b }) cmd { c with buffer := b } b)))

/-- A request of the colony still carries the old epoch (R306 step 5): a tag of a DMA engine, a request that waits at a slice, or a
remote request of a port engine. -/
def oldEpoch (s : State) (colony : Nat) : Bool :=
  let old (e : Bool) : Bool := e != (colAt s colony).epoch
  s.cores.any (fun e => e.2.tags.any (fun t => t.colony == colony && old t.xepoch)) ||
  s.chans.any (fun e => (waitingStamps e.2).any (fun r => r.colony == colony && old r.epoch)) ||
  s.ports.any (fun e => e.2.reqs.any (fun r => r.colony == colony && old r.xepoch))

/-- WITHDRAWAL_DRAIN_END (R289, R291, R306 steps 5 and 6): the frames emptied return, what the command adds applies, and it
completes. -/
def execWithdrawalDrainEnd (cmd : Nat) (s : State) : Res :=
  match cmdAt s cmd with
  | none => .next s
  | some c =>
    if !serving s || (colAt s c.colony).wdBusy != some cmd || oldEpoch s c.colony then .next s
    else
      let us := min ((s.ticks - c.startTick) * 64 / 10000) (2 ^ 32 - 1)
      let s1 := modCol s c.colony (fun x => { dropFrames c.emptied x with wdBusy := none, wdLast := us })
      .next (completeOk (applyEntries s1 c.colony c.pgSize c.pageList) cmd c.result)

/- Compaction (R295). -/

/-- The frames that a command waits for under R294 in a set, by size: those of a MAP or SYNC_TABLE that has tried, or those of its
output pages where it stands at step 3 of R164. -/
def waitedSizes (s : State) (col : Colony) (set : Nat) (e : Nat × Cmd) : List Nat :=
  let need := if e.2.phase = .started then e.2.needs
    else if canStart s e.1 e.2 && !conflicted s e.1 e.2 then needOf (touchedPages col e.2.regions)
    else []
  (need.filter (fun x => x.1 == set)).map (fun x => x.2)

/-- The sizes of aligned frame that some waiting command lacks in a set although the pool's capacity there covers its need (R295). -/
def lackedSizes (s : State) (colony set : Nat) : List Nat :=
  let col := colAt s colony
  let free := ((col.pool.filter (fun f => setOf f.start == set)).map (fun f => f.size)).sum
  (s.cmds.filter (fun e => e.2.colony == colony)).flatMap (fun e =>
    let need := waitedSizes s col set e
    if !need.isEmpty && decide (need.sum ≤ free) && (takeFrames col (need.map (fun z => (set, z)))).isNone then need else [])

/-- A block of frame addresses that compaction may clear (R295): no frame of a reserve, of an attempt or of a table lies in it, and
no page under a reserve or in publish stands on it. -/
def clearable (s : State) (colony start size : Nat) : Bool :=
  let col := colAt s colony
  let meets (a n : Nat) : Bool := regionsMeet (a, n) (start, size)
  let used (c : Cmd) : Bool := c.reserve.any (fun f => meets f.start f.size) || c.shadows.any (fun f => meets f.frame f.size) ||
    c.returning.any (fun f => meets f.frame.start f.frame.size)
  let under (p : Pte) : Bool := s.cmds.any (fun e => e.2.colony == colony && !e.2.finished && e.2.regions.any (fun r => regionsMeet r (p.va, pageBytes p.size)))
  !col.tables.any (fun f => meets f.1 65536) && !s.cmds.any (fun e => used e.2) &&
  !col.ptes.any (fun p => under p && (List.range (pageBytes p.size / 65536)).any (fun i => meets (frameBase col (p.dpa + 65536 * i)) 65536))

/-- The part of a pool outside a block of frame addresses. -/
def poolOutside (pool : List Frames) (start size : Nat) : List Frames :=
  pool.flatMap (fun r =>
    let stop := r.start + r.size
    (if r.start < start then [{ r with size := min stop start - r.start }] else []) ++
    (if start + size < stop then [{ r with start := max r.start (start + size), size := stop - max r.start (start + size) }] else []))

/-- The bytes that move with a DPA page: a mapped page whole, an unmapped one by its 64 KiB (log entry 114). -/
def movedSize (c : Colony) (dpa : Nat) : Nat :=
  match c.ptes.find? (fun p => p.dpa == dpa) with
  | some p => pageBytes p.size
  | none => 65536

/-- A DPA page that compaction may move (R295): aligned, of a set that the colony holds, below the withheld top, and no part of
another page. -/
def movable (c : Colony) (dpa : Nat) : Bool :=
  let size := movedSize c dpa
  decide (dpa % size = 0) && !c.ptes.any (fun p => p.dpa != dpa && regionsMeet (p.dpa, pageBytes p.size) (dpa, size)) &&
    holdsSet c.cur (setOf dpa) && decide (setOff dpa + size ≤ withheldFrom c.shadow)

/-- The aligned block of a size that the frame behind a DPA page stands in. -/
def blockOf (c : Colony) (dpa z : Nat) : Nat := frameBase c dpa / z * z

/-- The page's frame blocks an aligned frame of a size, and the block may be cleared (R295). -/
def blocks (s : State) (colony dpa z : Nat) : Bool :=
  let c := colAt s colony
  decide (movedSize c dpa < z) && decide (setOff (blockOf c dpa z) + z ≤ setTop) && clearable s colony (blockOf c dpa z) z

/-- The frame that compaction moves a page to (R295): outside the block that some waiting command lacks. -/
def compactTo (s : State) (colony dpa : Nat) : Option Nat :=
  let c := colAt s colony
  if movable c dpa then
    ((lackedSizes s colony (setOf dpa)).find? (blocks s colony dpa)).bind (fun z =>
      bestOffer (poolOutside c.pool (blockOf c dpa z) z) (setOf dpa) (movedSize c dpa))
  else none

/-- The committed content of a page moves to a free frame, and the two frames are exchanged under R172 (R295). -/
def moveFrame (s : State) (colony dpa a : Nat) : State :=
  let col := colAt s colony
  let size := movedSize col dpa
  let sh : Shadow := { dpa := dpa, size := size, frame := a }
  let s1 := (List.range (size / 64)).foldl (fun t i =>
    homeWrite t 8 (channelOf (sh.addr (dpa + 64 * i))) (chanOff (sh.addr (dpa + 64 * i))) (coherentData s (frameOf col (dpa + 64 * i))))
    (setCol s colony { col with pool := carve col.pool a size })
  let old := joinRuns (oldFrames col sh)
  let s2 := forgetPage (old.foldl (fun t f => recallFrame t f.start f.size) s1) colony dpa size
  let put (t : Tbl Nat) : Tbl Nat := (List.range (size / 65536)).foldl (fun t i => tset t (dpa / 65536 + i) (a / 65536 + i)) t
  modCol s2 colony (fun c => old.foldl giveFrame { c with frames := put c.frames })

/-- COMPACTION (R295): the frame behind a DPA page of a colony, where it blocks an aligned frame that a waiting command lacks. -/
def execCompaction (colony dpa : Nat) (s : State) : Res :=
  if !serving s || decide (colony = 0) || decide (64 < colony) then .next s
  else match compactTo s colony dpa with
    | some a => .next (moveFrame s colony dpa a)
    | none => .next s

end Sys2Proof.Machine
end

