-- ==== Sys2Proof/Machine/Move.lean ====
section
/-! DEFINITION. Data movement on the hub copy engines: COPY, FILL, LOAD_SEALED, STORE_SEALED (R146, R169, R400 to R404),
line by line, with what ends one of their commands: translation, ownership, unreadable lines, host errors (R139, R485),
seals, and the fault of an engine (R174, R415). -/

namespace Sys2Proof.Machine

/- Starting a movement (R165, R166, R169, R248). -/

/-- The class of a movement's requests (R248). -/
def copyClass (s : State) (c : Cmd) : Nat :=
  if c.urgent then 0 else if (colAt s c.colony).classMode then c.label else (colAt s c.colony).mapCopy

/-- The copy engines that are in service and free. -/
def idleEngines (s : State) : List Nat := (List.range 16).filter (fun e => (engineAt s e).inService && (engineAt s e).cmd.isNone)

/-- A movement starts its attempt: its reserve taken and at most 4 engines given to it (R165, R169). -/
def startMove (s : State) (id : Nat) (c : Cmd) : State :=
  if conflicted s id c then s
  else match reserveOf (colAt s c.colony) (needOf (touchedPages (colAt s c.colony) c.regions)) with
    | .never => refuseCmd s id 0x0B 0 0
    | .wait => s
    | .taken fs col =>
      let es := (idleEngines s).take 4
      if es.isEmpty then s
      else
        let s1 := setCmd (setCol s c.colony col) id
          { c with phase := .running, reserve := fs, engines := es, moved := 0, buffer := [], attempts := c.attempts + 1
                   startTick := s.ticks, attemptNs := 0, use := {}, cls := copyClass s c }
        es.foldl (fun t e => modEngine t e (fun x => { x with cmd := some id, want := none })) s1

/-- COPY (R146, R169, R404). -/
def execCopy (cmd : Nat) (s : State) : Res := .next (direct s cmd 0x20 (fun c => startMove s cmd c))

/-- FILL (R146, R169). -/
def execFill (cmd : Nat) (s : State) : Res := .next (direct s cmd 0x21 (fun c => startMove s cmd c))

/-- The vault slot of a sealed movement (R146). -/
def Cmd.slot (c : Cmd) : Nat := c.byte 40 1

/-- A model key of the colony's tenant, ACTIVE (R401). -/
def slotUsable (s : State) (c : Cmd) : Bool :=
  let k := slotAt s c.slot
  k.st == .active && k.kind == 1 && k.tenant == (colAt s c.colony).tenant

/-- LOAD_SEALED (R146, R377, R401). -/
def execLoadSealed (cmd : Nat) (s : State) : Res :=
  .next (direct s cmd 0x22 (fun c =>
    if lifecycle s = 2 then refuseCmd s cmd 0x0B 0 0
    else if !slotUsable s c then bonorFault s cmd 0x02 0x04 0
    else startMove s cmd { c with iv := c.byte 48 12 }))

/-- STORE_SEALED (R146, R402): `iv` is the IV drawn; a rerun keeps the first. -/
def execStoreSealed (cmd : Nat) (iv : Nat) (s : State) : Res :=
  .next (direct s cmd 0x23 (fun c =>
    if !slotUsable s c then bonorFault s cmd 0x02 0x04 0
    else if c.attempts = 0 && decide (2 ^ 32 ≤ (slotAt s c.slot).stores) then refuseCmd s cmd 0x0C 0 0
    else
      let s1 := startMove s cmd { c with iv := if c.attempts = 0 then iv % 2 ^ 96 else c.iv }
      if c.attempts = 0 ∧ (cmdAt s1 cmd).any (fun x => x.phase == .running) then
        modSlot s1 c.slot (fun k => { k with stores := k.stores + 1 })
      else s1))

/- Lines of a movement. -/

/-- The bytes that a movement moves (R146). -/
def Cmd.moveLen (c : Cmd) : Nat := if c.op = 0x21 then c.byte 24 8 else c.byte 32 8

/-- A COPY under the colony's sealed session (R404): decided at its fetch. -/
def Cmd.sealedCopy (c : Cmd) : Bool := c.op == 0x20 && c.stage == 1

/-- A COPY from host memory. -/
def Cmd.inbound (c : Cmd) : Bool := c.op == 0x20 && c.isHost 16

/-- The movement has a unit beside its lines: a trailer or a tag (R146, R404). -/
def Cmd.trailed (c : Cmd) : Bool := c.op == 0x22 || c.op == 0x23 || c.sealedCopy

/-- Its units: one for each line, and the trailer. -/
def Cmd.units_ (c : Cmd) : Nat := c.moveLen / 64 + b2n c.trailed

/-- What a step of an engine gives: bytes with the state after, or the state in which it stopped. -/
inductive Got where
  | data (s : State) (bytes : List Byte)
  | stop (s : State)

/-- A failed ownership check of an engine's request (R197). -/
def engOwn (s : State) (id e colony va : Nat) (o : OwnCheck) : State :=
  match o with
  | .pass => s
  | .denied => commandFault s id 0x02 0x04 (.copyEngine e) 0 va 1 0 false
  | .stale => preempt (countStale s colony) id

/-- An engine's line buffer holds a line, with ownership where `own` (R267). -/
def engHeld (s : State) (e ch off : Nat) (own : Bool) : Option CacheLine :=
  (cacheFind (engineAt s e).lines ch off).filter (fun l => !own || l.mode != .shared)

/-- An engine takes a line into its line buffer (R231, R232, R235, R236, R267, R272): it has the line, or waits at its master or at
the slice, or its command meets a line that cannot be read. `x` is what the slice's SECDED reports. -/
def engTake (s : State) (e id : Nat) (c : Cmd) (x : Sram) (dpa fa : Nat) (kind : ReqKind) : Got :=
  let ch := channelOf fa
  let off := chanOff (lineBase fa)
  let own := kind != .gets
  match engHeld s e ch off own with
  | some l => .data s l.data
  | none =>
    let open_ := if kind = .getw then (creditFor s ch (648 + e) c.cls).isSome else mayIssue s (648 + e) c.cls ch off
    if requestWaits s (648 + e) ch off || !open_ then .stop s
    else
      let sE := if kind = .getw then s else sliceError s ch off x.slice
      let (s1, bad) := if homeSupplies (chanAt sE ch) off kind then checkRead sE (sourceAddr sE fa) else (sE, none)
      match bad with
      | some (p, inj) => .stop (lineFault s1 id ch dpa 0 0 p inj)
      | none =>
        let s2 := dirRequest s1 (648 + e) ch off kind []
        match engHeld s2 e ch off own with
        | some l => .data s2 l.data
        | none => .stop s2

/-- An engine reads one line of the colony's memory: the committed line (R167). -/
def engLine (s : State) (e id : Nat) (c : Cmd) (x : Sram) (va : Nat) : Got :=
  let col := colAt s c.colony
  let sR := rewalk s (648 + e) c.cls c.colony va .read
  match tcLook col (engineAt s e).tc c.colony col.cur.instar va .read with
  | .miss _ => .stop (modEngine s e (fun y => { y with want := some (va, false) }))
  | .denied => .stop (commandFault sR id 0x02 0x04 (.copyEngine e) 0 va 1 0 false)
  | .ok dpa _ =>
    let fa := frameOf col dpa
    match ownCheck col col.cur.instar (channelOf fa) with
    | .pass => engTake sR e id c x dpa fa .gets
    | o => .stop (engOwn sR id e c.colony va o)

/-- An engine reads `len` bytes, at most 64, from any address. -/
def engRead (s : State) (e id : Nat) (c : Cmd) (x : Sram) (va len : Nat) : Got :=
  match engLine s e id c x (lineBase va) with
  | .stop t => .stop t
  | .data s1 a =>
    if va % 64 + len ≤ 64 then .data s1 ((a.drop (va % 64)).take len)
    else match engLine s1 e id c x (lineBase va + 64) with
      | .stop t => .stop t
      | .data s2 b => .data s2 (((a ++ b).drop (va % 64)).take len)

/-- A line that an engine holds with ownership changes in its line buffer. -/
def engStore (s : State) (e ch off : Nat) (line : List Byte → List Byte) : State :=
  modEngine s e (fun y => { y with lines := y.lines.map (fun l =>
    if l.channel = ch ∧ l.offset = off then { l with mode := .modified, data := line l.data } else l) })

/-- An engine writes a line of the command's shadow frame (R165, R168, R267): a whole line is taken by GETM without data, a part by
GETM. -/
def engPut (s : State) (e id : Nat) (c : Cmd) (x : Sram) (va : Nat) (whole : Bool) (line : List Byte → List Byte) : Got :=
  let col := colAt s c.colony
  let sR := rewalk s (648 + e) c.cls c.colony va .write
  match tcLook col (engineAt s e).tc c.colony col.cur.instar va .write with
  | .miss _ => .stop (modEngine s e (fun y => { y with want := some (va, true) }))
  | .denied => .stop (commandFault sR id 0x02 0x04 (.copyEngine e) 0 va 1 0 false)
  | .ok dpa p =>
    match ownCheck col col.cur.instar (channelOf dpa) with
    | .pass =>
      match bindShadow sR id p with
      | none => .stop s
      | some (sh, s1) =>
        let fa := sh.addr dpa
        if (chanAt s1 (channelOf fa)).mode == .fenced then .stop (faultCmd s1 id 0x09 none false)
        else match engTake s1 e id c x dpa fa (if whole then .getw else .getm) with
          | .stop t => .stop t
          | .data t _ => .data (engStore t e (channelOf fa) (chanOff (lineBase fa)) line) []
    | o => .stop (engOwn sR id e c.colony va o)

/-- Bytes put over a line from an offset. -/
def overlay (at_ : Nat) (bs line : List Byte) : List Byte := (line.take at_ ++ bs ++ line.drop (at_ + bs.length)).take 64

/-- An engine writes 64 bytes at any address of the command's destination. -/
def engWrite (s : State) (e id : Nat) (c : Cmd) (x : Sram) (va : Nat) (bs : List Byte) : Got :=
  if va % 64 = 0 then engPut s e id c x va true (fun _ => bs)
  else match engPut s e id c x (lineBase va) false (overlay (va % 64) (bs.take (64 - va % 64))) with
    | .stop t => .stop t
    | .data s1 _ => engPut s1 e id c x (lineBase va + 64) false (overlay 0 (bs.drop (64 - va % 64)))

/-- A unit's source: host memory at a dual address, as the operand gives it, or colony memory. Without the host's answer
nothing moves. -/
def sourceUnit (s : State) (e id : Nat) (c : Cmd) (x : Sram) (off plus len : Nat) (host : Option (List Byte)) : Got :=
  if c.isHost off then
    match host with
    | some d => .data s (padTo len d)
    | none => .stop s
  else engRead s e id c x (c.addr off + plus) len

/-- A unit's destination at a dual address. -/
def destUnit (s : State) (e id : Nat) (c : Cmd) (x : Sram) (off plus : Nat) (bs : List Byte) : Got :=
  if c.isHost off then .data (hostPut s id c.page c.colony (c.addr off + plus) bs) []
  else engWrite s e id c x (c.addr off + plus) bs

/- Seals (R401, R402, R404). -/

/-- The key of a sealed movement: the slot's, or the session's. -/
def moveKey (s : State) (c : Cmd) : BitVec 256 :=
  if c.op = 0x20 then (if c.inbound then (colAt s c.colony).sealKey else (colAt s c.colony).sealKeyOut) else (slotAt s c.slot).key

/-- Its additional authenticated data (R401, R402, R404). -/
def moveAad (c : Cmd) : List Byte :=
  if c.op = 0x20 then leBytes 1 (c.byte 3 1) ++ leBytes 4 c.tag ++ leBytes 8 c.moveLen else leBytes 8 c.moveLen

/-- The IV of a sealed COPY (R404): direction and counter. -/
def sealIv (direction counter : Nat) : Nat := direction + 2 ^ 32 * counter

/-- A seal that fails (R401, R404, R415). -/
def sealFault (s : State) (e id : Nat) : State := commandFault s id 0x04 0x05 (.copyEngine e) 0 0 0 0 false

/-- One more unit of a movement has moved: the `len` bytes read of a host source are counted (R191); `more` joins what the tag is made
over. -/
def unitDone (s : State) (id len : Nat) (more : List Byte) : State :=
  match cmdAt s id with
  | none => s
  | some c =>
    let s1 := if c.op != 0x21 && c.isHost 16 then countFor s id c.colony (fun a => { a with hostIn := wrapAdd 64 a.hostIn len }) else s
    modCmd s1 id (fun c => { c with moved := c.moved + 1, buffer := c.buffer ++ more })

/-- What a `Got` becomes: the state in which it stopped, or what follows with the bytes. -/
def Got.andThen (g : Got) (f : State → List Byte → State) : State :=
  match g with
  | .stop t => t
  | .data s b => f s b

/-- The bytes of a command's RESULT (R153): those written. -/
def moveResult (c : Cmd) : Nat := c.moveLen + (if c.op = 0x23 ∨ (c.sealedCopy ∧ !c.inbound) then 64 else 0)

/-- The line buffers of a command's engines go home (R267). -/
def flushEngines (s : State) (id : Nat) : State :=
  ((List.range 16).filter (fun e => (engineAt s e).cmd == some id)).foldl (fun t e => flushCache t (648 + e)) s

/-- The last unit has moved: the line buffers go home, the attempt ends and its outputs go to their commit (R164 step 9, R190). -/
def endMove (s : State) (id : Nat) : State :=
  match cmdAt s id with
  | none => s
  | some c =>
    if c.phase = .running ∧ c.units_ ≤ c.moved then
      modCmd (chargeAttempt (freeEngines (flushEngines s id) id) id true) id (fun x => { x with phase := .ended, engines := [], buffer := [], result := moveResult c })
    else s

/-- The 64-byte trailer of a sealed output (R146, R404). -/
def trailer (s : State) (c : Cmd) : List Byte := tagBytes (moveKey s c) c.iv (moveAad c) c.buffer ++ leBytes 12 c.iv ++ zeros 36

/-- FILL's line (R146). -/
def fillLine (c : Cmd) : List Byte := (List.range 8).flatMap (fun _ => leBytes 8 (c.byte 32 8))

/-- One unit of an unsealed COPY or a FILL. -/
def plainUnit (s : State) (e id : Nat) (c : Cmd) (x : Sram) (host : Option (List Byte)) : State :=
  let k := 64 * c.moved
  if c.op = 0x21 then (engWrite s e id c x (c.byte 16 8 + k) (fillLine c)).andThen (fun t _ => unitDone t id 0 [])
  else (sourceUnit s e id c x 16 k 64 host).andThen (fun t d => (destUnit t e id c x 24 k d).andThen (fun u _ => unitDone u id 64 []))

/-- One unit of STORE_SEALED or of a sealed COPY to the host: a line of ciphertext, and at the end the trailer. -/
def sealUnit (s : State) (e id : Nat) (c : Cmd) (x : Sram) (host : Option (List Byte)) : State :=
  let k := 64 * c.moved
  if k < c.moveLen then
    (sourceUnit s e id c x 16 k 64 host).andThen (fun t d =>
      let ct := xorBytes d (streamBytes (moveKey s c) c.iv c.moved)
      (destUnit t e id c x 24 k ct).andThen (fun u _ => unitDone u id 64 ct))
  else (destUnit s e id c x 24 k (trailer s c)).andThen (fun u _ => unitDone u id 0 [])

/-- One unit of LOAD_SEALED: a line opened, and at the end the tag (R401). -/
def loadUnit (s : State) (e id : Nat) (c : Cmd) (x : Sram) (host : Option (List Byte)) : State :=
  let k := 64 * c.moved
  if k < c.moveLen then
    (sourceUnit s e id c x 16 k 64 host).andThen (fun t d =>
      (engWrite t e id c x (c.byte 24 8 + k) (xorBytes d (streamBytes (moveKey s c) c.iv c.moved))).andThen (fun u _ => unitDone u id 64 d))
  else (sourceUnit s e id c x 16 k 16 host).andThen (fun t d =>
    if d == tagBytes (moveKey s c) c.iv (moveAad c) c.buffer then unitDone t id 16 [] else sealFault t e id)

/-- The counter of a sealed COPY from the host is accepted (R404): it exceeds the last one accepted, or is the one that
an earlier attempt of the same command had accepted. -/
def counterOk (s : State) (c : Cmd) (n : Nat) : Bool :=
  match (colAt s c.colony).sealSess with
  | some (last, _) => decide (last < n) || (n == last && c.iv == sealIv 1 n)
  | none => false

/-- One unit of a sealed COPY from the host (R404): the trailer first, then the lines, the tag checked with the last. -/
def openUnit (s : State) (e id : Nat) (c : Cmd) (x : Sram) (host : Option (List Byte)) : State :=
  if c.moved = 0 then
    (sourceUnit s e id c x 16 c.moveLen 64 host).andThen (fun t d =>
      let iv := bytesAt d 16 12
      if iv % 2 ^ 32 = 1 ∧ counterOk t c (iv / 2 ^ 32) then unitDone t id 64 d else sealFault t e id)
  else
    let k := 64 * (c.moved - 1)
    let iv := bytesAt c.buffer 16 12
    (sourceUnit s e id c x 16 k 64 host).andThen (fun t d =>
      (destUnit t e id c x 24 k (xorBytes d (streamBytes (moveKey s c) iv (c.moved - 1)))).andThen (fun u _ =>
        if c.moved + 1 < c.units_ then unitDone u id 64 d
        else if c.buffer.take 16 == tagBytes (moveKey s c) iv (moveAad c) (c.buffer.drop 64 ++ d) then
          unitDone (modCmd (modCol u c.colony (fun x => { x with sealSess := x.sealSess.map (fun p => (max p.1 (iv / 2 ^ 32), p.2)) }))
            id (fun x => { x with iv := iv })) id 64 d
        else sealFault u e id))

/-- COPY_ENGINE_LINE (R169): an engine moves its command's next line. `host` is what host memory holds there, where the
source lies in host memory. -/
def execCopyEngineLine (engine : Nat) (host : Option (List Byte)) (x : Sram) (s : State) : Res :=
  let y := engineAt s engine
  match y.cmd with
  | none => .next s
  | some id => match cmdAt s id with
    | none => .next s
    | some c =>
      if !serving s || c.phase != .running || y.want.isSome || agentHalted s (648 + engine) || decide (16 ≤ engine) || s.flt.armed.contains (9, engine) then .next s
      else
        let s1 :=
          if c.op = 0x22 then loadUnit s engine id c x host
          else if c.op = 0x23 then sealUnit s engine id c x host
          else if !c.sealedCopy then plainUnit s engine id c x host
          else if c.inbound then openUnit s engine id c x host
          else sealUnit s engine id c x host
        .next (endMove s1 id)

/- Host errors (R139, R485). -/

/-- The command waits for data that an engine reads from host memory. -/
def hostReading (c : Cmd) : Bool := c.phase == .running && (c.op == 0x20 || c.op == 0x22) && c.isHost 16

/-- A host read of a movement fails: AER logs it and the command ends ACCESS_DENIED. -/
def hostFail (s : State) (id : Nat) (c : Cmd) (kind : Nat) : State :=
  commandFault (logAer s kind) id 0x02 0x04 (.copyEngine (c.engines.headD 0)) 0 0 0 0 false

/-- HOST_READ_COMPLETION (R485): poisoned data or an error status ends the command; good data comes with its line. -/
def execHostReadCompletion (cmd : Nat) (poisoned error : Bool) (s : State) : Res :=
  match cmdAt s cmd with
  | none => .next s
  | some c =>
    if !serving s || !hostReading c then .next s
    else if poisoned then .next (hostFail s cmd c 1)
    else if error then .next (hostFail s cmd c 2)
    else .next s

/-- COMPLETION_TIMEOUT (R485). -/
def execCompletionTimeout (cmd : Nat) (s : State) : Res :=
  match cmdAt s cmd with
  | none => .next s
  | some c => .next (if serving s && hostReading c then hostFail s cmd c 3 else s)

/- Engine faults (R174, R415). -/

/-- The SYSREF periods of one second (R447). -/
def secondTicks : Nat := 156250000

/-- An engine's work goes to another free engine, where there is one (R174). -/
def moveWork (s : State) (engine id : Nat) : State :=
  match (idleEngines s).find? (fun e => e != engine) with
  | none => s
  | some k =>
    let s1 := modEngine (modEngine (leaveWaiters s (648 + engine)) engine (fun x => { x with cmd := none, want := none })) k (fun x => { x with cmd := some id, want := none })
    modCmd s1 id (fun c => { c with engines := c.engines.map (fun e => if e = engine then k else e) })

/-- The copy of a faulted engine starts again (R174, R281): the lines of its buffer are lost. -/
def restartCopy (s : State) (id : Nat) : State := modCmd s id (fun c => { c with moved := 0, buffer := [] })

/-- COPY_ENGINE_FAULT (R174, R415): the copy restarts on another engine; the second fault within 1 s opens a window. -/
def execCopyEngineFault (engine : Nat) (s : State) : Res :=
  let x := engineAt s engine
  if !serving s || !x.inService || decide (16 ≤ engine) then .next s
  else
    let again := decide (0 < x.faults) && decide (s.ticks - x.faultTick < secondTicks)
    let colony := (x.cmd.bind (cmdAt s)).elim 0 (fun c => c.colony)
    let r := blankRec 0x22 (if again then 2 else 1) (.copyEngine engine) colony
    let (s1, i) := recordFault s (match x.cmd with | some id => nameCmd s r id | none => r)
    let s2 := modEngine (killCache s1 (648 + engine)) engine (fun y => { y with faults := if again then y.faults + 1 else 1, faultTick := s.ticks })
    let s3 := if again then s2 else closeRec s2 i
    .next (match x.cmd with
      | some id => restartCopy (moveWork s3 engine id) id
      | none => s3)

end Sys2Proof.Machine
end

