-- ==== Sys2Proof/Machine/Colony.lean ====
section
/-! DEFINITION. Recomposition: BIND, UNBIND, REBIND and their map updates (R194 to R211), what a unit does when it leaves
its owner (R205, R207, R208), core replacement (R39, R40), the completion of kills (R33 to R37, R175), colony reset and
teardown (R162, R212, R213), and QUERY_MAP (R196, R217, R218). -/

namespace Sys2Proof.Machine

/- What registers and reports show (R181, R196, R217). -/

/-- The 256 bytes of a map entry (R196). -/
def mapEntryBytes (c : Colony) (e : MapEntry) (inflight : Nat) : List Byte :=
  leBytes 80 (bitMap e.cores) ++ leBytes 64 (bitMap e.channels) ++ leBytes 2 (bitMap e.ports) ++
  leBytes 1 (b2n e.valid + 2 * b2n e.merged) ++ leBytes 1 e.instar ++ leBytes 4 inflight ++ leBytes 1 c.tenant ++ leBytes 1 c.vf ++
  leBytes 2 e.cores.length ++ leBytes 2 e.channels.length ++ leBytes 1 e.ports.length ++ leBytes 1 c.keySlot ++ zeros 96

/-- A colony state's code (R217). -/
def ColState.code : ColState → Nat
  | .free => 0
  | .binding => 1
  | .active => 2
  | .resetting => 3
  | .teardown => 4

/-- COL.STATE (R217). -/
def colStateReg (c : Colony) : Nat :=
  c.st.code + 8 * b2n (decide (0 < c.recomposing)) + 16 * b2n (c.old.valid && !c.old.merged) + 2 ^ 8 * c.cur.instar +
  2 ^ 16 * c.old.instar + 2 ^ 24 * c.vf + 2 ^ 32 * c.tenant

/-- HUB.SHADOW[c] (R181, R294), in 64 KiB units. -/
def hubShadowReg (s : State) (n : Nat) : Nat :=
  let used := reservedBytes s n / 65536
  used + 2 ^ 32 * (poolBytes (colAt s n) / 65536 - used)

/- Units of a composition command (R149, R203). -/

/-- The units that a descriptor names (R149). -/
def namedUnits (ind : List Byte) : List UnitRef :=
  (bitsOf 640 (bytesAt ind 0 80)).map UnitRef.core ++ (bitsOf 512 (bytesAt ind 80 64)).map UnitRef.channel ++
  (bitsOf 16 (bytesAt ind 144 2)).map UnitRef.port

/-- The composition command that claims a unit. -/
def claimOf (s : State) : UnitRef → Option Nat
  | .core n => (coreAt s n).claim
  | .channel n => (chanAt s n).claim
  | .port n => (portAt s n).claim
  | _ => none

def setClaim (s : State) (u : UnitRef) (k : Option Nat) : State :=
  match u with
  | .core n => modCore s n (fun c => { c with claim := k })
  | .channel n => modChan s n (fun c => { c with claim := k })
  | .port n => modPort s n (fun c => { c with claim := k })
  | _ => s

/-- The unit is in transit (R194). -/
def inTransit (s : State) : UnitRef → Bool
  | .core n => (coreAt s n).transit
  | .channel n => (chanAt s n).mode == .transit
  | .port n => (portAt s n).transit
  | _ => false

/-- The unit is FENCED. -/
def unitFenced (s : State) : UnitRef → Bool
  | .core n => (coreAt s n).st == .fenced
  | .channel n => (chanAt s n).mode == .fenced
  | .port n => (portAt s n).st == .fenced
  | _ => false

/-- A map entry holds a unit. -/
def entryHas (e : MapEntry) : UnitRef → Bool
  | .core n => e.cores.contains n
  | .channel n => e.channels.contains n
  | .port n => e.ports.contains n
  | _ => false

/-- A unit is in the free pool (R194): of no colony and not in transit. -/
def isFree (s : State) (u : UnitRef) : Bool := !inTransit s u && !s.cols.any (fun e => entryHas e.2.cur u)

/-- A unit enters the free pool (R194, R205): a fenced one stays FENCED. -/
def freeUnit (s : State) : UnitRef → State
  | .core n => freeCore s n
  | .channel n => modChan s n (fun c => { c with mode := if c.mode == .fenced then .fenced else .inService, wipeBusy := false, colony := 0, claim := none, cold := 2 })
  | .port n => modPort s n (fun p => { p with transit := false, leaving := false, colony := 0, claim := none })
  | _ => s

/-- A unit enters a colony (R34, R207). -/
def enterUnit (s : State) (colony : Nat) : UnitRef → State
  | .core n => bindCore s n colony
  | .channel n => modChan s n (fun c => { c with mode := if c.mode == .fenced then .fenced else .inService, wipeBusy := false, colony := colony, claim := none, cold := 2 })
  | .port n => modPort s n (fun p => { p with transit := false, leaving := false, colony := colony, claim := none })
  | _ => s

/-- The cores, channels and ports among units. -/
def coresOf (l : List UnitRef) : List Nat := l.filterMap (fun u => match u with | .core n => some n | _ => none)
def channelsOf (l : List UnitRef) : List Nat := l.filterMap (fun u => match u with | .channel n => some n | _ => none)
def portsOf (l : List UnitRef) : List Nat := l.filterMap (fun u => match u with | .port n => some n | _ => none)

/-- Every unit that a command claims and that has left its owner. -/
def claimedUnits (s : State) (id : Nat) : List UnitRef :=
  (s.cores.filter (fun e => e.2.claim == some id)).map (fun e => .core e.1) ++
  (s.chans.filter (fun e => e.2.claim == some id)).map (fun e => .channel e.1) ++
  (s.ports.filter (fun e => e.2.claim == some id)).map (fun e => .port e.1)

/- The sets of a colony change (R210, R293, R308). -/

/-- A table frame holds a table with a valid entry. -/
def tablesUsed (c : Colony) (l : List (Nat × Nat × Nat)) : Bool :=
  l.any (fun x => c.ptes.any (fun p => decide (x.2.1 ≤ leafLevel p.size) && tableIndex x.2.1 p.va == x.2.2))

/-- Table frames move, each to a free frame of a set that is held in full; none where one does not fit. -/
def rehouse (c : Colony) : List (Nat × List (Nat × Nat × Nat)) → Option Colony
  | [] => some c
  | f :: r =>
    match (fullSets c.cur).findSome? (fun z => takeFrame c z 65536) with
    | some (a, c1) => rehouse { c1 with tables := c1.tables ++ [(a, f.2)] } r
    | none => none

/-- Sets no longer held in full leave the pool and the frame map (R210, R293); their table frames move to a set that stays, and
the empty ones are freed (R308). None while a table frame finds no room. -/
def leaveSets (c : Colony) : Option Colony :=
  let stays (f : Nat × List (Nat × Nat × Nat)) : Bool := holdsSet c.cur (setOf f.1)
  rehouse { c with pool := c.pool.filter (fun f => holdsSet c.cur (setOf f.start))
                   frames := c.frames.filter (fun e => holdsSet c.cur (setOf (e.1 * 65536)))
                   tables := c.tables.filter stays } (c.tables.filter (fun f => !stays f && tablesUsed c f.2))

/-- Sets newly held in full bring their pools, every page on its own frame (R210, R293). -/
def arriveSets (before : MapEntry) (c : Colony) : Colony :=
  ((fullSets c.cur).filter (fun z => !holdsSet before z)).foldl (fun x z =>
    { x with pool := joinRuns (insertRun x.pool (freshPool x.shadow z)), frames := x.frames.filter (fun e => setOf (e.1 * 65536) != z) }) c

/- The end of a composition command. -/

/-- A core fenced by now awaits its replacement once a composition command completes (R39); one fenced in transit by that
command keeps REPLACE_PENDING for a later one (R211). -/
def markReplacements (s : State) (kept : List Nat) : State :=
  { s with cores := s.cores.map (fun e =>
      (e.1, if e.2.st == .fenced && e.2.replacePending && !kept.contains e.1 then { e.2 with replaceDue := true } else e.2)) }

/-- The command completes: OK, or UNIT_FENCED where a named unit was fenced on the way (R211). -/
def finishCompose (s : State) (id : Nat) : State :=
  match cmdAt s id with
  | none => s
  | some c =>
    let s1 := composed s c
    endCmd (markReplacements (modCmd s1 id (fun x => { x with attempts := 1, status := 0 }))
      (c.transitFenced.filter (fun n => (coreAt s1 n).colony == 0))) id c.status 0 c.result

/-- The units of a colony in teardown that still have to reach the free pool; with none left it is FREE (R213). -/
def tornUnit (s : State) (u : UnitRef) : State :=
  { s with cols := s.cols.map (fun e =>
      if e.2.st == .teardown && e.2.stage == .wiping then
        (e.1, { e.2 with cur := { e.2.cur with
          cores := e.2.cur.cores.filter (fun n => u != .core n)
          channels := e.2.cur.channels.filter (fun n => u != .channel n)
          ports := e.2.cur.ports.filter (fun n => u != .port n) } })
      else e) }

/-- A unit has finished leaving its owner: wiped, drained and refreshed (R205 to R207, R213). It waits for the arrival
update, or enters the free pool. -/
def unitReady (s : State) (u : UnitRef) : State :=
  match claimOf s u with
  | none => tornUnit (freeUnit s u) u
  | some id =>
    let s1 := modCmd s id (fun c => { c with units := c.units.filter (fun x => x != u) })
    match cmdAt s1 id with
    | none => freeUnit s1 u
    | some c =>
      if c.toField != 0 then s1
      else
        let s2 := freeUnit s1 u
        if c.units.isEmpty && c.stage == 2 then finishCompose s2 id else s2

/- Teardown and reset, step by step (R162, R212, R213). -/

/-- The requests of a colony that wait at a slice: NACKed, and those named by a transient entry. -/
def squashWaiting (c : Channel) (colony : Nat) : Channel :=
  { c with nacked := c.nacked.filter (fun n => n.stamp.colony != colony)
           dir := c.dir.map (fun e => if e.pendStamp.colony == colony then { e with pendAgent := 1023, pendStamp := {} } else e) }

/-- The colony's outstanding requests are squashed and counted (R197, R212 step 5, R213 step 3): tags of DMA engines, requests that
wait at slices, remote requests of port engines. -/
def squashOld (s : State) (colony : Nat) : State :=
  let n := (s.cores.map (fun e => (e.2.tags.filter (fun t => t.colony == colony)).length)).sum +
    (s.chans.map (fun e => ((waitingStamps e.2).filter (fun r => r.colony == colony)).length)).sum
  let s0 : State := { s with cores := s.cores.map (fun e => (e.1, { e.2 with tags := e.2.tags.filter (fun t => t.colony != colony) }))
                             chans := s.chans.map (fun e => (e.1, squashWaiting e.2 colony)) }
  let s1 := (s0.ports.map (fun e => e.1)).foldl (fun t p => squashDrain t p (fun r => r.colony == colony)) s0
  modCol s1 colony (fun c => { c with stale := satAdd 32 c.stale n, cur := { c.cur with inflight := 0 }, old := { c.old with inflight := 0 } })

/-- The messages sent by `f` that the colony awaits the acknowledgement of. -/
def awaitSent (s : State) (colony : Nat) (f : State → State) : State :=
  let before := s.fab.unacked.map (fun m => m.mseq)
  let s1 := f s
  let sent := (s1.fab.unacked.filter (fun m => m.scol == colony && !before.contains m.mseq)).map (fun m => m.mseq)
  modCol s1 colony (fun c => { c with awaiting := c.awaiting ++ sent })

/-- The retired value that a reset or teardown announces: the instar before the advance (R201). -/
def retiredValue (c : Colony) : Nat := c.old.instar

/-- Step 6 of a reset (R201, R212). -/
def resetMessages (s : State) (colony : Nat) : State :=
  awaitSent s colony (fun t => modCol (sendRetire t colony (retiredValue (colAt t colony)) none) colony (fun c => { c with sinceRetire := 0 }))

/-- Step 4 of a teardown (R201, R213): revokes, retires, and this device's own windows. -/
def teardownMessages (s : State) (colony : Nat) : State :=
  awaitSent s colony (fun t =>
    let t1 := (peerDests t colony).foldl (fun x d => sendMsg x 3 d colony (colAt x colony).cur.instar 0 [] none) t
    let t2 := modCol (sendRetire t1 colony (retiredValue (colAt t1 colony)) none) colony (fun c => { c with sinceRetire := 0 })
    { t2 with fab := { t2.fab with windows := t2.fab.windows.filter (fun e => e.2.colony != colony) } })

/-- The records of a torn-down colony's own rings: written while its completion rings are enabled and have room, the rest
dropped (R135, R162). -/
def flushRecords (s : State) (colony : Nat) : State :=
  let due := s.cmds.filter (fun e => e.2.page == colony && e.2.due)
  let order := due.foldl (fun acc x => (acc.takeWhile (fun y => decide (y.2.fin ≤ x.2.fin))) ++ [x] ++ (acc.dropWhile (fun y => decide (y.2.fin ≤ x.2.fin)))) []
  order.foldl (fun t e =>
    match cmdAt t e.1 with
    | none => t
    | some c =>
      let q := cqAt t c.page (sqAt t c.page c.ring).cq
      if !q.enable then dropDisabled t e.1 c
      else if (q.tail + 1) % ringSlots q.log2n != q.head then sendRecord t e.1 c
      else countDropped (afterRecord t e.1) colony) s

/-- Every ring of a colony's page is disabled (R162, R212). -/
def disableRings (s : State) (page : Nat) : State :=
  modHub s (fun h => { h with
    sqs := h.sqs.map (fun e => (e.1, if e.1 / 16 = page then { e.2 with enable := false, st := .disabled } else e.2))
    cqs := h.cqs.map (fun e => (e.1, if e.1 / 16 = page then { e.2 with enable := false } else e.2)) })

/-- Step 6 of a function level reset (R482): the VF's function state and the ring pages it drives are as after reset. -/
def resetFunction (s : State) (v : Nat) : State :=
  let mine (k : Nat) : Bool := s.cols.any (fun e => e.1 == k && e.2.vf == v)
  let p := s.pcie
  let s1 := { s with pcie := { p with
    msix := tdel p.msix (v + 1), d3 := p.d3.filter (fun k => k != v + 1), flr := p.flr.filter (fun k => k != v)
    ceasing := p.ceasing.filter (fun k => k != v) } }
  modHub s1 (fun h => { h with
    sqs := h.sqs.filter (fun e => !mine (e.1 / 16)), cqs := h.cqs.filter (fun e => !mine (e.1 / 16))
    syncs := h.syncs.filter (fun e => !mine (e.1 / 256)) })

/-- A colony's reset or teardown has ended: so does an FLR of its VF under way (R482, R483). -/
def flrDone (s : State) (colony : Nat) : State :=
  if s.pcie.flr.contains (colAt s colony).vf then resetFunction s (colAt s colony).vf else s

/-- Step 9 of a teardown (R213, R214): the UNBIND record, and the colony FREE with its instar and old entry kept. -/
def finishTeardown (s : State) (colony : Nat) : State :=
  let s1 := flrDone (disableRings (flushRecords s colony) colony) colony
  let c := colAt s1 colony
  let s2 : State := { s1 with cores := s1.cores.map (fun e => (e.1, if e.2.home = colony then { e.2 with home := 0 } else e.2))
                              cmds := s1.cmds.map (fun e => (e.1, if e.2.colony = colony then { e.2 with returning := [], shadows := [], reserve := [] } else e.2)) }
  let sL := (s2.cmds.filter (fun e => e.2.colony == colony)).foldl (fun t e => leaveTracker t e.1) s2
  let s3 := filterWalkers (filterTcs sL (fun e => e.colony != colony)) (fun e => e.colony != colony)
  let s4 := setCol s3 colony { ({} : Colony) with
    classMode := c.classMode, shadow := c.shadow, mapCore := c.mapCore, mapCopy := c.mapCopy, mapPort := c.mapPort, mapCtrl := c.mapCtrl
    linkw := c.linkw, linkwNext := c.linkwNext, stale := c.stale, diagSlots := c.diagSlots, diagVa := c.diagVa
    fIrq := c.fIrq, fVec := c.fVec, fMax := c.fMax, fTimeout := c.fTimeout, faults := c.faults, wdLast := c.wdLast, epoch := c.epoch
    sinceRetire := c.sinceRetire, cold := c.cold
    cur := { ({} : MapEntry) with instar := c.cur.instar }, old := { c.old with valid := false } }
  match c.unbind with
  | some id => endCmd (markReplacements (modCmd s4 id (fun x => { x with attempts := 1 })) []) id (if c.peerFenced then 0x0F else 0) 0
      (c.cur.instar + 2 ^ 32 * c.dropped)
  | none => s4

/-- Step 8 of a teardown (R213): every unit of the colony is wiped and goes to the free pool. -/
def releaseUnits (s : State) (colony : Nat) : State :=
  let e := (colAt s colony).cur
  let s1 := e.cores.foldl (fun t n =>
    if (coreAt t n).transit then t
    else if unitFenced t (.core n) then tornUnit (freeUnit t (.core n)) (.core n)
    else unitReady (modCore (wipeCore t n) n (fun c => { c with claim := none })) (.core n)) s
  let s2 := e.channels.foldl (fun t n =>
    if unitFenced t (.channel n) then tornUnit (freeUnit t (.channel n)) (.channel n)
    else modChan t n (fun c => { c with mode := .transit, wipeBusy := true, claim := none })) s1
  e.ports.foldl (fun t n =>
    let p := portAt t n
    if p.st == .active then modPort t n (fun q => { q with transit := true, refreshing := true, claim := none })
    else tornUnit (freeUnit t (.port n)) (.port n)) s2

/-- The colony holds no unit any more. -/
def holdsNothing (c : Colony) : Bool := c.cur.cores.isEmpty && c.cur.channels.isEmpty && c.cur.ports.isEmpty

/-- A core of the colony is still being killed. -/
def killsRun (s : State) (colony : Nat) : Bool := (colAt s colony).cur.cores.any (fun n => (coreAt s n).st == .killed)

/-- One step of a reset (R212), where its condition holds. -/
def resetStep (s : State) (n : Nat) (c : Colony) : State :=
  match c.stage with
  | .issueStopped => if advanceHeld c then s else
      modCol (filterWalkers (squashOld (mapUpdate s n false c.cur.cores c.cur.channels c.cur.ports) n) (fun e => e.colony != n)) n
        (fun x => { x with stage := .draining })
  | .draining => if c.old.valid && !c.old.merged then s else modCol (resetMessages s n) n (fun x => { x with stage := .waitingPeers })
  | .waitingPeers => if c.awaiting.isEmpty then modCol s n (fun x => { x with stage := .wiping }) else s
  | .wiping => if killsRun s n then s else
      let s1 := c.cur.cores.foldl (fun t k => if (coreAt t k).st == .bound then wipeCore t k else t) s
      let s2 := modHub s1 (fun h => { h with syncs := h.syncs.filter (fun e => e.1 / 256 != n) })
      flrDone (modCol s2 n (fun x => { x with stage := .none, st := .active })) n
  | .none => s

/-- One step of a teardown (R213), where its condition holds. -/
def teardownStep (s : State) (n : Nat) (c : Colony) : State :=
  match c.stage with
  | .issueStopped => if advanceHeld c then s else
      modCol (teardownMessages (squashOld (mapUpdate s n false c.cur.cores c.cur.channels c.cur.ports) n) n) n (fun x => { x with stage := .waitingPeers })
  | .draining => modCol s n (fun x => { x with stage := .waitingPeers })
  | .waitingPeers => if c.awaiting.isEmpty && inflightCur s n == 0 && inflightOld s n == 0 && !killsRun s n then
      releaseUnits (modCol s n (fun x => { x with stage := .wiping })) n else s
  | .wiping => if holdsNothing c then finishTeardown s n else s
  | .none => s

/-- What a colony's reset or teardown can do now. -/
def colonyStep (s : State) (n : Nat) : State :=
  let c := colAt s n
  match c.st with
  | .resetting => resetStep s n c
  | .teardown => teardownStep s n c
  | _ => s

/-- The reset or teardown goes as far as it can. -/
def colonyProgress (s : State) (n : Nat) : State := colonyStep (colonyStep (colonyStep (colonyStep s n) n) n) n

/-- Every unfinished reset and teardown goes as far as it can. -/
def settleColonies (s : State) : State := s.cols.foldl (fun t e => colonyProgress t e.1) s

/- Their beginning. -/

/-- The colony's open translation records close, and nobody of it waits any more (R308). -/
def closeColonyXlt (s : State) (colony status : Nat) : State :=
  modCol { s with flt := { s.flt with recs := s.flt.recs.map (fun e =>
      if xltOpen e.2 colony then (e.1, { e.2 with st := .closed, fin := 8, status := status }) else e) } } colony (fun c => { c with stalled := [] })

/-- The job groups of the colony's unfinished commands. -/
def liveJobs (s : State) (colony : Nat) : List Nat :=
  sortNat ((s.cmds.filter (fun e => e.2.colony == colony && !e.2.finished && e.2.phase != .held && e.2.job != 0)).map (fun e => e.2.job))

/-- Handoff records and the sealed session of a colony end (R368, R403). -/
def dropColonyState (s : State) (colony : Nat) : State :=
  modCol { s with fab := { s.fab with handoffs := s.fab.handoffs.filter (fun e => e.2.colony != colony) } } colony
    (fun c => { c with sealSess := none, sealKey := 0, sealKeyOut := 0 })

/-- Every command of a colony ends with TEARDOWN; held outputs are discarded (R162, R174). -/
def endForTeardown (s : State) (colony : Nat) : State :=
  s.cmds.foldl (fun t e =>
    match cmdAt t e.1 with
    | none => t
    | some c =>
      if c.colony != colony then t
      else match c.phase with
        | .held => discardHeld t e.1
        | .done => disposeFailed t e.1 none
        | .written => if c.unsettled then disposeFailed t e.1 none else t
        | .killing => setCmd t e.1 { c with after := some 0x0E, dying := true }
        | _ => abortCmd (setCmd t e.1 { c with dying := true }) e.1 0x0E) s

/-- A command of a colony in reset leaves without a record (R212): its attempt is killed, a record already due is dropped
and counted. -/
def silentEnd (s : State) (id : Nat) : State :=
  match cmdAt s id with
  | none => s
  | some c =>
    let s1 := if c.due then dropRecord s c.colony else s
    let run := runningCores s1 id c
    let ns := c.attemptNs + run.length * nsSince s1 c.startTick
    let s2 := chargeAttempt (setCmd { s1 with signals := s1.signals.filter (fun m => m.cmd != id) } id { c with attemptNs := ns }) id true
    let s3 := endReqs (freeEngines (run.foldl coreKill s2) id) id
    match cmdAt s3 id with
    | none => s3
    | some c1 =>
      let c2 := { c1.discard with phase := .written, recorded := true, dying := true, engines := [], killing := [], emptied := [] }
      let s4 := modCol s3 c.colony (dropFrames c1.emptied)
      if c2.returning.isEmpty then { s4 with cmds := tdel s4.cmds id } else setCmd s4 id c2

def endForReset (s : State) (colony : Nat) : State :=
  s.cmds.foldl (fun t e => if e.2.colony == colony && (e.2.phase != .written || e.2.unsettled) then silentEnd t e.1 else t) s

/-- Peer aborts for the job groups whose commands were ended (R363). -/
def abortJobs (s : State) (colony status : Nat) (jobs : List Nat) : State := jobs.foldl (fun t j => raiseAbort t colony j status t.nextCmd none) s

/-- A port's buffers are wiped and its session refreshed where its link is up (R205, R332); without a link there is no
session to refresh. -/
def refreshPort (s : State) (n : Nat) : State :=
  if (portAt s n).st == .active then startRefresh (modPort s n (fun p => { p with transit := true })) n
  else unitReady (modPort s n (fun p => { p with transit := true })) (.port n)

/-- Units in transit whose command has ended: those finished are wiped again and join the free pool, the others follow
(R211). -/
def releaseClaim (s : State) (c : Cmd) (u : UnitRef) : State :=
  let s1 := setClaim s u none
  if !inTransit s u then s1
  else match u with
    | .core n => if (coreAt s n).st == .killed then s1 else unitReady (wipeCore s1 n) u
    | .channel n =>
      if !c.units.contains u then modChan s1 n (fun x => { x with wipeBusy := true })
      else if (chanAt s n).wipeBusy then modChan s1 n (fun x => { x with rewipe := c.toField != 0 })
      else s1
    | .port n =>
      if c.units.contains u then modPort s1 n (fun p => { p with rewipe := c.toField != 0 && p.refreshing })
      else refreshPort s1 n
    | _ => s1

/-- A composition command ends TEARDOWN since its colony is torn down (R211). -/
def endCompose (s : State) (id : Nat) : State :=
  match cmdAt s id with
  | none => s
  | some c =>
    let s1 := (claimedUnits s id).foldl (fun t u => releaseClaim t c u) s
    let s2 := composed s1 c
    endCmd (modCmd s2 id (fun x => { x with attempts := 1, status := 0 })) id 0x0E 0 c.result

/-- The running composition commands that name a colony. -/
def composing (s : State) (colony : Nat) : List Nat :=
  (s.cmds.filter (fun e => (e.2.op == 0x50 || e.2.op == 0x51 || e.2.op == 0x52) && e.2.phase == .started && decide (0 < e.2.stage) &&
    (e.2.colField == colony || e.2.toField == colony) && !(e.2.op == 0x51 && (e.2.byte 17 1).testBit 0))).map (fun e => e.1)

/-- Teardown starts, or takes over from a reset under way (R202, R213 step 1); `id` is the UNBIND, none for KEY_RETIRE. -/
def startTeardown (s : State) (colony : Nat) (id : Option Nat) : State :=
  let was := (colAt s colony).stage
  let jobs := liveJobs s colony
  let s0 := drainReqs s (fun _ r => r.colony == colony)
  let s1 := modCol s0 colony (fun c => { c with st := .teardown, unbind := id, dropped := 0, peerFenced := false,
                                                stage := if was = .none then .issueStopped else was })
  let s2 := (composing s1 colony).foldl endCompose s1
  let s3 := abortJobs (closeColonyXlt (endForTeardown s2 colony) colony 0x0E) colony 0x0E jobs
  let s4 := modCol (dropColonyState s3 colony) colony (fun c => { c with ptes := [], tables := [], wdBusy := none })
  let s5 := if was = .none ∨ was = .issueStopped then s4 else
    modCol (teardownMessages s4 colony) colony (fun c => { c with stage := .waitingPeers })
  colonyProgress s5 colony

/-- A colony reset starts (R212). -/
def startReset (s : State) (colony : Nat) : State :=
  let jobs := liveJobs s colony
  let s0 := drainReqs s (fun _ r => r.colony == colony)
  let s1 := disableRings (modCol s0 colony (fun c => { c with st := .resetting, stage := .issueStopped, awaiting := [], wdBusy := none })) colony
  let s2 := closeColonyXlt (endForReset s1 colony) colony 0
  colonyProgress (dropColonyState (abortJobs s2 colony 7 jobs) colony) colony

/-- COLONY_RESET: COL.CMD.RESET is written (R202, R212, R217). -/
def execColonyReset (colony : Nat) (s : State) : Res :=
  .next (if serving s && fnLive s .pf && decide (1 ≤ colony) && decide (colony ≤ 64) && (colAt s colony).st == .active then startReset s colony else s)

/- Validation (R203). -/

/-- A channel's set holds a mapped page of a colony (R203, R227). -/
def pageOn (c : Colony) (ch : Nat) : Bool := c.ptes.any (fun p => setOf p.dpa == ch / 16)

/-- The slot that holds the tenant's memory key, ACTIVE (R203). -/
def tenantSlot (s : State) (tenant : Nat) : Option Nat :=
  (s.sec.slots.find? (fun e => e.2.st == .active && e.2.kind == 0 && e.2.tenant == tenant)).map (fun e => e.1)

/-- A BIND may be carried out (R203). -/
def bindOk (s : State) (c : Cmd) : Bool :=
  (colAt s c.colField).st == .free && (namedUnits c.ind).all (isFree s) && (coresOf (namedUnits c.ind)).all (fun n => (coreAt s n).st != .fenced) &&
  (c.byte 17 1 == 0x7F || !s.cols.any (fun e => e.2.vf == c.byte 17 1)) && (tenantSlot s (c.byte 18 1)).isSome

/-- An UNBIND or REBIND may be carried out (R203, R210). -/
def rebindOk (s : State) (c : Cmd) : Bool :=
  let col := colAt s c.colField
  let us := namedUnits c.ind
  col.st != .free && col.st != .teardown && us.all (entryHas col.cur) &&
  (c.toField == 0 || (let t := (colAt s c.toField).st; t == .binding || t == .active || t == .resetting)) &&
  (c.op != 0x52 || c.toField != c.colField || us.isEmpty) &&
  (c.op != 0x52 || (coresOf us).all (fun n => (coreAt s n).st != .fenced)) &&
  !(channelsOf us).any (pageOn col) &&
  decide (reservedBytes s c.colField ≤ (col.cur.channels.length - (channelsOf us).length) * (col.shadow * 0x1D80000))

/-- A named unit is claimed by another command (R203). -/
def claimedElsewhere (s : State) (id : Nat) (c : Cmd) : Bool := (namedUnits c.ind).any (fun u => match claimOf s u with | some k => k != id | none => false)

/-- The command has its units: it is in progress on its colonies (R203, R217). -/
def claimUnits (s : State) (id : Nat) (c : Cmd) (stage : Nat) : State :=
  let us := namedUnits c.ind
  let up (t : State) (n : Nat) : State := if n = 0 then t else modCol t n (fun x => { x with recomposing := x.recomposing + 1 })
  let s1 := us.foldl (fun t u => setClaim t u (some id)) s
  let s2 := up (if c.toField = c.colField then s1 else up s1 c.toField) c.colField
  waitIn (modCmd s2 id (fun x => { x with stage := stage, units := us, status := 0, result := (colAt s c.colField).cur.instar })) id

/-- BIND (R149, R203, R206 steps 1 to 4). -/
def execBind (cmd : Nat) (s : State) : Res :=
  .next (direct s cmd 0x50 (fun c =>
    if claimedElsewhere s cmd c then s
    else if !bindOk s c then refuseCmd s cmd 0x0B 0 0
    else
      let s1 := modCol (claimUnits s cmd c 2) c.colField (fun x =>
        { x with st := .binding, vf := c.byte 17 1, tenant := c.byte 18 1, keySlot := (tenantSlot s (c.byte 18 1)).getD 0 })
      let s2 := (coresOf (namedUnits c.ind)).foldl (fun t n => unitReady (wipeCore (modCore t n (fun k => { k with transit := true })) n) (.core n)) s1
      let s3 := (channelsOf (namedUnits c.ind)).foldl (fun t n =>
        if unitFenced t (.channel n) then unitReady t (.channel n) else modChan t n (fun k => { k with mode := .transit, wipeBusy := true })) s2
      (portsOf (namedUnits c.ind)).foldl (fun t n => if unitFenced t (.port n) then unitReady t (.port n) else refreshPort t n) s3))

/-- The attempts on named cores are killed (R205 core step 2); a non-preemptible one is waited for. -/
def killNamed (s : State) (us : List UnitRef) : State :=
  let ids := sortNat ((coresOf us).filterMap (fun n => if (coreAt s n).st == .running then (coreAt s n).cmd else none))
  ids.foldl (fun t id => match cmdAt t id with
    | some c => if c.nonPreempt then t else preemptMove t id
    | none => t) s

/-- UNBIND without ALL, and REBIND (R203, R207). -/
def recompose (s : State) (id : Nat) (c : Cmd) : State :=
  if claimedElsewhere s id c then s
  else if !rebindOk s c then refuseCmd s id 0x0B 0 0
  else if (namedUnits c.ind).isEmpty then
    endCmd (markReplacements (modCmd s id (fun x => { x with attempts := 1 })) []) id 0 0 (colAt s c.colField).cur.instar
  else killNamed (claimUnits s id c 1) (namedUnits c.ind)

/-- UNBIND with ALL = 0 (R149, R207). -/
def execUnbind (cmd : Nat) (s : State) : Res :=
  .next (direct s cmd 0x51 (fun c => if (c.byte 17 1).testBit 0 then s else recompose s cmd c))

/-- REBIND (R149, R207). -/
def execRebind (cmd : Nat) (s : State) : Res := .next (direct s cmd 0x52 (fun c => recompose s cmd c))

/-- TEARDOWN: UNBIND with ALL = 1 (R149, R202, R203, R213). -/
def execTeardown (cmd : Nat) (s : State) : Res :=
  .next (direct s cmd 0x51 (fun c =>
    if !(c.byte 17 1).testBit 0 then s
    else
      let col := colAt s c.colField
      if col.st = .free ∨ col.st = .teardown then refuseCmd s cmd 0x0B 0 0
      else startTeardown (waitIn s cmd) c.colField (some cmd)))

/- Map updates of composition commands (R204 to R207). -/

/-- The kill of the named cores has stopped their issue (R205). -/
def issueStopped (s : State) (us : List UnitRef) : Bool := (coresOf us).all (fun n => (coreAt s n).st != .running)

/-- A core leaves its colony (R184, R205): in transit, wiped at once or when its kill completes. -/
def leaveCore (s : State) (n to_ : Nat) : State :=
  let c := coreAt s n
  if c.st = .fenced then unitReady s (.core n)
  else
    let home := if to_ ≠ 0 ∧ (runCtlAt s c.colony).recallOn ∧ c.home = 0 then c.colony else c.home
    let s1 := setCore s n { c with transit := true, colony := 0, home := home, st := if c.st = .killed then .killed else .idle }
    if c.st = .killed then s1 else unitReady (wipeCore s1 n) (.core n)

/-- A packet that waits at a port is a colony's. -/
def TxPacket.isOf (x : TxPacket) (colony : Nat) : Bool :=
  match x.out with
  | .packet _ _ h _ => h.scol == colony
  | .message _ _ h _ => h.scol == colony
  | _ => false

/-- A port leaves its colony (R205 port step 2): the attempts with requests outstanding on it are killed, the replies to those
requests are awaited, and nothing more of the colony goes out on it. -/
def leavePort (s : State) (n : Nat) : State :=
  if unitFenced s (.port n) then unitReady s (.port n)
  else
    let p := portAt s n
    let ids := sortNat ((p.reqs.filter (fun r => r.colony == p.colony)).map (fun r => r.cmd))
    modPort (ids.foldl preemptMove (drainReqs s (fun m r => m == n && r.colony == p.colony))) n (fun q => { q with
      leaving := true, transit := true, colony := 0, txQueue := q.txQueue.filter (fun x => !x.isOf p.colony) })

/-- A channel leaves its colony (R205 channel steps 2 and 3): its wipe starts once the old entry has retired. -/
def leaveChannel (s : State) (n from_ : Nat) (retired : Bool) : State :=
  if unitFenced s (.channel n) then unitReady s (.channel n)
  else modChan s n (fun c => { c with mode := .transit, colony := 0, wipeBusy := retired, awaits := if retired then none else some from_ })

/-- The removal update as it will leave the colony's entry (R205). -/
def withoutUnits (e : MapEntry) (us : List UnitRef) : MapEntry :=
  { e with cores := e.cores.filter (fun n => !us.contains (.core n)), channels := e.channels.filter (fun n => !us.contains (.channel n))
           ports := e.ports.filter (fun n => !us.contains (.port n)) }

/-- The table frames of the sets that leave have room elsewhere (R308). -/
def tablesFit (s : State) (c : Cmd) : Bool :=
  let col := colAt s c.colField
  (leaveSets { col with cur := withoutUnits col.cur c.units }).isSome

/-- The removal update (R205, R207 step 1). -/
def removalUpdate (s : State) (id : Nat) (c : Cmd) : State :=
  let us := c.units
  let e := withoutUnits (colAt s c.colField).cur us
  let s1 := mapUpdate s c.colField true e.cores e.channels e.ports
  let s2 := modCmd (modCol s1 c.colField (fun x => (leaveSets x).getD x)) id (fun x => { x with stage := 2, result := (colAt s1 c.colField).cur.instar })
  let retired := !advanceHeld (colAt s2 c.colField)
  let s3 := (channelsOf us).foldl (fun t n => leaveChannel t n c.colField retired) s2
  let s4 := (portsOf us).foldl leavePort s3
  (coresOf us).foldl (fun t n => leaveCore t n c.toField) s4

/-- The arrival update (R207 steps 2 and 3). -/
def arrivalUpdate (s : State) (id : Nat) (c : Cmd) : State :=
  let us := claimedUnits s id
  let before := (colAt s c.toField).cur
  if us.isEmpty then finishCompose s id
  else
    let s1 := mapUpdate s c.toField true (sortNat (before.cores ++ coresOf us)) (sortNat (before.channels ++ channelsOf us)) (sortNat (before.ports ++ portsOf us))
    let s2 := us.foldl (fun t u => enterUnit t c.toField u) (modCol s1 c.toField (arriveSets before))
    finishCompose s2 id

/-- BIND steps 5 and 6 (R198, R201, R206, R210): the first current entry, with what a REBIND has brought meanwhile (R207), the pool, and
what resets with a BIND. -/
def firstUpdate (s : State) (id : Nat) (c : Cmd) : State :=
  let n := c.colField
  let us := claimedUnits s id
  let old := colAt s n
  let fresh : Colony := { ({} : Colony) with
    st := .active, classMode := old.classMode, shadow := old.shadow, recomposing := old.recomposing, vf := old.vf, tenant := old.tenant
    keySlot := old.keySlot, mapCore := old.mapCore, mapCopy := old.mapCopy, mapPort := old.mapPort, mapCtrl := old.mapCtrl
    linkw := old.linkw, linkwNext := old.linkwNext, cold := 2, sinceRetire := old.sinceRetire + 1
    cur := { valid := true, instar := (old.cur.instar + 1) % 256, cores := sortNat (old.cur.cores ++ coresOf us)
             channels := sortNat (old.cur.channels ++ channelsOf us), ports := sortNat (old.cur.ports ++ portsOf us) }
    old := { old.cur with valid := false, merged := false, inflight := 0 } }
  let s1 := retireDue (switchCores (setCol s n (arriveSets {} fresh)) n) n
  let s2 := modHub s1 (fun h => { h with
    syncs := h.syncs.filter (fun e => e.1 / 256 != n), runCtl := tdel h.runCtl n, acct := tdel h.acct n, cseq := tdel h.cseq n })
  let s3 := us.foldl (fun t u => enterUnit t n u) s2
  finishCompose (modCmd s3 id (fun x => { x with result := (colAt s3 n).cur.instar })) id

/-- MAP_UPDATE (R204 to R207): the map update that a composition command waits for, once nothing holds it. -/
def execMapUpdate (cmd : Nat) (s : State) : Res :=
  match cmdAt s cmd with
  | none => .next s
  | some c =>
    if !serving s || c.phase != .started || c.stage = 0 || !(c.op = 0x50 || c.op = 0x51 || c.op = 0x52) then .next s
    else if c.stage = 1 then
      .next (if issueStopped s c.units && !advanceHeld (colAt s c.colField) && !reclaimWaits s c.colField && tablesFit s c then
        (if c.units.isEmpty then finishCompose s cmd else removalUpdate s cmd c) else s)
    else if !c.units.isEmpty then .next s
    else if c.op = 0x50 then .next (firstUpdate s cmd c)
    else if c.toField = 0 then .next (finishCompose s cmd)
    else if advanceHeld (colAt s c.toField) || reclaimWaits s c.toField then .next s
    else .next (arrivalUpdate s cmd c)

/-- The channels that left a colony and wait for its old entry start their wipe (R205 channel step 3). -/
def startWipes (s : State) (colony : Nat) : State :=
  { s with chans := s.chans.map (fun e =>
      if e.2.mode == .transit && e.2.awaits == some colony then (e.1, { e.2 with wipeBusy := true, awaits := none }) else e) }

/-- OLD_ENTRY_RETIRE (R200): an unmerged old entry whose INFLIGHT is zero retires. -/
def execOldEntryRetire (colony : Nat) (s : State) : Res :=
  let c := colAt s colony
  if !serving s || !advanceHeld c || inflightOld s colony != 0 then .next s
  else .next (colonyProgress (startWipes (modCol s colony (fun x => { x with old := { x.old with valid := false } })) colony) colony)

/- Units that leave (R205, R208). -/

/-- The colony that held a channel in transit: that of the command that moves it, or its own. -/
def holderOf (s : State) (n : Nat) : Nat :=
  let c := chanAt s n
  match c.claim.bind (cmdAt s) with
  | some k => k.colField
  | none => c.colony

/-- Lines lost with a channel are counted in the latest fault record of a colony (R279). -/
def countLost (s : State) (colony : Nat) (lost : List Nat) : State :=
  let last := s.flt.recs.foldl (fun b e =>
    if e.2.colony != colony || e.2.xlt || e.2.st == .free then b
    else match b with
      | some x => if x.2.fseq < e.2.fseq then some e else b
      | none => some e) (none : Option (Nat × FaultRec))
  match last with
  | some (i, _) => if lost.isEmpty then s else modRec s i (fun r => { r with
      lost := (r.lost + lost.length) % 65536, addr := if r.lost = 0 then lost.headD 0 else r.addr, addrKind := 2 })
  | none => s

/-- The bytes that a wipe writes (R208, R263): the data lines and their tags. -/
def wipeBytes : Nat := 0x7D600000

/-- A channel's wipe (R13, R208, R279): its bytes, tags, slice lines and directory entries; spare-row remapping stays. -/
def wipeChannel (s : State) (n : Nat) : State :=
  let owned := (chanAt s n).dir.filter (fun e => e.st == .owned)
  let s0 := countLost s (holderOf s n) (owned.map (fun e => homeDpa s n e.offset))
  let s1 := (chanAt s0 n).dir.foldl (fun t e => closeLine t n e.offset) s0
  modChan { s1 with hbm := mwipe s1.hbm (hbmKey n 0) (2 ^ 31) } n (fun c =>
    { c with maint := wrapAdd 64 c.maint wipeBytes, tagCache := [], bitmapCache := [], buf := [], queue := [], urgentFirst := false
             lines := [], dir := [], nacked := [], badLines := [], badTags := [], remapQueue := c.remapQueue ++ c.heldRows, heldRows := [] })

/-- CHANNEL_WIPE_DONE (R208, R211, R279): `ok` is false for an error or a hang during the wipe, which fences the channel. -/
def execChannelWipeDone (channel : Nat) (ok : Bool) (s : State) : Res :=
  let c := chanAt s channel
  if s.flt.fatal || c.mode != .transit || !c.wipeBusy || c.retraining then .next s
  else if !ok then .next (settleColonies (tornUnit (fenceFault s 0x13 (.channel channel) 0 0x09) (.channel channel)))
  else
    let s1 := wipeChannel s channel
    if c.rewipe then .next (modChan s1 channel (fun x => { x with rewipe := false }))
    else .next (settleColonies (unitReady (modChan s1 channel (fun x => { x with wipeBusy := false })) (.channel channel)))

/-- PORT_LEAVE_DRAIN_END (R205 port steps 3 and 4): what is still outstanding for the colony is squashed and counted, and the port
is wiped and refreshed. -/
def execPortLeaveDrainEnd (port : Nat) (s : State) : Res :=
  let p := portAt s port
  if !serving s || !p.leaving then .next s
  else
    let s1 := modPort (squashDrain s port (fun _ => true)) port (fun q => { q with leaving := false, want := none, tc := [] })
    .next (settleColonies (refreshPort s1 port))

/-- SESSION_REFRESH_DONE (R205, R206, R332): the port has new session keys, made of a fresh ECDH secret (log entries 4 and
22), used from each side's KP inversion on: this side's is now, the partner's comes with its flits. -/
def execSessionRefreshDone (port : Nat) (s : State) : Res :=
  let p := portAt s port
  if !serving s || !p.refreshing then .next s
  else
    let (r, s0) := drawFree s
    let s1 := modPort s0 port (fun q => retireKey { q with
      refreshing := false, kp := !q.kp, keyFlits := 0, packets := 0, rekeying := false, keysLive := 2
      txKey := sessionKey s q r true, rxNext := some (sessionKey s q r false) })
    .next (if p.rewipe then startRefresh (modPort s1 port (fun q => { q with rewipe := false, tc := [], want := none })) port
      else if p.transit then settleColonies (unitReady s1 (.port port)) else s1)

/- Kills that complete (R33 to R37, R175). -/

/-- A wiped core of a kill goes where it belongs (R34): back to BOUND, to the free pool, or on its way. -/
def afterKill (s : State) (n : Nat) : State :=
  modCore s n (fun c =>
    if c.st == .fenced then c
    else if c.transit || c.colony == 0 then { c with st := .idle }
    else { c with st := .bound })

/-- The core's kill complete is reported to the commands that wait for it (R36 step 6, R175). -/
def reportKill (s : State) (n : Nat) : State :=
  s.cmds.foldl (fun t e =>
    match cmdAt t e.1 with
    | some c =>
      if c.phase = .killing ∧ c.killing.contains n then
        let c1 := { c with killing := c.killing.filter (fun m => m != n) }
        let t1 := setCmd t e.1 c1
        if c1.killing.isEmpty then finishKill t1 e.1 else t1
      else t
    | none => t) s

/-- KILL_COMPLETE (R33, R35 to R37): the wipe of a killed core ends, once its kill epoch has advanced; a wipe
whose check fails fences the core. -/
def execKillComplete (core : Nat) (wipeOk : Bool) (s : State) : Res :=
  let c := coreAt s core
  if s.flt.fatal || c.st != .killed || !c.wipeBusy || c.epochHeld then .next s
  else
    let s1 := if wipeOk then
        (let t := afterKill (wipeCore s core) core
         if c.transit then unitReady t (.core core) else t)
      else wipeFault s core 0x06 0x06
    .next (settleColonies (reportKill s1 core))

/- Replacement (R39 to R41). -/

/-- Mesh hops between two tiles of a die, 14 columns wide (R39). -/
def hops (a b : Nat) : Nat := (a % 14 - b % 14) + (b % 14 - a % 14) + (a / 14 - b / 14) + (b / 14 - a / 14)

/-- The spare nearest to a tile, the lowest index on a tie (R39). -/
def nearestSpare (spares : List Nat) (tile : Nat) : Option Nat :=
  spares.foldl (fun best x => match best with
    | none => some x
    | some b => if hops x tile < hops b tile ∨ (hops x tile = hops b tile ∧ x < b) then some x else best) none

/-- The outstanding tags of a core that is reset or replaced end with it; their requests are finished (R197). -/
def dropTags (s : State) (n : Nat) : State :=
  (coreAt s n).tags.foldl (fun t g => inflightDec t g.colony g.instar) (modCore s n (fun c => { c with tags := [] }))

/-- CORE_REPLACEMENT (R39 to R41): a spare of the die takes a fenced core's number; without one the number stays FENCED and
the lack is reported. -/
def execCoreReplacement (core : Nat) (s : State) : Res :=
  let c := coreAt s core
  let die := dieOfCore core
  let first := !s.cores.any (fun e => decide (e.1 < core) && dieOfCore e.1 == die && e.2.replaceDue)
  if !serving s || c.st != .fenced || !c.replaceDue || !first then .next s
  else
    let spares := if s.flt.quar.contains die then [] else tget [] s.boot.spares die
    match nearestSpare spares c.phys with
    | none => .next (recordFault (setCore s core { c with replaceDue := false }) (blankRec 0x30 0 (.core core) c.colony)).1
    | some x =>
      let s1 := dropTags { s with boot := { s.boot with spares := tset s.boot.spares die (spares.filter (fun y => y != x)) } } core
      .next (setCore s1 core { ({} : Core) with
        phys := x, st := if c.colony = 0 then .idle else .bound, colony := c.colony
        instar := if c.colony = 0 then 0 else (colAt s c.colony).cur.instar, home := c.home, claim := c.claim })

/- QUERY_MAP (R218). -/

/-- The report of a colony. -/
def colonyReport (s : State) (n : Nat) : List Byte :=
  let c := colAt s n
  mapEntryBytes c c.cur (inflightCur s n) ++ mapEntryBytes c c.old (inflightOld s n) ++ leBytes 64 (bitMap (c.cur.channels.filter (pageOn c))) ++
  leBytes 8 (hubShadowReg s n) ++ leBytes 8 (colStateReg c)

/-- Units in the descriptor's layout (R149). -/
def unitBytes (p : UnitRef → Bool) : List Byte :=
  leBytes 80 (bitMap ((List.range 640).filter (fun n => p (.core n)))) ++ leBytes 64 (bitMap ((List.range 512).filter (fun n => p (.channel n)))) ++
  leBytes 2 (bitMap ((List.range 16).filter (fun n => p (.port n))))

/-- The report of the device. -/
def deviceReport (s : State) : List Byte :=
  padTo 0x100 (unitBytes (isFree s)) ++
  padTo 0x50 (leBytes 80 (bitMap ((List.range 640).filter (fun n => unitFenced s (.core n))))) ++
  padTo 0x10 ((List.range 4).flatMap (fun d => leBytes 1 (tget [] s.boot.spares d).length)) ++
  leBytes 64 (bitMap ((List.range 512).filter (fun n => unitFenced s (.channel n)))) ++
  padTo 0x60 (leBytes 2 (bitMap ((List.range 16).filter (fun n => unitFenced s (.port n))))) ++
  zeros 8 ++ (List.range 64).flatMap (fun i => leBytes 8 (colStateReg (colAt s (i + 1)))) ++ zeros 24 ++ unitBytes (inTransit s)

/-- QUERY_MAP (R152, R218): host memory only. -/
def execQueryMap (cmd : Nat) (s : State) : Res :=
  .next (direct s cmd 0x53 (fun c =>
    let rep := padTo 4096 (if c.byte 16 1 = 0 then deviceReport s else colonyReport s (c.byte 16 1))
    completeOk (hostOut s c.page c.colony (c.addr 24) rep) cmd 4096))

end Sys2Proof.Machine
end

