-- ==== Sys2Proof/Machine/Coherence.lean ====
section
/-! DEFINITION. The events of the coherence protocol one by one (R267 to R276): requests at a line's home, write-backs and
drops, forwarded requests and invalidations at the caches, their answers at the home, and retries after a NACK. -/

namespace Sys2Proof.Machine

/-- Agents and channels that take part: the device serves, the agent is not fenced, the channel is in service. -/
def domainOpen (s : State) (agent ch : Nat) : Bool :=
  serving s && !(isCaching agent && agentFenced s agent) && (chanAt s ch).mode != .fenced

/-- The line that an agent's cache holds. -/
def heldLine (s : State) (agent ch off : Nat) : Option CacheLine :=
  if isCaching agent then cacheFind (cacheOf s agent) ch off else none

/-- A class-0 GETS that meets INVALIDATING or RECALLING from SHARED is served as an NCR (R275). -/
def kindServed (s : State) (agent ch off : Nat) (kind : ReqKind) : ReqKind :=
  if kind = .gets ∧ agentClass s agent = 0 ∧
      (chanAt s ch).dir.any (fun e => e.offset == off && (e.st == .invalidating || e.st == .recallingShared)) then .ncr
  else kind

/-- An agent may have a line: it lies in no table frame (R287). Ownership is only for lines of shadow frames, and for Bonor's own
working data (R269). -/
def lineOpen (s : State) (agent ch off : Nat) (own : Bool) : Bool :=
  let ctrl := decide (640 ≤ agent) && decide (agent < 648)
  ctrl || (!tableLine s ch off && (!own || (shadowAt s (frameAddr ch off)).isSome))

/-- A line that a request needs from its home cannot be read (R235, R236): the command of its agent ends, or the report stands
alone. -/
def agentBad (s : State) (agent ch off : Nat) (p : BadRead) (injected : Bool) : State :=
  let dpa := homeDpa s ch off
  match agentCmd s agent with
  | some id => lineFault s id ch dpa (if agent < 640 then (coreAt s agent).rank else 0) 0 p injected
  | none => let (s1, i) := lineRecord s ch (chanAt s ch).colony dpa none 0 0 p injected; closeRec s1 i

/-- A request is sent to the line's home (R231, R272, R275): it waits at its master without an entry of the request buffer
(`mayIssue`); `e` is what the slice's SECDED reports of the line. -/
def sendRequest (s : State) (agent ch off : Nat) (kind : ReqKind) (data : List Byte) (e : EccReport) : State :=
  let cls := agentClass s agent
  let reads := kind != .ncw && kind != .getw
  if !(mayIssue s agent cls ch off || (!reads && (creditFor s ch agent cls).isSome)) then s
  else
    let s0 := if reads then sliceError s ch off e else s
    let k := kindServed s0 agent ch off kind
    if homeSupplies (chanAt s0 ch) off k then
      let (s1, bad) := checkRead s0 (sourceAddr s0 (frameAddr ch off))
      match bad with
      | some (p, inj) => agentBad (unNack s1 agent ch off) agent ch off p inj
      | none => dirRequest s1 agent ch off k data
    else dirRequest s0 agent ch off k data

/-- A request reaches the line's home, unless the same agent's earlier request for the line still waits there. -/
def homeRequest (s : State) (agent ch off : Nat) (kind : ReqKind) (data : List Byte) (e : EccReport) : State :=
  if requestWaits s agent ch off then s else sendRequest s agent ch off kind data e

/-- GETS (R272). -/
def execGets (agent channel offset : Nat) (e : Sram) (s : State) : Res :=
  .next (if domainOpen s agent channel && isCaching agent && lineOpen s agent channel offset false && (heldLine s agent channel offset).isNone
    then homeRequest s agent channel offset .gets [] e.slice else s)

/-- GETM (R269, R272); `whole` marks GETM without data. -/
def execGetm (agent channel offset : Nat) (whole : Bool) (e : Sram) (s : State) : Res :=
  .next (if domainOpen s agent channel && isCaching agent && lineOpen s agent channel offset true && ((heldLine s agent channel offset).all (fun l => l.mode == .shared))
    then homeRequest s agent channel offset (if whole then .getw else .getm) [] e.slice else s)

/-- NCR (R272). -/
def execNcr (agent channel offset : Nat) (e : Sram) (s : State) : Res :=
  .next (if domainOpen s agent channel && lineOpen s agent channel offset false then homeRequest s agent channel offset .ncr [] e.slice else s)

/-- NCW: a full line (R272). -/
def execNcw (agent channel offset : Nat) (data : List Byte) (s : State) : Res :=
  .next (if domainOpen s agent channel && lineOpen s agent channel offset false then homeRequest s agent channel offset .ncw (padTo 64 data) .clean else s)

/-- PUTM (R272). -/
def execPutm (agent channel offset : Nat) (s : State) : Res :=
  .next (if domainOpen s agent channel && isCaching agent then putLine s agent channel offset else s)

/-- DROP: a core gives a modified line up (R36 step 4, R272). -/
def execDrop (agent channel offset : Nat) (s : State) : Res :=
  .next (if domainOpen s agent channel && decide (agent < 640) && ((heldLine s agent channel offset).any (fun l => l.mode == .modified))
    then dropLine s agent channel offset else s)

/-- What an owner's cache keeps of a line after a forwarded request (R272). -/
def afterForward (kind : ReqKind) (l : CacheLine) : Option CacheLine :=
  match kind with
  | .gets => some { l with mode := .shared }
  | .ncr => some l
  | .getm => none
  | .getw => none
  | .ncw => none

/-- What the owner sends home: the line of a dirty owner, but nothing where the whole line is overwritten (R272). -/
def ownerAnswer (kind : ReqKind) (l : Option CacheLine) : List Byte :=
  match l with
  | some x => if x.mode = .modified ∧ kind ≠ .ncw ∧ kind ≠ .getw then x.data else []
  | none => []

/-- FORWARDED_REQUEST (R272): the owner answers by the request's kind and its own state. -/
def execForwardedRequest (agent channel offset : Nat) (s : State) : Res :=
  if !domainOpen s agent channel || !isCaching agent then .next s
  else match dirFind (chanAt s channel) offset with
    | none => .next s
    | some e =>
      if e.st != .forwarding || !e.acks.contains agent then .next s
      else
        let l := heldLine s agent channel offset
        let rest := cacheDrop (cacheOf s agent) channel offset
        let kept := match l.bind (afterForward e.pendKind) with
          | some x => rest ++ [x]
          | none => rest
        .next (modChan (setCache s agent kept) channel (fun c => dirPut c { e with acks := [], answer := some (ownerAnswer e.pendKind l) }))

/-- OWNER_RESPONSE (R272): the owner's answer ends FORWARDING. -/
def execOwnerResponse (agent channel offset : Nat) (s : State) : Res :=
  if !serving s || (chanAt s channel).mode == .fenced then .next s
  else match dirFind (chanAt s channel) offset with
    | none => .next s
    | some e => match e.answer with
      | none => .next s
      | some d => .next (if e.st = .forwarding ∧ e.owner = agent then endForwarding s channel { e with answer := none } d else s)

/-- INVALIDATION (R271, R272): the cache gives the line up; in a recall an owner's modified data goes with the answer. -/
def execInvalidation (agent channel offset : Nat) (s : State) : Res :=
  if !domainOpen s agent channel || !isCaching agent then .next s
  else match dirFind (chanAt s channel) offset with
    | none => .next s
    | some e =>
      if !e.acks.contains agent || !e.st.transient || e.st == .forwarding then .next s
      else
        let s1 := setCache s agent (cacheDrop (cacheOf s agent) channel offset)
        match heldLine s agent channel offset with
        | some l => .next (if e.st = .recallingOwned ∧ l.mode = .modified then modChan s1 channel (fun c => dirPut c { e with pendData := l.data }) else s1)
        | none => .next s1

/-- INVALIDATION_ACK (R272): an answer of an agent that has given the line up reaches the home. -/
def execInvalidationAck (agent channel offset : Nat) (s : State) : Res :=
  .next (if serving s && (chanAt s channel).mode != .fenced && (heldLine s agent channel offset).isNone
    then ackFrom s channel offset agent else s)

/-- NACK_RETRY (R273, R274): the request is sent again; a reserved one is served as its line allows. -/
def execNackRetry (agent channel offset : Nat) (s : State) : Res :=
  if !domainOpen s agent channel then .next s
  else
    match (chanAt s channel).nacked.find? (fun n => n.agent == agent && n.offset == offset) with
    | none => .next s
    | some n => .next (if n.reserved then serveReserved s channel else sendRequest s agent channel offset n.kind n.data .clean)

end Sys2Proof.Machine
end

