-- ==== Sys2Proof/Machine/Recover.lean ====
section
/-! DEFINITION. Faults, hangs and recovery (R407 to R433): the records as READ_FAULT shows them, hangs with their resets and
escalation, reaction windows, quarantine, the device stop and ALIVE, fault injection, perturbation, and the commands
READ_FAULT, SAMPLE and PERTURB (R151, R413, R430). -/

namespace Sys2Proof.Machine

/- Records in bytes (R304, R408, R409, R495). -/

/-- UKIND and UNIT (R408). -/
def unitCode : UnitRef → Nat × Nat
  | .none => (0, 0)
  | .core n => (1, n)
  | .channel n => (2, n)
  | .port n => (3, n)
  | .copyEngine n => (4, n)
  | .ctrlCore n => (5, n)
  | .die n => (6, n)
  | .slot n => (7, n)

/-- STATE's code (R408). -/
def RecState.code : RecState → Nat
  | .free => 0
  | .opened => 1
  | .window => 2
  | .resetting => 3
  | .fenced => 4
  | .closed => 5

/-- Bytes 0 to 15 (R408). -/
def recCommon (r : FaultRec) : List Byte :=
  leBytes 1 r.cause ++ leBytes 1 (r.severity % 8 + 8 * r.st.code) ++ leBytes 1 (unitCode r.unit).1 ++ leBytes 1 r.colony ++
  leBytes 2 (unitCode r.unit).2 ++ leBytes 1 r.instar ++ leBytes 1 r.status ++ leBytes 2 r.occur ++ leBytes 1 r.cause2 ++
  leBytes 1 (b2n r.gnat + 2 * b2n r.injected) ++ leBytes 4 r.fseq

/-- Bytes 16 to 63 of a translation record (R304). -/
def recXlt (r : FaultRec) : List Byte :=
  leBytes 8 r.va ++ leBytes 1 r.access ++ leBytes 1 r.level ++ leBytes 2 r.waiters.length ++ leBytes 2 r.first ++ leBytes 1 r.fin ++ zeros 1 ++
  leBytes 4 r.cmdTag ++ leBytes 1 r.cmdRing ++ zeros 27

/-- Bytes 16 to 63 of any other record (R409). -/
def recPlain (r : FaultRec) : List Byte :=
  leBytes 4 r.cmdTag ++ leBytes 1 (r.cmdRing % 16 + 16 * b2n r.cmdValid) ++ zeros 1 ++ leBytes 2 r.rank ++ leBytes 8 r.addr ++
  leBytes 1 r.addrKind ++ zeros 1 ++ leBytes 2 r.lost ++ leBytes 2 r.diag ++ zeros 2 ++ leBytes 8 r.word.toNat ++ leBytes 8 r.ticks ++
  leBytes 2 r.job ++ zeros 6

/-- The 64 bytes of a record; a FREE one is as the wipe left it (R407). -/
def recBytes (r : FaultRec) : List Byte :=
  if r.st = .free then zeros 64 else recCommon r ++ (if r.xlt then recXlt r else recPlain r)

/-- The record at an index as a reader of a colony's page sees it (R413): on a colony's ring only that colony's records. -/
def recShown (s : State) (page i : Nat) : List Byte :=
  match tfind s.flt.recs i with
  | none => zeros 64
  | some r => if page = 0 ∨ r.colony = page then recBytes r else zeros 64

/-- READ_FAULT (R151, R413). -/
def execReadFault (cmd : Nat) (s : State) : Res :=
  .next (direct s cmd 0x70 (fun c =>
    let n := c.byte 18 2
    writeReport s cmd c 24 ((List.range n).flatMap (fun i => recShown s c.page (c.byte 16 2 + i))) n))

/- SAMPLE (R151, R152). -/

/-- The four sample windows of a core (R95, R422). -/
def coreSample (s : State) (n : Nat) (offsets : List Nat) : List Byte :=
  offsets.flatMap (fun o => mread (coreAt s n).sp o 16384)

/-- SAMPLE's target, once chosen (R145, R151): the oldest command with the tag that holds a tracker entry. -/
def sampleTarget (s : State) (id : Nat) (c : Cmd) : Option (Nat × Cmd) :=
  match c.target with
  | some t => (cmdAt s t).map (fun x => (t, x))
  | none => sampleFor s id c

/-- The windows of a running attempt's cores, in rank order, into DST; committed as every output is. -/
def sampleInto (s : State) (id : Nat) (c t : Cmd) : State :=
  let regions := [(c.byte 24 8, 65536 * t.cores.length)]
  let s1 := setCmd s id { c with regions := regions }
  reserved s1 id { c with regions := regions } (fun u =>
    let data := t.cores.flatMap (fun n => coreSample u n t.samples)
    modCmd (shadowWriteAll u id (c.byte 24 8) (1024 * t.cores.length) data) id
      (fun x => { x with phase := .ended, result := 65536 * t.cores.length }))

/-- SAMPLE (R151): it waits for an attempt of its target. -/
def execSample (cmd : Nat) (s : State) : Res :=
  .next (directOrWaiting s cmd 0x71 (fun c =>
    match sampleTarget s cmd c with
    | none => refuseCmd s cmd 0x0B (if c.target.isSome then 1 else 0) 0
    | some (k, t) =>
      if t.colony != c.colony then refuseCmd s cmd 0x0A 3 0
      else if !t.isLaunch then refuseCmd s cmd 0x0B 0 0
      else match t.phase with
        | .running => sampleInto s cmd c t
        | .fetched => waitIn (modCmd s cmd (fun x => { x with target := some k })) cmd
        | .ready => waitIn (modCmd s cmd (fun x => { x with target := some k })) cmd
        | .killing => waitIn (modCmd s cmd (fun x => { x with target := some k })) cmd
        | _ => refuseCmd s cmd 0x0B 1 0))

/- Perturbation (R429 to R431). -/

/-- A point cleared: it leaves the table, and the time is kept (R431, R433). -/
def clearPoint (s : State) (p : Nat) : State :=
  { s with flt := { s.flt with gnats := tdel s.flt.gnats p, pctlClear := some s.ticks } }

/-- PERTURB (R151, R429 to R431). -/
def execPerturb (cmd : Nat) (s : State) : Res :=
  .next (direct s cmd 0x72 (fun c =>
    if !s.flt.pctlEn then refuseCmd s cmd 0x0B 0 0
    else
      let p := c.byte 16 1
      let s1 := if c.byte 17 1 % 8 = 0 then (if (tfind s.flt.gnats p).isSome then clearPoint s p else s)
        else { s with flt := { s.flt with gnats := tset s.flt.gnats p ⟨c.byte 17 1 % 8, c.byte 20 4, c.byte 24 4, s.ticks⟩ } }
      completeOk s1 cmd 0))

/-- PERTURB_EXPIRY (R430): the DURATION of a point ends. -/
def execPerturbExpiry (point : Nat) (s : State) : Res :=
  match tfind s.flt.gnats point with
  | none => .next s
  | some g => .next (if serving s && decide (0 < g.duration) then clearPoint s point else s)

/-- PERTURB_ENABLE_WRITE: a write of FLT.PCTL (R431, R433); EN as 0 clears every point. -/
def execPerturbEnableWrite (value : Word) (s : State) : Res :=
  if !fnLive s .pf || !serving s then .next s
  else if bit value 0 then .next { s with flt := { s.flt with pctlEn := true } }
  else .next { s with flt := { s.flt with pctlEn := false, gnats := [], pctlClear := if s.flt.gnats.isEmpty then s.flt.pctlClear else some s.ticks } }

/- Fences and their aftermath (R213, R417). -/

/-- Units of a colony in the last step of its teardown that are fenced by now have nothing left to wait for (R213). -/
def tornFenced (s : State) : State :=
  s.cols.foldl (fun t e =>
    if e.2.st == .teardown && e.2.stage == .wiping then
      let us := e.2.cur.cores.map UnitRef.core ++ e.2.cur.channels.map UnitRef.channel ++ e.2.cur.ports.map UnitRef.port
      (us.filter (unitFenced t)).foldl (fun u x => tornUnit (freeUnit u x) x) t
    else t) s

/-- What waits for a fenced unit goes on without it. -/
def afterFence (s : State) : State := settleColonies (tornFenced s)

/-- CORE_FENCE: CORE.CMD.FENCE (R34, R38, R415). -/
def execCoreFence (core : Nat) (s : State) : Res :=
  if !fnLive s .pf || !serving s || decide (640 ≤ core) || (coreAt s core).st == .fenced then .next s
  else .next (afterFence (fenceFault s 0x40 (.core core) (coreAt s core).colony 0x09))

/-- CORE_CLR_CNT: CORE.CMD.CLR_CNT (R38). -/
def execCoreClrCnt (core : Nat) (s : State) : Res :=
  .next (if fnLive s .pf && serving s then modCore s core (fun c => { c with spCe := 0, dcCe := 0 }) else s)

/- Hangs and resets (R419 to R421). -/

/-- An injected hang of a unit is used up (R432); the Bool says that there was one. -/
def takeHang (s : State) (kind n : Nat) : State × Bool :=
  if s.flt.armed.contains (kind, n) then
    ({ s with flt := { s.flt with armed := s.flt.armed.filter (fun x => x != (kind, n)) } }, true)
  else (s, false)

/-- A core's reset begins (R420): its record, its sample, and the end of its attempt with HANG; `cause` is the collector's. -/
def resetCore (s : State) (n cause : Nat) (injected : Bool) : State :=
  let c := coreAt s n
  let r := { blankRec cause 3 (.core n) c.colony with status := 0x08, rank := c.rank, addr := c.pc, addrKind := 4, injected := injected }
  match c.cmd with
  | none =>
    let (s1, _) := recordFault s { r with status := 0, rank := 0 }
    if c.st = .bound then coreKill s1 n else s1
  | some id =>
    let (s1, i) := recordFault s (nameCmd s r id)
    let offs := (cmdAt s1 id).elim [] (fun x => x.samples)
    let s2 := diagWrite s1 c.colony i 1 c.rank n offs (coreSample s1 n offs)
    faultCmd s2 id 0x08 i true

/-- A copy engine's reset begins. -/
def resetEngine (s : State) (n cause : Nat) (injected : Bool) : State :=
  let x := engineAt s n
  let colony := (x.cmd.bind (cmdAt s)).elim 0 (fun c => c.colony)
  let r := { blankRec cause 3 (.copyEngine n) colony with status := if x.cmd.isSome then 0x08 else 0, injected := injected }
  let (s1, i) := recordFault s (match x.cmd with | some id => nameCmd s r id | none => r)
  let s2 := modEngine s1 n (fun y => { y with inService := false })
  match x.cmd with
  | some id => faultCmd s2 id 0x08 i true
  | none => s2

/-- A port engine's reset begins: the commands with requests or plan steps on it end with HANG (R156, R420, R424). -/
def resetPort (s : State) (n cause : Nat) (injected : Bool) : State :=
  let p := portAt s n
  let r := { blankRec cause 3 (.port n) p.colony with status := 0x08, injected := injected }
  let (s1, i) := recordFault s (match (p.reqs.map (fun q => q.cmd) ++ planOn s n).head? with | some id => nameCmd s r id | none => r)
  let s2 := endPortCmds s1 n 0x08 i
  (planOn s n).foldl (fun t id =>
    match cmdAt t id with
    | some c => if c.finished then t
        else raiseAbort (abortCmd (setCmd t id { c with faultId := if i.isSome then i else c.faultId }) id 0x08) c.colony c.job 0x08 id i
    | none => t) s2

/-- A colony's hang checks are suspended while it holds no cores (R219, R419). -/
def coreless (s : State) (colony : Nat) : Bool := colony != 0 && (colAt s colony).cur.cores.isEmpty

/-- The RUNNING cores of a command's attempt. -/
def liveCores (s : State) (id : Nat) : List Nat := (cmdAt s id).elim [] (fun c => runningCores s id c)

/-- Some agent of a command waits on a translation record (R303). -/
def cmdTranslating (s : State) (id : Nat) : Bool :=
  s.flt.recs.any (fun e => e.2.xlt && e.2.st == .opened && e.2.waiters.any (fun a => agentCmd s a == some id))

/-- The core stands at WAIT or BAR. -/
def atBarrier (s : State) (n : Nat) : Bool := (coreAt s n).stall == .semaphore || (coreAt s n).stall == .barrier

/-- SYNC_STALL (R415, R419, R422): every core of the command waits; they are sampled in rank order, and it ends with HANG. -/
def syncStall (s : State) (id : Nat) : State :=
  match cmdAt s id with
  | none => s
  | some c =>
    let first := c.cores.headD 0
    let r := { blankRec 0x08 1 (.core first) c.colony with status := 0x08, addr := (coreAt s first).pc, addrKind := 4 }
    let (s1, i) := recordFault s (nameCmd s r id)
    let slots := (colAt s1 c.colony).diagSlots
    let s2 := (enumNat (c.cores.take slots)).foldl (fun t e =>
      diagWrite t c.colony i 1 e.1 e.2 c.samples (coreSample t e.2 c.samples)) s1
    faultCmd s2 id 0x08 i true

/-- A request carries the instar of an old map entry that has not retired (R200). -/
def oldInstar (s : State) (colony instar : Nat) : Bool := advanceHeld (colAt s colony) && (colAt s colony).old.instar == instar

/-- An agent's request of an old map entry waits at a slice. -/
def waitsOld (s : State) (agent : Nat) : Bool :=
  s.chans.any (fun e =>
    e.2.nacked.any (fun n => n.agent == agent && oldInstar s n.stamp.colony n.stamp.instar) ||
    e.2.dir.any (fun d => (d.st == .invalidating || d.st == .forwarding) && d.pendAgent == agent && oldInstar s d.pendStamp.colony d.pendStamp.instar))

/-- A core holds requests of an old map entry that has not retired (R200, R415). -/
def holdsOld (s : State) (n : Nat) : Bool := (coreAt s n).tags.any (fun t => oldInstar s t.colony t.instar) || waitsOld s n

/-- A channel holds requests of an old map entry: they wait at its slice or stand in its queues (R415). -/
def channelHoldsOld (s : State) (n : Nat) : Bool :=
  let c := chanAt s n
  (waitingStamps c).any (fun r => oldInstar s r.colony r.instar) ||
  (c.buf ++ c.queue).any (fun r => (coreAt s r.master).tags.any (fun t => t.tag == r.tag && oldInstar s t.colony t.instar))

/-- A port engine holds requests of an old map entry (R415). -/
def portHoldsOld (s : State) (n : Nat) : Bool :=
  ((portAt s n).reqs ++ (portAt s n).drain).any (fun r => oldInstar s r.colony r.instar)

/-- A second core of a command is found hung in the same window (R428): a record of its own; the command's FAULT_ID names
the higher index. -/
def secondHang (s : State) (n id : Nat) : State :=
  match cmdAt s id with
  | none => s
  | some k =>
    let c := coreAt s n
    let (s0, inj) := takeHang s 7 n
    let r := { blankRec 0x10 3 (.core n) c.colony with status := 0x08, rank := c.rank, addr := c.pc, addrKind := 4, injected := inj }
    let (s1, i) := recordFault s0 (nameCmd s0 r id)
    let s2 := diagWrite s1 c.colony i 1 c.rank n k.samples (coreSample s1 n k.samples)
    modCmd s2 id (fun x => { x with faultId := match x.faultId, i with
      | some a, some b => some (max a b)
      | a, none => a
      | none, b => b })

/-- The command that a core being killed belonged to, where a hang of another of its cores ended the attempt. -/
def hangKill (s : State) (n : Nat) : Option Nat :=
  (s.cmds.find? (fun e => e.2.phase == .killing && e.2.killing.contains n &&
    (match e.2.faultId with
     | some i => (tfind s.flt.recs i).any (fun r => r.cause == 0x10 && r.st == .resetting && r.unit != .core n)
     | none => false))).map (fun e => e.1)

/-- A core's hang window passes without progress (R419). -/
def hangCore (s : State) (n : Nat) : State :=
  let c := coreAt s n
  if c.st = .killed then
    (match hangKill s n with
     | some id => if resetting s (.core n) then s else secondHang s n id
     | none => s)
  else if holdsOld s n then resetCore s n 0x15 false
  else if c.st != .running then s
  else match c.cmd with
    | none => s
    | some id =>
      if cmdTranslating s id then s
      else if atBarrier s n then (if (liveCores s id).all (atBarrier s) then syncStall s id else s)
      else
        let (s1, inj) := takeHang s 7 n
        resetCore s1 n 0x10 inj

/-- HANG_WINDOW_EXPIRY (R200, R419, R420): an engine that holds work has made no progress for the hang window. -/
def execHangWindowExpiry (unit : UnitRef) (s : State) : Res :=
  if !serving s || resetting s unit then .next s
  else match unit with
    | .core n => .next (settleColonies (hangCore s n))
    | .copyEngine n =>
      let x := engineAt s n
      let translating := x.cmd.any (cmdTranslating s)
      if x.inService && waitsOld s (648 + n) && decide (n < 16) then .next (settleColonies (resetEngine s n 0x15 false))
      else if !x.inService || x.cmd.isNone || translating || coreless s ((x.cmd.bind (cmdAt s)).elim 0 (fun c => c.colony)) || decide (16 ≤ n) then .next s
      else
        let (s1, inj) := takeHang s 9 n
        .next (settleColonies (resetEngine s1 n 0x11 inj))
    | .port n =>
      let p := portAt s n
      if p.st != .fenced && portHoldsOld s n && decide (n < 16) then .next (settleColonies (resetPort s n 0x15 false))
      else if p.st == .fenced || (p.reqs.isEmpty && (planOn s n).isEmpty) || (p.reqs.map (fun q => q.cmd) ++ planOn s n).any (cmdTranslating s) || coreless s p.colony || decide (16 ≤ n) then .next s
      else
        let (s1, inj) := takeHang s 11 n
        .next (settleColonies (resetPort s1 n 0x12 inj))
    | .channel n =>
      if (chanAt s n).mode == .fenced || ((chanAt s n).queue.isEmpty && !channelHoldsOld s n) || decide (512 ≤ n) then .next s
      else
        let (s1, inj) := takeHang s 8 n
        let (s2, i) := recordFault s1 { blankRec (if channelHoldsOld s n then 0x15 else 0x13) 4 (.channel n) (chanAt s1 n).colony with status := 0x09, injected := inj }
        .next (afterFence (fenceUnit s2 (.channel n) 0x09 i))
    | _ => .next s

/-- AGENT_UNRESPONSIVE (R276, R415): a caching agent has not answered within 20 µs; it is reset. -/
def execAgentUnresponsive (agent channel offset : Nat) (s : State) : Res :=
  let waits := (dirFind (chanAt s channel) offset).any (fun e => e.st.transient && e.acks.contains agent)
  if !domainOpen s agent channel || !waits || resetting s (agentUnit agent) then .next s
  else if agent < 640 then .next (settleColonies (resetCore s agent 0x10 false))
  else if agent < 648 then
    let (s1, i) := recordFault s (blankRec 0x14 3 (.ctrlCore (agent - 640)) 0)
    .next (afterFence (fenceUnit s1 (.ctrlCore (agent - 640)) 0 i))
  else if agent < 664 then .next (settleColonies (resetEngine s (agent - 648) 0x11 false))
  else .next s

/-- The records of a finished reset close (R410, R420). -/
def closeReset (s : State) (u : UnitRef) : State :=
  { s with flt := { s.flt with
      recs := s.flt.recs.map (fun e => if e.2.st == .resetting && e.2.unit == u then (e.1, { e.2 with st := .closed }) else e)
      unrecordedReset := s.flt.unrecordedReset.filter (fun x => x != u) } }

/-- ENGINE_RESET_DONE (R410, R420): the engine is back in service; a core has had its kill and wipe by then. -/
def execEngineResetDone (unit : UnitRef) (s : State) : Res :=
  if !serving s || !resetting s unit then .next s
  else match unit with
    | .core n => if (coreAt s n).st = .killed then .next s else .next (settleColonies (dropTags (closeReset s unit) n))
    | .copyEngine n => .next (modEngine (closeReset s unit) n (fun x => { x with inService := true }))
    | .port _ => .next (closeReset s unit)
    | _ => .next s

/-- ENGINE_RESET_TIMEOUT (R34, R421): the reset passes 1 ms, and the engine is fenced. -/
def execEngineResetTimeout (unit : UnitRef) (s : State) : Res :=
  if !serving s || !resetting s unit then .next s
  else
    let i := (s.flt.recs.find? (fun e => e.2.st == .resetting && e.2.unit == unit)).map (fun e => e.1)
    let s1 := fenceUnit { s with flt := { s.flt with unrecordedReset := s.flt.unrecordedReset.filter (fun x => x != unit) } } unit 0x09 i
    .next (afterFence s1)

/-- WATCHDOG_EXPIRY (R419 to R421): a control core that runs Bonor misses its heartbeat; a standby takes over. -/
def execWatchdogExpiry (ctrl : Nat) (s : State) : Res :=
  if !serving s || ctrlAt s ctrl != .active then .next s
  else
    let (s1, inj) := takeHang s 10 ctrl
    let (s2, i) := recordFault s1 { blankRec 0x14 3 (.ctrlCore ctrl) 0 with injected := inj }
    .next (fenceUnit s2 (.ctrlCore ctrl) 0 i)

/-- CONTROL_CORE_UNCORRECTABLE_ERROR (R415, R421). -/
def execControlCoreUncorrectableError (ctrl : Nat) (s : State) : Res :=
  if !serving s || !(ctrlAt s ctrl == .active || ctrlAt s ctrl == .standby) then .next s
  else .next (fenceFault s 0x23 (.ctrlCore ctrl) 0 0)

/-- COLLECTOR_SELF_CHECK_FAILURE (R415, R425). -/
def execCollectorSelfCheckFailure (s : State) : Res := .next (if serving s then deviceFault s 0x52 .none else s)

/- Reaction windows (R410, R412, R416). -/

/-- REACTION_WINDOW_EXPIRY (R410, R412, R416): record numbers from 512 on name the units of windows without a record. -/
def execReactionWindowExpiry (record : Nat) (s : State) : Res :=
  if !serving s then .next s
  else if 512 ≤ record then
    match s.flt.unrecordedWin[record - 512]? with
    | none => .next s
    | some u => .next (afterFence (fenceUnit { s with flt := { s.flt with unrecordedWin := s.flt.unrecordedWin.eraseIdx (record - 512) } } u 0x09 none))
  else match tfind s.flt.recs record with
    | none => .next s
    | some r => .next (if r.st = .window then afterFence (fenceUnit s r.unit 0x09 (some record)) else s)

/-- The count that tripped a fault starts again (R410). -/
def restartCount (s : State) : UnitRef → State
  | .core n => modCore s n (fun c => { c with sramUe := 0 })
  | .channel n => modChan s n (fun c => { c with ueFaults := 0 })
  | .copyEngine n => modEngine s n (fun e => { e with faults := 0 })
  | _ => s

/-- FLT_ACK_KEEP: FLT.ACK with ACTION KEEP (R410, R416). -/
def execFltAckKeep (record : Nat) (s : State) : Res :=
  match tfind s.flt.recs record with
  | none => .next s
  | some r => .next (if fnLive s .pf && serving s && r.st == .window then restartCount (modRec s record (fun x => { x with st := .closed })) r.unit else s)

/-- FLT_ACK_FENCE: FLT.ACK with ACTION FENCE (R410, R416). -/
def execFltAckFence (record : Nat) (s : State) : Res :=
  match tfind s.flt.recs record with
  | none => .next s
  | some r => .next (if fnLive s .pf && serving s && r.st == .window then afterFence (fenceUnit s r.unit 0x09 (some record)) else s)

/-- QUARANTINE_TIMEOUT (R417, R421): a quarantine has not been confirmed within 1 ms. -/
def execQuarantineTimeout (die : Nat) (s : State) : Res :=
  .next (if serving s && (tfind s.flt.quarPending die).isSome then deviceFault s 0x50 (.die die) else s)

/- ALIVE, late replies, the slice allocator (R256, R423, R425). -/

/-- ALIVE_TOGGLE (R425): the next edge, while Bonor's heartbeats come and no DEVICE fault is present. -/
def execAliveToggle (s : State) : Res :=
  if !s.flt.toggling || s.flt.fatal then .next s
  else
    let level := !(s.flt.alive.getD false)
    .next (emit { s with flt := { s.flt with alive := some level, beats := wrapAdd 32 s.flt.beats 1 } } (.alive level))

/-- TAG_HOLD_EXPIRY (R423): an ended tag may be used again. -/
def execTagHoldExpiry (port tag : Nat) (s : State) : Res :=
  .next (modPort s port (fun p => { p with heldTags := p.heldTags.erase tag }))

/-- SLICE_ALLOCATOR_FAULT (R256, R415): limit mode, and an EVENT. -/
def execSliceAllocatorFault (slice : Nat) (s : State) : Res :=
  if !serving s || (chanAt s slice).mode == .fenced then .next s
  else .next (recordFault (modChan s slice (fun c => { c with limit := true })) (blankRec 0x31 0 (.channel slice) (chanAt s slice).colony)).1

/- Fault injection (R432). -/

/-- The unit holds work that an injected hang would stop. -/
def holdsWork (s : State) (kind n : Nat) : Bool :=
  if kind = 7 then (coreAt s n).st == .running
  else if kind = 8 then (chanAt s n).mode != .fenced
  else if kind = 9 then (engineAt s n).cmd.isSome
  else if kind = 10 then ctrlAt s n == .active
  else !(portAt s n).reqs.isEmpty || !(planOn s n).isEmpty

/-- TARGET names a unit of the KIND (R10, R432). -/
def targetOk (kind n : Nat) : Bool :=
  if kind = 1 ∨ kind = 2 ∨ kind = 7 then decide (n < 640)
  else if kind = 3 ∨ kind = 4 ∨ kind = 8 then decide (n < 512)
  else if kind = 10 then decide (n < 8)
  else decide (n < 16)

/-- INJECT: a write of FLT.INJ (R432, R433). -/
def execInject (value : Word) (s : State) : Res :=
  if !fnLive s .pf || lifecycle s != 1 || s.flt.fatal then .next s
  else
    let kind := field value 3 0
    let n := field value 25 16
    let s1 := { s with flt := { s.flt with injKind := kind, injTarget := n } }
    if !bit value 32 || kind = 0 || decide (11 < kind) || !targetOk kind n || s.flt.armed.contains (kind, n) then .next s1
    else if 7 ≤ kind ∧ !holdsWork s kind n then .next s1
    else .next { s1 with flt := { s1.flt with armed := s1.flt.armed ++ [(kind, n)] } }

end Sys2Proof.Machine
end

