-- ==== Sys2Proof/Machine/Hbm.lean ====
section
/-! DEFINITION. The channels and the mesh (R220 to R245, R263): line reads and writes at the controller with on-die ECC, tags
and reissue, remapping into spare rows, patrol scrub, refresh, calibration and retraining, and flit replay. -/

namespace Sys2Proof.Machine

/- Rows (R236, R237). -/

/-- Spare rows of a channel (R233). -/
def spareRows : Nat := 16384

/-- A corrected read counts, toward its row too: the fourth in one patrol period queues the row (R236, R237). -/
def countCorrected (c : Channel) (row : Nat) : Channel :=
  let k := tget 0 c.rowCe row + 1
  let c1 := { c with ce := satInc 16 c.ce, rowCe := tset c.rowCe row k }
  if k = 4 then queueRow c1 row else c1

/- Traffic counters (R191, R245, R263). -/

/-- A class-0 line at a channel in the 128 ns interval of a tick, 20 ticks of 6.4 ns (R263): the most in one interval, and the
intervals with more than 16. -/
def countUrgent (c : Channel) (tick : Nat) : Channel :=
  let k := (if c.urgSlot = tick / 20 then c.urgNow else 0) + 1
  { c with urgSlot := tick / 20, urgNow := k, urgPeak := max c.urgPeak (min 255 k), urgOver := if k = 17 then satInc 16 c.urgOver else c.urgOver }

/-- The bytes of a transaction count for its command's class, or as maintenance. -/
def countBytes (s : State) (ch bytes : Nat) (cmd : Option Cmd) : State :=
  modChan s ch (fun c =>
    match cmd with
    | some k =>
      let c1 := { c with clsBytes := tset c.clsBytes k.cls (wrapAdd 64 (tget 0 c.clsBytes k.cls) bytes) }
      if k.cls = 0 then countUrgent c1 s.ticks else c1
    | none => { c with maint := wrapAdd 64 c.maint bytes })

/- Tags (R233, R234). -/

/-- The tag line of a data line's granule in the tag cache of 1,024 (R234): fetched on a miss, most recently used then, dirty once
a tag in it is written; the least recently used leaves, written back where it is dirty. -/
def touchTag (c : Channel) (off : Nat) (write : Bool) : Channel :=
  let line := off / 1024
  let was := c.tagCache.any (fun e => e.1 == line && e.2)
  let l := c.tagCache.filter (fun e => e.1 != line) ++ [(line, was || write)]
  { c with tagCache := l.drop (l.length - 1024) }

/-- The queue's oldest transaction on a line leaves the queue (R232, R244). -/
def retireLine (c : Channel) (off : Nat) : Channel :=
  match c.queue.find? (fun r => r.offset == off) with
  | some r => retireReq c r
  | none => c

/-- HBM_READ (R232, R234 to R236, R415): the report of the read, that of its one reissue, and whether the tag matches. The
queue's oldest transaction on the line retires. -/
def execHbmRead (channel offset cmd : Nat) (first second : EccReport) (tagOk : Bool) (s : State) : Res :=
  let c := chanAt s channel
  let k := cmdAt s cmd
  if !serving s || c.mode == .fenced || c.retraining || armed s 8 channel || decide (0x76000000 ≤ offset) || offset % 64 != 0 then .next s
  else
    let s1 := modChan (countBytes s channel 64 k) channel (fun x => retireLine (touchTag x offset false) offset)
    let s2 := match k with
      | some x => countFor s1 cmd x.colony (fun a => { a with hbmRd := wrapAdd 64 a.hbmRd 1 })
      | none => s1
    let colony := k.elim c.colony (fun x => x.colony)
    let dpa := dpaOf s2 colony (frameAddr channel offset)
    let injected := armed s2 3 channel
    let s3 := disarm s2 3 channel
    let stop (t : State) (p : BadRead) : State :=
      match k with
      | some _ => lineFault t cmd channel dpa 0 0 p injected
      | none => let (t1, i) := lineRecord t channel c.colony dpa none 0 0 p injected; closeRec t1 i
    if injected then .next (stop s3 .uncorrectable)
    else if c.badLines.contains offset || (first == .uncorrected && second == .uncorrected) then
      .next (stop (modChan s3 channel (fun x => holdLine x offset)) .uncorrectable)
    else
      let s4 := match first with
        | .clean => s3
        | .corrected => modChan s3 channel (fun x => countCorrected x (rowOf offset))
        | .uncorrected => modChan s3 channel (fun x => queueRow { x with retryOk := satInc 16 x.retryOk } (rowOf offset))
      if c.badTags.contains offset || !tagOk then
        .next (stop (modChan s4 channel (fun x => { x with badTags := insertNew x.badTags offset })) .tag)
      else .next s4

/-- HBM_WRITE (R191, R234, R235): a full line is written with its tag. -/
def execHbmWrite (channel offset : Nat) (data : List Byte) (cmd : Nat) (s : State) : Res :=
  let k := cmdAt s cmd
  if !serving s || (chanAt s channel).mode == .fenced || (chanAt s channel).retraining || armed s 8 channel || decide (0x76000000 ≤ offset) || offset % 64 != 0 then .next s
  else
    let s1 := writeLine (countBytes s channel 64 k) (frameAddr channel offset) data
    let s2 := modChan s1 channel (fun x =>
      let c := touchTag x offset true
      { c with lines := c.lines.map (fun l => if l.offset = offset then { l with dirty := false } else l) })
    .next (match k with
      | some x => countFor s2 cmd x.colony (fun a => { a with hbmWr := wrapAdd 64 a.hbmWr 1 })
      | none => s2)

/- Remapping and scrub (R237, R240). -/

/-- Bytes of a row with its two tag lines (R233, R234). -/
def rowSize : Nat := 2048 + 128

/-- REMAP_COPY (R237): a queued row moves into a free spare row; without one the rows stay in place, reported once. DESIGN
CHOICE (log entry 106): the row queued first, into the next spare row in number; the spec says only 'a free spare row'. -/
def execRemapCopy (channel : Nat) (s : State) : Res :=
  let c := chanAt s channel
  match c.remapQueue with
  | [] => .next s
  | row :: rest =>
    if !serving s || c.mode == .fenced || c.retraining then .next s
    else if c.spareNext < spareRows then
      .next (setChan s channel { c with remap := tset c.remap row c.spareNext, spareNext := c.spareNext + 1, remapQueue := rest
                                        maint := wrapAdd 64 c.maint (2 * rowSize) })
    else
      let s1 := setChan s channel { c with remapQueue := rest, sparesReported := true }
      .next (if c.sparesReported then s1 else (recordFault s1 (blankRec 0x30 0 (.channel channel) c.colony)).1)

/-- A patrol period ends where the scrub starts again at row 0 (DESIGN CHOICE, log entry 23): the counts of the period
start again. -/
def newPeriod (c : Channel) (row : Nat) : Channel := if row = 0 then { c with rowCe := [], ueFaults := 0 } else c

/-- PATROL_SCRUB (R240): a row is read; `report` is that of its line `line`, which is uncorrected as long as the line is left
uncorrected (R236). A channel in transit is not scrubbed (R244). -/
def execPatrolScrub (channel row line : Nat) (report : EccReport) (s : State) : Res :=
  let c := chanAt s channel
  let off := 2048 * row + 64 * line
  if !serving s || c.mode != .inService || c.retraining || decide (0x76000000 ≤ off) || decide (32 ≤ line) then .next s
  else
    let s1 := modChan (countBytes s channel rowSize none) channel (fun x => newPeriod x row)
    match (if c.badLines.contains off then EccReport.uncorrected else report) with
    | .clean => .next s1
    | .corrected => .next (modChan (countBytes s1 channel 64 none) channel (fun x => countCorrected x row))
    | .uncorrected =>
      let (s2, i) := lineRecord (modChan s1 channel (fun x => { holdLine x off with scrubRows := insertNew x.scrubRows row })) channel c.colony (dpaOf s1 c.colony (frameAddr channel off)) none 0 0 .uncorrectable false
      .next (closeRec s2 i)

/-- The bank of a channel byte offset (R234): 48 for each pseudo-channel, in the place that R465's entries name. -/
def hbmBank (off : Nat) : Nat := Config.rowPlace (rowOf off) % 2 * 48 + Config.rowPlace (rowOf off) / 2 % 64

/-- A queued class-0 request holds a refresh of a bank back (R238, R244): one of the bank, or any where a slot or refresh has just
ended. -/
def refreshHeld (c : Channel) (bank : Nat) : Bool := c.urgentFirst || c.queue.any (fun r => r.cls == 0 && hbmBank r.offset == bank)

/-- Class-0 requests are queued where a slot or refresh ends: they issue first (R244). -/
def slotEnds (c : Channel) : Channel := { c with urgentFirst := c.queue.any (fun r => r.cls == 0) }

/-- REFRESH (R238): a bank's refresh at the interval of its stack's temperature, halved above 85 °C; postponed for a queued
class-0 request up to the standard's allowance (log entry 103). -/
def execRefresh (channel bank temp : Nat) (s : State) : Res :=
  if !s.boot.powered || s.boot.inReset || (chanAt s channel).mode == .fenced then .next s
  else .next (modChan s channel (fun c0 =>
    let c := { c0 with temp := temp % 128, fastRefresh := decide (85 < temp) }
    if refreshHeld c bank && decide (tget 0 c.postponed bank < Config.refreshAllowance) then
      { c with postponed := tset c.postponed bank (tget 0 c.postponed bank + 1) }
    else slotEnds { c with refreshes := tset c.refreshes bank (tget 0 c.refreshes bank + 1), postponed := tset c.postponed bank 0 }))

/- Calibration (R241 to R243). -/

/-- The slot interval's rate that a slope in m°C/ms and a margin call for (R242). -/
def rateFor (slopeMilli : Nat) (tracking : Bool) : Nat :=
  if 2000 ≤ slopeMilli then 2 else if 500 ≤ slopeMilli || !tracking then 1 else 0

/-- The slot interval in µs (R242). -/
def slotInterval (rate : Nat) : Nat := if rate = 0 then 100 else if rate = 1 then 50 else 25

/-- The slot time borrowed in 100 µs, in ns (R242). -/
def borrowed (rate : Nat) : Nat := if rate = 0 then 0 else if rate = 1 then 120 else 360

/-- The rate after a slot (R242): a faster condition acts at once; a slower one moves it one step after 10 ms. -/
def nextRate (c : Channel) (want : Nat) : Channel :=
  if c.calRate ≤ want then { c with calRate := want, calm := 0, borrowNs := borrowed want }
  else if 10000 ≤ c.calm + slotInterval c.calRate then { c with calRate := c.calRate - 1, calm := 0, borrowNs := borrowed (c.calRate - 1) }
  else { c with calm := c.calm + slotInterval c.calRate, borrowNs := borrowed c.calRate }

/-- Another channel of the interleave set is in a slot or a retrain (R241). -/
def setBusy (s : State) (ch : Nat) : Bool := s.chans.any (fun e => e.1 != ch && e.1 / 16 == ch / 16 && e.2.calBusy)

/-- CALIBRATION_SLOT (R241 to R244): `tracking` says that the margin meets the tracking threshold, `marginOk` that it meets
the minimum operating margin; below that a retrain starts. A slot due while another channel of the set calibrates waits, and so
does one before which a class-0 request issues. -/
def execCalibrationSlot (channel margin slopeMilli : Nat) (marginOk tracking : Bool) (s : State) : Res :=
  let c := chanAt s channel
  if !serving s || c.mode == .fenced || c.calBusy || setBusy s channel || c.urgentFirst then .next s
  else
    let c1 := nextRate { c with slots := wrapAdd 16 c.slots 1, margin := margin % 256 } (rateFor slopeMilli tracking)
    .next (setChan s channel (if marginOk then slotEnds c1 else { c1 with retraining := true, calBusy := true, retrains := satInc 8 c1.retrains }))

/-- RETRAIN_DONE (R243, R415): back in service, or fenced. -/
def execRetrainDone (channel : Nat) (pass : Bool) (s : State) : Res :=
  let c := chanAt s channel
  if !serving s || !c.retraining then .next s
  else
    let s1 := setChan s channel (slotEnds { c with retraining := false, calBusy := false })
    .next (if pass then s1 else afterFence (fenceFault s1 0x20 (.channel channel) c.colony 0x09))

/- Registers' commands and the mesh (R225, R245, R263). -/

/-- HBC_CLR_CNT: HBC.CMD.CLR_CNT (R245). -/
def execHbcClrCnt (channel : Nat) (s : State) : Res :=
  .next (if fnLive s .pf && serving s then modChan s channel (fun c => { c with ce := 0, retryOk := 0, ue := 0, tagFail := 0, retrains := 0 }) else s)

/-- HBC_CLR_PEAK: HBC.CMD.CLR_PEAK (R245, R263). -/
def execHbcClrPeak (channel : Nat) (s : State) : Res :=
  .next (if fnLive s .pf && serving s then modChan s channel (fun c => { c with qPeak := c.queue.length, urgPeak := 0 }) else s)

/-- MESH_FLIT_REPLAY (R225): `replays` replays in a row on one link of a die; the sixteenth is a die fault. -/
def execMeshFlitReplay (die replays : Nat) (s : State) : Res :=
  if !serving s || s.flt.quar.contains die then .next s
  else
    let s1 := modMesh s die (fun m => { m with replays := satAdd 32 m.replays replays })
    .next (if replays < 16 then s1 else afterFence (fenceFault s1 0x21 (.die die) 0 0x09))

end Sys2Proof.Machine
end

