-- ==== Sys2Proof/Machine/Power.lean ====
section
/-! DEFINITION. Windows, power, cooling and clocks (R258 to R260, R440 to R458): what happens at a 100 µs window boundary,
the power controller of each die with its planned steps and its droop response, and the rails, the PLLs and the coolant.
Sensor readings and estimates come with the command (log entry 24). -/

namespace Sys2Proof.Machine

/-- The device is out of reset with power, and no DEVICE fault has stopped it. -/
def clocked (s : State) : Bool := s.boot.powered && !s.boot.inReset && !s.flt.fatal

/- The power controller (R448 to R454). -/

/-- An element of a list of readings, 0 where the list ends. -/
def reading (l : List Nat) (d : Nat) : Nat := l.getD d 0

/-- The VCORE rails' continuous limit in A (R437). -/
def vcoreLimit : Nat := 720

/-- R450's conditions that concern the die alone fail at its present state: its current or its temperatures. -/
def dieHot (r : PowerReading) (d : Nat) : Bool :=
  decide (vcoreLimit < reading r.dieA d) || decide (95 ≤ reading r.dieTemp d) || decide (92 ≤ reading r.stackTemp d)

/-- The die may take a planned step: STEADY, its spacing met (R451, R454). -/
def mayStep (s : State) (d : Nat) : Bool := (dieAt s d).mode == .steady && (dieAt s d).wait == 0

/-- A planned step down (R451): the divider, then the voltage. -/
def stepDown (p : DiePower) : DiePower :=
  if p.pstate < 4 then { p with pstate := p.pstate + 1, vstate := p.pstate + 1, wait := 1 } else p

/-- Dies that can still step down, the one of highest estimated power first (R450). -/
def byPower (s : State) (r : PowerReading) : List Nat :=
  let ds := (List.range 4).filter (fun d => mayStep s d && decide ((dieAt s d).pstate < 4))
  ds.foldl (fun acc d => (acc.takeWhile (fun y => decide (reading r.dieW d ≤ reading r.dieW y))) ++ [d] ++
    (acc.dropWhile (fun y => decide (reading r.dieW d ≤ reading r.dieW y)))) []

/-- Dies in the order in which they step up: the lowest state first, then the lowest number (R450). -/
def byState (s : State) : List Nat :=
  ([4, 3, 2, 1, 0].flatMap (fun p => (List.range 4).filter (fun d => (dieAt s d).pstate == p)))

/-- Steps down for the dies' own limits. -/
def coolDown (s : State) (r : PowerReading) : State :=
  (List.range 4).foldl (fun t d => if mayStep t d && dieHot r d then modDie t d stepDown else t) s

/-- Steps down to meet the cap: `w` is the package estimate, which each step lowers. -/
def capDown (r : PowerReading) (cap : Nat) : List Nat → Nat → State → State
  | [], _, s => s
  | d :: ds, w, s =>
    if w ≤ cap then s
    else if mayStep s d then capDown r cap ds (w - reading r.downW d) (modDie s d stepDown) else capDown r cap ds w s

/-- Steps up, each while the package estimate with it stays within the cap (R450): the voltage starts to rise. -/
def capUp (r : PowerReading) (cap : Nat) : List Nat → Nat → State → State
  | [], _, s => s
  | d :: ds, w, s =>
    if mayStep s d && decide (0 < (dieAt s d).pstate) && !dieHot r d && decide (w + reading r.upW d ≤ cap) && decide (reading r.upA d ≤ vcoreLimit) then
      capUp r cap ds (w + reading r.upW d) (modDie s d (fun p => { p with mode := .raising }))
    else capUp r cap ds w s

/-- One evaluation at a window boundary (R450, R454). -/
def evaluate (s : State) (r : PowerReading) : State :=
  let cap := 10 * s.pwr.cap
  let over_ := decide (cap < r.packageW)
  let s1 := coolDown s r
  let saved := (((List.range 4).filter (fun d => (dieAt s d).pstate != (dieAt s1 d).pstate)).map (reading r.downW)).sum
  let s2 := if over_ then capDown r cap (byPower s1 r) (r.packageW - saved) s1 else capUp r cap (byState s1) r.packageW s1
  let low := (List.range 4).all (fun d => (dieAt s2 d).mode == .stopped || (dieAt s2 d).pstate == 4)
  { s2 with pwr := { s2.pwr with capUnmet := over_ && low } }

/-- A die at a boundary: its spacing runs on; a step that a further trip owes is taken once it may be (R453); time in a
hold is counted (R454). -/
def dieWindow (p : DiePower) : DiePower :=
  let q := { p with wait := p.wait - 1, holdWindows := if p.mode == .hold then p.holdWindows + 1 else p.holdWindows }
  if q.mode == .hold && q.owed && q.wait == 0 then
    (if q.pstate < 4 then { q with pstate := q.pstate + 1, gating := false, owed := false, wait := 1 } else { q with owed := false })
  else q

/-- The highest of some readings. -/
def hottest (l : List Nat) : Nat := l.foldl max 0

/-- PWR.TEMP's value (R457). -/
def tempReg (p : Power) : Nat :=
  reading p.dieTemp 0 % 256 + 2 ^ 8 * (reading p.dieTemp 1 % 256) + 2 ^ 16 * (reading p.dieTemp 2 % 256) + 2 ^ 24 * (reading p.dieTemp 3 % 256) +
  2 ^ 32 * (p.hubTemp % 256) + 2 ^ 40 * (p.hbmMax % 256)

/-- Temperatures and energy (R192, R457). -/
def takeReadings (s : State) (r : PowerReading) : State :=
  let sum := (r.energy.map (fun e => e.2)).sum
  let p := { s.pwr with
    dieTemp := (List.range 4).map (reading r.dieTemp), hubTemp := r.hubTemp, hbmMax := hottest r.stackTemp
    energy := wrapAdd 64 s.pwr.energy sum, secondUj := s.pwr.secondUj + sum }
  r.energy.foldl (fun t e => modAcct t e.1 (fun a => { a with energy := wrapAdd 64 a.energy e.2 })) { s with pwr := p }

/-- A second of telemetry ends (R454, R490): 10,000 windows; the last 60 are kept. -/
def secondEnd (s : State) : State :=
  let holds := (List.range 4).map (fun d => min 65535 ((dieAt s d).holdWindows * 65536 / 10000))
  let s1 := (List.range 4).foldl (fun t d => modDie t d (fun p => { p with holdWindows := 0 })) s
  { s1 with pwr := { s1.pwr with
      telemetry := ((s1.pwr.secondUj, holds, s1.pwr.capUnmet, [tempReg s1.pwr]) :: s1.pwr.telemetry).take 60, secondUj := 0 } }

/- Regulation at a boundary (R258 to R260, R324). -/

/-- Configuration that waited for the boundary takes effect (R259, R260). -/
def applyConfig (s : State) : State :=
  let h := s.hub
  let h1 := { h with classes := h.classesNext.foldl (fun t e => tset t e.1 e.2) h.classes, classesNext := [] }
  let h2 := match h.regNext with
    | some (m, o, p) => { h1 with regMode := m, outLim := o, pMax := p, regNext := none }
    | none => h1
  { s with hub := h2
           cols := s.cols.map (fun e => (e.1, { e.2 with linkw := e.2.linkwNext.getD e.2.linkw, linkwNext := none })) }

/-- A cold window covers a colony: the device's, or its own (R259). -/
def isCold (s : State) (colony : Nat) : Bool := decide (0 < s.hub.cold) || decide (0 < (colAt s colony).cold)

/-- The mesh misses of a die (R258): the colonies' bits and the interrupt. -/
def meshMiss (s : State) (misses : List (Nat × Nat)) (d : Nat) : State :=
  let cs := (misses.filter (fun m => m.1 == d && decide (1 ≤ m.2) && decide (m.2 ≤ 64) && !isCold s m.2)).map (fun m => m.2)
  if cs.isEmpty then s
  else
    let s1 := modMesh s d (fun m => { m with lmiss := m.lmiss ||| BitVec.ofNat 64 (bitMap (cs.map (fun c => c - 1))) })
    if (meshAt s1 d).missEn then raiseMsix s1 .pf (meshAt s1 d).missVec else s1

/-- The misses of a port (R324): its owner's and transit's. -/
def portMissed (s : State) (misses : List (Nat × Bool)) (n : Nat) : State :=
  let p := portAt s n
  let own := misses.contains (n, false) && !isCold s p.colony
  let through := misses.contains (n, true) && s.hub.cold == 0
  if !own && !through then s
  else
    let s1 := setPort s n { p with missOwner := p.missOwner || own, missTransit := p.missTransit || through }
    if p.missEn then raiseMsix s1 .pf p.missVec else s1

/-- MESH.URG.OVER at the end of a window in which class-0 lines crossed the mesh (R263): how many of the window's 128 ns intervals
saw more than 40 class-0 flits on a link of the die is a free value (log entry 107). -/
def meshUrgent (s : State) (d : Nat) : State :=
  let (v, s1) := drawFree s
  modMesh s1 d (fun m => { m with urgOver := satAdd 32 m.urgOver (v % 783) })

/-- The class-0 traffic of the window that ends. -/
def urgentWindow (s : State) : State :=
  if s.hub.urgSeen then modHub ((List.range 4).foldl meshUrgent s) (fun h => { h with urgSeen := false }) else s

/-- Cold windows run on (R259, R260). -/
def coldRuns (s : State) : State :=
  { s with hub := { s.hub with cold := s.hub.cold - 1, windows := wrapAdd 32 s.hub.windows 1 }
           chans := s.chans.map (fun e => (e.1, { e.2 with cold := e.2.cold - 1 }))
           cols := s.cols.map (fun e => (e.1, { e.2 with cold := e.2.cold - 1 })) }

/-- Quarantines without a timeout for ten windows, 1 ms, are confirmed (R417; log entry 26). -/
def quarRuns (s : State) : State :=
  { s with flt := { s.flt with quarPending := (s.flt.quarPending.filter (fun e => decide (e.2 < 10))).map (fun e => (e.1, e.2 + 1)) } }

/-- WINDOW_BOUNDARY (R192, R258, R259, R324, R450, R454): the misses found in the window that ends, as (die, colony) and as
(port, transit); then what the boundary brings. Evaluations begin at RUNNING (R470). -/
def execWindowBoundary (r : PowerReading) (linkMiss : List (Nat × Nat)) (portMiss : List (Nat × Bool)) (s : State) : Res :=
  if !clocked s then .next { s with mgt := { s.mgt with handshakeWait := s.mgt.handshakeWait - 1 } }
  else
    let s1 := (List.range 4).foldl (fun t d => meshMiss t linkMiss d) s
    let s2 := (List.range 16).foldl (fun t n => portMissed t portMiss n) s1
    let s3 := takeReadings (quarRuns (coldRuns (applyConfig (urgentWindow s2)))) r
    let s4 := (List.range 4).foldl (fun t d => modDie t d dieWindow) s3
    let s5 := if s.boot.stage = .running then evaluate s4 r else s4
    let s6 := { s5 with mgt := { s5.mgt with handshakeWait := s5.mgt.handshakeWait - 1 } }
    .next (if s6.hub.windows % 10000 = 0 then secondEnd s6 else s6)

/-- VOLTAGE_REACHED (R451, R454): the divider rises. -/
def execVoltageReached (die : Nat) (s : State) : Res :=
  if !clocked s || (dieAt s die).mode != .raising then .next s
  else .next (modDie s die (fun p => { p with pstate := p.pstate - 1, vstate := p.pstate - 1, mode := .steady, wait := 2 }))

/-- A droop step by the divider alone, or at P4 every second cycle gated (R453). -/
def droopStep (p : DiePower) : DiePower :=
  if p.pstate < 4 then { p with pstate := p.pstate + 1, wait := 2 } else { p with gating := true }

/-- DROOP_TRIP (R452 to R454). -/
def execDroopTrip (die : Nat) (s : State) : Res :=
  let p := dieAt s die
  if !clocked s then .next s
  else match p.mode with
    | .stopped => .next s
    | .hold => .next (modDie s die (fun _ => if p.wait = 0 then droopStep p else { p with gating := true, owed := true }))
    | _ => .next (modDie s die (fun _ => { droopStep p with mode := .hold, preTrip := p.pstate }))

/-- The end of a hold (R453, R454): toward the lower of the planned target and the state before the first trip. -/
def endHold (p : DiePower) (target : Nat) : DiePower :=
  let goal := max (min target 4) p.preTrip
  let q := { p with gating := false, owed := false, mode := .steady }
  if p.wait ≠ 0 ∨ goal = p.pstate then q
  else if p.pstate < goal then stepDown q
  else if p.vstate ≤ p.pstate - 1 then { q with pstate := p.pstate - 1, vstate := p.pstate - 1, wait := 2 }
  else { q with mode := .raising }

/-- DROOP_HOLD_EXPIRY (R453, R454): `target` is the planned target at that moment. -/
def execDroopHoldExpiry (die target : Nat) (s : State) : Res :=
  if !clocked s || (dieAt s die).mode != .hold then .next s
  else .next (modDie s die (fun p => endHold p target))

/- Faults of supply, clocks and cooling (R440 to R443, R446, R452). -/

/-- DIE_LINK on a die (R417). -/
def dieFault (s : State) (d : Nat) : State := afterFence (fenceFault s 0x21 (.die d) 0 0x09)

/-- SENSE_BELOW_MINIMUM (R452). -/
def execSenseBelowMinimum (die : Nat) (s : State) : Res :=
  .next (if clocked s && !s.flt.quar.contains die then dieFault s die else s)

/-- Every ring of the device is disabled. -/
def disableAllRings (s : State) : State :=
  modHub s (fun h => { h with sqs := h.sqs.map (fun e => (e.1, { e.2 with enable := false, st := .disabled }))
                              cqs := h.cqs.map (fun e => (e.1, { e.2 with enable := false })) })

/-- The link is lost in service (R484): the functions are reset, every colony undergoes a reset, and no ring is served until
a device reset. -/
def linkLost (s : State) : State :=
  let s1 := disableAllRings { s with boot := { s.boot with link := false, cfg := false, removed := true }, pcie := {} }
  if s1.flt.fatal then s1
  else s1.cols.foldl (fun t e => if (colAt t e.1).st == .active then startReset t e.1 else t) s1

/-- RAIL_OUT_OF_TOLERANCE (R440). -/
def execRailOutOfTolerance (rail : Nat) (s : State) : Res :=
  if !s.boot.powered || s.boot.inReset || decide (12 ≤ rail) then .next s
  else
    let b := BitVec.ofNat 12 (2 ^ rail)
    let s1 := { s with pwr := { s.pwr with railGood := s.pwr.railGood &&& ~~~b, railFault := s.pwr.railFault ||| b } }
    if s.flt.fatal then .next s1
    else if rail < 4 then .next (if s1.flt.quar.contains rail then s1 else dieFault s1 rail)
    else if rail = 9 ∨ rail = 10 then .next (afterFence ((List.range 16).foldl (fun t n => fencePort t n 0x0F none) s1))
    else if rail = 11 then .next (linkLost s1)
    else if rail = 6 then .next (deviceStop s1 0)
    else .next (deviceFault s1 0x50 .none)

/-- PLL_LOCK_LOSS (R446, R462): of a compute die, or of the hub as die 4; at STAGE HOLD the boot fails with code 0x86. -/
def execPllLockLoss (die : Nat) (s : State) : Res :=
  if !clocked s || decide (5 ≤ die) then .next s
  else
    let s1 := { s with pwr := { s.pwr with rootLock := s.pwr.rootLock &&& ~~~(BitVec.ofNat 5 (2 ^ die)) } }
    if s.boot.stage = .hold then .next { s1 with boot := { s1.boot with stage := .failed, refuse := 0x86, coolWait := false } }
    else if die = 4 then .next (deviceFault s1 0x52 .none)
    else .next (if s1.flt.quar.contains die then s1 else dieFault s1 die)

/-- Every die stops: at P4, or with its clocks gated (R442, R443, R454). -/
def stopDies (s : State) : State :=
  (List.range 4).foldl (fun t d => modDie t d (fun p => { p with pstate := 4, mode := .stopped, gating := false, owed := false })) s

/-- THERMAL_TRIP (R443): hardware drives THERM_TRIP_N low until power is removed. -/
def execThermalTrip (_sensor : Nat) (s : State) : Res :=
  if !s.boot.powered || s.pwr.trip then .next s
  else
    let s1 := stopDies { s with pwr := { s.pwr with trip := true } }
    .next (if s1.boot.inReset || s1.flt.fatal then s1 else deviceFault s1 0x53 .none)

/-- Boot step 2 has passed (R461, R471). -/
def pastCooling (s : State) : Bool := s.boot.stage != .hold && s.boot.stage != .failed

/-- COOLANT_OK_LOW: the land falls (R436, R442). -/
def execCoolantOkLow (s : State) : Res := .next { s with pwr := { s.pwr with coolantOk := false } }

/-- COOLANT_OK_HIGH: the land rises (R436, R442, R471); a low of less than 1 ms in service sets LOST. -/
def execCoolantOkHigh (s : State) : Res :=
  let brief := !s.pwr.coolantOk && clocked s && pastCooling s
  .next { s with pwr := { s.pwr with coolantOk := true, lost := s.pwr.lost || brief } }

/-- COOLANT_LOSS (R442, R471): COOLANT_OK has been low for 1 ms. -/
def execCoolantLoss (s : State) : Res :=
  let s1 := { s with pwr := { s.pwr with coolantOk := false } }
  .next (if clocked s && pastCooling s then deviceFault (stopDies s1) 0x53 .none else s1)

/-- PWR_COOL_CLR: PWR.COOL.CLR is written (R457). -/
def execPwrCoolClr (s : State) : Res :=
  .next (if fnLive s .pf && serving s then { s with pwr := { s.pwr with lost := false } } else s)

end Sys2Proof.Machine
end

