-- ==== Sys2Proof/Machine/Zilte.lean ====
section
/-! DEFINITION. The Zilte ports: their states and the join (R314 to R318), lanes (R313), loss and return of a partner
(R336 to R338), flits received, credits, NAKs and replay (R323 to R328), rekeying (R331) and the event ring (R339, R340). -/

namespace Sys2Proof.Machine

/-- The PF reaches a register block in service (R463, R480). -/
def pfWrites (s : State) : Bool := serving s && fnLive s .pf

/-- The ports run: the boot has passed step 4 (R461 step 7), and nothing has stopped the device. -/
def portsRun (s : State) : Bool :=
  clocked s && s.boot.stage != .hold && s.boot.stage != .selftest && s.boot.stage != .failed

/- Signatures (R383, R384). -/

/-- The lower tree exists, or will never: what a signature step waits for. -/
def treeReady (s : State) : Bool := s.boot.treeDone || s.sec.lmsExhausted

/-- A signature of the device (R379, R384): it spends one of the lower tree where one is left; the Bool says that it carries
the HSS form. Spending the last sets LMS_SPENT and raises the event. -/
def signDevice (s : State) : State × Bool :=
  if s.sec.lmsLeft = 0 then (s, false)
  else
    let left := s.sec.lmsLeft - 1
    let s1 := { s with sec := { s.sec with lmsLeft := left, lmsSigned := wrapAdd 32 s.sec.lmsSigned 1, lmsSpent := s.sec.lmsSpent || left == 0 } }
    (if left = 0 then zltEvent s1 9 0 0 else s1, true)

/-- A signature block over some bytes (R381): with the HSS form 3,384 bytes, else 100. -/
def signatureBlock (hss : Bool) (body : List Byte) : List Byte :=
  leBytes 2 (if hss then 3284 else 0) ++ leBytes 1 (b2n hss) ++ zeros 1 ++ leBytes 48 (Config.digest 10 body) ++ leBytes 48 (Config.digest 11 body) ++
  (if hss then leBytes 3284 (Config.digest 12 body) else [])

/- Commands of the host (R314, R340). -/

/-- PORT_EN_WRITE: a write of ZLT.CTL.EN (R314, R338, R340). -/
def execPortEnWrite (port : Nat) (value : Word) (s : State) : Res :=
  if !pfWrites s || decide (16 ≤ port) then .next s
  else
    let on := bit value 0
    let s1 := modPort s port (fun p => { p with en := on })
    if !on then .next (afterFence (fencePortAs s1 port 0x0F none 3))
    else .next (modPort s1 port (fun p => if p.st == .disabled then { p with st := .detect } else p))

/-- PORT_FENCE: ZLT.CMD.FENCE in any state but DISABLED (R314, R336, R340): a HOST_FENCE fault (R415). -/
def execPortFence (port : Nat) (s : State) : Res :=
  let p := portAt s port
  if !pfWrites s || decide (16 ≤ port) || p.st == .disabled then .next s
  else
    let (s1, i) := recordFault s (nameUnit s { blankRec 0x40 4 (.port port) p.colony with status := 0x0F } (.port port))
    .next (afterFence (fencedRecs (fencePortAs s1 port 0x0F i 0) (.port port)))

/-- PORT_UNFENCE: ZLT.CMD.UNFENCE (R314). -/
def execPortUnfence (port : Nat) (s : State) : Res :=
  .next (if pfWrites s && decide (port < 16) && (portAt s port).st == .fenced then modPort s port (fun p => { p with st := .detect }) else s)

/-- Both descriptors of a join are there (R314): AUTH, where this side sends a fresh ephemeral key, a free value (log entry 4), and its
identity chain (R315 step 5, R317). -/
def meetPartner (s : State) (n : Nat) : State :=
  let p := portAt s n
  if p.ownDesc.isEmpty || p.peerDesc.isEmpty then s
  else
    let (k, s1) := drawFree s
    emit (setPort s1 n { p with st := .auth, ecdh := k % 2 ^ 776 }) (.join n 5 (leBytes 97 (k % 2 ^ 776) ++ s.boot.chain))

/-- This side's descriptor (R316). -/
def descriptor (s : State) (n nonce : Nat) : List Byte :=
  let p := portAt s n
  let lms := !s.sec.lmsExhausted && !s.sec.lmsSpent
  leBytes 4 0x45544C5A ++ leBytes 2 1 ++ leBytes 1 n ++ leBytes 1 (p.lanes.length + p.spare.elim 0 (fun _ => 1)) ++ leBytes 3 s.fab.faddr ++
  leBytes 1 (b2n lms + 2 * b2n (p.bond != 0)) ++ zeros 4 ++ leBytes 48 s.sec.idhash ++ leBytes 32 nonce ++ zeros 32

/-- A port in DISCOVER sends its descriptor (R315 step 4) once Bonor runs and the lower tree exists (R461 step 13); its NONCE is a free
value (log entry 4). -/
def announce (s : State) (n : Nat) : State :=
  let p := portAt s n
  if p.st != .discover || !serving s || !treeReady s || !p.ownDesc.isEmpty then s
  else
    let (v, s1) := drawFree s
    let d := descriptor s n (v % 2 ^ 256)
    meetPartner (emit (setPort s1 n { p with ownDesc := d, nonce := v % 2 ^ 256, ownLms := !s.sec.lmsExhausted && !s.sec.lmsSpent }) (.join n 4 d)) n

/-- Every port in DISCOVER goes on with its join (R461 step 13). -/
def announceAll (s : State) : State := (List.range 16).foldl announce s

/-- A port leaves ACTIVE (R336): PARTNER_DOWN with its cause, its requests or its bond's packets, and DETECT; after a session
failure DISCOVER with its training kept (R330). The fourth departure within 1 s holds it in DETECT (R315). -/
def partnerLost (s : State) (n cause : Nat) : State :=
  let p := portAt s n
  let s0 := resendBond (zltEvent s 2 n cause) n
  let recent := s.ticks :: p.departures.filter (fun t => decide (s.ticks < t + secondTicks))
  let held := decide (4 ≤ recent.length)
  let keep := cause == 2 && !held
  let s1 := modPort s0 n (fun q =>
    let d := dropLink q (if keep then .discover else .detect)
    let e := if keep then { d with lanes := q.lanes, rxLanes := q.lanes, spare := q.spare, retraining := q.retraining, outLanes := q.outLanes } else d
    { e with departures := recent, holdoff := q.holdoff || held })
  settleColonies (announce (closeReqs s1 n 7 none (decide (1 < (bondMates s n).length))) n)

/-- PORT_RETRAIN: ZLT.CMD.RETRAIN (R314, R318, R340). -/
def execPortRetrain (port : Nat) (s : State) : Res :=
  if !pfWrites s || decide (16 ≤ port) then .next s
  else match (portAt s port).st with
    | .active => .next (partnerLost s port 0)
    | .train => .next (modPort s port (fun p => dropLink p .detect))
    | .discover => .next (modPort s port (fun p => dropLink p .detect))
    | .auth => .next (modPort s port (fun p => dropLink p .detect))
    | .refused => .next (modPort s port (fun p => dropLink p .detect))
    | _ => .next s

/-- ZLT_CLR_CNT: ZLT.CMD.CLR_CNT (R340). -/
def execZltClrCnt (port : Nat) (s : State) : Res :=
  .next (if pfWrites s && decide (port < 16) then
    modPort s port (fun p => { p with ceSym := 0, uncorr := 0, replays := 0, urgOver := 0, urgPeak := 0 }) else s)

/-- EVENT_RING_ENABLE: a write of ZLT.EVCFG (R339, R340). -/
def execEventRingEnable (value : Word) (s : State) : Res :=
  if !pfWrites s then .next s
  else
    let z := s.zlt
    let n := field value 3 0
    let on := bit value 4
    let z1 := { z with evLog2n := if z.evEnable || decide (n < 6) || decide (12 < n) then z.evLog2n else n
                       evEnable := on, evVec := field value 10 5 }
    .next { s with zlt := if on && !z.evEnable then { z1 with evTail := 0, evPhase := true } else z1 }

/- The join (R315 to R318). -/

/-- PARTNER_PRESENCE (R314, R315, R337): presence on some number of lanes. -/
def execPartnerPresence (port lanes : Nat) (s : State) : Res :=
  let p := portAt s port
  .next (if portsRun s && decide (port < 16) && p.st == .detect && !p.holdoff && decide (4 ≤ lanes) then
    modPort s port (fun q => { dropLink q .train with departures := q.departures }) else s)

/-- Training fails: the event with the map of failed lanes, and DETECT (R314, R339). -/
def trainFail (s : State) (n map : Nat) : State := modPort (zltEvent s 4 n (map % 512)) n (fun p => dropLink p .detect)

/-- TRAINING_DONE (R313 to R315): the lanes that pass, and the one of least eye margin; with all nine lanes good it becomes
the spare. -/
def execTrainingDone (port : Nat) (passed : List Nat) (weakest : Nat) (s : State) : Res :=
  if !portsRun s || decide (16 ≤ port) || (portAt s port).st != .train then .next s
  else
    let good := (sortNat passed).filter (fun l => decide (l < 9))
    let bad := (List.range 9).filter (fun l => !good.contains l)
    if good.length < 4 then .next (trainFail s port (bitMap bad))
    else
      let sp := if good.length = 9 then some (if weakest < 9 then weakest else 8) else none
      let lanes := good.filter (fun l => sp != some l)
      .next (announce (modPort s port (fun p => { p with
        st := .discover, lanes := lanes, rxLanes := lanes, rxSwaps := [], spare := sp, retraining := [], outLanes := bad })) port)

/-- TRAIN_TIMEOUT (R314): 100 ms have passed; `failed` is the map of lanes that failed. -/
def execTrainTimeout (port failed : Nat) (s : State) : Res :=
  .next (if portsRun s && decide (port < 16) && (portAt s port).st == .train then trainFail s port failed else s)

/-- A descriptor is well formed (R316): its 128 bytes, MAGIC and VERSION, and every reserved field 0. -/
def descriptorOk (d : List Byte) : Bool :=
  d.length == 128 && bytesAt d 0 4 == 0x45544C5A && bytesAt d 4 2 == 1 && decide (bytesAt d 11 1 < 4) && zeroAt d 12 4 && zeroAt d 96 32

/-- The port refuses its partner (R314, R339). -/
def refusePartner (s : State) (n detail : Nat) : State := modPort (zltEvent s 3 n detail) n (fun p => { p with st := .refused })

/-- DISCOVERY_DESCRIPTOR (R314 to R316): the partner's descriptor; AUTH follows once this side has sent its own. -/
def execDiscoveryDescriptor (port : Nat) (d : List Byte) (s : State) : Res :=
  if !portsRun s || !serving s || decide (16 ≤ port) || (portAt s port).st != .discover then .next s
  else if !descriptorOk d then .next (refusePartner s port 3)
  else
    let s1 := announce s port
    .next (meetPartner (modPort s1 port (fun p => { p with
      peerDesc := d, peerFaddr := bytesAt d 8 3, peerPort := bytesAt d 6 1 % 16, peerValid := true, idhash := bytesAt d 16 48
      peerLms := (bytesAt d 11 1).testBit 0, peerNonce := bytesAt d 64 32 })) port)

/-- An IDHASH is admitted by ZLT.ALLOW (R318, R340). -/
def allowed (z : ZltDev) (idhash : Nat) : Bool :=
  (List.range 256).any (fun i =>
    (tget (0 : Word) z.allow (8 * i + 6)).toNat.testBit 0 &&
    (List.range 6).all (fun k => (tget (0 : Word) z.allow (8 * i + k)).toNat == idhash / 2 ^ (64 * k) % 2 ^ 64))

/-- Why a partner is refused at authentication, as AUTH_REFUSED's DETAIL (R318, R339, R341). -/
def authProblem (s : State) (p : Port) (chainOk ecdsaOk lmsOk : Bool) : Option Nat :=
  if !chainOk || !ecdsaOk || (p.peerLms && !lmsOk) then some 0
  else if !p.peerLms && !s.zlt.ecdsaOnly then some 2
  else if (s.fab.faddr != 0 && p.peerFaddr == s.fab.faddr) || (s.zlt.admitList && !allowed s.zlt p.idhash) then some 1
  else none

/-- The port is ACTIVE (R314, R320, R326, R339): fresh keys from a fresh ECDH secret (log entry 4), SEQ, ACK and credits at
their initial values. -/
def goActive (s : State) (n : Nat) : State :=
  let p := portAt s n
  let (r, s1) := drawFree s
  let changed := p.lastId != 0 && p.lastId != p.idhash
  let s2 := setPort s1 n { p with
    st := .active, kp := false, rxKp := false, txSeq := 0, rxSeq := 0, replayBuf := [], rxHold := [], rxQueue := [], fails := [], owed := []
    credits := [(0, creditCap 0), (1, creditCap 1), (2, creditCap 2)], keyFlits := 0, packets := 0, rekeying := false, keysLive := 1
    txKey := sessionKey s p r true, rxKey := sessionKey s p r false, rxOld := none, rxNext := none, rxPackets := 0, rxIv := [], rxSwaps := []
    linkQueue := [], arb := {}, arbCls := [], refreshing := false, lastId := p.idhash, txQueue := [], sent := [] }
  let s3 := zltEvent s2 1 n (b2n changed)
  if p.transit && !p.leaving then settleColonies (unitReady s3 (.port n)) else s3

/-- What a side of the join signs (R317): both descriptors and both ephemeral keys, the initiator's first, and its role byte. -/
def transcript (s : State) (p : Port) (peerKey : Nat) : List Byte :=
  if initiates s p then p.ownDesc ++ p.peerDesc ++ leBytes 97 p.ecdh ++ leBytes 97 peerKey ++ leBytes 1 1
  else p.peerDesc ++ p.ownDesc ++ leBytes 97 peerKey ++ leBytes 97 p.ecdh ++ leBytes 1 2

/-- AUTHENTICATION (R314, R317, R318, R341, R384): the partner's ephemeral key, and the verdicts on its chain and signatures; this side
signs and sends its own. It waits for the lower tree; a device that announced LMS signatures and has none left fails (R314, R339 detail
4). -/
def execAuthentication (port peerKey : Nat) (chainOk ecdsaOk lmsOk : Bool) (s : State) : Res :=
  let p := portAt s port
  if !portsRun s || !serving s || !treeReady s || decide (16 ≤ port) || p.st != .auth then .next s
  else if p.ownLms && s.sec.lmsLeft == 0 then .next (refusePartner s port 4)
  else
    let s0 := if p.ownLms then (signDevice s).1 else s
    let s1 := emit s0 (.join port 5 (signatureBlock p.ownLms (transcript s p peerKey)))
    match authProblem s1 p chainOk ecdsaOk lmsOk with
    | some d => .next (refusePartner s1 port d)
    | none => .next (goActive s1 port)

/- Lanes (R312, R313). -/

/-- An active lane fails: the spare takes its rank, or the port drops it, or leaves ACTIVE. What the lane carried and is not acknowledged
is replayed on the lane that has its rank (log entry 118). -/
def laneFail (s : State) (n lane : Nat) : State :=
  let p := portAt s n
  if !p.lanes.contains lane then s
  else match p.spare with
    | some sp =>
      let s1 := modPort s n (fun q => { q with
        lanes := q.lanes.map (fun l => if l = lane then sp else l), spare := none, retraining := q.retraining ++ [lane], fails := []
        replayBuf := q.replayBuf.map (fun f => if f.lane = lane then { f with lane := sp } else f) })
      let s2 := if p.st == .active then sendLink s1 n 3 [p.txSeq, (findIdx? (fun l => l == lane) p.lanes).elim 0 (fun x => x.1), sp] else s1
      zltEvent s2 5 n lane
    | none =>
      if p.lanes.length ≤ 4 then
        (if p.st == .active then partnerLost s n 3 else modPort s n (fun q => dropLink q .detect))
      else
        let left := p.lanes.filter (fun l => l != lane)
        let s1 := modPort s n (fun q => { q with
          lanes := left, rxLanes := q.rxLanes.filter (fun l => l != lane), retraining := q.retraining ++ [lane], fails := []
          replayBuf := q.replayBuf.map (fun f => if f.lane = lane then { f with lane := left.getD (f.seq % left.length) 0 } else f) })
        zltEvent s1 6 n (p.lanes.length - 1)

/-- LANE_FAILING (R313). -/
def execLaneFailing (port lane : Nat) (s : State) : Res := .next (if portsRun s && decide (port < 16) then laneFail s port lane else s)

/-- LANE_RETRAIN_DONE (R313). -/
def execLaneRetrainDone (port lane : Nat) (pass : Bool) (s : State) : Res :=
  let p := portAt s port
  if !portsRun s || decide (16 ≤ port) || !p.retraining.contains lane then .next s
  else
    let rest := p.retraining.filter (fun l => l != lane)
    if !pass then .next (setPort s port { p with retraining := rest, outLanes := insertNew p.outLanes lane })
    else if p.lanes.length < 8 then
      .next (zltEvent (setPort s port { p with retraining := rest, lanes := insertSorted p.lanes lane, rxLanes := insertSorted p.rxLanes lane }) 7 port lane)
    else .next (setPort s port { p with retraining := rest, spare := some lane })

/- Loss (R314, R315, R336, R338). -/

/-- LOSS_OF_PARTNER (R314, R336, R338): `cause` is 1 for CRC silence, else loss of signal. -/
def execLossOfPartner (port cause : Nat) (s : State) : Res :=
  if !portsRun s || decide (16 ≤ port) then .next s
  else match (portAt s port).st with
    | .active => .next (partnerLost s port (if cause = 1 then 1 else 0))
    | .discover => .next (modPort s port (fun p => dropLink p .detect))
    | .auth => .next (modPort s port (fun p => dropLink p .detect))
    | .refused => .next (modPort s port (fun p => dropLink p .detect))
    | _ => .next s

/-- DETECT_HOLDOFF_EXPIRY (R315). -/
def execDetectHoldoffExpiry (port : Nat) (s : State) : Res :=
  .next (if clocked s && decide (port < 16) then modPort s port (fun p => { p with holdoff := false }) else s)

/- Flits received (R320, R323, R326 to R328, R330, R335). -/

/-- A SEQ is acknowledged by a cumulative ACK: it lies at most 4,095 behind it (R327). -/
def ackedSeq (ack seq : Nat) : Bool := decide ((ack + 8192 - seq % 8192) % 8192 < 4096)

/-- An ACK (R327): acknowledged flits leave the replay buffer, and packets that waited start. -/
def takeAck (s : State) (n ack : Nat) : State :=
  pump (modPort s n (fun p => retireKey { p with
    replayBuf := p.replayBuf.filter (fun f => !ackedSeq ack f.seq), sent := p.sent.filter (fun k => !ackedSeq ack k.last) })) n

/-- The payload bytes that a HEAD content announces (R321): READ, WACK and REFUSE carry none (log entry 29). -/
def headPayload (head : List Byte) : Nat :=
  let k := bytesAt head 12 1
  if k = 3 ∨ k = 5 ∨ k = 6 then 0 else 64 * bytesAt head 0 2

/-- The receiving key of a key phase (R331). -/
def rxKeyOf (p : Port) (kp : Bool) : LinkKey := if kp == p.rxKp then p.rxKey else p.rxOld.getD p.rxKey

/-- The IV of the packet arriving on a virtual lane (R330). -/
def rxIvOf (p : Port) (vl : Nat) : Nat := let x := tget (p.rxKp, 0) p.rxIv vl; packetIv (rxKeyOf p x.1) x.2

/-- The receiving key of the packet arriving on a virtual lane. -/
def rxKeyAt (p : Port) (vl : Nat) : LinkKey := rxKeyOf p (tget (p.rxKp, 0) p.rxIv vl).1

/-- The flits of the packet that begins with a flit (R321): its HEAD content opened says so. -/
def packetFlits (p : Port) (f : Flit) : Nat :=
  if f.kind = 1 then 1 + (headPayload (gcmBytes (rxKeyAt p f.vl).key (rxIvOf p f.vl) f.content) + 16 + 55) / 56 else 1

/-- The tag of a whole packet holds (R330). -/
def sealHolds (p : Port) (q : List Flit) : Bool :=
  let f : Flit := q.headD { seq := 0, kind := 0, vl := 0, kp := false, content := [] }
  let all := q.flatMap (fun x => x.content)
  let n := if f.kind = 1 then 56 + headPayload (gcmBytes (rxKeyAt p f.vl).key (rxIvOf p f.vl) f.content) else 40
  tagBytes (rxKeyAt p f.vl).key (rxIvOf p f.vl) (q.map (fun x => BitVec.ofNat 8 (x.kind % 8 + 8 * x.vl + 32 * b2n x.kp))) (all.take n) ==
    all.drop (all.length - 16)

/-- The buffer slots of released flits are owed back; from 32 on they are returned at once (R326). -/
def oweCredits (s : State) (n vl k : Nat) : State :=
  let o := tget 0 (portAt s n).owed vl + k
  if o < 32 then modPort s n (fun p => { p with owed := tset p.owed vl o })
  else sendLink (modPort s n (fun p => { p with owed := tset p.owed vl 0 })) n 1 [vl, o]

/-- A packet begins to arrive (R330, R331): it takes the next packet counter of its key. The first one of an inverted key phase brings
the partner's next key, and the one before it stays while packets under it arrive. -/
def beginPacket (p : Port) (f : Flit) : Port :=
  let p1 := if f.kp == p.rxKp then p else
    { p with rxOld := some p.rxKey, rxKey := p.rxNext.getD (nextKey p.rxKey), rxNext := none, rxKp := f.kp, rxPackets := 0 }
  { p1 with rxIv := tset p1.rxIv f.vl (f.kp, p1.rxPackets), rxPackets := p1.rxPackets + 1 }

/-- A whole packet has left its receive queue (R323, R331). What a delivered packet does is its own command. -/
def endPacket (p : Port) (vl : Nat) : Port :=
  let q := tset p.rxQueue vl []
  { p with rxQueue := q, rxOld := if q.any (fun e => e.2.any (fun f => f.kp != p.rxKp)) then p.rxOld else none }

/-- Lane swaps that the partner named take effect from their SEQ on (R313). -/
def applySwaps (p : Port) : Port :=
  let due (x : Nat × Nat × Nat) : Bool := decide ((p.rxSeq + 8192 - x.1 % 8192) % 8192 < 4096)
  { p with rxSwaps := p.rxSwaps.filter (fun x => !due x)
           rxLanes := (p.rxSwaps.filter due).foldl (fun l x => (enumNat l).map (fun e => if e.1 = x.2.1 then x.2.2 else e.2)) p.rxLanes }

/-- What a received LINK flit carries beside credits and NAKs, which are commands of their own (R313, R331, R332): a lane swap, the
announcement of a rekey, the partner's NONCE of a session refresh. -/
def takeLink (p : Port) : List Nat → Port
  | [3, seq, rank, lane] => applySwaps { p with rxSwaps := p.rxSwaps ++ [(seq, rank, lane)] }
  | 4 :: _ => { p with rxNext := some (nextKey p.rxKey) }
  | 5 :: nonce :: _ => { p with peerNonce := nonce % 2 ^ 256 }
  | _ => p

/-- A flit is released in SEQ order (R323, R330): the Bool says that the session has failed. -/
def releaseFlit (s : State) (n : Nat) (f : Flit) : State × Bool :=
  let p := applySwaps { portAt s n with rxSeq := ((portAt s n).rxSeq + 1) % 8192 }
  if f.kind = 4 then (setPort s n (takeLink p f.link), false)
  else
    let q := tget [] p.rxQueue f.vl
    if (if f.kind = 2 then q.isEmpty else !q.isEmpty) then (setPort s n p, true)
    else
      let p1 := if f.kind = 2 then p else beginPacket p f
      let q1 := q ++ [f]
      let s2 := setPort s n { p1 with rxQueue := tset p1.rxQueue f.vl q1 }
      if q1.length < packetFlits p1 (q1.headD f) then (s2, false)
      else if !sealHolds p1 q1 then (s2, true)
      else (oweCredits (modPort s2 n (fun x => endPacket x f.vl)) n f.vl q1.length, false)

/-- Held flits follow while the next SEQ is there (R323, R328). -/
def releaseHeld (n : Nat) : Nat → State × Bool → State × Bool
  | 0, r => r
  | k + 1, (s, bad) =>
    if bad then (s, bad)
    else
      let p := portAt s n
      match p.rxHold.find? (fun f => f.seq == p.rxSeq) with
      | none => (s, false)
      | some f => releaseHeld n k (releaseFlit (setPort s n { p with rxHold := p.rxHold.filter (fun x => x.seq != f.seq) }) n f)

/-- The flit k places after a SEQ on its lane (R312, R328). -/
def alongLane (p : Port) (seq k : Nat) : Nat := (seq + k * p.rxLanes.length) % 8192

/-- The NAKs for failed flits of one lane (R328): each names its first and those up to seven places on. -/
def nakLane (n seq : Nat) : Nat → List Nat → State → State
  | 0, _, s => s
  | _, [], s => s
  | k + 1, b :: r, s =>
    let near := b :: r.filter (fun x => decide (x < b + 8))
    nakLane n seq k (r.filter (fun x => decide (b + 8 ≤ x))) (sendLink s n 2 [alongLane (portAt s n) seq b, bitMap (near.map (fun x => x - b))])

/-- Failed flits of one lane (R313, R328): NAKed; the eighth failure of one flit in a row makes its lane fail. -/
def failFlits (s : State) (n seq : Nat) (l : List Nat) : State :=
  let p := portAt s n
  let f := l.foldl (fun t k => let q := alongLane p seq k; tset t q (tget 0 t q + 1)) p.fails
  let s1 := nakLane n seq 10 l (setPort s n { p with fails := f })
  if l.any (fun k => decide (8 ≤ tget 0 f (alongLane p seq k))) then laneFail s1 n (p.rxLanes.getD (seq % p.rxLanes.length) 9) else s1

/-- The flit's codeword is uncorrectable, or made so by injection (R432 kind 6), which is used up: counted (R340). -/
def badCodeword (s : State) (n : Nat) (f : FlitIn) : State × Bool :=
  let hit := s.flt.armed.contains (6, n)
  if !f.uncorrectable && !hit then (s, false)
  else
    let s1 := if f.uncorrectable then s else { s with flt := { s.flt with armed := s.flt.armed.filter (fun x => x != (6, n)) } }
    (modPort s1 n (fun p => { p with uncorr := satInc 16 p.uncorr }), true)

/-- The CRC of a received flit holds (R319). -/
def crcHolds (b : List Byte) : Bool := b.length == 64 && bytesAt b 60 4 == crc32c (b.take 60)

/-- The flit that 64 bytes are (R319, R320), and its ACK. -/
def flitIn (f : FlitIn) : Flit × Nat :=
  let h := bytesAt f.bytes 0 4
  ({ seq := h / 64 % 8192, kind := h % 8, vl := h / 8 % 4, kp := h.testBit 5, content := (f.bytes.drop 4).take 56, link := f.link }, h / 2 ^ 19)

/-- A flit that arrived whole (R320, R323, R326, R327, R338): its ACK is taken; it is released, held or dropped as a duplicate. -/
def acceptFlit (s : State) (port : Nat) (f : FlitIn) : State :=
  let (g, ack) := flitIn f
  let s1 := modPort (takeAck s port ack) port (fun p => { p with fails := tdel p.fails g.seq })
  let packet := decide (1 ≤ g.kind) && decide (g.kind ≤ 3)
  if g.kind = 0 ∨ 4 < g.kind ∨ (packet ∧ g.vl = 3) then s1
  else
    let s2 := if packet && g.vl == 0 then modPort s1 port (fun p => noteVl0 p s.ticks 1 true) else s1
    let p := portAt s2 port
    let ahead := (g.seq + 8192 - p.rxSeq) % 8192
    if ahead = 0 then
      let (s3, bad) := releaseHeld port (p.rxHold.length + 1) (releaseFlit s2 port g)
      if bad then partnerLost s3 port (if f.signal then 2 else 0) else s3
    else if ahead < 4096 ∧ !p.rxHold.any (fun x => x.seq == g.seq) then setPort s2 port { p with rxHold := p.rxHold ++ [g] }
    else s2

/-- FLIT_RECEIVE (R319, R320, R323, R326 to R330): a flit in an uncorrectable codeword fails with the ten of the codeword. -/
def execFlitReceive (port : Nat) (f : FlitIn) (s : State) : Res :=
  if !portsRun s || decide (16 ≤ port) || (portAt s port).st != .active then .next s
  else
    let (s1, spoilt) := badCodeword (modPort s port (fun p => { p with ceSym := satAdd 32 p.ceSym f.corrected })) port f
    if spoilt then .next (failFlits s1 port (f.slot % 8192) (List.range 10))
    else if !crcHolds f.bytes then .next (failFlits s1 port (f.slot % 8192) (0 :: (bitsOf 8 f.along).filter (fun k => k != 0)))
    else .next (acceptFlit s1 port f)

/-- NAK (R312, R328, R340): every named flit that is still kept is resent as stored but for ACK, on the lane that first carried it. -/
def execNak (port base mask : Nat) (s : State) : Res :=
  let p := portAt s port
  if !portsRun s || decide (16 ≤ port) || p.st != .active then .next s
  else
    let names := ((List.range 8).filter (fun k => k == 0 || mask.testBit k)).map (fun k => (base + k * p.lanes.length) % 8192)
    let again := names.filterMap (fun q => p.replayBuf.find? (fun f => f.seq == q))
    let urgent := (again.filter (fun f => f.vl == 0 && f.kind != 4)).length
    let q := { p with replays := satAdd 16 p.replays again.length }
    .next (again.foldl (emitFlit port) (setPort s port (if urgent = 0 then q else noteVl0 q s.ticks urgent false)))

/-- CREDIT_RETURN (R326). -/
def execCreditReturn (port vl credits : Nat) (s : State) : Res :=
  if !portsRun s || decide (16 ≤ port) || decide (3 ≤ vl) || (portAt s port).st != .active then .next s
  else .next (pump (modPort s port (fun p => { p with credits := tset p.credits vl (min (creditCap vl) (tget 0 p.credits vl + credits)) })) port)

/-- CREDIT_RETURN_TIMER (R326): 256 ns after credit became owed. -/
def execCreditReturnTimer (port vl : Nat) (s : State) : Res :=
  let o := tget 0 (portAt s port).owed vl
  if !portsRun s || decide (16 ≤ port) || (portAt s port).st != .active || o = 0 then .next s
  else .next (sendLink (modPort s port (fun p => { p with owed := tset p.owed vl 0 })) port 1 [vl, o])

/- Rekeying (R331, R338). -/

/-- REKEY (R331): the next key is derived from the rekey secret and announced. -/
def execRekey (port : Nat) (s : State) : Res :=
  let p := portAt s port
  if !portsRun s || decide (16 ≤ port) || p.st != .active || p.rekeying || p.keysLive != 1 || decide (p.keyFlits < 2 ^ 32 - 2 ^ 24) then .next s
  else .next (sendLink (setPort s port { p with rekeying := true, keysLive := 2 }) port 4 [p.txKey.index + 1])

/-- REKEY_ACKNOWLEDGED (R331): new packets go with KP inverted under the next key. -/
def execRekeyAcknowledged (port : Nat) (s : State) : Res :=
  let p := portAt s port
  if !portsRun s || decide (16 ≤ port) || p.st != .active || !p.rekeying then .next s
  else .next (pump (setPort s port (retireKey { p with
    rekeying := false, kp := !p.kp, keyFlits := 0, packets := 0, txKey := nextKey p.txKey })) port)

end Sys2Proof.Machine
end

