-- ==== Sys2Proof/Machine/Security.lean ====
section
/-! DEFINITION. Attestation (R389, R390), the key vault (R391 to R396) and sealed sessions (R403). Digests, key derivations
and signatures are the values that Config.digest gives (log entry 22). -/

namespace Sys2Proof.Machine

/- Signature blocks and evidence (R381, R390). -/

/-- The current management root (R376): the slot programmed last. -/
def mgmtRoot (s : State) : Nat := s.sec.mgmtRoots.getLastD 0

/-- Evidence bytes 385 to 386: the sources that the boot's policy permits (R388, R390). -/
def policyBits (s : State) : Nat := s.mgt.policySrc.toNat

/-- The 512 bytes of evidence (R390): `scope` 1 for a colony; `left` is LMS_LEFT after this signature. -/
def evidence (s : State) (scope colony : Nat) (nonce : List Byte) (hss : Bool) : List Byte :=
  let z := s.sec
  let c := colAt s colony
  let col (n : Nat) : Nat := if scope = 1 then n else 0
  padTo 512 (
    leBytes 4 0x56454245 ++ leBytes 2 1 ++ leBytes 1 scope ++
    leBytes 1 (b2n hss + 2 * b2n z.lmsExhausted + 4 * b2n z.lmsSpent + 8 * b2n s.flt.pctlEn + 16 * b2n (scope == 1 && c.sealSess.isSome)) ++
    leBytes 1 (lifecycle s) ++ leBytes 1 z.lcSteps ++ leBytes 1 z.fuseSvn ++ leBytes 1 z.imageSvn ++ leBytes 2 z.boots ++ leBytes 2 z.lmsLeft ++
    leBytes 48 z.idhash ++ leBytes 48 Config.romId ++ leBytes 48 z.measurement ++ leBytes 48 (z.ownerRoot.getD 0) ++ leBytes 48 (mgmtRoot s) ++
    padTo 32 nonce ++ leBytes 97 z.kaPub ++ leBytes 2 (policyBits s) ++ zeros 1 ++ leBytes 3 s.fab.faddr ++ zeros 1 ++
    leBytes 1 (col colony) ++ leBytes 1 (col c.tenant) ++ leBytes 1 (col c.cur.instar) ++ leBytes 1 (col c.keySlot) ++
    leBytes 16 (col (slotAt s c.keySlot).keyid) ++ (if scope = 1 then sha384 (mapEntryBytes c c.cur (inflightCur s colony)) else zeros 48))

/-- A signature drawn, and the evidence signed with it: the bytes, and their number (R390: 3,896 or 612). -/
def attestation (s : State) (scope colony : Nat) (nonce : List Byte) : State × List Byte :=
  let (s1, hss) := signDevice s
  let body := evidence s1 scope colony nonce hss
  (s1, body ++ signatureBlock hss body)

/-- A command still waits to start: what it drew does not count. -/
def orWait (before : State) (id : Nat) (after : State) : State :=
  match cmdAt before id, cmdAt after id with
  | some a, some b => if b.phase = a.phase ∧ b.attempts = a.attempts then before else after
  | _, _ => after

/-- ATTEST (R150, R152, R389, R390): it waits for the lower tree. On a VF ring SCOPE is 1. -/
def execAttest (cmd : Nat) (s : State) : Res :=
  .next (direct s cmd 0x60 (fun c =>
    if !treeReady s then s
    else
      let scope := if c.page = 0 then c.byte 16 1 % 2 else 1
      let (s1, ev) := attestation s scope c.colony ((c.pkt.drop 32).take 32)
      orWait s cmd (writeReport s1 cmd c 24 (padTo 4096 ev) ev.length)))

/- The vault (R391 to R396). -/

/-- A colony whose lines lie under a memory key slot (R203, R391). -/
def underSlot (s : State) (n colony : Nat) : Bool := (colAt s colony).keySlot == n && (colAt s colony).st != .free

/-- Lines and blocks queued under a slot (SEC.SLOT.INFLIGHT, R392). Of a memory key: the requests of its colonies' cores, those
that wait at slices, and the copy engines at work for them. Of a model key: the sealed movements that run under it. -/
def slotInflight (s : State) (n : Nat) : Nat :=
  let k := slotAt s n
  if k.kind = 0 then
    (s.cores.map (fun e => (e.2.tags.filter (fun t => underSlot s n t.colony)).length)).sum +
    (s.chans.map (fun e => ((waitingStamps e.2).filter (fun r => underSlot s n r.colony)).length)).sum +
    ((List.range 16).filter (fun e => ((engineAt s e).cmd.bind (cmdAt s)).any (fun c => underSlot s n c.colony))).length
  else (s.cmds.filter (fun e => (e.2.op == 0x22 || e.2.op == 0x23) && e.2.slot == n && e.2.phase == .running)).length

/-- KEY_LOAD's packet fields (R150). -/
def Cmd.keyKind (c : Cmd) : Nat := c.byte 17 1 % 2
def Cmd.keyTenant (c : Cmd) : Nat := c.byte 18 1 % 64
def Cmd.keySlotNo (c : Cmd) : Nat := c.byte 16 1 % 128

/-- A blob's form (R393): the first of its refusals, BAD_PACKET. -/
def blobOk (c : Cmd) (b : List Byte) : Bool :=
  let f := bytesAt b 6 1
  bytesAt b 0 4 == 0x424B4245 && bytesAt b 4 2 == 1 && ((f == 0 && c.byte 32 2 == 64) || (f == 1 && c.byte 32 2 == 224)) &&
  bytesAt b 7 1 == c.keyKind && bytesAt b 8 1 == c.keyTenant && zeroAt b 9 7 && zeroAt b 32 32 && (f == 0 || zeroAt b 161 3)

/-- A tenant holds a memory key slot that is not EMPTY (R391). -/
def holdsMemoryKey (s : State) (tenant : Nat) : Bool := s.sec.slots.any (fun e => e.2.st != .empty && e.2.kind == 0 && e.2.tenant == tenant)

/-- A VF ring's command may use a slot (R392, R393). -/
def vfSlotOk (s : State) (c : Cmd) (kind tenant : Nat) : Bool :=
  c.page == 0 || (kind == 1 && tenant == (colAt s c.colony).tenant && (slotAt s c.keySlotNo).assign == c.colony)

/-- KEY_LOAD is permitted (R377, R393). -/
def keyLoadOk (s : State) (c : Cmd) (b : List Byte) : Bool :=
  (slotAt s c.keySlotNo).st == .empty && lifecycle s != 2 && !(c.keyKind == 0 && holdsMemoryKey s c.keyTenant) &&
  !(bytesAt b 6 1 == 0 && c.keyKind == 1) && vfSlotOk s c c.keyKind c.keyTenant

/-- A slot without its key; its assignment stands (R392, R406). -/
def emptySlot (k : Slot) : Slot := { assign := k.assign }

/-- The slot that a KEY_LOAD is filling (R392). -/
def loadingSlot (s : State) (cmd : Nat) : Option Nat :=
  (s.sec.slots.find? (fun e => e.2.st == .loading && e.2.cmd == some cmd)).map (fun e => e.1)

/-- A load ends (R392): ACTIVE with its key, or EMPTY on a tag failure of a wrapped blob; the KEY_LOAD ends with it. -/
def endLoad (s : State) (cmd n : Nat) : State :=
  let live := (cmdAt s cmd).any (fun c => !c.finished)
  if (slotAt s n).wrapped && !(slotAt s n).wrapOk then
    let s1 := modSlot s n emptySlot
    if live then bonorFault s1 cmd 0x04 0x05 0 else s1
  else
    let s1 := modSlot s n (fun k => { k with st := .active, cmd := none, wrapped := false, wrapOk := false })
    if live then completeOk s1 cmd 0 else s1

/-- The key-encryption key of a blob (R394): from ECDH between the boot's private key and EPUB, with IDHASH as salt (log entry 22). -/
def wrapKey (s : State) (b : List Byte) : BitVec 256 :=
  BitVec.ofNat 256 (Config.digest 21 (leBytes 48 s.sec.kaPriv ++ (b.drop 64).take 97 ++ leBytes 48 s.sec.idhash))

/-- The key of a wrapped blob, and whether its tag holds (R393, R394). -/
def unwrap (s : State) (b : List Byte) : BitVec 256 × Bool :=
  let k := wrapKey s b
  let iv := bytesAt b 164 12
  let w := (b.drop 176).take 32
  (BitVec.ofNat 256 (leNat (gcmBytes k iv w)), tagBytes k iv (b.take 64) w == (b.drop 208).take 16)

/-- KEY_LOAD (R150, R377, R392 to R394). Accepted, it makes its slot LOADING with the key that the blob wraps or that the random source
gives, a free value (log entry 4), and waits; the row's second event on the same command ends the load, whatever became of the command
meanwhile. `blob` is what a host read of SRC gives, none for an error. -/
def execKeyLoad (cmd : Nat) (blob : Option (List Byte)) (s : State) : Res :=
  match loadingSlot s cmd with
  | some slot => .next (if serving s then endLoad s cmd slot else s)
  | none => .next (direct s cmd 0x61 (fun c =>
    let n := c.byte 32 2
    match srcRead s c 24 n blob with
    | .error e => vaFault (modCmd s cmd (fun x => { x with attempts := 1 })) cmd e
    | .ok (s, b) =>
      if !blobOk c b then refuseCmd s cmd 0x0A 0 0
      else if !keyLoadOk s c b then refuseCmd s cmd 0x0B 0 0
      else
        let wrapped := bytesAt b 6 1 == 1
        let (r, s1) := if wrapped then (0, s) else drawFree s
        let (key, ok) := if wrapped then unwrap s b else (BitVec.ofNat 256 r, false)
        modSlot (waitIn s1 cmd) c.keySlotNo (fun k => { k with
          st := .loading, kind := c.keyKind, tenant := c.keyTenant, key := key, keyid := bytesAt b 16 16, stores := 0
          cmd := some cmd, wrapped := wrapped, wrapOk := ok })))

/-- What a slot's retirement or failure does to its users (R391, R395 step 2): teardown of the colonies of a memory key, the
end of the sealed movements of a model key; the lines squashed are counted (R395 step 3). -/
def retireUsers (s : State) (n : Nat) : State :=
  let before := slotInflight s n
  let s1 :=
    if (slotAt s n).kind = 0 then
      s.cols.foldl (fun t e =>
        let c := colAt t e.1
        if c.keySlot = n ∧ c.st ≠ .free ∧ c.st ≠ .teardown then startTeardown t e.1 none else t) s
    else
      s.cmds.foldl (fun t e => match cmdAt t e.1 with
        | some c => if (c.op = 0x22 ∨ c.op = 0x23) ∧ c.slot = n ∧ (c.phase = .running ∨ c.phase = .killing) then abortCmd t e.1 0x0B else t
        | none => t) s
  { s1 with sec := { s1.sec with squashed := satAdd 32 s1.sec.squashed (before - slotInflight s1 n) } }

/-- KEY_RETIRE (R392, R395 steps 1 and 2, R396). -/
def execKeyRetire (cmd : Nat) (s : State) : Res :=
  .next (direct s cmd 0x62 (fun c =>
    let n := c.keySlotNo
    let k := slotAt s n
    if k.st != .active || k.kind != c.keyKind || !vfSlotOk s c k.kind k.tenant then refuseCmd s cmd 0x0B 0 0
    else settleColonies (retireUsers (modSlot (waitIn s cmd) n (fun x => { x with st := .retiring, cmd := some cmd })) n)))

/-- KEY_ZEROISE (R392, R395 step 5). -/
def execKeyZeroise (slot : Nat) (s : State) : Res :=
  let k := slotAt s slot
  if !serving s || k.st != .retiring || slotInflight s slot != 0 then .next s
  else
    let s1 := modSlot s slot emptySlot
    .next (match k.cmd with
      | some id => completeOk s1 id 0
      | none => s1)

/-- KEY_SLOT_CHECK_FAIL (R391, R392, R415): a spare takes the slot over with its key; without one the slot is FAILED, its users
are handled as for a retirement, and a KEY_RETIRE under way on it is refused as on a FAILED slot. -/
def execKeySlotCheckFail (slot : Nat) (s : State) : Res :=
  let k := slotAt s slot
  if !clocked s || decide (128 ≤ slot) || k.st == .failed then .next s
  else if 0 < s.sec.spares then
    .next (recordFault { s with sec := { s.sec with spares := s.sec.spares - 1 } } (blankRec 0x24 0 (.slot slot) 0)).1
  else
    let s1 := fenceFault s 0x24 (.slot slot) 0 0
    let s2 := if k.st = .active then retireUsers s1 slot else s1
    .next (settleColonies (match k.cmd with
      | some id => refuseCmd s2 id 0x0B 0 0
      | none => s2))

/- Sealed sessions (R403). -/

/-- A host blob of SEAL_SESSION (R403). -/
def hostBlobOk (b : List Byte) : Bool := bytesAt b 0 4 == 0x53534245 && bytesAt b 4 2 == 1 && zeroAt b 6 10 && zeroAt b 145 15

/-- The 160 bytes of the device blob before its signature (R403). -/
def deviceBlob (s : State) (colony pub : Nat) : List Byte :=
  leBytes 4 0x44534245 ++ leBytes 2 1 ++ leBytes 1 colony ++ zeros 1 ++ leBytes 48 s.sec.idhash ++ leBytes 97 pub ++ zeros 7

/-- SEAL_SESSION (R150, R152, R384, R403): `blob` is what a host read of SRC gives. The device's ephemeral key is fresh (log entry
4); the session's counters begin at 0 (log entry 27); a malformed blob ends it BAD_PACKET (log entry 27). -/
def execSealSession (cmd : Nat) (blob : Option (List Byte)) (s : State) : Res :=
  .next (direct s cmd 0x63 (fun c =>
    if !treeReady s then s
    else
      match srcRead s c 24 160 blob with
      | .error e => vaFault (modCmd s cmd (fun x => { x with attempts := 1 })) cmd e
      | .ok (s, b) =>
        if !hostBlobOk b then refuseCmd s cmd 0x0A 0 0
        else
          let (r, s0) := drawFree s
          let (s1, hss) := signDevice s0
          let dev := deviceBlob s1 c.colony (Config.digest 14 (leBytes 32 r))
          let out := padTo 3544 (dev ++ signatureBlock hss (b ++ dev))
          let k (d : Nat) : BitVec 256 := BitVec.ofNat 256 (Config.digest (15 + d) (leBytes 32 r ++ b))
          let s2 := modCol s1 c.colony (fun x => { x with sealSess := some (0, 1), sealKey := k 0, sealKeyOut := k 1 })
          orWait s cmd (writeReport s2 cmd c 32 out 0)))

end Sys2Proof.Machine
end

