-- ==== Sys2Proof/Machine/Fabric.lean ====
section
/-! DEFINITION. The fabric below collectives and handoff: the fabric address (R341), windows (R350 to R355), transit (R344,
R345), the arrival of messages with their memory of duplicates (R349), REVOKE and RETIRE (R354), peer aborts (R364), and
retransmission (R346). -/

namespace Sys2Proof.Machine

/-- FABRIC_ADDRESS_WRITE: a write of FAB.ID (R341, R370): the first non-zero one holds; the reserved address is ignored. -/
def execFabricAddressWrite (value : Word) (s : State) : Res :=
  let a := field value 23 0
  .next (if pfWrites s && s.fab.faddr == 0 && a != 0xFFFFFF then { s with fab := { s.fab with faddr := a } } else s)

/- Windows (R350, R351). -/

/-- The 32 bytes of a window entry (R350). -/
def windowBytes (w : Window) : List Byte :=
  leBytes 8 w.base ++ leBytes 8 w.len ++ leBytes 3 w.sfaddr ++ leBytes 1 w.scol ++ leBytes 1 w.colony ++
  leBytes 1 (b2n w.rd + 2 * b2n w.wr + 4 * b2n w.add + 8 * b2n w.bar) ++ leBytes 1 w.cls ++ leBytes 1 w.rmark ++ leBytes 2 w.job ++
  leBytes 2 (b2n w.valid + 2 * b2n w.revoking) ++ leBytes 4 w.sboot

/-- The entry that 32 bytes spell. -/
def windowOf (b : List Byte) : Window :=
  let f := bytesAt b 21 1
  let v := bytesAt b 26 2
  { base := bytesAt b 0 8, len := bytesAt b 8 8, sfaddr := bytesAt b 16 3, scol := bytesAt b 19 1, colony := bytesAt b 20 1
    rd := f.testBit 0, wr := f.testBit 1, add := f.testBit 2, bar := f.testBit 3, cls := bytesAt b 22 1, rmark := bytesAt b 23 1
    job := bytesAt b 24 2, valid := v.testBit 0, revoking := v.testBit 1, sboot := bytesAt b 28 4 }

/-- R351's refusals that concern the bytes: reserved bits, LEN, SFADDR, colonies, permissions, SBOOT. -/
def windowOk (b : List Byte) : Bool :=
  let w := windowOf b
  decide (w.base < 2 ^ 48) && w.base % 64 == 0 && w.len % 64 == 0 && w.len != 0 && decide (w.len ≤ 2 ^ 40) && w.sfaddr != 0 &&
  colonyWf w.scol && colonyWf w.colony && decide (bytesAt b 21 1 < 16) && bytesAt b 21 1 != 0 && decide (w.cls < 8) &&
  decide (bytesAt b 26 2 < 2) && w.sboot != 0

/-- FAB.WDATA as 32 bytes (R370). -/
def wdataBytes (s : State) : List Byte := (List.range 4).flatMap (fun k => leBytes 8 (tget (0 : Word) s.fab.wdata k).toNat)

/-- Peer-set entries held for all colonies: a device that a colony's set holds takes one (R353). -/
def peerEntries (s : State) : Nat := (s.cols.map (fun e => (sortNat ((peerSet s e.1).map (fun p => p.1))).length)).sum

/-- A colony whose set needs an entry for a device when they are full is marked peer-set-all (R353). -/
def needPeer (s : State) (colony faddr : Nat) : State :=
  if (peerSet s colony).any (fun p => p.1 == faddr) || decide (peerEntries s < 4096) then s
  else modCol s colony (fun c => { c with peersAll := true })

/-- A colony names a peer for a job group (R353). -/
def addPeer (s : State) (colony faddr job : Nat) : State :=
  let s1 := needPeer s colony faddr
  if (peerSet s1 colony).contains (faddr, job) || (!(peerSet s1 colony).any (fun p => p.1 == faddr) && decide (4096 ≤ peerEntries s1)) then s1
  else modCol s1 colony (fun c => { c with peers := c.peers ++ [(faddr, job)] })

/-- WINDOW_WRITE: FAB.WCMD.WRITE (R350, R351, R353, R370). -/
def execWindowWrite (s : State) : Res :=
  if !pfWrites s then .next s
  else
    let b := wdataBytes s
    let busy := match tfind s.fab.windows s.fab.wsel with | some w => w.valid || w.revoking | none => false
    if busy || !windowOk b then .next { s with fab := { s.fab with wReject := true } }
    else
      let w := windowOf b
      let s1 := if w.valid then needPeer s w.colony w.sfaddr else s
      .next { s1 with fab := { s1.fab with windows := tset s1.fab.windows s1.fab.wsel w } }

/-- WINDOW_READ: FAB.WCMD.READ (R370): an entry never written reads as the zeros of the wipe. -/
def execWindowRead (s : State) : Res :=
  if !pfWrites s then .next s
  else
    let b := match tfind s.fab.windows s.fab.wsel with | some w => windowBytes w | none => zeros 32
    .next { s with fab := { s.fab with wdata := (List.range 4).map (fun k => (k, BitVec.ofNat 64 (bytesAt b (8 * k) 8))) } }

/-- Windows that meet a test are revoked (R354): arrivals already past the checks have landed, so VALID clears at once. -/
def revokeWhere (s : State) (p : Nat → Window → Bool) : State :=
  { s with fab := { s.fab with windows := s.fab.windows.map (fun e => if p e.1 e.2 then (e.1, { e.2 with valid := false, revoking := false }) else e) } }

/-- WINDOW_REVOKE: FAB.WCMD.REVOKE (R354, R370). -/
def execWindowRevoke (s : State) : Res := .next (if pfWrites s then revokeWhere s (fun i _ => i == s.fab.wsel) else s)

/- Transit (R343 to R345). -/

/-- A packet or message from `src` to this device arrives by a port, or as 16 from the device itself (R341, R342). -/
def arrives (s : State) (port dst src : Nat) : Bool :=
  serving s && s.fab.faddr != 0 && dst == s.fab.faddr &&
  (if port < 16 then (portAt s port).st == .active else src == s.fab.faddr)

/-- The bond of a port has delivered a BSEQ within the last 32,768 packets (R335). -/
def repeated (s : State) (port bseq : Nat) : Bool := decide (port < 16) && List.contains (tget [] s.zlt.delivered (bondKey s port)) bseq

/-- A bulk packet is delivered: its BSEQ is kept (R335). -/
def noteDelivered (s : State) (port bseq : Nat) : State :=
  if 16 ≤ port then s
  else
    let key := bondKey s port
    { s with zlt := { s.zlt with delivered := tset s.zlt.delivered key ((bseq :: tget [] s.zlt.delivered key).take 32768) } }

/-- A bulk packet arrives for this device and is delivered: the state then; none where it is not for it, or a repetition (R335, R341). -/
def bulkArrives (s : State) (port : Nat) (h : FabHeader) : Option State :=
  if arrives s port h.dst h.src && !repeated s port h.bseq then some (noteDelivered s port h.bseq) else none

/-- Destination, source, job group and TTL of a transit packet. -/
def transitPath : Transit → Nat × Nat × Nat × Nat
  | .bulk _ _ h _ => (h.dst, h.src, h.job, h.ttl)
  | .control _ h _ => (h.dst, h.src, h.job, h.ttl)

/-- A transit packet joins a port's queue with its TTL one less (R344, R345). -/
def forward (s : State) (n : Nat) : Transit → State
  | .bulk cls kind h data =>
    queuePacket s n cls true true (1 + dataFlits (if kind = 3 then 0 else data.length / 64)) (.packet n kind { h with ttl := h.ttl - 1 } data)
  | .control mtype h body => queuePacket s n 0 false true 1 (.message n mtype { h with ttl := h.ttl - 1 } body)

/-- The virtual lane of a transit packet (R322). -/
def transitLane : Transit → Nat
  | .bulk cls _ _ _ => laneOf cls
  | .control _ _ _ => 0

/-- The transit packet as the port delivers it: a bulk packet once (R335). -/
def transitArrives (s : State) (port : Nat) : Transit → Option State
  | .bulk _ _ h _ => if repeated s port h.bseq then none else some (noteDelivered s port h.bseq)
  | .control _ _ _ => some s

/-- TRANSIT_FORWARD (R341, R343 to R345). -/
def execTransitForward (inPort : Nat) (packet : Transit) (s : State) : Res :=
  let (dst, src, job, ttl) := transitPath packet
  if !serving s || s.fab.faddr == 0 || dst == s.fab.faddr || decide (16 ≤ inPort) || (portAt s inPort).st != .active then .next s
  else match transitArrives s inPort packet with
    | none => .next s
    | some s1 =>
      if ttl ≤ 1 then .next { s1 with fab := { s1.fab with dropTtl := satInc 16 s1.fab.dropTtl } }
      else match route s1 0 (transitLane packet) src dst job with
        | .port n => .next (forward s1 n packet)
        | _ => .next { s1 with fab := { s1.fab with dropNoRoute := satInc 16 s1.fab.dropNoRoute } }

/- The checks of arrivals (R352). -/

/-- R352's first four rows for an arrival: the window, or the status; what they count is counted. -/
def windowCheck (s : State) (src scol instar job boottag widx : Nat) (perm : Window → Bool) : State × Except Nat Window :=
  let refuse : State × Except Nat Window := ({ s with fab := { s.fab with dropRefused := satInc 16 s.fab.dropRefused } }, .error 0x04)
  match tfind s.fab.windows widx with
  | none => refuse
  | some w =>
    if !w.valid || w.revoking || src != w.sfaddr || scol != w.scol || (w.job != 0 && w.job != job) then refuse
    else
      let age := (instar + 256 - w.rmark % 256) % 256
      if !(decide (1 ≤ age) && decide (age ≤ 127)) || boottag != w.sboot then
        (countStale { s with fab := { s.fab with dropStale := satInc 16 s.fab.dropStale } } w.colony, .error 0x0D)
      else if !perm w then (s, .error 0x04)
      else (s, .ok w)

/-- A byte range lies within a window's region (R352). -/
def inWindow (w : Window) (va len : Nat) : Bool := decide (w.base ≤ va) && decide (va + len ≤ w.base + w.len)

/-- The local colony of a window takes arrivals: ACTIVE, its memory key slot not RETIRING (R352). -/
def windowServed (s : State) (w : Window) : Bool := (colAt s w.colony).st == .active && (slotAt s (colAt s w.colony).keySlot).st != .retiring

/- Messages (R345, R346, R348, R349). -/

/-- The fabric timeout in µs (R346, FAB.TMO). -/
def fabricTimeout (s : State) : Nat := 1000 + 2 * s.fab.diameter * s.fab.hoptime

/-- What was answered to a message within the last fabric timeout (R349). -/
def answered (s : State) (src mseq : Nat) : Option (Nat × Nat) :=
  (s.fab.seen.find? (fun x => x.1 == src && x.2.1 == mseq && decide (s.ticks ≤ x.2.2.2.2 + ticksOfUs (fabricTimeout s)))).map
    (fun x => (x.2.2.1, x.2.2.2.1))

/-- The message's answer is remembered; what is older than the timeout is forgotten (R349). -/
def remember (s : State) (src mseq rtype value : Nat) : State :=
  let young := s.fab.seen.filter (fun x => decide (s.ticks ≤ x.2.2.2.2 + ticksOfUs (fabricTimeout s)))
  { s with fab := { s.fab with seen := [(src, mseq, rtype, value, s.ticks)] ++ young } }

/-- An ACK, a device message (R348). -/
def sendAck (s : State) (m : CtlHeader) (status : Nat) : State := sendMsg s 5 m.src 0 0 m.job [m.mseq, status] none

/-- A message is acted on and acknowledged with a status (R349). -/
def acked (s : State) (m : CtlHeader) (status : Nat) : State := sendAck (remember s m.src m.mseq 5 status) m status

/-- A message refused for want of a record is not acted on (R348, R365). -/
def sendBusy (s : State) (m : CtlHeader) : State := sendMsg s 6 m.src 0 0 m.job [m.mseq] none

/-- A message is acted on once; a duplicate is answered as before (R349). `again` answers other types than ACK. -/
def once (s : State) (port : Nat) (m : CtlHeader) (again : Nat → State) (act : State → State) : State :=
  if !arrives s port m.dst m.src then s
  else match answered s m.src m.mseq with
    | some (t, v) => if t = 5 then sendAck s m v else again v
    | none => act s

/-- REVOKE (R354): every entry that names the sender and its colony. -/
def execRevoke (port : Nat) (m : CtlHeader) (s : State) : Res :=
  .next (once s port m (fun _ => s) (fun t => acked (revokeWhere t (fun _ w => w.sfaddr == m.src && w.scol == m.scol)) m 0))

/-- A retired mark moves on (R201, R354). -/
def retireMark (w : Window) (value : Nat) : Window :=
  let d := (value + 256 - w.rmark % 256) % 256
  if 1 ≤ d ∧ d ≤ 127 then { w with rmark := value % 256 } else w

/-- INSTAR_RETIRE (R354, R355): entries of the sender, its colony and its present boot. -/
def execInstarRetire (port : Nat) (m : CtlHeader) (value boottag : Nat) (s : State) : Res :=
  .next (once s port m (fun _ => s) (fun t =>
    acked { t with fab := { t.fab with windows := t.fab.windows.map (fun e =>
      if e.2.sfaddr == m.src && e.2.scol == m.scol && e.2.sboot == boottag then (e.1, retireMark e.2 value) else e) } } m 0))

/-- The colonies whose peer set contains a device (R364); one marked peer-set-all counts (R353). -/
def coloniesOf (s : State) (faddr : Nat) : List Nat :=
  (s.cols.filter (fun e => e.2.peersAll || (peerSet s e.1).any (fun p => p.1 == faddr))).map (fun e => e.1)

/-- An abort acts (R364 steps 1 to 3): the commands of the group end, the group is marked, the abort is forwarded. -/
def actAbort (s : State) (m : CtlHeader) (aseq cause origin : Nat) : State :=
  let cols := coloniesOf s m.src
  let s1 := { s with fab := { s.fab with aborts := s.fab.aborts ++ [(origin, aseq)], received := wrapAdd 32 s.fab.received 1 } }
  let s2 := cols.foldl (fun t c => modCol t c (fun x => { x with aborted := insertNew x.aborted m.job })) s1
  let s3 := (sortNat (cols.flatMap (fun c => peersFor s c m.job))).foldl (fun t d => sendMsg t 2 d 0 0 m.job [aseq, cause, origin] none) s2
  endJob s3 cols m.job s3.nextCmd none

/-- PEER_ABORT (R349, R364): one that this device raised or has seen is only acknowledged. -/
def execPeerAbort (port : Nat) (m : CtlHeader) (aseq cause origin : Nat) (s : State) : Res :=
  .next (once s port m (fun _ => s) (fun t =>
    settleColonies (acked (if origin == t.fab.faddr || t.fab.aborts.contains (origin, aseq) || m.job == 0 then t else actAbort t m aseq cause origin) m 0)))

/-- CONTROL_RETRANSMIT (R346, R359): an unacknowledged message goes out again as it was. -/
def execControlRetransmit (mseq : Nat) (s : State) : Res :=
  match s.fab.unacked.find? (fun x => x.mseq == mseq && !x.acked) with
  | some x =>
    .next (if serving s then
      putMsg { s with fab := { s.fab with unacked := s.fab.unacked.map (fun y => if y.mseq = x.mseq then { y with busy := false } else y) } }
        x.mtype { dst := x.dst, src := s.fab.faddr, ttl := s.fab.diameter, scol := x.scol, instar := x.instar, job := x.job, mseq := x.mseq } x.body
    else s)
  | none => .next s

end Sys2Proof.Machine
end

