-- ==== Sys2Proof/Machine/Scratch.lean ====
section
/-! DEFINITION. Scratchpad loads and stores: LDS, STS, VLD, VST (R21, R27, R79, R80, R112). -/

namespace Sys2Proof.Machine

/-- The bytes of a range lie within the scratchpad (R21). -/
def spInside (off len : Nat) : Bool := decide (off + len ≤ spTop)

/-- A value read from `len` bytes, sign-extended where X is set (R79). -/
def loaded (w : Word) (bs : List Byte) : Word :=
  if fX w then toWord (sext (leNat bs) (8 * bs.length)) else BitVec.ofNat 64 (leNat bs)

/-- LDS (R79). -/
def execLds (core : Nat) (w : Word) (e : Sram) (s : State) : Res :=
  .next (issue s core 0x40 w (fun c =>
    let a := effAddr c w
    let k := fWidth w
    if !spInside a k then rangeFault s core c.pc w
    else if a % k ≠ 0 then accessFault s core c.pc w
    else if interlocked (queued c) [(a, k)] [] then s
    else
      let (s1, ok) := spRead s core a e.sp c.pc
      if ok then
        let c1 := coreAt s1 core
        retire s1 core (setSreg c1 (fD w) (loaded w (mread c1.sp a k)))
      else s1))

/-- STS (R79). -/
def execSts (core : Nat) (w : Word) (s : State) : Res :=
  .next (issue s core 0x41 w (fun c =>
    let a := effAddr c w
    let k := fWidth w
    if !spInside a k then rangeFault s core c.pc w
    else if a % k ≠ 0 then accessFault s core c.pc w
    else if interlocked (queued c) [] [(a, k)] then s
    else retire s core { c with sp := mwrite c.sp a (leBytes k (sreg c (fD w)).toNat) }))

/-- The sixteen lines of a format V access (R80). -/
def vecLines (c : Core) (w : Word) : List Nat := (List.range 16).map (fun k => vecBase c w + 64 * fStr w * k)

/-- The sixteen 32-bit lanes of a scratchpad line. -/
def lineLanes (sp : List Host.Cell) (a : Nat) : List Lane :=
  (List.range 16).map (fun i => BitVec.ofNat 32 (leNat (mread sp (a + 4 * i) 4)))

/-- VLD (R80). -/
def execVld (core : Nat) (w : Word) (e : Sram) (s : State) : Res :=
  .next (issue s core 0x44 w (fun c =>
    let ls := vecLines c w
    if ls.any (fun a => !spInside a 64) then rangeFault s core c.pc w
    else if vecBase c w % 64 ≠ 0 then accessFault s core c.pc w
    else if vPending c (fD w) || vReadPending c (fD w) then s
    else if interlocked (queued c) (ls.map (fun a => (a, 64))) [] then s
    else
      let (s1, ok) := spRead s core (vecBase c w) e.sp c.pc
      if ok then
        let c1 := coreAt s1 core
        retire s1 core (setVreg c1 (fD w) (ls.flatMap (lineLanes c1.sp)))
      else s1))

/-- A vector register stored line by line. -/
def storeLines (sp : List Host.Cell) : List Nat → List Lane → List Host.Cell
  | [], _ => sp
  | a :: r, l => storeLines (mwrite sp a ((l.take 16).flatMap (fun x => leBytes 4 x.toNat))) r (l.drop 16)

/-- VST (R80). -/
def execVst (core : Nat) (w : Word) (s : State) : Res :=
  .next (issue s core 0x45 w (fun c =>
    let ls := vecLines c w
    if ls.any (fun a => !spInside a 64) then rangeFault s core c.pc w
    else if vecBase c w % 64 ≠ 0 then accessFault s core c.pc w
    else if vPending c (fD w) then s
    else if interlocked (queued c) [] (ls.map (fun a => (a, 64))) then s
    else retire s core { c with sp := storeLines c.sp ls (vreg c (fD w)) }))

end Sys2Proof.Machine
end

