-- ==== Sys2Proof/Machine/Matrix.lean ====
section
/-! DEFINITION. Accumulators and the matrix unit: ACC.CLR, MM, ACC.RAW, ACC.EXP, ACC.WR and their dispatch (R44 to R62,
R91, R92, R100 to R111, R121, R122). -/

namespace Sys2Proof.Machine

/- Operands in the scratchpad (R42, R44, R100 to R102). -/

/-- The value of an element code in an operand format (R42, R103). -/
def operandVal (f code : Nat) : Val :=
  if f = 0 then decodeFp e2m1 code
  else if f = 1 then decodeFp e2m3 code
  else if f = 2 then decodeFp e4m3 code
  else if f = 3 then decodeFp e5m2 code
  else if f = 4 then decodeInt8 code
  else if f = 5 then decodeFp bf16 code
  else decodeFp fp16 code

/-- Bits per element of an operand format (R100). -/
def operandBits (f : Nat) : Nat := if f = 0 then 4 else if f = 1 then 6 else if f < 5 then 8 else 16

/-- A value times its block scale (R44). -/
def scaleVal (x : Nat) : Val → Val
  | .fin d => if x = 0xFF then .nan else .fin { d with e := d.e + (x : Int) - 127 }
  | .inf neg => if x = 0xFF then .nan else .inf neg
  | .nan => .nan

/-- The 32 element codes of a lane's little-endian field (R100). -/
def laneCodes (bits : Nat) (bs : List Byte) : List Nat :=
  let v := leNat bs
  (List.range 32).map (fun e => (v >>> (bits * e)) % 2 ^ bits)

/-- The 32 values of lane l in a dense block at `base` (R100). -/
def denseLane (sp : List Host.Cell) (f base l : Nat) : List Val :=
  let n := 4 * operandBits f
  (laneCodes (operandBits f) (mread sp (base + n * l) n)).map (operandVal f)

/-- The metadata word of lane l of a sparse block (R102). -/
def sparseMeta (sp : List Host.Cell) (f base l : Nat) : Nat :=
  leNat (mread sp (base + (if f = 0 then 1024 else 2048) + 4 * l) 4)

/-- A metadata word's groups each name a lower index first (R102, R122). -/
def metaOk (m : Nat) : Bool := (List.range 8).all (fun g => decide (nbits m (4 * g + 1) (4 * g) < nbits m (4 * g + 3) (4 * g + 2)))

/-- The 32 values of lane l in a sparse block: the kept elements at their indices, zero elsewhere (R102). -/
def sparseLane (sp : List Host.Cell) (f base l : Nat) : List Val :=
  let n := if f = 0 then 8 else 16
  let kept := laneCodes (operandBits f) (mread sp (base + n * l) n)
  let m := sparseMeta sp f base l
  (List.range 32).map (fun e =>
    let g := e / 4
    if nbits m (4 * g + 1) (4 * g) = e % 4 then operandVal f ((kept[2 * g]?).getD 0)
    else if nbits m (4 * g + 3) (4 * g + 2) = e % 4 then operandVal f ((kept[2 * g + 1]?).getD 0)
    else operandVal f 0)

/-- One operand panel: for each lane the scaled values of every block. -/
def panel (sp : List Host.Cell) (f base scale : Nat) (scaled sparse : Bool) (nb : Nat) : List (List (List Val)) :=
  (List.range 128).map (fun l => (List.range nb).map (fun b =>
    let at_ := base + b * blockBytes f sparse
    let vs := if sparse then sparseLane sp f at_ l else denseLane sp f at_ l
    if scaled then vs.map (scaleVal (mget sp (scale + 128 * b + l)).toNat) else vs))

/- Tiles. -/

/-- The entry of a tile's element k, with what stands before and after it. -/
def splitKey : Tbl Elem → Nat → Tbl Elem × Elem × Tbl Elem
  | [], _ => ([], {}, [])
  | (n, v) :: r, k =>
    if k < n then ([], {}, (n, v) :: r)
    else if k = n then ([], v, r)
    else let (pre, x, post) := splitKey r k; ((n, v) :: pre, x, post)

/-- Elements of rising numbers changed one after another; each change answers the element and two flags, which are
collected. A cleared element is not listed. -/
def updElems (f : Nat → Elem → Elem × Bool × Bool) : Tbl Elem → List Nat → Tbl Elem × Bool × Bool
  | t, [] => (t, false, false)
  | t, k :: ks =>
    let (pre, v, post) := splitKey t k
    let (x, lo, hi) := f k v
    let (r, lo', hi') := updElems f post ks
    (pre ++ (if x = {} then r else (k, x) :: r), lo || lo', hi || hi')

/-- The products of one element's blocks, index by index (R49, R105). -/
def blockProducts (a b : List Val) : List Val := (a.zip b).map (fun p => valMul p.1 p.2)

/-- Terms added to an element under an anchor, with the flags they set (R48, R49). -/
def addTerms (anchor : Int) (e : Elem) (l : List Val) : Elem × Bool × Bool :=
  l.foldl (fun acc v => let (x, lo, hi) := addTerm anchor acc.1 v; (x, acc.2.1 || lo, acc.2.2 || hi)) (e, false, false)

/-- Legacy accumulation of blocks (R62): each block summed exactly, rounded once, added in FP32. -/
def legacyBlocks (x : Lane) (blocks : List (List Val)) : Lane :=
  blocks.foldl (fun acc b =>
    match b with
    | [] => acc
    | v :: r => fadd acc (encFp32 (r.foldl valAdd v))) x

/-- A legacy element's value sits in bits [31:0] (R62). -/
def legacyLane (e : Elem) : Lane := BitVec.ofNat 32 e.sum.toNat
def legacyElem (x : Lane) : Elem := { sum := BitVec.ofNat 136 x.toNat, st := .finite }

/-- MM's effect on a tile (R105, R62): `pa` and `pb` are the panels. -/
def mmTile (legacy : Bool) (t : Tile) (pa pb : List (List (List Val))) : Tile :=
  let f (k : Nat) (e : Elem) : Elem × Bool × Bool :=
    let blocks := (((pa[k / 128]?).getD []).zip ((pb[k % 128]?).getD [])).map (fun p => blockProducts p.1 p.2)
    if legacy then (legacyElem (legacyBlocks (legacyLane e) blocks), false, false)
    else addTerms t.anchor e blocks.flatten
  let (es, lo, hi) := updElems f t.elems (List.range 16384)
  { t with elems := es, low := t.low || lo, high := t.high || hi }

/-- A tile cleared and anchored (R46, R52), its flags first joined to the command's (R51); a legacy tile has neither anchor
nor mode (R91). -/
def clearTile (c : Core) (t : Bool) (anchor : Int) (mode : Nat) : Core :=
  setTile (foldFlags c t) t { anchor := anchor, mode := mode }

/- The instructions. -/

/-- The running command of a core. -/
def coreCmd (s : State) (c : Core) : Option Cmd := c.cmd.bind (cmdAt s)

/-- A queued vector instruction is a VACC on a tile (R120). -/
def vaccOn (t : Bool) (q : QInstr) : Bool := opOf q.word == 0xDC && bit q.word 0 == t

/-- ACC.CLR (R52, R53, R91, R121). -/
def execAccClr (core : Nat) (w : Word) (s : State) : Res :=
  .next (issue s core 0x90 w (fun c =>
    match coreCmd s c with
    | none => s
    | some cmd =>
      if c.mq.any (fun q => fT q.word == fT w) || c.vq.any (vaccOn (fT w)) then s
      else if cmd.legacy then retire s core (clearTile c (fT w) 0 0)
      else if fMode w = 2 && (is16 cmd.fmtA || is16 cmd.fmtB) then illegal s core c.pc w
      else
        let a : Int := if fMode w = 0 then sext ((sreg c (fA w)).toNat % 1024) 10
          else if fMode w = 1 then cmd.anchor else scaledAnchor cmd
        retire s core (clearTile c (fT w) a (fMode w))))

/-- A queued matrix instruction with its scalar operands (R92, R104). -/
def qMatrix (c : Core) (w : Word) (x y z u : Nat) : QInstr :=
  { word := w, index := c.pc, order := c.order, x := sreg c x, y := sreg c y, z := sreg c z, u := sreg c u }

def execMm (core : Nat) (w : Word) (s : State) : Res :=
  .next (issue s core 0xA0 w (fun c => enqueueMatrix s core c (qMatrix c w (fRA w) (fRB w) (fRSA w) (fRSB w))))
def execAccRaw (core : Nat) (w : Word) (s : State) : Res :=
  .next (issue s core 0xA4 w (fun c => enqueueMatrix s core c (qMatrix c w (fRA w) 0 0 0)))
def execAccExp (core : Nat) (w : Word) (s : State) : Res :=
  .next (issue s core 0xA9 w (fun c => enqueueMatrix s core c (qMatrix c w (fRA w) 0 0 0)))
def execAccWr (core : Nat) (w : Word) (s : State) : Res :=
  .next (issue s core 0xA8 w (fun c => enqueueMatrix s core c (qMatrix c w (fRA w) (fRB w) (fRSA w) 0)))

/- Dispatch (R92, R110, R111, R121, R122). -/

/-- Offsets that must be multiples of 64. -/
def aligned64 (l : List Nat) : Bool := l.all (fun a => a % 64 == 0)

/-- Every range lies within the scratchpad. -/
def allInside (l : List (Nat × Nat)) : Bool := l.all (fun r => spInside r.1 r.2)

/-- The offset operands of a queued instruction. -/
def offsetsOf (q : QInstr) : List Nat :=
  let w := q.word
  let op := opOf w
  if op = 0xA0 then [spOperand q.x, spOperand q.y] ++ (if fSCA w then [spOperand q.z] else []) ++ (if fSCB w then [spOperand q.u] else [])
  else if op = 0xA8 then [spOperand q.x] ++ (if scaledOut w then [spOperand q.z] else [])
  else [spOperand q.x]

/-- The checks that every queued scratchpad user meets (R122): alignment and range, then `body`. -/
def checkedOffsets (s : State) (n : Nat) (q : QInstr) (body : State → State) : State :=
  if !allInside (spReads q ++ spWrites q) then rangeFault s n q.index q.word
  else if !aligned64 (offsetsOf q) then accessFault s n q.index q.word
  else body s

/-- The queue without its head. -/
def popMatrix (c : Core) : Core := { c with mq := c.mq.drop 1 }

/-- The dispatch of an MM (R105). -/
def runMm (s : State) (n : Nat) (cmd : Cmd) (q : QInstr) (e : EccReport) : State :=
  let w := q.word
  let t := tile (coreAt s n) (fT w)
  if !cmd.legacy && t.mode == 2 && (is16 (fFA w) || is16 (fFB w)) then illegal s n q.index w
  else checkedOffsets s n q (fun s0 =>
    let (s1, ok) := spRead s0 n (spOperand q.x) e q.index
    if !ok then s1
    else
      let c := coreAt s1 n
      let nb := fKB w + 1
      let metas := (List.range nb).all (fun b => (List.range 128).all (fun l =>
        metaOk (sparseMeta c.sp (fFB w) (spOperand q.y + b * blockBytes (fFB w) true) l)))
      if fSP w && !metas then illegal s1 n q.index w
      else
        let pa := panel c.sp (fFA w) (spOperand q.x) (spOperand q.z) (fSCA w) false nb
        let pb := panel c.sp (fFB w) (spOperand q.y) (spOperand q.u) (fSCB w) (fSP w) nb
        setCore s1 n (popMatrix (setTile c (fT w) (mmTile cmd.legacy (tile c (fT w)) pa pb))))

/-- Byte offset of element k's wide partial (R106). -/
def wideAt (base k : Nat) : Nat := base + 16 * k

/-- The dispatch of an ACC.RAW (R61, R106). -/
def runAccRaw (s : State) (n : Nat) (cmd : Cmd) (q : QInstr) (e : EccReport) : State :=
  if cmd.legacy then illegal s n q.index q.word
  else checkedOffsets s n q (fun s0 =>
    let (s1, ok) := spRead s0 n (spOperand q.x) e q.index
    if !ok then s1
    else
      let c := coreAt s1 n
      let t := tile c (fT q.word)
      let f (k : Nat) (e : Elem) : Elem × Bool × Bool :=
        (addWide e (BitVec.ofNat 128 (leNat (mread c.sp (wideAt (spOperand q.x) k) 16))), false, false)
      setCore s1 n (popMatrix (setTile c (fT q.word) { t with elems := (updElems f t.elems (List.range 16384)).1 })))

/-- The dispatch of an ACC.EXP (R50, R61, R106). -/
def runAccExp (s : State) (n : Nat) (cmd : Cmd) (q : QInstr) : State :=
  if cmd.legacy then illegal s n q.index q.word
  else checkedOffsets s n q (fun s1 =>
    let c := coreAt s1 n
    let t := tile c (fT q.word)
    let bytes := (List.range 16384).flatMap (fun k => leBytes 16 (elemWide (tget {} t.elems k)).toNat)
    let t1 := { t with high := t.high || t.elems.any (fun e => elemHigh e.2) }
    setCore s1 n (popMatrix { setTile c (fT q.word) t1 with sp := mwrite c.sp (spOperand q.x) bytes }))

/- Write-out (R58 to R60, R107, R108). -/

/-- Element (i, j) of a tile as a value (R50, R62). -/
def outVal (legacy : Bool) (t : Tile) (i j : Nat) : Val :=
  let e := tget {} t.elems (128 * i + j)
  if legacy then valOf (legacyLane e) else elemVal t.anchor e

/-- One unscaled output code (R59). -/
def outCode (fo : Nat) (v : Val) : Nat :=
  if fo = 0 then writeOut fp32 v
  else if fo = 1 then writeOut bf16 v
  else if fo = 2 then writeOut fp16 v
  else if fo = 3 then writeOut e4m3 v
  else if fo = 4 then writeOut e5m2 v
  else writeInt32 v

/-- The value is finite. -/
def Val.isFin : Val → Bool
  | .fin _ => true
  | _ => false

/-- floor(log2) of a finite value's magnitude; none for zero. -/
def Val.log2 : Val → Option Int
  | .fin d => if d.m = 0 then none else some ((Nat.log2 d.m : Int) + d.e)
  | _ => none

/-- The greatest floor(log2) of a group, which is that of its largest magnitude. -/
def groupLog (l : List Val) : Option Int :=
  l.foldl (fun acc v => match acc, v.log2 with
    | none, x => x
    | some a, some b => some (max a b)
    | some a, none => some a) none

/-- The scale exponent X of a group (R60); none where it holds a NaN or an infinity. -/
def groupScale (fo : Nat) (l : List Val) : Option Int :=
  if !l.all Val.isFin then none
  else match groupLog l with
    | none => some 0
    | some k => some (max (-127) (min 127 (k - (if fo = 5 then 2 else 8))))

/-- A group's scale code (R60). -/
def scaleCode (x : Option Int) : Nat := match x with
  | none => 0xFF
  | some k => (k + 127).toNat

/-- A block-scaled output code (R60). -/
def scaledCode (fo : Nat) (x : Option Int) (v : Val) : Nat :=
  match x, v with
  | some k, .fin d => writeOut (if fo = 5 then e2m1 else e4m3) (.fin { d with e := d.e - k })
  | _, _ => 0

/-- Codes packed little-endian (R100, R108). -/
def packCodes (bits : Nat) (codes : List Nat) : List Byte :=
  leBytes ((bits * codes.length + 7) / 8) (codes.foldr (fun c acc => c + 2 ^ bits * acc) 0)

/-- The output codes grouped 32 at a time along the reduction direction (R60, R108): `along` says along a row. -/
def groupOf (legacy : Bool) (t : Tile) (along : Bool) (i j : Nat) : List Val :=
  (List.range 32).map (fun e => if along then outVal legacy t i (j / 32 * 32 + e) else outVal legacy t (i / 32 * 32 + e) j)

/-- The direction of the groups: along a row for row-major with GD 0 and for an A operand. -/
def alongRow (w : Word) : Bool := if fLAY w = 0 then !fGD w else fLAY w == 1

/-- The output code of element (i, j) of a write-out. -/
def wrCode (legacy : Bool) (t : Tile) (w : Word) (i j : Nat) : Nat :=
  let v := outVal legacy t i j
  if scaledOut w then scaledCode (fFO w) (groupScale (fFO w) (groupOf legacy t (alongRow w) i j)) v
  else outCode (fFO w) v

/-- The scale array of a write-out (R108): group g of lane l at 128g + l. -/
def storeScales (legacy : Bool) (t : Tile) (w : Word) (base : Nat) (sp : List Host.Cell) : List Host.Cell :=
  let along := alongRow w
  let lanes := if along then fNR w + 1 else fNC w + 1
  let groups := (if along then fNC w + 1 else fNR w + 1) / 32
  (List.range groups).foldl (fun m g => mwrite m (base + 128 * g) ((List.range lanes).map (fun l =>
    BitVec.ofNat 8 (scaleCode (groupScale (fFO w) (groupOf legacy t along (if along then l else 32 * g) (if along then 32 * g else l))))))) sp

/-- Row-major rows (R108); the half byte beside an odd last E2M1 element keeps its value. -/
def storeRows (legacy : Bool) (t : Tile) (w : Word) (base pitch : Nat) (sp : List Host.Cell) : List Host.Cell :=
  let bits := outBits (fFO w)
  let n := fNC w + 1
  (List.range (fNR w + 1)).foldl (fun m i =>
    let codes := (List.range n).map (wrCode legacy t w i)
    let rest := if bits = 4 && n % 2 = 1 then [(mget m (base + i * pitch + n / 2)).toNat / 16] else []
    mwrite m (base + i * pitch) (packCodes bits (codes ++ rest))) sp

/-- A blocked operand (R100, R108): block b, lane l, element e. -/
def storeBlocked (legacy : Bool) (t : Tile) (w : Word) (base : Nat) (sp : List Host.Cell) : List Host.Cell :=
  mwrite sp base ((List.range 4).flatMap (fun b => (List.range 128).flatMap (fun l =>
    packCodes (outBits (fFO w)) ((List.range 32).map (fun e =>
      if fLAY w = 1 then wrCode legacy t w l (32 * b + e) else wrCode legacy t w (32 * b + e) l)))))

/-- Some written element leaves the tile out of range (R50). -/
def wrHigh (t : Tile) (w : Word) : Bool :=
  t.elems.any (fun e => decide (e.1 / 128 ≤ fNR w) && decide (e.1 % 128 ≤ fNC w) && elemHigh e.2)

/-- The dispatch of an ACC.WR (R107 to R109, R122). DESIGN CHOICE (log entry 102): where several of R122's conditions hold at
once, of an ACC.WR or of another queued instruction, the first of these gives the status: a bad pitch, a SCALED tile or
legacy mode; then range; then alignment; then bad metadata. Where the scale codes overlap the elements, the scale codes,
written last, stand. -/
def runAccWr (s : State) (n : Nat) (cmd : Cmd) (q : QInstr) : State :=
  let w := q.word
  let pitch := spOperand q.y
  if fLAY w = 0 && (pitch % 64 != 0 || decide (pitch < roundUp (rowBytes w) 64)) then illegal s n q.index w
  else checkedOffsets s n q (fun s1 =>
    let c := coreAt s1 n
    let t := tile c (fT w)
    let sp1 := if fLAY w = 0 then storeRows cmd.legacy t w (spOperand q.x) pitch c.sp else storeBlocked cmd.legacy t w (spOperand q.x) c.sp
    let sp2 := if scaledOut w then storeScales cmd.legacy t w (spOperand q.z) sp1 else sp1
    let t1 := { t with high := t.high || (!cmd.legacy && wrHigh t w) }
    setCore s1 n (popMatrix { setTile c (fT w) t1 with sp := sp2 }))

/-- An uncorrectable error met in an accumulator tile at a dispatch (R28, R415). -/
def accFault (s : State) (n : Nat) (q : QInstr) : State := afterFence (sramFault s n 2 true false q.index)

/-- MATRIX_DISPATCH: the head of the matrix queue acts (R92, R111, R121); a VACC issued before it on its tile goes first.
Each of these instructions reads its tile, so SECDED may report there (R28). -/
def execMatrixDispatch (core : Nat) (e : Sram) (s : State) : Res :=
  let c := coreAt s core
  match coreCmd s c, c.mq with
  | some cmd, q :: _ =>
    if !running s c then .next s
    else if c.vq.any (fun v => vaccOn (fT q.word) v && decide (v.order < q.order)) then .next s
    else if e.acc = .uncorrected then .next (accFault s core q)
    else
      let op := opOf q.word
      .next (if op = 0xA0 then runMm s core cmd q e.sp
        else if op = 0xA4 then runAccRaw s core cmd q e.sp
        else if op = 0xA9 then runAccExp s core cmd q
        else runAccWr s core cmd q)
  | _, _ => .next s

end Sys2Proof.Machine
end

