-- ==== Sys2Proof/Machine/Collective.lean ====
section
/-! DEFINITION. Collectives (R147, R356 to R361): REDUCE, GATHER, SCATTER and BARRIER, their plans and steps, the packets
that arrive for them (R352, R357 to R359) and what their own requests are answered. A row of a collective starts it, and
repeated while it runs carries it on, after a translation or when tags are free again. -/

namespace Sys2Proof.Machine

/- Fields (R147). -/

def Cmd.cseqNo (c : Cmd) : Nat := c.byte 20 4
def Cmd.cSrc (c : Cmd) : Nat := c.byte 24 8
def Cmd.cDst (c : Cmd) : Nat := c.byte 32 8
def Cmd.cCount (c : Cmd) : Nat := c.byte 40 4
def Cmd.cAnchor (c : Cmd) : Int := sext (c.byte 44 2) 10
def Cmd.cFmt (c : Cmd) : Nat := c.byte 46 1
def Cmd.cLen (c : Cmd) : Nat := c.byte 40 8
def Cmd.planVa (c : Cmd) : Nat := c.byte 48 8

/-- Bytes of a unit of DST (R356, R357): an element in OUTFMT, or a line. -/
def Cmd.unitBytes (c : Cmd) : Nat := if c.op = 0x30 then outBytes c.cFmt else 64

/-- Units of SRC and of DST (R356, R360); SUM has those of a REDUCE. -/
def Cmd.srcUnits (c : Cmd) (members : Nat) : Nat :=
  if c.op = 0x30 then c.cCount else if c.op = 0x31 then c.cLen / 64 else c.cLen / 64 * members
def Cmd.dstUnits (c : Cmd) (members : Nat) : Nat :=
  if c.op = 0x30 then c.cCount else if c.op = 0x31 then c.cLen / 64 * members else c.cLen / 64

/- Plans (R356). -/

/-- A step of a plan from its 32 bytes. -/
def stepOf (b : List Byte) : PlanStep :=
  { op := bytesAt b 0 1, buf := bytesAt b 1 1, window := bytesAt b 2 2, peer := bytesAt b 4 3, loff := bytesAt b 8 8, roff := bytesAt b 16 8
    count := bytesAt b 24 4, nsrc := bytesAt b 28 4 }

/-- The opcode has the step's OP, and BUF is one that the OP takes (R356, R357, R360). -/
def stepForm (op : Nat) (p : PlanStep) : Bool :=
  if p.op = 1 then op == 0x30 && decide (p.buf < 2)
  else if p.op = 2 then (if op = 0x30 then p.buf == 2 else (op == 0x31 || op == 0x32) && (p.buf == 0 || p.buf == 2))
  else if p.op = 3 then (op == 0x30 && p.buf == 1) || (op != 0x33 && p.buf == 2)
  else if p.op = 4 then op == 0x30 && p.buf == 0
  else (p.op == 5 || p.op == 6) && op == 0x33 && p.buf == 0

/-- The units of the buffer that a step's local range lies in. -/
def stepUnits (c : Cmd) (members : Nat) (p : PlanStep) : Nat :=
  if p.op ≠ 3 ∧ p.op ≠ 4 ∧ p.buf = 0 then c.srcUnits members else c.dstUnits members

/-- The step's local range is legal (R356): COUNT 1 or more, within its buffer, in a REDUCE cut at multiples of 64. -/
def stepRange (c : Cmd) (members : Nat) (p : PlanStep) : Bool :=
  decide (5 ≤ p.op) ||
  (decide (1 ≤ p.count) && decide (p.loff + p.count ≤ stepUnits c members p) &&
   (c.op != 0x30 || (p.loff % 64 == 0 && (p.count % 64 == 0 || p.loff + p.count == c.cCount))))

/-- A step obeys the field rules (R356). -/
def stepOk (c : Cmd) (members : Nat) (b : List Byte) : Bool :=
  let p := stepOf b
  stepForm c.op p && stepRange c members p && zeroAt b 7 1 && decide (p.loff < 2 ^ 40) && decide (p.roff < 2 ^ 41) &&
  (p.op == 3 || p.op == 6 || p.nsrc == 0)

/-- The 32-byte steps of a plan. -/
def planSteps : Nat → List Byte → List (List Byte)
  | 0, _ => []
  | k + 1, b => b.take 32 :: planSteps k (b.drop 32)

/-- A plan's header is legal (R356). -/
def planHeadOk (b : List Byte) : Bool :=
  bytesAt b 0 4 == 0x4E4C505A && bytesAt b 4 2 == 1 && decide (1 ≤ bytesAt b 6 2) && decide (bytesAt b 6 2 ≤ 1024) &&
  decide (1 ≤ bytesAt b 8 2) && decide (bytesAt b 8 2 ≤ 4096) && zeroAt b 10 6

/- Ranges and order (R357). -/

/-- The buffer of a step's local range: one numbering in a REDUCE. -/
def stepSpace (op : Nat) (p : PlanStep) : Nat := if op = 0x30 then 0 else if p.op = 3 then 2 else p.buf

/-- A step's local range covers a unit. -/
def PlanStep.covers (p : PlanStep) (u : Nat) : Bool := decide (p.loff ≤ u) && decide (u < p.loff + p.count)

/-- Two steps' local ranges overlap. -/
def stepsMeet (op : Nat) (a b : PlanStep) : Bool :=
  stepSpace op a == stepSpace op b && decide (a.loff < b.loff + b.count) && decide (b.loff < a.loff + a.count)

/-- Step `i` may start: every earlier step that overlaps it has completed; for the barrier steps every earlier one. -/
def stepReady (op : Nat) (plan : List PlanStep) (i : Nat) (p : PlanStep) : Bool :=
  (plan.take i).all (fun q => q.done || (decide (p.op < 5) && decide (q.op < 5) && !stepsMeet op q p))

/-- A command's step changed. -/
def modStep (s : State) (id i : Nat) (f : PlanStep → PlanStep) : State :=
  modCmd s id (fun c => { c with plan := (enumNat c.plan).map (fun e => if e.1 = i then f e.2 else e.2) })

/- Memory as the port engine reaches it (R165, R167, R197, R299). -/

/-- What an access of the engine gives: where the line lies, or the state in which it stopped. -/
inductive Reach where
  | at_ (s : State) (dpa : Nat) (p : Pte)
  | stop (s : State)

/-- The engine waits for a translation, on a fault, or hangs by an injection: it issues nothing (R299, R432). -/
def engineHalted (s : State) (eng : Option Nat) : Bool :=
  eng.any (fun n => agentHalted s (664 + n) || (portAt s n).want.isSome || armed s 11 n)

/-- The agent that an access is made by: the port engine, else the control core that works for Bonor. -/
def reachAgent (s : State) (eng : Option Nat) : Nat := eng.elim (bonorAgent s) (fun n => 664 + n)

/-- An address looked up for the engine: it waits for a walk, or its command meets ACCESS. -/
def reach (s : State) (id : Nat) (c : Cmd) (eng : Option Nat) (va : Nat) (acc : Access) : Reach :=
  let col := colAt s c.colony
  match eng with
  | some n =>
    let sR := rewalk s (664 + n) c.cls c.colony va acc
    if engineHalted s eng then .stop s
    else match tcLook col (portAt s n).tc c.colony col.cur.instar va acc with
    | .miss _ => .stop (modPort s n (fun p => { p with want := some (va, acc == .write, id) }))
    | .denied => .stop (commandFault sR id 0x02 0x04 (.port n) 0 va 1 0 false)
    | .ok dpa p => .at_ sR dpa p
  | none =>
    match walk col va acc with
    | .ok dpa p => .at_ (noteWalk s (bonorAgent s) c.cls c.colony va acc) dpa p
    | _ => .stop (vaFault s id .access)

/-- The engine's request for a line cannot go out (R231, R232, R272): no entry for it at the slice, or the line is in transition; it
waits at its master. -/
def reachBlocked (s : State) (c : Cmd) (eng : Option Nat) (fa : Nat) (write : Bool) : Bool :=
  let ch := channelOf fa
  let off := chanOff (lineBase fa)
  let agent := reachAgent s eng
  ncBlocked s ch off write || !(if write then (creditFor s ch agent c.cls).isSome else mayIssue s agent c.cls ch off)

/-- A failed ownership check of the engine's request (R197). -/
def reachOwn (s : State) (id : Nat) (c : Cmd) (eng : Option Nat) (va : Nat) (o : OwnCheck) : State :=
  match o with
  | .pass => s
  | .denied => commandFault s id 0x02 0x04 (match eng with | some n => .port n | none => .none) 0 va 1 0 false
  | .stale => preempt (countStale s c.colony) id

/-- One line read, the command's own output where it has written it (R167). -/
def engineLine (s : State) (id : Nat) (c : Cmd) (eng : Option Nat) (va : Nat) : Got :=
  let col := colAt s c.colony
  match reach s id c eng va .read with
  | .stop t => .stop t
  | .at_ s dpa _ =>
    let fa := readAddr s col (cmdAt s id) dpa
    match ownCheck col col.cur.instar (channelOf fa) with
    | .pass =>
      if reachBlocked s c eng fa false then .stop s
      else
      let (s1, bad) := checkRead s fa
      match bad with
      | some (p, inj) => .stop (lineFault s1 id (channelOf fa) dpa 0 0 p inj)
      | none =>
        let (s2, d) := ncReadLine s1 c.cls fa
        .data s2 d
    | o => .stop (reachOwn s id c eng va o)

/-- `k` lines from a line's address. -/
def engineLines (id : Nat) (c : Cmd) (eng : Option Nat) : Nat → Nat → State → List Byte → Got
  | 0, _, s, acc => .data s acc
  | k + 1, va, s, acc =>
    match engineLine s id c eng va with
    | .stop t => .stop t
    | .data t d => engineLines id c eng k (va + 64) t (acc ++ d)

/-- `len` bytes from an aligned address. -/
def engineRead (s : State) (id : Nat) (c : Cmd) (eng : Option Nat) (va len : Nat) : Got :=
  (match engineLines id c eng ((len + 63) / 64) va s [] with
   | .stop t => .stop t
   | .data t d => .data t (d.take len))

/-- Bytes put into the command's output from an offset of one line (R165, R168). -/
def engineLinePut (s : State) (id : Nat) (c : Cmd) (eng : Option Nat) (va : Nat) (bs : List Byte) : Got :=
  let col := colAt s c.colony
  match reach s id c eng (lineBase va) .write with
  | .stop t => .stop t
  | .at_ s dpa p =>
    match ownCheck col col.cur.instar (channelOf dpa) with
    | .pass =>
      match bindShadow s id p with
      | none => .stop s
      | some (sh, s1) =>
        if (chanAt s1 (channelOf (sh.addr dpa))).mode == .fenced then .stop (faultCmd s1 id 0x09 none false)
        else if reachBlocked s1 c eng (sh.addr dpa) true then .stop s1
        else
          let old := coherentData s1 (readAddr s1 col (cmdAt s1 id) dpa)
          .data (ncWriteLine s1 c.cls (sh.addr dpa) (overlay (va % 64) bs old)) []
    | o => .stop (reachOwn s id c eng va o)

/-- Bytes put into the command's output from an address on: `k` bounds the lines. -/
def enginePut (id : Nat) (c : Cmd) (eng : Option Nat) : Nat → Nat → List Byte → State → Got
  | 0, _, _, s => .data s []
  | k + 1, va, bs, s =>
    if bs.isEmpty then .data s []
    else
      let n := 64 - va % 64
      match engineLinePut s id c eng va (bs.take n) with
      | .stop t => .stop t
      | .data t _ => enginePut id c eng k (va + n) (bs.drop n) t

/- The end of a collective. -/

/-- A collective ends with a status and aborts its group (R357, R363). -/
def endCollective (s : State) (id status : Nat) : State :=
  match cmdAt s id with
  | none => s
  | some c => raiseAbort (abortCmd s id status) c.colony c.job status id none

/-- Every step has completed (R361): the attempt ends, its DST goes to its commit. RESULT: the partials summed, or the bytes
written (R153). -/
def finishCollective (s : State) (id : Nat) : State :=
  match cmdAt s id with
  | none => s
  | some c =>
    if c.phase = .running ∧ c.plan.all (fun p => p.done) ∧ (c.op ≠ 0x30 ∨ c.cCount ≤ c.moved) then
      modCmd (chargeAttempt s id true) id (fun x => { x with
        phase := .ended, scratch := [], result := if c.op = 0x30 then c.cCount else if c.op = 0x33 then 0 else c.moved })
    else s

/- Scratch (R61, R358). -/

/-- The wide partials of some bytes. -/
def widesOf : Nat → List Byte → List Wide
  | 0, _ => []
  | k + 1, b => BitVec.ofNat 128 (leNat (b.take 16)) :: widesOf k (b.drop 16)

/-- Partials added into the scratch from a unit on. -/
def addScratch (t : Tbl Elem) (u : Nat) : List Wide → Tbl Elem
  | [] => t
  | x :: r => addScratch (tset t u (addWide (tget {} t u) x)) (u + 1) r

/-- The command adds its own SRC into the scratch (R358), line by line. -/
def sumSource (id : Nat) (eng : Option Nat) : Nat → State → State
  | 0, s => s
  | k + 1, s =>
    match cmdAt s id with
    | none => s
    | some c =>
      if c.phase ≠ .running ∨ c.cCount ≤ c.moved then s
      else match engineLine s id c eng (c.cSrc + 16 * c.moved) with
        | .stop t => t
        | .data t d => sumSource id eng k (modCmd t id (fun x => { x with scratch := addScratch x.scratch c.moved (widesOf 4 d), moved := c.moved + 4 }))

/-- One element as FINAL writes it (R58, R59, R61, R358). -/
def finalBytes (c : Cmd) (e : Elem) : List Byte :=
  if c.cFmt = 8 then leBytes 16 (elemWide e).toNat else leBytes (outBytes c.cFmt) (outCode c.cFmt (elemVal c.cAnchor e))

/-- The scratch elements of a range. -/
def scratchOf (c : Cmd) (u k : Nat) : List Elem := (List.range k).map (fun i => tget {} c.scratch (u + i))

/-- FINAL's next 64 units (R358). -/
def finalChunks (id i : Nat) (eng : Option Nat) : Nat → State → State
  | 0, s => s
  | k + 1, s =>
    match cmdAt s id with
    | none => s
    | some c =>
      match c.plan[i]? with
      | none => s
      | some p =>
        if c.phase ≠ .running ∨ p.count ≤ p.sent then s
        else
          let u := p.loff + p.sent
          let n := min 64 (p.count - p.sent)
          let es := scratchOf c u n
          match enginePut id c eng (n + 1) (c.cDst + u * c.unitBytes) (es.flatMap (finalBytes c)) s with
          | .stop t => t
          | .data t _ =>
            let t1 := modCmd t id (fun x => { x with high := x.high || es.any elemHigh })
            finalChunks id i eng k (modStep t1 id i (fun q => { q with sent := q.sent + n, done := decide (q.count ≤ q.sent + n) }))

/- Sending (R321, R343, R347, R357, R358). -/

/-- A remote request's tag (R310, R347): the lowest not outstanding and not held out of reuse (R423). -/
def freeReqTag (p : Port) : Option Nat := leastFree ((p.reqs ++ p.drain).map (fun r => r.tag) ++ p.heldTags) 4096

/-- The most units that one packet of a step carries (R321). -/
def packetUnits (c : Cmd) (p : PlanStep) : Nat :=
  let lines := if c.cls = 0 then 4 else 64
  if p.op = 1 then 4 * lines else if c.op = 0x30 then lines * 64 / c.unitBytes else lines

/-- The payload of `n` units of a send step from a unit on, and the HIGH of a partial out of range (R50, R358). -/
def sendData (s : State) (id : Nat) (c : Cmd) (eng : Option Nat) (p : PlanStep) (u n : Nat) : Got × Bool :=
  if p.op = 1 then
    if p.buf = 0 then (engineRead s id c eng (c.cSrc + 16 * u) (16 * n), false)
    else (.data s ((scratchOf c u n).flatMap (fun e => leBytes 16 (elemWide e).toNat)), (scratchOf c u n).any elemHigh)
  else
    let base := if p.buf = 0 then c.cSrc else c.cDst
    (match engineRead s id c eng (base + u * c.unitBytes) (n * c.unitBytes) with
     | .stop t => .stop t
     | .data t d => .data t (padTo (roundUp (n * c.unitBytes) 64) d), false)

/-- A request's header (R345, R347, R355). -/
def requestHeader (s : State) (c : Cmd) (n tag window cseq offset : Nat) (dst : Nat) (anchor : Int) (high : Bool) : FabHeader :=
  { dst := dst, src := s.fab.faddr, ttl := s.fab.diameter, scol := c.colony, instar := stampOf s c.colony, window := window, job := c.job
    cseq := cseq, tag := tag, tagPort := n % 16, offset := offset, anchor := anchor, status := 0, high := high, boottag := s.fab.bootTag }

/-- The port engine that holds a request, and the port it leaves by, 16 for this device itself; or the status of R343. A
device without an address originates nothing (R341): it has no route. -/
def requestPort (s : State) (c : Cmd) (dst : Nat) : Except Nat (Nat × Nat) :=
  if s.fab.faddr = 0 then .error 0x04
  else match route s c.colony (laneOf c.cls) s.fab.faddr dst c.job with
    | .here => .ok ((colAt s c.colony).cur.ports.headD 0, 16)
    | .port n => .ok (n, n)
    | r => .error (routeStatus r)

/-- A command ends since no port carries its request (R343); a port lost or fenced aborts the group (R363). -/
def noRoute (s : State) (id status : Nat) : State := if status = 0x04 then abortCmd s id status else endCollective s id status

/-- Payload that leaves on a port counts in FABOUT (R191). -/
def addFab (port bytes : Nat) (a : Acct) : Acct := if 16 ≤ port then a else { a with fabOut := wrapAdd 64 a.fabOut bytes }
def countOut (s : State) (colony port bytes : Nat) : State := modAcct s colony (addFab port bytes)

/-- One packet of a send step goes out for `n` units from unit `u` under a tag. -/
def sendUnits (s : State) (id i : Nat) (c : Cmd) (eng : Option Nat) (p : PlanStep) (u n e port tag : Nat) : State × Bool :=
  let (g, high) := sendData s id c eng p u n
  match g with
  | .stop t => (t, false)
  | .data t d =>
    let t1 := modCmd t id (fun x => { x with high := x.high || high })
    let h := requestHeader t1 c e tag p.window c.cseqNo (p.roff + (u - p.loff)) p.peer (if p.op = 1 then c.cAnchor else 0) high
    let r : FabReq := { tag := tag, kind := if p.op = 1 then .add else .write, cmd := id, step := i, unit := u, units := n, colony := c.colony
                        instar := stampOf t1 c.colony, xepoch := (colAt t1 c.colony).epoch, dst := p.peer, window := p.window, offset := h.offset }
    let t2 := inflightInc (modPort t1 e (fun q => { q with reqs := q.reqs.filter (fun x => x.tag != tag) ++ [r] })) c.colony r.instar
    (countFor (putPacket t2 port c.cls (if p.op = 1 then 2 else 1) h d) id c.colony (addFab port d.length), true)

/-- A send step's packets go out while tags are free (R347, R357). -/
def sendChunks (id i : Nat) (eng : Option Nat) : Nat → State → State
  | 0, s => s
  | k + 1, s =>
    match cmdAt s id with
    | none => s
    | some c =>
      match c.plan[i]? with
      | none => s
      | some p =>
        if c.phase ≠ .running ∨ p.count ≤ p.sent then s
        else match requestPort s c p.peer with
          | .error st => noRoute s id st
          | .ok (e, port) =>
            match freeReqTag (portAt s e) with
            | none => s
            | some tag =>
              let n := min (packetUnits c p) (p.count - p.sent)
              let (t, went) := sendUnits s id i c eng p (p.loff + p.sent) n e port tag
              if went then sendChunks id i eng k (modStep t id i (fun q => { q with sent := q.sent + n })) else t

/-- SEND_BAR's message (R360), over a port of the colony (R343). -/
def sendBarrier (s : State) (id i : Nat) (c : Cmd) (p : PlanStep) : State :=
  if 0 < p.sent then s
  else if s.fab.faddr = 0 then noRoute s id 0x04
  else match route s c.colony 0 s.fab.faddr p.peer c.job with
    | .noEntry => noRoute s id 0x04
    | .fenced => noRoute s id 0x0F
    | .down => noRoute s id 0x07
    | _ => modStep (sendMsg s 1 p.peer c.colony (stampOf s c.colony) c.job [c.cseqNo, p.window, s.fab.bootTag] (some id)) id i (fun q => { q with sent := 1 })

/-- EXPECTs that have every contribution they await have completed (R357). -/
def settleExpects (plan : List PlanStep) : List PlanStep :=
  plan.map (fun p => if p.op == 3 && (List.range p.count).all (fun k => tget 0 p.got (p.loff + k) == p.nsrc) then { p with done := true } else p)

/-- What a step that may start does now (R357, R358, R360). EXPECTs complete as their contributions come. -/
def runStep (id : Nat) (eng : Option Nat) (s : State) (i : Nat) : State :=
  match cmdAt s id with
  | none => s
  | some c =>
    match c.plan[i]? with
    | none => s
    | some p =>
      if c.phase ≠ .running ∨ p.done ∨ p.op = 3 then s
      else if !stepReady c.op c.plan i p then s
      else if p.op = 1 ∨ p.op = 2 then sendChunks id i eng p.count s
      else if p.op = 4 then finalChunks id i eng p.count s
      else if p.op = 5 then sendBarrier s id i c p
      else if p.nsrc ≤ p.bars then modStep s id i (fun q => { q with done := true })
      else s

/-- A running collective goes as far as it can: its own SRC first (R358), then its steps in order. -/
def progress (s : State) (id : Nat) : State :=
  match cmdAt s id with
  | none => s
  | some c =>
    if c.phase ≠ .running ∨ !c.isCollective then s
    else
      let eng := localEngine s c
      if engineHalted s eng then s
      else
      let s1 := if c.op = 0x30 then sumSource id eng (c.cCount / 4 + 1) s else s
      if c.op = 0x30 ∧ (cmdAt s1 id).any (fun x => decide (x.moved < c.cCount)) then s1
      else finishCollective ((List.range c.plan.length).foldl (runStep id eng) s1) id

/- Starting (R164 to R166, R248, R353, R356, R358). -/

/-- Scratch frames of 64 KiB, each from the first full set that has one (R165, R358; log entry 13). -/
def takeScratch (c : Colony) : Nat → Option (List Frames × Colony)
  | 0 => some ([], c)
  | k + 1 =>
    match (fullSets c.cur).findSome? (fun z => takeFrame c z 65536) with
    | none => none
    | some (a, c1) => match takeScratch c1 k with
      | none => none
      | some (l, c2) => some ({ colony := 0, start := a, size := 65536 } :: l, c2)

/-- The reserve of a collective: its DST region, and a REDUCE's scratch of 32 bytes per partial. -/
def collectiveReserve (col : Colony) (c : Cmd) : Reserve :=
  let k := if c.op = 0x30 then (32 * c.cCount + 65535) / 65536 else 0
  let need := needOf (touchedPages col c.regions)
  let take (x : Colony) : Option (List Frames × Colony) :=
    match takeFrames x need with
    | none => none
    | some (fs, x1) => match takeScratch x1 k with
      | none => none
      | some (gs, x2) => some (fs ++ gs, x2)
  match take col with
  | some (fs, x) => .taken fs x
  | none => if (take { col with pool := wholePool col }).isSome then .wait else .never

/-- The class of a port engine's requests (R248). -/
def portClass (s : State) (c : Cmd) : Nat :=
  if c.urgent then 0 else if (colAt s c.colony).classMode then c.label else (colAt s c.colony).mapPort

/-- The command with its plan in hand starts its attempt. -/
def beginCollective (s : State) (id : Nat) (c : Cmd) (members : Nat) (plan : List PlanStep) : State :=
  let regions := if c.op = 0x31 then [(c.cDst, c.cLen * members)] else c.regions
  let c1 := { c with regions := regions, plan := settleExpects plan, members := members }
  if conflicted s id c1 then modCmd s id (fun x => { x with regions := regions })
  else match collectiveReserve (colAt s c.colony) c1 with
    | .never => refuseCmd s id 0x0B 0 0
    | .wait => s
    | .taken fs col =>
      let s1 := setCmd (setCol s c.colony col) id { c1 with
        phase := .running, reserve := fs, attempts := c.attempts + 1, startTick := s.ticks, attemptNs := 0, use := {}, moved := 0, scratch := [], high := false
        cls := portClass s c }
      let s2 := plan.foldl (fun t p => if p.op = 1 ∨ p.op = 2 ∨ p.op = 5 then addPeer t c.colony p.peer c.job else t) s1
      let s3 := modCol s2 c.colony (fun x => { x with jobSeq := tset x.jobSeq c.job (max (tget 0 x.jobSeq c.job) c.cseqNo) })
      progress s3 id

/-- The plan is read and checked (R356). -/
def startCollective (s : State) (id : Nat) (c : Cmd) : State :=
  if jobAborted s c then refuseCmd s id 0x07 0 0
  else if c.planVa % 64 ≠ 0 then refuseCmd s id 0x0A 0 0
  else match vaRead s c.colony c.planVa 16 .read with
    | .error e => vaFault s id e
    | .ok hd =>
      if !planHeadOk hd then refuseCmd s id 0x0A 0 0
      else
        let n := bytesAt hd 6 2
        let members := bytesAt hd 8 2
        match vaRead s c.colony (c.planVa + 16) (32 * n) .read with
        | .error e => vaFault s id e
        | .ok body =>
          let raw := planSteps n body
          if !raw.all (stepOk c members) then refuseCmd s id 0x0A 0 0
          else beginCollective (noteRead s c c.planVa (16 + 32 * n) .read) id c members (raw.map stepOf)

/-- A row of a collective: it starts, or goes on. -/
def collectiveRow (s : State) (id op : Nat) : State :=
  match cmdAt s id with
  | none => s
  | some c =>
    if c.op ≠ op then s
    else if canStart s id c then startCollective s id c
    else if serving s ∧ c.phase = .running then progress s id
    else s

/-- REDUCE (R147, R356 to R358, R361). -/
def execReduce (cmd : Nat) (s : State) : Res := .next (collectiveRow s cmd 0x30)

/-- GATHER (R147, R356, R357, R360, R361). -/
def execGather (cmd : Nat) (s : State) : Res := .next (collectiveRow s cmd 0x31)

/-- SCATTER (R147, R356, R357, R360, R361). -/
def execScatter (cmd : Nat) (s : State) : Res := .next (collectiveRow s cmd 0x32)

/-- BARRIER (R147, R356, R357, R360). -/
def execBarrier (cmd : Nat) (s : State) : Res := .next (collectiveRow s cmd 0x33)

/- Arrivals (R352, R357 to R359). -/

/-- The running collective of a job group and CSEQ in a colony. -/
def runningCollective (s : State) (colony job cseq : Nat) : Option (Nat × Cmd) :=
  s.cmds.find? (fun e => e.2.isCollective && e.2.phase == .running && e.2.colony == colony && e.2.job == job && e.2.cseqNo == cseq)

/-- R359: what an arrival without a running collective is answered: PEER_ABORT, or 0 for BUSY. -/
def noCollective (s : State) (colony job cseq : Nat) : Nat :=
  let c := colAt s colony
  if decide (cseq < tget 0 c.jobSeq job) || c.aborted.contains job then 0x07 else 0

/-- A reply to a bulk packet (R347): DST and SRC swapped, TAG echoed. Its class is the window's (log entry 29). -/
def replyPacket (s : State) (h : FabHeader) (kind status cls : Nat) (data : List Byte) : State :=
  let r : FabHeader := { h with dst := h.src, src := s.fab.faddr, ttl := s.fab.diameter, status := status, high := false, boottag := s.fab.bootTag }
  match route s 0 (laneOf cls) r.src r.dst h.job with
  | .here => putPacket s 16 cls kind r data
  | .port n => putPacket s n cls kind r data
  | _ => s

/-- REFUSE with a status, 0 for BUSY (R352, R359). -/
def refusePacket (s : State) (h : FabHeader) (status cls : Nat) : State := replyPacket s h 6 status cls []

/-- One contribution to each of `k` units from `u` on, against the earliest EXPECT that takes it; none where one breaks
R357. -/
def countArrival (plan : List PlanStep) (buf : Nat) : Nat → Nat → Option (List PlanStep)
  | _, 0 => some plan
  | u, k + 1 =>
    match findIdx? (fun p => p.op == 3 && p.buf == buf && !p.done && p.covers u) plan with
    | none => none
    | some (i, p) =>
      if p.nsrc ≤ tget 0 p.got u then none
      else countArrival ((enumNat plan).map (fun e => if e.1 = i then { e.2 with got := tset e.2.got u (tget 0 e.2.got u + 1) } else e.2)) buf (u + 1) k

/-- A FINAL step stands against an arrival at some units (R357): one that has written the unit against an ADD, any that
writes it against a WRITE. -/
def finalAgainst (plan : List PlanStep) (add : Bool) (u k : Nat) : Bool :=
  plan.any (fun p => p.op == 4 && (List.range k).any (fun i => p.covers (u + i) && (!add || decide (u + i < p.loff + p.sent))))

/-- Why an arrival's target cannot be written (R352): the first line that is not mapped, or not writable. -/
def targetProblem (s : State) (colony : Nat) (acc : Access) (va len : Nat) : Option Nat :=
  (List.range ((va % 64 + len + 63) / 64)).findSome? (fun i =>
    match walk (colAt s colony) (lineBase va + 64 * i) acc with
    | .ok _ _ => none
    | .miss _ => some 0x03
    | .denied => some 0x04)

/-- The lines of an arrival cannot be read or written yet (R231, R232, R272): the packet waits in its port engine. -/
def arrivalWaits (s : State) (colony cls : Nat) (cmd : Option Cmd) (eng : Option Nat) (write : Bool) (va len : Nat) : Bool :=
  let col := colAt s colony
  eng.any (armed s 11) || (List.range ((va % 64 + len + 63) / 64)).any (fun i =>
    match walk col (lineBase va + 64 * i) (if write then .write else .read) with
    | .ok dpa _ =>
      let fa := match cmd.bind (fun c => shadowFor c dpa) with
        | some sh => if write then sh.addr dpa else readAddr s col cmd dpa
        | none => frameOf col dpa
      let ch := channelOf fa
      let off := chanOff (lineBase fa)
      ncBlocked s ch off write || !(if write then (creditFor s ch (reachAgent s eng) cls).isSome else mayIssue s (reachAgent s eng) cls ch off)
    | _ => false)

/-- The collective breaks R357: it ends BAD_PACKET, and the sender finds its group aborted (R359). -/
def badArrival (s : State) (id : Nat) (h : FabHeader) (cls : Nat) : State := refusePacket (endCollective s id 0x0A) h 0x07 cls

/-- WRITE_PACKET (R352, R355, R357, R359, R361). -/
def execWritePacket (port : Nat) (h : FabHeader) (payload : List Byte) (s : State) : Res :=
  match bulkArrives s port h with
  | none => .next s
  | some s0 =>
    let (s1, got) := windowCheck s0 h.src h.scol h.instar h.job h.boottag h.window (fun w => w.wr)
    match got with
    | .error st => .next (settleColonies (refusePacket s1 h st 4))
    | .ok w =>
      match runningCollective s1 w.colony h.job h.cseq with
      | none => .next (refusePacket s1 h (if windowServed s1 w then noCollective s1 w.colony h.job h.cseq else 0x0E) w.cls)
      | some (id, c) =>
        let size := c.unitBytes
        let k := if c.op = 0x30 then min (payload.length / size) (c.cCount - h.offset) else payload.length / 64
        let va := c.cDst + h.offset * size
        if !inWindow w va (k * size) then .next (refusePacket s1 h 0x04 w.cls)
        else if !windowServed s1 w then .next (refusePacket s1 h 0x0E w.cls)
        else if k = 0 ∨ c.op = 0x33 ∨ finalAgainst c.plan false h.offset k then .next (badArrival s1 id h w.cls)
        else match countArrival c.plan 2 h.offset k with
          | none => .next (badArrival s1 id h w.cls)
          | some plan =>
            match targetProblem s1 w.colony .write va (k * size) with
            | some st => .next (refusePacket s1 h st w.cls)
            | none =>
              if arrivalWaits s1 w.colony w.cls (some c) none true va (k * size) then .next s
              else match enginePut id { c with cls := w.cls } none (k * size / 64 + 2) va (payload.take (k * size)) s1 with
              | .stop t => .next (refusePacket t h 0x04 w.cls)
              | .data t _ =>
                let t1 := modCmd t id (fun x => { x with plan := settleExpects plan, moved := if c.op = 0x30 then x.moved else x.moved + k * size })
                .next (progress (replyPacket t1 h 5 0 w.cls []) id)

/-- ADD_PACKET (R55, R352, R355, R357 to R359). -/
def execAddPacket (port : Nat) (h : FabHeader) (payload : List Byte) (s : State) : Res :=
  match bulkArrives s port h with
  | none => .next s
  | some s0 =>
    let (s1, got) := windowCheck s0 h.src h.scol h.instar h.job h.boottag h.window (fun w => w.add)
    match got with
    | .error st => .next (settleColonies (refusePacket s1 h st 4))
    | .ok w =>
      match runningCollective s1 w.colony h.job h.cseq with
      | none => .next (refusePacket s1 h (if windowServed s1 w then noCollective s1 w.colony h.job h.cseq else 0x0E) w.cls)
      | some (id, c) =>
        let k := payload.length / 16
        let va := c.cDst + h.offset * c.unitBytes
        if !inWindow w va (k * c.unitBytes) then .next (refusePacket s1 h 0x04 w.cls)
        else if !windowServed s1 w then .next (refusePacket s1 h 0x0E w.cls)
        else if k = 0 ∨ c.op ≠ 0x30 ∨ h.anchor ≠ c.cAnchor ∨ finalAgainst c.plan true h.offset k then .next (badArrival s1 id h w.cls)
        else match countArrival c.plan 1 h.offset k with
          | none => .next (badArrival s1 id h w.cls)
          | some plan =>
            match targetProblem s1 w.colony .write va (k * c.unitBytes) with
            | some st => .next (refusePacket s1 h st w.cls)
            | none =>
              let t := modCmd s1 id (fun x => { x with plan := settleExpects plan, scratch := addScratch x.scratch h.offset (widesOf k payload) })
              .next (progress (replyPacket t h 5 0 w.cls []) id)

/- Replies (R347, R357, R359, R423). -/

/-- The request that a reply answers: outstanding under its tag, toward its sender. -/
def requestOf (s : State) (h : FabHeader) : Option FabReq := (portAt s h.tagPort).reqs.find? (fun r => r.tag == h.tag && r.dst == h.src)

/-- A reply that its command does not wait for: one to a request that drains ends it (R205); one whose tag is not outstanding is
discarded and counted (R423), in COL.STALE too where it carries an instar of its colony that is not live (R197, R213). -/
def lateReply (s : State) (h : FabHeader) : State :=
  match (portAt s h.tagPort).drain.find? (fun r => r.tag == h.tag && r.dst == h.src) with
  | some r => finishReqs (modPort s h.tagPort (fun p => { p with drain := p.drain.erase r })) [r]
  | none =>
    let c := colAt s h.scol
    let live := (c.cur.valid && c.cur.instar == h.instar) || (c.old.valid && c.old.instar == h.instar)
    let s1 := { s with flt := { s.flt with late := satInc 32 s.flt.late } }
    if live || decide (h.scol = 0) || decide (64 < h.scol) then s1 else countStale s1 h.scol

/-- A request is answered: its tag is free again. -/
def freeReq (s : State) (e : Nat) (r : FabReq) : State :=
  finishReqs (modPort s e (fun p => { p with reqs := p.reqs.filter (fun x => x.tag != r.tag) })) [r]

/-- WACK (R357, R361): the units of a send step are acknowledged. -/
def execWack (port : Nat) (h : FabHeader) (s : State) : Res :=
  match bulkArrives s port h with
  | none => .next s
  | some s =>
    match requestOf s h with
    | none => .next (settleColonies (lateReply s h))
    | some r =>
      if r.kind = .read then .next (lateReply s h)
      else
        let s1 := freeReq s h.tagPort r
        .next (settleColonies (progress (modStep s1 r.cmd r.step (fun p =>
          { p with acked := p.acked + r.units, done := decide (p.count ≤ p.acked + r.units) })) r.cmd))

/-- REFUSE (R352, R359, R363): BUSY waits for its retry; any other status ends the command and aborts its group. -/
def execRefuse (port : Nat) (h : FabHeader) (s : State) : Res :=
  match bulkArrives s port h with
  | none => .next s
  | some s =>
    match requestOf s h with
    | none => .next (settleColonies (lateReply s h))
    | some r =>
      if h.status = 0 then
        .next (modPort s h.tagPort (fun p => { p with reqs := p.reqs.map (fun x =>
          if x.tag = r.tag then { x with waiting := true, busy := x.busy + 1 } else x) }))
      else .next (settleColonies (endCollective (freeReq s h.tagPort r) r.cmd h.status))

/-- COLLECTIVE_BUSY_RETRY (R359): the refused request goes out again under its tag; it stays refused while its units cannot be read. -/
def execCollectiveBusyRetry (port tag : Nat) (s : State) : Res :=
  match (portAt s port).reqs.find? (fun r => r.tag == tag && r.waiting) with
  | none => .next s
  | some r =>
    match cmdAt s r.cmd with
    | none => .next s
    | some c =>
      match c.plan[r.step]? with
      | none => .next s
      | some p =>
        if !serving s || c.phase != .running || decide (16 ≤ port) then .next s
        else match requestPort s c r.dst with
          | .error st => .next (settleColonies (noRoute s r.cmd st))
          | .ok (_, out) =>
            let (t, went) := sendUnits s r.cmd r.step c (localEngine s c) p r.unit r.units port out tag
            .next (settleColonies (if went then finishReqs t [r] else t))

/- Barriers (R352, R359, R360). -/

/-- BARRIER_MESSAGE (R349, R352, R355, R357, R359, R360). -/
def execBarrierMessage (port : Nat) (m : CtlHeader) (cseq window boottag : Nat) (s : State) : Res :=
  .next (once s port m (fun _ => s) (fun s =>
    let (s1, got) := windowCheck s m.src m.scol m.instar m.job boottag window (fun w => w.bar)
    match got with
    | .error st => settleColonies (acked s1 m st)
    | .ok w =>
      if !windowServed s1 w then acked s1 m 0x0E
      else match runningCollective s1 w.colony m.job cseq with
        | none => if noCollective s1 w.colony m.job cseq = 0 then sendBusy s1 m else acked s1 m 0x07
        | some (id, c) =>
          match findIdx? (fun p => p.op == 6 && !p.done && decide (p.bars < p.nsrc)) c.plan with
          | none => acked (endCollective s1 id 0x0A) m 0x07
          | some (i, _) => progress (acked (modStep s1 id i (fun p => { p with bars := p.bars + 1 })) m 0) id))

end Sys2Proof.Machine
end

