-- ==== Sys2Proof/Machine/Handoff.lean ====
section
/-! DEFINITION. Handoff (R147, R364 to R368): OFFER, ACCEPT, RELEASE and AUDIT, the messages between the two sides, the reads
of the state, the timers; and what the fabric timeout (R346) and the cut of a function's reset (R482) end. -/

namespace Sys2Proof.Machine

/- Fields and records (R147, R365). -/

def Cmd.hPhase (c : Cmd) : Nat := c.byte 16 1 % 8
def Cmd.stateVa (c : Cmd) : Nat := c.byte 32 8
def Cmd.stateLen (c : Cmd) : Nat := c.byte 40 8

/-- TIMER in µs, 5 ms for 0 (R147, R367). -/
def Cmd.hTimer (c : Cmd) : Nat := if c.byte 48 4 = 0 then 5000 else c.byte 48 4

/-- The state codes of R365. -/
def HState.code : HState → Nat
  | .none => 0
  | .offered => 1
  | .offerSeen => 2
  | .accepting => 3
  | .accepted => 4
  | .acceptedSeen => 5
  | .releasing => 6
  | .retaken => 7
  | .declined => 8

/-- The states in which this side owns (R365). -/
def HState.owns : HState → Bool
  | .offered => true
  | .accepted => true
  | .retaken => true
  | _ => false

/-- The lowest free record of 1,024 (R365). -/
def freeHandoff (s : State) : Option Nat := leastFree (s.fab.handoffs.map (fun e => e.1)) 1024

/-- A record is freed. -/
def dropHandoff (s : State) (i : Nat) : State := { s with fab := { s.fab with handoffs := tdel s.fab.handoffs i } }

/-- The record that a message names, when the local colony is not named: by job, HSEQ, sender and its colony. -/
def handoffOf (s : State) (job hseq peer peerColony : Nat) : Option (Nat × Handoff) :=
  s.fab.handoffs.find? (fun e => e.2.job == job && e.2.hseq == hseq && e.2.peer == peer && e.2.peerColony == peerColony)

/-- The frame of a HANDOFF phase: its command may start, or waits inside its sequence, and its group is not aborted. -/
def handoffRow (s : State) (id phase : Nat) (body : Cmd → State) : State :=
  directOrWaiting s id 0x34 (fun c =>
    if c.hPhase ≠ phase then s
    else if jobAborted s c then refuseCmd s id 0x07 0 0
    else body c)

/-- A message of a handoff goes out under the command's colony and job. -/
def handoffMsg (s : State) (c : Cmd) (mtype : Nat) (body : List Nat) (cmd : Option Nat) : State :=
  sendMsg s mtype c.hPeer c.colony (stampOf s c.colony) c.job body cmd

/-- No port of the colony leads to the peer: the status of R343. -/
def peerRoute (s : State) (c : Cmd) : Option Nat :=
  if s.fab.faddr = 0 then some 0x04
  else match route s c.colony 0 s.fab.faddr c.hPeer c.job with
    | .here => none
    | .port _ => none
    | r => some (routeStatus r)

/- OFFER (R366 steps 1 and 2). -/

/-- The window through which the peer reads the state (R366 step 1): the lowest index that serves. -/
def offerWindow (s : State) (c : Cmd) : Option (Nat × Window) :=
  s.fab.windows.find? (fun e => e.2.valid && !e.2.revoking && e.2.colony == c.colony && e.2.sfaddr == c.hPeer && e.2.scol == c.hPeerColony &&
    e.2.rd && inWindow e.2 c.stateVa c.stateLen)

/-- HANDOFF_OFFER (R147, R353, R365, R366): a key in use already is refused; with no record free it waits. -/
def execHandoffOffer (cmd : Nat) (s : State) : Res :=
  .next (handoffRow s cmd 1 (fun c =>
    if c.phase = .started then s
    else if (cmdHandoff s c).isSome then refuseCmd s cmd 0x0B 0 0
    else match freeHandoff s with
      | none => s
      | some i =>
        match offerWindow s c, peerRoute s c with
        | none, _ => refuseCmd s cmd 0x04 0 0
        | some _, some st => refuseCmd s cmd st 0 0
        | some (w, e), none =>
          let s1 := setHandoff s i { colony := c.colony, job := c.job, hseq := c.hseq, peer := c.hPeer, peerColony := c.hPeerColony, st := .offered
                                     timer := c.hTimer, window := w, offset := c.stateVa - e.base, len := c.stateLen, cmd := some cmd }
          let s2 := waitIn (addPeer s1 c.colony c.hPeer c.job) cmd
          handoffMsg s2 c 0x10 [c.hseq, w, c.hPeerColony, c.stateVa - e.base, c.stateLen] (some cmd)))

/-- OFFER arrives (R349, R365, R366 step 2): BUSY without a free record; a record of its key stands as it is. -/
def execOffer (port : Nat) (m : CtlHeader) (hseq window rcol offset len : Nat) (s : State) : Res :=
  .next (once s port m (fun _ => s) (fun t =>
    if !colonyWf rcol || (colAt t rcol).st != .active then acked t m 0x0E
    else if (findHandoff t rcol m.job hseq m.src m.scol).isSome then acked t m 0
    else match freeHandoff t with
      | none => sendBusy t m
      | some i =>
        acked (setHandoff t i { colony := rcol, job := m.job, hseq := hseq, peer := m.src, peerColony := m.scol, st := .offerSeen, timer := 5000
                                window := window, offset := offset, len := len }) m 0))

/- ACCEPT (R366 steps 3 to 5). -/

/-- The state's lines have all been read: the attempt ends, its region goes to its commit. -/
def finishAccept (s : State) (id : Nat) : State :=
  match cmdAt s id with
  | none => s
  | some c =>
    if c.phase = .running ∧ c.op = 0x34 ∧ c.stateLen ≤ c.moved then modCmd (chargeAttempt s id true) id (fun x => { x with phase := .ended }) else s

/-- The target of a read can be written: its first and last line are looked up before it is issued. An error is the state in which the
engine stopped. -/
def readTarget (s : State) (id : Nat) (c : Cmd) (eng : Option Nat) (va len : Nat) : Except State State :=
  match reach s id c eng va .write with
  | .stop t => .error t
  | .at_ t _ _ => match reach t id c eng (va + len - 64) .write with
    | .stop u => .error u
    | .at_ u _ _ => .ok u

/-- READs go out while tags are free (R347, R366 step 3). `stage` holds the lines asked for so far. -/
def sendReads (id : Nat) (eng : Option Nat) : Nat → State → State
  | 0, s => s
  | k + 1, s =>
    match cmdAt s id with
    | none => s
    | some c =>
      if c.phase ≠ .running ∨ c.stateLen ≤ 64 * c.stage then s
      else match cmdHandoff s c with
        | none => s
        | some (_, h) =>
          match requestPort s c c.hPeer with
          | .error st => noRoute s id st
          | .ok (e, out) =>
            match freeReqTag (portAt s e) with
            | none => s
            | some tag =>
              let n := min (if c.cls = 0 then 4 else 64) (c.stateLen / 64 - c.stage)
              match readTarget s id c eng (c.stateVa + 64 * c.stage) (64 * n) with
              | .error t => t
              | .ok s =>
                let hd := requestHeader s c e tag h.window c.hseq (h.offset + 64 * c.stage) c.hPeer 0 false
                let r : FabReq := { tag := tag, kind := .read, cmd := id, step := 0, unit := c.stage, units := n, colony := c.colony
                                    instar := stampOf s c.colony, xepoch := (colAt s c.colony).epoch, dst := c.hPeer, window := h.window, offset := hd.offset }
                let s1 := inflightInc (modPort s e (fun q => { q with reqs := q.reqs ++ [r] })) c.colony r.instar
                sendReads id eng k (putPacket (modCmd s1 id (fun x => { x with stage := x.stage + n })) out c.cls 3 hd (zeros n))

/-- A running ACCEPT goes as far as it can. -/
def acceptProgress (s : State) (id : Nat) : State :=
  match cmdAt s id with
  | none => s
  | some c => finishAccept (sendReads id (localEngine s c) (c.stateLen / 64 + 1) s) id

/-- An ACCEPT whose OFFER is seen starts its attempt (R165, R166, R353). -/
def startAccept (s : State) (id i : Nat) (h : Handoff) (c : Cmd) : State :=
  if conflicted s id c then waitIn s id
  else match reserveOf (colAt s c.colony) (needOf (touchedPages (colAt s c.colony) c.regions)) with
    | .never => refuseCmd s id 0x0B 0 0
    | .wait => waitIn s id
    | .taken fs col =>
      let first := if c.phase = .started then 0 else 1
      let s1 := setCmd (setCol s c.colony col) id { c with
        phase := .running, reserve := fs, moved := 0, stage := 0, attempts := c.attempts + first, startTick := s.ticks, attemptNs := 0
        cls := portClass s c }
      let s2 := setHandoff (addPeer s1 c.colony c.hPeer c.job) i { h with st := .accepting, timer := c.hTimer, cmd := some id }
      acceptProgress s2 id

/-- HANDOFF_ACCEPT (R147, R366 step 3, R367): it waits for a matching OFFER, starts, and repeated goes on. -/
def execHandoffAccept (cmd : Nat) (s : State) : Res :=
  match cmdAt s cmd with
  | none => .next s
  | some c =>
    if c.op = 0x34 ∧ c.hPhase = 2 ∧ c.phase = .running then .next (if serving s then settleColonies (acceptProgress s cmd) else s)
    else .next (handoffRow s cmd 2 (fun c =>
      match cmdHandoff s c with
      | none => waitIn s cmd
      | some (i, h) =>
        if h.st = .declined then refuseCmd s cmd 0x0B 0 0
        else if h.st = .offerSeen ∨ (h.st = .accepting ∧ h.cmd = some cmd) then
          (if h.len ≠ c.stateLen then refuseCmd s cmd 0x0B 0 0 else startAccept s cmd i h c)
        else waitIn s cmd))

/-- ACCEPT arrives (R349, R366 step 5). -/
def execAccept (port : Nat) (m : CtlHeader) (hseq rcol : Nat) (s : State) : Res :=
  .next (once s port m (fun _ => s) (fun t =>
    match handoffOf t m.job hseq m.src rcol with
    | some (i, h) => acked (if h.st = .offered then setHandoff t i { h with st := .acceptedSeen } else t) m 0
    | none => acked t m 0))

/- The reads (R347, R352, R366). -/

/-- The first line of a range that cannot be read, with its channel, DPA and reason. -/
def badLine (s : State) (colony : Nat) : Nat → Nat → Option (Nat × Nat × BadRead)
  | _, 0 => none
  | va, k + 1 =>
    match vaLines s colony .read va 1 with
    | .error (.bad ch dpa p) => some (ch, dpa, p)
    | _ => badLine s colony (va + 64) k

/-- READ_PACKET (R352, R355, R366): committed lines of the offered state leave in READ_DATA. -/
def execReadPacket (port : Nat) (h : FabHeader) (lines : Nat) (s : State) : Res :=
  match bulkArrives s port h with
  | none => .next s
  | some s0 =>
    let (s1, got) := windowCheck s0 h.src h.scol h.instar h.job h.boottag h.window (fun w => w.rd)
    match got with
    | .error st => .next (settleColonies (refusePacket s1 h st 4))
    | .ok w =>
      let va := w.base + h.offset
      if lines = 0 ∨ h.offset % 64 ≠ 0 ∨ !inWindow w va (64 * lines) then .next (refusePacket s1 h 0x04 w.cls)
      else if !windowServed s1 w then .next (refusePacket s1 h 0x0E w.cls)
      else if !(findHandoff s1 w.colony h.job h.cseq h.src h.scol).any (fun e => e.2.st == .offered) then .next (refusePacket s1 h 0x0B w.cls)
      else match targetProblem s1 w.colony .read va (64 * lines) with
        | some st => .next (refusePacket s1 h st w.cls)
        | none =>
          if arrivalWaits s1 w.colony w.cls none (some (port % 16)) false va (64 * lines) then .next s
          else match badLine s1 w.colony va lines with
          | some (ch, dpa, p) => .next (refusePacket (lineRecord s1 ch w.colony dpa none 0 0 p false).1 h (badStatus p) w.cls)
          | none =>
            match vaLines s1 w.colony .read va lines with
            | .error _ => .next (refusePacket s1 h 0x04 w.cls)
            | .ok d => .next (countOut (replyPacket (noteLines (664 + port % 16) w.cls w.colony .read s1 va lines) h 4 0 w.cls d) w.colony port d.length)

/-- READ_DATA (R347, R366, R423): the lines asked for go into the ACCEPT's output region. -/
def execReadData (port : Nat) (h : FabHeader) (payload : List Byte) (s : State) : Res :=
  match bulkArrives s port h with
  | none => .next s
  | some s0 =>
    match requestOf s0 h with
    | none => .next (settleColonies (lateReply s0 h))
    | some r =>
      match cmdAt s0 r.cmd with
      | none => .next (lateReply s0 h)
      | some c =>
        if r.kind ≠ .read then .next (lateReply s0 h)
        else if arrivalWaits s c.colony c.cls (some c) none true (c.stateVa + 64 * r.unit) (64 * r.units) then .next s
        else match enginePut r.cmd c none (r.units + 1) (c.stateVa + 64 * r.unit) (padTo (64 * r.units) payload) (freeReq s0 h.tagPort r) with
          | .stop t => .next (settleColonies t)
          | .data t _ => .next (settleColonies (acceptProgress (modCmd t r.cmd (fun x => { x with moved := x.moved + 64 * r.units })) r.cmd))

/- RELEASE (R366 steps 6 to 8). -/

/-- HANDOFF_RELEASE (R147, R343, R366 step 6): it waits for ACCEPTED_SEEN. -/
def execHandoffRelease (cmd : Nat) (s : State) : Res :=
  .next (handoffRow s cmd 3 (fun c =>
    match cmdHandoff s c with
    | some (i, h) =>
      if h.st = .acceptedSeen then
        match peerRoute s c with
        | some st => refuseCmd s cmd st 0 0
        | none =>
          handoffMsg (setHandoff (waitIn s cmd) i { h with st := .releasing, cmd := some cmd, timer := c.hTimer }) c 0x12 [c.hseq, c.hPeerColony] (some cmd)
      else waitIn s cmd
    | none => waitIn s cmd))

/-- RELEASE arrives (R349, R366 step 7): its ACK is the RELEASE_ACK. -/
def execRelease (port : Nat) (m : CtlHeader) (hseq rcol : Nat) (s : State) : Res :=
  .next (once s port m (fun _ => s) (fun t =>
    match findHandoff t rcol m.job hseq m.src m.scol with
    | some (i, h) => acked (if h.st = .accepted then dropHandoff t i else t) m 0
    | none => acked t m 0))

/-- The release is complete (R366 step 8, R367): the record is freed and its command completes OK. -/
def released (s : State) (i : Nat) (h : Handoff) : State :=
  match h.cmd with
  | some id => if (cmdAt s id).any (fun c => c.phase == .started) then completeOk (dropHandoff s i) id 0 else dropHandoff s i
  | none => dropHandoff s i

/- AUDIT (R367). -/

/-- The local state of a key. -/
def localState (s : State) (colony job hseq peer peerColony : Nat) : HState :=
  match findHandoff s colony job hseq peer peerColony with
  | some (_, h) => h.st
  | none => .none

/-- HANDOFF_AUDIT (R147, R367): the question goes out; its answer completes the command. -/
def execHandoffAudit (cmd : Nat) (s : State) : Res :=
  .next (handoffRow s cmd 4 (fun c =>
    if c.phase = .started then s
    else match peerRoute s c with
      | some st => refuseCmd s cmd st 0 0
      | none =>
        handoffMsg (waitIn s cmd) c 0x13 [c.hseq, (localState s c.colony c.job c.hseq c.hPeer c.hPeerColony).code, 0] (some cmd)))

/-- An AUDIT_R, not acknowledged: the responder's colony and its state, no colony for NONE (R348, R367). -/
def sendAuditR (s : State) (m : CtlHeader) (hseq colony state : Nat) : State :=
  sendMsg s 0x14 m.src colony (stampOf s colony) m.job [hseq, state] none

/-- The state that a record answers an audit with (R367): a withdrawal declines what is not accepted, and so does a sender that
believes the state accepted where this side denies it. -/
def auditState (st : HState) (asker : Nat) (withdraw : Bool) : HState :=
  if (withdraw && (st == .offerSeen || st == .accepting)) || (asker == 5 && st == .offerSeen) then .declined else st

/-- AUDIT_Q arrives (R348, R349, R367): acknowledged, and answered with the state of the record. -/
def execAuditQ (port : Nat) (m : CtlHeader) (hseq state : Nat) (withdraw : Bool) (s : State) : Res :=
  let found (t : State) : Option (Nat × Handoff) := handoffOf t m.job hseq m.src m.scol
  let answer (t : State) : State :=
    match found t with
    | some (_, h) => sendAuditR t m hseq h.colony h.st.code
    | none => sendAuditR t m hseq 0 0
  if (answered s m.src m.mseq).isSome then
    .next (if arrives s port m.dst m.src then answer (sendAck s m 0) else s)
  else
    .next (once s port m (fun _ => s) (fun t =>
      let t1 := match found t with
        | some (i, h) => setHandoff t i { h with st := auditState h.st state withdraw }
        | none => t
      answer (acked t1 m 0)))

/-- A code as a state. -/
def hstateOf (n : Nat) : HState :=
  match n with
  | 1 => .offered
  | 2 => .offerSeen
  | 3 => .accepting
  | 4 => .accepted
  | 5 => .acceptedSeen
  | 6 => .releasing
  | 7 => .retaken
  | 8 => .declined
  | _ => .none

/-- R367's resolution of a record against the peer's state; `timed` for an audit by the handoff timer, which withdraws. -/
def resolve (s : State) (i : Nat) (h : Handoff) (peer : HState) (timed : Bool) : State :=
  let send (t : State) (mtype : Nat) (body : List Nat) : State := sendMsg t mtype h.peer h.colony (stampOf t h.colony) h.job body none
  match h.st, peer with
  | .offered, .accepted => setHandoff s i { h with st := .acceptedSeen }
  | .offered, .declined => dropHandoff s i
  | .offered, .none => if timed then send s 0x13 [h.hseq, 1, 1] else s
  | .offered, .offerSeen => if timed then send s 0x13 [h.hseq, 1, 1] else s
  | .offered, .accepting => if timed then send s 0x13 [h.hseq, 1, 1] else s
  | .acceptedSeen, .none => setHandoff s i { h with st := .retaken }
  | .acceptedSeen, .offerSeen => setHandoff s i { h with st := .retaken }
  | .acceptedSeen, .declined => setHandoff s i { h with st := .retaken }
  | .releasing, .accepted => send s 0x12 [h.hseq, h.peerColony]
  | .releasing, .none => released s i h
  | .accepted, .none => dropHandoff s i
  | _, _ => s

/-- The AUDIT_Q that an answer belongs to: the oldest toward its sender for the job and HSEQ. -/
def auditOf (s : State) (m : CtlHeader) (hseq : Nat) : Option OutMsg :=
  s.fab.unacked.find? (fun x => x.mtype == 0x13 && x.dst == m.src && x.job == m.job && x.body.headD 0 == hseq)

/-- The record that an answer concerns: of the asking colony, toward the responder's colony where the answer names one. -/
def auditedRecord (s : State) (x : OutMsg) (m : CtlHeader) (hseq : Nat) : Option (Nat × Handoff) :=
  s.fab.handoffs.find? (fun e => e.2.colony == x.scol && e.2.job == m.job && e.2.hseq == hseq && e.2.peer == m.src &&
    (m.scol == 0 || e.2.peerColony == m.scol))

/-- An unacknowledged message is forgotten. -/
def dropUnacked (s : State) (mseq : Nat) : State :=
  { s with fab := { s.fab with unacked := s.fab.unacked.filter (fun x => x.mseq != mseq) } }

/-- AUDIT_R arrives (R348, R367): the record is resolved; an AUDIT completes with both states and whether this side owns. A
sender whose withdrawal finds no record frees its own. -/
def execAuditR (port : Nat) (m : CtlHeader) (hseq state : Nat) (s : State) : Res :=
  if !arrives s port m.dst m.src then .next s
  else match auditOf s m hseq with
    | none => .next s
    | some x =>
      let s1 := dropUnacked s x.mseq
      let peer := hstateOf state
      let rec_ := auditedRecord s1 x m hseq
      let withdrew := x.body.getD 2 0 == 1
      let s2 := match rec_ with
        | some (i, h) => if withdrew ∧ h.st = .offered ∧ peer = .none then dropHandoff s1 i else resolve s1 i h peer (x.cmd.isNone && !withdrew)
        | none => s1
      match x.cmd with
      | none => .next s2
      | some id =>
        if !(cmdAt s2 id).any (fun c => c.phase == .started) then .next s2
        else
          let after : HState := match rec_ with
            | some (i, _) => ((tfind s2.fab.handoffs i).map (fun h : Handoff => h.st)).getD .none
            | none => .none
          let kept := match rec_ with | some (_, h) => h.st == .accepted && peer == .none | none => false
          .next (completeOk s2 id (after.code + 256 * state + 65536 * b2n (after.owns || kept)))

/- ACK and BUSY (R346, R348). -/

/-- A BARRIER's acknowledgement (R352, R360): its SEND_BAR step has completed, or its command ends. -/
def barrierAcked (s : State) (x : OutMsg) (status : Nat) : State :=
  match x.cmd with
  | none => s
  | some id =>
    match cmdAt s id with
    | none => s
    | some c =>
      if c.phase ≠ .running then s
      else if status ≠ 0 then endCollective s id status
      else match findIdx? (fun p => p.op == 5 && !p.done && decide (0 < p.sent) && p.peer == x.dst && p.window == x.body.getD 1 0) c.plan with
        | none => s
        | some (i, _) => progress (modStep s id i (fun p => { p with done := true, acked := 1 })) id

/-- An OFFER's acknowledgement (R366 step 1). -/
def offerAcked (s : State) (x : OutMsg) (status : Nat) : State :=
  match x.cmd with
  | none => s
  | some id =>
    match cmdAt s id with
    | none => s
    | some c =>
      if c.phase ≠ .started then s
      else if status = 0 then completeOk s id 0
      else refuseCmd (match cmdHandoff s c with | some (i, _) => dropHandoff s i | none => s) id status 0 0

/-- A RELEASE's acknowledgement (R366 step 8). -/
def releaseAcked (s : State) (x : OutMsg) : State :=
  match findHandoff s x.scol x.job (x.body.getD 0 0) x.dst (x.body.getD 1 0) with
  | some (i, h) => if h.st = .releasing then released s i h else s
  | none => s

/-- A colony no longer awaits a message (R212, R213). -/
def noLongerAwaited (s : State) (mseq : Nat) : State :=
  { s with cols := s.cols.map (fun e => (e.1, { e.2 with awaiting := e.2.awaiting.filter (fun k => k != mseq) })) }

/-- ACK arrives (R346, R348): the message is acknowledged; an AUDIT_Q goes on waiting for its answer. -/
def execAck (port : Nat) (m : CtlHeader) (mseq status : Nat) (s : State) : Res :=
  if !arrives s port m.dst m.src then .next s
  else match s.fab.unacked.find? (fun x => x.mseq == mseq && x.dst == m.src) with
    | none => .next s
    | some x =>
      if x.mtype = 0x13 then
        .next { s with fab := { s.fab with unacked := s.fab.unacked.map (fun y => if y.mseq = mseq then { y with acked := true } else y) } }
      else
        let s1 := noLongerAwaited (dropUnacked s mseq) mseq
        let s2 := if x.mtype = 1 then barrierAcked s1 x status
          else if x.mtype = 0x10 then offerAcked s1 x status
          else if x.mtype = 0x12 then releaseAcked s1 x
          else s1
        .next (settleColonies s2)

/-- BUSY arrives (R348, R359, R365): the message was not acted on and stays unacknowledged, so it is retransmitted. -/
def execBusy (port : Nat) (m : CtlHeader) (mseq : Nat) (s : State) : Res :=
  .next (if arrives s port m.dst m.src then
    { s with fab := { s.fab with unacked := s.fab.unacked.map (fun x => if x.mseq = mseq ∧ x.dst = m.src then { x with busy := true } else x) } }
  else s)

/- Timers (R346, R366, R367, R482). -/

/-- The ports toward a device: those whose partner it is, else the one that the route takes. -/
def portsToward (s : State) (dst : Nat) : List Nat :=
  let direct := (s.ports.filter (fun e => e.2.peerValid && e.2.peerFaddr == dst)).map (fun e => e.1)
  if direct.isEmpty then (match route s 0 0 s.fab.faddr dst 0 with | .port n => [n] | _ => []) else direct

/-- A peer that has not acknowledged a revoke or retire is fenced (R212, R213): a record, and the port toward it (log entry 31). -/
def fencePeer (s : State) (colony dst : Nat) : State :=
  let s1 := (portsToward s dst).foldl (fun t n =>
    let (t1, i) := recordFault t (nameUnit t { blankRec 0x40 4 (.port n) colony with status := 0x0F } (.port n))
    fencePortAs t1 n 0x0F i 1) s
  modCol s1 colony (fun c => { c with peerFenced := true })

/-- The colonies that await a message. -/
def awaiters (s : State) (mseq : Nat) : List Nat := (s.cols.filter (fun e => e.2.awaiting.contains mseq)).map (fun e => e.1)

/-- The outcome of a message that is never acknowledged (R346). -/
def messageTimeout (s : State) (x : OutMsg) : State :=
  let s1 := dropUnacked s x.mseq
  let waiting := awaiters s1 x.mseq
  let s2 := noLongerAwaited (waiting.foldl (fun t c => fencePeer t c x.dst) s1) x.mseq
  match x.cmd with
  | none => s2
  | some id =>
    if x.mtype = 1 ∨ x.mtype = 0x10 ∨ x.mtype = 0x12 ∨ x.mtype = 0x13 then
      (if (cmdAt s2 id).any (fun c => c.phase == .running || c.phase == .started) then
        endCollective s2 id 0x07
      else s2)
    else s2

/-- FABRIC_TIMEOUT (R346, R359, R363): of a remote request by its tag below 4,096, else of the message `mseq`. A request or a BARRIER
that was answered BUSY waits for its retry without limit. -/
def execFabricTimeout (port tag mseq : Nat) (s : State) : Res :=
  if !serving s then .next s
  else if tag < 4096 then
    match (portAt s port).reqs.find? (fun r => r.tag == tag) with
    | none => .next s
    | some r => .next (if r.waiting then s else settleColonies (endCollective s r.cmd 0x07))
  else
    match s.fab.unacked.find? (fun x => x.mseq == mseq) with
    | none => .next s
    | some x => .next (if x.mtype = 1 ∧ x.busy then s else settleColonies (messageTimeout s x))

/-- FLR_WAIT_CUT (R482 step 4): 80 ms after Initiate FLR, peers of the VF's colony that have not acknowledged are treated as in
R213. -/
def execFlrWaitCut (vf : Nat) (s : State) : Res :=
  if !serving s || !s.pcie.flr.contains vf then .next s
  else
    let cut (t : State) (e : Nat × Colony) : State :=
      if e.2.vf ≠ vf ∨ e.2.awaiting.isEmpty then t
      else
        let late := t.fab.unacked.filter (fun x => e.2.awaiting.contains x.mseq)
        let t1 := (sortNat (late.map (fun x => x.dst))).foldl (fun u d => fencePeer u e.1 d) t
        modCol (late.foldl (fun u x => dropUnacked u x.mseq) t1) e.1 (fun c => { c with awaiting := [] })
    .next (settleColonies (s.cols.foldl cut s))

/-- HANDOFF_TIMER (R367, R370): a record has made no progress for its TIMER: it audits. A DECLINED or RETAKEN record has nothing
to resolve. -/
def execHandoffTimer (index : Nat) (s : State) : Res :=
  if !serving s then .next s
  else match tfind s.fab.handoffs index with
    | none => .next s
    | some h =>
      if h.st = .declined ∨ h.st = .retaken then .next s
      else
        let s1 := { s with fab := { s.fab with hoffTimers := wrapAdd 32 s.fab.hoffTimers 1 } }
        .next (sendMsg s1 0x13 h.peer h.colony (stampOf s1 h.colony) h.job [h.hseq, h.st.code, 0] none)

/-- HANDOFF_WAIT_TIMEOUT (R366 steps 3 and 6): the wait of an ACCEPT or a RELEASE ends. -/
def execHandoffWaitTimeout (cmd : Nat) (s : State) : Res :=
  match cmdAt s cmd with
  | none => .next s
  | some c =>
    let released := c.hPhase == 3 && (cmdHandoff s c).any (fun e => e.2.st == .releasing && e.2.cmd == some cmd)
    if serving s && c.op == 0x34 && c.phase == .started && (c.hPhase == 2 || c.hPhase == 3) && !released then
      .next (refuseCmd s cmd 0x0C 0 0)
    else .next s

/-- DECLINED_EXPIRY (R367): a DECLINED record has lived for 4 × TIMER. -/
def execDeclinedExpiry (index : Nat) (s : State) : Res :=
  match tfind s.fab.handoffs index with
  | none => .next s
  | some h => .next (if serving s ∧ h.st = .declined then dropHandoff s index else s)

end Sys2Proof.Machine
end

