-- ==== Sys2Proof/Machine/Boot.lean ====
section
/-! DEFINITION. Reset and boot (R459 to R473): reset entry, the steps of the boot, the bundle's checks, and fuse writes
(R374, R375). -/

namespace Sys2Proof.Machine

/- Reset entry (R459, R460, R469, R470). -/

/-- What a device reset leaves (R459): the fuses, the pins, and a thermal trip until power is removed (R443); beside them the
model's own queue, output log and count of free values. Everything else is as at power-up. -/
def resetEntry (s : State) : State :=
  let z := s.sec
  { ({} : State) with
    pending := s.pending, out := s.out, free := s.free
    sec := { ({} : Security) with
      lcSteps := z.lcSteps, fuseSvn := z.fuseSvn, boots := z.boots, spareRows := z.spareRows, secret := z.secret, idRoot := z.idRoot
      fwRoot := z.fwRoot, ownerRoot := z.ownerRoot, mgmtRoots := z.mgmtRoots, idhash := z.idhash }
    pwr := { ({} : Power) with trip := s.pwr.trip, coolantOk := s.pwr.coolantOk, railGood := s.pwr.railGood }
    boot := { ({} : Boot) with perstLow := s.boot.perstLow, powered := s.boot.powered } }

/-- Step 1 (R446, R447, R461): the root PLLs lock, the counter starts at 0, every compute die is at P4; then step 2 waits for the
coolant. -/
def bootStart (s : State) : State :=
  if !s.boot.powered || s.boot.perstLow then s
  else { s with
    ticks := 0
    pwr := { s.pwr with rootLock := 31, zltLock := true, pcieLock := true }
    boot := { s.boot with inReset := false, hotHeld := false, stage := .hold, coolWait := true } }

/-- A device reset whose boot follows at once (R459). -/
def resetAndBoot (s : State) : State := bootStart (resetEntry s)

/-- POWER_ON (R439, R459): the rails rise with PERST_N low; power had been removed, so a thermal trip is over. -/
def execPowerOn (s : State) : Res :=
  if !s.boot.perstLow then .next s
  else
    let s1 := resetEntry s
    .next { s1 with pwr := { s1.pwr with trip := false, railGood := 0xFFF }, boot := { s1.boot with powered := true } }

/-- PERST_N_ASSERT (R459, R460): PERST_N has been low for 100 µs. -/
def execPerstNAssert (s : State) : Res := .next { resetEntry s with boot := { (resetEntry s).boot with perstLow := true } }

/-- PERST_N_RELEASE (R461). -/
def execPerstNRelease (s : State) : Res :=
  .next (if s.boot.perstLow then bootStart { s with boot := { s.boot with perstLow := false } } else s)

/-- A DEVICE fault or a failed boot is ended only by PERST_N or power-on (R426, R459, R472). -/
def stopped (s : State) : Bool := s.flt.fatal || s.boot.stage == .failed

/-- HOT_RESET: a hot reset or link disable (R459, R460); while the device is stopped it resets only the endpoint's link state. -/
def execHotReset (s : State) : Res :=
  if !s.boot.powered || s.boot.perstLow || s.boot.inReset then .next s
  else if stopped s then .next { s with boot := { s.boot with link := false, cfg := false }, pcie := {} }
  else
    let s1 := resetEntry s
    .next { s1 with boot := { s1.boot with hotHeld := true } }

/-- HOT_RESET_END (R459, R461). -/
def execHotResetEnd (s : State) : Res := .next (if s.boot.hotHeld then bootStart s else s)

/-- SURPRISE_REMOVAL (R484): the link goes down without a hot reset. Before RUNNING, and after a device stop, only the endpoint is
reset. -/
def execSurpriseRemoval (s : State) : Res :=
  if !s.boot.link then .next s
  else if serving s then .next (settleColonies (linkLost s))
  else .next { s with boot := { s.boot with link := false }, pcie := {} }

/-- PCIE_LINK_TRAINING_DONE (R461 step 8, R484): after a surprise removal configuration space is served again. DEDUCED (log
entry 121): R461 starts step 8 once step 4 ends and R463 counts from PERST_N release; the model lets training finish at any
time out of reset, STAGE HOLD included. -/
def execPcieLinkTrainingDone (s : State) : Res :=
  .next (if s.boot.powered && !s.boot.inReset then { s with boot := { s.boot with link := true, cfg := s.boot.cfg || s.boot.removed } } else s)

/-- CONFIGURATION_RETRY_END (R463). -/
def execConfigurationRetryEnd (s : State) : Res :=
  .next (if s.boot.powered && !s.boot.inReset then { s with boot := { s.boot with cfg := true } } else s)

/- Fuses (R374, R375). -/

/-- A fuse write whose read-back `ok` tells: a row that fails is replaced by a spare row; with none left the write fails, and the
failure and the exhaustion are reported (R375, R415, R427). -/
def burn (s : State) (ok : Bool) : State × Bool :=
  if ok then (s, true)
  else if 0 < s.sec.spareRows then ({ s with sec := { s.sec with spareRows := s.sec.spareRows - 1 } }, true)
  else ((recordFault (recordFault s (blankRec 0x30 0 .none 0)).1 (blankRec 0x33 0 .none 0)).1, false)

/- Steps 3 and 4 (R383, R384, R394, R399, R461, R462, R472). -/

/-- A boot that cannot complete (R472). -/
def bootFails (s : State) (code : Nat) : State := { s with boot := { s.boot with stage := .failed, refuse := code, coolWait := false } }

/-- The control cores by self-test (R421, R461, R462): the first 6 that pass are active, the next 2 standby. There are 8 (R267). -/
def ctrlTested (pass : List Nat) : Tbl CtrlCore :=
  let good := (List.range 8).filter (fun k => pass.contains k)
  (List.range 8).map (fun k => (k, match findIdx? (fun g => g == k) good with
    | none => CtrlCore.failed
    | some (i, _) => if i < 6 then .active else .standby))

/-- R383's burn: the step counts, or the device has no LMS identity (R384). -/
def burnBoot (s : State) (ok : Bool) : State :=
  if 8192 ≤ s.sec.boots then { s with sec := { s.sec with lmsExhausted := true } }
  else match burn s ok with
    | (s1, true) => { s1 with sec := { s1.sec with boots := s1.sec.boots + 1 } }
    | (s1, false) => { s1 with sec := { s1.sec with lmsExhausted := true } }

/-- BOOT_SELFTEST: COOLANT_OK has been high for 1 ms (R442, R461 steps 2 to 4). The keys drawn come with the command; the
key-agreement pair is fresh (log entries 4 and 22). -/
def execBootSelftest (ctrlPass : List Nat) (fusesOk collectorOk rngOk burnOk : Bool) (boottag : Nat) (deviceKey : BitVec 256) (s : State) : Res :=
  if !clocked s || s.boot.stage != .hold || !s.pwr.coolantOk || boottag % 2 ^ 32 == 0 then .next s
  else
    let ctrl := ctrlTested ctrlPass
    let active := (ctrl.filter (fun e => e.2 == .active)).length
    if active = 0 then .next (bootFails s 0x81)
    else if !fusesOk then .next (bootFails s 0x82)
    else if !collectorOk then .next (bootFails s 0x83)
    else if !rngOk then .next (bootFails s 0x85)
    else
      let s1 := burnBoot (modHub s (fun h => { h with ctrl := ctrl })) burnOk
      let (k, s2) := drawFree s1
      .next { s2 with
        sec := { s2.sec with deviceKey := deviceKey, kaPriv := k % 2 ^ 384, kaPub := Config.digest 20 (leBytes 48 (k % 2 ^ 384)) % 2 ^ 776 }
        fab := { s2.fab with bootTag := boottag % 2 ^ 32 }
        flt := { s2.flt with degraded := decide (active < 6) }
        mgt := { s2.mgt with link := true }
        boot := { s2.boot with stage := .waitBundle, coolWait := false, waitFrom := s2.ticks } }

/-- Step 4 has passed, the boot goes on or is over, and nothing has stopped the device. -/
def pastStep4 (s : State) : Bool :=
  clocked s && (match s.boot.stage with
    | .hold => false
    | .selftest => false
    | .failed => false
    | _ => true)

/-- LOWER_TREE_DONE (R383, R384). -/
def execLowerTreeDone (s : State) : Res :=
  .next (if pastStep4 s && !s.boot.treeDone && !s.sec.lmsExhausted then
    announceAll { s with boot := { s.boot with treeDone := true }, sec := { s.sec with lmsLeft := 32768 } }
  else s)

/- Steps 5, 6 and 11 (R17, R461, R462, R467, R469). -/

/-- Step 12 begins once the bundle is accepted, steps 5 and 6 are done and the repairs have run (R461, R471). -/
def tryStart (s : State) : State :=
  if s.boot.stage == .ready && s.boot.prepDone && (s.boot.ppr.isEmpty || s.boot.pprRun) then { s with boot := { s.boot with stage := .start } } else s

/-- The physical tiles of a die whose cores pass, in rising order (R17): 168 tiles a die. -/
def passTiles (failed : List (Nat × Nat)) (die : Nat) : List Nat := (List.range 168).filter (fun t => !failed.contains (die, t))

/-- The numbers of a die's cores by R17: those without a tile start FENCED and are never replaced. -/
def numberCores (s : State) (failed : List (Nat × Nat)) (die : Nat) : List (Nat × Core) :=
  let tiles := passTiles failed die
  (List.range 160).map (fun i =>
    let c := coreAt s (160 * die + i)
    (160 * die + i, match tiles[i]? with
      | some t => { c with phys := t }
      | none => { c with phys := 0xFF, st := .fenced }))

/-- A channel that fails training or its wipe's read-back starts FENCED, with a record that names it (R462). -/
def channelFails (s : State) (ch : Nat) : State :=
  if 512 ≤ ch ∨ (chanAt s ch).mode = .fenced then s
  else fencedRecs (modChan (recordFault s (blankRec 0x20 4 (.channel ch) 0)).1 ch (fun c => { c with mode := .fenced })) (.channel ch)

/-- BOOT_PREP_DONE (R17, R461 steps 5 and 6, R462, R469). `failedTiles` names (die, tile). -/
def execBootPrepDone (failedTiles : List (Nat × Nat)) (failedChannels : List Nat) (s : State) : Res :=
  if !pastStep4 s || s.boot.prepDone then .next s
  else
    let s1 := { s with
      cores := ([0, 1, 2, 3] : List Nat).flatMap (numberCores s failedTiles)
      chans := (List.range 512).map (fun n => (n, { chanAt s n with slicePhys := Config.sliceTile n % 168 }))
      boot := { s.boot with prepDone := true, badChannels := failedChannels
                            spares := ([0, 1, 2, 3] : List Nat).map (fun d => (d, (passTiles failedTiles d).drop 160)) } }
    .next (tryStart (failedChannels.foldl channelFails s1))

/-- BOOT_PPR (R461 step 11, R467): the entries of `failed`, by position, are reported failed. The rows wiped held nothing. -/
def execBootPpr (failed : List Nat) (s : State) : Res :=
  if s.boot.stage != .ready || !s.boot.prepDone || s.boot.pprRun || s.boot.ppr.isEmpty || !clocked s then .next s
  else
    let bad := (enumNat s.boot.ppr).filter (fun e => failed.contains e.1)
    .next (tryStart { s with boot := { s.boot with
      pprRun := true, pprDone := s.boot.ppr.length - bad.length, pprFail := bad.length, pprBad := bad.map (fun e => e.2) } })

/- Steps 9 and 10: the bundle (R387, R388, R464 to R466). -/

/-- The lengths that HUB.BOOTLEN may hold (R464, R468). -/
def bundleLenOk (n : Nat) : Bool := n % 64 == 0 && decide (256 ≤ n) && decide (n ≤ 33554432)

/-- The image is of a kind that the lifecycle and the fuses accept (R377, R387). -/
def imageAccepted (s : State) (b : Bundle) (img : List Byte) : Bool :=
  manifestOk img && b.imageSigned && (!imageFactoryOnly img || lifecycle s == 1) &&
  (s.sec.ownerRoot.isNone || (imageOwnerSigned img && b.ownerSigned))

/-- R466's checks in order: the code of the first that fails. `source` is bit 0 for PCI Express, bit 1 for the management port;
`len` is the bundle's length. -/
def bundleRefusal (s : State) (b : Bundle) (len source : Nat) : Option Nat :=
  let d := padTo len b.bytes
  let chain := sectionBytes d 2
  let img := sectionBytes d 4
  if !b.readable then some 0x01
  else if !bundleLenOk len || !bundleFormOk d || !configOk (sectionBytes d 1) then some 0x02
  else if !s.mgt.policySrc.getLsbD source then some 0x03
  else if lifecycle s = 0 ∨ lifecycle s = 4 then some 0x04
  else if !chainRuns chain s.sec.idRoot || !b.chainSigned then some 0x05
  else if certIdhash chain != s.sec.idhash || !b.hssMatch then some 0x06
  else if !pcalNames (sectionBytes d 3) s.sec.idhash || !b.pcalSigned then some 0x07
  else if !imageAccepted s b img then some 0x08
  else if imageSvn img < s.sec.fuseSvn ∨ imageSvn img < s.mgt.policyFloor then some 0x09
  else none

/-- Time in WAIT_BUNDLE so far, in µs (R468). -/
def waitSoFar (s : State) : Nat := min (2 ^ 32 - 1) (s.boot.waitUs + (s.ticks - s.boot.waitFrom) * 64 / 10000)

/-- A bundle is received and verified (R466, R468): refused, with the code kept, or accepted. -/
def takeBundle (s : State) (b : Bundle) (len source : Nat) : State × Option Nat :=
  let boot := { s.boot with bundles := satInc 8 s.boot.bundles, waitUs := waitSoFar s, waitFrom := s.ticks }
  let d := padTo len b.bytes
  match bundleRefusal s b len source with
  | some code => ({ s with boot := { boot with refuse := code } }, some code)
  | none =>
    (tryStart { s with
      boot := { boot with stage := .ready, ppr := repairsOf (sectionBytes d 1), pprRun := false, chain := sectionBytes d 2, pcal := sectionBytes d 3,
                          image := sectionBytes d 4 }
      sec := { s.sec with measurement := measurementOf (sectionBytes d 4), imageSvn := imageSvn (sectionBytes d 4) }
      pwr := { s.pwr with vmin := pcalVmin (sectionBytes d 3) } }, none)

/-- The PF's boot registers take a write (R463). -/
def bootWritable (s : State) : Bool := clocked s && fnLive s .pf && s.boot.stage == .waitBundle

/-- BOOT_GO: HUB.BOOTCMD.GO (R464, R466, R468, R492): an open upload of the management port is discarded. A length that BOOTLEN may
not hold is a malformed header: no section lies within it. -/
def execBootGo (value : Word) (b : Bundle) (s : State) : Res :=
  if !bootWritable s || !bit value 0 then .next s
  else
    let s1 := if s.mgt.upload.isSome then { s with mgt := { s.mgt with upload := none, uploadLost := true, staging := [] } } else s
    let s2 := if b.readable then s1 else logAer s1 1
    .next (takeBundle s2 b s.boot.len 0).1

/-- BONOR_LOAD (R259, R425, R461 steps 12 and 13, R470): the device is RUNNING, ALIVE begins, a cold window covers it. -/
def execBonorLoad (s : State) : Res :=
  if !clocked s || s.boot.stage != .start then .next s
  else .next (announceAll { s with
    boot := { s.boot with stage := .running, runUs := s.ticks * 64 / 10000 % 2 ^ 32 }
    flt := { s.flt with toggling := true, alive := some false }
    hub := { s.hub with cold := 2 } })

end Sys2Proof.Machine
end

