-- ==== Sys2Proof/Machine/Global.lean ====
section
/-! DEFINITION. Scalar loads and stores to the colony's memory through the data cache: LDG, STG, MFENCE (R29, R81, R144,
R165 to R168, R272, R275, R297, R299). -/

namespace Sys2Proof.Machine

/-- The sequencer waits for a translation (R81, R299). -/
def stallWant (s : State) (n va : Nat) (write : Bool) : State :=
  modCore s n (fun c => { c with want := some (va, write), stall := .translation })

/-- The value of an LDG from a line. -/
def loadLine (s : State) (n : Nat) (w : Word) (a : Nat) (line : List Byte) : State :=
  let c := coreAt s n
  retire s n (setSreg c (fD w) (loaded w ((line.drop (a % 64)).take (fWidth w))))

/-- A class-0 load that meets INVALIDATING or RECALLING from SHARED is served as an NCR and not allocated (R275). -/
def urgentBypass (s : State) (c : Core) (ch off : Nat) : Bool :=
  decide (coreClass s c = 0) &&
  (chanAt s ch).dir.any (fun e => e.offset == off && (e.st == .invalidating || e.st == .recallingShared))

/-- SECDED's report of a data-cache line that is read (R29): a corrected error counts; an uncorrectable one invalidates a clean
line, which is then fetched again, and ends the command for a dirty one. The Bool says that the access goes on. -/
def dcRead (s : State) (n ch off : Nat) (e : EccReport) (index : Nat) : State × Bool :=
  match e, cacheFind (coreAt s n).dc ch off with
  | .corrected, some _ => (modCore s n (fun c => { c with dcCe := satInc 16 c.dcCe }), true)
  | .uncorrected, some l =>
    if l.mode = .modified then (sramFault s n 4 false false index, false)
    else (invalidateLine (setErr s n 4) n ch off, true)
  | _, _ => (s, true)

/-- LDG from a translated address: the data cache, else the line's home (R29, R197, R231, R272). -/
def ldgAt (s : State) (n id : Nat) (cmd : Cmd) (c : Core) (w : Word) (e : Sram) (dpa : Nat) : State :=
  let fa := readAddr s (colAt s c.colony) (some cmd) dpa
  let ch := channelOf fa
  let off := chanOff (lineBase fa)
  let (s0, ok) := dcRead s n ch off e.dc c.pc
  if !ok then s0
  else match cacheFind (coreAt s0 n).dc ch off with
  | some l => loadLine s0 n w dpa l.data
  | none =>
    match ownCheck (colAt s0 c.colony) (stampOf s0 c.colony) ch with
    | .pass =>
      if requestWaits s0 n ch off || !mayIssue s0 n (coreClass s0 c) ch off then s0
      else
        let sE := sliceError s0 ch off e.slice
        let (s1, bad) := if homeSupplies (chanAt sE ch) off .gets then checkRead sE (sourceAddr sE fa) else (sE, none)
        match bad with
        | some (p, inj) => lineFault s1 id ch dpa c.rank w p inj
        | none =>
          if urgentBypass s1 c ch off then loadLine (sliceTouch s1 (coreClass s c) ch off false) n w dpa (homeData s1 ch off)
          else
            let s2 := dirRequest s1 n ch off .gets []
            match cacheFind (coreAt s2 n).dc ch off with
            | some l => loadLine s2 n w dpa l.data
            | none => s2
    | o => ownFault s0 id c.colony o (.core n) c.rank c.pc w

/-- A cached line with bytes stored into it, modified. -/
def storeInto (s : State) (n ch off at_ : Nat) (bs : List Byte) : State :=
  modCore s n (fun c => { c with dc := c.dc.map (fun l =>
    if l.channel = ch ∧ l.offset = off then
      { l with mode := .modified, data := l.data.take at_ ++ bs ++ l.data.drop (at_ + bs.length) }
    else l) })

/-- STG to a translated address: the line of the shadow frame is taken modified, then written (R144, R165, R272). -/
def stgAt (s : State) (n id : Nat) (c : Core) (w : Word) (e : Sram) (dpa : Nat) (p : Pte) : State :=
  match bindShadow s id p with
  | none => s
  | some (sh, sB) =>
    let fa := sh.addr dpa
    let ch := channelOf fa
    let off := chanOff (lineBase fa)
    let bs := leBytes (fWidth w) (sreg c (fD w)).toNat
    let held (t : State) : Bool := match cacheFind (coreAt t n).dc ch off with
      | some l => l.mode != .shared
      | none => false
    let done (t : State) : State := let t1 := storeInto t n ch off (dpa % 64) bs; retire t1 n (coreAt t1 n)
    match ownCheck (colAt s c.colony) (stampOf s c.colony) ch with
    | .pass =>
      if (chanAt sB ch).mode == .fenced then faultCmd sB id 0x09 none false
      else
        let (s1, ok) := dcRead sB n ch off e.dc c.pc
        if !ok then s1
        else if held s1 then done s1
        else if requestWaits s1 n ch off || !mayIssue s1 n (coreClass s1 c) ch off then s1
        else
          let sE := sliceError s1 ch off e.slice
          let (s2, bad) := if homeSupplies (chanAt sE ch) off .getm then checkRead sE (sourceAddr sE fa) else (sE, none)
          match bad with
          | some (q, inj) => lineFault s2 id ch dpa c.rank w q inj
          | none =>
            let s3 := dirRequest s2 n ch off .getm []
            if held s3 then done s3 else s3
    | o => ownFault s id c.colony o (.core n) c.rank c.pc w

/-- A parity error in the core's translation cache at an address (R30): the entry is invalidated; the address then waits for
its walk. -/
def tcParity (s : State) (n colony va : Nat) : State :=
  modCore (setErr s n 5) n (fun c => { c with tc := c.tc.filter (fun x =>
    !(x.colony == colony && decide (x.va ≤ va) && decide (va < x.va + pageBytes x.size))) })

/-- The frame of LDG and STG: the address, its alignment, its translation. -/
def globalAccess (s : State) (n op : Nat) (w : Word) (e : Sram) (write : Bool) (act : State → Nat → Cmd → Core → Nat → Pte → State) : State :=
  issue s n op w (fun c =>
    let a := effAddr c w
    if 2 ^ 48 ≤ a || a % fWidth w != 0 then accessFault s n c.pc w
    else match c.cmd with
      | none => s
      | some id => match cmdAt s id with
        | none => s
        | some cmd =>
          let acc := if write then Access.write else Access.read
          let sR := rewalk s n cmd.cls c.colony a acc
          if write && !inRegions cmd a (fWidth w) then accessFault s n c.pc w
          else if agentHalted s n then s
          else if e.tc && (tcHit c.tc c.colony (stampOf s c.colony) a).isSome then stallWant (tcParity s n c.colony a) n a write
          else match tcLook (colAt s c.colony) c.tc c.colony (stampOf s c.colony) a acc with
            | .miss _ => stallWant s n a write
            | .denied => accessFault sR n c.pc w
            | .ok dpa p => act sR id cmd (coreAt sR n) dpa p)

/-- LDG (R81). -/
def execLdg (core : Nat) (w : Word) (e : Sram) (s : State) : Res :=
  .next (globalAccess s core 0x50 w e false (fun t id cmd c dpa _ => ldgAt t core id cmd c w e dpa))

/-- STG (R81). -/
def execStg (core : Nat) (w : Word) (e : Sram) (s : State) : Res :=
  .next (globalAccess s core 0x51 w e true (fun t id _ c dpa p => stgAt t core id c w e dpa p))

/-- MFENCE (R81): an LDG retires with its data and an STG once its line is held modified under its home's grant, so
every earlier one is complete when this one issues. -/
def execMfence (core : Nat) (w : Word) (s : State) : Res := .next (issueReg s core 0x52 w (fun c => c))

end Sys2Proof.Machine
end

