-- ==== Sys2Proof/Machine/Scalar.lean ====
section
/-! DEFINITION. Scalar, predicate, control and system-value instructions (R74 to R78, R90, R98, R99). -/

namespace Sys2Proof.Machine

/- Register operands (R74): s[D] = f(s[A], s[B]). -/

/-- A register-operand scalar instruction (R74). -/
def scalarRR (s : State) (n op : Nat) (w : Word) (f : Word → Word → Word) : State :=
  issueReg s n op w (fun c => setSreg c (fD w) (f (sreg c (fA w)) (sreg c (fB w))))

/-- A shift amount: s[B][5:0] (R74). -/
def shamt (x : Word) : Nat := x.toNat % 64

def execAdd (core : Nat) (w : Word) (s : State) : Res := .next (scalarRR s core 0x10 w (fun a b => a + b))
def execSub (core : Nat) (w : Word) (s : State) : Res := .next (scalarRR s core 0x11 w (fun a b => a - b))
def execAnd (core : Nat) (w : Word) (s : State) : Res := .next (scalarRR s core 0x12 w (fun a b => a &&& b))
def execOr (core : Nat) (w : Word) (s : State) : Res := .next (scalarRR s core 0x13 w (fun a b => a ||| b))
def execXor (core : Nat) (w : Word) (s : State) : Res := .next (scalarRR s core 0x14 w (fun a b => a ^^^ b))
def execShl (core : Nat) (w : Word) (s : State) : Res := .next (scalarRR s core 0x15 w (fun a b => a <<< shamt b))
def execShr (core : Nat) (w : Word) (s : State) : Res := .next (scalarRR s core 0x16 w (fun a b => a >>> shamt b))
def execSra (core : Nat) (w : Word) (s : State) : Res := .next (scalarRR s core 0x17 w (fun a b => a.sshiftRight (shamt b)))
def execMul (core : Nat) (w : Word) (s : State) : Res := .next (scalarRR s core 0x18 w (fun a b => a * b))
/-- The high 64 bits of the unsigned product (R74). -/
def execMulhu (core : Nat) (w : Word) (s : State) : Res :=
  .next (scalarRR s core 0x19 w (fun a b => BitVec.ofNat 64 (a.toNat * b.toNat / 2 ^ 64)))
def execMin (core : Nat) (w : Word) (s : State) : Res := .next (scalarRR s core 0x1A w (fun a b => if a.toInt ≤ b.toInt then a else b))
def execMax (core : Nat) (w : Word) (s : State) : Res := .next (scalarRR s core 0x1B w (fun a b => if a.toInt ≤ b.toInt then b else a))
def execMinu (core : Nat) (w : Word) (s : State) : Res := .next (scalarRR s core 0x1C w (fun a b => if a.toNat ≤ b.toNat then a else b))
def execMaxu (core : Nat) (w : Word) (s : State) : Res := .next (scalarRR s core 0x1D w (fun a b => if a.toNat ≤ b.toNat then b else a))
def execMov (core : Nat) (w : Word) (s : State) : Res := .next (scalarRR s core 0x1E w (fun a _ => a))
/-- The number of 1 bits (R74). -/
def execPopc (core : Nat) (w : Word) (s : State) : Res :=
  .next (scalarRR s core 0x1F w (fun a _ => BitVec.ofNat 64 (popcount 64 a.toNat)))

/- Immediate operand (R75). -/

/-- An immediate-operand scalar instruction (R75): `f` takes s[A] and the zero-extended immediate. -/
def scalarRI (s : State) (n op : Nat) (w : Word) (f : Word → Nat → Word) : State :=
  issueReg s n op w (fun c => setSreg c (fD w) (f (sreg c (fA w)) (fImm w)))

def execAddi (core : Nat) (w : Word) (s : State) : Res := .next (scalarRI s core 0x20 w (fun a i => a + toWord (sext i 32)))
def execAndi (core : Nat) (w : Word) (s : State) : Res := .next (scalarRI s core 0x22 w (fun a i => a &&& BitVec.ofNat 64 i))
def execOri (core : Nat) (w : Word) (s : State) : Res := .next (scalarRI s core 0x23 w (fun a i => a ||| BitVec.ofNat 64 i))
def execXori (core : Nat) (w : Word) (s : State) : Res := .next (scalarRI s core 0x24 w (fun a i => a ^^^ BitVec.ofNat 64 i))
def execShli (core : Nat) (w : Word) (s : State) : Res := .next (scalarRI s core 0x25 w (fun a i => a <<< (i % 64)))
def execShri (core : Nat) (w : Word) (s : State) : Res := .next (scalarRI s core 0x26 w (fun a i => a >>> (i % 64)))
def execSrai (core : Nat) (w : Word) (s : State) : Res := .next (scalarRI s core 0x27 w (fun a i => a.sshiftRight (i % 64)))
def execMuli (core : Nat) (w : Word) (s : State) : Res := .next (scalarRI s core 0x28 w (fun a i => a * toWord (sext i 32)))
def execMovi (core : Nat) (w : Word) (s : State) : Res := .next (scalarRI s core 0x2E w (fun _ i => toWord (sext i 32)))
/-- s[D][63:32] = IMM; s[D][31:0] unchanged (R75). -/
def execMovhi (core : Nat) (w : Word) (s : State) : Res :=
  .next (issueReg s core 0x2F w (fun c => setSreg c (fD w)
    (BitVec.ofNat 64 (fImm w * 2 ^ 32 + (sreg c (fD w)).toNat % 2 ^ 32))))

/- Predicates (R76). -/

/-- A compare (R76): p[PD] takes the condition of the opcode. -/
def compareTo (s : State) (n op : Nat) (w : Word) : State :=
  issueReg s n op w (fun c => setPred c (fPD w) (compare op (sreg c (fA w)) (cmpB c w)))

/-- Predicate logic (R76). -/
def logicTo (s : State) (n op : Nat) (w : Word) : State :=
  issueReg s n op w (fun c => setPred c (fPD w) (predLogic op (pred c (fPA w)) (pred c (fPB w))))

def execCmpeq (core : Nat) (w : Word) (s : State) : Res := .next (compareTo s core 0x30 w)
def execCmpne (core : Nat) (w : Word) (s : State) : Res := .next (compareTo s core 0x31 w)
def execCmplt (core : Nat) (w : Word) (s : State) : Res := .next (compareTo s core 0x32 w)
def execCmpltu (core : Nat) (w : Word) (s : State) : Res := .next (compareTo s core 0x33 w)
def execCmpge (core : Nat) (w : Word) (s : State) : Res := .next (compareTo s core 0x34 w)
def execCmpgeu (core : Nat) (w : Word) (s : State) : Res := .next (compareTo s core 0x35 w)
def execPand (core : Nat) (w : Word) (s : State) : Res := .next (logicTo s core 0x38 w)
def execPor (core : Nat) (w : Word) (s : State) : Res := .next (logicTo s core 0x39 w)
def execPxor (core : Nat) (w : Word) (s : State) : Res := .next (logicTo s core 0x3A w)
def execPandn (core : Nat) (w : Word) (s : State) : Res := .next (logicTo s core 0x3B w)

/- Control (R77, R78). -/

/-- A taken branch: the target must lie within the image, or the instruction is illegal (R78, R98). `c` already holds
what the instruction writes beside the PC; nothing of it stands if the target is illegal (R99). -/
def branchTo (s : State) (n : Nat) (w : Word) (c0 c : Core) (target : Int) : State :=
  if 0 ≤ target ∧ target < c0.im.length then setCore s n (retireTo c target.toNat)
  else illegal s n c0.pc w

def execNop (core : Nat) (w : Word) (s : State) : Res := .next (issueReg s core 0x01 w (fun c => c))
def execBr (core : Nat) (w : Word) (s : State) : Res :=
  .next (issue s core 0x03 w (fun c => branchTo s core w c c ((c.pc : Int) + fTgt w)))
def execCall (core : Nat) (w : Word) (s : State) : Res :=
  .next (issue s core 0x04 w (fun c => branchTo s core w c (setSreg c (fD w) (BitVec.ofNat 64 (c.pc + 1))) ((c.pc : Int) + fTgt w)))
/-- JR's target is the whole of s[A], read as unsigned (R77, R78). -/
def execJr (core : Nat) (w : Word) (s : State) : Res :=
  .next (issue s core 0x05 w (fun c => branchTo s core w c c ((sreg c (fA w)).toNat : Int)))

/-- The BARs that a core of a command has executed in its attempt: those of its END where it has left the command since
(R86, R88). -/
def barsOf (s : State) (id : Nat) (c : Cmd) (m : Nat) : Nat :=
  if (coreAt s m).cmd = some id then (coreAt s m).bars else tget 0 c.endBars m

/-- No core of the command has executed more BARs than `k` (R88). -/
def barrierOk (s : State) (id k : Nat) : Bool :=
  match cmdAt s id with
  | some c => c.cores.all (fun m => decide (barsOf s id c m ≤ k))
  | none => true

/-- The command keeps the BARs of a core that has reached END. -/
def noteBars (s : State) (n : Nat) (c : Core) : State :=
  match c.cmd with
  | some id => modCmd s id (fun k => { k with endBars := tset k.endBars n c.bars })
  | none => s

/-- END (R77, R88, R92, R277): waits for both queues, every DMA group and the descriptors; a barrier count above its own
at another core ends the command; else the data cache is written back and the core waits for its write tags. -/
def execEnd (core : Nat) (w : Word) (s : State) : Res :=
  .next (issue s core 0x02 w (fun c =>
    if !c.mq.isEmpty || !c.vq.isEmpty || !c.dq.isEmpty || c.groups.any (fun g => g.2 != 0) then s
    else if !(match c.cmd with | some id => barrierOk s id c.bars | none => true) then
      kernelFault s core 0x07 0x0B c.pc w false
    else
      let s1 := noteBars (flushCache s core) core c
      modCore s1 core (fun x => { retireTo x c.pc with ended := true })))

/- System values (R90). -/

/-- SYSR's value for a source (R90). -/
def sysValue (s : State) (c : Core) (cmd : Cmd) (src : Nat) : Word :=
  if src = 0 then BitVec.ofNat 64 c.rank
  else if src = 1 then BitVec.ofNat 64 cmd.n
  else if src = 2 then BitVec.ofNat 64 cmd.paramsVa
  else if src = 3 then toWord cmd.anchor
  else if src = 4 then (if cmd.legacy || is16 cmd.fmtA || is16 cmd.fmtB then 0 else toWord (scaledAnchor cmd))
  else if src = 5 then BitVec.ofNat 64 cmd.job
  else if src = 6 then BitVec.ofNat 64 (b2n c.lowSpill + 2 * b2n c.highSpill)
  else BitVec.ofNat 64 s.ticks

def execSysr (core : Nat) (w : Word) (s : State) : Res :=
  .next (issue s core 0x80 w (fun c =>
    match c.cmd.bind (cmdAt s) with
    | some cmd => retire s core (setSreg c (fD w) (sysValue s c cmd (fImm w)))
    | none => s))

/-- A word whose opcode no table assigns, the all-zero word included, is illegal whatever its guard (R73, R78, R98,
R99); a PC past CODE_LEN - 1 reads one. -/
def execUnassignedOpcode (core : Nat) (w : Word) (s : State) : Res :=
  .next (issueRow s core (!assigned w) w (fun _ => s))

end Sys2Proof.Machine
end

