-- ==== Sys2Proof/Machine/DmaSync.lean ====
section
/-! DEFINITION. The DMA engine and synchronisation: DMA, DMA.WAIT, DMA.WAITALL, the lines of descriptors, their tags and
kill epochs (R31 to R33, R82 to R85, R93), SIG, WAIT, BAR, SEMRD and the delivery of signals (R86 to R89). -/

namespace Sys2Proof.Machine

/- Descriptors (R82 to R85). -/

/-- A malformed descriptor, list entry or descriptor offset (R82, R85): CORE.ERR.DMA_ERR and NOT_PERMITTED. -/
def dmaFault (s : State) (n offset : Nat) (w : Word) : State :=
  let s1 := setErr s n 7
  let c := coreAt s1 n
  match c.cmd with
  | none => s1
  | some id => commandFault s1 id 0x01 0x0B (.core n) c.rank offset 3 w false

/-- The descriptor's 32 bytes are well formed (R83, R84, R85). -/
def descOk (d : List Byte) : Bool :=
  let q (i : Nat) : Nat := bytesAt d (8 * i) 8
  let lines := nbits (q 1) 47 32
  let common := nbits (q 1) 23 21 == 0 && nbits (q 1) 31 26 == 0 && nbits (q 1) 5 0 == 0 && lines != 0
  if (q 1).testBit 25 then
    common && nbits (q 0) 63 21 == 0 && nbits (q 0) 2 0 == 0 && nbits (q 1) 63 48 == 0 && q 2 == 0 && q 3 == 0
  else
    common && nbits (q 0) 63 48 == 0 && nbits (q 0) 5 0 == 0 && nbits (q 1) 63 48 != 0 &&
    nbits (q 2) 63 40 == 0 && nbits (q 2) 5 0 == 0 && nbits (q 3) 63 21 == 0 && nbits (q 3) 5 0 == 0

/-- The descriptor that 32 bytes hold. -/
def descOf (c : Core) (w : Word) (offset : Nat) (d : List Byte) : DmaDesc :=
  let q (i : Nat) : Nat := bytesAt d (8 * i) 8
  let list := (q 1).testBit 25
  { id := c.nextDesc, group := fG w, toHbm := (q 1).testBit 24, list := list
    va := if list then 0 else nbits (q 0) 47 0
    spo := nbits (q 1) 20 0
    lspo := if list then nbits (q 0) 20 0 else 0
    lines := nbits (q 1) 47 32
    rows := if list then 1 else nbits (q 1) 63 48
    hstride := if list then 0 else sext (nbits (q 2) 39 0) 40
    sstride := if list then 0 else nbits (q 3) 20 0
    offset := offset, order := c.order, word := w, index := c.pc }

/-- DMA (R82): the descriptor is copied at issue and queued in its group. -/
def execDma (core : Nat) (w : Word) (e : Sram) (s : State) : Res :=
  .next (issue s core 0x60 w (fun c =>
    let a := descAddr c w
    if a % 32 ≠ 0 then dmaFault s core a w
    else if !spInside a 32 then rangeFault s core c.pc w
    else if 64 ≤ c.dq.length then s
    else if interlocked (queued c) [(a, 32)] [] then s
    else
      let (s1, ok) := spRead s core a e.sp c.pc
      if !ok then s1
      else
        let c1 := coreAt s1 core
        let d := mread c1.sp a 32
        if !descOk d then dmaFault s1 core a w
        else retire s1 core { c1 with
          dq := c1.dq ++ [descOf c1 w a d], nextDesc := c1.nextDesc + 1
          groups := tset c1.groups (fG w) (group c1 (fG w) + 1) }))

/-- A core waits without retiring (R89). -/
def stallOn (s : State) (n : Nat) (k : Stall) : State := modCore s n (fun c => { c with stall := k })

/-- DMA.WAIT (R82). -/
def execDmaWait (core : Nat) (w : Word) (s : State) : Res :=
  .next (issue s core 0x61 w (fun c =>
    if group c (fG w) ≤ fImm w then retire s core c else stallOn s core .dmaWait))

/-- DMA.WAITALL (R82). -/
def execDmaWaitall (core : Nat) (w : Word) (s : State) : Res :=
  .next (issue s core 0x62 w (fun c =>
    if c.groups.all (fun g => g.2 == 0) then retire s core c else stallOn s core .dmaWait))

/- Lines (R31, R32, R83 to R85). -/

/-- The lines of a descriptor. -/
def DmaDesc.total (d : DmaDesc) : Nat := d.lines * d.rows

/-- The HBM address and scratchpad offset of a block descriptor's line n (R83). -/
def DmaDesc.blockLine (d : DmaDesc) (n : Nat) : Int × Nat :=
  ((d.va : Int) + ((n / d.lines : Nat) : Int) * d.hstride + ((64 * (n % d.lines) : Nat) : Int),
   d.spo + n / d.lines * d.sstride + 64 * (n % d.lines))

/-- Where a line lies: its virtual address and scratchpad offset, or the fault its list entry makes (R84, R85). -/
inductive LineAt where
  | ok (va : Nat) (spo : Nat)
  | malformed
  | outside
  | denied
  deriving DecidableEq, Repr

def lineAt (c : Core) (d : DmaDesc) (n : Nat) : LineAt :=
  if d.list then
    if !spInside (d.lspo + 8 * n) 8 then .outside
    else
      let e := leNat (mread c.sp (d.lspo + 8 * n) 8)
      if e % 64 ≠ 0 ∨ 2 ^ 48 ≤ e then .malformed
      else if !spInside (d.spo + 64 * n) 64 then .outside
      else .ok e (d.spo + 64 * n)
  else
    let (va, spo) := d.blockLine n
    if !spInside spo 64 then .outside
    else if va < 0 ∨ (2 ^ 48 : Int) ≤ va then .denied
    else .ok va.toNat spo

/-- The least tag number that is not outstanding. -/
def freeTag (c : Core) : Nat := ((List.range 385).find? (fun t => !c.tags.any (fun x => x.tag == t))).getD 385

/-- The engine has a tag for a read or write of a class (R31, R32). -/
def tagFree (c : Core) (write : Bool) (cls : Nat) : Bool :=
  decide ((c.tags.filter (fun t => t.write == write)).length < (if write then 128 else 256)) &&
  (cls != 0 || decide ((c.tags.filter (fun t => t.urgent)).length < 64))

/-- R93: an instruction issued before the DMA that is still queued conflicts with what the line reads and writes in the
scratchpad. -/
def dmaConflict (c : Core) (d : DmaDesc) (rd wr : List (Nat × Nat)) : Bool :=
  interlocked ((queued c).filter (fun q => decide (q.order < d.order))) rd wr

/-- The same for the line's data. -/
def earlierConflict (c : Core) (d : DmaDesc) (spo : Nat) : Bool :=
  dmaConflict c d (if d.toHbm then [(spo, 64)] else []) (if d.toHbm then [] else [(spo, 64)])

/-- One more line of a descriptor is on its way under a tag. -/
def tagLine (s : State) (n : Nat) (d : DmaDesc) (spo cls ch : Nat) (data : List Byte) : State :=
  let c := coreAt s n
  let t : DmaTag := { tag := freeTag c, write := d.toHbm, urgent := decide (cls = 0), epoch := c.epoch, desc := d.id, spo := spo
                      data := data, instar := stampOf s c.colony, colony := c.colony, cmd := c.cmd.getD 0, xepoch := (colAt s c.colony).epoch
                      attempt := (c.cmd.bind (cmdAt s)).elim 0 (fun k => k.attempts), mark := s.hub.finished, chan := ch }
  inflightInc (setCore s n { c with
    tags := c.tags ++ [t], dmaWant := none
    dq := c.dq.map (fun x => if x.id = d.id then { x with issued := x.issued + 1, out := x.out + 1 } else x) }) c.colony (stampOf s c.colony)

/-- The engine reads a line of HBM (R167, R197, R231, R232, R235, R236, R272). Without an entry of the slice's request buffer the
line stalls at issue; a line that misses the slice waits in the controller queue, or in the buffer. -/
def dmaRead (s : State) (n id : Nat) (cmd : Cmd) (c : Core) (d : DmaDesc) (e : Sram) (spo dpa : Nat) : State :=
  let fa := readAddr s (colAt s c.colony) (some cmd) dpa
  let ch := channelOf fa
  let off := chanOff (lineBase fa)
  match ownCheck (colAt s c.colony) (stampOf s c.colony) ch with
  | .pass =>
    match creditFor s ch n cmd.cls with
    | none => s
    | some part =>
      if requestWaits s n ch off then s
      else if ncBlocked s ch off false then nack s n ch off .ncr []
      else
        let sE := sliceError s ch off e.slice
        let (s1, bad) := checkRead sE (sourceAddr sE fa)
        match bad with
        | some (p, inj) => lineFault s1 id ch dpa c.rank d.word p inj
        | none =>
          let miss := !resident (chanAt s1 ch) off
          let (s2, data) := ncReadLine s1 cmd.cls fa
          let s3 := tagLine s2 n d spo cmd.cls ch data
          if miss then placeMiss s3 ch { master := n, tag := freeTag (coreAt s2 n), cls := cmd.cls, offset := off, part := part } else s3
  | o => ownFault s id c.colony o (.core n) c.rank d.index d.word

/-- The engine writes a line into the command's shadow frame (R165, R168, R197, R231, R272). The slice takes a full line without
its channel. -/
def dmaWrite (s : State) (n id : Nat) (cmd : Cmd) (c : Core) (d : DmaDesc) (e : Sram) (spo dpa : Nat) (p : Pte) : State :=
  match ownCheck (colAt s c.colony) (stampOf s c.colony) (channelOf dpa) with
  | .pass =>
    match bindShadow s id p with
    | none => s
    | some (sh, s0) =>
      let fa := sh.addr dpa
      let ch := channelOf fa
      let off := chanOff (lineBase fa)
      if (chanAt s0 ch).mode == .fenced then faultCmd s0 id 0x09 none false
      else if (creditFor s0 ch n cmd.cls).isNone || requestWaits s0 n ch off then s
      else if ncBlocked s0 ch off true then nack s n ch off .ncr []
      else
        let (s1, ok) := spRead s0 n spo e.sp d.index
        if !ok then s1
        else
          let data := mread (coreAt s1 n).sp spo 64
          tagLine (ncWriteLine s1 cmd.cls fa data) n d spo cmd.cls ch data
  | o => ownFault s id c.colony o (.core n) c.rank d.index d.word

/-- The engine's next line at its place (R31, R85, R93). -/
def issueLine (s : State) (n id : Nat) (cmd : Cmd) (c : Core) (d : DmaDesc) (e : Sram) : State :=
  match lineAt c d d.issued with
  | .malformed => dmaFault s n d.offset d.word
  | .outside => rangeFault s n d.index d.word
  | .denied => accessFault s n d.index d.word
  | .ok va spo =>
    if earlierConflict c d spo then s
    else if d.toHbm && !inRegions cmd va 64 then accessFault s n d.index d.word
    else if e.tc && (tcHit c.tc c.colony (stampOf s c.colony) va).isSome then
      modCore (tcParity s n c.colony va) n (fun x => { x with dmaWant := some (va, d.toHbm) })
    else
      let acc := if d.toHbm then Access.write else Access.read
      let sR := rewalk s n cmd.cls c.colony va acc
      let cR := coreAt sR n
      match tcLook (colAt s c.colony) c.tc c.colony (stampOf s c.colony) va acc with
      | .miss _ => modCore s n (fun x => { x with dmaWant := some (va, d.toHbm) })
      | .denied => accessFault sR n d.index d.word
      | .ok dpa p => if d.toHbm then dmaWrite sR n id cmd cR d e spo dpa p else dmaRead sR n id cmd cR d e spo dpa

/-- DMA_LINE_ISSUE: the engine issues the next line of its oldest unfinished descriptor (R31, R85). A list entry is read from the
scratchpad as an earlier instruction leaves it (R93), under SECDED (R27). -/
def execDmaLineIssue (core : Nat) (e : Sram) (s : State) : Res :=
  let c := coreAt s core
  let cmd? := c.cmd.bind (cmdAt s)
  match c.cmd, cmd?, c.dq.find? (fun d => decide (d.issued < d.total)) with
  | some id, some cmd, some d =>
    let entry := d.lspo + 8 * d.issued
    if !running s c || agentHalted s core then .next s
    else if !tagFree c d.toHbm cmd.cls then .next s
    else if d.list && spInside entry 8 then
      if dmaConflict c d [(entry, 8)] [] then .next s
      else
        let (s1, ok) := spRead s core entry e.entry d.index
        .next (if ok then issueLine s1 core id cmd (coreAt s1 core) d e else s1)
    else .next (issueLine s core id cmd c d e)
  | _, _, _ => .next s

/-- A line of a descriptor is done; the descriptor leaves its group with its last (R38, R82). -/
def lineDone (c : Core) (desc : Nat) : Core :=
  match c.dq.find? (fun d => d.id == desc) with
  | none => c
  | some d =>
    if d.issued = d.total ∧ d.out ≤ 1 then
      { c with dq := c.dq.filter (fun x => x.id != desc), groups := tset c.groups d.group (group c d.group - 1)
               dmaProg := wrapAdd 32 c.dmaProg 1 }
    else { c with dq := c.dq.map (fun x => if x.id = desc then { x with out := x.out - 1 } else x) }

/-- A kill epoch held back advances once no tag of its next value is out (R33). -/
def releaseEpoch (c : Core) : Core := if c.epochHeld then advanceEpoch c else c

/-- A tag comes back (R33): freed, its request finished, its transaction out of its channel; a tag of an earlier kill epoch has no
other effect. A read whose transaction still waits for its channel has no reply yet (R232, R243). -/
def returnTag (s : State) (n tag : Nat) (write : Bool) (land_ : DmaTag → Core → Core) : State :=
  let c := coreAt s n
  match c.tags.find? (fun t => t.tag == tag && t.write == write) with
  | none => s
  | some t =>
    if replyHeld s t.chan n tag then s
    else
      let c1 := { c with tags := c.tags.filter (fun x => x.tag != tag) }
      let c2 := if t.epoch = c.epoch && c.st == .running then lineDone (land_ t c1) t.desc else c1
      inflightDec (dropReq (setCore s n (releaseEpoch c2)) t.chan n tag) t.colony t.instar

/-- DMA_READ_REPLY (R33, R82): the line lands in the scratchpad. -/
def execDmaReadReply (core tag : Nat) (s : State) : Res :=
  .next (returnTag s core tag false (fun t c => { c with sp := mwrite c.sp t.spo t.data }))

/-- DMA_WRITE_TAG_RETURN (R33, R82). -/
def execDmaWriteTagReturn (core tag : Nat) (s : State) : Res := .next (returnTag s core tag true (fun _ c => c))

/- Synchronisation (R86 to R89). -/

/-- SIG (R86, R87). -/
def execSig (core : Nat) (w : Word) (s : State) : Res :=
  .next (issue s core 0x70 w (fun c =>
    match c.cmd with
    | none => s
    | some id => match cmdAt s id with
      | none => s
      | some cmd =>
        match cmd.cores[(sreg c (fA w)).toNat]? with
        | none => illegal s core c.pc w
        | some dst =>
          retire { s with signals := s.signals ++ [{ cmd := id, src := core, dst := dst, sem := fSem w, value := fImm w
                                                     index := c.pc, word := w, after := c.nextDesc }] } core c))

/-- Every DMA write of the core issued before a descriptor number has returned its tag (R87). -/
def writesReturned (c : Core) (after : Nat) : Bool := !c.dq.any (fun d => d.toHbm && decide (d.id < after))

/-- SIGNAL_DELIVERY (R87): the first signal from one core to another reaches its semaphore. -/
def execSignalDelivery (src dst : Nat) (s : State) : Res :=
  match findIdx? (fun m => m.src == src && m.dst == dst) s.signals with
  | none => .next s
  | some (k, m) =>
    if !writesReturned (coreAt s src) m.after then .next s
    else
      let s1 := { s with signals := s.signals.eraseIdx k }
      let c := coreAt s1 dst
      if c.cmd != some m.cmd || c.ended || c.st != .running then .next s1
      else if 2 ^ 32 ≤ sem c m.sem + m.value then
        .next (commandFault s1 m.cmd 0x07 0x0B (.core src) (coreAt s1 src).rank m.index 4 m.word false)
      else .next (setCore s1 dst { c with sems := tset c.sems m.sem (sem c m.sem + m.value) })

/-- WAIT (R86, R87). -/
def execWait (core : Nat) (w : Word) (s : State) : Res :=
  .next (issue s core 0x71 w (fun c =>
    if fImm w ≤ sem c (fSem w) then retire s core { c with sems := tset c.sems (fSem w) (sem c (fSem w) - fImm w) }
    else stallOn s core .semaphore))

/-- Every core of the command has executed at least `k` BARs (R86). -/
def allArrived (s : State) (id k : Nat) : Bool :=
  match cmdAt s id with
  | some c => c.cores.all (fun m => decide (k ≤ barsOf s id c m))
  | none => true

/-- BAR (R86, R88): the core arrives once its earlier writes are released, then waits for every other core. -/
def execBar (core : Nat) (w : Word) (s : State) : Res :=
  .next (issue s core 0x72 w (fun c =>
    if c.stall != .barrier && !writesReturned c c.nextDesc then s
    else
      let c1 := if c.stall == .barrier then c else { c with bars := c.bars + 1, stall := .barrier }
      let s1 := setCore s core c1
      if (match c.cmd with | some id => allArrived s1 id c1.bars | none => true) then retire s1 core c1 else s1))

/-- SEMRD (R86). -/
def execSemrd (core : Nat) (w : Word) (s : State) : Res :=
  .next (issueReg s core 0x73 w (fun c => setSreg c (fD w) (BitVec.ofNat 64 (sem c (fSem w)))))

end Sys2Proof.Machine
end

