-- ==== Sys2Proof/Machine/Pcie.lean ====
section
/-! DEFINITION. The PCI Express endpoint's own events (R475, R480 to R483): SR-IOV, function level reset, power states and
MSI-X. -/

namespace Sys2Proof.Machine

/-- A function answers configuration requests (R463, R480). -/
def cfgLive (s : State) (fn : Fn) : Bool := s.boot.powered && !s.boot.inReset && s.boot.link && s.boot.cfg && fnPresent s fn

/-- An FLR of a VF (R482, R483): with a colony in ACTIVE or RESETTING its reset runs or is joined, and step 6 follows at its end;
otherwise step 6 alone. -/
def flrVf (s : State) (v : Nat) : State :=
  if s.pcie.flr.contains v then s
  else
    match s.cols.find? (fun e => e.2.vf == v && (e.2.st == .active || e.2.st == .resetting)) with
    | some (n, c) =>
      if serving s then
        let s1 := { s with pcie := { s.pcie with flr := s.pcie.flr ++ [v] } }
        if c.st = .active then startReset s1 n else s1
      else resetFunction s v
    | none => resetFunction s v

/-- VF_FLR (R482, R483). -/
def execVfFlr (vf : Nat) (s : State) : Res := .next (if cfgLive s (.vf vf) then settleColonies (flrVf s vf) else s)

/-- The enabled VFs that a colony is mapped to (R480). -/
def mappedVfs (s : State) : List Nat := sortNat ((s.cols.filter (fun e => decide (e.2.vf < s.pcie.numVfs))).map (fun e => e.2.vf))

/-- VF_ENABLE_CLEAR (R480, R483): FLR of every enabled VF that is mapped; a VF whose FLR still runs ceases at its end. Mappings
are kept. -/
def execVfEnableClear (s : State) : Res :=
  if !cfgLive s .pf || !s.pcie.vfEnable then .next s
  else
    let s1 := settleColonies ((mappedVfs s).foldl flrVf s)
    .next { s1 with pcie := { s1.pcie with
      vfEnable := false, ceasing := s1.pcie.flr, msix := s1.pcie.msix.filter (fun e => e.1 == 0), d3 := s1.pcie.d3.filter (fun k => k == 0) } }

/-- VF_ENABLE_SET (R480): NumVFs is set while VF Enable is 0. -/
def execVfEnableSet (numVfs : Nat) (s : State) : Res :=
  .next (if cfgLive s .pf && !s.pcie.vfEnable && decide (numVfs ≤ 64) then
    { s with pcie := { s.pcie with vfEnable := true, numVfs := numVfs } }
  else s)

/-- D3HOT (R475): the function's memory space is disabled, or back with all state kept. -/
def execD3hot (fn : Fn) (enter : Bool) (s : State) : Res :=
  let rest := s.pcie.d3.filter (fun k => k != fnIndex fn)
  .next (if cfgLive s fn then { s with pcie := { s.pcie with d3 := if enter then rest ++ [fnIndex fn] else rest } } else s)

/-- A vector of a function is unmasked (R481): a pending message is sent. -/
def unmaskVector (s : State) (fn : Fn) (vector : Nat) : State :=
  let m := msixAt s fn
  let s1 := setMsix s fn { m with unmasked := insertNew m.unmasked vector, pend := m.pend.filter (fun k => k != vector) }
  if m.pend.contains vector then emit s1 (.msix fn vector) else s1

/-- MSI_X_VECTOR_UNMASK (R463, R481). -/
def execMsiXVectorUnmask (fn : Fn) (vector : Nat) (s : State) : Res :=
  .next (if fnLive s fn && s.boot.stage == .running && decide (vector ≤ maxVec fn) then unmaskVector s fn vector else s)

end Sys2Proof.Machine
end

