-- ==== Sys2Proof/Machine/Mgmt.lean ====
section
/-! DEFINITION. The management port (R376, R388, R405, R486 to R492): sessions, messages, lifecycle, and its network. -/

namespace Sys2Proof.Machine

/- Sessions and replies (R487, R488). -/

/-- The status bytes of R487. -/
def mgOk : Nat := 0
def mgRefused : Nat := 1
def mgBusy : Nat := 2
def mgNotPermitted : Nat := 3
def mgBad : Nat := 4
def mgAuth : Nat := 5

/-- The management port is up (R473, R486). -/
def mgmtUp (s : State) : Bool := s.boot.powered && !s.boot.inReset && s.mgt.link

/-- The 32-byte header of a datagram that carries part of a response (R487). -/
def mgHeader (ty session seq req frag len : Nat) (isSealed more : Bool) : List Byte :=
  leBytes 4 0x474D4245 ++ leBytes 1 1 ++ leBytes 1 (1 + 2 * b2n isSealed + 4 * b2n more) ++ leBytes 2 ty ++ leBytes 8 session ++ leBytes 8 seq ++
  leBytes 4 req ++ leBytes 2 frag ++ leBytes 2 len

/-- One datagram: sealed under a key, its IV the salt and SEQ, its additional authenticated data the header (R487, R488). -/
def mgDatagram (key : Option LinkKey) (ty session seq req frag : Nat) (more : Bool) (part : List Byte) : List Byte :=
  let head := mgHeader ty session seq req frag part.length key.isSome more
  match key with
  | none => head ++ part
  | some k =>
    let ct := gcmBytes k.key (packetIv k seq) part
    head ++ ct ++ tagBytes k.key (packetIv k seq) head ct

/-- The fragments of a message of at most 65,536 bytes: 1,184 bytes each (R487). -/
def mgParts (msg : List Byte) : List (List Byte) := (List.range (max 1 ((msg.length + 1183) / 1184))).map (fun i => slice msg (1184 * i) 1184)

/-- The datagrams of a response: the STATUS byte, then its body (R487). -/
def mgDatagrams (key : Option LinkKey) (ty session seq req status : Nat) (body : List Byte) : List (List Byte) :=
  let parts := mgParts (leBytes 1 status ++ body)
  (enumNat parts).map (fun p => mgDatagram key ty session (seq + p.1) req p.1 (decide (p.1 + 1 < parts.length)) p.2)

/-- A response leaves unsealed, outside a live session; SEQ counts from 1 (R487; log entry 119). -/
def reply (s : State) (ty session req status : Nat) (body : List Byte) : State :=
  emit s (.mgmt session req status body (mgDatagrams none ty session 1 req status body))

def findSession (s : State) (id : Nat) : Option Session := s.mgt.sessions.find? (fun x => x.id == id)

def setSession (s : State) (x : Session) : State :=
  { s with mgt := { s.mgt with sessions := s.mgt.sessions.map (fun y => if y.id = x.id then x else y) } }

/-- A sealed datagram is accepted (R488): its tag holds, its SEQ is new and lies less than 64 below the highest. -/
def seqOk (x : Session) (h : MgmtHeader) : Bool :=
  h.tagOk && !x.got.contains h.seq && decide (x.top < h.seq + 64)

/-- The SEQ is accepted. -/
def acceptSeq (x : Session) (seq : Nat) : Session :=
  let top := max x.top seq
  { x with top := top, got := (seq :: x.got).filter (fun k => decide (top < k + 64)) }

/-- A response leaves sealed within a session, with the next SEQs (R487, R488). -/
def sealedReply (s : State) (x : Session) (ty req status : Nat) (body : List Byte) : State :=
  let ds := mgDatagrams (some x.txKey) ty x.id x.txSeq req status body
  emit (setSession s { x with txSeq := x.txSeq + ds.length }) (.mgmt x.id req status body ds)

/-- A response within a session, which is kept among the last 16 (R487). -/
def sessionReply (s : State) (id ty req status : Nat) (body : List Byte) : State :=
  match findSession s id with
  | none => s
  | some x => sealedReply s { x with cache := ((req, ty, status, body) :: x.cache).take 16 } ty req status body

/-- What a message does: the state after, its status and the body of its response. -/
abbrev Served := State × Nat × List Byte

/-- A message inside a live session (R487 to R489): dropped where it is not sealed rightly; a request answered already is answered
again from the cache; else it is served. -/
def inSession (s : State) (ty : Nat) (h : MgmtHeader) (act : State → Served) : State :=
  if !mgmtUp s then s
  else match findSession s h.session with
    | none => s
    | some x =>
      if !x.live || !seqOk x h then s
      else
        let y := acceptSeq x h.seq
        match x.cache.find? (fun e => e.1 == h.req) with
        | some e => sealedReply s y e.2.1 h.req e.2.2.1 e.2.2.2
        | none =>
          let (s2, status, body) := act (setSession s y)
          sessionReply s2 x.id ty h.req status body

/-- A message that the present state does not permit. -/
def refuseState (s : State) : Served := (s, mgNotPermitted, [])

/-- A sealed message (R489): while a DEVICE fault is present, and in RETIRED, it is answered NOT_PERMITTED. -/
def sealed (s : State) (ty : Nat) (h : MgmtHeader) (permitted : State → Bool) (act : State → Served) : State :=
  inSession s ty h (fun t => if t.flt.fatal || lifecycle t == 4 || !permitted t then refuseState t else act t)

/-- An open message (R489): outside a session it needs no seal. -/
def openMsg (s : State) (ty : Nat) (h : MgmtHeader) (act : State → Served) : State :=
  if h.session = 0 then
    (if mgmtUp s then
      let (s1, status, body) := act s
      reply s1 ty 0 h.req status body
    else s)
  else inSession s ty h act

/-- The device is in service (R489). -/
def inService (s : State) : Bool := s.boot.stage == .running

/- Notices (R492). -/

/-- A notice to the host. -/
def notice (s : State) (kind delay : Nat) : State :=
  let s1 := { s with mgt := { s.mgt with noticeKind := kind, noticeDelay := delay, nseq := wrapAdd 32 s.mgt.nseq 1 } }
  if s.mgt.irqEn then raiseMsix s1 .pf s.mgt.vec else s1

/- The handshake (R405, R488, R489). -/

/-- What both sides sign (R405): nonces and ephemeral keys, the agent's first (log entry 119). -/
def mgTranscript (x : Session) : List Byte := leBytes 32 x.nonceA ++ leBytes 32 x.nonceD ++ leBytes 97 x.peerKey ++ leBytes 97 x.ecdhPub

/-- Key and salt of a direction (R488): from the ECDH secret, with both nonces as salt and "EB9600 MGMT" as context; direction 0 is
from the agent. -/
def mgKey (x : Session) (direction : Nat) : LinkKey :=
  let secret := Config.digest 21 (leBytes 48 x.ecdhPriv ++ leBytes 97 x.peerKey)
  keyFrom (leBytes 48 secret ++ leBytes 32 x.nonceA ++ leBytes 32 x.nonceD ++ leBytes 11 0x544D474D20303036394245 ++ leBytes 1 direction) 0

/-- HELLO_A (R405, R488): a session number, the device's nonce and its ephemeral key come back in HELLO_D; both are free values (log
entry 4). -/
def execHelloA (h : MgmtHeader) (nonce peerKey : Nat) (s : State) : Res :=
  .next (openMsg s 0x0002 { h with session := 0 } (fun t =>
    if lifecycle t ≠ 2 ∧ lifecycle t ≠ 3 then refuseState t
    else if 0 < t.mgt.handshakeWait ∨ 2 ≤ (t.mgt.sessions.filter (fun x => x.live)).length then (t, mgBusy, [])
    else
      let (k, t1) := drawFree t
      let (n, t2) := drawFree t1
      let x : Session := { id := t2.mgt.nextSession, live := false, nonceA := nonce % 2 ^ 256, nonceD := n % 2 ^ 256, peerKey := peerKey % 2 ^ 776
                           ecdhPriv := k % 2 ^ 384, ecdhPub := Config.digest 20 (leBytes 48 (k % 2 ^ 384)) % 2 ^ 776 }
      ({ t2 with mgt := { t2.mgt with nextSession := x.id + 1, handshakeWait := 50000, sessions := t2.mgt.sessions ++ [x] } },
        mgOk, leBytes 8 x.id ++ leBytes 32 x.nonceD ++ leBytes 97 x.ecdhPub)))

/-- AUTH_A (R405, R471, R488): the verdicts on the agent's chain to the current MGMT_ROOT and on its signature come with it. It
waits for the lower tree. FINISHED answers it, with the device's chain and its signature, and the session's keys are set. -/
def execAuthA (h : MgmtHeader) (chainOk sigOk : Bool) (s : State) : Res :=
  match findSession s h.session with
  | none => .next s
  | some x =>
    if !mgmtUp s || x.live || !treeReady s then .next s
    else
      let out := { s with mgt := { s.mgt with sessions := s.mgt.sessions.filter (fun y => y.id != x.id) } }
      if lifecycle s ≠ 2 ∧ lifecycle s ≠ 3 then .next (reply out 0x0004 x.id h.req mgNotPermitted [])
      else if !chainOk || !sigOk then .next (reply out 0x0004 x.id h.req mgAuth [])
      else if 2 ≤ (s.mgt.sessions.filter (fun y => y.live)).length then .next (reply out 0x0004 x.id h.req mgBusy [])
      else
        let (s1, hss) := signDevice s
        .next (reply (setSession s1 { x with live := true, rxKey := mgKey x 0, txKey := mgKey x 1 }) 0x0004 x.id h.req mgOk
          (s1.boot.chain ++ signatureBlock hss (mgTranscript x)))

/-- MGMT_SESSION_EXPIRY (R488). -/
def execMgmtSessionExpiry (session : Nat) (s : State) : Res :=
  .next { s with mgt := { s.mgt with sessions := s.mgt.sessions.filter (fun x => x.id != session) } }

/- State, faults, telemetry (R489, R490). -/

/-- A boot stage's code (R468). -/
def Stage.code : Stage → Nat
  | .hold => 0
  | .selftest => 1
  | .waitBundle => 2
  | .verify => 3
  | .ready => 4
  | .start => 5
  | .running => 6
  | .failed => 7

/-- FLT.STATUS (R433). -/
def fltStatus (s : State) : Nat :=
  let recs := s.flt.recs
  (recs.filter (fun e => e.2.st.live)).length + 2 ^ 16 * (recs.filter (fun e => e.2.st == .window)).length + 2 ^ 26 * b2n s.flt.degraded +
  2 ^ 27 * b2n s.flt.fatal + 2 ^ 28 * (s.flt.quar.map (fun d => 2 ^ d)).sum + 2 ^ 32 * (ctrlIn s .active).length + 2 ^ 36 * (ctrlIn s .standby).length

/-- QUERY_STATE (R489): in every state, with a DEVICE fault and in RETIRED too. -/
def execQueryState (h : MgmtHeader) (s : State) : Res :=
  .next (openMsg s 0x0010 h (fun t => (t, mgOk, leBytes 1 (lifecycle t) ++ leBytes 1 t.sec.lcSteps ++ leBytes 1 t.boot.stage.code ++
    leBytes 3 t.fab.faddr ++ leBytes 48 t.sec.idhash ++ leBytes 2 t.sec.boots ++ leBytes 8 (fltStatus t))))

/-- Records in FSEQ order. -/
def insertRec (r : FaultRec) : List FaultRec → List FaultRec
  | [] => [r]
  | x :: l => if r.fseq ≤ x.fseq then r :: x :: l else x :: insertRec r l

/-- The records of FAULT_HISTORY. -/
def historyRecs (s : State) (from_ count : Nat) : List FaultRec :=
  ((s.flt.recs.filter (fun e => e.2.st != .free && decide (from_ ≤ e.2.fseq))).foldr (fun e l => insertRec e.2 l) []).take count

/-- A row entry in the layout of R465. -/
def rowEntry (channel place : Nat) : List Byte := leBytes 8 (channel % 512 + 512 * (place % 2 ^ 25))

/-- Rows HELD, rows found uncorrected by scrub, and repairs that failed (R490). -/
def historyRows (s : State) : List Byte :=
  s.chans.flatMap (fun e => e.2.heldRows.flatMap (fun r => rowEntry e.1 (Config.rowPlace r))) ++
  s.chans.flatMap (fun e => (e.2.scrubRows.filter (fun r => !e.2.heldRows.contains r)).flatMap (fun r => rowEntry e.1 (Config.rowPlace r))) ++
  s.boot.pprBad.flatMap (fun e => rowEntry e.1 (e.2.1 + 2 * e.2.2.1 + 2 ^ 7 * e.2.2.2))

/-- FAULT_HISTORY (R489, R490): served while a DEVICE fault is present. -/
def execFaultHistory (h : MgmtHeader) (fromFseq count : Nat) (s : State) : Res :=
  .next (inSession s 0x0050 h (fun t =>
    if lifecycle t = 4 then refuseState t
    else if count = 0 ∨ 512 < count then (t, mgBad, [])
    else (t, mgOk, (historyRecs t fromFseq count).flatMap recBytes ++ historyRows t)))

/-- One second of telemetry in bytes (R490). -/
def telemetryBytes (x : Nat × List Nat × Bool × List Nat) : List Byte :=
  leBytes 8 x.1 ++ (x.2.1.take 4).flatMap (fun f => leBytes 2 f) ++ leBytes 1 (b2n x.2.2.1) ++ leBytes 8 (x.2.2.2.headD 0)

/-- GET_TELEMETRY (R490): oldest first. -/
def execGetTelemetry (h : MgmtHeader) (seconds : Nat) (s : State) : Res :=
  .next (sealed s 0x0041 h inService (fun t =>
    if seconds = 0 ∨ 60 < seconds then (t, mgBad, [])
    else (t, mgOk, (t.pwr.telemetry.take seconds).reverse.flatMap telemetryBytes)))

/-- SUBSCRIBE (R489): 600 s of pushes; renewable. -/
def execSubscribe (h : MgmtHeader) (s : State) : Res :=
  .next (sealed s 0x0042 h inService (fun t =>
    match findSession t h.session with
    | some x => (setSession t { x with pushes := 600 }, mgOk, [])
    | none => (t, mgOk, [])))

/-- TELEMETRY_PUSH (R489): the latest second goes to a subscribed session. -/
def execTelemetryPush (session : Nat) (s : State) : Res :=
  match findSession s session with
  | none => .next s
  | some x =>
    if !mgmtUp s || !x.live || x.pushes == 0 || !inService s || s.flt.fatal then .next s
    else .next (sealedReply s { x with pushes := x.pushes - 1 } 0x0042 0 mgOk ((s.pwr.telemetry.take 1).flatMap telemetryBytes))

/-- SET_POWER_CAP (R450, R490, R492). -/
def execSetPowerCap (h : MgmtHeader) (cap : Nat) (s : State) : Res :=
  .next (sealed s 0x0040 h inService (fun t =>
    if cap < 200 ∨ 400 < cap then (t, mgBad, [])
    else (notice { t with pwr := { t.pwr with cap := cap } } 3 0, mgOk, leBytes 2 cap)))

/-- MGMT_ATTEST (R389, R390, R489): evidence of SCOPE 0 over the nonce; it waits for the lower tree. -/
def execMgmtAttest (h : MgmtHeader) (nonce : Nat) (s : State) : Res :=
  if !treeReady s then .next s
  else .next (sealed s 0x0030 h (fun t => lifecycle t == 2 || lifecycle t == 3) (fun t =>
    let (t1, ev) := attestation t 0 0 (leBytes 32 nonce)
    (t1, mgOk, ev)))

/- Firmware (R388, R464, R466, R490, R492). -/

/-- STAGE comes before READY. -/
def beforeReady (s : State) : Bool :=
  match s.boot.stage with
  | .hold => true
  | .selftest => true
  | .waitBundle => true
  | .verify => true
  | _ => false

/-- SET_FW_POLICY (R388, R492): a policy only tightens what is in force. -/
def execSetFwPolicy (h : MgmtHeader) (sources floor : Nat) (s : State) : Res :=
  .next (sealed s 0x0020 h beforeReady (fun t =>
    if sources = 0 ∨ 3 < sources ∨ 64 < floor then (t, mgBad, [])
    else
      let p := BitVec.ofNat 2 sources
      if p &&& t.mgt.policySrc ≠ p ∨ floor < t.mgt.policyFloor then refuseState t
      else ({ t with mgt := { t.mgt with policySrc := p, policyFloor := floor } }, mgOk, [])))

/-- The stage in which a bundle is uploaded. -/
def waiting (s : State) : Bool := s.boot.stage == .waitBundle

/-- BUNDLE_BEGIN (R490). -/
def execBundleBegin (h : MgmtHeader) (len : Nat) (s : State) : Res :=
  .next (sealed s 0x0021 h waiting (fun t =>
    if !bundleLenOk len then (t, mgBad, [])
    else ({ t with mgt := { t.mgt with upload := some len, uploadLost := false, staging := [] } }, mgOk, [])))

/-- BUNDLE_DATA (R490): data at a multiple of 64 within the length, at most 60 KiB. -/
def execBundleData (h : MgmtHeader) (offset : Nat) (data : List Byte) (s : State) : Res :=
  .next (sealed s 0x0022 h waiting (fun t =>
    match t.mgt.upload with
    | none => refuseState t
    | some len =>
      if offset % 64 ≠ 0 ∨ 61440 < data.length ∨ len < offset + data.length then (t, mgBad, [])
      else ({ t with mgt := { t.mgt with staging := mwrite t.mgt.staging offset data } }, mgOk, [])))

/-- BUNDLE_END (R466, R490, R492): the notice, and the verification as a GO would start it. -/
def execBundleEnd (h : MgmtHeader) (b : Bundle) (s : State) : Res :=
  .next (sealed s 0x0023 h waiting (fun t =>
    match t.mgt.upload with
    | none => refuseState t
    | some len =>
      let got : Bundle := { b with readable := true, bytes := mread t.mgt.staging 0 len }
      match takeBundle (notice { t with mgt := { t.mgt with upload := none } } 4 0) got len 1 with
      | (t1, none) => (t1, mgOk, [])
      | (t1, some code) => (t1, mgRefused, leBytes 1 code)))

/-- ADVANCE_SVN (R375, R388): up to the SVN of the running image; a step that cannot be burned leaves the counter as it was. -/
def execAdvanceSvn (h : MgmtHeader) (burnOk : Bool) (s : State) : Res :=
  .next (sealed s 0x0024 h inService (fun t =>
    if t.sec.imageSvn ≤ t.sec.fuseSvn then (t, mgOk, leBytes 1 t.sec.fuseSvn)
    else match burn t burnOk with
      | (t1, true) => ({ t1 with sec := { t1.sec with fuseSvn := t1.sec.imageSvn } }, mgOk, leBytes 1 t1.sec.imageSvn)
      | (t1, false) => (t1, mgRefused, leBytes 1 t1.sec.fuseSvn)))

/- Reset and lifecycle (R376, R459, R489 to R492). -/

/-- A delayed action is accepted: none may be pending, and the delay is at most 10 s. -/
def schedule (s : State) (a : MgmtAction) (kind delayMs : Nat) : Served :=
  if s.mgt.pending.isSome then refuseState s
  else if 10000 < delayMs then (s, mgBad, [])
  else (notice { s with mgt := { s.mgt with pending := some a } } kind delayMs, mgOk, [])

/-- MGMT_RESET (R459, R490). -/
def execMgmtReset (h : MgmtHeader) (delayMs : Nat) (s : State) : Res := .next (sealed s 0x0060 h (fun _ => true) (fun t => schedule t .reset 1 delayMs))

/-- TRANSITION (R376): in PROVISIONED. -/
def execTransition (h : MgmtHeader) (delayMs : Nat) (s : State) : Res :=
  .next (sealed s 0x0070 h (fun t => lifecycle t == 2) (fun t => schedule t .transition 2 delayMs))

/-- HANDOVER (R376): in DEPLOYED; the fourth owner's is refused. -/
def execHandover (h : MgmtHeader) (delayMs root : Nat) (s : State) : Res :=
  .next (sealed s 0x0071 h (fun t => lifecycle t == 3) (fun t =>
    if t.sec.lcSteps = 9 ∨ 4 ≤ t.sec.mgmtRoots.length then (t, mgRefused, leBytes 1 0) else schedule t (.handover root) 2 delayMs))

/-- RETIRE (R376). -/
def execRetire (h : MgmtHeader) (delayMs : Nat) (s : State) : Res := .next (sealed s 0x0072 h (fun _ => true) (fun t => schedule t .retire 2 delayMs))

/-- IDHASH of a DEVICE_SECRET (R316, R382; log entry 22). -/
def idhashOf (secret : BitVec 256) : Nat := Config.digest 31 (leBytes 32 secret.toNat) % 2 ^ 384

/-- The fuses of a retired device (R376): every LIFECYCLE step and every bit of DEVICE_SECRET. -/
def retired (z : Security) : Security :=
  { z with lcSteps := 16, secret := BitVec.allOnes 256, idhash := idhashOf (BitVec.allOnes 256) }

/-- The fuses after a delayed lifecycle action (R376). -/
def lifecycled (z : Security) : MgmtAction → Security
  | .reset => z
  | .transition => { z with lcSteps := z.lcSteps + 1 }
  | .handover root => { z with lcSteps := z.lcSteps + 1, mgmtRoots := z.mgmtRoots ++ [root] }
  | .retire => retired z

/-- MGMT_DELAY_EXPIRY (R375, R376, R378, R490): the burn, then the reset and the boot; a burn that fails leaves the device as it
was. -/
def execMgmtDelayExpiry (burnOk : Bool) (s : State) : Res :=
  match s.mgt.pending with
  | none => .next s
  | some a =>
    let s1 := { s with mgt := { s.mgt with pending := none } }
    if s.flt.fatal || !mgmtUp s then .next s1
    else if a = .reset then .next (resetAndBoot s1)
    else match burn s1 burnOk with
      | (s2, true) => .next (resetAndBoot { s2 with sec := lifecycled s2.sec a })
      | (s2, false) => .next s2

/-- A token's transition (R376, R491): the fuses after it; none where the state does not take its KIND. -/
def tokenFuses (s : State) (t : Token) (secret : BitVec 256) : Option Security :=
  let z := s.sec
  if t.kind = 1 ∧ lifecycle s = 0 then some { z with lcSteps := 1, secret := secret, idhash := idhashOf secret }
  else if t.kind = 2 ∧ lifecycle s = 1 then some { z with lcSteps := 2, mgmtRoots := z.mgmtRoots ++ [t.mgmtRoot], ownerRoot := t.ownerRoot }
  else if t.kind = 3 then some (retired z)
  else none

/-- LC_TOKEN (R375, R376, R378, R489, R491): it acts at once; the reply precedes the reset. `secret` is what the random source
gives. A burn that fails refuses it, and the device stays as it was. -/
def execLcToken (h : MgmtHeader) (t : Token) (secret : BitVec 256) (s : State) : Res :=
  if !mgmtUp s || h.session != 0 then .next s
  else if s.flt.fatal || decide (1 < lifecycle s) || s.mgt.pending.isSome then .next (reply s 0x0011 0 h.req mgNotPermitted [])
  else if t.kind = 0 ∨ 3 < t.kind then .next (reply s 0x0011 0 h.req mgBad [])
  else if !t.sigOk || t.idhash != (if lifecycle s = 0 then 0 else s.sec.idhash) || t.boots != s.sec.boots then
    .next (reply s 0x0011 0 h.req mgRefused (leBytes 1 0))
  else match tokenFuses s t secret with
    | none => .next (reply s 0x0011 0 h.req mgNotPermitted [])
    | some z => match burn s t.burnOk with
      | (s1, true) => .next (resetAndBoot { reply s1 0x0011 0 h.req mgOk [] with sec := { z with spareRows := s1.sec.spareRows } })
      | (s1, false) => .next (reply s1 0x0011 0 h.req mgRefused (leBytes 1 0))

/- The network (R486). -/

/-- The port's MAC address as six octets in a number, the first octet highest (R486). -/
def macAddr (s : State) : Nat :=
  let o (k : Nat) : Nat := s.sec.idhash / 2 ^ (8 * k) % 256
  ((((o 0 / 4 * 4 + 2) * 256 + o 1) * 256 + o 2) * 256 + o 3) * 65536 + o 4 * 256 + o 5

/-- The modified EUI-64 interface identifier: the universal bit of the first octet inverted, FF-FE in the middle. -/
def interfaceId (s : State) : Nat :=
  let m := macAddr s
  ((m / 2 ^ 24) ^^^ (2 ^ 17)) * 2 ^ 40 + 0xFFFE * 2 ^ 24 + m % 2 ^ 24

/-- The link-local address (R486). -/
def linkLocal (s : State) : Nat := 0xFE80 * 2 ^ 112 + interfaceId s

/-- NEIGHBOR_DISCOVERY (R486): a solicitation of one of the port's addresses is answered; an advertised prefix of 64 bits gives
a further address. -/
def execNeighborDiscovery (solicited prefixAdvert : Option Nat) (s : State) : Res :=
  if !mgmtUp s then .next s
  else
    let s1 := match prefixAdvert with
      | some p => { s with mgt := { s.mgt with addrs := insertNew s.mgt.addrs (p % 2 ^ 64 * 2 ^ 64 + interfaceId s) } }
      | none => s
    .next (match solicited with
      | some a => if a = linkLocal s1 ∨ s1.mgt.addrs.contains a then emit s1 (.net 1 (leBytes 16 a ++ leBytes 6 (macAddr s1))) else s1
      | none => s1)

/-- ICMPV6_ECHO (R486): the data come back. -/
def execIcmpv6Echo (data : List Byte) (s : State) : Res := .next (if mgmtUp s then emit s (.net 2 data) else s)

/-- PAUSE_FRAME (R486): the quanta for which the port pauses. -/
def execPauseFrame (quanta : Nat) (s : State) : Res :=
  .next (if mgmtUp s then { s with mgt := { s.mgt with pause := quanta % 65536 } } else s)

end Sys2Proof.Machine
end

