-- ==== Sys2Proof/Machine/Registers.lean ====
section
/-! DEFINITION. REGISTER_WRITE: host writes to register blocks and ring pages by field type (R11, R12, R463, R477 to R479), block
by block at the bases of R478. A write to a register that has a row of its own does what that row does. -/

namespace Sys2Proof.Machine

/-- What a row leaves. -/
def effect (r : Res) (s : State) : State :=
  match r with
  | .next t => t
  | .fault _ => s
  | .refused _ => s

/-- The index of an array of registers at an offset: `count` elements from `base`, `stride` bytes apart, one register each. -/
def elemAt (off base stride count : Nat) : Option Nat :=
  if base ≤ off ∧ off < base + stride * count ∧ (off - base) % stride = 0 then some ((off - base) / stride) else none

/-- The bits that a W1C write leaves. -/
def w1c (old : Bool) (v : Word) (i : Nat) : Bool := old && !bit v i

/-- A value in a range, else the old one. -/
def ranged (new lo hi old : Nat) : Nat := if lo ≤ new ∧ new ≤ hi then new else old

/-- A configuration change begins a cold window over the whole device (R259). -/
def coldStart (s : State) : State := { s with hub := { s.hub with cold := 2 } }

/- Ring pages (R133). -/

/-- A register of ring `r` of a page, at an offset within the ring's set. -/
def ringWrite (fn : Fn) (page r off : Nat) (v : Word) (s : State) : State :=
  let sq := sqAt s page r
  let cq := cqAt s page r
  if off = 0x00 then (if sq.enable then s else setSq s page r { sq with base := field v 63 12 })
  else if off = 0x08 then effect (execSqEnable fn page r v s) s
  else if off = 0x10 then effect (execSqDoorbell fn page r v s) s
  else if off = 0x18 then setSq s page r { sq with dberr := w1c sq.dberr v 18, fetcherr := w1c sq.fetcherr v 19 }
  else if off = 0x20 then effect (execResume fn page r v s) s
  else if off = 0x28 then (if cq.enable then s else setCq s page r { cq with base := field v 63 12 })
  else if off = 0x30 then effect (execCqEnable fn page r v s) s
  else if off = 0x38 then effect (execCqHeadWrite fn page r v s) s
  else s

/-- A write to a ring page: its function must own it (R130). -/
def pageWrite (fn : Fn) (page off : Nat) (v : Word) (s : State) : State :=
  if !ownsPage s fn page 0 then s
  else if off < 0x400 then ringWrite fn page (off / 64) (off % 64) v s
  else if off < 0xC00 then effect (execSyncCounterAccess fn page ((off - 0x400) / 8) v s) s
  else s

/-- The colony that a VF drives (R215). -/
def colonyOfVf (s : State) (v : Nat) : Option Nat := (s.cols.find? (fun e => e.2.vf == v)).map (fun e => e.1)

/- HUB (R161, R180, R181, R261, R468). -/

/-- HUB.CLASS[c] as a value spells it. -/
def classOf (v : Word) : ClassCfg := { min := field v 7 0, weight := field v 15 8, qmin := field v 25 16, capmin := field v 31 28 }

/-- The sums of R263 hold of classes 1 to 6. -/
def classSums (t : Tbl ClassCfg) : Bool :=
  let l := ([1, 2, 3, 4, 5, 6] : List Nat).map (fun c => tget {} t c)
  decide ((l.map (fun x => x.min)).sum ≤ 220) && decide ((l.map (fun x => x.qmin)).sum ≤ 576) && decide ((l.map (fun x => x.capmin)).sum ≤ 14)

/-- A write of HUB.CLASS[c] waits for the boundary; one that would break a sum is ignored and sets REJECT (R259, R260, R263). -/
def classWrite (c : Nat) (v : Word) (s : State) : State :=
  let next := tset s.hub.classesNext c (classOf v)
  if classSums (next.foldl (fun t e => tset t e.1 e.2) s.hub.classes) then coldStart (modHub s (fun h => { h with classesNext := next }))
  else modHub s (fun h => { h with regReject := true })

/-- HUB.RUNCTL[c] (R181); with RECALL cleared every core loses its home (R184). -/
def runCtlWrite (c : Nat) (v : Word) (s : State) : State :=
  let old := runCtlAt s c
  let s1 := modHub s (fun h => { h with
    runCtl := tset h.runCtl c { npAllow := bit v 0, recallOn := bit v 1, slice := ranged (field v 17 8) 1 1000 old.slice } })
  if bit v 1 then s1
  else { s1 with cores := s1.cores.map (fun e => (e.1, if e.2.home = c then { e.2 with home := 0 } else e.2)) }

/-- The boot registers (R468): writes are ignored outside WAIT_BUNDLE. -/
def bootRegWrite (off : Nat) (v : Word) (s : State) : State :=
  if !bootWritable s then s
  else if off = 0x3808 then { s with boot := { s.boot with addr := field v 63 12 } }
  else if off = 0x3810 then { s with boot := { s.boot with len := field v 25 0 } }
  else s

def hubWrite (off : Nat) (v : Word) (s : State) : State :=
  match elemAt off 0x1000 8 65, elemAt off 0x1400 8 65, elemAt off 0x3400 8 7 with
  | some c, _, _ => modHub s (fun h => { h with trkLim := tset h.trkLim c (ranged (field v 11 0) 1 3840 (limitOf s c)) })
  | _, some c, _ => if c = 0 then s else runCtlWrite c v s
  | _, _, some c => if c = 0 then s else classWrite c v s
  | none, none, none =>
    if off = 0x0800 then modHub s (fun h => { h with npLimit := ranged (field v 10 0) 1 2000 h.npLimit })
    else if off = 0x3440 then coldStart (modHub s (fun h => { h with regNext := some (bit v 0, field v 9 1, field v 25 16) }))
    else if off = 0x3448 then modHub s (fun h => { h with regReject := w1c h.regReject v 0 })
    else s

/- COL, XLT, SEC (R217, R262, R309, R406). -/

/-- A class field: 0 keeps its value (R262). -/
def classField (new old : Nat) : Nat := if new = 0 then old else new

def colWrite (off : Nat) (v : Word) (s : State) : State :=
  let c := off / 64
  if c = 0 ∨ 64 < c then s
  else match off % 64 with
    | 0x00 => coldStart (modCol s c (fun x => { x with
        classMode := bit v 0, shadow := if x.st == .free then ranged (field v 13 8) 1 32 x.shadow else x.shadow }))
    | 0x28 => if bit v 0 then effect (execColonyReset c s) s else s
    | 0x30 => coldStart (modCol s c (fun x => { x with
        mapCore := classField (field v 2 0) x.mapCore, mapCopy := classField (field v 6 4) x.mapCopy
        mapPort := classField (field v 10 8) x.mapPort, mapCtrl := classField (field v 14 12) x.mapCtrl }))
    | 0x38 => if field v 7 0 = 0 then s else coldStart (modCol s c (fun x => { x with linkwNext := some (field v 7 0) }))
    | _ => s

/-- The highest vector of the function that serves a colony (R309). -/
def colonyMaxVec (c : Colony) : Nat := if c.vf = 0x7F then 63 else 29

def xltWrite (off : Nat) (v : Word) (s : State) : State :=
  let c := off / 64
  if c = 0 ∨ 64 < c ∨ off % 64 ≠ 0 then s
  else modCol s c (fun x => { x with
    fIrq := bit v 0, fVec := ranged (field v 6 1) 0 (colonyMaxVec x) x.fVec, fMax := ranged (field v 16 8) 1 256 x.fMax
    fTimeout := ranged (field v 41 32) 1 1000 x.fTimeout })

def secWrite (off : Nat) (v : Word) (s : State) : State :=
  match elemAt off 0x400 8 128 with
  | some i => modSlot s i (fun k => { k with assign := ranged (field v 17 11) 0 64 k.assign })
  | none => s

/- FLT, PWR, MESH, MGT (R433, R457, R263, R493). -/

/-- FLT.ACK (R416, R433): KEEP or FENCE. -/
def ackWrite (v : Word) (s : State) : State :=
  if field v 10 9 = 0 then effect (execFltAckKeep (field v 8 0) s) s
  else if field v 10 9 = 1 then effect (execFltAckFence (field v 8 0) s) s
  else s

def fltWrite (off : Nat) (v : Word) (s : State) : State :=
  match elemAt off 0x1000 8 65 with
  | some c => if c = 0 then s else modCol s c (fun x => { x with diagSlots := field v 9 0, diagVa := field v 47 16 })
  | none =>
    if off = 0x000 then { s with flt := { s.flt with
      irqEn := bit v 0, vec := field v 6 1, eventIrq := bit v 7, winMs := ranged (field v 14 8) 1 100 s.flt.winMs
      hangWin := ranged (field v 25 16) 1 1000 s.flt.hangWin } }
    else if off = 0x010 then ackWrite v s
    else if off = 0x028 then effect (execPerturbEnableWrite v s) s
    else if off = 0x030 then effect (execInject v s) s
    else s

def pwrWrite (off : Nat) (v : Word) (s : State) : State := if off = 0x08 ∧ bit v 3 then effect (execPwrCoolClr s) s else s

def meshWrite (off : Nat) (v : Word) (s : State) : State :=
  let d := off / 0x100
  if 4 ≤ d then s
  else match off % 0x100 with
    | 0x08 => modMesh s d (fun m => { m with lmiss := m.lmiss &&& ~~~v })
    | 0x10 => modMesh s d (fun m => { m with missEn := bit v 0, missVec := field v 6 1 })
    | _ => s

def mgtWrite (off : Nat) (v : Word) (s : State) : State :=
  if off = 0x08 then { s with mgt := { s.mgt with irqEn := bit v 0, vec := field v 6 1 } } else s

/- FAB, ZLT (R340, R370). -/

def fabWrite (off : Nat) (v : Word) (s : State) : State :=
  let f := s.fab
  match elemAt off 0x020 8 4, elemAt off 0x8000 8 4096 with
  | some k, _ => { s with fab := { f with wdata := tset f.wdata k v } }
  | _, some i => { s with fab := { f with routes := tset f.routes i v } }
  | none, none =>
    if off = 0x000 then effect (execFabricAddressWrite v s) s
    else if off = 0x008 then { s with fab := { f with
      diameter := ranged (field v 7 0) 1 255 f.diameter, hoptime := ranged (field v 17 8) 1 1000 f.hoptime } }
    else if off = 0x018 then { s with fab := { f with wsel := field v 15 0 } }
    else if off = 0x040 then
      let s1 := if bit v 0 then effect (execWindowWrite s) s else s
      let s2 := if bit v 1 then effect (execWindowRead s1) s1 else s1
      if bit v 2 then effect (execWindowRevoke s2) s2 else s2
    else if off = 0x048 then { s with fab := { f with wReject := w1c f.wReject v 1 } }
    else s

/-- ZLT.CMD's actions (R340). -/
def portCommand (p : Nat) (v : Word) (s : State) : State :=
  let s1 := if bit v 0 then effect (execPortFence p s) s else s
  let s2 := if bit v 1 then effect (execPortUnfence p s1) s1 else s1
  let s3 := if bit v 2 then effect (execPortRetrain p s2) s2 else s2
  if bit v 3 then effect (execZltClrCnt p s3) s3 else s3

def portWrite (p off : Nat) (v : Word) (s : State) : State :=
  match off with
  | 0x00 => effect (execPortEnWrite p v s) s
  | 0x28 => modPort s p (fun q => { q with transitw := ranged (field v 7 0) 1 255 q.transitw })
  | 0x30 => modPort s p (fun q => { q with
      missOwner := w1c q.missOwner v 0, missTransit := w1c q.missTransit v 1, missEn := bit v 8, missVec := field v 14 9 })
  | 0x38 => modPort s p (fun q => { q with bond := ranged (field v 3 0) 0 8 q.bond })
  | 0x40 => portCommand p v s
  | _ => s

/-- The device-wide registers of the ZLT block (R339, R340). -/
def zltDevWrite (off : Nat) (v : Word) (s : State) : State :=
  let z := s.zlt
  match off with
  | 0x00 => if z.evEnable then s else { s with zlt := { z with evBase := field v 63 12 } }
  | 0x08 => effect (execEventRingEnable v s) s
  | 0x10 => { s with zlt := { z with evHead := field v 11 0 } }
  | 0x18 => { s with zlt := { z with admitList := bit v 0, ecdsaOnly := bit v 1 } }
  | _ => s

/-- ZLT.ALLOW (R318, R340): words 0 to 5 the hash, word 6 VALID, word 7 reserved. -/
def allowWrite (i k : Nat) (v : Word) (s : State) : State :=
  if k = 7 then s else { s with zlt := { s.zlt with allow := tset s.zlt.allow (8 * i + k) (if k = 6 then v &&& 1 else v) } }

def zltWrite (off : Nat) (v : Word) (s : State) : State :=
  if off < 0x1000 then portWrite (off / 0x100) (off % 0x100) v s
  else if off < 0x4000 then zltDevWrite (off - 0x1000) v s
  else allowWrite ((off - 0x4000) / 64) ((off - 0x4000) % 64 / 8) v s

/- HBC, CORE (R38, R245). -/

def hbcWrite (off : Nat) (v : Word) (s : State) : State :=
  if off % 0x80 ≠ 0x28 then s
  else
    let s1 := if bit v 0 then effect (execHbcClrCnt (off / 0x80) s) s else s
    if bit v 1 then effect (execHbcClrPeak (off / 0x80) s1) s1 else s1

def coreWrite (off : Nat) (v : Word) (s : State) : State :=
  let n := off / 0x100
  match off % 0x100 with
  | 0x18 => modCore s n (fun c => { c with err := c.err &&& ~~~(v.setWidth 8) })
  | 0x38 =>
    let s1 := if bit v 0 then effect (execCoreFence n s) s else s
    if bit v 1 then effect (execCoreClrCnt n s1) s1 else s1
  | _ => s

/-- A write in the PF's BAR0, by block (R478). -/
def blockWrite (off : Nat) (v : Word) (s : State) : State :=
  if off < 0x4000 then hubWrite off v s
  else if 0x8000 ≤ off ∧ off < 0x9000 then mgtWrite (off - 0x8000) v s
  else if 0x10000 ≤ off ∧ off < 0x12000 then colWrite (off - 0x10000) v s
  else if 0x14000 ≤ off ∧ off < 0x16000 then xltWrite (off - 0x14000) v s
  else if 0x18000 ≤ off ∧ off < 0x18800 then secWrite (off - 0x18000) v s
  else if 0x1C000 ≤ off ∧ off < 0x20000 then fltWrite (off - 0x1C000) v s
  else if 0x20000 ≤ off ∧ off < 0x20100 then pwrWrite (off - 0x20000) v s
  else if 0x21000 ≤ off ∧ off < 0x21400 then meshWrite (off - 0x21000) v s
  else if 0x30000 ≤ off ∧ off < 0x40000 then fabWrite (off - 0x30000) v s
  else if 0x40000 ≤ off ∧ off < 0x48000 then zltWrite (off - 0x40000) v s
  else if 0x50000 ≤ off ∧ off < 0x60000 then hbcWrite (off - 0x50000) v s
  else if 0x60000 ≤ off ∧ off < 0x88000 then coreWrite (off - 0x60000) v s
  else s

/- MSI-X tables (R477, R479, R481). -/

/-- A 32-bit word of an MSI-X table (R479, R481; log entry 33): message address, upper address and data, and the mask bit
in the entry's last word. -/
def msixWord (fn : Fn) (i : Nat) (x : Nat) (s : State) : State :=
  let m := msixAt s fn
  if i % 4 < 3 then setMsix s fn { m with msg := tset m.msg i x }
  else if x % 2 = 1 then setMsix s fn { m with unmasked := m.unmasked.filter (fun k => k != i / 4) }
  else unmaskVector s fn (i / 4)

/-- A write to an MSI-X table at an offset within it: aligned words of 4 bytes or pairs of them (R479). -/
def msixWrite (fn : Fn) (off : Nat) (v : Word) (size : Nat) (s : State) : State :=
  if !(fnLive s fn && s.boot.stage == .running) || decide (maxVec fn < off / 16) then s
  else if size = 4 ∧ off % 4 = 0 then msixWord fn (off / 4) (v.toNat % 2 ^ 32) s
  else if size = 8 ∧ off % 8 = 0 then msixWord fn (off / 4 + 1) (v.toNat / 2 ^ 32) (msixWord fn (off / 4) (v.toNat % 2 ^ 32) s)
  else s

/-- An aligned 8-byte write, the only one that a register takes (R479). -/
def wholeWrite (off size : Nat) : Bool := size == 8 && off % 8 == 0

/-- A request that reaches a function but none of its BARs, or its memory space disabled (R477, R479, R485). -/
def unsupported (s : State) (fn : Fn) (bar offset : Nat) : Bool :=
  s.boot.link && s.boot.cfg && fnPresent s fn &&
  (s.pcie.d3.contains (fnIndex fn) ||
    !(match fn with
      | .pf => (bar == 0 && decide (offset < 0x100000)) || (bar == 2 && decide (offset < 0x80000)) || (bar == 4 && decide (offset < 0x4000))
      | .vf _ => bar == 0 && decide (offset < 0x2000)))

/-- REGISTER_WRITE (R11, R12, R463, R477 to R479, R485): BARs are named by their first number. -/
def execRegisterWrite (fn : Fn) (bar offset : Nat) (value : Word) (size : Nat) (s : State) : Res :=
  .next (if unsupported s fn bar offset then logAer s 3 else match fn with
    | .pf =>
      if bar = 0 then
        (if !wholeWrite offset size then s
        else if pfWrites s then blockWrite offset value s
        else bootRegWrite offset value s)
      else if bar = 2 then (if wholeWrite offset size then pageWrite .pf (offset / 0x1000) (offset % 0x1000) value s else s)
      else if bar = 4 then msixWrite .pf offset value size s
      else s
    | .vf k =>
      if bar ≠ 0 then s
      else if offset < 0x1000 then
        (match colonyOfVf s k with
        | some c => if wholeWrite offset size then pageWrite (.vf k) c offset value s else s
        | none => s)
      else if offset < 0x1800 then msixWrite (.vf k) (offset - 0x1000) value size s
      else s)

end Sys2Proof.Machine
end

