-- ==== Sys2Proof/Machine/Sfu.lean ====
section
/-! DEFINITION. The VSFU functions (R117). Each exact result is enclosed between two fixed-point numbers by exact integer
arithmetic; the bits are then a free choice among the FP32 encodings that R117's error bound allows (log entry 15). -/

namespace Sys2Proof.Machine

/- Fixed-point numbers with 320 fraction bits. -/

/-- The number 1. -/
def fixOne : Nat := 2 ^ 320

/-- Terms of the exponential series from z^n / n! on, `t` being that term. -/
def expTerms (z : Nat) : Nat → Nat → Nat → Nat
  | 0, _, _ => 0
  | k + 1, n, t => t + expTerms z k (n + 1) (t * z / fixOne / (n + 1))

/-- `k` squarings. -/
def squared : Nat → Nat → Nat
  | 0, y => y
  | k + 1, y => squared k (y * y / fixOne)

/-- e^z from below for z up to 128, within 2^-300 of its size: the series at z / 256, squared eight times. -/
def expFix (z : Nat) : Nat := squared 8 (expTerms (z / 256) 90 0 fixOne)

/-- The series of ln 2 from the term 1 / (n · 2^n) on. -/
def ln2Terms : Nat → Nat → Nat
  | 0, _ => 0
  | k + 1, n => fixOne / (n * 2 ^ n) + ln2Terms k (n + 1)

/-- Binary digits of the base-2 logarithm of y, 1 ≤ y < 2, after those in `acc`: each squaring gives the next. -/
def log2Digits : Nat → Nat → Nat → Nat
  | 0, _, acc => acc
  | k + 1, y, acc =>
    let q := y * y / fixOne
    if 2 * fixOne ≤ q then log2Digits k (q / 2) (2 * acc + 1) else log2Digits k q (2 * acc)

/-- A finite value as a fixed-point number; every FP32 value is one. -/
def fixOf (d : Dy) : Nat := d.m * 2 ^ (d.e + 320).toNat

/- Where the exact result lies. -/

/-- EXP2: 2^n · e^(f · ln 2). Beyond ±200 the result is far outside FP32's range, and the end of that range stands for it. -/
def exp2Span (d : Dy) : Int × Int :=
  let x : Int := if d.neg then -(fixOf d : Int) else fixOf d
  let c := max (-200 * (fixOne : Int)) (min (200 * (fixOne : Int)) x)
  let n := c / (fixOne : Int)
  let g := expFix ((c % (fixOne : Int)).toNat * ln2Terms 330 1 / fixOne)
  let at_ (v : Nat) : Nat := if 0 ≤ n then v * 2 ^ n.toNat else v / 2 ^ (-n).toNat
  (at_ g, at_ (g + 2 ^ 40) + 1)

/-- LOG2 of a positive value. -/
def log2Span (d : Dy) : Int × Int :=
  let k := Nat.log2 d.m
  let l : Int := (d.e + (k : Nat)) * (fixOne : Int) + ((log2Digits 60 (d.m * fixOne / 2 ^ k) 0 * 2 ^ 260 : Nat) : Int)
  (l, l + (2 ^ 264 : Nat))

/-- RCP of a positive value. -/
def rcpSpan (d : Dy) : Int × Int :=
  let p := 2 ^ (320 - d.e).toNat
  ((p / d.m : Nat), ((p + d.m - 1) / d.m : Nat))

/-- RSQRT of a positive value. -/
def rsqrtSpan (d : Dy) : Int × Int :=
  let v := isqrt 420 (2 ^ (640 - d.e).toNat / d.m)
  (v, v + 1)

/-- TANH's magnitude: (F − 1) / (F + 1) for F = e^(2|x|); from |x| = 60 on it is 1 within 2^-170. -/
def tanhSpan (d : Dy) : Int × Int :=
  let g := expFix (2 * min (fixOf d) (60 * fixOne))
  let v : Int := ((g - fixOne) * fixOne / (g + fixOne) : Nat)
  (v - (2 ^ 140 : Nat), v + (2 ^ 140 : Nat))

/-- SIGMOID: F / (F + 1) or 1 / (F + 1) for F = e^|x|; below −120 it lies under 2^-173. -/
def sigmoidSpan (d : Dy) : Int × Int :=
  let g := expFix (min (fixOf d) (120 * fixOne))
  let v : Int := ((if d.neg then fixOne else g) * fixOne / (g + fixOne) : Nat)
  (v - (2 ^ 40 : Nat), v + (2 ^ 40 : Nat))

/- The encodings within a bound. -/

/-- The greatest FP32 magnitude encoding whose value is at most v, and whether it is v. -/
def magDown (v : Nat) : Nat × Bool :=
  let t := max fp32.base ((Nat.log2 v : Int) - 343)
  let u := 2 ^ (320 + t).toNat
  let a := (t - fp32.base).toNat * 2 ^ 23 + v / u
  if a ≤ fp32.top then (a, v % u == 0) else (0x7F800000, true)

/-- The least magnitude encoding whose value is at least v. -/
def magUp (v : Nat) : Nat := let r := magDown v; if r.2 then r.1 else r.1 + 1

/-- Encodings counted in the order of their values: positive ones from 0 up, negative ones from −1 down. -/
def keyDown (v : Int) : Int := if 0 ≤ v then ((magDown v.toNat).1 : Int) else -(magUp v.natAbs : Int) - 1
def keyUp (v : Int) : Int := if 0 < v then (magUp v.toNat : Int) else -((magDown v.natAbs).1 : Int) - 1
def ofKey (k : Int) : Lane := BitVec.ofNat 32 (if 0 ≤ k then k.toNat else 2 ^ 31 + (-k - 1).toNat)

/-- One unit in the last place of a value of at most this magnitude. -/
def ulpOf (v : Nat) : Nat := 2 ^ ((max (-126) ((Nat.log2 v : Int) - 320)) + 297).toNat

/-- The first and the last encoding within a distance of an exact result that lies in a span. -/
def keysWithin (dist : Nat) (span : Int × Int) : Int × Int := (keyUp (span.1 - dist), keyDown (span.2 + dist))

/-- The encodings within `k` ulp. -/
def keysUlp (k : Nat) (span : Int × Int) : Int × Int :=
  keysWithin (k * ulpOf (max span.1.natAbs span.2.natAbs)) span

/-- The span of a negative result. -/
def negSpan (neg : Bool) (r : Int × Int) : Int × Int := if neg then (-r.2, -r.1) else r

/-- RCP's encodings: within 1 ulp, and within 2^-24 of the result's size, so that A × RCP(B) lies within 1.5 ulp of A / B
(R115); a subnormal result is one of the nearest. DESIGN CHOICE (log entry 15). -/
def rcpKeys (neg : Bool) (span : Int × Int) : Int × Int := keysWithin (max (span.2.natAbs / 2 ^ 24) (2 ^ 170)) (negSpan neg span)

/-- The one that the device gives: free, and the same for the same input (R64). -/
def pickKey (f : Nat) (x : Lane) (r : Int × Int) : Lane :=
  ofKey (r.1 + ((Config.ulpChoice f x % ((r.2 - r.1).toNat + 1) : Nat) : Int))

/-- LOG2's bound: absolute for inputs in [0.5, 2]. -/
def log2Keys (d : Dy) : Int × Int :=
  if fixOne ≤ 2 * fixOf d ∧ fixOf d ≤ 2 * fixOne then keysWithin (2 ^ 298) (log2Span d) else keysUlp 2 (log2Span d)

/-- VSFU (R117): the special values as stated, SQRT exact, the rest free within the bound that R117 gives. -/
def vsfu (f : Nat) (x : Lane) : Lane :=
  match valOf x with
  | .nan => qnan
  | .inf neg =>
    if f = 0 then (if neg then 0 else 0x7F800000)
    else if f = 1 then (if neg then qnan else 0x7F800000)
    else if f = 2 then (if neg then 0x80000000 else 0)
    else if f = 3 then (if neg then qnan else Config.sfu f x)
    else if f = 4 then (if neg then qnan else 0x7F800000)
    else if f = 5 then (if neg then 0xBF800000 else 0x3F800000)
    else (if neg then 0 else 0x3F800000)
  | .fin d =>
    if f = 0 then pickKey f x (keysUlp 2 (exp2Span d))
    else if f = 1 then (if d.m = 0 then 0xFF800000 else if d.neg then qnan else pickKey f x (log2Keys d))
    else if f = 2 then (if d.m = 0 then (if d.neg then 0xFF800000 else 0x7F800000) else pickKey f x (rcpKeys d.neg (rcpSpan d)))
    else if f = 3 then (if d.m = 0 then (if d.neg then 0xFF800000 else 0x7F800000) else if d.neg then qnan else pickKey f x (keysUlp 1 (rsqrtSpan d)))
    else if f = 4 then (if d.m = 0 then (if d.neg then 0x80000000 else 0) else if d.neg then qnan else sqrtFp32 d)
    else if f = 5 then pickKey f x (keysUlp 2 (negSpan d.neg (tanhSpan d)))
    else pickKey f x (keysUlp 2 (sigmoidSpan d))

end Sys2Proof.Machine
end

