-- ==== Sys2Proof/Machine/Vector.lean ====
section
/-! DEFINITION. Vector instructions and their dispatch (R64, R65, R92, R114 to R122). -/

namespace Sys2Proof.Machine

/-- A vector instruction enters the vector queue with s[VA] and s[VB] as read at issue (R92, R114). -/
def issueVec (s : State) (n op : Nat) (w : Word) : State :=
  issue s n op w (fun c => enqueueVector s n c
    { word := w, index := c.pc, order := c.order, x := sreg c (fA w), y := sreg c (fB w) })

def execVadd (core : Nat) (w : Word) (s : State) : Res := .next (issueVec s core 0xC0 w)
def execVsub (core : Nat) (w : Word) (s : State) : Res := .next (issueVec s core 0xC1 w)
def execVmul (core : Nat) (w : Word) (s : State) : Res := .next (issueVec s core 0xC2 w)
def execVfma (core : Nat) (w : Word) (s : State) : Res := .next (issueVec s core 0xC3 w)
def execVmin (core : Nat) (w : Word) (s : State) : Res := .next (issueVec s core 0xC4 w)
def execVmax (core : Nat) (w : Word) (s : State) : Res := .next (issueVec s core 0xC5 w)
def execVabs (core : Nat) (w : Word) (s : State) : Res := .next (issueVec s core 0xC6 w)
def execVneg (core : Nat) (w : Word) (s : State) : Res := .next (issueVec s core 0xC7 w)
def execVcmp (core : Nat) (w : Word) (s : State) : Res := .next (issueVec s core 0xC8 w)
def execVsel (core : Nat) (w : Word) (s : State) : Res := .next (issueVec s core 0xC9 w)
def execViadd (core : Nat) (w : Word) (s : State) : Res := .next (issueVec s core 0xCA w)
def execVand (core : Nat) (w : Word) (s : State) : Res := .next (issueVec s core 0xCB w)
def execVor (core : Nat) (w : Word) (s : State) : Res := .next (issueVec s core 0xCC w)
def execVxor (core : Nat) (w : Word) (s : State) : Res := .next (issueVec s core 0xCD w)
def execVshl (core : Nat) (w : Word) (s : State) : Res := .next (issueVec s core 0xCE w)
def execVshr (core : Nat) (w : Word) (s : State) : Res := .next (issueVec s core 0xCF w)
def execVsfu (core : Nat) (w : Word) (s : State) : Res := .next (issueVec s core 0xD0 w)
def execVcvt (core : Nat) (w : Word) (s : State) : Res := .next (issueVec s core 0xD8 w)
def execVred (core : Nat) (w : Word) (s : State) : Res := .next (issueVec s core 0xDA w)
def execVrmax (core : Nat) (w : Word) (s : State) : Res := .next (issueVec s core 0xDB w)
def execVacc (core : Nat) (w : Word) (s : State) : Res := .next (issueVec s core 0xDC w)
def execVwpf (core : Nat) (w : Word) (s : State) : Res := .next (issueVec s core 0xDD w)
def execVperm (core : Nat) (w : Word) (s : State) : Res := .next (issueVec s core 0xDE w)

/- Lane operations (R115). -/

/-- Source B: v[VB], or the broadcast of s[VB][31:0] (R114). -/
def srcB (c : Core) (q : QInstr) : List Lane :=
  if fBS q.word then List.replicate 256 (BitVec.ofNat 32 q.y.toNat) else vreg c (fB q.word)

/-- The lane-wise operation of two sources by opcode (R115, R117). -/
def laneOp (op sub : Nat) (a b c : Lane) : Lane :=
  if op = 0xC0 then fadd a b
  else if op = 0xC1 then fsub a b
  else if op = 0xC2 then fmul a b
  else if op = 0xC3 then ffma a b c
  else if op = 0xC4 then fmin a b
  else if op = 0xC5 then fmax a b
  else if op = 0xC6 then fabs a
  else if op = 0xC7 then fneg a
  else if op = 0xC8 then (if fcmp sub a b then 0xFFFFFFFF else 0)
  else if op = 0xC9 then (if c != 0 then a else b)
  else if op = 0xCA then a + b
  else if op = 0xCB then a &&& b
  else if op = 0xCC then a ||| b
  else if op = 0xCD then a ^^^ b
  else if op = 0xCE then a <<< (sub % 32)
  else if op = 0xCF then a >>> (sub % 32)
  else vsfu sub a

/-- A lane-wise operation over three registers. -/
def mapLanes (f : Lane → Lane → Lane → Lane) : List Lane → List Lane → List Lane → List Lane
  | a :: as, b :: bs, c :: cs => f a b c :: mapLanes f as bs cs
  | _, _, _ => []

/-- One narrowed element (R118). -/
def narrowCode (code : Nat) (x : Lane) : Nat :=
  let v := valOf x
  if code = 0x01 then encOut bf16 v
  else if code = 0x02 then encOut fp16 v
  else if code = 0x03 then encOut e4m3 v
  else if code = 0x04 then encOut e5m2 v
  else if code = 0x05 then writeInt32 v
  else writeInt8 v

/-- One widened element (R118). -/
def widen (code x : Nat) : Lane :=
  if code = 0x11 then encFp32 (decodeFp bf16 x)
  else if code = 0x12 then encFp32 (decodeFp fp16 x)
  else if code = 0x13 then encFp32 (decodeFp e4m3 x)
  else if code = 0x14 then encFp32 (decodeFp e5m2 x)
  else if code = 0x15 then (let i := sext x 32; roundFp32 ⟨decide (i < 0), i.natAbs, 0⟩)
  else encFp32 (decodeInt8 x)

/-- Bits of the narrow side of a conversion (R118). -/
def narrowBits (code : Nat) : Nat :=
  if code % 16 = 1 || code % 16 = 2 then 16 else if code % 16 = 5 then 32 else 8

/-- Narrow codes packed into lanes (R118). -/
def packLanes (per bits : Nat) : Nat → List Nat → List Lane
  | 0, _ => []
  | k + 1, l => BitVec.ofNat 32 ((l.take per).foldr (fun c acc => c + 2 ^ bits * acc) 0) :: packLanes per bits k (l.drop per)

/-- VCVT's lanes: where they begin in v[D] and what they hold (R118). -/
def cvtLanes (c : Core) (w : Word) : Nat × List Lane :=
  let code := fSub w % 64
  let q := fSub w / 64
  let bits := narrowBits code
  let per := 32 / bits
  if code < 0x10 then (256 / per * q, packLanes per bits (256 / per) ((vreg c (fA w)).map (narrowCode code)))
  else (0, (List.range 256).map (fun i =>
    widen code (((vlane c (fA w) (256 / per * q + i / per)).toNat >>> (bits * (i % per))) % 2 ^ bits)))

/-- One reduced lane and 255 zeros (R119). -/
def reduced (x : Lane) : List Lane := x :: List.replicate 255 0

/-- The lanes that a vector instruction without scratchpad or tile writes: first lane and values (R115 to R119). -/
def vecResult (c : Core) (q : QInstr) : Nat × List Lane :=
  let w := q.word
  let op := opOf w
  let a := vreg c (fA w)
  if op = 0xD8 then cvtLanes c w
  else if op = 0xDA then (0, reduced (crossLane fadd 0 a (fSub w + 1)))
  else if op = 0xDB then (0, reduced (crossLane fmax 0xFF800000 a (fSub w + 1)))
  else if op = 0xDE then (0, (srcB c q).map (fun i => vlane c (fA w) (i.toNat % 256)))
  else (0, mapLanes (laneOp op (fSub w)) a (srcB c q) (vreg c (fC w)))

/-- VACC's terms (R48, R49, R120): lane i to column i mod 128 of row r or r + 1. -/
def vaccTile (t : Tile) (r : Nat) (lanes : List Lane) : Tile :=
  let f (k : Nat) (e : Elem) : Elem × Bool × Bool := addTerm t.anchor e (valOf ((lanes[k - 128 * r]?).getD 0))
  let (es, lo, hi) := updElems f t.elems ((List.range 256).map (fun i => 128 * r + i))
  { t with elems := es, low := t.low || lo, high := t.high || hi }

/-- The queue without its head. -/
def popVector (c : Core) : Core := { c with vq := c.vq.drop 1 }

/-- The dispatch of a VACC (R120, R122). -/
def runVacc (s : State) (n : Nat) (cmd : Cmd) (q : QInstr) : State :=
  let c := coreAt s n
  let t := bit q.word 0
  let r := q.y.toNat
  if cmd.legacy || r % 2 != 0 || decide (126 < r) then illegal s n q.index q.word
  else setCore s n (popVector (setTile c t (vaccTile (tile c t) r (vreg c (fA q.word)))))

/-- The dispatch of a VWPF (R58, R59, R120, R122). -/
def runVwpf (s : State) (n : Nat) (q : QInstr) (e : EccReport) : State :=
  checkedOffsets s n q (fun s0 =>
    let (s1, ok) := spRead s0 n (spOperand q.x) e q.index
    if !ok then s1
    else
      let c := coreAt s1 n
      let anchor := sext (q.y.toNat % 1024) 10
      let lanes := (List.range 256).map (fun i =>
        BitVec.ofNat 32 (writeOut fp32 (wideVal anchor (BitVec.ofNat 128 (leNat (mread c.sp (wideAt (spOperand q.x) i) 16))))))
      setCore s1 n (popVector (setVreg c (fD q.word) lanes)))

/-- VECTOR_DISPATCH: the head of the vector queue acts (R92, R121); a matrix instruction issued before a VACC on its tile
goes first. A VACC reads its tile, so SECDED may report there (R28). -/
def execVectorDispatch (core : Nat) (e : Sram) (s : State) : Res :=
  let c := coreAt s core
  match coreCmd s c, c.vq with
  | some cmd, q :: _ =>
    let op := opOf q.word
    if !running s c then .next s
    else if op = 0xDC then
      (if c.mq.any (fun m => fT m.word == bit q.word 0 && decide (m.order < q.order)) then .next s
       else if e.acc = .uncorrected then .next (accFault s core q)
       else .next (runVacc s core cmd q))
    else if op = 0xDD then .next (runVwpf s core q e.sp)
    else
      let (first, lanes) := vecResult c q
      .next (setCore s core (popVector { c with vregs := setLanes c.vregs (256 * fD q.word + first) lanes }))
  | _, _ => .next s

end Sys2Proof.Machine
end

