-- ==== Sys2Proof/Machine/Dispatch.lean ====
section
/-! DEFINITION. One arm per command: its meaning. -/

namespace Sys2Proof.Machine

/-- The effect of a command on everything but the queue. -/
def exec (i : Instr) (s : State) : Host.Outcome State Fault Refusal :=
  match i with
  | .add core w => Sys2Proof.Machine.execAdd core w s
  | .sub core w => Sys2Proof.Machine.execSub core w s
  | .and core w => Sys2Proof.Machine.execAnd core w s
  | .or core w => Sys2Proof.Machine.execOr core w s
  | .xor core w => Sys2Proof.Machine.execXor core w s
  | .shl core w => Sys2Proof.Machine.execShl core w s
  | .shr core w => Sys2Proof.Machine.execShr core w s
  | .sra core w => Sys2Proof.Machine.execSra core w s
  | .mul core w => Sys2Proof.Machine.execMul core w s
  | .mulhu core w => Sys2Proof.Machine.execMulhu core w s
  | .min core w => Sys2Proof.Machine.execMin core w s
  | .max core w => Sys2Proof.Machine.execMax core w s
  | .minu core w => Sys2Proof.Machine.execMinu core w s
  | .maxu core w => Sys2Proof.Machine.execMaxu core w s
  | .mov core w => Sys2Proof.Machine.execMov core w s
  | .popc core w => Sys2Proof.Machine.execPopc core w s
  | .addi core w => Sys2Proof.Machine.execAddi core w s
  | .andi core w => Sys2Proof.Machine.execAndi core w s
  | .ori core w => Sys2Proof.Machine.execOri core w s
  | .xori core w => Sys2Proof.Machine.execXori core w s
  | .shli core w => Sys2Proof.Machine.execShli core w s
  | .shri core w => Sys2Proof.Machine.execShri core w s
  | .srai core w => Sys2Proof.Machine.execSrai core w s
  | .muli core w => Sys2Proof.Machine.execMuli core w s
  | .movi core w => Sys2Proof.Machine.execMovi core w s
  | .movhi core w => Sys2Proof.Machine.execMovhi core w s
  | .cmpeq core w => Sys2Proof.Machine.execCmpeq core w s
  | .cmpne core w => Sys2Proof.Machine.execCmpne core w s
  | .cmplt core w => Sys2Proof.Machine.execCmplt core w s
  | .cmpltu core w => Sys2Proof.Machine.execCmpltu core w s
  | .cmpge core w => Sys2Proof.Machine.execCmpge core w s
  | .cmpgeu core w => Sys2Proof.Machine.execCmpgeu core w s
  | .pand core w => Sys2Proof.Machine.execPand core w s
  | .por core w => Sys2Proof.Machine.execPor core w s
  | .pxor core w => Sys2Proof.Machine.execPxor core w s
  | .pandn core w => Sys2Proof.Machine.execPandn core w s
  | .nop core w => Sys2Proof.Machine.execNop core w s
  | .end_ core w => Sys2Proof.Machine.execEnd core w s
  | .br core w => Sys2Proof.Machine.execBr core w s
  | .call core w => Sys2Proof.Machine.execCall core w s
  | .jr core w => Sys2Proof.Machine.execJr core w s
  | .lds core w e => Sys2Proof.Machine.execLds core w e s
  | .sts core w => Sys2Proof.Machine.execSts core w s
  | .vld core w e => Sys2Proof.Machine.execVld core w e s
  | .vst core w => Sys2Proof.Machine.execVst core w s
  | .ldg core w e => Sys2Proof.Machine.execLdg core w e s
  | .stg core w e => Sys2Proof.Machine.execStg core w e s
  | .mfence core w => Sys2Proof.Machine.execMfence core w s
  | .dma core w e => Sys2Proof.Machine.execDma core w e s
  | .dmaWait core w => Sys2Proof.Machine.execDmaWait core w s
  | .dmaWaitall core w => Sys2Proof.Machine.execDmaWaitall core w s
  | .sig core w => Sys2Proof.Machine.execSig core w s
  | .wait core w => Sys2Proof.Machine.execWait core w s
  | .bar core w => Sys2Proof.Machine.execBar core w s
  | .semrd core w => Sys2Proof.Machine.execSemrd core w s
  | .sysr core w => Sys2Proof.Machine.execSysr core w s
  | .accClr core w => Sys2Proof.Machine.execAccClr core w s
  | .mm core w => Sys2Proof.Machine.execMm core w s
  | .accRaw core w => Sys2Proof.Machine.execAccRaw core w s
  | .accExp core w => Sys2Proof.Machine.execAccExp core w s
  | .accWr core w => Sys2Proof.Machine.execAccWr core w s
  | .matrixDispatch core e => Sys2Proof.Machine.execMatrixDispatch core e s
  | .vectorDispatch core e => Sys2Proof.Machine.execVectorDispatch core e s
  | .vadd core w => Sys2Proof.Machine.execVadd core w s
  | .vsub core w => Sys2Proof.Machine.execVsub core w s
  | .vmul core w => Sys2Proof.Machine.execVmul core w s
  | .vfma core w => Sys2Proof.Machine.execVfma core w s
  | .vmin core w => Sys2Proof.Machine.execVmin core w s
  | .vmax core w => Sys2Proof.Machine.execVmax core w s
  | .vabs core w => Sys2Proof.Machine.execVabs core w s
  | .vneg core w => Sys2Proof.Machine.execVneg core w s
  | .vcmp core w => Sys2Proof.Machine.execVcmp core w s
  | .vsel core w => Sys2Proof.Machine.execVsel core w s
  | .viadd core w => Sys2Proof.Machine.execViadd core w s
  | .vand core w => Sys2Proof.Machine.execVand core w s
  | .vor core w => Sys2Proof.Machine.execVor core w s
  | .vxor core w => Sys2Proof.Machine.execVxor core w s
  | .vshl core w => Sys2Proof.Machine.execVshl core w s
  | .vshr core w => Sys2Proof.Machine.execVshr core w s
  | .vsfu core w => Sys2Proof.Machine.execVsfu core w s
  | .vcvt core w => Sys2Proof.Machine.execVcvt core w s
  | .vred core w => Sys2Proof.Machine.execVred core w s
  | .vrmax core w => Sys2Proof.Machine.execVrmax core w s
  | .vacc core w => Sys2Proof.Machine.execVacc core w s
  | .vwpf core w => Sys2Proof.Machine.execVwpf core w s
  | .vperm core w => Sys2Proof.Machine.execVperm core w s
  | .dmaLineIssue core e => Sys2Proof.Machine.execDmaLineIssue core e s
  | .dmaReadReply core tag => Sys2Proof.Machine.execDmaReadReply core tag s
  | .dmaWriteTagReturn core tag => Sys2Proof.Machine.execDmaWriteTagReturn core tag s
  | .signalDelivery src dst => Sys2Proof.Machine.execSignalDelivery src dst s
  | .sqDoorbell fn page ring value => Sys2Proof.Machine.execSqDoorbell fn page ring value s
  | .sqEnable fn page ring value => Sys2Proof.Machine.execSqEnable fn page ring value s
  | .cqEnable fn page ring value => Sys2Proof.Machine.execCqEnable fn page ring value s
  | .resume fn page ring value => Sys2Proof.Machine.execResume fn page ring value s
  | .cqHeadWrite fn page ring value => Sys2Proof.Machine.execCqHeadWrite fn page ring value s
  | .syncCounterAccess fn page n value => Sys2Proof.Machine.execSyncCounterAccess fn page n value s
  | .packetFetch page ring slot ind => Sys2Proof.Machine.execPacketFetch page ring slot ind s
  | .nopCommand cmd => Sys2Proof.Machine.execNopCommand cmd s
  | .fence cmd => Sys2Proof.Machine.execFence cmd s
  | .signal cmd => Sys2Proof.Machine.execSignal cmd s
  | .waitCommand cmd => Sys2Proof.Machine.execWaitCommand cmd s
  | .waitTimeout cmd => Sys2Proof.Machine.execWaitTimeout cmd s
  | .launch cmd => Sys2Proof.Machine.execLaunch cmd s
  | .attemptStart cmd => Sys2Proof.Machine.execAttemptStart cmd s
  | .coreReturnBound core => Sys2Proof.Machine.execCoreReturnBound core s
  | .attemptEnd cmd => Sys2Proof.Machine.execAttemptEnd cmd s
  | .commitMergeCopy cmd report tagOk => Sys2Proof.Machine.execCommitMergeCopy cmd report tagOk s
  | .publish cmd => Sys2Proof.Machine.execPublish cmd s
  | .shadowFrameReturn cmd => Sys2Proof.Machine.execShadowFrameReturn cmd s
  | .completionRecordWrite cmd => Sys2Proof.Machine.execCompletionRecordWrite cmd s
  | .commit cmd => Sys2Proof.Machine.execCommit cmd s
  | .abandon cmd => Sys2Proof.Machine.execAbandon cmd s
  | .copy cmd => Sys2Proof.Machine.execCopy cmd s
  | .fill cmd => Sys2Proof.Machine.execFill cmd s
  | .loadSealed cmd => Sys2Proof.Machine.execLoadSealed cmd s
  | .storeSealed cmd iv => Sys2Proof.Machine.execStoreSealed cmd iv s
  | .reduce cmd => Sys2Proof.Machine.execReduce cmd s
  | .gather cmd => Sys2Proof.Machine.execGather cmd s
  | .scatter cmd => Sys2Proof.Machine.execScatter cmd s
  | .barrier cmd => Sys2Proof.Machine.execBarrier cmd s
  | .handoffOffer cmd => Sys2Proof.Machine.execHandoffOffer cmd s
  | .handoffAccept cmd => Sys2Proof.Machine.execHandoffAccept cmd s
  | .handoffRelease cmd => Sys2Proof.Machine.execHandoffRelease cmd s
  | .handoffAudit cmd => Sys2Proof.Machine.execHandoffAudit cmd s
  | .map cmd => Sys2Proof.Machine.execMap cmd s
  | .unmap cmd => Sys2Proof.Machine.execUnmap cmd s
  | .syncTable cmd src => Sys2Proof.Machine.execSyncTable cmd src s
  | .withdrawalDrainEnd cmd => Sys2Proof.Machine.execWithdrawalDrainEnd cmd s
  | .compaction colony dpa => Sys2Proof.Machine.execCompaction colony dpa s
  | .bind cmd => Sys2Proof.Machine.execBind cmd s
  | .unbind cmd => Sys2Proof.Machine.execUnbind cmd s
  | .teardown cmd => Sys2Proof.Machine.execTeardown cmd s
  | .rebind cmd => Sys2Proof.Machine.execRebind cmd s
  | .queryMap cmd => Sys2Proof.Machine.execQueryMap cmd s
  | .mapUpdate cmd => Sys2Proof.Machine.execMapUpdate cmd s
  | .oldEntryRetire colony => Sys2Proof.Machine.execOldEntryRetire colony s
  | .channelWipeDone channel ok => Sys2Proof.Machine.execChannelWipeDone channel ok s
  | .portLeaveDrainEnd port => Sys2Proof.Machine.execPortLeaveDrainEnd port s
  | .coreReplacement core => Sys2Proof.Machine.execCoreReplacement core s
  | .colonyReset colony => Sys2Proof.Machine.execColonyReset colony s
  | .attest cmd => Sys2Proof.Machine.execAttest cmd s
  | .keyLoad cmd blob => Sys2Proof.Machine.execKeyLoad cmd blob s
  | .keyRetire cmd => Sys2Proof.Machine.execKeyRetire cmd s
  | .keyZeroise slot => Sys2Proof.Machine.execKeyZeroise slot s
  | .keySlotCheckFail slot => Sys2Proof.Machine.execKeySlotCheckFail slot s
  | .sealSession cmd blob => Sys2Proof.Machine.execSealSession cmd blob s
  | .readFault cmd => Sys2Proof.Machine.execReadFault cmd s
  | .sample cmd => Sys2Proof.Machine.execSample cmd s
  | .perturb cmd => Sys2Proof.Machine.execPerturb cmd s
  | .perturbExpiry point => Sys2Proof.Machine.execPerturbExpiry point s
  | .killComplete core wipeOk => Sys2Proof.Machine.execKillComplete core wipeOk s
  | .timeSliceEnd colony => Sys2Proof.Machine.execTimeSliceEnd colony s
  | .nplimitReached cmd => Sys2Proof.Machine.execNplimitReached cmd s
  | .coreFence core => Sys2Proof.Machine.execCoreFence core s
  | .coreClrCnt core => Sys2Proof.Machine.execCoreClrCnt core s
  | .translationWalk agent colony va access parity => Sys2Proof.Machine.execTranslationWalk agent colony va access parity s
  | .translationRecordTimeout record => Sys2Proof.Machine.execTranslationRecordTimeout record s
  | .gets agent channel offset e => Sys2Proof.Machine.execGets agent channel offset e s
  | .getm agent channel offset whole e => Sys2Proof.Machine.execGetm agent channel offset whole e s
  | .ncr agent channel offset e => Sys2Proof.Machine.execNcr agent channel offset e s
  | .ncw agent channel offset data => Sys2Proof.Machine.execNcw agent channel offset data s
  | .putm agent channel offset => Sys2Proof.Machine.execPutm agent channel offset s
  | .drop agent channel offset => Sys2Proof.Machine.execDrop agent channel offset s
  | .forwardedRequest agent channel offset => Sys2Proof.Machine.execForwardedRequest agent channel offset s
  | .ownerResponse agent channel offset => Sys2Proof.Machine.execOwnerResponse agent channel offset s
  | .invalidation agent channel offset => Sys2Proof.Machine.execInvalidation agent channel offset s
  | .invalidationAck agent channel offset => Sys2Proof.Machine.execInvalidationAck agent channel offset s
  | .nackRetry agent channel offset => Sys2Proof.Machine.execNackRetry agent channel offset s
  | .agentUnresponsive agent channel offset => Sys2Proof.Machine.execAgentUnresponsive agent channel offset s
  | .meshFlitReplay die replays => Sys2Proof.Machine.execMeshFlitReplay die replays s
  | .hbmRead channel offset cmd first second tagOk => Sys2Proof.Machine.execHbmRead channel offset cmd first second tagOk s
  | .hbmWrite channel offset data cmd => Sys2Proof.Machine.execHbmWrite channel offset data cmd s
  | .refresh channel bank temp => Sys2Proof.Machine.execRefresh channel bank temp s
  | .calibrationSlot channel margin slopeMilli marginOk tracking => Sys2Proof.Machine.execCalibrationSlot channel margin slopeMilli marginOk tracking s
  | .retrainDone channel pass => Sys2Proof.Machine.execRetrainDone channel pass s
  | .remapCopy channel => Sys2Proof.Machine.execRemapCopy channel s
  | .patrolScrub channel row line report => Sys2Proof.Machine.execPatrolScrub channel row line report s
  | .hbcClrCnt channel => Sys2Proof.Machine.execHbcClrCnt channel s
  | .hbcClrPeak channel => Sys2Proof.Machine.execHbcClrPeak channel s
  | .windowBoundary reading linkMiss portMiss => Sys2Proof.Machine.execWindowBoundary reading linkMiss portMiss s
  | .voltageReached die => Sys2Proof.Machine.execVoltageReached die s
  | .droopTrip die => Sys2Proof.Machine.execDroopTrip die s
  | .droopHoldExpiry die target => Sys2Proof.Machine.execDroopHoldExpiry die target s
  | .senseBelowMinimum die => Sys2Proof.Machine.execSenseBelowMinimum die s
  | .railOutOfTolerance rail => Sys2Proof.Machine.execRailOutOfTolerance rail s
  | .pllLockLoss die => Sys2Proof.Machine.execPllLockLoss die s
  | .thermalTrip sensor => Sys2Proof.Machine.execThermalTrip sensor s
  | .coolantOkLow => Sys2Proof.Machine.execCoolantOkLow s
  | .coolantLoss => Sys2Proof.Machine.execCoolantLoss s
  | .pwrCoolClr => Sys2Proof.Machine.execPwrCoolClr s
  | .hangWindowExpiry unit => Sys2Proof.Machine.execHangWindowExpiry unit s
  | .engineResetDone unit => Sys2Proof.Machine.execEngineResetDone unit s
  | .engineResetTimeout unit => Sys2Proof.Machine.execEngineResetTimeout unit s
  | .watchdogExpiry ctrl => Sys2Proof.Machine.execWatchdogExpiry ctrl s
  | .reactionWindowExpiry record => Sys2Proof.Machine.execReactionWindowExpiry record s
  | .fltAckKeep record => Sys2Proof.Machine.execFltAckKeep record s
  | .fltAckFence record => Sys2Proof.Machine.execFltAckFence record s
  | .quarantineTimeout die => Sys2Proof.Machine.execQuarantineTimeout die s
  | .aliveToggle => Sys2Proof.Machine.execAliveToggle s
  | .inject value => Sys2Proof.Machine.execInject value s
  | .perturbEnableWrite value => Sys2Proof.Machine.execPerturbEnableWrite value s
  | .tagHoldExpiry port tag => Sys2Proof.Machine.execTagHoldExpiry port tag s
  | .portEnWrite port value => Sys2Proof.Machine.execPortEnWrite port value s
  | .portFence port => Sys2Proof.Machine.execPortFence port s
  | .portUnfence port => Sys2Proof.Machine.execPortUnfence port s
  | .portRetrain port => Sys2Proof.Machine.execPortRetrain port s
  | .zltClrCnt port => Sys2Proof.Machine.execZltClrCnt port s
  | .eventRingEnable value => Sys2Proof.Machine.execEventRingEnable value s
  | .partnerPresence port lanes => Sys2Proof.Machine.execPartnerPresence port lanes s
  | .trainingDone port passed weakest => Sys2Proof.Machine.execTrainingDone port passed weakest s
  | .trainTimeout port failed => Sys2Proof.Machine.execTrainTimeout port failed s
  | .discoveryDescriptor port d => Sys2Proof.Machine.execDiscoveryDescriptor port d s
  | .authentication port peerKey chainOk ecdsaOk lmsOk => Sys2Proof.Machine.execAuthentication port peerKey chainOk ecdsaOk lmsOk s
  | .laneFailing port lane => Sys2Proof.Machine.execLaneFailing port lane s
  | .laneRetrainDone port lane pass => Sys2Proof.Machine.execLaneRetrainDone port lane pass s
  | .lossOfPartner port cause => Sys2Proof.Machine.execLossOfPartner port cause s
  | .detectHoldoffExpiry port => Sys2Proof.Machine.execDetectHoldoffExpiry port s
  | .flitReceive port f => Sys2Proof.Machine.execFlitReceive port f s
  | .nak port base mask => Sys2Proof.Machine.execNak port base mask s
  | .creditReturn port vl credits => Sys2Proof.Machine.execCreditReturn port vl credits s
  | .creditReturnTimer port vl => Sys2Proof.Machine.execCreditReturnTimer port vl s
  | .rekey port => Sys2Proof.Machine.execRekey port s
  | .rekeyAcknowledged port => Sys2Proof.Machine.execRekeyAcknowledged port s
  | .sessionRefreshDone port => Sys2Proof.Machine.execSessionRefreshDone port s
  | .fabricAddressWrite value => Sys2Proof.Machine.execFabricAddressWrite value s
  | .windowWrite => Sys2Proof.Machine.execWindowWrite s
  | .windowRead => Sys2Proof.Machine.execWindowRead s
  | .windowRevoke => Sys2Proof.Machine.execWindowRevoke s
  | .transitForward inPort packet => Sys2Proof.Machine.execTransitForward inPort packet s
  | .writePacket port h payload => Sys2Proof.Machine.execWritePacket port h payload s
  | .addPacket port h payload => Sys2Proof.Machine.execAddPacket port h payload s
  | .readPacket port h lines => Sys2Proof.Machine.execReadPacket port h lines s
  | .readData port h payload => Sys2Proof.Machine.execReadData port h payload s
  | .wack port h => Sys2Proof.Machine.execWack port h s
  | .refuse port h => Sys2Proof.Machine.execRefuse port h s
  | .barrierMessage port m cseq window boottag => Sys2Proof.Machine.execBarrierMessage port m cseq window boottag s
  | .peerAbort port m aseq cause origin => Sys2Proof.Machine.execPeerAbort port m aseq cause origin s
  | .revoke port m => Sys2Proof.Machine.execRevoke port m s
  | .instarRetire port m value boottag => Sys2Proof.Machine.execInstarRetire port m value boottag s
  | .ack port m mseq status => Sys2Proof.Machine.execAck port m mseq status s
  | .busy port m mseq => Sys2Proof.Machine.execBusy port m mseq s
  | .offer port m hseq window rcol offset len => Sys2Proof.Machine.execOffer port m hseq window rcol offset len s
  | .accept port m hseq rcol => Sys2Proof.Machine.execAccept port m hseq rcol s
  | .release port m hseq rcol => Sys2Proof.Machine.execRelease port m hseq rcol s
  | .auditQ port m hseq state withdraw => Sys2Proof.Machine.execAuditQ port m hseq state withdraw s
  | .auditR port m hseq state => Sys2Proof.Machine.execAuditR port m hseq state s
  | .controlRetransmit mseq => Sys2Proof.Machine.execControlRetransmit mseq s
  | .fabricTimeout port tag mseq => Sys2Proof.Machine.execFabricTimeout port tag mseq s
  | .collectiveBusyRetry port tag => Sys2Proof.Machine.execCollectiveBusyRetry port tag s
  | .handoffTimer index => Sys2Proof.Machine.execHandoffTimer index s
  | .declinedExpiry index => Sys2Proof.Machine.execDeclinedExpiry index s
  | .powerOn => Sys2Proof.Machine.execPowerOn s
  | .perstNAssert => Sys2Proof.Machine.execPerstNAssert s
  | .perstNRelease => Sys2Proof.Machine.execPerstNRelease s
  | .hotReset => Sys2Proof.Machine.execHotReset s
  | .surpriseRemoval => Sys2Proof.Machine.execSurpriseRemoval s
  | .bootSelftest ctrlPass fusesOk collectorOk rngOk burnOk boottag deviceKey => Sys2Proof.Machine.execBootSelftest ctrlPass fusesOk collectorOk rngOk burnOk boottag deviceKey s
  | .lowerTreeDone => Sys2Proof.Machine.execLowerTreeDone s
  | .bootPrepDone failedTiles failedChannels => Sys2Proof.Machine.execBootPrepDone failedTiles failedChannels s
  | .bootGo value b => Sys2Proof.Machine.execBootGo value b s
  | .bootPpr failed => Sys2Proof.Machine.execBootPpr failed s
  | .bonorLoad => Sys2Proof.Machine.execBonorLoad s
  | .vfFlr vf => Sys2Proof.Machine.execVfFlr vf s
  | .vfEnableClear => Sys2Proof.Machine.execVfEnableClear s
  | .helloA h nonce peerKey => Sys2Proof.Machine.execHelloA h nonce peerKey s
  | .authA h chainOk sigOk => Sys2Proof.Machine.execAuthA h chainOk sigOk s
  | .queryState h => Sys2Proof.Machine.execQueryState h s
  | .lcToken h t secret => Sys2Proof.Machine.execLcToken h t secret s
  | .setFwPolicy h sources floor => Sys2Proof.Machine.execSetFwPolicy h sources floor s
  | .bundleBegin h len => Sys2Proof.Machine.execBundleBegin h len s
  | .bundleData h offset data => Sys2Proof.Machine.execBundleData h offset data s
  | .bundleEnd h b => Sys2Proof.Machine.execBundleEnd h b s
  | .advanceSvn h burnOk => Sys2Proof.Machine.execAdvanceSvn h burnOk s
  | .mgmtAttest h nonce => Sys2Proof.Machine.execMgmtAttest h nonce s
  | .setPowerCap h cap => Sys2Proof.Machine.execSetPowerCap h cap s
  | .getTelemetry h seconds => Sys2Proof.Machine.execGetTelemetry h seconds s
  | .subscribe h => Sys2Proof.Machine.execSubscribe h s
  | .telemetryPush session => Sys2Proof.Machine.execTelemetryPush session s
  | .faultHistory h fromFseq count => Sys2Proof.Machine.execFaultHistory h fromFseq count s
  | .mgmtReset h delayMs => Sys2Proof.Machine.execMgmtReset h delayMs s
  | .transition h delayMs => Sys2Proof.Machine.execTransition h delayMs s
  | .handover h delayMs root => Sys2Proof.Machine.execHandover h delayMs root s
  | .retire h delayMs => Sys2Proof.Machine.execRetire h delayMs s
  | .mgmtDelayExpiry burnOk => Sys2Proof.Machine.execMgmtDelayExpiry burnOk s
  | .mgmtSessionExpiry session => Sys2Proof.Machine.execMgmtSessionExpiry session s
  | .registerWrite fn bar offset value size => Sys2Proof.Machine.execRegisterWrite fn bar offset value size s
  | .unassignedOpcode core w => Sys2Proof.Machine.execUnassignedOpcode core w s
  | .copyEngineLine engine host e => Sys2Proof.Machine.execCopyEngineLine engine host e s
  | .copyEngineFault engine => Sys2Proof.Machine.execCopyEngineFault engine s
  | .sliceAllocatorFault slice => Sys2Proof.Machine.execSliceAllocatorFault slice s
  | .controlCoreUncorrectableError ctrl => Sys2Proof.Machine.execControlCoreUncorrectableError ctrl s
  | .collectorSelfCheckFailure => Sys2Proof.Machine.execCollectorSelfCheckFailure s
  | .hotResetEnd => Sys2Proof.Machine.execHotResetEnd s
  | .pcieLinkTrainingDone => Sys2Proof.Machine.execPcieLinkTrainingDone s
  | .configurationRetryEnd => Sys2Proof.Machine.execConfigurationRetryEnd s
  | .hostReadCompletion cmd poisoned error => Sys2Proof.Machine.execHostReadCompletion cmd poisoned error s
  | .completionTimeout cmd => Sys2Proof.Machine.execCompletionTimeout cmd s
  | .vfEnableSet numVfs => Sys2Proof.Machine.execVfEnableSet numVfs s
  | .d3hot fn enter => Sys2Proof.Machine.execD3hot fn enter s
  | .msiXVectorUnmask fn vector => Sys2Proof.Machine.execMsiXVectorUnmask fn vector s
  | .coolantOkHigh => Sys2Proof.Machine.execCoolantOkHigh s
  | .handoffWaitTimeout cmd => Sys2Proof.Machine.execHandoffWaitTimeout cmd s
  | .flrWaitCut vf => Sys2Proof.Machine.execFlrWaitCut vf s
  | .neighborDiscovery solicited prefixAdvert => Sys2Proof.Machine.execNeighborDiscovery solicited prefixAdvert s
  | .icmpv6Echo data => Sys2Proof.Machine.execIcmpv6Echo data s
  | .pauseFrame quanta => Sys2Proof.Machine.execPauseFrame quanta s

end Sys2Proof.Machine
end

