-- ==== Sys2Proof/Machine/Step.lean ====
section
/-! DEFINITION. One step of the block: the command at the front of the queue is carried out; on an empty queue a tick of
the free-running counter passes (R447). -/

namespace Sys2Proof.Machine

/-- A tick of the free-running counter, which runs once the lower clocks are up (R446, R447); log entry 7. -/
def tick (s : State) : State :=
  if s.boot.inReset || !s.boot.powered then s else { s with ticks := (s.ticks + 1) % 2 ^ 64 }

/-- A step: the front command on the state with the queue's rest, or a tick on an empty queue. -/
def step (s : State) : Host.Outcome State Fault Refusal :=
  match s.pending with
  | [] => .next (tick s)
  | c :: rest => exec c { s with pending := rest }

/-- The state with the command that a table word spells put at the front of the queue; unchanged where it spells none. -/
def State.withFetchWord (s : State) (nbits w : Nat) : State :=
  match decodeTableWord nbits w with
  | some c => { s with pending := c :: s.pending }
  | none => s

end Sys2Proof.Machine
end

