-- ==== Sys2Proof/Safety.lean ====
section
/-! DEFINITION. What claims call a well-kept state: the byte memories in canonical form; and the words that claims are
stated in: what an effect leaves unchanged, and when a core issues a word. -/

namespace Sys2Proof.Machine

/-- The byte memories of State are in canonical form. -/
def State.memWf (s : State) : Prop :=
  Memory.wf s.hbm = true ∧ Memory.wf s.mgt.staging = true ∧ ∀ e ∈ s.cores, Memory.wf e.2.sp = true

/-- Nothing but core `n` differs: every other core, and every field of State beside the cores, is as it was. -/
def OnlyCore (s t : State) (n : Nat) : Prop :=
  { t with cores := s.cores } = s ∧ ∀ m, m ≠ n → coreAt t m = coreAt s m

/-- Nothing but channel `n`, with its slice and its directory, differs. -/
def OnlyChan (s t : State) (n : Nat) : Prop :=
  { t with chans := s.chans } = s ∧ ∀ m, m ≠ n → chanAt t m = chanAt s m

/-- Nothing but port `n` differs. -/
def OnlyPort (s t : State) (n : Nat) : Prop :=
  { t with ports := s.ports } = s ∧ ∀ m, m ≠ n → portAt t m = portAt s m

/-- Core `n` runs its command's kernel and the fetch delivers `w` at its PC: a legal word (R98) whose guard holds (R71).
No injected hang holds the core (R432). -/
def Issues (s : State) (n : Nat) (w : Word) : Prop :=
  running s (coreAt s n) = true ∧ s.flt.armed.contains (7, n) = false ∧ w = fetched (coreAt s n) ∧ legalWord w = true ∧
  guardHolds (coreAt s n) w = true

/-- Core `n` runs its command's kernel and the fetch delivers `w` at its PC, whatever its guard and its fields. No
injected hang holds the core (R432). -/
def Fetches (s : State) (n : Nat) (w : Word) : Prop :=
  running s (coreAt s n) = true ∧ s.flt.armed.contains (7, n) = false ∧ w = fetched (coreAt s n)

/-- The kernel rows: each opcode of R74 to R122 with its command for core `n` and the word `w`, where the memories of the
core that a row reads answer as `e` says. -/
def kernelRows (n : Nat) (w : Word) (e : Sram) : List (Nat × Instr) :=
  [(0x10, .add n w), (0x11, .sub n w), (0x12, .and n w), (0x13, .or n w), (0x14, .xor n w), (0x15, .shl n w),
   (0x16, .shr n w), (0x17, .sra n w), (0x18, .mul n w), (0x19, .mulhu n w), (0x1A, .min n w), (0x1B, .max n w),
   (0x1C, .minu n w), (0x1D, .maxu n w), (0x1E, .mov n w), (0x1F, .popc n w), (0x20, .addi n w), (0x22, .andi n w),
   (0x23, .ori n w), (0x24, .xori n w), (0x25, .shli n w), (0x26, .shri n w), (0x27, .srai n w), (0x28, .muli n w),
   (0x2E, .movi n w), (0x2F, .movhi n w), (0x30, .cmpeq n w), (0x31, .cmpne n w), (0x32, .cmplt n w),
   (0x33, .cmpltu n w), (0x34, .cmpge n w), (0x35, .cmpgeu n w), (0x38, .pand n w), (0x39, .por n w),
   (0x3A, .pxor n w), (0x3B, .pandn n w), (0x01, .nop n w), (0x02, .end_ n w), (0x03, .br n w), (0x04, .call n w),
   (0x05, .jr n w), (0x40, .lds n w e), (0x41, .sts n w), (0x44, .vld n w e), (0x45, .vst n w), (0x50, .ldg n w e),
   (0x51, .stg n w e), (0x52, .mfence n w), (0x60, .dma n w e), (0x61, .dmaWait n w), (0x62, .dmaWaitall n w),
   (0x70, .sig n w), (0x71, .wait n w), (0x72, .bar n w), (0x73, .semrd n w), (0x80, .sysr n w), (0x90, .accClr n w),
   (0xA0, .mm n w), (0xA4, .accRaw n w), (0xA9, .accExp n w), (0xA8, .accWr n w), (0xC0, .vadd n w),
   (0xC1, .vsub n w), (0xC2, .vmul n w), (0xC3, .vfma n w), (0xC4, .vmin n w), (0xC5, .vmax n w), (0xC6, .vabs n w),
   (0xC7, .vneg n w), (0xC8, .vcmp n w), (0xC9, .vsel n w), (0xCA, .viadd n w), (0xCB, .vand n w), (0xCC, .vor n w),
   (0xCD, .vxor n w), (0xCE, .vshl n w), (0xCF, .vshr n w), (0xD0, .vsfu n w), (0xD8, .vcvt n w), (0xDA, .vred n w),
   (0xDB, .vrmax n w), (0xDC, .vacc n w), (0xDD, .vwpf n w), (0xDE, .vperm n w)]

/-- Core `n` is the only core of a running LAUNCH `id` outside job groups; its data cache is empty and the fault table too. -/
def Lone (s : State) (n id : Nat) : Prop :=
  (coreAt s n).cmd = some id ∧ (coreAt s n).dc = [] ∧ s.flt.recs = [] ∧
  ∃ cmd, cmdAt s id = some cmd ∧ cmd.phase = .running ∧ cmd.job = 0 ∧ cmd.cores = [n]

/-- The attempt of command `id` on core `n` is being killed, and the command will end with `status` (R156, R175). -/
def DiesWith (t : State) (n id status : Nat) : Prop :=
  (coreAt t n).st = .killed ∧ ∃ k, cmdAt t id = some k ∧ k.phase = .killing ∧ k.killing = [n] ∧ k.after = some status

/-- Core `n` has retired one instruction to `pc` and nothing else of it changed but its scalar registers: s[d] reads
`v`, 0 where d is 0 (R68), and every other scalar register reads as before. Nothing else in the device changed. -/
def WritesSregTo (s t : State) (n pc d : Nat) (v : Word) : Prop :=
  OnlyCore s t n ∧
  coreAt t n = retireTo { coreAt s n with sregs := (coreAt t n).sregs } pc ∧
  sreg (coreAt t n) d = (if d = 0 then 0 else v) ∧
  ∀ r, r ≠ d → sreg (coreAt t n) r = sreg (coreAt s n) r

/-- The same at the next PC. -/
def WritesSreg (s t : State) (n d : Nat) (v : Word) : Prop := WritesSregTo s t n ((coreAt s n).pc + 1) d v

/-- The same for the predicates: p[d] reads `v`, 1 where d is 0 (R68), every other predicate as before. -/
def WritesPred (s t : State) (n d : Nat) (v : Bool) : Prop :=
  OnlyCore s t n ∧
  coreAt t n = retireTo { coreAt s n with preds := (coreAt t n).preds } ((coreAt s n).pc + 1) ∧
  pred (coreAt t n) d = (if d = 0 then true else v) ∧
  ∀ r, r ≠ d → r < 8 → pred (coreAt t n) r = pred (coreAt s n) r

/-- Core `n` has retired one instruction, to the PC given; nothing else in the device changed. -/
def OnlyRetires (s t : State) (n pc : Nat) : Prop := OnlyCore s t n ∧ coreAt t n = retireTo (coreAt s n) pc

/-- Core `n` has retired to the next PC and nothing of it changed but its scratchpad, of which every byte outside
`inside` reads as before; nothing else in the device changed. -/
def WritesSp (s t : State) (n : Nat) (inside : Nat → Prop) : Prop :=
  OnlyCore s t n ∧
  coreAt t n = retireTo { coreAt s n with sp := (coreAt t n).sp } ((coreAt s n).pc + 1) ∧
  ∀ x, ¬ inside x → mget (coreAt t n).sp x = mget (coreAt s n).sp x

/-- No injection of R432 waits for a scratchpad read of core `n`. -/
def NoSpInjection (s : State) (n : Nat) : Prop :=
  s.flt.armed.contains (1, n) = false ∧ s.flt.armed.contains (2, n) = false

/-- Command `id` has its final status, DETAIL and RESULT and its record is due (R153, R155); no other command, no core
and no byte of HBM changed. -/
def Ends (s t : State) (id status detail result : Nat) : Prop :=
  (∃ k, cmdAt t id = some k ∧ k.phase = .done ∧ k.status = status ∧ k.detail = detail ∧ k.result = result) ∧
  (∀ j, j ≠ id → cmdAt t j = cmdAt s j) ∧ t.cores = s.cores ∧ t.hbm = s.hbm

/-- No engine works for the command and no COMMIT or ABANDON waits for it. -/
def Alone (s : State) (id : Nat) (c : Cmd) : Prop :=
  c.claimedBy = none ∧ ∀ e, e < 16 → (engineAt s e).cmd ≠ some id

/-- No colony is in reset or teardown. -/
def NoTeardown (s : State) : Prop := ∀ e ∈ s.cols, e.2.st ≠ .resetting ∧ e.2.st ≠ .teardown

/-- A translated address whose page lies in a shadow frame already bound and whose home may be written: where the line
of a command's output goes (R165, R197). -/
def ShadowAt (s : State) (c : Cmd) (tc : List TcEntry) (instar va at_ : Nat) : Prop :=
  ∃ dpa p sh, tcLook (colAt s c.colony) tc c.colony instar va .write = .ok dpa p ∧ shadowFor c p.dpa = some sh ∧
    ownCheck (colAt s c.colony) instar (channelOf dpa) = .pass ∧ at_ = sh.addr dpa ∧
    (chanAt s (channelOf at_)).mode ≠ .fenced ∧ at_ < 2 ^ 40 ∧ at_ % 64 = 0

/-- No other agent's request for the line stands in a reserved entry of its slice (R274). -/
def NoneReserved (s : State) (agent ch off : Nat) : Prop :=
  ∀ m ∈ (chanAt s ch).nacked, m.reserved = true → m.offset = off → m.agent = agent

/-- A request of an agent for a line reaches its home: none of its own waits there, the slice and its channel take it (R231,
R232, R243), the line can be read without an error (R229, R235, R236), and no reserved request goes first (R274). -/
def ReachesHome (s : State) (agent ch off : Nat) (e : Sram) : Prop :=
  requestWaits s agent ch off = false ∧ mayIssue s agent (agentClass s agent) ch off = true ∧ e.slice = .clean ∧
  checkRead s (sourceAddr s (frameAddr ch off)) = (s, none) ∧ NoneReserved s agent ch off

/-- The set of an agent's cache that a line falls in has a way free (R267). -/
def RoomFor (s : State) (agent off : Nat) : Prop :=
  ((cacheOf s agent).filter (fun l => cacheSet agent l.offset == cacheSet agent off)).length < cacheWays agent

/-- The entries of a table stand in rising order of their numbers. -/
def Rising {α : Type} (t : Tbl α) : Prop := t.Pairwise (fun p q => p.1 < q.1)

/-- A plan with nothing left to do but to wait for peers: every step has completed, awaits contributions or awaits barrier
messages, and some step has not completed (R356, R357, R360). -/
def Waiting (plan : List PlanStep) : Prop :=
  (∀ p ∈ plan, p.done = true ∨ (p.op = 3 ∧ ∃ k, k < p.count ∧ tget 0 p.got (p.loff + k) ≠ p.nsrc) ∨ (p.op = 6 ∧ p.bars < p.nsrc)) ∧
  ∃ p ∈ plan, p.done = false

end Sys2Proof.Machine
end

