-- ==== Sys2Proof/Certificates/Slice0/Obligations.lean ====
section
/-! DEFINITION. The statements for the provers, each from the numbered rules of spec/ that its docstring cites. -/

open Sys2Proof Sys2Proof.Machine

/-- A step with a command at the front of the queue is that command's meaning on the state with the queue's rest; on an
empty queue it is a tick of the counter of R447, which counts while the device has power and is out of reset. The queue and
the tick of an empty queue are the model's choice: log entry 7. -/
def Obligations.StepRunsFrontCommand : Prop :=
  (∀ (s : State) (c : Instr) (rest : List Instr), s.pending = c :: rest → step s = exec c { s with pending := rest }) ∧
  (∀ (s : State), s.pending = [] →
    step s = .next (if s.boot.powered = true ∧ s.boot.inReset = false then { s with ticks := (s.ticks + 1) % 2 ^ 64 } else s))

/-- R74: the sixteen scalar instructions with register operands write s[D], and nothing else but the PC and the
retired count changes. R75: the ten scalar instructions with an immediate operand. IMM is sign-extended for ADDI, MULI
and MOVI and zero-extended for ANDI, ORI and XORI; a shift takes IMM[5:0]; MOVHI keeps s[D][31:0]. A field that the two tables
require to be 0 makes the instruction illegal where it is not. -/
def Obligations.ScalarResults : Prop :=
  (∀ (s : State) (n : Nat) (w : Word), Issues s n w →
    let a := sreg (coreAt s n) (fA w)
    let b := sreg (coreAt s n) (fB w)
    let gives (i : Instr) (v : Word) : Prop := ∃ t, exec i s = .next t ∧ WritesSreg s t n (fD w) v
    (opIs w 0x10 = true → gives (.add n w) (BitVec.ofNat 64 (a.toNat + b.toNat))) ∧
    (opIs w 0x11 = true → gives (.sub n w) (BitVec.ofInt 64 (a.toInt - b.toInt))) ∧
    (opIs w 0x12 = true → gives (.and n w) (BitVec.ofNat 64 (Nat.land a.toNat b.toNat))) ∧
    (opIs w 0x13 = true → gives (.or n w) (BitVec.ofNat 64 (Nat.lor a.toNat b.toNat))) ∧
    (opIs w 0x14 = true → gives (.xor n w) (BitVec.ofNat 64 (Nat.xor a.toNat b.toNat))) ∧
    (opIs w 0x15 = true → gives (.shl n w) (BitVec.ofNat 64 (a.toNat * 2 ^ (b.toNat % 64)))) ∧
    (opIs w 0x16 = true → gives (.shr n w) (BitVec.ofNat 64 (a.toNat / 2 ^ (b.toNat % 64)))) ∧
    (opIs w 0x17 = true → gives (.sra n w) (BitVec.ofInt 64 (a.toInt / 2 ^ (b.toNat % 64)))) ∧
    (opIs w 0x18 = true → gives (.mul n w) (BitVec.ofNat 64 (a.toNat * b.toNat))) ∧
    (opIs w 0x19 = true → gives (.mulhu n w) (BitVec.ofNat 64 (a.toNat * b.toNat / 2 ^ 64))) ∧
    (opIs w 0x1A = true → gives (.min n w) (BitVec.ofInt 64 (min a.toInt b.toInt))) ∧
    (opIs w 0x1B = true → gives (.max n w) (BitVec.ofInt 64 (max a.toInt b.toInt))) ∧
    (opIs w 0x1C = true → gives (.minu n w) (BitVec.ofNat 64 (min a.toNat b.toNat))) ∧
    (opIs w 0x1D = true → gives (.maxu n w) (BitVec.ofNat 64 (max a.toNat b.toNat))) ∧
    (opIs w 0x1E = true → gives (.mov n w) a) ∧
    (opIs w 0x1F = true → gives (.popc n w) (BitVec.ofNat 64 ((List.range 64).countP (fun i => a.getLsbD i))))) ∧
  (∀ (s : State) (n : Nat) (w : Word), Issues s n w →
    let a := sreg (coreAt s n) (fA w)
    let imm := fImm w
    let simm : Int := (w.setWidth 32).toInt
    let gives (i : Instr) (v : Word) : Prop := ∃ t, exec i s = .next t ∧ WritesSreg s t n (fD w) v
    (opIs w 0x20 = true → gives (.addi n w) (BitVec.ofInt 64 (a.toInt + simm))) ∧
    (opIs w 0x22 = true → gives (.andi n w) (BitVec.ofNat 64 (Nat.land a.toNat imm))) ∧
    (opIs w 0x23 = true → gives (.ori n w) (BitVec.ofNat 64 (Nat.lor a.toNat imm))) ∧
    (opIs w 0x24 = true → gives (.xori n w) (BitVec.ofNat 64 (Nat.xor a.toNat imm))) ∧
    (opIs w 0x25 = true → gives (.shli n w) (BitVec.ofNat 64 (a.toNat * 2 ^ (imm % 64)))) ∧
    (opIs w 0x26 = true → gives (.shri n w) (BitVec.ofNat 64 (a.toNat / 2 ^ (imm % 64)))) ∧
    (opIs w 0x27 = true → gives (.srai n w) (BitVec.ofInt 64 (a.toInt / 2 ^ (imm % 64)))) ∧
    (opIs w 0x28 = true → gives (.muli n w) (BitVec.ofInt 64 (a.toInt * simm))) ∧
    (opIs w 0x2E = true → gives (.movi n w) (BitVec.ofInt 64 simm)) ∧
    (opIs w 0x2F = true → gives (.movhi n w)
      (BitVec.ofNat 64 (imm * 2 ^ 32 + (sreg (coreAt s n) (fD w)).toNat % 2 ^ 32)))) ∧
  (∀ (s : State) (n : Nat) (w : Word), Fetches s n w →
    let refuses (i : Instr) : Prop := exec i s = .next (illegal s n (coreAt s n).pc w)
    (fB w ≠ 0 → (opIs w 0x1E = true → refuses (.mov n w)) ∧ (opIs w 0x1F = true → refuses (.popc n w))) ∧
    (64 ≤ fImm w → (opIs w 0x25 = true → refuses (.shli n w)) ∧ (opIs w 0x26 = true → refuses (.shri n w)) ∧
      (opIs w 0x27 = true → refuses (.srai n w))) ∧
    (fA w ≠ 0 → (opIs w 0x2E = true → refuses (.movi n w)) ∧ (opIs w 0x2F = true → refuses (.movhi n w))))

/-- R76: the six compares and the four predicate operations write p[PD]; the second operand of a compare is s[B], or the
sign-extended immediate when IB is 1; B with IB = 1 and IMM with IB = 0 must be 0. -/
def Obligations.PredicateResults : Prop :=
  (∀ (s : State) (n : Nat) (w : Word), Fetches s n w → (if fIB w then fB w ≠ 0 else fImm w ≠ 0) →
    let refuses (i : Instr) : Prop := exec i s = .next (illegal s n (coreAt s n).pc w)
    (opIs w 0x30 = true → refuses (.cmpeq n w)) ∧ (opIs w 0x31 = true → refuses (.cmpne n w)) ∧
    (opIs w 0x32 = true → refuses (.cmplt n w)) ∧ (opIs w 0x33 = true → refuses (.cmpltu n w)) ∧
    (opIs w 0x34 = true → refuses (.cmpge n w)) ∧ (opIs w 0x35 = true → refuses (.cmpgeu n w))) ∧
  ∀ (s : State) (n : Nat) (w : Word), Issues s n w →
    let a := sreg (coreAt s n) (fA w)
    let b : Word := if fIB w then BitVec.ofInt 64 (w.setWidth 32).toInt else sreg (coreAt s n) (fB w)
    let p := pred (coreAt s n) (fPA w)
    let q := pred (coreAt s n) (fPB w)
    let gives (i : Instr) (v : Bool) : Prop := ∃ t, exec i s = .next t ∧ WritesPred s t n (fPD w) v
    (opIs w 0x30 = true → gives (.cmpeq n w) (decide (a.toNat = b.toNat))) ∧
    (opIs w 0x31 = true → gives (.cmpne n w) (decide (a.toNat ≠ b.toNat))) ∧
    (opIs w 0x32 = true → gives (.cmplt n w) (decide (a.toInt < b.toInt))) ∧
    (opIs w 0x33 = true → gives (.cmpltu n w) (decide (a.toNat < b.toNat))) ∧
    (opIs w 0x34 = true → gives (.cmpge n w) (decide (a.toInt ≥ b.toInt))) ∧
    (opIs w 0x35 = true → gives (.cmpgeu n w) (decide (a.toNat ≥ b.toNat))) ∧
    (opIs w 0x38 = true → gives (.pand n w) (p && q)) ∧
    (opIs w 0x39 = true → gives (.por n w) (p || q)) ∧
    (opIs w 0x3A = true → gives (.pxor n w) (xor p q)) ∧
    (opIs w 0x3B = true → gives (.pandn n w) (p && !q))

/-- R77, R78: NOP retires; a taken branch goes to its target, which lies within the image; CALL writes the address after
it to s[D]; JR takes its target from s[A]. -/
def Obligations.ControlFlowTargets : Prop :=
  ∀ (s : State) (n : Nat) (w : Word), Issues s n w →
    let c := coreAt s n
    let target : Int := c.pc + (w.setWidth 16).toInt
    let jump := (sreg c (fA w)).toNat
    (opIs w 0x01 = true → ∃ t, exec (.nop n w) s = .next t ∧ OnlyRetires s t n (c.pc + 1)) ∧
    (opIs w 0x03 = true → 0 ≤ target → target < c.im.length →
      ∃ t, exec (.br n w) s = .next t ∧ OnlyRetires s t n target.toNat) ∧
    (opIs w 0x04 = true → 0 ≤ target → target < c.im.length →
      ∃ t, exec (.call n w) s = .next t ∧ WritesSregTo s t n target.toNat (fD w) (BitVec.ofNat 64 (c.pc + 1))) ∧
    (opIs w 0x05 = true → jump < c.im.length →
      ∃ t, exec (.jr n w) s = .next t ∧ OnlyRetires s t n jump)

/-- R77, R88, R92: END waits while a queue, a descriptor or a DMA group has something left; a barrier that another core of
the attempt has executed and this one has not ends the command NOT_PERMITTED (R88); else the core is at its END, its PC stays
and the command keeps its count of barriers, and its modified lines are written back (R277). -/
def Obligations.EndWaitsForTheCore : Prop :=
  ∀ (s : State) (n id : Nat) (w : Word) (cmd : Cmd), Issues s n w → opIs w 0x02 = true →
    let c := coreAt s n
    c.cmd = some id → cmdAt s id = some cmd →
    ((c.mq ≠ [] ∨ c.vq ≠ [] ∨ c.dq ≠ [] ∨ ∃ g ∈ c.groups, g.2 ≠ 0) → exec (.end_ n w) s = .next s) ∧
    (c.mq = [] → c.vq = [] → c.dq = [] → (∀ g ∈ c.groups, g.2 = 0) →
      ((∃ m ∈ cmd.cores, c.bars < barsOf s id cmd m) →
        exec (.end_ n w) s = .next (kernelFault s n 0x07 0x0B c.pc w false)) ∧
      ((∀ m ∈ cmd.cores, barsOf s id cmd m ≤ c.bars) →
        (∃ t, exec (.end_ n w) s = .next t ∧ (coreAt t n).ended = true ∧ (coreAt t n).pc = c.pc) ∧
        ((∀ l ∈ c.dc, l.mode ≠ .modified ∧ shadowAt s (frameAddr l.channel l.offset) = none) →
          exec (.end_ n w) s = .next (setCore (setCmd s id { cmd with endBars := tset cmd.endBars n c.bars }) n
            { retireTo c c.pc with ended := true }))))

/-- R71: an instruction executes when p[PG] XOR PN is 1, p0 being 1; every kernel row with a legal word whose guard is 0
only retires; PG = 0 with PN = 1 is illegal in every row. -/
def Obligations.GuardsDecide : Prop :=
  (∀ (c : Core) (w : Word), guardHolds c w = xor (pred c (w.toNat / 2 ^ 52 % 8)) (w.getLsbD 55)) ∧
  (∀ (s : State) (n : Nat) (w : Word) (e : Sram), Fetches s n w → ∀ r ∈ kernelRows n w e, opIs w r.1 = true →
    (legalWord w = true → guardHolds (coreAt s n) w = false →
      ∃ t, exec r.2 s = .next t ∧ OnlyRetires s t n ((coreAt s n).pc + 1)) ∧
    (w.toNat / 2 ^ 52 % 8 = 0 → w.getLsbD 55 = true → exec r.2 s = .next (illegal s n (coreAt s n).pc w)))

/-- R21, R73, R78, R79, R98, R99: a word of an unassigned opcode, the all-zero word included, is an illegal instruction
whatever its guard, and so is a branch, call or jump whose target lies outside the image; a scratchpad access that does
not lie within the scratchpad is a range fault, one that is not aligned an access fault. -/
def Obligations.IllegalAndFaultingForms : Prop :=
  ∀ (s : State) (n : Nat) (w : Word) (e : Sram),
    let c := coreAt s n
    let target : Int := c.pc + (w.setWidth 16).toInt
    let a := (sreg c (fA w) + BitVec.ofInt 64 (w.setWidth 32).toInt).toNat
    (running s c = true → s.flt.armed.contains (7, n) = false → w = fetched c → assigned w = false →
      exec (.unassignedOpcode n w) s = .next (illegal s n c.pc w)) ∧
    (Issues s n w →
      (target < 0 ∨ (c.im.length : Int) ≤ target →
        (opIs w 0x03 = true → exec (.br n w) s = .next (illegal s n c.pc w)) ∧
        (opIs w 0x04 = true → exec (.call n w) s = .next (illegal s n c.pc w))) ∧
      (c.im.length ≤ (sreg c (fA w)).toNat → opIs w 0x05 = true → exec (.jr n w) s = .next (illegal s n c.pc w)) ∧
      (0x180000 < a + fWidth w →
        (opIs w 0x40 = true → exec (.lds n w e) s = .next (rangeFault s n c.pc w)) ∧
        (opIs w 0x41 = true → exec (.sts n w) s = .next (rangeFault s n c.pc w))) ∧
      (a + fWidth w ≤ 0x180000 → a % fWidth w ≠ 0 →
        (opIs w 0x40 = true → exec (.lds n w e) s = .next (accessFault s n c.pc w)) ∧
        (opIs w 0x41 = true → exec (.sts n w) s = .next (accessFault s n c.pc w))))

/-- R99, R156, R175, R410: an illegal instruction of a running command outside job groups ends it: the fault takes a record
of cause ILLEGAL_INSTRUCTION in the lowest free entry of the fault table, the attempt is being killed and will end
NOT_PERMITTED, and the core is KILLED under the next kill epoch (R33). -/
def Obligations.IllegalInstructionEndsTheCommand : Prop :=
  ∀ (s : State) (n id : Nat) (w : Word) (cmd : Cmd),
    let c := coreAt s n
    running s c = true → s.flt.armed.contains (7, n) = false → w = fetched c → assigned w = false →
    c.cmd = some id → cmdAt s id = some cmd → cmd.phase = .running → cmd.job = 0 → cmd.cores = [n] → c.dc = [] →
    s.flt.recs = [] →
    ∃ t r k, exec (.unassignedOpcode n w) s = .next t ∧
      tfind t.flt.recs 0 = some r ∧ r.cause = 0x01 ∧ r.status = 0x0B ∧ r.unit = .core n ∧ r.word = w ∧ r.addr = c.pc ∧
      r.cmdTag = cmd.tag ∧ r.colony = cmd.colony ∧
      cmdAt t id = some k ∧ k.phase = .killing ∧ k.after = some 0x0B ∧ k.killing = [n] ∧ k.faultId = some 0 ∧
      (coreAt t n).st = .killed ∧ (coreAt t n).wipeBusy = true ∧ (coreAt t n).epoch = (c.epoch + 1) % 16 ∧
      (coreAt t n).mq = [] ∧ (coreAt t n).vq = [] ∧ (coreAt t n).dq = []

/-- R79: at the offset s[A] + sext(OFF), LDS reads 1, 2, 4 or 8 bytes, sign-extended where X is 1, and STS stores the low
bytes of s[D], and no other byte of the scratchpad changes; X = 1 on an STS is illegal; an offset that is misaligned or not
within the scratchpad ends the command ACCESS_DENIED (0x04). R27: a word that SECDED corrects reads so, and is counted for the
core; one that it cannot correct marks its bank and ends the command with UNCORRECTABLE_MEMORY (0x06), or reruns it. -/
def Obligations.ScratchpadScalarAccess : Prop :=
  (∀ (s : State) (n : Nat) (w : Word), Fetches s n w → opIs w 0x41 = true → fX w = true →
    exec (.sts n w) s = .next (illegal s n (coreAt s n).pc w)) ∧
  (∀ (s : State) (n id : Nat) (w : Word) (e : Sram), Issues s n w → Lone s n id →
    let a := (sreg (coreAt s n) (fA w) + BitVec.ofInt 64 (w.setWidth 32).toInt).toNat
    let k := 2 ^ (w.toNat / 2 ^ 40 % 4)
    (0x180000 < a + k ∨ a % k ≠ 0) →
      (opIs w 0x40 = true → ∃ t, exec (.lds n w e) s = .next t ∧ DiesWith t n id 0x04) ∧
      (opIs w 0x41 = true → ∃ t, exec (.sts n w) s = .next t ∧ DiesWith t n id 0x04)) ∧
  ∀ (s : State) (n : Nat) (w : Word) (e : Sram), Issues s n w →
    let c := coreAt s n
    let a := (sreg c (fA w) + BitVec.ofInt 64 (w.setWidth 32).toInt).toNat
    let k := 2 ^ (w.toNat / 2 ^ 40 % 4)
    a + k ≤ 0x180000 → a % k = 0 →
    (opIs w 0x40 = true → NoSpInjection s n → interlocked (queued c) [(a, k)] [] = false →
      let v := leNat (mread c.sp a k)
      let x : Word := if fX w then BitVec.ofInt 64 (BitVec.ofNat (8 * k) v).toInt else BitVec.ofNat 64 v
      (e.sp = .clean → ∃ t, exec (.lds n w e) s = .next t ∧ WritesSreg s t n (fD w) x) ∧
      (e.sp = .corrected → ∃ t, exec (.lds n w e) s = .next t ∧ OnlyCore s t n ∧ (coreAt t n).pc = c.pc + 1 ∧
        sreg (coreAt t n) (fD w) = (if fD w = 0 then 0 else x) ∧ (∀ r, r ≠ fD w → sreg (coreAt t n) r = sreg c r) ∧
        (coreAt t n).sp = c.sp ∧ (coreAt t n).err = c.err ||| 1#8 ∧ (coreAt t n).spCe = satInc 16 c.spCe) ∧
      (e.sp = .uncorrected →
        exec (.lds n w e) s = .next (sramFault (modCore s n (fun y => markBank y (a / 64 % 48))) n 1 false false c.pc))) ∧
    (opIs w 0x41 = true → interlocked (queued c) [] [(a, k)] = false →
      ∃ t, exec (.sts n w) s = .next t ∧ WritesSp s t n (fun x => a ≤ x ∧ x < a + k) ∧
        (Memory.wf c.sp = true → leNat (mread (coreAt t n).sp a k) = (sreg c (fD w)).toNat % 2 ^ (8 * k)))

/-- R80: lane i of a VLD or VST lies in line i / 16 of the access, at base + 64 · STR · (i / 16) + 4 · (i mod 16); STR = 0
is illegal; a base that is no multiple of 64, and a line that does not lie within the scratchpad, end the command
ACCESS_DENIED (0x04; R21, R99). -/
def Obligations.ScratchpadVectorAccess : Prop :=
  (∀ (s : State) (n : Nat) (w : Word) (e : Sram), Fetches s n w → fStr w = 0 →
    (opIs w 0x44 = true → exec (.vld n w e) s = .next (illegal s n (coreAt s n).pc w)) ∧
    (opIs w 0x45 = true → exec (.vst n w) s = .next (illegal s n (coreAt s n).pc w))) ∧
  (∀ (s : State) (n id : Nat) (w : Word) (e : Sram), Issues s n w → Lone s n id →
    let base := (sreg (coreAt s n) (fA w) + BitVec.ofNat 64 (fOffV w)).toNat
    (base % 64 ≠ 0 ∨ ∃ k, k < 16 ∧ 0x180000 < base + 64 * fStr w * k + 64) →
      (opIs w 0x44 = true → ∃ t, exec (.vld n w e) s = .next t ∧ DiesWith t n id 0x04) ∧
      (opIs w 0x45 = true → ∃ t, exec (.vst n w) s = .next t ∧ DiesWith t n id 0x04)) ∧
  ∀ (s : State) (n : Nat) (w : Word) (e : Sram), Issues s n w →
    let c := coreAt s n
    let base := (sreg c (fA w) + BitVec.ofNat 64 (fOffV w)).toNat
    let lane (i : Nat) : Nat := base + 64 * fStr w * (i / 16) + 4 * (i % 16)
    base % 64 = 0 → (∀ k, k < 16 → base + 64 * fStr w * k + 64 ≤ 0x180000) → vPending c (fD w) = false →
    (opIs w 0x44 = true → NoSpInjection s n → e.sp = .clean → vReadPending c (fD w) = false →
      interlocked (queued c) ((vecLines c w).map (fun a => (a, 64))) [] = false →
      ∃ t, exec (.vld n w e) s = .next t ∧ OnlyCore s t n ∧
        coreAt t n = retireTo { c with vregs := (coreAt t n).vregs } (c.pc + 1) ∧
        (∀ i, i < 256 → vlane (coreAt t n) (fD w) i = BitVec.ofNat 32 (leNat (mread c.sp (lane i) 4))) ∧
        (∀ r i, r ≠ fD w → i < 256 → vlane (coreAt t n) r i = vlane c r i)) ∧
    (opIs w 0x45 = true → interlocked (queued c) [] ((vecLines c w).map (fun a => (a, 64))) = false →
      ∃ t, exec (.vst n w) s = .next t ∧
        WritesSp s t n (fun x => ∃ k, k < 16 ∧ base + 64 * fStr w * k ≤ x ∧ x < base + 64 * fStr w * k + 64) ∧
        (Memory.wf c.sp = true → ∀ i, i < 256 →
          leNat (mread (coreAt t n).sp (lane i) 4) = (vlane c (fD w) i).toNat))

/-- R29, R81, R165, R272: an LDG whose line the data cache holds takes its value from that line; an STG whose line of
the shadow frame the core holds exclusive or modified stores into the cached line, which is then modified; MFENCE
retires once it issues. No byte of HBM changes, and no other cached line. The access is translated by the core's translation
cache, without a parity error (R30), the line read without an error (R29), and no translation fault halts the core (R299). -/
def Obligations.GlobalAccessThroughTheDataCache : Prop :=
  ∀ (s : State) (n id : Nat) (w : Word) (cmd : Cmd) (e : Sram), Issues s n w →
    let c := coreAt s n
    let k := fWidth w
    let a := (sreg c (fA w) + BitVec.ofInt 64 (w.setWidth 32).toInt).toNat
    c.cmd = some id → cmdAt s id = some cmd →
    (opIs w 0x52 = true → ∃ t, exec (.mfence n w) s = .next t ∧ OnlyRetires s t n (c.pc + 1)) ∧
    (a < 2 ^ 48 → a % k = 0 → e.tc = false → e.dc = .clean → agentHalted s n = false →
      (∀ (dpa : Nat) (p : Pte) (l : CacheLine), opIs w 0x50 = true →
        tcLook (colAt s c.colony) c.tc c.colony (stampOf s c.colony) a .read = .ok dpa p →
        let fa := readAddr s (colAt s c.colony) (some cmd) dpa
        cacheFind c.dc (channelOf fa) (chanOff (lineBase fa)) = some l →
        ∃ t, exec (.ldg n w e) s = .next t ∧ WritesSreg s t n (fD w) (loaded w ((l.data.drop (dpa % 64)).take k))) ∧
      (∀ (dpa : Nat) (p : Pte) (sh : Shadow) (l : CacheLine), opIs w 0x51 = true → inRegions cmd a k = true →
        tcLook (colAt s c.colony) c.tc c.colony (stampOf s c.colony) a .write = .ok dpa p →
        shadowFor cmd p.dpa = some sh →
        let fa := sh.addr dpa
        let ch := channelOf fa
        let off := chanOff (lineBase fa)
        ownCheck (colAt s c.colony) (stampOf s c.colony) ch = .pass → (chanAt s ch).mode ≠ .fenced →
        cacheFind c.dc ch off = some l → l.mode ≠ .shared →
        ∃ t, exec (.stg n w e) s = .next t ∧ OnlyCore s t n ∧
          coreAt t n = retireTo { c with dc := (coreAt t n).dc } (c.pc + 1) ∧
          cacheFind (coreAt t n).dc ch off = some { l with
            mode := .modified
            data := l.data.take (dpa % 64) ++ leBytes k (sreg c (fD w)).toNat ++ l.data.drop (dpa % 64 + k) } ∧
          ∀ ch' off', (ch' ≠ ch ∨ off' ≠ off) → cacheFind (coreAt t n).dc ch' off' = cacheFind c.dc ch' off'))

/-- R82: a DMA copies its descriptor at issue and queues it in its group; DMA.WAIT retires once its group has no more
than IMM descriptors outstanding and DMA.WAITALL once no group has any; else the core stalls and its PC stays. -/
def Obligations.DmaIssueAndWait : Prop :=
  ∀ (s : State) (n : Nat) (w : Word) (e : Sram), Issues s n w →
    let c := coreAt s n
    let a := (sreg c (fA w) + BitVec.ofInt 64 (w.setWidth 32).toInt).toNat
    (opIs w 0x60 = true → a % 32 = 0 → a + 32 ≤ 0x180000 → c.dq.length < 64 → NoSpInjection s n → e.sp = .clean →
      interlocked (queued c) [(a, 32)] [] = false → descOk (mread c.sp a 32) = true →
      ∃ t, exec (.dma n w e) s = .next t ∧ OnlyCore s t n ∧
        (coreAt t n).dq = c.dq ++ [descOf c w a (mread c.sp a 32)] ∧
        group (coreAt t n) (fG w) = group c (fG w) + 1 ∧ (∀ g, g ≠ fG w → group (coreAt t n) g = group c g) ∧
        coreAt t n = retireTo { c with
          dq := (coreAt t n).dq, groups := (coreAt t n).groups, nextDesc := c.nextDesc + 1 } (c.pc + 1)) ∧
    (opIs w 0x61 = true →
      (group c (fG w) ≤ fImm w → ∃ t, exec (.dmaWait n w) s = .next t ∧ OnlyRetires s t n (c.pc + 1)) ∧
      (fImm w < group c (fG w) → ∃ t, exec (.dmaWait n w) s = .next t ∧ OnlyCore s t n ∧
        coreAt t n = { c with stall := .dmaWait })) ∧
    (opIs w 0x62 = true →
      ((∀ g ∈ c.groups, g.2 = 0) → ∃ t, exec (.dmaWaitall n w) s = .next t ∧ OnlyRetires s t n (c.pc + 1)) ∧
      ((∃ g ∈ c.groups, g.2 ≠ 0) → ∃ t, exec (.dmaWaitall n w) s = .next t ∧ OnlyCore s t n ∧
        coreAt t n = { c with stall := .dmaWait }))

/-- R86, R87, R88, R90: SIG sends IMM to a semaphore of the core of rank s[A]; WAIT takes IMM from its semaphore once it
holds that much, and stalls until then; BAR retires once every core of the command has executed as many; SEMRD reads a
semaphore; SYSR reads a system value, and is illegal with another IMM or with A not 0. -/
def Obligations.SynchronisationEffects : Prop :=
  (∀ (s : State) (n : Nat) (w : Word), Fetches s n w → opIs w 0x80 = true → (7 < fImm w ∨ fA w ≠ 0) →
    exec (.sysr n w) s = .next (illegal s n (coreAt s n).pc w)) ∧
  ∀ (s : State) (n id : Nat) (w : Word) (cmd : Cmd), Issues s n w →
    let c := coreAt s n
    c.cmd = some id → cmdAt s id = some cmd →
    (∀ dst, opIs w 0x70 = true → cmd.cores[(sreg c (fA w)).toNat]? = some dst →
      exec (.sig n w) s = .next (retire { s with signals := s.signals ++ [{
        cmd := id, src := n, dst := dst, sem := fSem w, value := fImm w, index := c.pc, word := w, after := c.nextDesc }] } n c)) ∧
    (opIs w 0x71 = true → fImm w ≤ sem c (fSem w) → ∃ t, exec (.wait n w) s = .next t ∧ OnlyCore s t n ∧
      coreAt t n = retireTo { c with sems := (coreAt t n).sems } (c.pc + 1) ∧
      sem (coreAt t n) (fSem w) = sem c (fSem w) - fImm w ∧ ∀ k, k ≠ fSem w → sem (coreAt t n) k = sem c k) ∧
    (opIs w 0x71 = true → sem c (fSem w) < fImm w → ∃ t, exec (.wait n w) s = .next t ∧ OnlyCore s t n ∧
      coreAt t n = { c with stall := .semaphore }) ∧
    (opIs w 0x72 = true → c.stall ≠ .barrier → writesReturned c c.nextDesc = true →
      (∀ m ∈ cmd.cores, m ≠ n → c.bars + 1 ≤ barsOf s id cmd m) →
      ∃ t, exec (.bar n w) s = .next t ∧ OnlyCore s t n ∧
        coreAt t n = retireTo { c with bars := c.bars + 1, stall := .barrier } (c.pc + 1)) ∧
    (opIs w 0x72 = true → c.stall ≠ .barrier → writesReturned c c.nextDesc = true →
      (∃ m ∈ cmd.cores, m ≠ n ∧ barsOf s id cmd m ≤ c.bars) →
      ∃ t, exec (.bar n w) s = .next t ∧ OnlyCore s t n ∧ coreAt t n = { c with bars := c.bars + 1, stall := .barrier }) ∧
    (opIs w 0x72 = true → c.stall = .barrier → (∀ m ∈ cmd.cores, m ≠ n → c.bars ≤ barsOf s id cmd m) →
      ∃ t, exec (.bar n w) s = .next t ∧ OnlyCore s t n ∧ coreAt t n = retireTo c (c.pc + 1)) ∧
    (opIs w 0x73 = true → ∃ t, exec (.semrd n w) s = .next t ∧
      WritesSreg s t n (fD w) (BitVec.ofNat 64 (sem c (fSem w)))) ∧
    (opIs w 0x80 = true →
      let gives (v : Word) : Prop := ∃ t, exec (.sysr n w) s = .next t ∧ WritesSreg s t n (fD w) v
      (fImm w = 0 → gives (BitVec.ofNat 64 c.rank)) ∧
      (fImm w = 1 → gives (BitVec.ofNat 64 cmd.n)) ∧
      (fImm w = 2 → gives (BitVec.ofNat 64 cmd.paramsVa)) ∧
      (fImm w = 3 → gives (BitVec.ofInt 64 cmd.anchor)) ∧
      (fImm w = 4 → gives (if cmd.legacy || is16 cmd.fmtA || is16 cmd.fmtB then 0 else BitVec.ofInt 64 (scaledAnchor cmd))) ∧
      (fImm w = 5 → gives (BitVec.ofNat 64 cmd.job)) ∧
      (fImm w = 6 → gives (BitVec.ofNat 64 ((if c.lowSpill then 1 else 0) + (if c.highSpill then 2 else 0)))) ∧
      (fImm w = 7 → gives (BitVec.ofNat 64 s.ticks)))

/-- R52, R91: ACC.CLR clears its tile under the anchor of its mode (KERNEL: s[A][9:0]; COMMAND: the packet's; SCALED:
R53's), after the tile's LOW and HIGH have joined the command's flags (R51); a legacy command's tile has neither. -/
def Obligations.AccClrAnchorsATile : Prop :=
  ∀ (s : State) (n id : Nat) (w : Word) (cmd : Cmd), Issues s n w → opIs w 0x90 = true →
    let c := coreAt s n
    let old := tile c (fT w)
    c.cmd = some id → cmdAt s id = some cmd →
    (∀ q ∈ c.mq, fT q.word ≠ fT w) → (∀ q ∈ c.vq, vaccOn (fT w) q = false) →
    (cmd.legacy = false → fMode w = 2 → is16 cmd.fmtA = false ∧ is16 cmd.fmtB = false) →
    ∃ t, exec (.accClr n w) s = .next t ∧ OnlyCore s t n ∧
      (let anchor : Int := if cmd.legacy then 0 else if fMode w = 0 then ((sreg c (fA w)).setWidth 10).toInt
         else if fMode w = 1 then cmd.anchor else scaledAnchor cmd
       let mode := if cmd.legacy then 0 else fMode w
       tile (coreAt t n) (fT w) = { elems := [], low := false, high := false, anchor := anchor, mode := mode }) ∧
      tile (coreAt t n) (!fT w) = tile c (!fT w) ∧
      (coreAt t n).lowSpill = (c.lowSpill || old.low) ∧ (coreAt t n).highSpill = (c.highSpill || old.high) ∧
      coreAt t n = retireTo { c with
        acc0 := (coreAt t n).acc0, acc1 := (coreAt t n).acc1
        lowSpill := (coreAt t n).lowSpill, highSpill := (coreAt t n).highSpill } (c.pc + 1)

/-- R92, R104, R106, R107, R112: MM, ACC.RAW, ACC.EXP and ACC.WR enter the matrix queue with their scalar operands as
read at issue, in program order. R92, R114: every vector instruction enters the vector queue with s[VA] and s[VB] as
read at issue, in program order, once no earlier queued one still writes a register it names. -/
def Obligations.QueuedInstructions : Prop :=
  (∀ (s : State) (n : Nat) (w : Word), Issues s n w →
    let c := coreAt s n
    let queues (i : Instr) (q : QInstr) : Prop :=
      c.mq.length < 8 → interlocked (queued c) (spReads q) (spWrites q) = false →
      ∃ t, exec i s = .next t ∧ OnlyCore s t n ∧
        coreAt t n = retireTo { c with mq := c.mq ++ [q], order := c.order + 1 } (c.pc + 1)
    let q (x y z u : Nat) : QInstr :=
      { word := w, index := c.pc, order := c.order, x := sreg c x, y := sreg c y, z := sreg c z, u := sreg c u }
    (opIs w 0xA0 = true → queues (.mm n w) (q (fRA w) (fRB w) (fRSA w) (fRSB w))) ∧
    (opIs w 0xA4 = true → queues (.accRaw n w) (q (fRA w) 0 0 0)) ∧
    (opIs w 0xA9 = true → queues (.accExp n w) (q (fRA w) 0 0 0)) ∧
    (opIs w 0xA8 = true → queues (.accWr n w) (q (fRA w) (fRB w) (fRSA w) 0))) ∧
  (∀ (s : State) (n : Nat) (w : Word), Issues s n w →
    let c := coreAt s n
    let q : QInstr := { word := w, index := c.pc, order := c.order, x := sreg c (fA w), y := sreg c (fB w) }
    c.vq.length < 8 → (∀ r ∈ vecSources w, vPending c r = false) → (∀ d, vecDest w = some d → vPending c d = false) →
    interlocked (queued c) (spReads q) (spWrites q) = false →
    let queues (op : Nat) (i : Instr) : Prop := opIs w op = true → ∃ t, exec i s = .next t ∧ OnlyCore s t n ∧
      coreAt t n = retireTo { c with vq := c.vq ++ [q], order := c.order + 1 } (c.pc + 1)
    queues 0xC0 (.vadd n w) ∧ queues 0xC1 (.vsub n w) ∧ queues 0xC2 (.vmul n w) ∧ queues 0xC3 (.vfma n w) ∧
    queues 0xC4 (.vmin n w) ∧ queues 0xC5 (.vmax n w) ∧ queues 0xC6 (.vabs n w) ∧ queues 0xC7 (.vneg n w) ∧
    queues 0xC8 (.vcmp n w) ∧ queues 0xC9 (.vsel n w) ∧ queues 0xCA (.viadd n w) ∧ queues 0xCB (.vand n w) ∧
    queues 0xCC (.vor n w) ∧ queues 0xCD (.vxor n w) ∧ queues 0xCE (.vshl n w) ∧ queues 0xCF (.vshr n w) ∧
    queues 0xD0 (.vsfu n w) ∧ queues 0xD8 (.vcvt n w) ∧ queues 0xDA (.vred n w) ∧ queues 0xDB (.vrmax n w) ∧
    queues 0xDC (.vacc n w) ∧ queues 0xDD (.vwpf n w) ∧ queues 0xDE (.vperm n w))

/-- R92, R111, R121: MATRIX_DISPATCH runs the head of the matrix queue, once no VACC issued before it on its tile is queued; an
uncorrectable error of its tile ends the command (R28). R105, R110: an MM adds to its tile, element by element, the products of the
panels that its operands give. R61, R106: an ACC.RAW adds a wide partial to each element; an ACC.EXP stores each element's. R59, R60,
R107, R108: an ACC.WR stores the elements' codes row by row at its pitch, or as a blocked operand, and a block-scaled one the scale
codes too. No byte of the scratchpad but those changes, and the other tile and the registers stay; EXP and WR set the tile's HIGH for
an element that leaves out of range (R50). -/
def Obligations.MatrixDispatchRunsMm : Prop :=
  ∀ (s : State) (n id : Nat) (cmd : Cmd) (q : QInstr) (rest : List QInstr) (e : Sram),
    let c := coreAt s n
    let w := q.word
    let nb := fKB w + 1
    let old := tile c (fT w)
    let x := spOperand q.x
    let y := spOperand q.y
    let z := spOperand q.z
    running s c = true → c.cmd = some id → cmdAt s id = some cmd → c.mq = q :: rest →
    ((∃ v ∈ c.vq, vaccOn (fT w) v = true ∧ v.order < q.order) → exec (.matrixDispatch n e) s = .next s) ∧
    ((∀ v ∈ c.vq, vaccOn (fT w) v = true → q.order ≤ v.order) → e.acc = .uncorrected →
      exec (.matrixDispatch n e) s = .next (accFault s n q)) ∧
    ((∀ v ∈ c.vq, vaccOn (fT w) v = true → q.order ≤ v.order) → e.acc ≠ .uncorrected → NoSpInjection s n → e.sp = .clean →
      (∀ r ∈ spReads q ++ spWrites q, r.1 + r.2 ≤ 0x180000) → (∀ a ∈ offsetsOf q, a % 64 = 0) →
      (opOf w = 0xA0 →
        (cmd.legacy = false → old.mode = 2 → is16 (fFA w) = false ∧ is16 (fFB w) = false) →
        (fSP w = true → ∀ b l, b < nb → l < 128 → metaOk (sparseMeta c.sp (fFB w) (y + b * blockBytes (fFB w) true) l) = true) →
        let pa := panel c.sp (fFA w) x z (fSCA w) false nb
        let pb := panel c.sp (fFB w) y (spOperand q.u) (fSCB w) (fSP w) nb
        ∃ t, exec (.matrixDispatch n e) s = .next t ∧ OnlyCore s t n ∧
          tile (coreAt t n) (fT w) = mmTile cmd.legacy old pa pb ∧
          coreAt t n = { c with mq := rest, acc0 := (coreAt t n).acc0, acc1 := (coreAt t n).acc1 } ∧
          tile (coreAt t n) (!fT w) = tile c (!fT w)) ∧
      (opOf w = 0xA4 → cmd.legacy = false →
        ∃ t, exec (.matrixDispatch n e) s = .next t ∧ OnlyCore s t n ∧
          coreAt t n = { c with mq := rest, acc0 := (coreAt t n).acc0, acc1 := (coreAt t n).acc1 } ∧
          tile (coreAt t n) (!fT w) = tile c (!fT w) ∧
          tile (coreAt t n) (fT w) = { old with elems := (tile (coreAt t n) (fT w)).elems } ∧
          (Rising old.elems → ∀ k, k < 16384 → tget {} (tile (coreAt t n) (fT w)).elems k =
            addWide (tget {} old.elems k) (BitVec.ofNat 128 (leNat (mread c.sp (x + 16 * k) 16))))) ∧
      (opOf w = 0xA9 → cmd.legacy = false →
        ∃ t, exec (.matrixDispatch n e) s = .next t ∧ OnlyCore s t n ∧
          coreAt t n = { c with mq := rest, sp := (coreAt t n).sp, acc0 := (coreAt t n).acc0, acc1 := (coreAt t n).acc1 } ∧
          tile (coreAt t n) (!fT w) = tile c (!fT w) ∧
          tile (coreAt t n) (fT w) = { old with high := old.high || old.elems.any (fun p => elemHigh p.2) } ∧
          (∀ a, ¬ (x ≤ a ∧ a < x + 262144) → mget (coreAt t n).sp a = mget c.sp a) ∧
          (Memory.wf c.sp = true → ∀ k, k < 16384 →
            leNat (mread (coreAt t n).sp (x + 16 * k) 16) = (elemWide (tget {} old.elems k)).toNat)) ∧
      (opOf w = 0xA8 → (fLAY w = 0 → y % 64 = 0 ∧ roundUp (rowBytes w) 64 ≤ y) →
        let lanes := if alongRow w then fNR w + 1 else fNC w + 1
        let groups := (if alongRow w then fNC w + 1 else fNR w + 1) / 32
        let stored (a : Nat) : Prop :=
          (fLAY w = 0 ∧ ∃ i, i ≤ fNR w ∧ x + i * y ≤ a ∧ a < x + i * y + rowBytes w) ∨
          (fLAY w ≠ 0 ∧ x ≤ a ∧ a < x + 2048 * outBits (fFO w)) ∨
          (scaledOut w = true ∧ ∃ g l, g < groups ∧ l < lanes ∧ a = z + 128 * g + l)
        ∃ t, exec (.matrixDispatch n e) s = .next t ∧ OnlyCore s t n ∧
          coreAt t n = { c with mq := rest, sp := (coreAt t n).sp, acc0 := (coreAt t n).acc0, acc1 := (coreAt t n).acc1 } ∧
          tile (coreAt t n) (!fT w) = tile c (!fT w) ∧
          tile (coreAt t n) (fT w) = { old with high := old.high || (!cmd.legacy && wrHigh old w) } ∧
          (∀ a, ¬ stored a → mget (coreAt t n).sp a = mget c.sp a) ∧
          (Memory.wf c.sp = true →
            (fLAY w = 0 → scaledOut w = false → ∀ i, i ≤ fNR w → mread (coreAt t n).sp (x + i * y) (rowBytes w) =
              packCodes (outBits (fFO w)) ((List.range (fNC w + 1)).map (fun j => outCode (fFO w) (outVal cmd.legacy old i j)))) ∧
            (scaledOut w = true → ∀ g l, g < groups → l < lanes → mget (coreAt t n).sp (z + 128 * g + l) =
              BitVec.ofNat 8 (scaleCode (groupScale (fFO w) (groupOf cmd.legacy old (alongRow w)
                (if alongRow w then l else 32 * g) (if alongRow w then 32 * g else l))))))))

/-- R92, R121: VECTOR_DISPATCH runs the head of the vector queue, a VACC once no matrix instruction issued before it on its tile is
queued. R115: a lane-wise instruction gives every lane of v[D] its operation's value; source B is the broadcast of s[VB][31:0] where
BS is 1 (R114). R116, R118: VCVT narrows the lanes of v[A] into its part of v[D] or widens a part of v[A]. R119: VRED and VRMAX
reduce into lane 0 and clear the rest. R120: VACC adds the lanes to two rows of its tile; VWPF rounds 256 wide partials of the
scratchpad. VPERM takes its lanes by index. No other register changes. -/
def Obligations.VectorDispatchIsLanewise : Prop :=
  ∀ (s : State) (n id : Nat) (cmd : Cmd) (q : QInstr) (rest : List QInstr) (e : Sram),
    let c := coreAt s n
    let w := q.word
    let op := opOf w
    running s c = true → c.cmd = some id → cmdAt s id = some cmd → c.vq = q :: rest →
    let a (i : Nat) : Lane := vlane c (fA w) i
    let b (i : Nat) : Lane := if fBS w then q.y.setWidth 32 else vlane c (fB w) i
    let cc (i : Nat) : Lane := vlane c (fC w) i
    (op ≠ 0xDC → op ≠ 0xDD → (op = 0xD8 → subOk 0xD8 (fSub w) = true) →
    ∃ t, exec (.vectorDispatch n e) s = .next t ∧ OnlyCore s t n ∧
      coreAt t n = { c with vq := rest, vregs := (coreAt t n).vregs } ∧
      (∀ r i, r ≠ fD w → i < 256 → vlane (coreAt t n) r i = vlane c r i) ∧
      let bits := narrowBits (fSub w % 64)
      let per := 32 / bits
      let first := 256 / per * (fSub w / 64)
      (op = 0xD8 → fSub w % 64 < 0x10 →
        (∀ j, j < 256 / per → vlane (coreAt t n) (fD w) (first + j) =
          BitVec.ofNat 32 (((List.range per).map (fun k => narrowCode (fSub w % 64) (a (per * j + k)) * 2 ^ (bits * k))).sum)) ∧
        ∀ i, i < 256 → ¬ (first ≤ i ∧ i < first + 256 / per) → vlane (coreAt t n) (fD w) i = vlane c (fD w) i) ∧
      ∀ i, i < 256 →
        let d := vlane (coreAt t n) (fD w) i
        (op = 0xC0 → d = fadd (a i) (b i)) ∧
        (op = 0xC1 → d = fsub (a i) (b i)) ∧
        (op = 0xC2 → d = fmul (a i) (b i)) ∧
        (op = 0xC3 → d = ffma (a i) (b i) (cc i)) ∧
        (op = 0xC4 → d = fmin (a i) (b i)) ∧
        (op = 0xC5 → d = fmax (a i) (b i)) ∧
        (op = 0xC6 → d = if isNan (a i) then 0x7FC00000 else BitVec.ofNat 32 ((a i).toNat % 2 ^ 31)) ∧
        (op = 0xC7 → d = if isNan (a i) then 0x7FC00000 else a i ^^^ 0x80000000) ∧
        (op = 0xC8 → d = if fcmp (fSub w) (a i) (b i) then 0xFFFFFFFF else 0) ∧
        (op = 0xC9 → d = if cc i = 0 then b i else a i) ∧
        (op = 0xCA → d.toNat = ((a i).toNat + (b i).toNat) % 2 ^ 32) ∧
        (op = 0xCB → d = a i &&& b i) ∧
        (op = 0xCC → d = a i ||| b i) ∧
        (op = 0xCD → d = a i ^^^ b i) ∧
        (op = 0xCE → d.toNat = (a i).toNat * 2 ^ (fSub w % 32) % 2 ^ 32) ∧
        (op = 0xCF → d.toNat = (a i).toNat / 2 ^ (fSub w % 32)) ∧
        (op = 0xD0 → d = vsfu (fSub w) (a i)) ∧
        (op = 0xD8 → 0x10 ≤ fSub w % 64 → d = widen (fSub w % 64) ((a (first + i / per)).toNat / 2 ^ (bits * (i % per)) % 2 ^ bits)) ∧
        (op = 0xDA → d = if i = 0 then crossLane fadd 0 (vreg c (fA w)) (fSub w + 1) else 0) ∧
        (op = 0xDB → d = if i = 0 then crossLane fmax 0xFF800000 (vreg c (fA w)) (fSub w + 1) else 0) ∧
        (op = 0xDE → d = a ((b i).toNat % 256))) ∧
    (op = 0xDC →
      ((∃ m ∈ c.mq, fT m.word = bit w 0 ∧ m.order < q.order) → exec (.vectorDispatch n e) s = .next s) ∧
      ((∀ m ∈ c.mq, fT m.word = bit w 0 → q.order ≤ m.order) →
        (e.acc = .uncorrected → exec (.vectorDispatch n e) s = .next (accFault s n q)) ∧
        (e.acc ≠ .uncorrected → (cmd.legacy = true ∨ q.y.toNat % 2 = 1 ∨ 126 < q.y.toNat) →
          exec (.vectorDispatch n e) s = .next (illegal s n q.index w)) ∧
        (e.acc ≠ .uncorrected → cmd.legacy = false → q.y.toNat % 2 = 0 → q.y.toNat ≤ 126 →
          ∃ t, exec (.vectorDispatch n e) s = .next t ∧ OnlyCore s t n ∧
            coreAt t n = { c with vq := rest, acc0 := (coreAt t n).acc0, acc1 := (coreAt t n).acc1 } ∧
            tile (coreAt t n) (!bit w 0) = tile c (!bit w 0) ∧
            let old := tile c (bit w 0)
            let new := tile (coreAt t n) (bit w 0)
            new.anchor = old.anchor ∧ new.mode = old.mode ∧
            (Rising old.elems → ∀ k, tget {} new.elems k =
              if 128 * q.y.toNat ≤ k ∧ k < 128 * q.y.toNat + 256
              then (addTerm old.anchor (tget {} old.elems k) (valOf (a (k - 128 * q.y.toNat)))).1 else tget {} old.elems k)))) ∧
    (op = 0xDD → NoSpInjection s n → e.sp = .clean → spOperand q.x % 64 = 0 → spOperand q.x + 4096 ≤ 0x180000 →
      ∃ t, exec (.vectorDispatch n e) s = .next t ∧ OnlyCore s t n ∧
        coreAt t n = { c with vq := rest, vregs := (coreAt t n).vregs } ∧
        (∀ r i, r ≠ fD w → i < 256 → vlane (coreAt t n) r i = vlane c r i) ∧
        ∀ i, i < 256 → vlane (coreAt t n) (fD w) i = BitVec.ofNat 32 (writeOut fp32
          (wideVal ((q.y.setWidth 10).toInt) (BitVec.ofNat 128 (leNat (mread c.sp (spOperand q.x + 16 * i) 16))))))

/-- R31, R83, R85: DMA_LINE_ISSUE issues the next line of the oldest unfinished descriptor under a free tag that
carries the core's kill epoch. A read line is read coherently; a written line takes its bytes from the scratchpad and
lands in the shadow frame bound to its page (R165). R231, R232: without an entry of its slice's request buffer the line stalls at
issue; a read that misses the slice waits in the controller queue while that has room, else in the buffer. R33, R82: a read tag of
the core's present epoch lands its line in the scratchpad, and no other byte changes; a tag of an earlier kill epoch has no effect but
to be freed; the last tag of a descriptor takes it out of its group. A reply whose transaction still waits in the buffer, or at a
channel in retraining (R243), has not come. -/
def Obligations.DmaLinesAndTags : Prop :=
  (∀ (s : State) (n id : Nat) (cmd : Cmd) (d : DmaDesc) (va spo dpa : Nat) (p : Pte) (e : Sram),
    let c := coreAt s n
    running s c = true → c.cmd = some id → cmdAt s id = some cmd → agentHalted s n = false →
    c.dq.find? (fun x => decide (x.issued < x.total)) = some d → tagFree c d.toHbm cmd.cls = true →
    c.tags.length < 385 → e.sp = .clean → e.entry = .clean → e.slice = .clean → e.tc = false → NoSpInjection s n →
    (d.list = true → dmaConflict c d [(d.lspo + 8 * d.issued, 8)] [] = false) →
    lineAt c d d.issued = .ok va spo → earlierConflict c d spo = false →
    tcLook (colAt s c.colony) c.tc c.colony (stampOf s c.colony) va (if d.toHbm then .write else .read) = .ok dpa p →
    (d.toHbm = false →
      let fa := readAddr s (colAt s c.colony) (some cmd) dpa
      let ch := channelOf fa
      let off := chanOff (lineBase fa)
      ownCheck (colAt s c.colony) (stampOf s c.colony) ch = .pass →
      (creditFor s ch n cmd.cls = none → exec (.dmaLineIssue n e) s = .next s) ∧
      (∀ part, creditFor s ch n cmd.cls = some part → requestWaits s n ch off = false → ncBlocked s ch off false = false →
        checkRead s (sourceAddr s fa) = (s, none) →
        ∃ t g, exec (.dmaLineIssue n e) s = .next t ∧ (coreAt t n).tags = c.tags ++ [g] ∧
          g.write = false ∧ g.epoch = c.epoch ∧ g.desc = d.id ∧ g.spo = spo ∧ g.data = coherentData s fa ∧
          (∀ x ∈ c.tags, x.tag ≠ g.tag) ∧ t.hbm = s.hbm ∧ (coreAt t n).sp = c.sp ∧
          let r : MemReq := { master := n, tag := g.tag, cls := cmd.cls, offset := off, part := part }
          if resident (chanAt s ch) off = true then (chanAt t ch).queue = (chanAt s ch).queue ∧ (chanAt t ch).buf = (chanAt s ch).buf
          else if queueRoom (chanAt s ch) cmd.cls = true then
            (chanAt t ch).queue = (chanAt s ch).queue ++ [r] ∧ (chanAt t ch).buf = (chanAt s ch).buf
          else (chanAt t ch).queue = (chanAt s ch).queue ∧ (chanAt t ch).buf = (chanAt s ch).buf ++ [r])) ∧
    (d.toHbm = true → inRegions cmd va 64 = true → ∀ sh, shadowFor cmd p.dpa = some sh →
      let ch := channelOf (sh.addr dpa)
      let off := chanOff (lineBase (sh.addr dpa))
      ownCheck (colAt s c.colony) (stampOf s c.colony) (channelOf dpa) = .pass → (chanAt s ch).mode ≠ .fenced →
      (creditFor s ch n cmd.cls = none → exec (.dmaLineIssue n e) s = .next s) ∧
      (creditFor s ch n cmd.cls ≠ none → requestWaits s n ch off = false → ncBlocked s ch off true = false →
        ∃ t g, exec (.dmaLineIssue n e) s = .next t ∧ (coreAt t n).tags = c.tags ++ [g] ∧
          g.write = true ∧ g.epoch = c.epoch ∧ g.desc = d.id ∧ (∀ x ∈ c.tags, x.tag ≠ g.tag) ∧ (coreAt t n).sp = c.sp ∧
          (sh.addr dpa < 2 ^ 40 → Memory.wf s.hbm = true →
            mread t.hbm (keyOf (lineBase (sh.addr dpa))) 64 = mread c.sp spo 64)))) ∧
  (∀ (s : State) (n : Nat) (g : DmaTag),
    let c := coreAt s n
    c.tags.find? (fun x => x.tag == g.tag && x.write == g.write) = some g →
    let i : Instr := if g.write then .dmaWriteTagReturn n g.tag else .dmaReadReply n g.tag
    (replyHeld s g.chan n g.tag = true → exec i s = .next s) ∧
    (replyHeld s g.chan n g.tag = false →
    ∃ t, exec i s = .next t ∧ { t with cores := s.cores, cols := s.cols, chans := s.chans } = s ∧
      (∀ m, m ≠ n → coreAt t m = coreAt s m) ∧ t.chans = (dropReq s g.chan n g.tag).chans ∧
      (coreAt t n).tags = c.tags.filter (fun x => x.tag != g.tag) ∧
      ((g.epoch ≠ c.epoch ∨ c.st ≠ .running) → coreAt t n = releaseEpoch { c with tags := (coreAt t n).tags }) ∧
      (g.epoch = c.epoch → c.st = .running →
        (g.write = true → (coreAt t n).sp = c.sp) ∧
        (g.write = false → ∀ x, ¬ (g.spo ≤ x ∧ x < g.spo + g.data.length) → mget (coreAt t n).sp x = mget c.sp x) ∧
        (g.write = false → Memory.wf c.sp = true → mread (coreAt t n).sp g.spo g.data.length = g.data) ∧
        ∀ d, c.dq.find? (fun x => x.id == g.desc) = some d →
          if d.issued = d.total ∧ d.out ≤ 1 then
            (coreAt t n).dq = c.dq.filter (fun x => x.id != g.desc) ∧ group (coreAt t n) d.group = group c d.group - 1
          else group (coreAt t n) d.group = group c d.group)))

/-- R87: the first signal from one core to another reaches its semaphore once the sender's earlier DMA writes have
returned; a sum above 2^32 - 1 ends the sender's command (SYNC_FAULT) instead; a signal to a core that no longer runs the
command is dropped. -/
def Obligations.SignalsReachTheirSemaphore : Prop :=
  ∀ (s : State) (src dst k : Nat) (m : SignalMsg),
    let c := coreAt s dst
    findIdx? (fun x => x.src == src && x.dst == dst) s.signals = some (k, m) →
    (writesReturned (coreAt s src) m.after = false → exec (.signalDelivery src dst) s = .next s) ∧
    (writesReturned (coreAt s src) m.after = true →
      let s1 := { s with signals := s.signals.eraseIdx k }
      (c.cmd = some m.cmd → c.ended = false → c.st = .running → sem c m.sem + m.value < 2 ^ 32 →
        ∃ t, exec (.signalDelivery src dst) s = .next t ∧ OnlyCore s1 t dst ∧
          coreAt t dst = { c with sems := (coreAt t dst).sems } ∧
          sem (coreAt t dst) m.sem = sem c m.sem + m.value ∧ ∀ j, j ≠ m.sem → sem (coreAt t dst) j = sem c j) ∧
      (c.cmd = some m.cmd → c.ended = false → c.st = .running → 2 ^ 32 ≤ sem c m.sem + m.value →
        exec (.signalDelivery src dst) s =
          .next (commandFault s1 m.cmd 0x07 0x0B (.core src) (coreAt s src).rank m.index 4 m.word false)) ∧
      (c.cmd ≠ some m.cmd ∨ c.ended = true ∨ c.st ≠ .running → exec (.signalDelivery src dst) s = .next s1))

/-- R227: where a device-physical address lies: its channel by the fold of O[13:10], O[17:14] and O[21:18], its byte offset
there from O[34:14] and O[9:0]; an aligned page of any size places as many granules on each of the 16 channels of its set.
The channel and the offset name the address again. -/
def Obligations.AddressMapSpreadsAndInverts : Prop :=
  (∀ a, a < 2 ^ 40 → a % 2 ^ 35 < 0x760000000 →
    channelOf a = 16 * (a / 2 ^ 35) + Nat.xor (Nat.xor (a / 2 ^ 10 % 16) (a / 2 ^ 14 % 16)) (a / 2 ^ 18 % 16) ∧
    chanOff a = a % 2 ^ 35 / 2 ^ 14 * 1024 + a % 1024 ∧ a % 2 ^ 35 / 2 ^ 14 ≤ 1933311 ∧ chanOff a / 64 % 16 = a / 64 % 16 ∧
    frameAddr (channelOf a) (chanOff a) = a) ∧
  (∀ ch off, ch < 512 → off < 2 ^ 31 → channelOf (frameAddr ch off) = ch ∧ chanOff (frameAddr ch off) = off) ∧
  (∀ size ∈ [2 ^ 16, 2 ^ 21, 2 ^ 30], ∀ a, a % size = 0 → ∀ k, k < 16 →
    ((List.range (size / 1024)).filter (fun g => channelOf (a + 1024 * g) == 16 * (a / 2 ^ 35) + k)).length = size / 2 ^ 14)

/-- R272: a GETS or GETM of an UNCACHED line is granted with its home's data, exclusive or modified (of GETM without data, only
the ownership); NCR and NCW are served at the slice; a GETS joins the sharers; a GETM of a SHARED line invalidates them, of an OWNED
line is forwarded to its owner; one that meets a transient state is NACKed (R273). R231: without an entry of the slice's request
buffer a request waits at its agent. -/
def Obligations.LineRequests : Prop :=
  (∀ (s : State) (agent ch off : Nat) (data : List Byte) (e : Sram),
    domainOpen s agent ch = true → heldLine s agent ch off = none → ReachesHome s agent ch off e →
    dirFind (chanAt s ch) off = none → ch < 512 → lineWf off = true →
    let grants (i : Instr) (own : Bool) (m : CacheMode) : Prop :=
      isCaching agent = true → lineOpen s agent ch off own = true → dirRoom (chanAt s ch) off = true →
      ∃ t d, exec i s = .next t ∧ dirFind (chanAt t ch) off = some d ∧ d.st = .owned ∧ d.owner = agent ∧
        cacheFind (cacheOf t agent) ch off = some ⟨ch, off, m, homeData s ch off⟩ ∧ (RoomFor s agent off → t.hbm = s.hbm)
    grants (.gets agent ch off e) false .exclusive ∧ grants (.getm agent ch off false e) true .modified ∧
    (isCaching agent = true → lineOpen s agent ch off true = true → dirRoom (chanAt s ch) off = true →
      ∃ t d l, exec (.getm agent ch off true e) s = .next t ∧ dirFind (chanAt t ch) off = some d ∧ d.st = .owned ∧ d.owner = agent ∧
        cacheFind (cacheOf t agent) ch off = some ⟨ch, off, .modified, l⟩ ∧ l.length = 64 ∧ (RoomFor s agent off → t.hbm = s.hbm)) ∧
    (lineOpen s agent ch off false = true →
      (∃ t, exec (.ncr agent ch off e) s = .next t ∧ (chanAt t ch).dir = (chanAt s ch).dir ∧ t.hbm = s.hbm ∧ t.cores = s.cores) ∧
      (data.length = 64 → ∃ t, exec (.ncw agent ch off data) s = .next t ∧ (chanAt t ch).dir = (chanAt s ch).dir ∧
        t.cores = s.cores ∧ (Memory.wf s.hbm = true → mread t.hbm (hbmKey ch off) 64 = data) ∧
        ∀ a, ¬ (hbmKey ch off ≤ a ∧ a < hbmKey ch off + 64) → mget t.hbm a = mget s.hbm a))) ∧
  (∀ (s : State) (agent ch off : Nat) (d : DirEntry) (e : Sram),
    domainOpen s agent ch = true → isCaching agent = true → heldLine s agent ch off = none → ReachesHome s agent ch off e →
    dirFind (chanAt s ch) off = some d → (∀ x ∈ (chanAt s ch).dir, x.offset = off → x = d) →
    (d.st = .shared → lineOpen s agent ch off false = true →
      ∃ t f, exec (.gets agent ch off e) s = .next t ∧ dirFind (chanAt t ch) off = some f ∧ f.st = .shared ∧
        agent ∈ f.sharers ∧ (∀ a ∈ d.sharers, a ∈ f.sharers) ∧
        cacheFind (cacheOf t agent) ch off = some ⟨ch, off, .shared, homeData s ch off⟩ ∧ (RoomFor s agent off → t.hbm = s.hbm)) ∧
    (lineOpen s agent ch off true = true →
      (d.st = .shared → (∃ a ∈ sharerAgents s d, a ≠ agent) →
        ∃ t f, exec (.getm agent ch off false e) s = .next t ∧ dirFind (chanAt t ch) off = some f ∧ f.st = .invalidating ∧
          f.pendAgent = agent ∧ f.acks = (sharerAgents s d).filter (fun a => a != agent) ∧ t.cores = s.cores ∧ t.hbm = s.hbm) ∧
      (d.st = .owned →
        ∃ t f, exec (.getm agent ch off false e) s = .next t ∧ dirFind (chanAt t ch) off = some f ∧ f.st = .forwarding ∧
          f.pendAgent = agent ∧ f.pendKind = .getm ∧ f.acks = [d.owner] ∧ t.cores = s.cores ∧ t.hbm = s.hbm) ∧
      (d.st.transient = true →
        ∃ t, exec (.getm agent ch off false e) s = .next t ∧ (chanAt t ch).dir = (chanAt s ch).dir ∧
          (chanAt t ch).nacks = ((chanAt s ch).nacks + 1) % 2 ^ 64 ∧
          (∃ m ∈ (chanAt t ch).nacked, m.agent = agent ∧ m.offset = off ∧ m.kind = .getm) ∧ t.cores = s.cores ∧ t.hbm = s.hbm))) ∧
  (∀ (s : State) (agent ch off : Nat) (whole : Bool) (data : List Byte) (e : Sram),
    creditFor s ch agent (agentClass s agent) = none →
    exec (.gets agent ch off e) s = .next s ∧ exec (.getm agent ch off whole e) s = .next s ∧
    exec (.ncr agent ch off e) s = .next s ∧ exec (.ncw agent ch off data) s = .next s)

/-- R272: a forwarded request leaves the owner's cache as its kind says and its answer goes home; an invalidated line
leaves the cache; neither changes a byte of HBM. -/
def Obligations.CachesAnswerTheHome : Prop :=
  ∀ (s : State) (agent ch off : Nat) (e : DirEntry) (l : CacheLine),
    domainOpen s agent ch = true → isCaching agent = true → dirFind (chanAt s ch) off = some e → agent ∈ e.acks →
    heldLine s agent ch off = some l →
    (e.st = .forwarding →
      ∃ t f, exec (.forwardedRequest agent ch off) s = .next t ∧ t.hbm = s.hbm ∧
        dirFind (chanAt t ch) off = some f ∧ f.st = .forwarding ∧
        f.answer = some (if l.mode = .modified ∧ e.pendKind ≠ .ncw ∧ e.pendKind ≠ .getw then l.data else []) ∧
        (e.pendKind = .gets → heldLine t agent ch off = some { l with mode := .shared }) ∧
        (e.pendKind = .ncr → heldLine t agent ch off = some l) ∧
        (e.pendKind = .getm ∨ e.pendKind = .getw ∨ e.pendKind = .ncw → heldLine t agent ch off = none)) ∧
    ((e.st = .invalidating ∨ e.st = .recallingShared ∨ e.st = .recallingOwned) →
      ∃ t f, exec (.invalidation agent ch off) s = .next t ∧ t.hbm = s.hbm ∧ heldLine t agent ch off = none ∧
        dirFind (chanAt t ch) off = some f ∧ f.st = e.st ∧ f.acks = e.acks ∧
        (e.st = .recallingOwned → l.mode = .modified → f.pendData = l.data))

/-- R272: the home takes the last acknowledgement of an INVALIDATING line and grants M; of a recall, and frees the entry;
the owner's response to a forwarded GETS makes the line SHARED. -/
def Obligations.HomeEndsTransientStates : Prop :=
  ∀ (s : State) (agent ch off : Nat) (e : DirEntry), serving s = true → (chanAt s ch).mode ≠ .fenced →
    dirFind (chanAt s ch) off = some e → (∀ m ∈ (chanAt s ch).nacked, m.reserved = false) →
    (heldLine s agent ch off = none → agent ∈ e.acks → (∀ a ∈ e.acks, a = agent) → e.st = .invalidating →
      e.pendKind = .getm → isCaching e.pendAgent = true → agentFenced s e.pendAgent = false → homeBad s ch off = false →
      ∃ t f, exec (.invalidationAck agent ch off) s = .next t ∧ dirFind (chanAt t ch) off = some f ∧ f.st = .owned ∧
        f.owner = e.pendAgent ∧ heldLine t e.pendAgent ch off = some ⟨ch, off, .modified, homeData s ch off⟩) ∧
    (heldLine s agent ch off = none → agent ∈ e.acks → (∀ a ∈ e.acks, a = agent) → e.st = .recallingShared →
      e.pendData = [] →
      ∃ t, exec (.invalidationAck agent ch off) s = .next t ∧ dirFind (chanAt t ch) off = none ∧ t.hbm = s.hbm) ∧
    (e.st = .forwarding → e.owner = agent → e.answer = some [] → e.pendKind = .gets → isCaching e.pendAgent = true →
      agentFenced s e.pendAgent = false → homeBad s ch off = false →
      ∃ t f, exec (.ownerResponse agent ch off) s = .next t ∧ dirFind (chanAt t ch) off = some f ∧ f.st = .shared ∧
        e.pendAgent ∈ f.sharers ∧
        heldLine t e.pendAgent ch off = some ⟨ch, off, .shared, homeData s ch off⟩ ∧ (RoomFor s e.pendAgent off → t.hbm = s.hbm))

/-- R272: PUTM writes a modified line back to its home, whose entry is freed; DROP gives it up and leaves HBM as it is;
a NACKed request that is sent again to an UNCACHED line is served (R273). -/
def Obligations.LinesLeaveTheCaches : Prop :=
  ∀ (s : State) (agent ch off : Nat) (l : CacheLine), domainOpen s agent ch = true → ch < 512 → lineWf off = true →
    (∀ e, isCaching agent = true → heldLine s agent ch off = some l → l.mode = .modified →
      dirFind (chanAt s ch) off = some e → e.st = .owned → e.owner = agent → l.data.length = 64 →
      ∃ t, exec (.putm agent ch off) s = .next t ∧ heldLine t agent ch off = none ∧ dirFind (chanAt t ch) off = none ∧
        (Memory.wf s.hbm = true → mread t.hbm (hbmKey ch off) 64 = l.data) ∧
        ∀ a, ¬ (hbmKey ch off ≤ a ∧ a < hbmKey ch off + 64) → mget t.hbm a = mget s.hbm a) ∧
    (∀ e, agent < 640 → heldLine s agent ch off = some l → l.mode = .modified →
      dirFind (chanAt s ch) off = some e → e.st = .owned → e.owner = agent →
      ∃ t, exec (.drop agent ch off) s = .next t ∧ heldLine t agent ch off = none ∧ dirFind (chanAt t ch) off = none ∧
        t.hbm = s.hbm) ∧
    (∀ m, (chanAt s ch).nacked.find? (fun x => x.agent == agent && x.offset == off) = some m →
      m.reserved = false → m.kind = .getm → isCaching agent = true → dirFind (chanAt s ch) off = none →
      dirRoom (chanAt s ch) off = true → mayIssue s agent (agentClass s agent) ch off = true →
      checkRead s (sourceAddr s (frameAddr ch off)) = (s, none) → NoneReserved s agent ch off →
      ∃ t e, exec (.nackRetry agent ch off) s = .next t ∧ dirFind (chanAt t ch) off = some e ∧ e.st = .owned ∧
        e.owner = agent ∧ heldLine t agent ch off = some ⟨ch, off, .modified, homeData s ch off⟩ ∧
        (∀ x ∈ (chanAt t ch).nacked, ¬ (x.agent = agent ∧ x.offset = off)))

/-- R130 to R135, R158: a function's writes to a ring page that it owns. A doorbell moves the tail only forwards within
the ring, and sets DBERR otherwise; a ring is enabled with its indexes at 0; RESUME restarts a STOPPED ring; a sync
counter takes the value written and every other counter stays. An urgent ring joins the order in which urgent rings are
fetched (R136, R137) where it stands in it not yet. -/
def Obligations.RingPageWrites : Prop :=
  ∀ (s : State) (fn : Fn) (page ring : Nat) (value : Word), ownsPage s fn page ring = true →
    let r := sqAt s page ring
    let q := cqAt s page ring
    let n := 2 ^ r.log2n
    let tail := value.toNat % 2 ^ 16
    let d (x : Nat) : Nat := (x + n - r.head) % n
    (r.head < n → r.tail < n →
      (tail < n → r.st ≠ .disabled → d r.tail ≤ d tail →
        exec (.sqDoorbell fn page ring value) s = .next (noticeRing (setSq s page ring { r with tail := tail }) page ring)) ∧
      (n ≤ tail ∨ r.st = .disabled ∨ d tail < d r.tail →
        exec (.sqDoorbell fn page ring value) s = .next (setSq s page ring { r with dberr := true }))) ∧
    (let size := value.toNat % 32
     let cq := value.toNat / 2 ^ 8 % 16
     let urgent := if fn = .pf then value.getLsbD 6 else r.urgent
     (r.enable = false → value.getLsbD 5 = true → 6 ≤ size → size ≤ 16 → (cqAt s page cq).enable = true →
       6 ≤ (cqAt s page cq).log2n → (cqAt s page cq).log2n ≤ 16 →
       exec (.sqEnable fn page ring value) s = .next (setSq s page ring { r with
         urgent := urgent, errStop := value.getLsbD 7, log2n := size, cq := cq
         enable := true, st := .running, head := 0, tail := 0 })) ∧
     (r.enable = true → value.getLsbD 5 = false →
       exec (.sqEnable fn page ring value) s = .next (setSq s page ring { r with
         urgent := urgent, errStop := value.getLsbD 7, enable := false, st := .disabled })) ∧
     (q.enable = false → value.getLsbD 5 = true → 6 ≤ size → size ≤ 16 → value.toNat / 2 ^ 6 % 64 ≤ maxVec fn →
       exec (.cqEnable fn page ring value) s = .next (setCq s page ring { q with
         vec := value.toNat / 2 ^ 6 % 64, irqAll := value.getLsbD 12, log2n := size
         enable := true, head := 0, tail := 0, phase := true }))) ∧
    (value.getLsbD 0 = true → r.st = .stopped →
      exec (.resume fn page ring value) s = .next (noticeRing (setSq s page ring { r with st := .running }) page ring)) ∧
    (exec (.cqHeadWrite fn page ring value) s = .next (setCq s page ring { q with head := value.toNat % 2 ^ 16 })) ∧
    (ring = 0 → ∀ k, k < 256 → (∀ e ∈ s.cmds, e.2.op ≠ 0x03) →
      exec (.syncCounterAccess fn page k value) s = .next (setSync s page k value))

/-- R134, R137, R138, R141, R157, R160, R191: a fetchable ring whose turn it is gives its next packet, whose opcode must exist;
the ring's head advances, the packet's 64 bytes count as read from the host, and the command stands in the tracker under the
next fetch number with its output regions. A COMMIT or ABANDON takes the oldest command that it can have from every later one
(R159). A slot that could not be read stops the ring. -/
def Obligations.PacketFetchFillsTheTracker : Prop :=
  ∀ (s : State) (page ring : Nat) (raw : List Byte) (ind : Option (List Byte)),
    let r := sqAt s page ring
    serving s = true → page ≤ 64 → ring < 16 → s.boot.removed = false → fetchTurn s page ring = true →
    (fetchable s page ring r [] = true →
      ∃ t, exec (.packetFetch page ring none ind) s = .next t ∧ sqAt t page ring = { r with st := .stopped, fetcherr := true } ∧
        t.cmds = s.cmds) ∧
    (raw.length = 64 → fetchable s page ring r raw = true →
      let c : Cmd := { page := page, ring := ring, pkt := raw, colony := actsFor page raw, urgent := r.urgent }
      let taken := targetAtFetch s s.nextCmd { c with regions := fetchRegions c }
      (validate c true = none → indLen c = 0 → c.defer = false → (colAt s c.colony).sealSess = none →
        wrongColony { c with regions := fetchRegions c } taken = false →
        ∃ t, exec (.packetFetch page ring (some raw) ind) s = .next t ∧
          sqAt t page ring = { r with head := (r.head + 1) % 2 ^ r.log2n } ∧ t.nextCmd = s.nextCmd + 1 ∧
          cmdAt t s.nextCmd = some { c with regions := fetchRegions c } ∧
          (acctAt t c.colony).hostIn = ((acctAt s c.colony).hostIn + 64) % 2 ^ 64 ∧
          (∀ h x, c.op ≠ 0x71 → taken = some (h, x) → cmdAt s h = some x →
            cmdAt t h = some { x with takenBy := some s.nextCmd } ∧ ∀ j, j ≠ s.nextCmd → j ≠ h → cmdAt t j = cmdAt s j) ∧
          (taken = none ∨ c.op = 0x71 → ∀ j, j ≠ s.nextCmd → cmdAt t j = cmdAt s j) ∧ t.cores = s.cores ∧ t.hbm = s.hbm) ∧
      (indLen c = 0 → opcodes.contains c.op = false → (∀ e, e < 16 → (engineAt s e).cmd ≠ some s.nextCmd) →
        ∃ t k, exec (.packetFetch page ring (some raw) ind) s = .next t ∧ t.nextCmd = s.nextCmd + 1 ∧
          cmdAt t s.nextCmd = some k ∧ k.phase = .done ∧ k.status = 0x0A ∧ k.detail = 0 ∧ t.cores = s.cores ∧ t.hbm = s.hbm))

/-- R143, R157, R158: NOP completes; FENCE completes once every command in its scope has its record, and waits until
then; SIGNAL writes or adds to its counter and gives the new value; WAIT completes when its condition holds, and ends
LIMIT_EXCEEDED (0x0C) at its timeout. -/
def Obligations.QueueControlCommands : Prop :=
  ∀ (s : State) (id : Nat) (c : Cmd), cmdAt s id = some c → Alone s id c →
    let n := c.byte 16 2
    let x := c.byte 24 8
    let v := syncAt s c.page n
    let met : Bool := if (c.byte 18 1).testBit 0 then decide (v.toNat = x) else decide (v.toNat ≥ x)
    (canStart s id c = true →
      (c.op = 0x00 → ∃ t, exec (.nopCommand id) s = .next t ∧ Ends s t id 0 0 0) ∧
      (c.op = 0x01 → (∀ e ∈ s.cmds, inScope id c e = true → e.2.recorded = true) →
        ∃ t, exec (.fence id) s = .next t ∧ Ends s t id 0 0 0) ∧
      (c.op = 0x01 → (∃ e ∈ s.cmds, inScope id c e = true ∧ e.2.recorded = false) →
        ∃ t, exec (.fence id) s = .next t ∧ cmdAt t id = some { c with phase := .started, attempts := max 1 c.attempts }) ∧
      (c.op = 0x02 → c.byte 32 8 = 0 → (∀ e ∈ s.cmds, earlierOnRing id c e = true → e.2.recorded = true) →
        (∀ e ∈ s.cmds, e.2.op ≠ 0x03) →
        let w : Word := if (c.byte 18 1).testBit 0 then BitVec.ofNat 64 x else BitVec.ofNat 64 (v.toNat + x)
        ∃ t, exec (.signal id) s = .next t ∧ syncAt t c.page n = w ∧ Ends s t id 0 0 w.toNat) ∧
      (c.op = 0x03 → met = true → ∃ t, exec (.waitCommand id) s = .next t ∧ Ends s t id 0 0 v.toNat) ∧
      (c.op = 0x03 → met = false →
        ∃ t, exec (.waitCommand id) s = .next t ∧ cmdAt t id = some { c with phase := .started, attempts := max 1 c.attempts })) ∧
    (c.op = 0x03 → c.phase = .started → c.byte 20 4 ≠ 0 → serving s = true →
      ∃ t, exec (.waitTimeout id) s = .next t ∧ Ends s t id 0x0C 0 0)

/-- R130, R145, R159, R160: COMMIT sends a held LAUNCH's outputs to their commit and waits for it; ABANDON discards them and
completes, and a target that holds nothing more leaves the tracker; without a target both end NOT_PERMITTED, and with one of
another colony than their own BAD_PACKET (0x0A). -/
def Obligations.CommitAndAbandon : Prop :=
  ∀ (s : State) (id h : Nat) (c x : Cmd), cmdAt s id = some c → Alone s id c → canStart s id c = true →
    (c.op = 0x11 → targetOf s id c commitRow = some (h, x) → h ≠ id → cmdAt s h = some x → x.phase = .held →
      x.colony = c.colony →
      ∃ t k y, exec (.commit id) s = .next t ∧ cmdAt t id = some k ∧ k.phase = .started ∧ k.target = some h ∧
        cmdAt t h = some y ∧ y = { x with phase := .ended, claimedBy := some id } ∧ t.hbm = s.hbm) ∧
    (c.op = 0x12 → targetOf s id c abandonRow = some (h, x) → h ≠ id → cmdAt s h = some x → x.phase = .held →
      x.colony = c.colony → x.status = 0 →
      let given := x.returning ++ (x.shadows.map Shadow.run ++ x.reserve).map (fun f => ⟨f, x.attempts, none⟩)
      ∃ t k, exec (.abandon id) s = .next t ∧ cmdAt t id = some k ∧ k.phase = .done ∧ k.status = 0 ∧ t.hbm = s.hbm ∧
        (x.recorded = true → given = [] → cmdAt t h = none) ∧
        (x.recorded = false ∨ given ≠ [] → ∃ y, cmdAt t h = some y ∧ y.shadows = [] ∧ y.reserve = [] ∧ y.returning = given ∧
          y.phase = (if x.recorded then .written else .done))) ∧
    (∀ row, (row = commitRow ∧ c.op = 0x11) ∨ (row = abandonRow ∧ c.op = 0x12) → targetOf s id c row = some (h, x) →
      x.colony ≠ c.colony →
      ∃ t, (c.op = 0x11 → exec (.commit id) s = .next t) ∧ (c.op = 0x12 → exec (.abandon id) s = .next t) ∧ Ends s t id 0x0A 3 0) ∧
    (c.op = 0x11 → targetOf s id c commitRow = none → ∃ t, exec (.commit id) s = .next t ∧ Ends s t id 0x0B 0 0) ∧
    (c.op = 0x12 → targetOf s id c abandonRow = none → ∃ t, exec (.abandon id) s = .next t ∧ Ends s t id 0x0B 0 0)

/-- R153, R154: a due record is written at the completion ring's tail as 32 bytes under the page owner's requester ID; the
tail and CSEQ advance, the phase bit turns at the ring's end, and the command leaves the tracker once it holds nothing. That a
deferred LAUNCH that failed stays until its COMMIT or ABANDON is the model's reading of R159 and R160 (log entry 93). -/
def Obligations.CompletionRecordsAreWritten : Prop :=
  ∀ (s : State) (id : Nat) (c : Cmd), cmdAt s id = some c → serving s = true → c.due = true →
    let sq := sqAt s c.page c.ring
    let q := cqAt s c.page sq.cq
    let n := 2 ^ q.log2n
    recordBehind s id c sq.cq = false → q.enable = true → (q.tail + 1) % n ≠ q.head →
    ∃ t rest, exec (.completionRecordWrite id) s = .next t ∧
      t.out = s.out ++ (Out.hostWrite (pageOwner s c.page) (q.base * 4096 + 32 * q.tail)
        (recordBytes c sq.head q.phase (tget 1 s.hub.cseq c.page)) :: rest) ∧
      cqAt t c.page sq.cq = { q with tail := (q.tail + 1) % n, phase := if q.tail + 1 = n then !q.phase else q.phase } ∧
      tget 1 t.hub.cseq c.page = (tget 1 s.hub.cseq c.page + 1) % 2 ^ 32 ∧
      (acctAt t c.colony).records = ((acctAt s c.colony).records + 1) % 2 ^ 64 ∧
      (c.phase = .done → c.unsettled = false → c.returning = [] → cmdAt t id = none) ∧
      (c.phase = .done → c.unsettled = true → ∃ k, cmdAt t id = some k ∧ k.recorded = true ∧ k.status = c.status) ∧
      (∀ j, j ≠ id → cmdAt t j = cmdAt s j) ∧ t.hbm = s.hbm ∧ t.cores = s.cores

/-- R95 to R97, R164, R165: a LAUNCH whose image is legal waits for cores with its reserve taken and a core count n that is
the header's; R69, R89: its attempt starts the lowest free cores of the colony together, each at ENTRY with its rank, its
registers and queues cleared. -/
def Obligations.LaunchStartsItsCores : Prop :=
  ∀ (s : State) (id n : Nat) (c : Cmd), cmdAt s id = some c → c.op = 0x10 → jobAborted s c = false →
    (∀ (h : List Byte) (fs : List Frames) (col : Colony),
      canStart s id c = true → (c.nonPreempt = true → (runCtlAt s c.colony).npAllow = true) → conflicted s id c = false →
      vaRead s c.colony c.imageVa 256 .image = .ok h → headerStatus h c.legacy = none →
      (∀ r ∈ c.regions, inDiag (colAt s c.colony) r = false) →
      chooseN (keepHeader c h) (countCores s (keepHeader c h)) = some n →
      reserveOf (colAt s c.colony) (needOf (touchedPages (colAt s c.colony) c.regions)) = .taken fs col →
      ∃ t k, exec (.launch id) s = .next t ∧ cmdAt t id = some k ∧ k.phase = .ready ∧ k.n = n ∧ k.reserve = fs ∧
        k.codeLen = bytesAt h 8 2 ∧ k.entry = bytesAt h 0xA 2 ∧
        bytesAt h 0xC 2 ≤ n ∧ n ≤ bytesAt h 0xE 2 ∧ n % bytesAt h 0x10 2 = 0 ∧ n ≤ countCores s c ∧
        (c.coreLimit ≠ 0 → n ≤ c.coreLimit) ∧
        (colAt t c.colony).pool = col.pool ∧ t.cores = s.cores ∧ t.hbm = s.hbm) ∧
    (∀ (code : List Byte), serving s = true → c.phase = .ready → (colAt s c.colony).st = .active →
      coresPromised s id c = false → chooseN c (countCores s c) = some n → n ≤ (freeFor s c.colony id).length →
      (freeFor s c.colony id).Nodup →
      vaRead s c.colony (c.imageVa + 256) (8 * c.codeLen) .image = .ok code → leNat (sha384 code) = c.image →
      let free := freeFor s c.colony id
      ∃ t k, exec (.attemptStart id) s = .next t ∧ cmdAt t id = some k ∧ k.phase = .running ∧ k.n = n ∧
        k.attempts = c.attempts + 1 ∧ k.startTick = s.ticks ∧ k.cores = free.take n ∧
        (∀ i m, (free.take n)[i]? = some m →
          (coreAt t m).st = .running ∧ (coreAt t m).cmd = some id ∧ (coreAt t m).rank = i ∧ (coreAt t m).pc = c.entry ∧
          (coreAt t m).im = codeWords c.codeLen code ∧ (∀ r, sreg (coreAt t m) r = 0) ∧ (∀ j, sem (coreAt t m) j = 0) ∧
          (∀ r i, vlane (coreAt t m) r i = 0) ∧ (∀ r, r < 8 → (pred (coreAt t m) r = true ↔ r = 0)) ∧
          (coreAt t m).acc0 = {} ∧ (coreAt t m).acc1 = {} ∧ (∀ g, group (coreAt t m) g = 0) ∧
          (coreAt t m).mq = [] ∧ (coreAt t m).vq = [] ∧ (coreAt t m).sp = (coreAt s m).sp) ∧
        (∀ m, m ∉ free.take n → coreAt t m = { coreAt s m with heldFor := (coreAt t m).heldFor }) ∧ t.hbm = s.hbm) ∧
    (∀ (code : List Byte), serving s = true → c.phase = .ready → (colAt s c.colony).st = .active →
      coresPromised s id c = false → chooseN c (countCores s c) = some n → n ≤ (freeFor s c.colony id).length →
      vaRead s c.colony (c.imageVa + 256) (8 * c.codeLen) .image = .ok code → leNat (sha384 code) ≠ c.image →
      c.job = 0 → Alone s id c →
      ∃ t k, exec (.attemptStart id) s = .next t ∧ cmdAt t id = some k ∧ k.phase = .done ∧ k.status = 0x05 ∧
        t.cores = s.cores ∧ t.hbm = s.hbm)

/-- R34, R51, R164, R190: a core that has ended and whose write tags are back is BOUND again and its tiles' flags join the
command's; once every core is, the attempt is over: a deferred LAUNCH holds its outputs, any other goes to its commit, and
its core time is charged to the colony. -/
def Obligations.AttemptsEnd : Prop :=
  ∀ (s : State) (id : Nat) (c : Cmd), cmdAt s id = some c →
    (∀ n, (coreAt s n).cmd = some id → s.flt.fatal = false → (coreAt s n).st = .running → (coreAt s n).ended = true →
      (∀ g ∈ (coreAt s n).tags, g.write = false) → c.legacy = false →
      let k := coreAt s n
      ∃ t d, exec (.coreReturnBound n) s = .next t ∧ (coreAt t n).st = .bound ∧ (coreAt t n).cmd = none ∧
        cmdAt t id = some d ∧ d.low = (c.low || k.lowSpill || k.acc0.low || k.acc1.low) ∧
        d.high = (c.high || k.highSpill || k.acc0.high || k.acc1.high) ∧
        d.attemptNs = c.attemptNs + (s.ticks - c.startTick) * 32 / 5 ∧
        (∀ m, m ≠ n → coreAt t m = coreAt s m) ∧ t.hbm = s.hbm) ∧
    (serving s = true → c.op = 0x10 → c.phase = .running → runningCores s id c = [] → c.claimedBy = none →
      ∃ t d, exec (.attemptEnd id) s = .next t ∧ cmdAt t id = some d ∧ d.phase = (if c.defer then .held else .ended) ∧
        d.held = (c.held || c.defer) ∧ d.coreNs = c.coreNs + c.attemptNs ∧
        (acctAt t c.colony).coreNs = ((acctAt s c.colony).coreNs + c.attemptNs) % 2 ^ 64 ∧ t.cores = s.cores ∧ t.hbm = s.hbm)

/-- R170, R173, R176, R191: with every line of its pages written a command goes straight to its publish; else each line not
written is copied from its committed frame into the shadow frame, read and written once each for the colony's counters. The publish
exchanges each page's frame for its shadow frame, each line staying on its channel (log entry 94), and the command is complete; the
old frames return to the colony's pool once nothing waits for them, and the command then leaves the tracker. -/
def Obligations.CommitsPublishShadowFrames : Prop :=
  ∀ (s : State) (id : Nat) (c : Cmd), cmdAt s id = some c → serving s = true →
    (∀ report tagOk, c.phase = .ended → (∀ sh ∈ c.shadows, unwritten sh = []) →
      ∃ t, exec (.commitMergeCopy id report tagOk) s = .next t ∧ t = setCmd s id { c with phase := .merged }) ∧
    (∀ report, c.phase = .ended → mergeProblem s c = none → report ≠ .uncorrected → (∃ sh ∈ c.shadows, unwritten sh ≠ []) →
      (∀ sh ∈ c.shadows, ∀ i ∈ unwritten sh, sh.addr (sh.dpa + 64 * i) < 2 ^ 40 ∧ sh.addr (sh.dpa + 64 * i) % 64 = 0) →
      ∃ t k, exec (.commitMergeCopy id report true) s = .next t ∧ cmdAt t id = some k ∧ k.phase = .merged ∧ t.cores = s.cores ∧
        (acctAt t c.colony).hbmRd = ((acctAt s c.colony).hbmRd + mergeCount c) % 2 ^ 64 ∧
        (acctAt t c.colony).hbmWr = ((acctAt s c.colony).hbmWr + mergeCount c) % 2 ^ 64 ∧
        (∀ a, (∀ sh ∈ c.shadows, ∀ i ∈ unwritten sh,
            ¬ (keyOf (sh.addr (sh.dpa + 64 * i)) ≤ a ∧ a < keyOf (sh.addr (sh.dpa + 64 * i)) + 64)) → mget t.hbm a = mget s.hbm a) ∧
        (∀ sh i, c.shadows = [sh] → unwritten sh = [i] → Memory.wf s.hbm = true →
          mread t.hbm (keyOf (sh.addr (sh.dpa + 64 * i))) 64 = padTo 64 (coherentData s (frameOf (colAt s c.colony) (sh.dpa + 64 * i))))) ∧
    (∀ sh, c.phase = .merged → c.held = false → ringSettled s id c = true → c.op ≠ 0x02 → c.op ≠ 0x34 → Alone s id c →
      c.shadows = [sh] → sh.size % 65536 = 0 → sh.dpa % 65536 = 0 → sh.frame % 65536 = 0 →
      (∀ e ∈ s.chans, e.2.dir = []) → allLines s = [] →
      ∃ t k, exec (.publish id) s = .next t ∧ cmdAt t id = some k ∧ k.phase = .done ∧ k.status = 0 ∧ k.shadows = [] ∧
        (∀ x, x < sh.size → frameOf (colAt t c.colony) (sh.dpa + x) = sh.addr (sh.dpa + x) ∧
          sh.addr (sh.dpa + x) / 2 ^ 14 = (sh.frame + x) / 2 ^ 14 ∧ channelOf (sh.addr (sh.dpa + x)) % 16 = channelOf (sh.dpa + x) % 16) ∧
        (∀ a, a < sh.dpa ∨ sh.dpa + sh.size ≤ a → frameOf (colAt t c.colony) a = frameOf (colAt s c.colony) a) ∧
        t.hbm = s.hbm) ∧
    (c.phase = .written → c.returning ≠ [] → c.unsettled = false → (∀ g ∈ c.returning, landed s id c.colony g = true) →
      ∃ t, exec (.shadowFrameReturn id) s = .next t ∧ cmdAt t id = none ∧ t.hbm = s.hbm ∧
        (∀ g, c.returning = [g] → holdsSet (colAt s c.colony).cur (setOf g.frame.start) = true →
          (colAt t c.colony).pool = joinRuns (insertRun (colAt s c.colony).pool { g.frame with colony := 0 }))) ∧
    ((∃ g ∈ c.returning, landed s id c.colony g = true) → (∃ g ∈ c.returning, landed s id c.colony g = false) →
      ∃ t k, exec (.shadowFrameReturn id) s = .next t ∧ cmdAt t id = some k ∧
        k.returning = c.returning.filter (fun g => !landed s id c.colony g) ∧ t.hbm = s.hbm)

/-- R191, R235, R236: HBM_WRITE stores a line's 64 bytes at its home, makes it readable again and counts it for its command;
HBM_READ leaves HBM as it is, and a report corrected at once or by the one reissue is only counted. A line that ECC reports
twice is held until it is overwritten. -/
def Obligations.ChannelLineAccess : Prop :=
  ∀ (s : State) (ch off cmd : Nat), serving s = true → ch < 512 → lineWf off = true → (chanAt s ch).mode ≠ .fenced →
    (chanAt s ch).retraining = false → s.flt.armed.contains (8, ch) = false →
    (∀ data, data.length = 64 →
      ∃ t, exec (.hbmWrite ch off data cmd) s = .next t ∧
        (Memory.wf s.hbm = true → mread t.hbm (hbmKey ch off) 64 = data) ∧
        (∀ a, ¬ (hbmKey ch off ≤ a ∧ a < hbmKey ch off + 64) → mget t.hbm a = mget s.hbm a) ∧
        off ∉ (chanAt t ch).badLines ∧ (∀ m, m ≠ ch → chanAt t m = chanAt s m) ∧ t.cores = s.cores ∧
        ∀ k, cmdAt s cmd = some k →
          (k.phase ≠ .running → (acctAt t k.colony).hbmWr = ((acctAt s k.colony).hbmWr + 1) % 2 ^ 64) ∧
          (k.phase = .running → ∃ d, cmdAt t cmd = some d ∧ d.use.hbmWr = (k.use.hbmWr + 1) % 2 ^ 64) ∧
          tget 0 (chanAt t ch).clsBytes k.cls = (tget 0 (chanAt s ch).clsBytes k.cls + 64) % 2 ^ 64) ∧
    (s.flt.armed.contains (3, ch) = false →
      (∀ first second, off ∉ (chanAt s ch).badLines → off ∉ (chanAt s ch).badTags →
        ¬ (first = .uncorrected ∧ second = .uncorrected) →
        ∃ t, exec (.hbmRead ch off cmd first second true) s = .next t ∧ t.hbm = s.hbm ∧ t.cores = s.cores ∧
          (cmdAt s cmd = none → t.cmds = s.cmds) ∧ (∀ j, j ≠ cmd → cmdAt t j = cmdAt s j) ∧
          (∀ r, (chanAt s ch).buf = [] → (chanAt s ch).queue.find? (fun x => x.offset == off) = some r →
            (chanAt t ch).queue = (chanAt s ch).queue.erase r) ∧
          t.flt.recs = s.flt.recs ∧ (∀ m, m ≠ ch → chanAt t m = chanAt s m) ∧
          (chanAt t ch).ce = (if first = .corrected then satInc 16 (chanAt s ch).ce else (chanAt s ch).ce) ∧
          (chanAt t ch).retryOk = (if first = .uncorrected then satInc 16 (chanAt s ch).retryOk else (chanAt s ch).retryOk) ∧
          (chanAt t ch).ue = (chanAt s ch).ue ∧
          (first = .uncorrected → rowOf off ∈ (chanAt t ch).remapQueue ∨ rowOf off ∈ (chanAt t ch).heldRows)) ∧
      (cmdAt s cmd = none → ∀ tagOk,
        ∃ t, exec (.hbmRead ch off cmd .uncorrected .uncorrected tagOk) s = .next t ∧ t.hbm = s.hbm ∧
          off ∈ (chanAt t ch).badLines ∧ rowOf off ∈ (chanAt t ch).heldRows ∧
          (chanAt t ch).ue = satInc 16 (chanAt s ch).ue ∧ t.cores = s.cores ∧ t.cmds = s.cmds))

/-- R225, R237, R238, R240 to R243, R256: a refresh counts at its bank and follows its stack's temperature, or is postponed for a
queued class-0 request up to the allowance (log entry 103); a calibration
slot takes the rate that its slope and margin call for at once where that is faster, and a lost margin starts a retrain,
whose failure fences the channel; a queued row moves into the next spare row; a scrub counts what it finds; flit replays
are counted; an allocator fault puts the slice into limit mode. None changes a byte of HBM. -/
def Obligations.ChannelMaintenance : Prop :=
  ∀ (s : State) (ch : Nat), serving s = true → s.boot.powered = true → ch < 512 → (chanAt s ch).mode = .inService →
    let c := chanAt s ch
    (∀ bank temp, ∃ t, exec (.refresh ch bank temp) s = .next t ∧ OnlyChan s t ch ∧ (chanAt t ch).fastRefresh = decide (85 < temp) ∧
      (let late := tget 0 c.postponed bank
       if refreshHeld c bank = true ∧ late < Config.refreshAllowance then
         tget 0 (chanAt t ch).postponed bank = late + 1 ∧ (chanAt t ch).refreshes = c.refreshes
       else tget 0 (chanAt t ch).refreshes bank = tget 0 c.refreshes bank + 1 ∧ tget 0 (chanAt t ch).postponed bank = 0)) ∧
    (∀ margin slope marginOk tracking, c.calBusy = false → setBusy s ch = false → c.urgentFirst = false →
      let want : Nat := if 2000 ≤ slope then 2 else if 500 ≤ slope ∨ tracking = false then 1 else 0
      ∃ t, exec (.calibrationSlot ch margin slope marginOk tracking) s = .next t ∧ OnlyChan s t ch ∧
        (chanAt t ch).slots = (c.slots + 1) % 2 ^ 16 ∧ (chanAt t ch).margin = margin % 256 ∧
        (c.calRate ≤ want → (chanAt t ch).calRate = want) ∧ (want < c.calRate → c.calRate - 1 ≤ (chanAt t ch).calRate) ∧
        (chanAt t ch).calBusy = !marginOk ∧ (marginOk = false → (chanAt t ch).retraining = true)) ∧
    (c.retraining = true → NoTeardown s → ∀ pass,
      ∃ t, exec (.retrainDone ch pass) s = .next t ∧ (chanAt t ch).retraining = false ∧ (chanAt t ch).calBusy = false ∧
        (chanAt t ch).mode = (if pass then .inService else .fenced) ∧ t.hbm = s.hbm ∧ t.cores = s.cores) ∧
    (∀ row rest, c.retraining = false → c.remapQueue = row :: rest →
      ∃ t, exec (.remapCopy ch) s = .next t ∧ (chanAt t ch).remapQueue = rest ∧ t.hbm = s.hbm ∧ t.cores = s.cores ∧
        (c.spareNext < 16384 → OnlyChan s t ch ∧ tfind (chanAt t ch).remap row = some c.spareNext ∧
          (chanAt t ch).spareNext = c.spareNext + 1 ∧ ∀ r, r ≠ row → tfind (chanAt t ch).remap r = tfind c.remap r) ∧
        (16384 ≤ c.spareNext → (chanAt t ch).remap = c.remap ∧ (chanAt t ch).sparesReported = true)) ∧
    (∀ row line, c.retraining = false → line < 32 → lineWf (2048 * row + 64 * line) = true →
      (2048 * row + 64 * line ∉ c.badLines → ∃ t, exec (.patrolScrub ch row line .clean) s = .next t ∧ OnlyChan s t ch ∧ (chanAt t ch).ce = c.ce ∧
        (chanAt t ch).maint = (c.maint + 2176) % 2 ^ 64) ∧
      (2048 * row + 64 * line ∉ c.badLines → ∃ t, exec (.patrolScrub ch row line .corrected) s = .next t ∧ OnlyChan s t ch ∧ (chanAt t ch).ce = satInc 16 c.ce ∧
        (chanAt t ch).maint = (c.maint + 2240) % 2 ^ 64) ∧
      (∀ report, report = .uncorrected ∨ 2048 * row + 64 * line ∈ c.badLines →
        ∃ t, exec (.patrolScrub ch row line report) s = .next t ∧ t.hbm = s.hbm ∧ (chanAt t ch).ue = satInc 16 c.ue ∧
        row ∈ (chanAt t ch).scrubRows ∧ 2048 * row + 64 * line ∈ (chanAt t ch).badLines)) ∧
    (∀ die replays, die ∉ s.flt.quar → replays < 16 →
      ∃ t, exec (.meshFlitReplay die replays) s = .next t ∧ (meshAt t die).replays = satAdd 32 (meshAt s die).replays replays ∧
        { t with mesh := s.mesh } = s) ∧
    (∃ t, exec (.sliceAllocatorFault ch) s = .next t ∧ (chanAt t ch).limit = true ∧ t.hbm = s.hbm ∧ t.cmds = s.cmds ∧
      ∀ m, m ≠ ch → chanAt t m = chanAt s m)

/-- R38, R245, R263, R340, R457: the clearing commands set their counters to 0, a queue's peak to its occupancy, and change
nothing else. -/
def Obligations.CountersCleared : Prop :=
  ∀ (s : State) (n : Nat), fnLive s .pf = true → serving s = true →
    (∃ t, exec (.coreClrCnt n) s = .next t ∧ OnlyCore s t n ∧ coreAt t n = { coreAt s n with spCe := 0, dcCe := 0 }) ∧
    (∃ t, exec (.hbcClrCnt n) s = .next t ∧ OnlyChan s t n ∧
      chanAt t n = { chanAt s n with ce := 0, retryOk := 0, ue := 0, tagFail := 0, retrains := 0 }) ∧
    (∃ t, exec (.hbcClrPeak n) s = .next t ∧ OnlyChan s t n ∧
      chanAt t n = { chanAt s n with qPeak := (chanAt s n).queue.length, urgPeak := 0 }) ∧
    (n < 16 → ∃ t, exec (.zltClrCnt n) s = .next t ∧ OnlyPort s t n ∧
      portAt t n = { portAt s n with ceSym := 0, uncorr := 0, replays := 0, urgOver := 0, urgPeak := 0 }) ∧
    (∃ t, exec .pwrCoolClr s = .next t ∧ t = { s with pwr := { s.pwr with lost := false } })

/-- R33 to R37, R175, R177: a killed core whose tags of its epoch have come back is wiped and goes back to its colony, or
to the free pool; its last command then has the status that followed the kill, or is queued for its rerun. -/
def Obligations.KillsComplete : Prop :=
  ∀ (s : State) (n : Nat), s.flt.fatal = false → NoTeardown s →
    let c := coreAt s n
    c.st = .killed → c.wipeBusy = true → c.transit = false → c.epochHeld = false → c.dc = [] →
    c.pend1 = 0x3F → c.pend2 = 0x3F → c.overBank = false →
    let waits (e : Nat × Cmd) : Prop := e.2.phase = .killing ∧ n ∈ e.2.killing
    let wipedAt (t : State) : Prop :=
      (coreAt t n).st = (if c.colony = 0 then .idle else .bound) ∧ (coreAt t n).wipeBusy = false ∧ (coreAt t n).sp = [] ∧
      (coreAt t n).im = [] ∧ (coreAt t n).sregs = [] ∧ (coreAt t n).vregs = [] ∧ (coreAt t n).acc0 = {} ∧
      (coreAt t n).acc1 = {} ∧ (coreAt t n).sems = [] ∧ (coreAt t n).epoch = c.epoch ∧
      (∀ m, m ≠ n → coreAt t m = coreAt s m) ∧ t.hbm = s.hbm
    ((∀ e ∈ s.cmds, ¬ waits e) →
      ∃ t, exec (.killComplete n true) s = .next t ∧ wipedAt t ∧ t.cmds = s.cmds) ∧
    (∀ id k, cmdAt s id = some k → k.phase = .killing → k.killing = [n] → Alone s id k → (∀ e ∈ s.cmds, e.1 ≠ id → ¬ waits e) →
      ∃ t d, exec (.killComplete n true) s = .next t ∧ wipedAt t ∧ cmdAt t id = some d ∧
        (∀ st, k.after = some st → d.phase = .done ∧ d.status = st) ∧
        (k.after = none → d.phase = .fetched ∧ d.shadows = [] ∧ d.reserve = [] ∧ d.attempts = k.attempts))

/-- R179, R182: the limit of a non-preemptible attempt, and the end of a turn, kill the attempt's cores; the first ends its
command LIMIT_EXCEEDED (0x0C), the second reruns it, or with HOST_RERUN gives it back as KILLED_RERUNNABLE (1). R36, R276, R415:
a core that does not answer the coherent domain is killed for its reset; R34, R38, R280: CORE.CMD.FENCE fences a core and
sweeps the directories for it. -/
def Obligations.AttemptsAreKilled : Prop :=
  ∀ (s : State), serving s = true → allLines s = [] →
    let kills (t : State) (id : Nat) (c : Cmd) (after : Option Nat) : Prop :=
      (∃ k, cmdAt t id = some k ∧ k.phase = .killing ∧ k.killing = runningCores s id c ∧ k.after = after) ∧
      (∀ m ∈ runningCores s id c, (coreAt t m).st = .killed ∧ (coreAt t m).wipeBusy = true ∧ (coreAt t m).mq = [] ∧
        (coreAt t m).vq = [] ∧ (coreAt t m).dq = [] ∧ (coreAt t m).cmd = none) ∧
      (∀ m, m ∉ runningCores s id c → coreAt t m = coreAt s m) ∧ t.hbm = s.hbm
    (∀ id c, cmdAt s id = some c → c.nonPreempt = true → c.phase = .running → runningCores s id c ≠ [] →
      ∃ t, exec (.nplimitReached id) s = .next t ∧ kills t id c (some 0x0C)) ∧
    (∀ id c colony, 1 ≤ colony → colony ≤ 64 → cmdAt s id = some c → c.colony = colony → c.op = 0x10 → c.urgent = false →
      c.phase = .running → c.nonPreempt = false → c.turnKills < 2 → runningCores s id c ≠ [] → sliced s colony = true →
      (colAt s colony).turn = some (ringOf c) →
      (∀ e ∈ s.cmds, e.1 ≠ id → e.2.colony = colony → e.2.phase = .running → ringOf e.2 ≠ ringOf c) →
      ∃ t, exec (.timeSliceEnd colony) s = .next t ∧ kills t id c (if c.hostRerun then some 1 else none) ∧
        ∀ k, cmdAt t id = some k → k.turnKills = c.turnKills + 1) ∧
    (∀ colony, 1 ≤ colony → colony ≤ 64 → sliced s colony = false →
      ∃ t, exec (.timeSliceEnd colony) s = .next t ∧ (colAt t colony).turn = none ∧ t.cmds = s.cmds ∧ t.cores = s.cores) ∧
    (∀ n ch off e, n < 640 → NoTeardown s → s.flt.recs = [] → s.flt.unrecordedReset = [] → (coreAt s n).st = .bound →
      (coreAt s n).cmd = none → (chanAt s ch).mode ≠ .fenced → dirFind (chanAt s ch) off = some e → e.st = .invalidating → n ∈ e.acks →
      ∃ t r, exec (.agentUnresponsive n ch off) s = .next t ∧ (coreAt t n).st = .killed ∧ (coreAt t n).wipeBusy = true ∧
        tfind t.flt.recs 0 = some r ∧ r.cause = 0x10 ∧ r.severity = 3 ∧ r.st = .resetting ∧ r.unit = .core n ∧
        t.cmds = s.cmds) ∧
    (∀ n, n < 640 → fnLive s .pf = true → NoTeardown s → (coreAt s n).st ≠ .fenced → (coreAt s n).cmd = none →
      (coreAt s n).claim = none → (∀ e ∈ s.cmds, e.2.phase = .killing → n ∉ e.2.killing) →
      ∃ t, exec (.coreFence n) s = .next t ∧ (coreAt t n).st = .fenced ∧ (coreAt t n).replacePending = true ∧
        t.hub.sextonAgent = n ∧ t.hub.sextonSweeps = satInc 16 s.hub.sextonSweeps)

/-- R146, R165, R169: a COPY, FILL, LOAD_SEALED or STORE_SEALED that no earlier command conflicts with takes its shadow
reserve and at most 4 idle copy engines; the sealed ones need an ACTIVE model key of the colony's tenant (R401), and
STORE_SEALED counts one more store under it and keeps the IV drawn (R402). -/
def Obligations.MovementsStart : Prop :=
  ∀ (s : State) (id : Nat) (c : Cmd) (fs : List Frames) (col : Colony), cmdAt s id = some c → canStart s id c = true →
    conflicted s id c = false → idleEngines s ≠ [] →
    reserveOf (colAt s c.colony) (needOf (touchedPages (colAt s c.colony) c.regions)) = .taken fs col →
    let es := (idleEngines s).take 4
    let starts (t : State) : Prop :=
      (∃ k, cmdAt t id = some k ∧ k.phase = .running ∧ k.reserve = fs ∧ k.engines = es ∧ k.moved = 0 ∧
        k.attempts = c.attempts + 1) ∧
      es.length ≤ 4 ∧ (∀ e ∈ es, (engineAt t e).cmd = some id) ∧ (∀ e, e ∉ es → engineAt t e = engineAt s e) ∧
      (colAt t c.colony).pool = col.pool ∧ (∀ j, j ≠ id → cmdAt t j = cmdAt s j) ∧ t.cores = s.cores ∧ t.hbm = s.hbm
    (c.op = 0x20 → ∃ t, exec (.copy id) s = .next t ∧ starts t) ∧
    (c.op = 0x21 → ∃ t, exec (.fill id) s = .next t ∧ starts t) ∧
    (c.op = 0x22 → lifecycle s ≠ 2 → slotUsable s c = true →
      ∃ t, exec (.loadSealed id) s = .next t ∧ starts t ∧ ∃ k, cmdAt t id = some k ∧ k.iv = c.byte 48 12) ∧
    (∀ iv, c.op = 0x23 → slotUsable s c = true → c.attempts = 0 → (slotAt s c.slot).stores < 2 ^ 32 →
      ∃ t, exec (.storeSealed id iv) s = .next t ∧ starts t ∧ (slotAt t c.slot).stores = (slotAt s c.slot).stores + 1 ∧
        ∃ k, cmdAt t id = some k ∧ k.iv = iv % 2 ^ 96)

/-- R165, R168, R169, R267: an engine moves its command's next line into its line buffer, which takes the line of the shadow frame
behind its page by GETM without data; with the last line the buffers are written back, so that the lines lie in the shadow frame
and no other byte of HBM changes, and the attempt ends. A source line comes from the host, or from the buffer where it holds it.
R174: a faulting engine's work goes to another idle engine, and the copy starts again. R485: a host read that fails is logged and
ends its command ACCESS_DENIED. -/
def Obligations.EnginesMoveLines : Prop :=
  ∀ (s : State) (id e : Nat) (c : Cmd), serving s = true → cmdAt s id = some c → c.phase = .running →
    (e < 16 → (engineAt s e).cmd = some id → (engineAt s e).want = none → s.flt.armed.contains (9, e) = false →
      agentHalted s (648 + e) = false →
      let tc := (engineAt s e).tc
      let instar := (colAt s c.colony).cur.instar
      let agent := 648 + e
      let taken (at_ : Nat) : Prop :=
        let ch := channelOf at_
        let off := chanOff at_
        cacheFind (engineAt s e).lines ch off = none ∧ requestWaits s agent ch off = false ∧
        (creditFor s ch agent c.cls).isSome = true ∧ NoneReserved s agent ch off ∧ dirFind (chanAt s ch) off = none ∧
        dirRoom (chanAt s ch) off = true ∧ RoomFor s agent off
      let moves (t : State) (at_ : Nat) (line : List Byte) (hostIn : Nat) : Prop :=
        (c.moved + 1 < c.units_ → t.hbm = s.hbm ∧ t.out = s.out ∧
          (∃ k, cmdAt t id = some k ∧ k.moved = c.moved + 1 ∧ k.phase = .running ∧ k.use.hostIn = (c.use.hostIn + hostIn) % 2 ^ 64) ∧
          cacheFind (engineAt t e).lines (channelOf at_) (chanOff at_) =
            some ⟨channelOf at_, chanOff at_, .modified, line⟩ ∧
          ∃ d, dirFind (chanAt t (channelOf at_)) (chanOff at_) = some d ∧ d.st = .owned ∧ d.owner = agent) ∧
        (c.units_ ≤ c.moved + 1 → allLines s = [] → t.out = s.out ∧
          (∃ k, cmdAt t id = some k ∧ k.moved = c.moved + 1 ∧ k.phase = .ended) ∧
          (engineAt t e).cmd = none ∧ (engineAt t e).lines = [] ∧
          (acctAt t c.colony).hostIn = ((acctAt s c.colony).hostIn + c.use.hostIn + hostIn) % 2 ^ 64 ∧
          (Memory.wf s.hbm = true → mread t.hbm (keyOf at_) 64 = line) ∧
          (∀ a, ¬ (keyOf at_ ≤ a ∧ a < keyOf at_ + 64) → mget t.hbm a = mget s.hbm a))
      (∀ at_ host x, c.op = 0x21 → (c.byte 16 8 + 64 * c.moved) % 64 = 0 → c.use.hostIn < 2 ^ 64 →
        ShadowAt s c tc instar (c.byte 16 8 + 64 * c.moved) at_ → taken at_ →
        ∃ t, exec (.copyEngineLine e host x) s = .next t ∧ moves t at_ (fillLine c) 0) ∧
      (∀ at_ d x, c.op = 0x20 → c.stage ≠ 1 → c.isHost 16 = true → c.isHost 24 = false → d.length = 64 →
        (c.addr 24 + 64 * c.moved) % 64 = 0 → ShadowAt s c tc instar (c.addr 24 + 64 * c.moved) at_ → taken at_ →
        ∃ t, exec (.copyEngineLine e (some d) x) s = .next t ∧ moves t at_ d 64) ∧
      (∀ at_ dpa p l host x, c.op = 0x20 → c.stage ≠ 1 → c.isHost 16 = false → c.isHost 24 = false → c.moved + 1 < c.units_ →
        (c.addr 16 + 64 * c.moved) % 64 = 0 → (c.addr 24 + 64 * c.moved) % 64 = 0 → c.use.hostIn < 2 ^ 64 →
        tcLook (colAt s c.colony) tc c.colony instar (c.addr 16 + 64 * c.moved) .read = .ok dpa p →
        (∀ y, tcHit tc c.colony instar (c.addr 16 + 64 * c.moved) = some y → y.r = true) →
        ownCheck (colAt s c.colony) instar (channelOf (frameOf (colAt s c.colony) dpa)) = .pass →
        cacheFind (engineAt s e).lines (channelOf (frameOf (colAt s c.colony) dpa))
          (chanOff (lineBase (frameOf (colAt s c.colony) dpa))) = some l → l.data.length = 64 →
        ShadowAt s c tc instar (c.addr 24 + 64 * c.moved) at_ → taken at_ →
        ∃ t, exec (.copyEngineLine e host x) s = .next t ∧ moves t at_ l.data 0)) ∧
    (∀ k, e < 16 → (engineAt s e).cmd = some id → (engineAt s e).inService = true → (engineAt s e).lines = [] →
      (idleEngines s).find? (fun x => x != e) = some k →
      ∃ t d, exec (.copyEngineFault e) s = .next t ∧ (engineAt t e).cmd = none ∧ (engineAt t k).cmd = some id ∧
        cmdAt t id = some d ∧ d.phase = .running ∧ d.moved = 0 ∧
        d.engines = c.engines.map (fun x => if x = e then k else x) ∧ t.hbm = s.hbm ∧ t.cores = s.cores) ∧
    (c.op = 0x20 → c.isHost 16 = true → runningCores s id c = [] →
      let fails (t : State) (kind : Nat) : Prop :=
        t.pcie.aer = kind :: s.pcie.aer ∧ ∃ k, cmdAt t id = some k ∧ k.phase = .done ∧ k.status = 0x04
      (∀ error, ∃ t, exec (.hostReadCompletion id true error) s = .next t ∧ fails t 1) ∧
      (∃ t, exec (.hostReadCompletion id false true) s = .next t ∧ fails t 2) ∧
      (exec (.hostReadCompletion id false false) s = .next s) ∧
      (∃ t, exec (.completionTimeout id) s = .next t ∧ fails t 3))

/-- R356, R358, R359, R361: a GATHER, SCATTER or BARRIER whose plan is legal runs it, its CSEQ is its group's highest, and with
only arrivals to await it waits; a REDUCE does so too, and asks for the translation of its SRC first; it adds the partials of its SRC
line by line into its scratch. A plan that breaks the field rules ends the command BAD_PACKET (0x0A). With every step
completed a collective's attempt ends; RESULT counts a REDUCE's partials, and the bytes written of a GATHER or SCATTER. -/
def Obligations.CollectivesRun : Prop :=
  ∀ (s : State) (id : Nat) (c : Cmd), cmdAt s id = some c →
    let rows : List (Nat × Instr) := [(0x30, .reduce id), (0x31, .gather id), (0x32, .scatter id), (0x33, .barrier id)]
    (∀ (hd body : List Byte) (fs : List Frames) (col : Colony), canStart s id c = true → jobAborted s c = false → c.planVa % 64 = 0 →
      vaRead s c.colony c.planVa 16 .read = .ok hd → planHeadOk hd = true →
      vaRead s c.colony (c.planVa + 16) (32 * bytesAt hd 6 2) .read = .ok body →
      let raw := planSteps (bytesAt hd 6 2) body
      let plan := raw.map stepOf
      let regions := if c.op = 0x31 then [(c.cDst, c.cLen * bytesAt hd 8 2)] else c.regions
      let c1 := { c with regions := regions, plan := plan, members := bytesAt hd 8 2 }
      (raw.all (stepOk c (bytesAt hd 8 2)) = true → Waiting plan →
        conflicted (noteRead s c c.planVa (16 + 32 * bytesAt hd 6 2) .read) id c1 = false →
        collectiveReserve (colAt s c.colony) c1 = .taken fs col →
        let begun (t : State) (k : Cmd) : Prop :=
          cmdAt t id = some k ∧ k.phase = .running ∧ k.plan = plan ∧ k.members = bytesAt hd 8 2 ∧ k.reserve = fs ∧
          k.attempts = c.attempts + 1 ∧ tget 0 (colAt t c.colony).jobSeq c.job = max (tget 0 col.jobSeq c.job) c.cseqNo ∧
          t.hbm = s.hbm ∧ t.cores = s.cores
        (c.op ≠ 0x30 → ∀ r ∈ rows, r.1 = c.op → ∃ t k, exec r.2 s = .next t ∧ begun t k) ∧
        (∀ n, c.op = 0x30 → 0 < c.cCount → c.cSrc < 2 ^ 48 → localEngine s c = some n → engineHalted s (some n) = false →
          tcHit (portAt s n).tc c.colony (stampOf s c.colony) c.cSrc = none →
          ∃ t k, exec (.reduce id) s = .next t ∧ begun t k ∧ k.moved = 0 ∧ k.scratch = [] ∧
            (portAt t n).want = some (c.cSrc, false, id))) ∧
      (raw.all (stepOk c (bytesAt hd 8 2)) = false → Alone s id c →
        ∀ r ∈ rows, r.1 = c.op → ∃ t, exec r.2 s = .next t ∧ Ends s t id 0x0A 0 0)) ∧
    (∀ n y dpa p, serving s = true → c.op = 0x30 → c.phase = .running → Waiting c.plan → c.moved < c.cCount → c.cCount ≤ c.moved + 4 →
      localEngine s c = some n → engineHalted s (some n) = false →
      tcHit (portAt s n).tc c.colony (stampOf s c.colony) (c.cSrc + 16 * c.moved) = some y → y.r = true →
      tcLook (colAt s c.colony) (portAt s n).tc c.colony (stampOf s c.colony) (c.cSrc + 16 * c.moved) .read = .ok dpa p →
      let fa := readAddr s (colAt s c.colony) (some c) dpa
      ownCheck (colAt s c.colony) (stampOf s c.colony) (channelOf fa) = .pass → reachBlocked s c (some n) fa false = false →
      checkRead s fa = (s, none) →
      ∃ t, exec (.reduce id) s = .next t ∧ t.hbm = s.hbm ∧ t.cores = s.cores ∧ (∀ j, j ≠ id → cmdAt t j = cmdAt s j) ∧
        cmdAt t id = some { c with scratch := addScratch c.scratch c.moved (widesOf 4 (coherentData s fa)), moved := c.moved + 4 }) ∧
    (serving s = true → c.phase = .running → (∀ p ∈ c.plan, p.done = true) → (c.op = 0x30 → c.cCount ≤ c.moved) →
      engineHalted s (localEngine s c) = false →
      ∀ r ∈ rows, r.1 = c.op → ∃ t k, exec r.2 s = .next t ∧ cmdAt t id = some k ∧ k.phase = .ended ∧
        k.result = (if c.op = 0x30 then c.cCount else if c.op = 0x33 then 0 else c.moved) ∧ k.shadows = c.shadows ∧
        (∀ j, j ≠ id → cmdAt t j = cmdAt s j) ∧ t.hbm = s.hbm ∧ t.cores = s.cores)

/-- R352, R357 to R360: what passes a window's checks for a running collective is counted against its EXPECT steps: a WRITE's
line lands in the command's output, an ADD's partials in its scratch; a barrier message counts at the first WAIT_BAR, and
the last one awaited ends a BARRIER's attempt. An access outside the window changes no command. R335: a packet whose BSEQ its bond
has delivered already changes nothing. -/
def Obligations.CollectiveArrivals : Prop :=
  ∀ (s : State) (port id : Nat) (c : Cmd) (w : Window), windowServed s w = true →
    (∀ (h : FabHeader) (payload : List Byte), repeated s port h.bseq = true →
      exec (.writePacket port h payload) s = .next s ∧ exec (.addPacket port h payload) s = .next s) ∧
    (∀ (h : FabHeader) (payload : List Byte), arrives s port h.dst h.src = true → repeated s port h.bseq = false →
      runningCollective s w.colony h.job h.cseq = some (id, c) → cmdAt s id = some c →
      let va := c.cDst + h.offset * c.unitBytes
      (∀ plan dpa p sh, windowCheck s h.src h.scol h.instar h.job h.boottag h.window (fun x => x.wr) = (s, .ok w) → c.op = 0x31 →
        payload.length = 64 → va % 64 = 0 → va < 2 ^ 48 → inWindow w va 64 = true → finalAgainst c.plan false h.offset 1 = false →
        countArrival c.plan 2 h.offset 1 = some plan → Waiting plan → walk (colAt s w.colony) va .write = .ok dpa p →
        shadowFor c p.dpa = some sh → shadowFor c dpa = some sh →
        ownCheck (colAt s w.colony) (colAt s w.colony).cur.instar (channelOf dpa) = .pass →
        sh.addr dpa < 2 ^ 40 → sh.addr dpa % 64 = 0 → (chanAt s (channelOf (sh.addr dpa))).mode ≠ .fenced →
        arrivalWaits s w.colony w.cls (some c) none true va 64 = false →
        ∃ t k, exec (.writePacket port h payload) s = .next t ∧ cmdAt t id = some k ∧ k.phase = .running ∧ k.plan = plan ∧
          k.moved = c.moved + 64 ∧ (Memory.wf s.hbm = true → mread t.hbm (keyOf (sh.addr dpa)) 64 = payload) ∧
          ∀ a, ¬ (keyOf (sh.addr dpa) ≤ a ∧ a < keyOf (sh.addr dpa) + 64) → mget t.hbm a = mget s.hbm a) ∧
      (∀ plan n, windowCheck s h.src h.scol h.instar h.job h.boottag h.window (fun x => x.add) = (s, .ok w) → c.op = 0x30 →
        payload.length = 16 * n → 0 < n → c.cCount ≤ c.moved → h.anchor = c.cAnchor → inWindow w va (n * c.unitBytes) = true →
        finalAgainst c.plan true h.offset n = false → countArrival c.plan 1 h.offset n = some plan → Waiting plan →
        targetProblem s w.colony .write va (n * c.unitBytes) = none →
        ∃ t, exec (.addPacket port h payload) s = .next t ∧ t.hbm = s.hbm ∧
          cmdAt t id = some { c with plan := plan, scratch := addScratch c.scratch h.offset (widesOf n payload) }) ∧
      (windowCheck s h.src h.scol h.instar h.job h.boottag h.window (fun x => x.wr) = (s, .ok w) → c.op = 0x31 →
        payload.length = 64 → inWindow w va 64 = false →
        ∃ t, exec (.writePacket port h payload) s = .next t ∧ t.cmds = s.cmds ∧ t.hbm = s.hbm)) ∧
    (∀ (m : CtlHeader) (cseq window boottag i : Nat) (p : PlanStep), arrives s port m.dst m.src = true →
      answered s m.src m.mseq = none →
      windowCheck s m.src m.scol m.instar m.job boottag window (fun x => x.bar) = (s, .ok w) →
      runningCollective s w.colony m.job cseq = some (id, c) → cmdAt s id = some c →
      findIdx? (fun q => q.op == 6 && !q.done && decide (q.bars < q.nsrc)) c.plan = some (i, p) →
      (p.bars + 1 < p.nsrc → Waiting c.plan → (∀ q ∈ c.plan, q.op ≠ 3) → c.op = 0x33 →
        ∃ t k, exec (.barrierMessage port m cseq window boottag) s = .next t ∧ cmdAt t id = some k ∧ k.phase = .running ∧
          (k.plan[i]?).map (fun q => q.bars) = some (p.bars + 1) ∧ (∀ j, j ≠ i → k.plan[j]? = c.plan[j]?) ∧ t.hbm = s.hbm) ∧
      (p.bars + 1 = p.nsrc → c.op = 0x33 → engineHalted s (localEngine s c) = false → (∀ j q, j ≠ i → c.plan[j]? = some q → q.done = true) →
        ∃ t k, exec (.barrierMessage port m cseq window boottag) s = .next t ∧ cmdAt t id = some k ∧ k.phase = .ended ∧
          k.result = 0 ∧ t.hbm = s.hbm))

/-- R357, R359, R361, R363: the last acknowledgement ends a GATHER's, SCATTER's or BARRIER's attempt; BUSY makes the request
wait, and its retry sends the same units again under the same tag; any other refusal ends the command with its status and
raises one abort for its group. A reply to no outstanding request is discarded and counted (R423), in its colony's COL.STALE too where
it carries an instar that is not live (R197). -/
def Obligations.CollectiveReplies : Prop :=
  ∀ (s : State) (port : Nat) (h : FabHeader), arrives s port h.dst h.src = true → repeated s port h.bseq = false →
    (requestOf s h = none → NoTeardown s → (portAt s h.tagPort).drain = [] →
      ∀ i ∈ [Instr.wack port h, Instr.refuse port h], ∃ t, exec i s = .next t ∧ t.flt.late = satInc 32 s.flt.late ∧ t.cmds = s.cmds ∧
        t.ports = s.ports ∧ t.cores = s.cores ∧ t.hbm = s.hbm ∧
        (∀ c, 1 ≤ h.scol → h.scol ≤ 64 → colAt s h.scol = c →
          (colAt t h.scol).stale = (if (c.cur.valid = true ∧ c.cur.instar = h.instar) ∨ (c.old.valid = true ∧ c.old.instar = h.instar)
            then c.stale else satInc 32 c.stale))) ∧
    (∀ r c, requestOf s h = some r → r.kind ≠ .read → cmdAt s r.cmd = some c → c.phase = .running →
      (∀ p, NoTeardown s → c.isCollective = true → c.op ≠ 0x30 → c.plan[r.step]? = some p → p.count ≤ p.acked + r.units →
        engineHalted s (localEngine s c) = false → (∀ j q, j ≠ r.step → c.plan[j]? = some q → q.done = true) →
        ∃ t k, exec (.wack port h) s = .next t ∧ cmdAt t r.cmd = some k ∧ k.phase = .ended ∧
          (∀ x ∈ (portAt t h.tagPort).reqs, x.tag ≠ h.tag) ∧ t.hbm = s.hbm) ∧
      (h.status = 0 →
        ∃ t, exec (.refuse port h) s = .next t ∧ OnlyPort (noteDelivered s port h.bseq) t h.tagPort ∧
          ∃ x ∈ (portAt t h.tagPort).reqs, x = { r with waiting := true, busy := r.busy + 1 }) ∧
      (h.status ≠ 0 → NoTeardown s → c.job ≠ 0 → runningCores s r.cmd c = [] →
        ∃ t k, exec (.refuse port h) s = .next t ∧ cmdAt t r.cmd = some k ∧ k.phase = .done ∧ k.status = h.status ∧
          t.fab.raised = (s.fab.raised + 1) % 2 ^ 32 ∧ c.job ∈ (colAt t c.colony).aborted)) ∧
    (∀ n tag r c p x out, serving s = true → n < 16 → NoTeardown s →
      (portAt s n).reqs.find? (fun q => q.tag == tag && q.waiting) = some r → cmdAt s r.cmd = some c → c.phase = .running →
      c.plan[r.step]? = some p → p.op = 1 → p.buf = 1 → requestPort s c r.dst = .ok (x, out) →
      ∃ t, exec (.collectiveBusyRetry n tag) s = .next t ∧
        ∃ q ∈ (portAt t n).reqs, q.tag = tag ∧ q.waiting = false ∧ q.cmd = r.cmd ∧ q.step = r.step ∧ q.unit = r.unit ∧
          q.units = r.units ∧ q.kind = .add)

/-- R147, R365 to R367: OFFER takes a free record and asks its peer; ACCEPT waits for a matching OFFER, refuses one of
another length, and its attempt ends once the whole state has been read; RELEASE and AUDIT send their messages and wait; a
wait of ACCEPT or RELEASE ends LIMIT_EXCEEDED (0x0C). -/
def Obligations.HandoffCommands : Prop :=
  ∀ (s : State) (id : Nat) (c : Cmd), cmdAt s id = some c → c.op = 0x34 →
    let waits (t : State) : Prop := ∃ k, cmdAt t id = some k ∧ k.phase = .started
    let asks (t : State) (mtype : Nat) (body : List Nat) : Prop :=
      ∃ x ∈ t.fab.unacked, x.mtype = mtype ∧ x.dst = c.hPeer ∧ x.scol = c.colony ∧ x.job = c.job ∧ x.body = body ∧ x.cmd = some id
    (canStart s id c = true → jobAborted s c = false →
      (∀ i w e, c.hPhase = 1 → cmdHandoff s c = none → freeHandoff s = some i → offerWindow s c = some (w, e) → peerRoute s c = none →
        ∃ t, exec (.handoffOffer id) s = .next t ∧ waits t ∧
          tfind t.fab.handoffs i = some { colony := c.colony, job := c.job, hseq := c.hseq, peer := c.hPeer, peerColony := c.hPeerColony
                                          st := .offered, timer := c.hTimer, window := w, offset := c.stateVa - e.base
                                          len := c.stateLen, cmd := some id } ∧
          (∀ j, j ≠ i → tfind t.fab.handoffs j = tfind s.fab.handoffs j) ∧ (∀ j, j ≠ id → cmdAt t j = cmdAt s j) ∧
          ((c.hPeer, c.job) ∈ peerSet t c.colony ∨ (colAt t c.colony).peersAll = true) ∧
          asks t 0x10 [c.hseq, w, c.hPeerColony, c.stateVa - e.base, c.stateLen] ∧ t.hbm = s.hbm ∧ t.cores = s.cores) ∧
      (c.hPhase = 2 → cmdHandoff s c = none →
        ∃ t, exec (.handoffAccept id) s = .next t ∧ waits t ∧ t.fab = s.fab ∧ t.hbm = s.hbm) ∧
      (∀ i h, c.hPhase = 2 → cmdHandoff s c = some (i, h) → h.st = .offerSeen →
        (h.len ≠ c.stateLen → Alone s id c → ∃ t, exec (.handoffAccept id) s = .next t ∧ Ends s t id 0x0B 0 0) ∧
        (∀ fs col, h.len = 0 → c.stateLen = 0 → conflicted s id c = false →
          reserveOf (colAt s c.colony) (needOf (touchedPages (colAt s c.colony) c.regions)) = .taken fs col →
          ∃ t k g, exec (.handoffAccept id) s = .next t ∧ cmdAt t id = some k ∧ k.phase = .ended ∧ k.attempts = c.attempts + 1 ∧
            tfind t.fab.handoffs i = some g ∧ g.st = .accepting ∧ g.cmd = some id ∧ t.hbm = s.hbm)) ∧
      (∀ i h, c.hPhase = 3 → cmdHandoff s c = some (i, h) → h.st = .acceptedSeen → peerRoute s c = none →
        ∃ t g, exec (.handoffRelease id) s = .next t ∧ waits t ∧ tfind t.fab.handoffs i = some g ∧ g.st = .releasing ∧
          g.cmd = some id ∧ asks t 0x12 [c.hseq, c.hPeerColony] ∧ t.hbm = s.hbm) ∧
      (c.hPhase = 4 → peerRoute s c = none →
        ∃ t, exec (.handoffAudit id) s = .next t ∧ waits t ∧ t.fab.handoffs = s.fab.handoffs ∧ t.hbm = s.hbm ∧
          asks t 0x13 [c.hseq, (localState s c.colony c.job c.hseq c.hPeer c.hPeerColony).code, 0])) ∧
    (serving s = true → NoTeardown s → c.hPhase = 2 → c.phase = .running → c.stateLen ≤ 64 * c.stage → c.stateLen ≤ c.moved →
      ∃ t k, exec (.handoffAccept id) s = .next t ∧ cmdAt t id = some k ∧ k.phase = .ended ∧ t.hbm = s.hbm) ∧
    (serving s = true → Alone s id c → c.phase = .started → c.hPhase = 2 →
      ∃ t, exec (.handoffWaitTimeout id) s = .next t ∧ Ends s t id 0x0C 0 0)

/-- R347, R352, R365 to R367: OFFER makes a record OFFER_SEEN, ACCEPT and RELEASE move it on, a withdrawing audit declines
what is not accepted, and an answer completes the AUDIT that asked; READ gives the offered state's committed lines and
READ_DATA puts a line into the ACCEPT's output; a record without progress audits, and a DECLINED one expires. -/
def Obligations.HandoffMessages : Prop :=
  ∀ (s : State) (port : Nat),
    (∀ (m : CtlHeader) (hseq : Nat), arrives s port m.dst m.src = true →
      (answered s m.src m.mseq = none →
        (∀ window rcol offset len i, colonyWf rcol = true → (colAt s rcol).st = .active →
          findHandoff s rcol m.job hseq m.src m.scol = none → freeHandoff s = some i →
          ∃ t h, exec (.offer port m hseq window rcol offset len) s = .next t ∧ tfind t.fab.handoffs i = some h ∧
            h.st = .offerSeen ∧ h.colony = rcol ∧ h.job = m.job ∧ h.hseq = hseq ∧ h.peer = m.src ∧ h.peerColony = m.scol ∧
            h.window = window ∧ h.offset = offset ∧ h.len = len ∧ answered t m.src m.mseq = some (5, 0) ∧ t.cmds = s.cmds ∧
            t.hbm = s.hbm) ∧
        (∀ rcol i h, handoffOf s m.job hseq m.src rcol = some (i, h) → h.st = .offered →
          ∃ t, exec (.accept port m hseq rcol) s = .next t ∧ tfind t.fab.handoffs i = some { h with st := .acceptedSeen } ∧
            answered t m.src m.mseq = some (5, 0) ∧ t.cmds = s.cmds) ∧
        (∀ rcol i h, findHandoff s rcol m.job hseq m.src m.scol = some (i, h) → h.st = .accepted →
          ∃ t, exec (.release port m hseq rcol) s = .next t ∧ tfind t.fab.handoffs i = none ∧
            answered t m.src m.mseq = some (5, 0) ∧ t.cmds = s.cmds) ∧
        (∀ state withdraw i h, handoffOf s m.job hseq m.src m.scol = some (i, h) →
          ∃ t g, exec (.auditQ port m hseq state withdraw) s = .next t ∧ tfind t.fab.handoffs i = some g ∧
            (withdraw = true → h.st = .offerSeen ∨ h.st = .accepting → g.st = .declined) ∧
            (withdraw = false → state ≠ 5 → g = h) ∧ answered t m.src m.mseq = some (5, 0) ∧ t.cmds = s.cmds)) ∧
      (∀ x id c, auditOf s m hseq = some x → x.cmd = some id → cmdAt s id = some c → c.phase = .started → Alone s id c →
        (∀ state, auditedRecord (dropUnacked s x.mseq) x m hseq = none →
          ∃ t, exec (.auditR port m hseq state) s = .next t ∧ Ends s t id 0 0 (256 * state) ∧
            ∀ y ∈ t.fab.unacked, y.mseq ≠ x.mseq) ∧
        (∀ i h, auditedRecord (dropUnacked s x.mseq) x m hseq = some (i, h) → h.st = .offered →
          ∃ t, exec (.auditR port m hseq 4) s = .next t ∧ tfind t.fab.handoffs i = some { h with st := .acceptedSeen } ∧
            Ends s t id 0 0 (5 + 256 * 4)))) ∧
    (∀ (h : FabHeader), arrives s port h.dst h.src = true → repeated s port h.bseq = false →
      (∀ w lines d, windowCheck s h.src h.scol h.instar h.job h.boottag h.window (fun x => x.rd) = (s, .ok w) → windowServed s w = true →
        lines ≠ 0 → h.offset % 64 = 0 → inWindow w (w.base + h.offset) (64 * lines) = true →
        (findHandoff s w.colony h.job h.cseq h.src h.scol).any (fun e => e.2.st == .offered) = true →
        targetProblem s w.colony .read (w.base + h.offset) (64 * lines) = none → badLine s w.colony (w.base + h.offset) lines = none →
        vaLines s w.colony .read (w.base + h.offset) lines = .ok d →
        arrivalWaits s w.colony w.cls none (some (port % 16)) false (w.base + h.offset) (64 * lines) = false →
        ∃ t, exec (.readPacket port h lines) s = .next t ∧ t.cmds = s.cmds ∧ t.hbm = s.hbm ∧ t.fab = s.fab ∧
          (port < 16 → (acctAt t w.colony).fabOut = ((acctAt s w.colony).fabOut + d.length) % 2 ^ 64) ∧
          (h.src = s.fab.faddr → ∃ r, t.out = s.out ++ [.packet 16 4 r d] ∧ r.dst = h.src ∧ r.tag = h.tag)) ∧
      (∀ r c payload dpa p sh, requestOf s h = some r → r.kind = .read → cmdAt s r.cmd = some c → c.phase = .running → c.op = 0x34 →
        NoTeardown s → r.units = 1 → payload.length = 64 → (c.stateVa + 64 * r.unit) % 64 = 0 → c.stateLen ≤ 64 * c.stage →
        walk (colAt s c.colony) (c.stateVa + 64 * r.unit) .write = .ok dpa p → shadowFor c p.dpa = some sh → shadowFor c dpa = some sh →
        arrivalWaits s c.colony c.cls (some c) none true (c.stateVa + 64 * r.unit) 64 = false →
        ownCheck (colAt s c.colony) (colAt s c.colony).cur.instar (channelOf dpa) = .pass → sh.addr dpa < 2 ^ 40 →
        sh.addr dpa % 64 = 0 → (chanAt s (channelOf (sh.addr dpa))).mode ≠ .fenced →
        ∃ t k, exec (.readData port h payload) s = .next t ∧ cmdAt t r.cmd = some k ∧ k.moved = c.moved + 64 ∧
          k.phase = (if c.stateLen ≤ c.moved + 64 then .ended else .running) ∧
          (Memory.wf s.hbm = true → mread t.hbm (keyOf (sh.addr dpa)) 64 = payload) ∧
          (∀ a, ¬ (keyOf (sh.addr dpa) ≤ a ∧ a < keyOf (sh.addr dpa) + 64) → mget t.hbm a = mget s.hbm a) ∧
          ∀ x ∈ (portAt t h.tagPort).reqs, x.tag ≠ h.tag)) ∧
    (∀ i h, serving s = true → tfind s.fab.handoffs i = some h →
      (h.st ≠ .declined → h.st ≠ .retaken → s.fab.faddr ≠ 0 →
        ∃ t, exec (.handoffTimer i) s = .next t ∧ t.fab.hoffTimers = (s.fab.hoffTimers + 1) % 2 ^ 32 ∧
          t.fab.handoffs = s.fab.handoffs ∧ t.cmds = s.cmds ∧
          ∃ x ∈ t.fab.unacked, x.mtype = 0x13 ∧ x.dst = h.peer ∧ x.job = h.job ∧ x.body = [h.hseq, h.st.code, 0] ∧ x.cmd = none) ∧
      (h.st = .declined → ∃ t, exec (.declinedExpiry i) s = .next t ∧ tfind t.fab.handoffs i = none ∧ t.cmds = s.cmds))

/-- R341, R344, R350, R351, R353, R354, R370: the fabric address is set once; a legal entry is written where no valid one
stands and its source joins the colony's peer set, an illegal one is rejected; a read shows the entry; REVOKE and RETIRE
act on every entry of their sender and its colony; transit leaves by its route with TTL one less, or is dropped and
counted. -/
def Obligations.FabricTablesAndTransit : Prop :=
  ∀ (s : State), serving s = true →
    (fnLive s .pf = true →
      (∀ value : Word, s.fab.faddr = 0 → value.toNat % 2 ^ 24 ≠ 0xFFFFFF →
        ∃ t, exec (.fabricAddressWrite value) s = .next t ∧ t = { s with fab := { s.fab with faddr := value.toNat % 2 ^ 24 } }) ∧
      (∀ value, s.fab.faddr ≠ 0 → exec (.fabricAddressWrite value) s = .next s) ∧
      (let w := windowOf (wdataBytes s)
       tfind s.fab.windows s.fab.wsel = none →
        (windowOk (wdataBytes s) = true →
          ∃ t, exec .windowWrite s = .next t ∧ tfind t.fab.windows s.fab.wsel = some w ∧
            (∀ i, i ≠ s.fab.wsel → tfind t.fab.windows i = tfind s.fab.windows i) ∧
            (w.valid = true → (w.sfaddr, w.job) ∈ peerSet t w.colony)) ∧
        (windowOk (wdataBytes s) = false →
          ∃ t, exec .windowWrite s = .next t ∧ t = { s with fab := { s.fab with wReject := true } })) ∧
      (∀ w, tfind s.fab.windows s.fab.wsel = some w →
        (w.valid = true → ∃ t, exec .windowWrite s = .next t ∧ t = { s with fab := { s.fab with wReject := true } }) ∧
        (∃ t, exec .windowRead s = .next t ∧ t.fab.windows = s.fab.windows ∧
          ∀ k, k < 4 → (tget (0 : Word) t.fab.wdata k).toNat = bytesAt (windowBytes w) (8 * k) 8) ∧
        (∃ t x, exec .windowRevoke s = .next t ∧ tfind t.fab.windows s.fab.wsel = some x ∧ x.valid = false ∧
          ∀ i, i ≠ s.fab.wsel → tfind t.fab.windows i = tfind s.fab.windows i))) ∧
    (∀ port (m : CtlHeader), arrives s port m.dst m.src = true → answered s m.src m.mseq = none →
      (∃ t, exec (.revoke port m) s = .next t ∧ t.cmds = s.cmds ∧ ∀ i, tfind t.fab.windows i =
        (tfind s.fab.windows i).map (fun w => if w.sfaddr = m.src ∧ w.scol = m.scol then { w with valid := false, revoking := false } else w)) ∧
      (∀ value boottag, ∃ t, exec (.instarRetire port m value boottag) s = .next t ∧ t.cmds = s.cmds ∧
        ∀ i, tfind t.fab.windows i = (tfind s.fab.windows i).map (fun w =>
          let d := (value + 256 - w.rmark % 256) % 256
          if w.sfaddr = m.src ∧ w.scol = m.scol ∧ w.sboot = boottag ∧ 1 ≤ d ∧ d ≤ 127 then { w with rmark := value % 256 } else w))) ∧
    (∀ inPort p, inPort < 16 → (portAt s inPort).st = .active → s.fab.faddr ≠ 0 →
      ∀ dst src job ttl, transitPath p = (dst, src, job, ttl) → dst ≠ s.fab.faddr →
      (transitArrives s inPort p = none → exec (.transitForward inPort p) s = .next s) ∧
      (∀ s1, transitArrives s inPort p = some s1 →
        (ttl ≤ 1 → ∃ t, exec (.transitForward inPort p) s = .next t ∧ t = { s1 with fab := { s1.fab with dropTtl := satInc 16 s.fab.dropTtl } }) ∧
        (1 < ttl → (∀ n, route s1 0 (transitLane p) src dst job ≠ .port n) →
          ∃ t, exec (.transitForward inPort p) s = .next t ∧ t = { s1 with fab := { s1.fab with dropNoRoute := satInc 16 s.fab.dropNoRoute } }) ∧
        (∀ n, 1 < ttl → route s1 0 (transitLane p) src dst job = .port n →
          ∃ t k, exec (.transitForward inPort p) s = .next t ∧ (k ∈ (portAt t n).txQueue ∨ k ∈ (portAt t n).sent) ∧
            k.vl = transitLane p ∧ k.transit = true ∧
            (∀ cls kind h data, p = .bulk cls kind h data → k.cls = cls ∧ k.out = .packet n kind { h with ttl := ttl - 1 } data) ∧
            (∀ mtype h body, p = .control mtype h body → k.out = .message n mtype { h with ttl := ttl - 1 } body) ∧
            t.fab = s.fab ∧ t.cmds = s.cmds ∧ t.hbm = s.hbm)))

/-- R346, R348, R349, R363, R364: a peer abort seen for the first time ends its group's commands PEER_ABORT (0x07) and marks
the group; an acknowledgement ends the wait for it, a BUSY leaves it; an unacknowledged message goes out again as it was; a
remote request that is never answered ends its command. -/
def Obligations.FabricMessages : Prop :=
  ∀ (s : State) (port : Nat) (m : CtlHeader), NoTeardown s →
    (arrives s port m.dst m.src = true →
      (∀ aseq cause origin, answered s m.src m.mseq = none → origin ≠ s.fab.faddr → (origin, aseq) ∉ s.fab.aborts → m.job ≠ 0 →
        ∃ t, exec (.peerAbort port m aseq cause origin) s = .next t ∧ (origin, aseq) ∈ t.fab.aborts ∧
          t.fab.received = (s.fab.received + 1) % 2 ^ 32 ∧
          (∀ col ∈ coloniesOf s m.src, m.job ∈ (colAt t col).aborted) ∧
          ∀ id c, cmdAt s id = some c → id < s.nextCmd → c.colony ∈ coloniesOf s m.src → c.job = m.job →
            c.phase = .fetched → (∀ e ∈ s.cmds, e.2.claimedBy ≠ some id) →
            ∃ k, cmdAt t id = some k ∧ k.phase = .done ∧ k.status = 0x07) ∧
      (∀ mseq status x, s.fab.unacked.find? (fun y => y.mseq == mseq && y.dst == m.src) = some x →
        (x.mtype = 0x13 → ∃ t, exec (.ack port m mseq status) s = .next t ∧ t.cmds = s.cmds ∧
          ∃ y ∈ t.fab.unacked, y = { x with acked := true }) ∧
        (∀ id c, x.mtype = 0x10 → status = 0 → x.cmd = some id → cmdAt s id = some c → c.phase = .started → Alone s id c →
          ∃ t, exec (.ack port m mseq status) s = .next t ∧ Ends s t id 0 0 0 ∧ ∀ y ∈ t.fab.unacked, y.mseq ≠ mseq) ∧
        (x.mtype = 3 ∨ x.mtype = 4 → ∃ t, exec (.ack port m mseq status) s = .next t ∧ t.cmds = s.cmds ∧
          (∀ y ∈ t.fab.unacked, y.mseq ≠ mseq) ∧ ∀ col, mseq ∉ (colAt t col).awaiting))) ∧
    (∀ mseq, arrives s port m.dst m.src = true →
      ∃ t, exec (.busy port m mseq) s = .next t ∧ 
        t = { s with fab := { s.fab with unacked := s.fab.unacked.map (fun x => if x.mseq = mseq ∧ x.dst = m.src then { x with busy := true } else x) } }) ∧
    (∀ x mseq, serving s = true → s.fab.unacked.find? (fun y => y.mseq == mseq && !y.acked) = some x →
      let h : CtlHeader := { dst := x.dst, src := s.fab.faddr, ttl := s.fab.diameter, scol := x.scol, instar := x.instar, job := x.job, mseq := x.mseq }
      ∃ t, exec (.controlRetransmit mseq) s = .next t ∧ t.cmds = s.cmds ∧
        t.fab = { s.fab with unacked := s.fab.unacked.map (fun y => if y.mseq = mseq then { y with busy := false } else y) } ∧
        (x.dst = s.fab.faddr → t.out = s.out ++ [.message 16 x.mtype h x.body]) ∧
        (∀ n, route s (messageColony x.mtype x.scol) 0 s.fab.faddr x.dst x.job = .port n →
          ∃ k, (k ∈ (portAt t n).txQueue ∨ k ∈ (portAt t n).sent) ∧ k.vl = 0 ∧ k.out = .message n x.mtype h x.body)) ∧
    (∀ tag mseq r, serving s = true → tag < 4096 → (portAt s port).reqs.find? (fun q => q.tag == tag) = some r →
      (r.waiting = true → exec (.fabricTimeout port tag mseq) s = .next s) ∧
      (∀ c, r.waiting = false → cmdAt s r.cmd = some c → c.phase = .running → runningCores s r.cmd c = [] → c.job ≠ 0 →
        ∃ t k, exec (.fabricTimeout port tag mseq) s = .next t ∧ cmdAt t r.cmd = some k ∧ k.phase = .done ∧ k.status = 0x07 ∧
          c.job ∈ (colAt t c.colony).aborted)) ∧
    (∀ tag mseq x id c, serving s = true → 4096 ≤ tag → s.fab.unacked.find? (fun y => y.mseq == mseq) = some x →
      x.mtype = 0x10 ∨ x.mtype = 0x12 ∨ x.mtype = 0x13 → x.cmd = some id → cmdAt s id = some c → c.phase = .started →
      runningCores s id c = [] → (∀ e ∈ s.cols, mseq ∉ e.2.awaiting) →
      ∃ t k, exec (.fabricTimeout port tag mseq) s = .next t ∧ cmdAt t id = some k ∧ k.phase = .done ∧ k.status = 0x07)

/-- R148, R285 to R290, R295, R300, R301, R304 to R306: MAP and SYNC_TABLE make their pages' entries valid at once where
nothing is withdrawn; UNMAP clears its pages, every core forgets them, and the command completes when the drain ends; a walk
fills the agent's translation cache, or opens a record that the agent waits on; a record that times out ends its waiter's
command TRANSLATION_FAULT (0x03); compaction exchanges a page's frame. -/
def Obligations.MappingsChange : Prop :=
  ∀ (s : State) (id : Nat) (c : Cmd), cmdAt s id = some c → serving s = true →
    let col := colAt s c.colony
    let added (l : List PageEntry) : List Pte := l.filterMap (fun e => if (leafAt col e.1 c.pgSize).isNone then e.2 else none)
    let fits (l : List PageEntry) : Prop :=
      pageRows col l = none ∧ (∀ e ∈ l, withdraws col c.pgSize e = false) ∧
      (∀ e ∈ l, ∀ p, e.2 = some p → p.va = e.1 ∧ p.size = c.pgSize) ∧
      addedNeed s c.colony (added l) = [] ∧ (placeTables col ((added l).flatMap tablesFor)).isSome = true
    let mapped (t : State) (l : List PageEntry) : Prop :=
      (∀ e ∈ l, leafAt (colAt t c.colony) e.1 c.pgSize = e.2) ∧
      (∀ q ∈ col.ptes, (∀ e ∈ l, q.va ≠ e.1 ∨ q.size ≠ c.pgSize) → q ∈ (colAt t c.colony).ptes) ∧
      Ends s t id 0 0 (l.filter (changes col c.pgSize)).length
    (canStart s id c = true → Alone s id c → c.stage = 0 →
      (c.op = 0x40 → worst (mapFields c) = none → fits (mapEntries c) →
        ∃ t, exec (.map id) s = .next t ∧ mapped t (mapEntries c)) ∧
      (∀ b, c.op = 0x42 → c.isHost 24 = true → b.length = 8 * c.pgCount → runOver c.pgVa c.pgBytes c.pgCount (2 ^ 48) = [] →
        let raw := words8 c.pgCount b
        let l := (enumNat raw).map (fun e => hostEntry (c.pgVa + e.1 * c.pgBytes) e.2)
        raw.all (hostEntryOk c.pgSize) = true → fits l →
        ∃ t, exec (.syncTable id (some b)) s = .next t ∧ mapped t l ∧
          (acctAt t c.colony).hostIn = ((acctAt s c.colony).hostIn + 8 * c.pgCount) % 2 ^ 64) ∧
      (c.op = 0x41 → (c.byte 37 1).testBit 0 = false → conflicted s id c = false → col.wdBusy = none →
        let mine (p : Pte) : Prop := p.size = c.pgSize ∧ c.pgVa ≤ p.va ∧ p.va < c.pgVa + c.pgCount * c.pgBytes
        ∃ t k, exec (.unmap id) s = .next t ∧ cmdAt t id = some k ∧ k.phase = .started ∧ k.stage = 2 ∧
          (∀ p, p ∈ (colAt t c.colony).ptes ↔ p ∈ col.ptes ∧ ¬ mine p) ∧ (colAt t c.colony).wdBusy = some id ∧
          (colAt t c.colony).epoch = !col.epoch ∧
          (∀ va q, leafAt col va c.pgSize = some q → mine q → ∀ n, ∀ e ∈ (coreAt t n).tc, e.colony = c.colony →
            onPage q.dpa (pageBytes q.size) e.dpa (pageBytes e.size) = false) ∧ t.hbm = s.hbm)) ∧
    (Alone s id c → c.phase = .started → col.wdBusy = some id → oldEpoch s c.colony = false →
      ∃ t, exec (.withdrawalDrainEnd id) s = .next t ∧ Ends s t id 0 0 c.result ∧ (colAt t c.colony).wdBusy = none ∧
        (colAt t c.colony).ptes = (c.pageList.foldl (putEntry c.pgSize) col).ptes) ∧
    (∀ n va w, n < 640 → 1 ≤ c.colony → c.colony ≤ 64 → va < 2 ^ 48 → (coreAt s n).cmd = some id → (coreAt s n).want = some (va, w) →
      agentWaits s n = false →
      let go : Instr := .translationWalk n c.colony va (if w then .write else .read) false
      let cached := walkerLeaf (meshAt s (n / 160)).wcache c.colony va
      (∀ p, leafFor col.ptes va = some p → (∀ q, cached = some q → q = p) →
        ∃ t, exec go s = .next t ∧ leafEntry p c.colony col.cur.instar ∈ (coreAt t n).tc ∧ (coreAt t n).want = none ∧
          (∀ m, m ≠ n → coreAt t m = coreAt s m) ∧ t.cmds = s.cmds ∧ t.hbm = s.hbm ∧ t.flt = s.flt ∧
          (cached = none → (meshAt t (n / 160)).walks = ((meshAt s (n / 160)).walks + 1) % 2 ^ 64) ∧ (cached ≠ none → t.mesh = s.mesh)) ∧
      (leafFor col.ptes va = none → cached = none → s.flt.recs = [] → 0 < col.fMax → c.dying = false →
        ∃ t r, exec go s = .next t ∧ tfind t.flt.recs 0 = some r ∧ r.xlt = true ∧ r.st = .opened ∧ r.va = va ∧ r.colony = c.colony ∧
          r.access = (if w then 2 else 1) ∧ r.waiters = [n] ∧ r.level = missLevel col va ∧
          (colAt t c.colony).faults = (col.faults + 1) % 2 ^ 32 ∧ t.cores = s.cores ∧ t.cmds = s.cmds)) ∧
    (∀ n va q, 640 ≤ n → n < 648 → 1 ≤ c.colony → c.colony ≤ 64 → va < 2 ^ 48 →
      let die := walkerDie n (leafFor col.ptes va)
      walkerLeaf (meshAt s die).wcache c.colony va = some q →
        ∃ t, exec (.translationWalk n c.colony va .read true) s = .next t ∧
          (meshAt t die).wparity = satInc 32 (meshAt s die).wparity ∧ t.cores = s.cores ∧ t.cmds = s.cmds ∧ t.hbm = s.hbm) ∧
    (∀ i r agent, tfind s.flt.recs i = some r → r.xlt = true → r.st = .opened → r.waiters = [agent] → agentCmd s agent = some id →
      c.phase = .running → c.job = 0 → allLines s = [] →
      ∃ t k q, exec (.translationRecordTimeout i) s = .next t ∧ tfind t.flt.recs i = some q ∧ q.st = .closed ∧ q.fin = 4 ∧
        q.status = 0x03 ∧ cmdAt t id = some k ∧
        (if runningCores s id c = [] then k.phase = .done ∧ k.status = 0x03 else k.phase = .killing ∧ k.after = some 0x03)) ∧
    (∀ dpa a, 1 ≤ c.colony → c.colony ≤ 64 → compactTo s c.colony dpa = some a →
      ∃ t, exec (.compaction c.colony dpa) s = .next t ∧
        (∀ x, x < movedSize col dpa → frameOf (colAt t c.colony) (dpa + x) = onChannel (dpa + x) (a / 65536 * 65536 + x)) ∧
        (∀ y, y < dpa ∨ dpa + movedSize col dpa ≤ y → frameOf (colAt t c.colony) y = frameOf col y) ∧
        (colAt t c.colony).ptes = col.ptes ∧ t.cmds = s.cmds)

/-- R194 to R218, R205 to R208, R212, R213: BIND claims free units and wipes them for their colony; UNBIND and REBIND claim
units of theirs and, once nothing of them runs, remove them under a new instar; a channel's wipe leaves its bytes 0 and
frees it or leaves it to its command; an old entry without requests retires; a leaving port is refreshed; a spare tile
takes a fenced core's number; a reset advances the instar and disables the colony's rings; a teardown of a colony that
holds nothing frees it; QUERY_MAP writes its 4,096-byte report. -/
def Obligations.ColoniesRecompose : Prop :=
  ∀ (s : State), serving s = true → NoTeardown s →
    (∀ id c, cmdAt s id = some c → canStart s id c = true → c.colField ≠ 0 → claimedElsewhere s id c = false →
      let us := namedUnits c.ind
      (c.op = 0x50 → bindOk s c = true → coresOf us = [] → portsOf us = [] → (∀ n ∈ channelsOf us, (chanAt s n).mode ≠ .fenced) →
        ∃ t k, exec (.bind id) s = .next t ∧ cmdAt t id = some k ∧ k.phase = .started ∧ k.stage = 2 ∧ k.units = us ∧
          (colAt t c.colField).st = .binding ∧ (colAt t c.colField).vf = c.byte 17 1 ∧ (colAt t c.colField).tenant = c.byte 18 1 ∧
          (∀ n ∈ channelsOf us, (chanAt t n).mode = .transit ∧ (chanAt t n).wipeBusy = true ∧ (chanAt t n).claim = some id) ∧
          (∀ n, n ∉ channelsOf us → chanAt t n = chanAt s n) ∧ t.hbm = s.hbm ∧ t.cores = s.cores) ∧
      (rebindOk s c = true → us ≠ [] → (∀ n ∈ coresOf us, (coreAt s n).st ≠ .running) →
        let claims (t : State) : Prop :=
          (∃ k, cmdAt t id = some k ∧ k.phase = .started ∧ k.stage = 1 ∧ k.units = us ∧
            k.result = (colAt s c.colField).cur.instar) ∧
          (∀ u ∈ us, claimOf t u = some id) ∧ (colAt t c.colField).recomposing = (colAt s c.colField).recomposing + 1 ∧ t.hbm = s.hbm
        (c.op = 0x51 → (c.byte 17 1).testBit 0 = false → ∃ t, exec (.unbind id) s = .next t ∧ claims t) ∧
        (c.op = 0x52 → ∃ t, exec (.rebind id) s = .next t ∧ claims t)) ∧
      (∀ col, col = colAt s c.colField → c.op = 0x51 → (c.byte 17 1).testBit 0 = true → Alone s id c → col.st = .active → col.stage = .none →
        advanceHeld col = false → col.cur.valid = true → col.cur.cores = [] → col.cur.channels = [] → col.cur.ports = [] →
        peerSet s c.colField = [] → col.peersAll = false → col.awaiting = [] → c.colony ≠ c.colField → c.page ≠ c.colField →
        (∀ e ∈ s.cmds, e.1 ≠ id → e.2.colony ≠ c.colField ∧ e.2.page ≠ c.colField ∧ e.2.op ≠ 0x50 ∧ e.2.op ≠ 0x51 ∧ e.2.op ≠ 0x52) →
        ∃ t k, exec (.teardown id) s = .next t ∧ (colAt t c.colField).st = .free ∧ (colAt t c.colField).ptes = [] ∧
          cmdAt t id = some k ∧ k.phase = .done ∧ k.status = 0 ∧ k.result = (col.cur.instar + 1) % 256 ∧ t.hbm = s.hbm)) ∧
    (∀ id c, cmdAt s id = some c → canStart s id c = true → Alone s id c → c.op = 0x53 →
      ∃ t d, exec (.queryMap id) s = .next t ∧ Ends s t id 0 0 4096 ∧ d.length = 4096 ∧
        t.out = s.out ++ [.hostWrite (pageOwner s c.page) (c.addr 24) d]) ∧
    (∀ id c, cmdAt s id = some c → c.phase = .started → c.stage = 2 → c.op = 0x50 → c.units = [] → Alone s id c →
      let col := colAt s c.colField
      let us := claimedUnits s id
      ∃ t k, exec (.mapUpdate id) s = .next t ∧ cmdAt t id = some k ∧ k.phase = .done ∧ k.status = c.status ∧
        k.result = (col.cur.instar + 1) % 256 ∧ (colAt t c.colField).st = .active ∧ (colAt t c.colField).cur.valid = true ∧
        (colAt t c.colField).cur.instar = (col.cur.instar + 1) % 256 ∧ (colAt t c.colField).old.valid = false ∧
        (colAt t c.colField).cur.cores = sortNat (col.cur.cores ++ coresOf us) ∧
        (colAt t c.colField).cur.channels = sortNat (col.cur.channels ++ channelsOf us) ∧
        (colAt t c.colField).cur.ports = sortNat (col.cur.ports ++ portsOf us) ∧
        (∀ n, (chanAt s n).claim = some id → (chanAt t n).colony = c.colField ∧ (chanAt t n).claim = none) ∧ t.hbm = s.hbm) ∧
    (∀ id c n col, cmdAt s id = some c → c.phase = .started → c.stage = 1 → c.op = 0x51 → c.units = [.channel n] → c.colField ≠ 0 →
      reclaimWaits s c.colField = false → tablesFit s c = true →
      col = colAt s c.colField → advanceHeld col = false → col.cur.valid = true → n ∈ col.cur.channels → (chanAt s n).mode ≠ .fenced →
      ∃ t k, exec (.mapUpdate id) s = .next t ∧ cmdAt t id = some k ∧ k.stage = 2 ∧ k.result = (col.cur.instar + 1) % 256 ∧
        (colAt t c.colField).cur.instar = (col.cur.instar + 1) % 256 ∧
        (colAt t c.colField).cur.channels = col.cur.channels.filter (fun m => m != n) ∧
        (colAt t c.colField).old.instar = col.cur.instar ∧ (colAt t c.colField).old.valid = true ∧
        (chanAt t n).mode = .transit ∧ (chanAt t n).wipeBusy = false ∧ (chanAt t n).colony = 0 ∧ t.hbm = s.hbm) ∧
    (∀ n, (colAt s n).st = .active → advanceHeld (colAt s n) = true → inflightOld s n = 0 →
      ∃ t, exec (.oldEntryRetire n) s = .next t ∧ (colAt t n).old.valid = false ∧ (colAt t n).cur = (colAt s n).cur ∧
        (∀ ch, (chanAt s ch).mode = .transit → (chanAt s ch).awaits = some n →
          (chanAt t ch).wipeBusy = true ∧ (chanAt t ch).awaits = none) ∧ t.cmds = s.cmds ∧ t.hbm = s.hbm) ∧
    (∀ n, n < 512 → (chanAt s n).mode = .transit → (chanAt s n).wipeBusy = true → (chanAt s n).rewipe = false →
      (chanAt s n).retraining = false →
      let wiped (t : State) : Prop :=
        (∀ off, off < 2 ^ 31 → mget t.hbm (hbmKey n off) = 0) ∧
        (∀ a, ¬ (hbmKey n 0 ≤ a ∧ a < hbmKey (n + 1) 0) → mget t.hbm a = mget s.hbm a) ∧ (chanAt t n).lines = [] ∧
        (chanAt t n).dir = [] ∧ (chanAt t n).badLines = [] ∧ (chanAt t n).remap = (chanAt s n).remap ∧ (chanAt t n).wipeBusy = false
      ((chanAt s n).claim = none →
        ∃ t, exec (.channelWipeDone n true) s = .next t ∧ wiped t ∧ (chanAt t n).mode = .inService ∧ (chanAt t n).colony = 0) ∧
      (∀ id c, (chanAt s n).claim = some id → cmdAt s id = some c → c.toField ≠ 0 →
        ∃ t k, exec (.channelWipeDone n true) s = .next t ∧ wiped t ∧ (chanAt t n).mode = .transit ∧ cmdAt t id = some k ∧
          k.units = c.units.filter (fun u => u != .channel n))) ∧
    (∀ n, (portAt s n).leaving = true → (portAt s n).st = .active →
      ∃ t, exec (.portLeaveDrainEnd n) s = .next t ∧ (portAt t n).leaving = false ∧ (portAt t n).drain = [] ∧
        (portAt t n).transit = true ∧ (portAt t n).refreshing = true ∧ (portAt t n).want = none ∧ (portAt t n).tc = [] ∧
        (portAt t n).heldTags = (portAt s n).heldTags ++ (portAt s n).drain.map (fun r => r.tag) ∧
        (∀ m, m ≠ n → portAt t m = portAt s m)) ∧
    (∀ n x, (coreAt s n).st = .fenced → (coreAt s n).replaceDue = true → n / 160 ∉ s.flt.quar →
      (∀ e ∈ s.cores, e.1 < n → e.1 / 160 = n / 160 → e.2.replaceDue = false) →
      nearestSpare (tget [] s.boot.spares (n / 160)) (coreAt s n).phys = some x →
      ∃ t, exec (.coreReplacement n) s = .next t ∧ (coreAt t n).phys = x ∧ (coreAt t n).colony = (coreAt s n).colony ∧
        (coreAt t n).st = (if (coreAt s n).colony = 0 then .idle else .bound) ∧ (coreAt t n).sp = [] ∧
        x ∉ tget [] t.boot.spares (n / 160) ∧ (∀ m, m ≠ n → coreAt t m = coreAt s m) ∧ t.hbm = s.hbm) ∧
    (∀ n, fnLive s .pf = true → 1 ≤ n → n ≤ 64 → (colAt s n).st = .active → advanceHeld (colAt s n) = false →
      (colAt s n).cur.valid = true → (∀ e ∈ s.cmds, e.2.colony ≠ n) →
      ∃ t, exec (.colonyReset n) s = .next t ∧ (colAt t n).st = .resetting ∧
        (colAt t n).cur.instar = ((colAt s n).cur.instar + 1) % 256 ∧ (colAt t n).old.instar = (colAt s n).cur.instar ∧
        (∀ r, r < 16 → (sqAt t n r).enable = false ∧ (sqAt t n r).st = .disabled ∧ (cqAt t n r).enable = false) ∧
        t.cmds = s.cmds ∧ t.hbm = s.hbm)

/-- R389 to R396, R403, R415: ATTEST writes 4,096 bytes, of which RESULT counts the evidence and its signature block, and
spends one lower-tree signature; KEY_LOAD makes an EMPTY slot LOADING, and its second event leaves it ACTIVE, or EMPTY on a
tag failure; KEY_RETIRE of a slot that nothing uses leaves it RETIRING until
the zeroise empties it and completes the command; a failing slot is taken over by a spare, and without one it is FAILED;
SEAL_SESSION writes its 3,544-byte blob and begins a session whose keys are fresh values. That the session's counters begin
at 0 is the model's choice (log entry 27); the values themselves are uninterpreted (log entries 4, 22). -/
def Obligations.KeysAndEvidence : Prop :=
  ∀ (s : State), NoTeardown s →
    let free (n : Nat) : Prop := (∀ e ∈ s.cols, e.2.keySlot ≠ n) ∧ (∀ e ∈ s.cmds, (e.2.op = 0x22 ∨ e.2.op = 0x23) → e.2.slot ≠ n)
    let reports (t : State) (c : Cmd) (off : Nat) (d : List Byte) : Prop :=
      ∃ ev, t.out = ev ++ [.hostWrite (pageOwner s c.page) (c.addr off) d] ∧ (s.sec.lmsLeft ≠ 1 → ev = s.out)
    let signs (t : State) : Prop := t.sec.lmsLeft = s.sec.lmsLeft - 1 ∧
      t.sec.lmsSigned = (if s.sec.lmsLeft = 0 then s.sec.lmsSigned else (s.sec.lmsSigned + 1) % 2 ^ 32)
    (∀ id c, cmdAt s id = some c → canStart s id c = true → Alone s id c →
      let n := c.keySlotNo
      (c.op = 0x60 → c.isHost 24 = true → treeReady s = true → s.sec.lmsLeft < 2 ^ 16 → c.pkt.length = 64 →
        ∃ t d, exec (.attest id) s = .next t ∧ Ends s t id 0 0 (if s.sec.lmsLeft = 0 then 612 else 3896) ∧ reports t c 24 d ∧ signs t ∧
          d.length = 4096 ∧ bytesAt d 0 4 = 0x56454245 ∧ bytesAt d 8 1 = lifecycle s ∧ bytesAt d 14 2 = t.sec.lmsLeft ∧
          (d.drop 256).take 32 = (c.pkt.drop 32).take 32) ∧
      (∀ blob, c.op = 0x61 → c.isHost 24 = true → blob.length = c.byte 32 2 → loadingSlot s id = none →
        (blobOk c blob = false → ∃ t, exec (.keyLoad id (some blob)) s = .next t ∧ Ends s t id 0x0A 0 0 ∧ t.sec = s.sec) ∧
        (blobOk c blob = true → keyLoadOk s c blob = false →
          ∃ t, exec (.keyLoad id (some blob)) s = .next t ∧ Ends s t id 0x0B 0 0 ∧ t.sec = s.sec) ∧
        (blobOk c blob = true → keyLoadOk s c blob = true →
          let wrapped := decide (bytesAt blob 6 1 = 1)
          ∃ t k, exec (.keyLoad id (some blob)) s = .next t ∧ cmdAt t id = some k ∧ k.phase = .started ∧ k.finished = false ∧
            loadingSlot t id = some n ∧
            slotAt t n = { slotAt s n with st := .loading, kind := c.keyKind, tenant := c.keyTenant, keyid := bytesAt blob 16 16
                                           key := if wrapped then (unwrap s blob).1 else BitVec.ofNat 256 (drawFree s).1
                                           stores := 0, cmd := some id, wrapped := wrapped, wrapOk := wrapped && (unwrap s blob).2 } ∧
            (∀ m, m ≠ n → slotAt t m = slotAt s m) ∧ t.cores = s.cores ∧ t.hbm = s.hbm)) ∧
      (c.op = 0x62 → (slotAt s n).st = .active → (slotAt s n).kind = c.keyKind →
        vfSlotOk s c (slotAt s n).kind (slotAt s n).tenant = true → free n →
        ∃ t k, exec (.keyRetire id) s = .next t ∧ slotAt t n = { slotAt s n with st := .retiring, cmd := some id } ∧
          (∀ m, m ≠ n → slotAt t m = slotAt s m) ∧ cmdAt t id = some k ∧ k.phase = .started ∧
          (∀ j, j ≠ id → cmdAt t j = cmdAt s j) ∧ t.cores = s.cores ∧ t.hbm = s.hbm) ∧
      (c.op = 0x62 → (slotAt s n).st ≠ .active → ∃ t, exec (.keyRetire id) s = .next t ∧ Ends s t id 0x0B 0 0 ∧ t.sec = s.sec) ∧
      (∀ blob, c.op = 0x63 → c.isHost 24 = true → c.isHost 32 = true → treeReady s = true → blob.length = 160 → hostBlobOk blob = true →
        ∃ t d, exec (.sealSession id (some blob)) s = .next t ∧ Ends s t id 0 0 0 ∧ reports t c 32 d ∧ signs t ∧ d.length = 3544 ∧
          bytesAt d 0 4 = 0x44534245 ∧ (colAt t c.colony).sealSess = some (0, 1) ∧
          (colAt t c.colony).sealKey = BitVec.ofNat 256 (Config.digest 15 (leBytes 32 (drawFree s).1 ++ blob)) ∧
          (colAt t c.colony).sealKeyOut = BitVec.ofNat 256 (Config.digest 16 (leBytes 32 (drawFree s).1 ++ blob)) ∧ t.free = s.free + 1)) ∧
    (∀ n id c blob, serving s = true → loadingSlot s id = some n → cmdAt s id = some c → c.finished = false → Alone s id c →
      (((slotAt s n).wrapped = true → (slotAt s n).wrapOk = true) →
        ∃ t, exec (.keyLoad id blob) s = .next t ∧ Ends s t id 0 0 0 ∧
          slotAt t n = { slotAt s n with st := .active, cmd := none, wrapped := false, wrapOk := false } ∧ ∀ m, m ≠ n → slotAt t m = slotAt s m) ∧
      ((slotAt s n).wrapped = true → (slotAt s n).wrapOk = false → c.job = 0 →
        ∃ t k, exec (.keyLoad id blob) s = .next t ∧ cmdAt t id = some k ∧ k.phase = .done ∧ k.status = 0x05 ∧
          slotAt t n = { assign := (slotAt s n).assign } ∧ ∀ m, m ≠ n → slotAt t m = slotAt s m)) ∧
    (∀ n id c, serving s = true → (slotAt s n).st = .retiring → slotInflight s n = 0 → (slotAt s n).cmd = some id → cmdAt s id = some c →
      c.finished = false → Alone s id c →
      ∃ t, exec (.keyZeroise n) s = .next t ∧ Ends s t id 0 0 0 ∧ slotAt t n = { assign := (slotAt s n).assign } ∧
        ∀ m, m ≠ n → slotAt t m = slotAt s m) ∧
    (∀ n, clocked s = true → n < 128 → (slotAt s n).st ≠ .failed →
      (0 < s.sec.spares → ∃ t, exec (.keySlotCheckFail n) s = .next t ∧ t.sec = { s.sec with spares := s.sec.spares - 1 } ∧
        t.cmds = s.cmds ∧ t.cols = s.cols) ∧
      (s.sec.spares = 0 → free n → (slotAt s n).cmd = none →
        ∃ t, exec (.keySlotCheckFail n) s = .next t ∧ slotAt t n = { slotAt s n with st := .failed, key := 0 } ∧
          (∀ m, m ≠ n → slotAt t m = slotAt s m) ∧ t.cmds = s.cmds ∧ t.hbm = s.hbm))

/-- R151, R413, R429 to R433: READ_FAULT writes the records that its ring may see and nothing of the others; SAMPLE of a running
attempt ends with its bytes counted and leaves every core's registers and scratchpad as they were; PERTURB sets or clears a
point, and is refused while perturbation is not enabled; a point's DURATION and a clear of EN clear points; an injection is
armed in FACTORY_TEST only. -/
def Obligations.FaultCommands : Prop :=
  ∀ (s : State),
    (∀ id c, cmdAt s id = some c → canStart s id c = true → Alone s id c →
      (c.op = 0x70 → c.isHost 24 = true →
        ∃ t d, exec (.readFault id) s = .next t ∧ Ends s t id 0 0 (c.byte 18 2) ∧
          t.out = s.out ++ [.hostWrite (pageOwner s c.page) (c.addr 24) d] ∧ d.length = 64 * c.byte 18 2 ∧
          ∀ i r, i < c.byte 18 2 → tfind s.flt.recs (c.byte 16 2 + i) = some r →
            (d.drop (64 * i)).take 64 = (if c.page = 0 ∨ r.colony = c.page then recBytes r else zeros 64)) ∧
      (∀ k x, c.op = 0x71 → sampleTarget s id c = some (k, x) → x.colony ≠ c.colony →
        ∃ t, exec (.sample id) s = .next t ∧ Ends s t id 0x0A 3 0) ∧
      (∀ k x fs col, c.op = 0x71 → sampleTarget s id c = some (k, x) → x.colony = c.colony → x.isLaunch = true → x.phase = .running →
        let sc := { c with regions := [(c.byte 24 8, 65536 * x.cores.length)] }
        destOk (setCmd s id sc) sc = true → conflicted (setCmd s id sc) id sc = false →
        reserveOf (colAt s c.colony) (needOf (touchedPages (colAt s c.colony) sc.regions)) = .taken fs col →
        ∃ t y, exec (.sample id) s = .next t ∧ cmdAt t id = some y ∧ y.phase = .ended ∧ y.result = 65536 * x.cores.length ∧
          (∀ j, j ≠ id → cmdAt t j = cmdAt s j) ∧ ∀ n, coreAt t n = { coreAt s n with dc := (coreAt t n).dc }) ∧
      (c.op = 0x72 →
        (s.flt.pctlEn = false → ∃ t, exec (.perturb id) s = .next t ∧ Ends s t id 0x0B 0 0 ∧ t.flt.gnats = s.flt.gnats) ∧
        (s.flt.pctlEn = true →
          ∃ t, exec (.perturb id) s = .next t ∧ Ends s t id 0 0 0 ∧
            tfind t.flt.gnats (c.byte 16 1) = (if c.byte 17 1 % 8 = 0 then none else some ⟨c.byte 17 1 % 8, c.byte 20 4, c.byte 24 4, s.ticks⟩) ∧
            ∀ p, p ≠ c.byte 16 1 → tfind t.flt.gnats p = tfind s.flt.gnats p))) ∧
    (serving s = true → ∀ p g, tfind s.flt.gnats p = some g → 0 < g.duration →
      ∃ t, exec (.perturbExpiry p) s = .next t ∧ tfind t.flt.gnats p = none ∧ (∀ q, q ≠ p → tfind t.flt.gnats q = tfind s.flt.gnats q) ∧
        { t with flt := s.flt } = s) ∧
    (serving s = true → fnLive s .pf = true → ∀ v : Word,
      ∃ t, exec (.perturbEnableWrite v) s = .next t ∧ t.flt.pctlEn = v.getLsbD 0 ∧
        t.flt.gnats = (if v.getLsbD 0 then s.flt.gnats else []) ∧ { t with flt := s.flt } = s) ∧
    (fnLive s .pf = true → s.flt.fatal = false → ∀ v : Word, v.getLsbD 32 = true →
      let kind := v.toNat % 16
      let n := v.toNat / 2 ^ 16 % 2 ^ 10
      (lifecycle s = 1 → 1 ≤ kind → kind ≤ 11 → targetOk kind n = true → s.flt.armed.contains (kind, n) = false →
        (7 ≤ kind → holdsWork s kind n = true) →
        ∃ t, exec (.inject v) s = .next t ∧ t.flt.armed = s.flt.armed ++ [(kind, n)] ∧ { t with flt := s.flt } = s) ∧
      (lifecycle s ≠ 1 → exec (.inject v) s = .next s))

/-- R410 to R412, R416 to R421, R425: an engine without progress for the hang window is reset, its command's attempt killed
and rerun, at the third such fault ended HANG (R156), and a channel is fenced, as INSTAR_STUCK where it holds requests of an old
instar (R200); a reset that ends returns the engine, one that does not end fences it; a
lost control core gives its work to a standby; a reaction window that ends, or a FENCE, fences the record's unit, and a KEEP
closes the record and restarts the count; a quarantine without confirmation and a failed self-check stop the device; ALIVE
toggles. The record of a fault is taken at the entry that R412 names. -/
def Obligations.HangsAndReactions : Prop :=
  ∀ (s : State), serving s = true → NoTeardown s →
    let idle : Prop := ∀ e ∈ s.flt.recs, e.2.st.live = false
    let recorded (t : State) (cause severity : Nat) (u : UnitRef) (st : RecState) : Prop :=
      idle → ∀ i, recEntry s.flt.recs = some i → ∃ r, tfind t.flt.recs i = some r ∧ r.cause = cause ∧ r.severity = severity ∧ r.unit = u ∧ r.st = st
    let stopped (t : State) (cause : Nat) : Prop :=
      t.flt.fatal = true ∧ t.flt.stopCause = cause ∧ t.flt.alive = some false ∧ t.flt.toggling = false ∧ t.cores = s.cores ∧ t.hbm = s.hbm
    (∀ n id c, n < 640 → resetting s (.core n) = false → (coreAt s n).cmd = some id → cmdAt s id = some c → c.phase = .running → c.job = 0 →
      n ∈ runningCores s id c → holdsOld s n = false → cmdTranslating s id = false → atBarrier s n = false →
      ∃ t k, exec (.hangWindowExpiry (.core n)) s = .next t ∧ (coreAt t n).st = .killed ∧ recorded t 0x10 3 (.core n) .resetting ∧
        cmdAt t id = some k ∧ k.phase = .killing ∧ k.faultRuns = c.faultRuns + 1 ∧
        k.after = (if c.faultRuns + 1 < 3 then none else some 0x08)) ∧
    (∀ n, n < 512 → resetting s (.channel n) = false → (chanAt s n).mode ≠ .fenced → (chanAt s n).queue ≠ [] →
      ∃ t, exec (.hangWindowExpiry (.channel n)) s = .next t ∧ (chanAt t n).mode = .fenced ∧ (chanAt t n).dir = [] ∧ (chanAt t n).lines = [] ∧
        (∀ m, m ≠ n → chanAt t m = chanAt s m) ∧ recorded t (if channelHoldsOld s n then 0x15 else 0x13) 4 (.channel n) .fenced ∧ t.cores = s.cores ∧ t.hbm = s.hbm) ∧
    (∀ n, resetting s (.copyEngine n) = true →
      ∃ t, exec (.engineResetDone (.copyEngine n)) s = .next t ∧ (engineAt t n).inService = true ∧ resetting t (.copyEngine n) = false ∧
        (∀ m, m ≠ n → engineAt t m = engineAt s m) ∧ t.cmds = s.cmds ∧ t.cores = s.cores) ∧
    (∀ n, resetting s (.core n) = true → (coreAt s n).st ≠ .killed →
      ∃ t, exec (.engineResetDone (.core n)) s = .next t ∧ resetting t (.core n) = false ∧ (coreAt t n).st = (coreAt s n).st ∧
        (coreAt t n).tags = [] ∧ t.cmds = s.cmds) ∧
    (∀ n, resetting s (.core n) = true → (coreAt s n).st ≠ .fenced →
      ∃ t, exec (.engineResetTimeout (.core n)) s = .next t ∧ (coreAt t n).st = .fenced ∧ (coreAt t n).replacePending = true) ∧
    (∀ n k rest, ctrlAt s n = .active → ctrlIn s .standby = k :: rest → k ≠ n →
      ∃ t, exec (.watchdogExpiry n) s = .next t ∧ ctrlAt t n = .fenced ∧ ctrlAt t k = .active ∧ t.flt.fatal = false ∧
        t.flt.degraded = (s.flt.degraded || decide ((ctrlIn t .active).length < 6)) ∧ recorded t 0x14 3 (.ctrlCore n) .fenced) ∧
    (∀ n, ctrlAt s n = .standby → ctrlIn s .active ≠ [] →
      ∃ t, exec (.controlCoreUncorrectableError n) s = .next t ∧ ctrlAt t n = .fenced ∧ (∀ m, m ≠ n → ctrlAt t m = ctrlAt s m) ∧
        t.flt.fatal = false ∧ recorded t 0x23 4 (.ctrlCore n) .fenced) ∧
    (∃ t, exec .collectorSelfCheckFailure s = .next t ∧ stopped t 0x52) ∧
    (∀ d, (tfind s.flt.quarPending d).isSome = true → ∃ t, exec (.quarantineTimeout d) s = .next t ∧ stopped t 0x50) ∧
    (∀ i r n, i < 512 → tfind s.flt.recs i = some r → r.st = .window → r.xlt = false → r.unit = .channel n → (chanAt s n).mode ≠ .fenced →
      let fences (t : State) : Prop :=
        (chanAt t n).mode = .fenced ∧ (∀ m, m ≠ n → chanAt t m = chanAt s m) ∧ tfind t.flt.recs i = some { r with st := .fenced } ∧ t.hbm = s.hbm
      (∃ t, exec (.reactionWindowExpiry i) s = .next t ∧ fences t) ∧
      (fnLive s .pf = true →
        (∃ t, exec (.fltAckFence i) s = .next t ∧ fences t) ∧
        (∃ t, exec (.fltAckKeep i) s = .next t ∧ tfind t.flt.recs i = some { r with st := .closed } ∧
          chanAt t n = { chanAt s n with ueFaults := 0 } ∧ (∀ m, m ≠ n → chanAt t m = chanAt s m) ∧
          (∀ j, j ≠ i → tfind t.flt.recs j = tfind s.flt.recs j) ∧ t.cores = s.cores ∧ t.hbm = s.hbm))) ∧
    (∀ i n, 512 ≤ i → s.flt.unrecordedWin[i - 512]? = some (.channel n) → (chanAt s n).mode ≠ .fenced →
      ∃ t, exec (.reactionWindowExpiry i) s = .next t ∧ (chanAt t n).mode = .fenced ∧
        t.flt.unrecordedWin = s.flt.unrecordedWin.eraseIdx (i - 512) ∧ t.hbm = s.hbm) ∧
    (s.flt.toggling = true →
      let level := !(s.flt.alive.getD false)
      ∃ t, exec .aliveToggle s = .next t ∧ t.flt = { s.flt with alive := some level, beats := (s.flt.beats + 1) % 2 ^ 32 } ∧
        t.out = s.out ++ [.alive level] ∧ { t with flt := s.flt, out := s.out } = s)

/-- R192, R258 to R260, R440 to R454, R457, R462, R471: a window boundary puts waiting configuration in force, counts the
energy, records the misses and evaluates the dies, each of which steps at most once; a voltage reached raises the divider; a
droop trip lowers it and begins a hold, whose end steps toward the planned target; a rail, a PLL, a sense alarm, a thermal
trip and the coolant act as their rules say. Sensor readings come with the command (log entry 24). -/
def Obligations.PowerAndCooling : Prop :=
  ∀ (s : State), clocked s = true → NoTeardown s →
    let onlyDie (t : State) (d : Nat) (p : DiePower) : Prop :=
      dieAt t d = p ∧ (∀ e, e ≠ d → dieAt t e = dieAt s e) ∧ { t with pwr := { t.pwr with dies := s.pwr.dies } } = s
    let stopped (t : State) (cause : Nat) : Prop := t.flt.fatal = true ∧ t.flt.stopCause = cause ∧ t.flt.alive = some false ∧ t.hbm = s.hbm
    let quarantined (t : State) (d : Nat) : Prop :=
      d ∈ t.flt.quar ∧ (dieAt t d).mode = .stopped ∧ (∀ i, i < 160 → (coreAt t (160 * d + i)).st = .fenced) ∧
      (∀ i, i < 128 → (chanAt t (128 * d + i)).mode = .fenced) ∧ ∀ i, i < 4 → (portAt t (4 * d + i)).st = .fenced ∨ (portAt t (4 * d + i)).st = .disabled
    let dark (t : State) : Prop := ∀ d, d < 4 → (dieAt t d).mode = .stopped ∧ (dieAt t d).pstate = 4
    (∀ r lm pm, ∃ t, exec (.windowBoundary r lm pm) s = .next t ∧
      t.hub.windows = (s.hub.windows + 1) % 2 ^ 32 ∧ t.hub.cold = s.hub.cold - 1 ∧ t.hub.classesNext = [] ∧ t.hub.regNext = none ∧
      (∀ m o p, s.hub.regNext = some (m, o, p) → t.hub.regMode = m ∧ t.hub.outLim = o ∧ t.hub.pMax = p) ∧
      (∀ c, (colAt t c).linkw = ((colAt s c).linkwNext).getD (colAt s c).linkw ∧ (colAt t c).linkwNext = none ∧
        (colAt t c).cold = (colAt s c).cold - 1) ∧
      t.pwr.energy = (s.pwr.energy + (r.energy.map (fun e => e.2)).sum) % 2 ^ 64 ∧
      (∀ d c, (d, c) ∈ lm → d < 4 → 1 ≤ c → c ≤ 64 → s.hub.cold = 0 → (colAt s c).cold = 0 → (meshAt t d).lmiss.getLsbD (c - 1) = true) ∧
      (∀ n, n < 16 → (n, false) ∈ pm → s.hub.cold = 0 → (colAt s (portAt s n).colony).cold = 0 → (portAt t n).missOwner = true) ∧
      (∀ d, d < 4 → (dieAt s d).pstate ≤ (dieAt t d).pstate ∧ (dieAt t d).pstate ≤ (dieAt s d).pstate + 1) ∧
      (s.boot.stage = .running → t.pwr.capUnmet = (decide (10 * s.pwr.cap < r.packageW) &&
        (List.range 4).all (fun d => (dieAt t d).mode == .stopped || (dieAt t d).pstate == 4))) ∧
      t.cores = s.cores ∧ t.cmds = s.cmds ∧ t.hbm = s.hbm) ∧
    (∀ d, let p := dieAt s d
      (p.mode = .raising → ∃ t, exec (.voltageReached d) s = .next t ∧
        onlyDie t d { p with pstate := p.pstate - 1, vstate := p.pstate - 1, mode := .steady, wait := 2 }) ∧
      ((p.mode = .steady ∨ p.mode = .raising) → ∃ t, exec (.droopTrip d) s = .next t ∧
        onlyDie t d (if p.pstate < 4 then { p with pstate := p.pstate + 1, wait := 2, mode := .hold, preTrip := p.pstate }
          else { p with gating := true, mode := .hold, preTrip := p.pstate })) ∧
      (∀ target, p.mode = .hold → p.wait = 0 →
        let goal := max (min target 4) p.preTrip
        let q := { p with gating := false, owed := false, mode := .steady }
        ∃ t, exec (.droopHoldExpiry d target) s = .next t ∧
          (goal = p.pstate → onlyDie t d q) ∧
          (p.pstate < goal → p.pstate < 4 → onlyDie t d { q with pstate := p.pstate + 1, vstate := p.pstate + 1, wait := 1 }) ∧
          (goal < p.pstate → p.vstate = p.pstate → onlyDie t d { q with mode := .raising })) ∧
      (d < 4 → d ∉ s.flt.quar → cutsOff (d :: s.flt.quar) = false →
        (∃ t, exec (.senseBelowMinimum d) s = .next t ∧ quarantined t d) ∧
        (∃ t, exec (.railOutOfTolerance d) s = .next t ∧ quarantined t d) ∧
        (s.boot.stage ≠ .hold → ∃ t, exec (.pllLockLoss d) s = .next t ∧ quarantined t d ∧
          t.pwr.rootLock = s.pwr.rootLock &&& ~~~(BitVec.ofNat 5 (2 ^ d))))) ∧
    (∀ rail, rail < 12 → ∃ t, exec (.railOutOfTolerance rail) s = .next t ∧
      t.pwr.railGood = s.pwr.railGood &&& ~~~(BitVec.ofNat 12 (2 ^ rail)) ∧ t.pwr.railFault = s.pwr.railFault ||| BitVec.ofNat 12 (2 ^ rail) ∧
      ((rail = 4 ∨ rail = 5 ∨ rail = 7 ∨ rail = 8) → stopped t 0x50) ∧
      ((rail = 9 ∨ rail = 10) → ∀ n, n < 16 → (portAt t n).st = .fenced ∨ (portAt t n).st = .disabled) ∧
      (rail = 6 → stopped t 0) ∧
      (rail = 11 → t.boot.link = false ∧ t.boot.removed = true ∧ ∀ page ring, (sqAt t page ring).enable = false)) ∧
    (s.boot.stage ≠ .hold → ∃ t, exec (.pllLockLoss 4) s = .next t ∧ stopped t 0x52) ∧
    (∀ d, d < 5 → s.boot.stage = .hold → ∃ t, exec (.pllLockLoss d) s = .next t ∧ t.boot.stage = .failed ∧ t.boot.refuse = 0x86 ∧ t.cores = s.cores) ∧
    (∀ n, s.pwr.trip = false → ∃ t, exec (.thermalTrip n) s = .next t ∧ t.pwr.trip = true ∧ dark t ∧ stopped t 0x53) ∧
    (∃ t, exec .coolantOkLow s = .next t ∧ t.pwr = { s.pwr with coolantOk := false } ∧ { t with pwr := s.pwr } = s) ∧
    (∃ t, exec .coolantOkHigh s = .next t ∧
      t.pwr = { s.pwr with coolantOk := true, lost := s.pwr.lost || (!s.pwr.coolantOk && pastCooling s) } ∧ { t with pwr := s.pwr } = s) ∧
    (pastCooling s = true → ∃ t, exec .coolantLoss s = .next t ∧ t.pwr.coolantOk = false ∧ dark t ∧ stopped t 0x53)

/-- R313 to R318, R330, R336, R338 to R340: a port goes DETECT, TRAIN, DISCOVER, AUTH, ACTIVE as presence, training, the
descriptor and authentication allow, is refused by name, fenced and taken back by the host; a failing lane gives its rank to
the spare or leaves; a lost partner takes it to DETECT, where the fourth departure within a second holds it. -/
def Obligations.PortJoin : Prop :=
  ∀ (s : State) (n : Nat), n < 16 → serving s = true → clocked s = true → fnLive s .pf = true → NoTeardown s →
    let p := portAt s n
    let event (t : State) : Prop := t.zlt.evSeq = (s.zlt.evSeq + 1) % 2 ^ 32
    let others (t : State) : Prop := ∀ m, m ≠ n → portAt t m = portAt s m
    let quiet (t : State) : Prop := p.bond = 0 → p.reqs = [] → others t
    let becomes (t : State) (q : Port) : Prop := OnlyPort s t n ∧ portAt t n = q
    let recent := s.ticks :: p.departures.filter (fun x => decide (s.ticks < x + secondTicks))
    let down (t : State) : Prop := (portAt t n).st = .detect ∧ (portAt t n).departures = recent ∧
      (portAt t n).holdoff = (p.holdoff || decide (4 ≤ recent.length)) ∧ event t ∧ quiet t
    (∀ v : Word, v.getLsbD 0 = true →
      ∃ t, exec (.portEnWrite n v) s = .next t ∧ becomes t { p with en := true, st := if p.st = .disabled then .detect else p.st }) ∧
    (∀ v : Word, v.getLsbD 0 = false → p.st ≠ .disabled →
      ∃ t, exec (.portEnWrite n v) s = .next t ∧ (portAt t n).en = false ∧ (portAt t n).st = .disabled ∧ quiet t) ∧
    (p.st ≠ .disabled →
      ∃ t, exec (.portFence n) s = .next t ∧ (portAt t n).st = .fenced ∧ quiet t ∧ event t ∧
        ((∀ e ∈ s.flt.recs, e.2.st.live = false) → ∀ i, recEntry s.flt.recs = some i →
          ∃ r, tfind t.flt.recs i = some r ∧ r.cause = 0x40 ∧ r.unit = .port n ∧ r.st = .fenced)) ∧
    (p.st = .fenced → ∃ t, exec (.portUnfence n) s = .next t ∧ becomes t { p with st := .detect }) ∧
    ((p.st = .train ∨ p.st = .discover ∨ p.st = .auth ∨ p.st = .refused) →
      ∃ t, exec (.portRetrain n) s = .next t ∧ becomes t (dropLink p .detect)) ∧
    (p.st = .active → (∃ t, exec (.portRetrain n) s = .next t ∧ down t) ∧ ∀ cause, ∃ t, exec (.lossOfPartner n cause) s = .next t ∧ down t) ∧
    (∀ cause, (p.st = .discover ∨ p.st = .auth ∨ p.st = .refused) →
      ∃ t, exec (.lossOfPartner n cause) s = .next t ∧ becomes t (dropLink p .detect)) ∧
    (∀ v : Word, ∃ t, exec (.eventRingEnable v) s = .next t ∧ { t with zlt := s.zlt } = s ∧ t.zlt.evEnable = v.getLsbD 4 ∧
      t.zlt.evVec = v.toNat / 2 ^ 5 % 2 ^ 6 ∧
      (s.zlt.evEnable = false → v.getLsbD 4 = true → t.zlt.evTail = 0 ∧ t.zlt.evPhase = true) ∧
      t.zlt.evLog2n = (if s.zlt.evEnable = false ∧ 6 ≤ v.toNat % 16 ∧ v.toNat % 16 ≤ 12 then v.toNat % 16 else s.zlt.evLog2n)) ∧
    (∀ lanes, p.st = .detect → p.holdoff = false → 4 ≤ lanes →
      ∃ t, exec (.partnerPresence n lanes) s = .next t ∧ becomes t (dropLink p .train)) ∧
    (∀ passed weakest, p.st = .train → passed.Nodup → (∀ l ∈ passed, l < 9) → weakest < 9 → p.peerDesc = [] →
      ∃ t, exec (.trainingDone n passed weakest) s = .next t ∧ others t ∧
        (if passed.length < 4 then (portAt t n).st = .detect ∧ event t
         else (portAt t n).st = .discover ∧
          (treeReady s = true → p.ownDesc = [] → ∃ nonce, (portAt t n).ownDesc = descriptor t n nonce ∧ (portAt t n).nonce = nonce ∧
            t.out = s.out ++ [.join n 4 (portAt t n).ownDesc]) ∧ (portAt t n).spare = (if passed.length = 9 then some weakest else none) ∧
          ∀ l, l ∈ (portAt t n).lanes ↔ (l ∈ passed ∧ ¬ (passed.length = 9 ∧ l = weakest)))) ∧
    (∀ failed, p.st = .train → ∃ t, exec (.trainTimeout n failed) s = .next t ∧ (portAt t n).st = .detect ∧ others t ∧ event t) ∧
    (∀ d : List Byte, p.st = .discover → ∃ t, exec (.discoveryDescriptor n d) s = .next t ∧ others t ∧
      (if descriptorOk d = true then
        (portAt t n).peerFaddr = bytesAt d 8 3 ∧ (portAt t n).peerPort = bytesAt d 6 1 % 16 ∧ (portAt t n).idhash = bytesAt d 16 48 ∧
        (portAt t n).peerValid = true ∧ (portAt t n).peerLms = (bytesAt d 11 1).testBit 0 ∧ (portAt t n).peerNonce = bytesAt d 64 32 ∧
        (treeReady s = true ∨ p.ownDesc ≠ [] → (portAt t n).st = .auth ∧ .join n 5 (leBytes 97 (portAt t n).ecdh ++ s.boot.chain) ∈ t.out) ∧
        (treeReady s = false → p.ownDesc = [] → (portAt t n).st = .discover)
       else (portAt t n).st = .refused ∧ event t)) ∧
    (∀ peerKey chainOk ecdsaOk lmsOk, p.st = .auth → treeReady s = true →
      (p.ownLms = true → s.sec.lmsLeft = 0 → ∃ t, exec (.authentication n peerKey chainOk ecdsaOk lmsOk) s = .next t ∧ (portAt t n).st = .refused) ∧
      ((p.ownLms = true → 0 < s.sec.lmsLeft) → p.transit = false →
        ∃ t, exec (.authentication n peerKey chainOk ecdsaOk lmsOk) s = .next t ∧ others t ∧
          .join n 5 (signatureBlock p.ownLms (transcript s p peerKey)) ∈ t.out ∧
          t.sec.lmsLeft = (if p.ownLms then s.sec.lmsLeft - 1 else s.sec.lmsLeft) ∧
          (authProblem s p chainOk ecdsaOk lmsOk = none →
            (portAt t n).st = .active ∧ (portAt t n).txSeq = 0 ∧ (portAt t n).rxSeq = 0 ∧ (portAt t n).kp = false ∧ (portAt t n).keysLive = 1 ∧
            (∀ vl, vl < 3 → tget 0 (portAt t n).credits vl = creditCap vl) ∧ (portAt t n).lastId = p.idhash ∧ t.free = s.free + 1 ∧
            (portAt t n).txKey = sessionKey s p (drawFree s).1 true ∧ (portAt t n).rxKey = sessionKey s p (drawFree s).1 false) ∧
          (authProblem s p chainOk ecdsaOk lmsOk ≠ none → (portAt t n).st = .refused ∧ t.free = s.free))) ∧
    (∀ lane, lane ∈ p.lanes →
      (∀ sp, p.spare = some sp → ∃ t, exec (.laneFailing n lane) s = .next t ∧ others t ∧ (portAt t n).st = p.st ∧
        (portAt t n).lanes = p.lanes.map (fun l => if l = lane then sp else l) ∧ (portAt t n).spare = none ∧
        lane ∈ (portAt t n).retraining ∧ event t) ∧
      (p.spare = none → 4 < p.lanes.length → ∃ t, exec (.laneFailing n lane) s = .next t ∧ others t ∧ (portAt t n).st = p.st ∧
        (portAt t n).lanes = p.lanes.filter (fun l => l != lane) ∧ lane ∈ (portAt t n).retraining ∧ event t) ∧
      (p.spare = none → p.lanes.length ≤ 4 → p.st = .active → ∃ t, exec (.laneFailing n lane) s = .next t ∧ down t)) ∧
    (∀ lane, lane ∈ p.retraining →
      (∃ t, exec (.laneRetrainDone n lane false) s = .next t ∧ others t ∧ lane ∈ (portAt t n).outLanes ∧ lane ∉ (portAt t n).retraining ∧
        (portAt t n).lanes = p.lanes) ∧
      ∃ t, exec (.laneRetrainDone n lane true) s = .next t ∧ others t ∧ lane ∉ (portAt t n).retraining ∧
        (if p.lanes.length < 8 then lane ∈ (portAt t n).lanes ∧ event t else (portAt t n).spare = some lane ∧ (portAt t n).lanes = p.lanes)) ∧
    (∃ t, exec (.detectHoldoffExpiry n) s = .next t ∧ becomes t { p with holdoff := false })

/-- R319, R320, R323, R326 to R332, R423: at an ACTIVE port a good flit takes the acknowledged ones out of the replay buffer
and is released in SEQ order, or held for it; a bad one is NAKed; a NAK resends what is still kept, as stored; credits are
returned, capped at their initial value; a rekey is announced, and acknowledged it inverts the key phase; a refreshed session
has fresh keys. -/
def Obligations.LinkFlits : Prop :=
  ∀ (s : State) (n : Nat), n < 16 → portsRun s = true → (portAt s n).st = .active → (5, n) ∉ s.flt.armed → (6, n) ∉ s.flt.armed →
    let p := portAt s n
    let sends (t : State) (l : List Out) : Prop := t.out = s.out ++ l ∧ (∀ m, m ≠ n → portAt t m = portAt s m) ∧ t.cmds = s.cmds ∧ t.hbm = s.hbm
    let kept (q : Port) (ack : Nat) : Prop := q.replayBuf = p.replayBuf.filter (fun f => !ackedSeq ack f.seq)
    -- one LINK flit of a port goes out now
    let links (q : Port) (kind : Nat) (body : List Nat) : List Out :=
      [.link n kind body, .flit n (linkFlit q kind body).lane (flitBytes (linkFlit q kind body) (ackOf p))]
    (∀ f : FlitIn, p.txQueue = [] → p.linkQueue = [] → p.replayBuf.length < 4094 → p.rxLanes ≠ [] →
      let g := (flitIn f).1
      let ack := (flitIn f).2
      let ahead := (g.seq + 8192 - p.rxSeq) % 8192
      let slot := f.slot % 8192
      let bad := 0 :: (bitsOf 8 f.along).filter (fun k => k != 0)
      let receives (q : State → Prop) : Prop := ∃ t, exec (.flitReceive n f) s = .next t ∧ q t
      let counted (t : State) (l : List Nat) : Prop := ∀ k ∈ l, tget 0 (portAt t n).fails (alongLane p slot k) = tget 0 p.fails (alongLane p slot k) + 1
      let within (l : List Nat) : Prop := ∀ k ∈ l, tget 0 p.fails (alongLane p slot k) + 1 < 8
      (f.uncorrectable = false → crcHolds f.bytes = false → within bad →
        receives (fun t => sends t (links p 2 [slot, bitMap bad]) ∧ counted t bad ∧ (portAt t n).rxSeq = p.rxSeq)) ∧
      (f.uncorrectable = true → within (List.range 10) →
        receives (fun t => sends t (links p 2 [slot, 255] ++ links { p with txSeq := (p.txSeq + 1) % 8192 } 2 [alongLane p slot 8, 3]) ∧
          counted t (List.range 10) ∧ (portAt t n).rxSeq = p.rxSeq ∧ (portAt t n).uncorr = satInc 16 p.uncorr)) ∧
      (f.uncorrectable = false → crcHolds f.bytes = true →
        ((g.kind = 0 ∨ 4 < g.kind) → receives (fun t => sends t [] ∧ kept (portAt t n) ack ∧ (portAt t n).rxSeq = p.rxSeq)) ∧
        (g.kind = 4 → ahead = 0 → p.rxHold = [] →
          receives (fun t => sends t [] ∧ kept (portAt t n) ack ∧ (portAt t n).rxSeq = (p.rxSeq + 1) % 8192 ∧
            (∀ x r, f.link = 4 :: x :: r → (portAt t n).rxNext = some (nextKey p.rxKey)))) ∧
        (g.kind = 3 → g.vl = 0 → ahead = 0 → p.rxHold = [] → tget [] p.rxQueue 0 = [] → tget 0 p.owed 0 + 1 < 32 →
          (sealHolds (beginPacket p g) [g] = true →
            receives (fun t => sends t [] ∧ kept (portAt t n) ack ∧ (portAt t n).rxSeq = (p.rxSeq + 1) % 8192 ∧
              tget 0 (portAt t n).owed 0 = tget 0 p.owed 0 + 1 ∧ tget [] (portAt t n).rxQueue 0 = [])) ∧
          (sealHolds (beginPacket p g) [g] = false → f.signal = true → p.departures = [] → NoTeardown s →
            receives (fun t => (portAt t n).st = .discover ∧ (portAt t n).lanes = p.lanes ∧ t.zlt.evSeq = (s.zlt.evSeq + 1) % 2 ^ 32))) ∧
        ((g.kind = 1 ∨ g.kind = 2 ∨ g.kind = 3) → g.vl < 3 → 0 < ahead → ahead < 4096 → (∀ x ∈ p.rxHold, x.seq ≠ g.seq) →
          receives (fun t => sends t [] ∧ kept (portAt t n) ack ∧ (portAt t n).rxSeq = p.rxSeq ∧ (portAt t n).rxHold = p.rxHold ++ [g])))) ∧
    (∀ base mask,
      let names := ((List.range 8).filter (fun k => k == 0 || mask.testBit k)).map (fun k => (base + k * p.lanes.length) % 8192)
      let again := names.filterMap (fun q => p.replayBuf.find? (fun f => f.seq == q))
      let urgent := (again.filter (fun f => f.vl == 0 && f.kind != 4)).length
      let q := { p with replays := satAdd 16 p.replays again.length }
      ∃ t, exec (.nak n base mask) s = .next t ∧ sends t (again.map (fun f => .flit n f.lane (flitBytes f (ackOf p)))) ∧
        portAt t n = (if urgent = 0 then q else noteVl0 q s.ticks urgent false)) ∧
    (p.linkQueue = [] → p.txQueue = [] →
      (∀ vl credits, vl < 3 →
        ∃ t, exec (.creditReturn n vl credits) s = .next t ∧ OnlyPort s t n ∧
          portAt t n = { p with credits := (portAt t n).credits } ∧
          tget 0 (portAt t n).credits vl = min (creditCap vl) (tget 0 p.credits vl + credits) ∧
          ∀ v, v ≠ vl → tget 0 (portAt t n).credits v = tget 0 p.credits v) ∧
      (∀ vl, 0 < tget 0 p.owed vl → p.replayBuf.length < 4096 →
        ∃ t, exec (.creditReturnTimer n vl) s = .next t ∧ sends t (links p 1 [vl, tget 0 p.owed vl]) ∧ tget 0 (portAt t n).owed vl = 0 ∧
          (portAt t n).txSeq = (p.txSeq + 1) % 8192 ∧ (portAt t n).credits = p.credits) ∧
      (p.rekeying = false → p.keysLive = 1 → 2 ^ 32 - 2 ^ 24 ≤ p.keyFlits → p.replayBuf.length < 4096 →
        ∃ t, exec (.rekey n) s = .next t ∧ sends t (links p 4 [p.txKey.index + 1]) ∧ (portAt t n).rekeying = true ∧ (portAt t n).keysLive = 2 ∧
          (portAt t n).kp = p.kp) ∧
      (p.rekeying = true →
        ∃ t, exec (.rekeyAcknowledged n) s = .next t ∧ sends t [] ∧ (portAt t n).kp = !p.kp ∧ (portAt t n).rekeying = false ∧
          (portAt t n).keyFlits = 0 ∧ (portAt t n).packets = 0 ∧ (portAt t n).txKey = nextKey p.txKey)) ∧
    (serving s = true → p.refreshing = true → p.transit = false → p.rewipe = false →
      ∃ t, exec (.sessionRefreshDone n) s = .next t ∧ sends t [] ∧ (portAt t n).refreshing = false ∧ (portAt t n).kp = !p.kp ∧
        (portAt t n).keyFlits = 0 ∧ (portAt t n).txKey = sessionKey s p (drawFree s).1 true ∧
        (portAt t n).rxNext = some (sessionKey s p (drawFree s).1 false) ∧ t.free = s.free + 1) ∧
    (∀ tag, ∃ t, exec (.tagHoldExpiry n tag) s = .next t ∧ OnlyPort s t n ∧ portAt t n = { p with heldTags := p.heldTags.erase tag })

/-- R459 to R472, R475, R480 to R484: a device reset keeps the fuses and the pins and leaves everything else as at power-up; the
boot goes HOLD, WAIT_BUNDLE, READY, START, RUNNING, with the code of what stops it; a lost link disables every ring; functions
are enabled, reset, put to D3hot, and their pending vectors sent. -/
def Obligations.ResetBootAndHost : Prop :=
  ∀ (s : State),
    let fuses (t : State) : Prop := t.sec.lcSteps = s.sec.lcSteps ∧ t.sec.fuseSvn = s.sec.fuseSvn ∧ t.sec.boots = s.sec.boots ∧
      t.sec.spareRows = s.sec.spareRows ∧ t.sec.secret = s.sec.secret ∧ t.sec.idRoot = s.sec.idRoot ∧ t.sec.fwRoot = s.sec.fwRoot ∧
      t.sec.ownerRoot = s.sec.ownerRoot ∧ t.sec.mgmtRoots = s.sec.mgmtRoots
    let fresh (t : State) : Prop := t.cores = [] ∧ t.cmds = [] ∧ t.cols = [] ∧ t.chans = [] ∧ t.ports = [] ∧ t.hbm = [] ∧ t.mesh = [] ∧
      t.hub = {} ∧ t.zlt = {} ∧ t.fab = {} ∧ t.flt = {} ∧ t.mgt = {} ∧ t.pcie = {} ∧ t.sec.slots = [] ∧ t.sec.deviceKey = 0 ∧ fuses t
    let starts (t : State) : Prop := t.boot.inReset = false ∧ t.boot.stage = .hold ∧ t.boot.coolWait = true ∧ t.ticks = 0 ∧
      t.pwr.rootLock = 31 ∧ { t with boot := s.boot, pwr := s.pwr, ticks := s.ticks } = s
    let onlyBoot (t : State) : Prop := { t with boot := s.boot } = s
    let onlyPcie (t : State) : Prop := { t with pcie := s.pcie } = s
    (s.boot.perstLow = true → ∃ t, exec .powerOn s = .next t ∧ fresh t ∧ t.boot.powered = true ∧ t.boot.inReset = true ∧
      t.pwr.railGood = 0xFFF ∧ t.pwr.trip = false) ∧
    (∃ t, exec .perstNAssert s = .next t ∧ fresh t ∧ t.boot.perstLow = true ∧ t.boot.inReset = true ∧ t.pwr.trip = s.pwr.trip) ∧
    (s.boot.perstLow = true → s.boot.powered = true → ∃ t, exec .perstNRelease s = .next t ∧ starts t ∧ t.boot.perstLow = false) ∧
    (s.boot.powered = true → s.boot.perstLow = false → s.boot.inReset = false →
      (s.flt.fatal = false → s.boot.stage ≠ .failed → ∃ t, exec .hotReset s = .next t ∧ fresh t ∧ t.boot.hotHeld = true) ∧
      ((s.flt.fatal = true ∨ s.boot.stage = .failed) → ∃ t, exec .hotReset s = .next t ∧ t.boot.link = false ∧ t.boot.stage = s.boot.stage ∧
        { t with boot := s.boot, pcie := s.pcie } = s)) ∧
    (s.boot.hotHeld = true → s.boot.powered = true → s.boot.perstLow = false →
      ∃ t, exec .hotResetEnd s = .next t ∧ starts t ∧ t.boot.hotHeld = false) ∧
    (s.boot.link = true →
      (serving s = false → ∃ t, exec .surpriseRemoval s = .next t ∧ t.boot.link = false ∧ { t with boot := s.boot, pcie := s.pcie } = s) ∧
      (serving s = true → ∃ t, exec .surpriseRemoval s = .next t ∧ t.boot.link = false ∧ t.boot.removed = true ∧ fnLive t .pf = false ∧
        ∀ page ring, (sqAt t page ring).enable = false ∧ (cqAt t page ring).enable = false)) ∧
    (s.boot.powered = true → s.boot.inReset = false →
      (∃ t, exec .pcieLinkTrainingDone s = .next t ∧ t.boot.link = true ∧ onlyBoot t) ∧
      (∃ t, exec .configurationRetryEnd s = .next t ∧ t.boot.cfg = true ∧ onlyBoot t)) ∧
    (∀ pass fusesOk collectorOk rngOk burnOk boottag key, clocked s = true → s.boot.stage = .hold → s.pwr.coolantOk = true →
      boottag % 2 ^ 32 ≠ 0 →
      let good := (List.range 8).filter (fun k => pass.contains k)
      ∃ t, exec (.bootSelftest pass fusesOk collectorOk rngOk burnOk boottag key) s = .next t ∧
        (if good = [] then t.boot.stage = .failed ∧ t.boot.refuse = 0x81
         else if fusesOk = false then t.boot.stage = .failed ∧ t.boot.refuse = 0x82
         else if collectorOk = false then t.boot.stage = .failed ∧ t.boot.refuse = 0x83
         else if rngOk = false then t.boot.stage = .failed ∧ t.boot.refuse = 0x85
         else t.boot.stage = .waitBundle ∧ t.fab.bootTag = boottag % 2 ^ 32 ∧ t.flt.degraded = decide (good.length < 6) ∧
          t.sec.deviceKey = key ∧ t.mgt.link = true ∧
          (burnOk = true → t.sec.boots = (if s.sec.boots < 8192 then s.sec.boots + 1 else s.sec.boots)))) ∧
    (pastStep4 s = true → s.boot.treeDone = false → s.sec.lmsExhausted = false → ∃ t, exec .lowerTreeDone s = .next t ∧
      t.boot.treeDone = true ∧ t.sec.lmsLeft = 32768 ∧ (serving s = false → { t with boot := s.boot, sec := s.sec } = s) ∧
      (serving s = true → ∀ n, n < 16 → (portAt s n).st = .discover → (portAt s n).ownDesc = [] → (portAt t n).ownDesc ≠ [])) ∧
    (∀ tiles chs, pastStep4 s = true → s.boot.prepDone = false →
      ∃ t, exec (.bootPrepDone tiles chs) s = .next t ∧ t.boot.prepDone = true ∧
        (∀ d i, d < 4 → i < 160 →
          (∀ x, (passTiles tiles d)[i]? = some x → (coreAt t (160 * d + i)).phys = x ∧ (coreAt t (160 * d + i)).st = (coreAt s (160 * d + i)).st) ∧
          ((passTiles tiles d)[i]? = none → (coreAt t (160 * d + i)).st = .fenced)) ∧
        (∀ ch, ch ∈ chs → ch < 512 → (chanAt t ch).mode = .fenced) ∧
        (s.boot.stage = .ready → s.boot.ppr = [] → t.boot.stage = .start)) ∧
    (∀ v b, bootWritable s = true → v.getLsbD 0 = true →
      let d := padTo s.boot.len b.bytes
      ∃ t, exec (.bootGo v b) s = .next t ∧ t.mgt.upload = none ∧ t.boot.bundles = satInc 8 s.boot.bundles ∧
        (∀ code, bundleRefusal s b s.boot.len 0 = some code → t.boot.stage = .waitBundle ∧ t.boot.refuse = code ∧ t.sec = s.sec) ∧
        (bundleRefusal s b s.boot.len 0 = none → (t.boot.stage = .ready ∨ t.boot.stage = .start) ∧
          t.sec.measurement = measurementOf (sectionBytes d 4) ∧ t.sec.imageSvn = imageSvn (sectionBytes d 4) ∧
          t.pwr.vmin = pcalVmin (sectionBytes d 3) ∧ t.boot.chain = sectionBytes d 2)) ∧
    (∀ failed, clocked s = true → s.boot.stage = .ready → s.boot.prepDone = true → s.boot.pprRun = false → s.boot.ppr ≠ [] →
      ∃ t, exec (.bootPpr failed) s = .next t ∧ t.boot.stage = .start ∧ t.boot.pprRun = true ∧
        t.boot.pprDone + t.boot.pprFail = s.boot.ppr.length ∧ onlyBoot t) ∧
    (clocked s = true → s.boot.stage = .start → ∃ t, exec .bonorLoad s = .next t ∧ serving t = true ∧ t.flt.toggling = true ∧ t.hub.cold = 2 ∧
      t.cores = s.cores ∧ t.hbm = s.hbm) ∧
    (∀ v, cfgLive s (.vf v) = true → v ∉ s.pcie.flr → NoTeardown s →
      (s.cols.find? (fun e => e.2.vf == v && (e.2.st == .active || e.2.st == .resetting)) = none →
        ∃ t, exec (.vfFlr v) s = .next t ∧ tfind t.pcie.msix (v + 1) = none ∧ v + 1 ∉ t.pcie.d3 ∧
          (∀ e ∈ s.cols, e.2.vf = v → ∀ r, r < 16 → sqAt t e.1 r = {} ∧ cqAt t e.1 r = {}) ∧ t.cores = s.cores ∧ t.hbm = s.hbm) ∧
      (∀ n c, s.cols.find? (fun e => e.2.vf == v && (e.2.st == .active || e.2.st == .resetting)) = some (n, c) → serving s = true →
        1 ≤ n → c = colAt s n → c.st = .active → advanceHeld c = false → c.cur.valid = true → (∀ e ∈ s.cmds, e.2.colony ≠ n) →
        ∃ t, exec (.vfFlr v) s = .next t ∧ v ∈ t.pcie.flr ∧ (colAt t n).st = .resetting ∧ t.hbm = s.hbm)) ∧
    (∀ v n, serving s = true → v ∈ s.pcie.flr → (colAt s n).vf = v → (colAt s n).st = .resetting → (colAt s n).stage = .waitingPeers →
      (colAt s n).awaiting ≠ [] →
      ∃ t, exec (.flrWaitCut v) s = .next t ∧ (colAt t n).awaiting = [] ∧ (colAt t n).stage ≠ .waitingPeers) ∧
    (cfgLive s .pf = true → s.pcie.vfEnable = true → NoTeardown s → ∃ t, exec .vfEnableClear s = .next t ∧ t.pcie.vfEnable = false ∧
      t.pcie.ceasing = t.pcie.flr ∧ ∀ n, (colAt t n).vf = (colAt s n).vf) ∧
    (∀ n, cfgLive s .pf = true → s.pcie.vfEnable = false → n ≤ 64 →
      ∃ t, exec (.vfEnableSet n) s = .next t ∧ t.pcie.vfEnable = true ∧ t.pcie.numVfs = n ∧ onlyPcie t) ∧
    (∀ fn enter, cfgLive s fn = true → ∃ t, exec (.d3hot fn enter) s = .next t ∧ (fnIndex fn ∈ t.pcie.d3 ↔ enter = true) ∧ onlyPcie t) ∧
    (∀ fn vector, fnLive s fn = true → s.boot.stage = .running → vector ≤ maxVec fn →
      ∃ t, exec (.msiXVectorUnmask fn vector) s = .next t ∧ vector ∈ (msixAt t fn).unmasked ∧ vector ∉ (msixAt t fn).pend ∧
        t.out = s.out ++ (if (msixAt s fn).pend.contains vector then [.msix fn vector] else []))

/-- R376, R388, R405, R450, R486 to R492: the handshake opens a session; a sealed request of a session that has not been
answered yet is served and answered with its status; delayed actions are kept until their delay ends, then the fuses are
burned and the device is reset; the network answers. -/
def Obligations.Management : Prop :=
  ∀ (s : State), mgmtUp s = true →
    let live := s.mgt.sessions.filter (fun x => x.live)
    let owned := lifecycle s = 2 ∨ lifecycle s = 3
    -- a response of a message type, open or sealed within a session, in its datagrams
    let opens (t : State) (h : MgmtHeader) (ty status : Nat) (body : List Byte) : Prop :=
      ∃ ev, t.out = ev ++ [.mgmt h.session h.req status body (mgDatagrams none ty h.session 1 h.req status body)] ∧ s.out <+: ev
    (∀ h nonce peerKey, let h0 := { h with session := 0 }
      (¬ owned → ∃ t, exec (.helloA h nonce peerKey) s = .next t ∧ opens t h0 2 3 [] ∧ t.mgt = s.mgt) ∧
      (owned → 2 ≤ live.length → ∃ t, exec (.helloA h nonce peerKey) s = .next t ∧ opens t h0 2 2 [] ∧ t.mgt = s.mgt) ∧
      (owned → s.mgt.handshakeWait = 0 → live.length < 2 → ∃ t y, exec (.helloA h nonce peerKey) s = .next t ∧
        opens t h0 2 0 (leBytes 8 y.id ++ leBytes 32 y.nonceD ++ leBytes 97 y.ecdhPub) ∧ t.mgt.sessions = s.mgt.sessions ++ [y] ∧
        y.id = s.mgt.nextSession ∧ y.live = false ∧ y.nonceA = nonce % 2 ^ 256 ∧ y.peerKey = peerKey % 2 ^ 776 ∧ t.mgt.handshakeWait = 50000)) ∧
    (∀ h x chainOk sigOk, findSession s h.session = some x → x.live = false → treeReady s = true → owned →
      ((chainOk && sigOk) = false → ∃ t, exec (.authA h chainOk sigOk) s = .next t ∧ opens t h 4 5 [] ∧ findSession t h.session = none) ∧
      ((chainOk && sigOk) = true → live.length < 2 → ∃ t, exec (.authA h chainOk sigOk) s = .next t ∧
        opens t h 4 0 (s.boot.chain ++ signatureBlock (signDevice s).2 (mgTranscript x)) ∧
        findSession t h.session = some { x with live := true, rxKey := mgKey x 0, txKey := mgKey x 1 } ∧ t.sec.lmsLeft = s.sec.lmsLeft - 1)) ∧
    (∀ h : MgmtHeader, h.session = 0 → ∃ t, exec (.queryState h) s = .next t ∧
      opens t h 0x10 0 (leBytes 1 (lifecycle s) ++ leBytes 1 s.sec.lcSteps ++ leBytes 1 s.boot.stage.code ++ leBytes 3 s.fab.faddr ++
        leBytes 48 s.sec.idhash ++ leBytes 2 s.sec.boots ++ leBytes 8 (fltStatus s)) ∧ { t with out := s.out } = s) ∧
    (∀ h x, findSession s h.session = some x → x.live = true → seqOk x h = true → x.cache.find? (fun e => e.1 == h.req) = none →
      let answers (t : State) (ty status : Nat) (body : List Byte) : Prop :=
        (∃ ev, t.out = ev ++ [.mgmt h.session h.req status body (mgDatagrams (some x.txKey) ty h.session x.txSeq h.req status body)] ∧ s.out <+: ev) ∧
        ∃ y, findSession t h.session = some y ∧ y.cache = ((h.req, ty, status, body) :: x.cache).take 16
      (∀ from_ count, lifecycle s ≠ 4 → 1 ≤ count → count ≤ 512 → ∃ t, exec (.faultHistory h from_ count) s = .next t ∧
        answers t 0x50 0 ((historyRecs s from_ count).flatMap recBytes ++ historyRows s) ∧ t.flt = s.flt) ∧
      (s.flt.fatal = false → lifecycle s ≠ 4 →
        (inService s = true →
          (∀ n, 1 ≤ n → n ≤ 60 → ∃ t, exec (.getTelemetry h n) s = .next t ∧
            answers t 0x41 0 ((s.pwr.telemetry.take n).reverse.flatMap telemetryBytes) ∧ t.pwr = s.pwr) ∧
          (∃ t y, exec (.subscribe h) s = .next t ∧ answers t 0x42 0 [] ∧ findSession t h.session = some y ∧ y.pushes = 600) ∧
          (∀ cap, ∃ t, exec (.setPowerCap h cap) s = .next t ∧
            (if cap < 200 ∨ 400 < cap then answers t 0x40 4 [] ∧ t.pwr = s.pwr
             else answers t 0x40 0 (leBytes 2 cap) ∧ t.pwr = { s.pwr with cap := cap } ∧ t.mgt.noticeKind = 3)) ∧
          (∀ burnOk, s.sec.fuseSvn < s.sec.imageSvn → (burnOk = true ∨ 0 < s.sec.spareRows) →
            ∃ t, exec (.advanceSvn h burnOk) s = .next t ∧ answers t 0x24 0 (leBytes 1 s.sec.imageSvn) ∧ t.sec.fuseSvn = s.sec.imageSvn)) ∧
        (∀ nonce, owned → treeReady s = true → ∃ t body, exec (.mgmtAttest h nonce) s = .next t ∧ answers t 0x30 0 body ∧
          body.length = (if s.sec.lmsLeft = 0 then 612 else 3896) ∧ t.sec.lmsLeft = s.sec.lmsLeft - 1) ∧
        (∀ sources floor, beforeReady s = true → 1 ≤ sources → sources ≤ 3 → floor ≤ 64 →
          let p := BitVec.ofNat 2 sources
          ∃ t, exec (.setFwPolicy h sources floor) s = .next t ∧
            (if p &&& s.mgt.policySrc = p ∧ s.mgt.policyFloor ≤ floor then answers t 0x20 0 [] ∧ t.mgt.policySrc = p ∧ t.mgt.policyFloor = floor
             else answers t 0x20 3 [] ∧ t.mgt.policySrc = s.mgt.policySrc ∧ t.mgt.policyFloor = s.mgt.policyFloor)) ∧
        (waiting s = true →
          (∀ len, bundleLenOk len = true → ∃ t, exec (.bundleBegin h len) s = .next t ∧ answers t 0x21 0 [] ∧ t.mgt.upload = some len ∧ t.mgt.staging = []) ∧
          (∀ len off data, s.mgt.upload = some len → off % 64 = 0 → data.length ≤ 61440 → off + data.length ≤ len → Memory.wf s.mgt.staging = true →
            ∃ t, exec (.bundleData h off data) s = .next t ∧ answers t 0x22 0 [] ∧ mread t.mgt.staging off data.length = data ∧
              ∀ a, ¬ (off ≤ a ∧ a < off + data.length) → mget t.mgt.staging a = mget s.mgt.staging a) ∧
          (∀ b len, s.mgt.upload = some len → let got : Bundle := { b with readable := true, bytes := mread s.mgt.staging 0 len }
            ∃ t, exec (.bundleEnd h b) s = .next t ∧ t.mgt.upload = none ∧
              (∀ code, bundleRefusal s got len 1 = some code →
                answers t 0x23 1 (leBytes 1 code) ∧ t.boot.stage = .waitBundle ∧ t.boot.refuse = code ∧ t.sec = s.sec) ∧
              (bundleRefusal s got len 1 = none → answers t 0x23 0 [] ∧ (t.boot.stage = .ready ∨ t.boot.stage = .start) ∧
                t.sec.imageSvn = imageSvn (sectionBytes (padTo len got.bytes) 4) ∧
                t.sec.measurement = measurementOf (sectionBytes (padTo len got.bytes) 4)))) ∧
        (∀ ms, s.mgt.pending = none → ms ≤ 10000 →
          let waits (i : Instr) (ty : Nat) (a : MgmtAction) (kind : Nat) : Prop := ∃ t, exec i s = .next t ∧ answers t ty 0 [] ∧ t.mgt.pending = some a ∧
            t.mgt.noticeKind = kind ∧ t.mgt.noticeDelay = ms ∧ t.sec = s.sec
          waits (.mgmtReset h ms) 0x60 .reset 1 ∧ waits (.retire h ms) 0x72 .retire 2 ∧ (lifecycle s = 2 → waits (.transition h ms) 0x70 .transition 2) ∧
          ∀ root, lifecycle s = 3 → s.sec.lcSteps ≠ 9 → s.sec.mgmtRoots.length < 4 → waits (.handover h ms root) 0x71 (.handover root) 2))) ∧
    (∀ n x, findSession s n = some x → x.live = true → 0 < x.pushes → inService s = true → s.flt.fatal = false →
      ∃ t y, exec (.telemetryPush n) s = .next t ∧
      (let body := (s.pwr.telemetry.take 1).flatMap telemetryBytes
       t.out = s.out ++ [.mgmt n 0 0 body (mgDatagrams (some x.txKey) 0x42 n x.txSeq 0 0 body)]) ∧ findSession t n = some y ∧ y.pushes = x.pushes - 1) ∧
    (∀ n, ∃ t, exec (.mgmtSessionExpiry n) s = .next t ∧ findSession t n = none ∧ (∀ m, m ≠ n → findSession t m = findSession s m) ∧
      { t with mgt := s.mgt } = s) ∧
    (∀ h (k : Token) secret z, h.session = 0 → s.flt.fatal = false → lifecycle s ≤ 1 → s.mgt.pending = none → 1 ≤ k.kind → k.kind ≤ 3 →
      k.sigOk = true → k.burnOk = true → k.idhash = (if lifecycle s = 0 then 0 else s.sec.idhash) → k.boots = s.sec.boots → tokenFuses s k secret = some z →
      ∃ t, exec (.lcToken h k secret) s = .next t ∧ t.out = s.out ++ [.mgmt 0 h.req 0 [] (mgDatagrams none 0x11 0 1 h.req 0 [])] ∧ t.sec.lcSteps = (if k.kind = 3 then 16 else k.kind) ∧
        t.cores = [] ∧ t.cmds = [] ∧ t.hbm = []) ∧
    (∀ a, s.mgt.pending = some a → s.flt.fatal = false →
      ∃ t, exec (.mgmtDelayExpiry true) s = .next t ∧ t.sec.lcSteps = (lifecycled s.sec a).lcSteps ∧ t.sec.mgmtRoots = (lifecycled s.sec a).mgmtRoots ∧
        t.sec.secret = (lifecycled s.sec a).secret ∧ t.sec.boots = s.sec.boots ∧ t.cores = [] ∧ t.cmds = [] ∧ t.hbm = [] ∧ t.mgt = {}) ∧
    (∀ p, ∃ t, exec (.neighborDiscovery (some (linkLocal s)) p) s = .next t ∧
      t.out = s.out ++ [.net 1 (leBytes 16 (linkLocal s) ++ leBytes 6 (macAddr s))] ∧
      ∀ k, p = some k → t.mgt.addrs = insertNew s.mgt.addrs (k % 2 ^ 64 * 2 ^ 64 + interfaceId s)) ∧
    (∀ data, ∃ t, exec (.icmpv6Echo data) s = .next t ∧ t.out = s.out ++ [.net 2 data] ∧ { t with out := s.out } = s) ∧
    (∀ q, ∃ t, exec (.pauseFrame q) s = .next t ∧ t.mgt = { s.mgt with pause := q % 65536 } ∧ { t with mgt := s.mgt } = s)

/-- R11, R12, R38, R161, R180, R340, R370, R433, R479: what a host write of one register changes, by register: an unaligned
access or one of another width changes nothing; a field out of its range keeps its value; a W1C bit clears by a 1. -/
def Obligations.RegisterWrites : Prop :=
  ∀ (s : State) (v : Word), serving s = true → fnLive s .pf = true →
    let writes (off : Nat) (t : State) : Prop := exec (.registerWrite .pf 0 off v 8) s = .next t
    let f (hi lo : Nat) : Nat := v.toNat / 2 ^ lo % 2 ^ (hi - lo + 1)
    (∀ off size, off < 0x100000 → (size ≠ 8 ∨ off % 8 ≠ 0) → exec (.registerWrite .pf 0 off v size) s = .next s) ∧
    (∃ t, writes 0x0800 t ∧ { t with hub := s.hub } = s ∧
      t.hub = { s.hub with npLimit := if 1 ≤ f 10 0 ∧ f 10 0 ≤ 2000 then f 10 0 else s.hub.npLimit }) ∧
    (∀ c, c < 65 → ∃ t, writes (0x1000 + 8 * c) t ∧ { t with hub := s.hub } = s ∧
      limitOf t c = (if 1 ≤ f 11 0 ∧ f 11 0 ≤ 3840 then f 11 0 else limitOf s c) ∧ ∀ d, d ≠ c → limitOf t d = limitOf s d) ∧
    (∀ p, p < 16 → ∃ t, writes (0x40000 + 0x100 * p + 0x38) t ∧ OnlyPort s t p ∧
      portAt t p = { portAt s p with bond := if f 3 0 ≤ 8 then f 3 0 else (portAt s p).bond }) ∧
    (∀ i, i < 4096 → ∃ t, writes (0x38000 + 8 * i) t ∧ { t with fab := s.fab } = s ∧ tget 0 t.fab.routes i = v ∧
      ∀ j, j ≠ i → tget 0 t.fab.routes j = tget 0 s.fab.routes j) ∧
    (∀ n, n < 640 → ∃ t, writes (0x60000 + 0x100 * n + 0x18) t ∧ OnlyCore s t n ∧
      coreAt t n = { coreAt s n with err := (coreAt s n).err &&& ~~~(v.setWidth 8) }) ∧
    (∃ t, writes 0x1C000 t ∧ { t with flt := s.flt } = s ∧ t.flt.irqEn = v.getLsbD 0 ∧ t.flt.vec = f 6 1 ∧ t.flt.recs = s.flt.recs ∧
      t.flt.winMs = (if 1 ≤ f 14 8 ∧ f 14 8 ≤ 100 then f 14 8 else s.flt.winMs) ∧
      t.flt.hangWin = (if 1 ≤ f 25 16 ∧ f 25 16 ≤ 1000 then f 25 16 else s.flt.hangWin))

/-- R459, R469 and the reset columns of the register tables (R133, R161, R180, R181, R217, R261, R309, R340, R370, R406,
R433, R457, R493): the state after reset has them, and the byte memories are in canonical form. -/
def Obligations.ResetState : Prop :=
  let s := State.reset
  State.memWf s ∧ serving s = false ∧ s.cmds = [] ∧ s.hbm = [] ∧ (∀ n, coreAt s n = {}) ∧
  (∀ p r, (sqAt s p r).enable = false ∧ (sqAt s p r).st = .disabled ∧ (cqAt s p r).enable = false) ∧ (∀ c, limitOf s c = 256) ∧
  s.hub.npLimit = 100 ∧ (∀ c, (runCtlAt s c).slice = 20) ∧ s.hub.outLim = 64 ∧ s.hub.pMax = 64 ∧
  (∀ c, (colAt s c).st = .free ∧ (colAt s c).shadow = 4 ∧ (colAt s c).vf = 0x7F ∧ (colAt s c).mapCore = 4 ∧ (colAt s c).linkw = 16 ∧
    (colAt s c).fMax = 16 ∧ (colAt s c).fTimeout = 100) ∧
  (∀ p, (portAt s p).en = true ∧ (portAt s p).st = .detect ∧ (portAt s p).transitw = 16) ∧
  s.fab.diameter = 8 ∧ s.fab.hoptime = 5 ∧ (∀ k, (slotAt s k).st = .empty) ∧ s.sec.spares = 8 ∧ s.flt.winMs = 10 ∧ s.flt.hangWin = 20 ∧
  s.mgt.policySrc = 3 ∧ s.boot.stage = .hold

/-- The byte memories (HBM, every scratchpad, the staging buffer) stay in canonical form: addresses strictly rising, no listed
byte 0, whatever command a step carries out and from whatever state. -/
def Obligations.StepKeepsMemoryCanonical : Prop :=
  ∀ (s t : State), State.memWf s → step s = .next t → State.memWf t

/-- R374, R376, R388: no step turns a one-time fuse back: the BOOT_COUNTER and the firmware SVN never fall, no management root
is lost, and no spare row comes back; and every step has a next state. -/
def Obligations.FusesNeverTurnBack : Prop :=
  ∀ (s : State), ∃ t, step s = .next t ∧ s.sec.boots ≤ t.sec.boots ∧ s.sec.fuseSvn ≤ t.sec.fuseSvn ∧ s.sec.mgmtRoots <+: t.sec.mgmtRoots ∧
    t.sec.spareRows ≤ s.sec.spareRows
end

