-- ==== Sys2Proof/Laws/Bytes.lean ====
section
/-! SUPPORT. Little-endian fields read back, and a flit laid out reads back as the flit it was. -/

namespace Sys2Proof.Machine

@[simp] theorem leBytes_length (k n : Nat) : (leBytes k n).length = k := by
  induction k generalizing n with
  | zero => rfl
  | succ k ih => simp [leBytes, ih]

theorem leNat_leBytes (k n : Nat) : leNat (leBytes k n) = n % 256 ^ k := by
  induction k generalizing n with
  | zero => simp [leBytes, leNat, Nat.mod_one]
  | succ k ih =>
    have hb : (BitVec.ofNat 8 n).toNat = n % 256 := rfl
    rw [leBytes, leNat, ih, hb, pow_succ', Nat.mod_mul]

theorem crcBit_lt {c : Nat} (h : c < 2 ^ 32) : crcBit c < 2 ^ 32 := by
  unfold crcBit
  split
  · exact Nat.xor_lt_two_pow (by omega) (by omega)
  · omega

theorem crcByte_lt {c : Nat} (b : Byte) (h : c < 2 ^ 32) : crcByte c b < 2 ^ 32 := by
  unfold crcByte
  iterate 8 apply crcBit_lt
  exact Nat.xor_lt_two_pow h (by have := b.isLt; omega)

theorem crc32c_lt (l : List Byte) : crc32c l < 2 ^ 32 := by
  refine Nat.xor_lt_two_pow ?_ (by omega)
  suffices h : ∀ (l : List Byte) (c : Nat), c < 2 ^ 32 → l.foldl crcByte c < 2 ^ 32 from h l _ (by omega)
  intro l
  induction l with
  | nil => exact fun _ h => h
  | cons b l ih => exact fun c h => ih _ (crcByte_lt b h)

theorem flitBody_length (f : Flit) (ack : Nat) (h : f.content.length = 56) : (flitBody f ack).length = 60 := by simp [flitBody, h]

/-- A flit as sent passes the receiver's CRC check (R319). -/
theorem crcHolds_flitBytes (f : Flit) (ack : Nat) (h : f.content.length = 56) : crcHolds (flitBytes f ack) = true := by
  have hb := flitBody_length f ack h
  have ht : (flitBytes f ack).take 60 = flitBody f ack := by simp [flitBytes, ← hb]
  have hd : (flitBytes f ack).drop 60 = leBytes 4 (crc32c (flitBody f ack)) := by simp [flitBytes, ← hb]
  have hl : (flitBytes f ack).length = 64 := by simp [flitBytes, hb]
  have hc := crc32c_lt (flitBody f ack)
  have ht4 : (leBytes 4 (crc32c (flitBody f ack))).take 4 = leBytes 4 (crc32c (flitBody f ack)) := List.take_of_length_le (by simp)
  simp only [crcHolds, bytesAt, ht, hd, hl, ht4, leNat_leBytes]
  simp only [beq_self_eq_true, Bool.true_and, beq_iff_eq]
  exact Nat.mod_eq_of_lt hc

/-- A flit as sent reads back as the same flit with the same ACK (R319, R320). -/
theorem flitIn_flitBytes (f : Flit) (ack : Nat) (h : f.content.length = 56) (hk : f.kind < 8) (hv : f.vl < 4) (hs : f.seq < 8192)
    (hl : f.lane = 0) (ha : ack < 8192) (x : FlitIn) (hx : x.bytes = flitBytes f ack) (hi : x.link = f.link) : flitIn x = (f, ack) := by
  have hb := flitBody_length f ack h
  have h4 : ((flitBytes f ack).drop 0).take 4 = leBytes 4 (linkHeader f ack) := by
    simp [flitBytes, flitBody, List.append_assoc]
  have hc : ((flitBytes f ack).drop 4).take 56 = f.content := by
    simp [flitBytes, flitBody, List.append_assoc, h]
  have hp : b2n f.kp < 2 := by cases f.kp <;> decide
  have hh : linkHeader f ack % 256 ^ 4 = linkHeader f ack := by
    refine Nat.mod_eq_of_lt ?_
    simp only [linkHeader]
    omega
  have hkp : (linkHeader f ack).testBit 5 = f.kp := by
    have : linkHeader f ack / 2 ^ 5 % 2 = b2n f.kp := by simp only [linkHeader]; omega
    rw [Nat.testBit_eq_decide_div_mod_eq, this]
    cases f.kp <;> rfl
  have e1 : linkHeader f ack / 64 % 8192 = f.seq := by simp only [linkHeader]; omega
  have e2 : linkHeader f ack % 8 = f.kind := by simp only [linkHeader]; omega
  have e3 : linkHeader f ack / 8 % 4 = f.vl := by simp only [linkHeader]; omega
  have e4 : linkHeader f ack / 2 ^ 19 = ack := by simp only [linkHeader]; omega
  have hn : bytesAt x.bytes 0 4 = linkHeader f ack := by rw [bytesAt, hx, h4, leNat_leBytes, hh]
  rw [hx] at hn
  simp only [flitIn, hx, hn, hc, hi, e1, e2, e3, e4, hkp]
  rw [← hl]

end Sys2Proof.Machine
end

