-- ==== Sys2Proof/Laws/State.lean ====
section
/-! SUPPORT. One lemma per field of State per named update: what the update leaves alone. -/

namespace Sys2Proof.Machine

/- setCore -/

@[simp] theorem setCore_pending (s : State) (n : Nat) (x : Core) : (setCore s n x).pending = s.pending := rfl
@[simp] theorem setCore_ticks (s : State) (n : Nat) (x : Core) : (setCore s n x).ticks = s.ticks := rfl
@[simp] theorem setCore_free (s : State) (n : Nat) (x : Core) : (setCore s n x).free = s.free := rfl
@[simp] theorem setCore_out (s : State) (n : Nat) (x : Core) : (setCore s n x).out = s.out := rfl
@[simp] theorem setCore_signals (s : State) (n : Nat) (x : Core) : (setCore s n x).signals = s.signals := rfl
@[simp] theorem setCore_hub (s : State) (n : Nat) (x : Core) : (setCore s n x).hub = s.hub := rfl
@[simp] theorem setCore_cmds (s : State) (n : Nat) (x : Core) : (setCore s n x).cmds = s.cmds := rfl
@[simp] theorem setCore_nextCmd (s : State) (n : Nat) (x : Core) : (setCore s n x).nextCmd = s.nextCmd := rfl
@[simp] theorem setCore_cols (s : State) (n : Nat) (x : Core) : (setCore s n x).cols = s.cols := rfl
@[simp] theorem setCore_chans (s : State) (n : Nat) (x : Core) : (setCore s n x).chans = s.chans := rfl
@[simp] theorem setCore_hbm (s : State) (n : Nat) (x : Core) : (setCore s n x).hbm = s.hbm := rfl
@[simp] theorem setCore_ports (s : State) (n : Nat) (x : Core) : (setCore s n x).ports = s.ports := rfl
@[simp] theorem setCore_zlt (s : State) (n : Nat) (x : Core) : (setCore s n x).zlt = s.zlt := rfl
@[simp] theorem setCore_fab (s : State) (n : Nat) (x : Core) : (setCore s n x).fab = s.fab := rfl
@[simp] theorem setCore_sec (s : State) (n : Nat) (x : Core) : (setCore s n x).sec = s.sec := rfl
@[simp] theorem setCore_flt (s : State) (n : Nat) (x : Core) : (setCore s n x).flt = s.flt := rfl
@[simp] theorem setCore_pwr (s : State) (n : Nat) (x : Core) : (setCore s n x).pwr = s.pwr := rfl
@[simp] theorem setCore_mesh (s : State) (n : Nat) (x : Core) : (setCore s n x).mesh = s.mesh := rfl
@[simp] theorem setCore_boot (s : State) (n : Nat) (x : Core) : (setCore s n x).boot = s.boot := rfl
@[simp] theorem setCore_mgt (s : State) (n : Nat) (x : Core) : (setCore s n x).mgt = s.mgt := rfl
@[simp] theorem setCore_pcie (s : State) (n : Nat) (x : Core) : (setCore s n x).pcie = s.pcie := rfl

/- setCol -/

@[simp] theorem setCol_pending (s : State) (n : Nat) (x : Colony) : (setCol s n x).pending = s.pending := rfl
@[simp] theorem setCol_ticks (s : State) (n : Nat) (x : Colony) : (setCol s n x).ticks = s.ticks := rfl
@[simp] theorem setCol_free (s : State) (n : Nat) (x : Colony) : (setCol s n x).free = s.free := rfl
@[simp] theorem setCol_out (s : State) (n : Nat) (x : Colony) : (setCol s n x).out = s.out := rfl
@[simp] theorem setCol_cores (s : State) (n : Nat) (x : Colony) : (setCol s n x).cores = s.cores := rfl
@[simp] theorem setCol_signals (s : State) (n : Nat) (x : Colony) : (setCol s n x).signals = s.signals := rfl
@[simp] theorem setCol_hub (s : State) (n : Nat) (x : Colony) : (setCol s n x).hub = s.hub := rfl
@[simp] theorem setCol_cmds (s : State) (n : Nat) (x : Colony) : (setCol s n x).cmds = s.cmds := rfl
@[simp] theorem setCol_nextCmd (s : State) (n : Nat) (x : Colony) : (setCol s n x).nextCmd = s.nextCmd := rfl
@[simp] theorem setCol_chans (s : State) (n : Nat) (x : Colony) : (setCol s n x).chans = s.chans := rfl
@[simp] theorem setCol_hbm (s : State) (n : Nat) (x : Colony) : (setCol s n x).hbm = s.hbm := rfl
@[simp] theorem setCol_ports (s : State) (n : Nat) (x : Colony) : (setCol s n x).ports = s.ports := rfl
@[simp] theorem setCol_zlt (s : State) (n : Nat) (x : Colony) : (setCol s n x).zlt = s.zlt := rfl
@[simp] theorem setCol_fab (s : State) (n : Nat) (x : Colony) : (setCol s n x).fab = s.fab := rfl
@[simp] theorem setCol_sec (s : State) (n : Nat) (x : Colony) : (setCol s n x).sec = s.sec := rfl
@[simp] theorem setCol_flt (s : State) (n : Nat) (x : Colony) : (setCol s n x).flt = s.flt := rfl
@[simp] theorem setCol_pwr (s : State) (n : Nat) (x : Colony) : (setCol s n x).pwr = s.pwr := rfl
@[simp] theorem setCol_mesh (s : State) (n : Nat) (x : Colony) : (setCol s n x).mesh = s.mesh := rfl
@[simp] theorem setCol_boot (s : State) (n : Nat) (x : Colony) : (setCol s n x).boot = s.boot := rfl
@[simp] theorem setCol_mgt (s : State) (n : Nat) (x : Colony) : (setCol s n x).mgt = s.mgt := rfl
@[simp] theorem setCol_pcie (s : State) (n : Nat) (x : Colony) : (setCol s n x).pcie = s.pcie := rfl

/- setChan -/

@[simp] theorem setChan_pending (s : State) (n : Nat) (x : Channel) : (setChan s n x).pending = s.pending := rfl
@[simp] theorem setChan_ticks (s : State) (n : Nat) (x : Channel) : (setChan s n x).ticks = s.ticks := rfl
@[simp] theorem setChan_free (s : State) (n : Nat) (x : Channel) : (setChan s n x).free = s.free := rfl
@[simp] theorem setChan_out (s : State) (n : Nat) (x : Channel) : (setChan s n x).out = s.out := rfl
@[simp] theorem setChan_cores (s : State) (n : Nat) (x : Channel) : (setChan s n x).cores = s.cores := rfl
@[simp] theorem setChan_signals (s : State) (n : Nat) (x : Channel) : (setChan s n x).signals = s.signals := rfl
@[simp] theorem setChan_hub (s : State) (n : Nat) (x : Channel) : (setChan s n x).hub = s.hub := rfl
@[simp] theorem setChan_cmds (s : State) (n : Nat) (x : Channel) : (setChan s n x).cmds = s.cmds := rfl
@[simp] theorem setChan_nextCmd (s : State) (n : Nat) (x : Channel) : (setChan s n x).nextCmd = s.nextCmd := rfl
@[simp] theorem setChan_cols (s : State) (n : Nat) (x : Channel) : (setChan s n x).cols = s.cols := rfl
@[simp] theorem setChan_hbm (s : State) (n : Nat) (x : Channel) : (setChan s n x).hbm = s.hbm := rfl
@[simp] theorem setChan_ports (s : State) (n : Nat) (x : Channel) : (setChan s n x).ports = s.ports := rfl
@[simp] theorem setChan_zlt (s : State) (n : Nat) (x : Channel) : (setChan s n x).zlt = s.zlt := rfl
@[simp] theorem setChan_fab (s : State) (n : Nat) (x : Channel) : (setChan s n x).fab = s.fab := rfl
@[simp] theorem setChan_sec (s : State) (n : Nat) (x : Channel) : (setChan s n x).sec = s.sec := rfl
@[simp] theorem setChan_flt (s : State) (n : Nat) (x : Channel) : (setChan s n x).flt = s.flt := rfl
@[simp] theorem setChan_pwr (s : State) (n : Nat) (x : Channel) : (setChan s n x).pwr = s.pwr := rfl
@[simp] theorem setChan_mesh (s : State) (n : Nat) (x : Channel) : (setChan s n x).mesh = s.mesh := rfl
@[simp] theorem setChan_boot (s : State) (n : Nat) (x : Channel) : (setChan s n x).boot = s.boot := rfl
@[simp] theorem setChan_mgt (s : State) (n : Nat) (x : Channel) : (setChan s n x).mgt = s.mgt := rfl
@[simp] theorem setChan_pcie (s : State) (n : Nat) (x : Channel) : (setChan s n x).pcie = s.pcie := rfl

/- setPort -/

@[simp] theorem setPort_pending (s : State) (n : Nat) (x : Port) : (setPort s n x).pending = s.pending := rfl
@[simp] theorem setPort_ticks (s : State) (n : Nat) (x : Port) : (setPort s n x).ticks = s.ticks := rfl
@[simp] theorem setPort_free (s : State) (n : Nat) (x : Port) : (setPort s n x).free = s.free := rfl
@[simp] theorem setPort_out (s : State) (n : Nat) (x : Port) : (setPort s n x).out = s.out := rfl
@[simp] theorem setPort_cores (s : State) (n : Nat) (x : Port) : (setPort s n x).cores = s.cores := rfl
@[simp] theorem setPort_signals (s : State) (n : Nat) (x : Port) : (setPort s n x).signals = s.signals := rfl
@[simp] theorem setPort_hub (s : State) (n : Nat) (x : Port) : (setPort s n x).hub = s.hub := rfl
@[simp] theorem setPort_cmds (s : State) (n : Nat) (x : Port) : (setPort s n x).cmds = s.cmds := rfl
@[simp] theorem setPort_nextCmd (s : State) (n : Nat) (x : Port) : (setPort s n x).nextCmd = s.nextCmd := rfl
@[simp] theorem setPort_cols (s : State) (n : Nat) (x : Port) : (setPort s n x).cols = s.cols := rfl
@[simp] theorem setPort_chans (s : State) (n : Nat) (x : Port) : (setPort s n x).chans = s.chans := rfl
@[simp] theorem setPort_hbm (s : State) (n : Nat) (x : Port) : (setPort s n x).hbm = s.hbm := rfl
@[simp] theorem setPort_zlt (s : State) (n : Nat) (x : Port) : (setPort s n x).zlt = s.zlt := rfl
@[simp] theorem setPort_fab (s : State) (n : Nat) (x : Port) : (setPort s n x).fab = s.fab := rfl
@[simp] theorem setPort_sec (s : State) (n : Nat) (x : Port) : (setPort s n x).sec = s.sec := rfl
@[simp] theorem setPort_flt (s : State) (n : Nat) (x : Port) : (setPort s n x).flt = s.flt := rfl
@[simp] theorem setPort_pwr (s : State) (n : Nat) (x : Port) : (setPort s n x).pwr = s.pwr := rfl
@[simp] theorem setPort_mesh (s : State) (n : Nat) (x : Port) : (setPort s n x).mesh = s.mesh := rfl
@[simp] theorem setPort_boot (s : State) (n : Nat) (x : Port) : (setPort s n x).boot = s.boot := rfl
@[simp] theorem setPort_mgt (s : State) (n : Nat) (x : Port) : (setPort s n x).mgt = s.mgt := rfl
@[simp] theorem setPort_pcie (s : State) (n : Nat) (x : Port) : (setPort s n x).pcie = s.pcie := rfl

/- modMesh -/

@[simp] theorem modMesh_pending (s : State) (n : Nat) (x : Mesh → Mesh) : (modMesh s n x).pending = s.pending := rfl
@[simp] theorem modMesh_ticks (s : State) (n : Nat) (x : Mesh → Mesh) : (modMesh s n x).ticks = s.ticks := rfl
@[simp] theorem modMesh_free (s : State) (n : Nat) (x : Mesh → Mesh) : (modMesh s n x).free = s.free := rfl
@[simp] theorem modMesh_out (s : State) (n : Nat) (x : Mesh → Mesh) : (modMesh s n x).out = s.out := rfl
@[simp] theorem modMesh_cores (s : State) (n : Nat) (x : Mesh → Mesh) : (modMesh s n x).cores = s.cores := rfl
@[simp] theorem modMesh_signals (s : State) (n : Nat) (x : Mesh → Mesh) : (modMesh s n x).signals = s.signals := rfl
@[simp] theorem modMesh_hub (s : State) (n : Nat) (x : Mesh → Mesh) : (modMesh s n x).hub = s.hub := rfl
@[simp] theorem modMesh_cmds (s : State) (n : Nat) (x : Mesh → Mesh) : (modMesh s n x).cmds = s.cmds := rfl
@[simp] theorem modMesh_nextCmd (s : State) (n : Nat) (x : Mesh → Mesh) : (modMesh s n x).nextCmd = s.nextCmd := rfl
@[simp] theorem modMesh_cols (s : State) (n : Nat) (x : Mesh → Mesh) : (modMesh s n x).cols = s.cols := rfl
@[simp] theorem modMesh_chans (s : State) (n : Nat) (x : Mesh → Mesh) : (modMesh s n x).chans = s.chans := rfl
@[simp] theorem modMesh_hbm (s : State) (n : Nat) (x : Mesh → Mesh) : (modMesh s n x).hbm = s.hbm := rfl
@[simp] theorem modMesh_ports (s : State) (n : Nat) (x : Mesh → Mesh) : (modMesh s n x).ports = s.ports := rfl
@[simp] theorem modMesh_zlt (s : State) (n : Nat) (x : Mesh → Mesh) : (modMesh s n x).zlt = s.zlt := rfl
@[simp] theorem modMesh_fab (s : State) (n : Nat) (x : Mesh → Mesh) : (modMesh s n x).fab = s.fab := rfl
@[simp] theorem modMesh_sec (s : State) (n : Nat) (x : Mesh → Mesh) : (modMesh s n x).sec = s.sec := rfl
@[simp] theorem modMesh_flt (s : State) (n : Nat) (x : Mesh → Mesh) : (modMesh s n x).flt = s.flt := rfl
@[simp] theorem modMesh_pwr (s : State) (n : Nat) (x : Mesh → Mesh) : (modMesh s n x).pwr = s.pwr := rfl
@[simp] theorem modMesh_boot (s : State) (n : Nat) (x : Mesh → Mesh) : (modMesh s n x).boot = s.boot := rfl
@[simp] theorem modMesh_mgt (s : State) (n : Nat) (x : Mesh → Mesh) : (modMesh s n x).mgt = s.mgt := rfl
@[simp] theorem modMesh_pcie (s : State) (n : Nat) (x : Mesh → Mesh) : (modMesh s n x).pcie = s.pcie := rfl

/- setCmd -/

@[simp] theorem setCmd_pending (s : State) (n : Nat) (x : Cmd) : (setCmd s n x).pending = s.pending := rfl
@[simp] theorem setCmd_ticks (s : State) (n : Nat) (x : Cmd) : (setCmd s n x).ticks = s.ticks := rfl
@[simp] theorem setCmd_free (s : State) (n : Nat) (x : Cmd) : (setCmd s n x).free = s.free := rfl
@[simp] theorem setCmd_out (s : State) (n : Nat) (x : Cmd) : (setCmd s n x).out = s.out := rfl
@[simp] theorem setCmd_cores (s : State) (n : Nat) (x : Cmd) : (setCmd s n x).cores = s.cores := rfl
@[simp] theorem setCmd_signals (s : State) (n : Nat) (x : Cmd) : (setCmd s n x).signals = s.signals := rfl
@[simp] theorem setCmd_hub (s : State) (n : Nat) (x : Cmd) : (setCmd s n x).hub = s.hub := rfl
@[simp] theorem setCmd_nextCmd (s : State) (n : Nat) (x : Cmd) : (setCmd s n x).nextCmd = s.nextCmd := rfl
@[simp] theorem setCmd_cols (s : State) (n : Nat) (x : Cmd) : (setCmd s n x).cols = s.cols := rfl
@[simp] theorem setCmd_chans (s : State) (n : Nat) (x : Cmd) : (setCmd s n x).chans = s.chans := rfl
@[simp] theorem setCmd_hbm (s : State) (n : Nat) (x : Cmd) : (setCmd s n x).hbm = s.hbm := rfl
@[simp] theorem setCmd_ports (s : State) (n : Nat) (x : Cmd) : (setCmd s n x).ports = s.ports := rfl
@[simp] theorem setCmd_zlt (s : State) (n : Nat) (x : Cmd) : (setCmd s n x).zlt = s.zlt := rfl
@[simp] theorem setCmd_fab (s : State) (n : Nat) (x : Cmd) : (setCmd s n x).fab = s.fab := rfl
@[simp] theorem setCmd_sec (s : State) (n : Nat) (x : Cmd) : (setCmd s n x).sec = s.sec := rfl
@[simp] theorem setCmd_flt (s : State) (n : Nat) (x : Cmd) : (setCmd s n x).flt = s.flt := rfl
@[simp] theorem setCmd_pwr (s : State) (n : Nat) (x : Cmd) : (setCmd s n x).pwr = s.pwr := rfl
@[simp] theorem setCmd_mesh (s : State) (n : Nat) (x : Cmd) : (setCmd s n x).mesh = s.mesh := rfl
@[simp] theorem setCmd_boot (s : State) (n : Nat) (x : Cmd) : (setCmd s n x).boot = s.boot := rfl
@[simp] theorem setCmd_mgt (s : State) (n : Nat) (x : Cmd) : (setCmd s n x).mgt = s.mgt := rfl
@[simp] theorem setCmd_pcie (s : State) (n : Nat) (x : Cmd) : (setCmd s n x).pcie = s.pcie := rfl

/- modHub -/

@[simp] theorem modHub_pending (s : State) (x : Hub → Hub) : (modHub s x).pending = s.pending := rfl
@[simp] theorem modHub_ticks (s : State) (x : Hub → Hub) : (modHub s x).ticks = s.ticks := rfl
@[simp] theorem modHub_free (s : State) (x : Hub → Hub) : (modHub s x).free = s.free := rfl
@[simp] theorem modHub_out (s : State) (x : Hub → Hub) : (modHub s x).out = s.out := rfl
@[simp] theorem modHub_cores (s : State) (x : Hub → Hub) : (modHub s x).cores = s.cores := rfl
@[simp] theorem modHub_signals (s : State) (x : Hub → Hub) : (modHub s x).signals = s.signals := rfl
@[simp] theorem modHub_cmds (s : State) (x : Hub → Hub) : (modHub s x).cmds = s.cmds := rfl
@[simp] theorem modHub_nextCmd (s : State) (x : Hub → Hub) : (modHub s x).nextCmd = s.nextCmd := rfl
@[simp] theorem modHub_cols (s : State) (x : Hub → Hub) : (modHub s x).cols = s.cols := rfl
@[simp] theorem modHub_chans (s : State) (x : Hub → Hub) : (modHub s x).chans = s.chans := rfl
@[simp] theorem modHub_hbm (s : State) (x : Hub → Hub) : (modHub s x).hbm = s.hbm := rfl
@[simp] theorem modHub_ports (s : State) (x : Hub → Hub) : (modHub s x).ports = s.ports := rfl
@[simp] theorem modHub_zlt (s : State) (x : Hub → Hub) : (modHub s x).zlt = s.zlt := rfl
@[simp] theorem modHub_fab (s : State) (x : Hub → Hub) : (modHub s x).fab = s.fab := rfl
@[simp] theorem modHub_sec (s : State) (x : Hub → Hub) : (modHub s x).sec = s.sec := rfl
@[simp] theorem modHub_flt (s : State) (x : Hub → Hub) : (modHub s x).flt = s.flt := rfl
@[simp] theorem modHub_pwr (s : State) (x : Hub → Hub) : (modHub s x).pwr = s.pwr := rfl
@[simp] theorem modHub_mesh (s : State) (x : Hub → Hub) : (modHub s x).mesh = s.mesh := rfl
@[simp] theorem modHub_boot (s : State) (x : Hub → Hub) : (modHub s x).boot = s.boot := rfl
@[simp] theorem modHub_mgt (s : State) (x : Hub → Hub) : (modHub s x).mgt = s.mgt := rfl
@[simp] theorem modHub_pcie (s : State) (x : Hub → Hub) : (modHub s x).pcie = s.pcie := rfl

/- modSlot -/

@[simp] theorem modSlot_pending (s : State) (n : Nat) (x : Slot → Slot) : (modSlot s n x).pending = s.pending := rfl
@[simp] theorem modSlot_ticks (s : State) (n : Nat) (x : Slot → Slot) : (modSlot s n x).ticks = s.ticks := rfl
@[simp] theorem modSlot_free (s : State) (n : Nat) (x : Slot → Slot) : (modSlot s n x).free = s.free := rfl
@[simp] theorem modSlot_out (s : State) (n : Nat) (x : Slot → Slot) : (modSlot s n x).out = s.out := rfl
@[simp] theorem modSlot_cores (s : State) (n : Nat) (x : Slot → Slot) : (modSlot s n x).cores = s.cores := rfl
@[simp] theorem modSlot_signals (s : State) (n : Nat) (x : Slot → Slot) : (modSlot s n x).signals = s.signals := rfl
@[simp] theorem modSlot_hub (s : State) (n : Nat) (x : Slot → Slot) : (modSlot s n x).hub = s.hub := rfl
@[simp] theorem modSlot_cmds (s : State) (n : Nat) (x : Slot → Slot) : (modSlot s n x).cmds = s.cmds := rfl
@[simp] theorem modSlot_nextCmd (s : State) (n : Nat) (x : Slot → Slot) : (modSlot s n x).nextCmd = s.nextCmd := rfl
@[simp] theorem modSlot_cols (s : State) (n : Nat) (x : Slot → Slot) : (modSlot s n x).cols = s.cols := rfl
@[simp] theorem modSlot_chans (s : State) (n : Nat) (x : Slot → Slot) : (modSlot s n x).chans = s.chans := rfl
@[simp] theorem modSlot_hbm (s : State) (n : Nat) (x : Slot → Slot) : (modSlot s n x).hbm = s.hbm := rfl
@[simp] theorem modSlot_ports (s : State) (n : Nat) (x : Slot → Slot) : (modSlot s n x).ports = s.ports := rfl
@[simp] theorem modSlot_zlt (s : State) (n : Nat) (x : Slot → Slot) : (modSlot s n x).zlt = s.zlt := rfl
@[simp] theorem modSlot_fab (s : State) (n : Nat) (x : Slot → Slot) : (modSlot s n x).fab = s.fab := rfl
@[simp] theorem modSlot_flt (s : State) (n : Nat) (x : Slot → Slot) : (modSlot s n x).flt = s.flt := rfl
@[simp] theorem modSlot_pwr (s : State) (n : Nat) (x : Slot → Slot) : (modSlot s n x).pwr = s.pwr := rfl
@[simp] theorem modSlot_mesh (s : State) (n : Nat) (x : Slot → Slot) : (modSlot s n x).mesh = s.mesh := rfl
@[simp] theorem modSlot_boot (s : State) (n : Nat) (x : Slot → Slot) : (modSlot s n x).boot = s.boot := rfl
@[simp] theorem modSlot_mgt (s : State) (n : Nat) (x : Slot → Slot) : (modSlot s n x).mgt = s.mgt := rfl
@[simp] theorem modSlot_pcie (s : State) (n : Nat) (x : Slot → Slot) : (modSlot s n x).pcie = s.pcie := rfl

/- modDie -/

@[simp] theorem modDie_pending (s : State) (n : Nat) (x : DiePower → DiePower) : (modDie s n x).pending = s.pending := rfl
@[simp] theorem modDie_ticks (s : State) (n : Nat) (x : DiePower → DiePower) : (modDie s n x).ticks = s.ticks := rfl
@[simp] theorem modDie_free (s : State) (n : Nat) (x : DiePower → DiePower) : (modDie s n x).free = s.free := rfl
@[simp] theorem modDie_out (s : State) (n : Nat) (x : DiePower → DiePower) : (modDie s n x).out = s.out := rfl
@[simp] theorem modDie_cores (s : State) (n : Nat) (x : DiePower → DiePower) : (modDie s n x).cores = s.cores := rfl
@[simp] theorem modDie_signals (s : State) (n : Nat) (x : DiePower → DiePower) : (modDie s n x).signals = s.signals := rfl
@[simp] theorem modDie_hub (s : State) (n : Nat) (x : DiePower → DiePower) : (modDie s n x).hub = s.hub := rfl
@[simp] theorem modDie_cmds (s : State) (n : Nat) (x : DiePower → DiePower) : (modDie s n x).cmds = s.cmds := rfl
@[simp] theorem modDie_nextCmd (s : State) (n : Nat) (x : DiePower → DiePower) : (modDie s n x).nextCmd = s.nextCmd := rfl
@[simp] theorem modDie_cols (s : State) (n : Nat) (x : DiePower → DiePower) : (modDie s n x).cols = s.cols := rfl
@[simp] theorem modDie_chans (s : State) (n : Nat) (x : DiePower → DiePower) : (modDie s n x).chans = s.chans := rfl
@[simp] theorem modDie_hbm (s : State) (n : Nat) (x : DiePower → DiePower) : (modDie s n x).hbm = s.hbm := rfl
@[simp] theorem modDie_ports (s : State) (n : Nat) (x : DiePower → DiePower) : (modDie s n x).ports = s.ports := rfl
@[simp] theorem modDie_zlt (s : State) (n : Nat) (x : DiePower → DiePower) : (modDie s n x).zlt = s.zlt := rfl
@[simp] theorem modDie_fab (s : State) (n : Nat) (x : DiePower → DiePower) : (modDie s n x).fab = s.fab := rfl
@[simp] theorem modDie_sec (s : State) (n : Nat) (x : DiePower → DiePower) : (modDie s n x).sec = s.sec := rfl
@[simp] theorem modDie_flt (s : State) (n : Nat) (x : DiePower → DiePower) : (modDie s n x).flt = s.flt := rfl
@[simp] theorem modDie_mesh (s : State) (n : Nat) (x : DiePower → DiePower) : (modDie s n x).mesh = s.mesh := rfl
@[simp] theorem modDie_boot (s : State) (n : Nat) (x : DiePower → DiePower) : (modDie s n x).boot = s.boot := rfl
@[simp] theorem modDie_mgt (s : State) (n : Nat) (x : DiePower → DiePower) : (modDie s n x).mgt = s.mgt := rfl
@[simp] theorem modDie_pcie (s : State) (n : Nat) (x : DiePower → DiePower) : (modDie s n x).pcie = s.pcie := rfl

/- emit -/

@[simp] theorem emit_pending (s : State) (x : Out) : (emit s x).pending = s.pending := rfl
@[simp] theorem emit_ticks (s : State) (x : Out) : (emit s x).ticks = s.ticks := rfl
@[simp] theorem emit_free (s : State) (x : Out) : (emit s x).free = s.free := rfl
@[simp] theorem emit_cores (s : State) (x : Out) : (emit s x).cores = s.cores := rfl
@[simp] theorem emit_signals (s : State) (x : Out) : (emit s x).signals = s.signals := rfl
@[simp] theorem emit_hub (s : State) (x : Out) : (emit s x).hub = s.hub := rfl
@[simp] theorem emit_cmds (s : State) (x : Out) : (emit s x).cmds = s.cmds := rfl
@[simp] theorem emit_nextCmd (s : State) (x : Out) : (emit s x).nextCmd = s.nextCmd := rfl
@[simp] theorem emit_cols (s : State) (x : Out) : (emit s x).cols = s.cols := rfl
@[simp] theorem emit_chans (s : State) (x : Out) : (emit s x).chans = s.chans := rfl
@[simp] theorem emit_hbm (s : State) (x : Out) : (emit s x).hbm = s.hbm := rfl
@[simp] theorem emit_ports (s : State) (x : Out) : (emit s x).ports = s.ports := rfl
@[simp] theorem emit_zlt (s : State) (x : Out) : (emit s x).zlt = s.zlt := rfl
@[simp] theorem emit_fab (s : State) (x : Out) : (emit s x).fab = s.fab := rfl
@[simp] theorem emit_sec (s : State) (x : Out) : (emit s x).sec = s.sec := rfl
@[simp] theorem emit_flt (s : State) (x : Out) : (emit s x).flt = s.flt := rfl
@[simp] theorem emit_pwr (s : State) (x : Out) : (emit s x).pwr = s.pwr := rfl
@[simp] theorem emit_mesh (s : State) (x : Out) : (emit s x).mesh = s.mesh := rfl
@[simp] theorem emit_boot (s : State) (x : Out) : (emit s x).boot = s.boot := rfl
@[simp] theorem emit_mgt (s : State) (x : Out) : (emit s x).mgt = s.mgt := rfl
@[simp] theorem emit_pcie (s : State) (x : Out) : (emit s x).pcie = s.pcie := rfl

/- setMsix -/

@[simp] theorem setMsix_pending (s : State) (f : Fn) (x : MsiX) : (setMsix s f x).pending = s.pending := rfl
@[simp] theorem setMsix_ticks (s : State) (f : Fn) (x : MsiX) : (setMsix s f x).ticks = s.ticks := rfl
@[simp] theorem setMsix_free (s : State) (f : Fn) (x : MsiX) : (setMsix s f x).free = s.free := rfl
@[simp] theorem setMsix_out (s : State) (f : Fn) (x : MsiX) : (setMsix s f x).out = s.out := rfl
@[simp] theorem setMsix_cores (s : State) (f : Fn) (x : MsiX) : (setMsix s f x).cores = s.cores := rfl
@[simp] theorem setMsix_signals (s : State) (f : Fn) (x : MsiX) : (setMsix s f x).signals = s.signals := rfl
@[simp] theorem setMsix_hub (s : State) (f : Fn) (x : MsiX) : (setMsix s f x).hub = s.hub := rfl
@[simp] theorem setMsix_cmds (s : State) (f : Fn) (x : MsiX) : (setMsix s f x).cmds = s.cmds := rfl
@[simp] theorem setMsix_nextCmd (s : State) (f : Fn) (x : MsiX) : (setMsix s f x).nextCmd = s.nextCmd := rfl
@[simp] theorem setMsix_cols (s : State) (f : Fn) (x : MsiX) : (setMsix s f x).cols = s.cols := rfl
@[simp] theorem setMsix_chans (s : State) (f : Fn) (x : MsiX) : (setMsix s f x).chans = s.chans := rfl
@[simp] theorem setMsix_hbm (s : State) (f : Fn) (x : MsiX) : (setMsix s f x).hbm = s.hbm := rfl
@[simp] theorem setMsix_ports (s : State) (f : Fn) (x : MsiX) : (setMsix s f x).ports = s.ports := rfl
@[simp] theorem setMsix_zlt (s : State) (f : Fn) (x : MsiX) : (setMsix s f x).zlt = s.zlt := rfl
@[simp] theorem setMsix_fab (s : State) (f : Fn) (x : MsiX) : (setMsix s f x).fab = s.fab := rfl
@[simp] theorem setMsix_sec (s : State) (f : Fn) (x : MsiX) : (setMsix s f x).sec = s.sec := rfl
@[simp] theorem setMsix_flt (s : State) (f : Fn) (x : MsiX) : (setMsix s f x).flt = s.flt := rfl
@[simp] theorem setMsix_pwr (s : State) (f : Fn) (x : MsiX) : (setMsix s f x).pwr = s.pwr := rfl
@[simp] theorem setMsix_mesh (s : State) (f : Fn) (x : MsiX) : (setMsix s f x).mesh = s.mesh := rfl
@[simp] theorem setMsix_boot (s : State) (f : Fn) (x : MsiX) : (setMsix s f x).boot = s.boot := rfl
@[simp] theorem setMsix_mgt (s : State) (f : Fn) (x : MsiX) : (setMsix s f x).mgt = s.mgt := rfl

end Sys2Proof.Machine
end

