-- ==== Sys2Proof/Laws/Table.lean ====
section
/-! SUPPORT. What the operations on tables and byte memories do: a read after a write, and the canonical form kept. -/

namespace Sys2Proof.Machine

variable {α : Type}

@[simp] theorem tget_tset_same (d : α) (t : Tbl α) (n : Nat) (x : α) : tget d (tset t n x) n = x := by
  induction t with
  | nil => simp [tset, tget]
  | cons e r ih =>
    obtain ⟨k, v⟩ := e
    simp only [tset]
    split
    · simp [tget]
    · split
      · simp [tget]
      · next h => simp [tget, h, ih]

theorem tget_tset_other (d : α) (t : Tbl α) {n m : Nat} (x : α) (h : m ≠ n) : tget d (tset t n x) m = tget d t m := by
  induction t with
  | nil => simp [tset, tget, Ne.symm h]
  | cons e r ih =>
    obtain ⟨k, v⟩ := e
    simp only [tset]
    split
    · simp [tget, Ne.symm h]
    · split
      · next _ hk => subst hk; simp [tget, Ne.symm h]
      · simp [tget, ih]

@[simp] theorem tfind_tset_same (t : Tbl α) (n : Nat) (x : α) : tfind (tset t n x) n = some x := by
  induction t with
  | nil => simp [tset, tfind]
  | cons e r ih =>
    obtain ⟨k, v⟩ := e
    simp only [tset]
    split
    · simp [tfind]
    · split
      · simp [tfind]
      · next h => simp [tfind, h, ih]

theorem tfind_tset_other (t : Tbl α) {n m : Nat} (x : α) (h : m ≠ n) : tfind (tset t n x) m = tfind t m := by
  induction t with
  | nil => simp [tset, tfind, Ne.symm h]
  | cons e r ih =>
    obtain ⟨k, v⟩ := e
    simp only [tset]
    split
    · simp [tfind, Ne.symm h]
    · split
      · next _ hk => subst hk; simp [tfind, Ne.symm h]
      · simp [tfind, ih]

@[simp] theorem tfind_tdel_same (t : Tbl α) (n : Nat) : tfind (tdel t n) n = none := by
  induction t with
  | nil => rfl
  | cons e r ih =>
    obtain ⟨k, v⟩ := e
    simp only [tdel]
    split
    · exact ih
    · next h => simp [tfind, h, ih]

theorem tfind_tdel_other (t : Tbl α) {n m : Nat} (h : m ≠ n) : tfind (tdel t n) m = tfind t m := by
  induction t with
  | nil => rfl
  | cons e r ih =>
    obtain ⟨k, v⟩ := e
    simp only [tdel]
    split
    · next hk => subst hk; simp [tfind, Ne.symm h, ih]
    · simp [tfind, ih]

/-- An entry of a table with one entry set is the entry set or an entry of the table. -/
theorem mem_tset {t : Tbl α} {n : Nat} {x : α} {e : Nat × α} (h : e ∈ tset t n x) : e = (n, x) ∨ e ∈ t := by
  induction t with
  | nil => simp [tset] at h; exact .inl h
  | cons f r ih =>
    obtain ⟨k, v⟩ := f
    simp only [tset] at h
    split at h
    · rcases List.mem_cons.mp h with h | h
      · exact .inl h
      · exact .inr h
    · split at h
      · rcases List.mem_cons.mp h with h | h
        · exact .inl h
        · exact .inr (List.mem_cons_of_mem _ h)
      · rcases List.mem_cons.mp h with h | h
        · exact .inr (h ▸ List.mem_cons_self ..)
        · rcases ih h with h | h
          · exact .inl h
          · exact .inr (List.mem_cons_of_mem _ h)

/-- What a table answers is its default or one of its entries. -/
theorem tget_mem (d : α) (t : Tbl α) (n : Nat) : tget d t n = d ∨ ∃ e ∈ t, e.2 = tget d t n := by
  induction t with
  | nil => exact .inl rfl
  | cons f r ih =>
    obtain ⟨k, v⟩ := f
    simp only [tget]
    split
    · exact .inr ⟨(k, v), List.mem_cons_self .., rfl⟩
    · rcases ih with h | ⟨e, he, h⟩
      · exact .inl h
      · exact .inr ⟨e, List.mem_cons_of_mem _ he, h⟩

/- Byte memories. -/

theorem wfFrom_le {lo : Nat} {m : List Host.Cell} (h : Memory.wfFrom (some lo) m = true) {lo' : Nat} (hl : lo' ≤ lo) :
    Memory.wfFrom (some lo') m = true := by
  cases m with
  | nil => rfl
  | cons e r =>
    obtain ⟨k, v⟩ := e
    simp [Memory.wfFrom] at h ⊢
    exact ⟨⟨by omega, h.1.2⟩, h.2⟩

theorem wfFrom_none_of_some {lo : Nat} {m : List Host.Cell} (h : Memory.wfFrom (some lo) m = true) :
    Memory.wfFrom none m = true := by
  cases m with
  | nil => rfl
  | cons e r =>
    obtain ⟨k, v⟩ := e
    simp [Memory.wfFrom] at h ⊢
    exact ⟨h.1.2, h.2⟩

/-- Below its first address a canonical memory reads as 0. -/
theorem mget_below {lo : Nat} {m : List Host.Cell} (h : Memory.wfFrom (some lo) m = true) {a : Nat} (ha : a ≤ lo) :
    mget m a = 0 := by
  induction m generalizing lo with
  | nil => rfl
  | cons e r ih =>
    obtain ⟨k, v⟩ := e
    simp [Memory.wfFrom] at h
    have : k ≠ a := by omega
    simp [mget, this]
    exact ih h.2 (by omega)

theorem wfFrom_mput {lo : Option Nat} {m : List Host.Cell} {a : Nat} {b : Byte} (h : Memory.wfFrom lo m = true)
    (ha : ∀ l, lo = some l → l < a) : Memory.wfFrom lo (mput m a b) = true := by
  induction m generalizing lo with
  | nil =>
    simp only [mput]
    split
    · rfl
    · next hb => cases lo with
      | none => simpa [Memory.wfFrom] using hb
      | some l => simpa [Memory.wfFrom, ha l rfl] using hb
  | cons e r ih =>
    obtain ⟨k, v⟩ := e
    have h0 := h
    simp only [Memory.wfFrom, Bool.and_eq_true] at h
    obtain ⟨⟨hk, hv⟩, hr⟩ := h
    simp only [mput]
    split
    · next hak =>
      split
      · exact h0
      · next hb =>
        have ht : Memory.wfFrom (some a) ((k, v) :: r) = true := by
          simp only [Memory.wfFrom, Bool.and_eq_true]
          exact ⟨⟨by simpa using hak, hv⟩, hr⟩
        cases lo with
        | none => simp only [Memory.wfFrom, Bool.and_eq_true] at ht ⊢; exact ⟨⟨trivial, by simpa using hb⟩, ht⟩
        | some l =>
          simp only [Memory.wfFrom, Bool.and_eq_true] at ht ⊢
          exact ⟨⟨by simpa using ha l rfl, by simpa using hb⟩, ht⟩
    · split
      · next hka =>
        subst hka
        split
        · cases lo with
          | none => exact wfFrom_none_of_some hr
          | some l => exact wfFrom_le hr (by have := ha l rfl; omega)
        · next hb =>
          simp only [Memory.wfFrom, Bool.and_eq_true]
          exact ⟨⟨hk, by simpa using hb⟩, hr⟩
      · next hak hka =>
        simp only [Memory.wfFrom, Bool.and_eq_true]
        exact ⟨⟨hk, hv⟩, ih hr (fun l hl => by simp at hl; omega)⟩

/-- A byte stored keeps the canonical form. -/
theorem wf_mput {m : List Host.Cell} (a : Nat) (b : Byte) (h : Memory.wf m = true) : Memory.wf (mput m a b) = true :=
  wfFrom_mput h (by simp)

/-- Bytes stored keep the canonical form. -/
theorem wf_mwrite {m : List Host.Cell} (a : Nat) (bs : List Byte) (h : Memory.wf m = true) :
    Memory.wf (mwrite m a bs) = true := by
  induction bs generalizing m a with
  | nil => exact h
  | cons b bs ih => exact ih _ (wf_mput a b h)

theorem wfFrom_filter {lo : Option Nat} {m : List Host.Cell} (p : Host.Cell → Bool) (h : Memory.wfFrom lo m = true) :
    Memory.wfFrom lo (m.filter p) = true := by
  induction m generalizing lo with
  | nil => rfl
  | cons e r ih =>
    obtain ⟨k, v⟩ := e
    simp only [Memory.wfFrom, Bool.and_eq_true] at h
    obtain ⟨⟨hk, hv⟩, hr⟩ := h
    simp only [List.filter]
    split
    · simp only [Memory.wfFrom, Bool.and_eq_true]
      exact ⟨⟨hk, hv⟩, ih hr⟩
    · cases lo with
      | none => exact wfFrom_none_of_some (ih hr)
      | some l => exact wfFrom_le (ih hr) (by simp at hk; omega)

/-- A wipe keeps the canonical form. -/
theorem wf_mwipe {m : List Host.Cell} (a n : Nat) (h : Memory.wf m = true) : Memory.wf (mwipe m a n) = true :=
  wfFrom_filter _ h

theorem mget_mput_same {m : List Host.Cell} (a : Nat) (b : Byte) (h : Memory.wf m = true) : mget (mput m a b) a = b := by
  unfold Memory.wf at h
  revert h
  generalize (none : Option Nat) = lo
  intro h
  induction m generalizing lo with
  | nil =>
    simp only [mput]
    split
    · next hb => simp [mget, hb]
    · simp [mget]
  | cons e r ih =>
    obtain ⟨k, v⟩ := e
    simp only [Memory.wfFrom, Bool.and_eq_true] at h
    simp only [mput]
    split
    · next hak =>
      split
      · next hb =>
        have : k ≠ a := by omega
        simp [mget, this, hb, mget_below h.2 (show a ≤ k by omega)]
      · simp [mget]
    · split
      · next hka =>
        subst hka
        split
        · next hb => simp [hb, mget_below h.2 (le_refl k)]
        · simp [mget]
      · next hka => simp [mget, hka, ih _ h.2]

theorem mget_mput_other (m : List Host.Cell) {a x : Nat} (b : Byte) (hx : x ≠ a) : mget (mput m a b) x = mget m x := by
  induction m with
  | nil =>
    simp only [mput]
    split
    · rfl
    · simp [mget, Ne.symm hx]
  | cons e r ih =>
    obtain ⟨k, v⟩ := e
    simp only [mput]
    split
    · split
      · rfl
      · simp [mget, Ne.symm hx]
    · split
      · next hka =>
        subst hka
        split <;> simp [mget, Ne.symm hx]
      · simp [mget, ih]

/-- Bytes stored leave every other address as it was. -/
theorem mget_mwrite_other (m : List Host.Cell) (a : Nat) (bs : List Byte) {x : Nat} (hx : x < a ∨ a + bs.length ≤ x) :
    mget (mwrite m a bs) x = mget m x := by
  induction bs generalizing m a with
  | nil => rfl
  | cons b bs ih =>
    simp only [mwrite, List.length_cons] at *
    rw [ih (mput m a b) (a + 1) (by omega), mget_mput_other m b (by omega)]

/-- Bytes stored read back. -/
theorem mread_mwrite {m : List Host.Cell} (a : Nat) (bs : List Byte) (h : Memory.wf m = true) :
    mread (mwrite m a bs) a bs.length = bs := by
  induction bs generalizing m a with
  | nil => rfl
  | cons b bs ih =>
    simp only [mwrite, List.length_cons, mread]
    rw [ih (a + 1) (wf_mput a b h), mget_mwrite_other _ _ _ (Or.inl (Nat.lt_succ_self a)), mget_mput_same a b h]

@[simp] theorem mread_length (m : List Host.Cell) (a n : Nat) : (mread m a n).length = n := by
  induction n generalizing a with
  | zero => rfl
  | succ n ih => simp [mread, ih]

theorem mget_mwipe_in (m : List Host.Cell) {a n x : Nat} (h1 : a ≤ x) (h2 : x < a + n) : mget (mwipe m a n) x = 0 := by
  induction m with
  | nil => rfl
  | cons e r ih =>
    obtain ⟨k, v⟩ := e
    simp only [mwipe, List.filter] at ih ⊢
    split
    · next hk =>
      have : k ≠ x := by
        rintro rfl
        simp at hk; omega
      simp only [mget, this, if_false]; exact ih
    · exact ih

theorem mget_mwipe_out (m : List Host.Cell) {a n x : Nat} (h : x < a ∨ a + n ≤ x) : mget (mwipe m a n) x = mget m x := by
  induction m with
  | nil => rfl
  | cons e r ih =>
    obtain ⟨k, v⟩ := e
    simp only [mwipe, List.filter] at ih ⊢
    split
    · simp only [mget]; rw [ih]
    · next hk =>
      have : k ≠ x := by
        rintro rfl
        simp at hk; omega
      simp only [mget, this, if_false]; exact ih

end Sys2Proof.Machine
end

