-- ==== Sys2Proof/Laws/Units.lean ====
section
/-! SUPPORT. Reading a numbered unit after a write to one. -/

namespace Sys2Proof.Machine

@[simp] theorem coreAt_setCore_same (s : State) (n : Nat) (c : Core) : coreAt (setCore s n c) n = c := by
  simp [coreAt, setCore]
theorem coreAt_setCore_other (s : State) {n m : Nat} (c : Core) (h : m ≠ n) : coreAt (setCore s n c) m = coreAt s m := by
  simp [coreAt, setCore, tget_tset_other _ _ _ h]
@[simp] theorem coreAt_modCore_same (s : State) (n : Nat) (f : Core → Core) : coreAt (modCore s n f) n = f (coreAt s n) := by
  simp [modCore]
theorem coreAt_modCore_other (s : State) {n m : Nat} (f : Core → Core) (h : m ≠ n) :
    coreAt (modCore s n f) m = coreAt s m := by
  simp [modCore, coreAt_setCore_other _ _ h]

@[simp] theorem colAt_setCol_same (s : State) (n : Nat) (c : Colony) : colAt (setCol s n c) n = c := by
  simp [colAt, setCol]
theorem colAt_setCol_other (s : State) {n m : Nat} (c : Colony) (h : m ≠ n) : colAt (setCol s n c) m = colAt s m := by
  simp [colAt, setCol, tget_tset_other _ _ _ h]
@[simp] theorem colAt_modCol_same (s : State) (n : Nat) (f : Colony → Colony) : colAt (modCol s n f) n = f (colAt s n) := by
  simp [modCol]

@[simp] theorem chanAt_setChan_same (s : State) (n : Nat) (c : Channel) : chanAt (setChan s n c) n = c := by
  simp [chanAt, setChan]
theorem chanAt_setChan_other (s : State) {n m : Nat} (c : Channel) (h : m ≠ n) :
    chanAt (setChan s n c) m = chanAt s m := by
  simp [chanAt, setChan, tget_tset_other _ _ _ h]
@[simp] theorem chanAt_modChan_same (s : State) (n : Nat) (f : Channel → Channel) :
    chanAt (modChan s n f) n = f (chanAt s n) := by
  simp [modChan]

@[simp] theorem portAt_setPort_same (s : State) (n : Nat) (p : Port) : portAt (setPort s n p) n = p := by
  simp [portAt, setPort]
theorem portAt_setPort_other (s : State) {n m : Nat} (p : Port) (h : m ≠ n) : portAt (setPort s n p) m = portAt s m := by
  simp [portAt, setPort, tget_tset_other _ _ _ h]
@[simp] theorem portAt_modPort_same (s : State) (n : Nat) (f : Port → Port) : portAt (modPort s n f) n = f (portAt s n) := by
  simp [modPort]

@[simp] theorem meshAt_modMesh_same (s : State) (n : Nat) (f : Mesh → Mesh) : meshAt (modMesh s n f) n = f (meshAt s n) := by
  simp [meshAt, modMesh]

@[simp] theorem cmdAt_setCmd_same (s : State) (n : Nat) (c : Cmd) : cmdAt (setCmd s n c) n = some c := by
  simp [cmdAt, setCmd]
theorem cmdAt_setCmd_other (s : State) {n m : Nat} (c : Cmd) (h : m ≠ n) : cmdAt (setCmd s n c) m = cmdAt s m := by
  simp [cmdAt, setCmd, tfind_tset_other _ _ h]
theorem modCmd_some {s : State} {n : Nat} {c : Cmd} (f : Cmd → Cmd) (h : cmdAt s n = some c) :
    modCmd s n f = setCmd s n (f c) := by
  simp [modCmd, h]
theorem modCmd_none {s : State} {n : Nat} (f : Cmd → Cmd) (h : cmdAt s n = none) : modCmd s n f = s := by
  simp [modCmd, h]

@[simp] theorem engineAt_modEngine_same (s : State) (n : Nat) (f : CopyEngine → CopyEngine) :
    engineAt (modEngine s n f) n = f (engineAt s n) := by
  simp [engineAt, modEngine, modHub]
@[simp] theorem sqAt_setSq_same (s : State) (p r : Nat) (q : SqRing) : sqAt (setSq s p r q) p r = q := by
  simp [sqAt, setSq, modHub]
@[simp] theorem cqAt_setCq_same (s : State) (p r : Nat) (q : CqRing) : cqAt (setCq s p r q) p r = q := by
  simp [cqAt, setCq, modHub]
@[simp] theorem syncAt_setSync_same (s : State) (p n : Nat) (v : Word) : syncAt (setSync s p n v) p n = v := by
  simp [syncAt, setSync, modHub]
@[simp] theorem slotAt_modSlot_same (s : State) (n : Nat) (f : Slot → Slot) : slotAt (modSlot s n f) n = f (slotAt s n) := by
  simp [slotAt, modSlot]
@[simp] theorem dieAt_modDie_same (s : State) (n : Nat) (f : DiePower → DiePower) : dieAt (modDie s n f) n = f (dieAt s n) := by
  simp [dieAt, modDie]

end Sys2Proof.Machine
end

