-- ==== Sys2Proof/Laws/Issue.lean ====
section
/-! SUPPORT. What the frame of a kernel instruction does: where a core issues a word, the word's own body acts; the
registers written read back and the rest stays. -/

namespace Sys2Proof.Machine

/-- Where a core issues a word of the row, the row's body acts. -/
theorem issueRow_body {s : State} {n : Nat} {w : Word} (h : Issues s n w) (body : Core → State) :
    issueRow s n true w body = body (coreAt s n) := by
  obtain ⟨h1, h2, h3, h4, h5⟩ := h
  have h6 : armed s 7 n = false := h2
  simp [issueRow, h1, h6, ← h3, h4, h5]

theorem issue_body {s : State} {n op : Nat} {w : Word} (h : Issues s n w) (ho : opIs w op = true) (body : Core → State) :
    issue s n op w body = body (coreAt s n) := by
  rw [issue, ho, issueRow_body h]

theorem issueReg_body {s : State} {n op : Nat} {w : Word} (h : Issues s n w) (ho : opIs w op = true) (f : Core → Core) :
    issueReg s n op w f = retire s n (f (coreAt s n)) := by
  rw [issueReg, issue_body h ho]

theorem onlyCore_setCore (s : State) (n : Nat) (c : Core) : OnlyCore s (setCore s n c) n :=
  ⟨rfl, fun _ hm => coreAt_setCore_other s c hm⟩

theorem sreg_setSreg_same (c : Core) (d : Nat) (v : Word) : sreg (setSreg c d v) d = if d = 0 then 0 else v := by
  unfold sreg setSreg
  split <;> simp [*]

theorem sreg_setSreg_other (c : Core) {d r : Nat} (v : Word) (h : r ≠ d) : sreg (setSreg c d v) r = sreg c r := by
  unfold sreg setSreg
  split
  · rfl
  · split
    · rfl
    · exact tget_tset_other _ _ _ h

theorem sreg_retireTo (c : Core) (pc r : Nat) : sreg (retireTo c pc) r = sreg c r := by
  unfold retireTo; split <;> rfl
theorem pred_retireTo (c : Core) (pc r : Nat) : pred (retireTo c pc) r = pred c r := by
  unfold retireTo; split <;> rfl
theorem sregs_retireTo (c : Core) (pc : Nat) : (retireTo c pc).sregs = c.sregs := by
  unfold retireTo; split <;> rfl
theorem preds_retireTo (c : Core) (pc : Nat) : (retireTo c pc).preds = c.preds := by
  unfold retireTo; split <;> rfl

/-- A scalar register written and the instruction retired, as R74, R75 and R77 say. -/
theorem writesSregTo_retire (s : State) (n pc d : Nat) (v : Word) :
    WritesSregTo s (setCore s n (retireTo (setSreg (coreAt s n) d v) pc)) n pc d v := by
  refine ⟨onlyCore_setCore .., ?_, ?_, ?_⟩
  · simp only [coreAt_setCore_same, sregs_retireTo]
    unfold setSreg; split <;> rfl
  · simp [sreg_retireTo, sreg_setSreg_same]
  · intro r hr; simp [sreg_retireTo, sreg_setSreg_other _ _ hr]

theorem setSreg_pc (c : Core) (d : Nat) (v : Word) : (setSreg c d v).pc = c.pc := by
  unfold setSreg; split <;> rfl

theorem setPred_pc (c : Core) (d : Nat) (v : Bool) : (setPred c d v).pc = c.pc := by
  unfold setPred; split <;> rfl

/-- The same at the next PC. -/
theorem writesSreg_retire (s : State) (n d : Nat) (v : Word) :
    WritesSreg s (retire s n (setSreg (coreAt s n) d v)) n d v := by
  rw [retire, setSreg_pc]; exact writesSregTo_retire ..

theorem getLsbD_one_shift8 (d r : Nat) (hr : r < 8) : (1#8 <<< d).getLsbD r = decide (r = d) := by
  rw [BitVec.getLsbD_shiftLeft]
  by_cases h : r = d
  · subst h; simp [hr]
  · rcases Nat.lt_or_gt_of_ne h with h' | h'
    · simp [h', h]
    · have : r - d ≠ 0 := by omega
      simp [h, this, BitVec.getLsbD_one]

theorem pred_eq (c : Core) (r : Nat) : pred c r = (decide (r = 0) || c.preds.getLsbD r) := rfl

theorem pred_setPred (c : Core) {d r : Nat} (v : Bool) (hr : r < 8) :
    pred (setPred c d v) r = if r = 0 then true else if r = d then v else pred c r := by
  rw [pred_eq, pred_eq]
  unfold setPred
  by_cases h : r = 0
  · simp [h]
  · by_cases hd : d = 0
    · subst hd; simp [h]
    · have ht := getLsbD_one_shift8 d r hr
      cases v
      · simp only [h, hd, if_false, decide_false, Bool.false_or, Bool.false_eq_true, BitVec.getLsbD_and, BitVec.getLsbD_not, ht]
        by_cases h' : r = d <;> simp [h', hr]
      · simp only [h, hd, if_false, decide_false, Bool.false_or, if_true, BitVec.getLsbD_or, ht]
        by_cases h' : r = d <;> simp [h']

theorem writesPred_retire (s : State) (n : Nat) {d : Nat} (v : Bool) (hd : d < 8) :
    WritesPred s (retire s n (setPred (coreAt s n) d v)) n d v := by
  refine ⟨onlyCore_setCore .., ?_, ?_, ?_⟩
  · simp only [retire, coreAt_setCore_same, preds_retireTo, setPred_pc]
    unfold setPred; split <;> rfl
  · simp [retire, pred_retireTo, pred_setPred _ _ hd]
  · intro r hr hr8
    simp only [retire, pred_retireTo, pred_setPred _ _ hr8, coreAt_setCore_same, if_neg hr]
    split
    · next h => subst h; rfl
    · rfl

end Sys2Proof.Machine
end

