-- ==== Sys2Proof/Machine/Readback.lean ====
section
/-! DEFINITION. What a register read answers (R11, R12, R463, R477 to R479, R484): every register of R9's blocks and of the
ring pages, composed from State field by field. A read changes no state and is no command of the table (log entry 83);
statements and reviewers read the registers through `registerRead`. -/

namespace Sys2Proof.Machine

/-- A register from its fields: (lowest bit, value), reserved bits 0 (R12). -/
def pack (l : List (Nat × Nat)) : Word := BitVec.ofNat 64 ((l.map (fun e => e.2 * 2 ^ e.1)).sum)

/-- A count shown in `k` bits that saturates. -/
def capped (k n : Nat) : Nat := min n (2 ^ k - 1)

/-- How many entries of a table satisfy a condition. -/
def countTbl {α : Type} (p : α → Bool) (t : Tbl α) : Nat := (t.filter (fun e => p e.2)).length

/-- The tile of a physical index (R16, R38, R245): column and row, all ones where there is none. -/
def tileCol (phys : Nat) : Nat := if phys = 0xFF then 0xF else phys % 14
def tileRow (phys : Nat) : Nat := if phys = 0xFF then 0xF else phys / 14

/- State codes. -/

/-- CORE.STATE.STATE (R38). -/
def CoreState.code : CoreState → Nat
  | .idle => 0
  | .bound => 1
  | .running => 2
  | .killed => 3
  | .fenced => 4

/-- HUB.SQSTAT.STATE (R133). -/
def SqState.code : SqState → Nat
  | .disabled => 0
  | .running => 1
  | .stopped => 2

/-- HBC.STATE.MODE (R245). -/
def ChanMode.code : ChanMode → Nat
  | .inService => 0
  | .transit => 1
  | .fenced => 2

/-- ZLT.STATE.STATE (R340). -/
def PortState.code : PortState → Nat
  | .disabled => 0
  | .detect => 1
  | .train => 2
  | .discover => 3
  | .auth => 4
  | .active => 5
  | .refused => 6
  | .fenced => 7

/-- SEC.SLOT.STATE (R406). -/
def SlotState.code : SlotState → Nat
  | .empty => 0
  | .loading => 1
  | .active => 2
  | .retiring => 3
  | .failed => 4

/- Ring pages (R133). -/

/-- A register of ring `r` of a page. -/
def ringRead (s : State) (page r off : Nat) : Word :=
  let q := sqAt s page r
  let c := cqAt s page r
  match off with
  | 0x00 => pack [(12, q.base)]
  | 0x08 => pack [(0, q.log2n), (5, b2n q.enable), (6, b2n q.urgent), (7, b2n q.errStop), (8, q.cq)]
  | 0x18 => pack [(0, q.head), (16, q.st.code), (18, b2n q.dberr), (19, b2n q.fetcherr), (32, capped 12 (ringInflight s page r))]
  | 0x28 => pack [(12, c.base)]
  | 0x30 => pack [(0, c.log2n), (5, b2n c.enable), (6, c.vec), (12, b2n c.irqAll)]
  | 0x38 => pack [(0, c.head), (16, c.tail)]
  | _ => 0

/-- A ring page (R133): ring sets, sync counters, the rest reserved. -/
def pageRead (s : State) (page off : Nat) : Word :=
  if off < 0x400 then ringRead s page (off / 64) (off % 64)
  else if off < 0xC00 then syncAt s page ((off - 0x400) / 8)
  else 0

/- HUB (R161, R180, R181, R191, R261, R283, R468). -/

/-- HUB.TRKLIM[c] (R161). -/
def trkLimRead (s : State) (c : Nat) : Word :=
  pack [(0, limitOf s c), (16, usedBy s c), (32, deferredOf s (fun k => k == c))]

/-- HUB.ACCT[c], register `k` (R191). -/
def acctRead (a : Acct) (k : Nat) : Word :=
  BitVec.ofNat 64 (([a.coreNs, a.hbmRd, a.hbmWr, a.hostIn, a.hostOut, a.fabOut, a.energy, a.records] : List Nat).getD k 0)

/-- HUB.REGSTAT (R261): COLD while any point is in a cold window (R259). -/
def regStatRead (s : State) : Word :=
  pack [(0, b2n s.hub.regReject), (1, b2n (decide (0 < s.hub.cold) || s.cols.any (fun e => decide (0 < e.2.cold)) || s.chans.any (fun e => decide (0 < e.2.cold)))),
    (16, countTbl (fun c => c.limit) s.chans), (32, s.hub.windows)]

/-- The boot registers (R468). -/
def bootRead (s : State) (off : Nat) : Word :=
  let b := s.boot
  match off with
  | 0x3800 => pack [(0, b.stage.code), (4, b2n b.prepDone), (5, b2n b.coolWait), (6, b2n b.treeDone), (8, b.refuse), (16, b.bundles),
      (32, b.pprDone), (40, b.pprFail)]
  | 0x3808 => pack [(12, b.addr)]
  | 0x3810 => pack [(0, b.len)]
  | 0x3820 => pack [(0, b.runUs), (32, b.waitUs)]
  | _ => 0

/-- HUB.CLASS and HUB.REGCTL read what was written last (R11, R479), also before it takes effect (R259). -/
def hubRead (s : State) (off : Nat) : Word :=
  let h := s.hub
  match elemAt off 0x1000 8 65, elemAt off 0x1400 8 65, elemAt off 0x1600 8 65, elemAt off 0x2000 8 520, elemAt off 0x3400 8 7 with
  | some c, _, _, _, _ => trkLimRead s c
  | _, some c, _, _, _ =>
    if c = 0 then 0 else pack [(0, b2n (runCtlAt s c).npAllow), (1, b2n (runCtlAt s c).recallOn), (8, (runCtlAt s c).slice)]
  | _, _, some c, _, _ => if c = 0 then 0 else BitVec.ofNat 64 (hubShadowReg s c)
  | _, _, _, some i, _ => acctRead (acctAt s (i / 8)) (i % 8)
  | _, _, _, _, some c =>
    let x := tget (tget {} h.classes c) h.classesNext c
    if c = 0 then 0 else pack [(0, x.min), (8, x.weight), (16, x.qmin), (28, x.capmin)]
  | none, none, none, none, none =>
    match off with
    | 0x0800 => pack [(0, h.npLimit)]
    | 0x3440 =>
      let (m, o, p) := h.regNext.getD (h.regMode, h.outLim, h.pMax)
      pack [(0, b2n m), (1, o), (16, p)]
    | 0x3448 => regStatRead s
    | 0x3480 => pack [(0, h.sextonAgent), (16, h.sextonLost), (32, h.sextonSweeps)]
    | _ => bootRead s off

/- MGT (R486, R493). -/

/-- MGT.MAC (R486): bytes 0 to 5 of IDHASH, the first octet locally administered unicast. -/
def macOf (s : State) : Nat := s.sec.idhash % 2 ^ 48 / 4 * 4 + 2

def mgtRead (s : State) (off : Nat) : Word :=
  let m := s.mgt
  match off with
  | 0x00 => pack [(0, b2n m.link), (1, (m.sessions.filter (fun x => x.live)).length), (3, m.policySrc.toNat), (5, m.policyFloor),
      (12, b2n m.pending.isSome), (16, s.pwr.cap)]
  | 0x08 => pack [(0, b2n m.irqEn), (1, m.vec)]
  | 0x10 => pack [(0, m.noticeKind), (16, m.noticeDelay), (32, m.nseq)]
  | 0x18 => pack [(0, macOf s)]
  | _ => 0

/- COL, XLT, SEC (R217, R262, R309, R406). -/

/-- The core numbers that a colony holds in FENCED (R217). -/
def fencedHeld (s : State) (e : MapEntry) : Nat := (e.cores.filter (fun n => (coreAt s n).st == .fenced)).length

def colRead (s : State) (off : Nat) : Word :=
  let n := off / 64
  let c := colAt s n
  if n = 0 ∨ 64 < n then 0
  else match off % 64 with
    | 0x00 => pack [(0, b2n c.classMode), (8, c.shadow)]
    | 0x08 => BitVec.ofNat 64 (colStateReg c)
    | 0x10 => pack [(0, c.cur.cores.length), (16, c.cur.channels.length), (32, c.cur.ports.length), (48, fencedHeld s c.cur)]
    | 0x18 => pack [(0, inflightCur s n), (32, inflightOld s n)]
    | 0x20 => pack [(0, c.stale)]
    | 0x30 => pack [(0, c.mapCore), (4, c.mapCopy), (8, c.mapPort), (12, c.mapCtrl)]
    | 0x38 => pack [(0, c.linkwNext.getD c.linkw)]
    | _ => 0

/-- The valid leaves of a size (R309). -/
def leavesOf (c : Colony) (size : Nat) : Nat := (c.ptes.filter (fun p => p.size == size)).length

def xltColRead (s : State) (n off : Nat) : Word :=
  let c := colAt s n
  if n = 0 ∨ 64 < n then 0
  else match off with
    | 0x00 => pack [(0, b2n c.fIrq), (1, c.fVec), (8, c.fMax), (32, c.fTimeout)]
    | 0x08 => pack [(0, countTbl (fun r => xltOpen r n) s.flt.recs), (16, c.stalled.length), (32, c.faults)]
    | 0x10 => pack [(0, leavesOf c 0), (24, leavesOf c 1), (43, leavesOf c 2)]
    | 0x18 => pack [(0, c.tables.length)]
    | 0x20 => pack [(0, b2n c.wdBusy.isSome), (1, b2n c.epoch), (32, c.wdLast)]
    | _ => 0

def xltRead (s : State) (off : Nat) : Word :=
  if off < 0x1800 then xltColRead s (off / 64) (off % 64)
  else if 0x1900 ≤ off then 0
  else
    let m := meshAt s ((off - 0x1800) / 64)
    match (off - 0x1800) % 64 with
    | 0x00 => BitVec.ofNat 64 m.walks
    | 0x08 => pack [(0, m.wcache.length), (32, m.wparity)]
    | _ => 0

/-- SEC.ROOTS' seven hashes (R406); one not programmed reads 0. -/
def rootsReg (s : State) (j : Nat) : Nat :=
  if j = 0 then s.sec.idRoot else if j = 1 then s.sec.fwRoot else if j = 2 then s.sec.ownerRoot.getD 0 else s.sec.mgmtRoots.getD (j - 3) 0

def secRead (s : State) (off : Nat) : Word :=
  let z := s.sec
  match elemAt off 0x040 8 42, elemAt off 0x400 8 128 with
  | some k, _ => BitVec.ofNat 64 (rootsReg s (k / 6) >>> (64 * (k % 6)))
  | _, some i =>
    let k := slotAt s i
    pack [(0, k.st.code), (3, k.kind), (4, k.tenant), (11, k.assign), (32, slotInflight s i)]
  | none, none =>
    match off with
    | 0x00 => pack [(0, lifecycle s), (8, z.lcSteps), (16, z.fuseSvn), (24, z.boots), (38, b2n z.lmsExhausted), (39, b2n z.lmsSpent),
        (40, b2n z.ownerRoot.isSome), (41, z.mgmtRoots.length - 1), (43, z.spareRows)]
    | 0x08 => pack [(0, z.lmsLeft), (32, z.lmsSigned)]
    | 0x10 => pack [(0, countTbl (fun k => k.st == .active) z.slots), (8, z.spares), (16, countTbl (fun k => k.st == .failed) z.slots)]
    | 0x18 => pack [(0, z.refused), (32, z.squashed)]
    | _ => 0

/- FLT (R433). -/

/-- Control cores in a state; before boot step 3 has tested them, the reset value (R433). -/
def ctrlCount (s : State) (st : CtrlCore) (before : Nat) : Nat :=
  if s.hub.ctrl.isEmpty then before else countTbl (fun c => c == st) s.hub.ctrl

/-- FLT.PCTL.ACTIVE (R431, R433): a point is active, or was cleared less than 100 µs ago. -/
def pctlActive (s : State) : Bool :=
  perturbed s || (match s.flt.pctlClear with | some t => decide (s.ticks < t + ticksOfUs 100) | none => false)

/-- FLT.GNAT.LEFT_US (R433): what is left of a duration, 0 until cleared. -/
def gnatLeft (s : State) (g : Gnat) : Nat :=
  if g.duration = 0 then 0 else capped 24 (max 1 (g.duration - (s.ticks - g.start) * 64 / 10000))

def fltRead (s : State) (off : Nat) : Word :=
  let f := s.flt
  match elemAt off 0x1000 8 65, elemAt off 0x2000 8 64 with
  | some c, _ => if c = 0 then 0 else pack [(0, (colAt s c).diagSlots), (16, (colAt s c).diagVa)]
  | _, some p =>
    (match tfind f.gnats p with
    | some g => if g.action = 0 then 0 else pack [(0, g.action), (8, gnatLeft s g), (32, g.magnitude)]
    | none => 0)
  | none, none =>
    match off with
    | 0x00 => pack [(0, b2n f.irqEn), (1, f.vec), (7, b2n f.eventIrq), (8, f.winMs), (16, f.hangWin)]
    | 0x08 => pack [(0, countTbl (fun r => r.st.live) f.recs), (16, countTbl (fun r => r.st == .window) f.recs), (26, b2n f.degraded),
        (27, b2n f.fatal), (28, bitMap f.quar), (32, ctrlCount s .active 6), (36, ctrlCount s .standby 2)]
    | 0x18 => pack [(0, f.last), (32, f.unrecorded)]
    | 0x20 => pack [(0, b2n f.toggling), (8, f.stopCause), (32, f.beats)]
    | 0x28 => pack [(0, b2n f.pctlEn), (1, b2n (pctlActive s)), (2, countTbl (fun g => g.action != 0) f.gnats)]
    | 0x30 => if lifecycle s = 1 then pack [(0, f.injKind), (16, f.injTarget)] else 0
    | 0x38 => pack [(0, f.late)]
    | _ => 0

/- PWR, CLK, MESH (R245, R263, R457). -/

def pwrRead (s : State) (off : Nat) : Word :=
  let p := s.pwr
  match off with
  | 0x00 => pack [(0, p.dieTemp.getD 0 0), (8, p.dieTemp.getD 1 0), (16, p.dieTemp.getD 2 0), (24, p.dieTemp.getD 3 0), (32, p.hubTemp),
      (40, p.hbmMax)]
  | 0x08 => pack [(0, b2n p.coolantOk), (1, b2n p.lost), (2, b2n p.trip)]
  | 0x10 => BitVec.ofNat 64 p.energy
  | 0x18 => pack [(0, p.railGood.toNat), (16, p.railFault.toNat)]
  | 0x100 => pack [(0, p.rootLock.toNat), (5, b2n p.zltLock), (6, b2n p.pcieLock)]
  | 0x108 => BitVec.ofNat 64 s.ticks
  | _ => 0

def meshRead (s : State) (off : Nat) : Word :=
  let m := meshAt s (off / 0x100)
  match off % 0x100 with
  | 0x00 => pack [(0, m.replays)]
  | 0x08 => m.lmiss
  | 0x10 => pack [(0, b2n m.missEn), (1, m.missVec)]
  | 0x18 => pack [(0, m.urgOver)]
  | _ => 0

/- FAB, ZLT (R340, R342, R370). -/

def fabRead (s : State) (off : Nat) : Word :=
  let f := s.fab
  match elemAt off 0x020 8 4, elemAt off 0x8000 8 4096 with
  | some k, _ => tget 0 f.wdata k
  | _, some i => tget 0 f.routes i &&& 0xFFFFFFFF3FFFFFFF
  | none, none =>
    match off with
    | 0x00 => pack [(0, f.faddr)]
    | 0x08 => pack [(0, f.diameter), (8, f.hoptime)]
    | 0x10 => pack [(0, fabricTimeout s)]
    | 0x18 => pack [(0, f.wsel)]
    | 0x48 => pack [(1, b2n f.wReject), (16, countTbl (fun w => w.valid) f.windows)]
    | 0x50 => pack [(0, f.dropTtl), (16, f.dropNoRoute), (32, f.dropStale), (48, f.dropRefused)]
    | 0x58 => pack [(0, countTbl (fun h => h.st != .none) f.handoffs), (32, f.hoffTimers)]
    | 0x60 => pack [(0, f.raised), (32, f.received)]
    | 0x68 => pack [(0, f.bootTag)]
    | _ => 0

def portRead (s : State) (n off : Nat) : Word :=
  let p := portAt s n
  match off with
  | 0x00 => pack [(0, b2n p.en)]
  | 0x08 => pack [(0, p.st.code), (4, p.lanes.length), (8, bitMap p.lanes), (17, b2n p.spare.isSome), (18, b2n p.kp), (19, p.colony)]
  | 0x10 => pack [(0, p.peerFaddr), (24, p.peerPort), (28, b2n p.peerValid)]
  | 0x18 => pack [(0, p.ceSym), (32, p.uncorr), (48, p.replays)]
  | 0x20 => pack [(0, p.urgOver), (16, p.urgPeak)]
  | 0x28 => pack [(0, p.transitw)]
  | 0x30 => pack [(0, b2n p.missOwner), (1, b2n p.missTransit), (8, b2n p.missEn), (9, p.missVec)]
  | 0x38 => pack [(0, p.bond), (4, if bondMember s n then bitMap (bondMates s n) else 0)]
  | _ => 0

def zltRead (s : State) (off : Nat) : Word :=
  let z := s.zlt
  if off < 0x1000 then portRead s (off / 0x100) (off % 0x100)
  else if 0x4000 ≤ off then tget 0 z.allow ((off - 0x4000) / 8)
  else match off with
    | 0x1000 => pack [(12, z.evBase)]
    | 0x1008 => pack [(0, z.evLog2n), (4, b2n z.evEnable), (5, z.evVec)]
    | 0x1010 => pack [(0, z.evHead), (16, z.evTail), (32, z.evDropped)]
    | 0x1018 => pack [(0, b2n z.admitList), (1, b2n z.ecdsaOnly)]
    | _ => 0

/- SLC, HBC, CORE (R38, R245, R263, R283). -/

def slcRead (s : State) (off : Nat) : Word :=
  let n := off / 0x40
  let c := chanAt s n
  match off % 0x40 with
  | 0x00 => pack [(0, c.slicePhys % 14), (4, c.slicePhys / 14), (8, c.slicePhys), (16, dieOfChannel n)]
  | 0x08 => BitVec.ofNat 64 c.hit
  | 0x10 => BitVec.ofNat 64 c.miss
  | 0x18 => pack [(0, c.buf.length), (16, (c.buf.filter (fun r => r.cls == 0)).length)]
  | 0x20 => pack [(0, c.dir.length), (8, (c.nacked.filter (fun x => x.reserved)).length), (16, c.recalls)]
  | 0x28 => BitVec.ofNat 64 c.nacks
  | _ => 0

def hbcRead (s : State) (off : Nat) : Word :=
  let n := off / 0x80
  let c := chanAt s n
  match elemAt (off % 0x80) 0x40 8 8 with
  | some k => BitVec.ofNat 64 (tget 0 c.clsBytes k)
  | none =>
    match off % 0x80 with
    | 0x00 => pack [(0, c.mode.code), (2, b2n c.wipeBusy), (3, b2n (c.calBusy || c.retraining)), (4, c.colony), (12, n / 32), (16, n % 32), (21, c.temp)]
    | 0x08 => pack [(0, c.ce), (16, c.retryOk), (32, c.ue), (48, c.tagFail)]
    | 0x10 => pack [(0, c.spareNext), (16, 0x4000 - c.spareNext), (32, capped 8 c.remapQueue.length), (40, capped 8 c.heldRows.length)]
    | 0x18 => pack [(0, c.calRate), (8, c.margin), (16, c.slots), (32, c.borrowNs), (48, c.retrains)]
    | 0x20 => pack [(0, c.queue.length), (16, c.qPeak)]
    | 0x30 => BitVec.ofNat 64 c.maint
    | 0x38 => pack [(0, c.urgOver), (16, c.urgPeak)]
    | _ => 0

def coreRead (s : State) (off : Nat) : Word :=
  let n := off / 0x100
  let c := coreAt s n
  match off % 0x100 with
  | 0x00 => pack [(0, n), (10, dieOfCore n), (12, tileCol c.phys), (16, tileRow c.phys), (20, c.phys)]
  | 0x08 => pack [(0, c.st.code), (4, c.colony), (12, c.instar), (20, b2n c.wipeBusy), (21, b2n c.replacePending)]
  | 0x10 => pack [(0, c.seqProg), (32, c.dmaProg)]
  | 0x18 => pack [(0, c.err.toNat)]
  | 0x20 => pack [(0, c.spCe), (16, c.dcCe)]
  | 0x28 => pack [(0, c.spare0), (8, c.spare1), (16, c.pend1), (24, c.pend2), (30, b2n c.overBank)]
  | 0x30 => pack [(0, (c.tags.filter (fun t => !t.write)).length), (16, (c.tags.filter (fun t => t.write)).length),
      (24, (c.tags.filter (fun t => t.urgent)).length), (32, c.epoch)]
  | _ => 0

/- The BARs (R477 to R479). -/

/-- The PF's BAR0, by block (R478). -/
def blockRead (s : State) (off : Nat) : Word :=
  if off < 0x4000 then hubRead s off
  else if 0x8000 ≤ off ∧ off < 0x9000 then mgtRead s (off - 0x8000)
  else if 0x10000 ≤ off ∧ off < 0x12000 then colRead s (off - 0x10000)
  else if 0x14000 ≤ off ∧ off < 0x16000 then xltRead s (off - 0x14000)
  else if 0x18000 ≤ off ∧ off < 0x18800 then secRead s (off - 0x18000)
  else if 0x1C000 ≤ off ∧ off < 0x20000 then fltRead s (off - 0x1C000)
  else if 0x20000 ≤ off ∧ off < 0x20200 then pwrRead s (off - 0x20000)
  else if 0x21000 ≤ off ∧ off < 0x21400 then meshRead s (off - 0x21000)
  else if 0x30000 ≤ off ∧ off < 0x40000 then fabRead s (off - 0x30000)
  else if 0x40000 ≤ off ∧ off < 0x48000 then zltRead s (off - 0x40000)
  else if 0x48000 ≤ off ∧ off < 0x50000 then slcRead s (off - 0x48000)
  else if 0x50000 ≤ off ∧ off < 0x60000 then hbcRead s (off - 0x50000)
  else if 0x60000 ≤ off ∧ off < 0x88000 then coreRead s (off - 0x60000)
  else 0

/-- The registers that read their current values before STAGE is RUNNING (R463). -/
def readEarly (off : Nat) : Bool :=
  (decide (0x3800 ≤ off) && decide (off < 0x3828)) || (decide (0x18000 ≤ off) && decide (off < 0x18800)) ||
  (decide (0x1C000 ≤ off) && decide (off < 0x20200)) || (decide (0x40000 ≤ off) && decide (off < 0x41000) && off % 0x100 == 8)

/-- Where a register's value comes from (R463, R484): before RUNNING most registers, and after a surprise removal all, read
their reset values. -/
def readSource (s : State) (off : Nat) : State :=
  if s.boot.removed || !(s.boot.stage == .running || readEarly off) then State.reset else s

/-- A ring page as a function sees it (R130, R216, R463, R484): the PF reads every page, a VF the one it owns. -/
def pageShown (s : State) (page off : Nat) : Word :=
  if decide (64 < page) || s.boot.removed || s.boot.stage != .running then 0 else pageRead s page off

/-- The 32-bit word of an MSI-X table or PBA (R477, R481), the PBA at `pba`. -/
def msixRead (s : State) (fn : Fn) (pba off : Nat) : Nat :=
  let m := msixAt s fn
  if off < pba then
    (if maxVec fn < off / 16 then 0
    else if off / 4 % 4 < 3 then tget 0 m.msg (off / 4)
    else b2n (!m.unmasked.contains (off / 16)))
  else bitMap m.pend >>> (8 * (off - pba)) % 2 ^ 32

/-- A function answers memory reads (R463, R475, R480, R482): it exists, in D0, its link up and its configuration served. -/
def fnReads (s : State) (fn : Fn) : Bool :=
  s.boot.link && s.boot.cfg && fnPresent s fn && !s.pcie.d3.contains (fnIndex fn) &&
  (match fn with | .pf => true | .vf v => !s.pcie.flr.contains v)

/-- A register read of 8 aligned bytes, or of either half (R479); every other read answers 0. -/
def sized (get : Nat → Word) (off size : Nat) : Word :=
  if size = 8 ∧ off % 8 = 0 then get off
  else if size = 4 ∧ off % 4 = 0 then BitVec.ofNat 64 (field (get (off / 8 * 8)) (32 * (off / 4 % 2) + 31) (32 * (off / 4 % 2)))
  else 0

/-- An MSI-X read of one or two words. -/
def msixSized (s : State) (fn : Fn) (pba off size : Nat) : Word :=
  if size = 4 ∧ off % 4 = 0 then BitVec.ofNat 64 (msixRead s fn pba off)
  else if size = 8 ∧ off % 8 = 0 then pack [(0, msixRead s fn pba off), (32, msixRead s fn pba (off + 4))]
  else 0

/-- What a read of a BAR answers (R463, R477 to R479, R484); none stands for Unsupported Request. BARs are named by their first
number. -/
def registerRead (fn : Fn) (bar offset size : Nat) (s : State) : Option Word :=
  if !fnReads s fn then none
  else match fn with
    | .pf =>
      if bar = 0 ∧ offset < 0x100000 then some (sized (fun o => blockRead (readSource s o) o) offset size)
      else if bar = 2 ∧ offset < 0x80000 then some (sized (fun o => pageShown s (o / 0x1000) (o % 0x1000)) offset size)
      else if bar = 4 ∧ offset < 0x4000 then some (msixSized s .pf 0x2000 offset size)
      else none
    | .vf k =>
      if bar = 0 ∧ offset < 0x1000 then
        some (match colonyOfVf s k with
        | some c => sized (fun o => pageShown s c o) offset size
        | none => 0)
      else if bar = 0 ∧ offset < 0x2000 then some (msixSized s (.vf k) 0x800 (offset - 0x1000) size)
      else none

/- Configuration space (R475). -/

/-- Vendor, device, class and subsystem identities (R475). -/
def vendorId : Nat := 0x1EB9
def deviceId : Fn → Nat
  | .pf => 0x9600
  | .vf _ => 0x9601
def classCode : Nat := 0x120000
def subsystemId : Nat := 0x0001

/-- The Device Serial Number (R475): bytes 0 to 7 of IDHASH, 0 in BLANK. -/
def deviceSerial (s : State) : Nat := if lifecycle s = 0 then 0 else s.sec.idhash % 2 ^ 64

end Sys2Proof.Machine
end

