-- ==== Sys2Proof/Tests/Slice0.lean ====
section
/-! SUPPORT. The model's own tests: results worked out by hand from the spec's rules, and for every statement of
Certificates/Slice0/Obligations.lean, clause by clause, a concrete state and operands that meet its hypotheses. -/

set_option maxRecDepth 20000

namespace Sys2Proof.Tests

open Sys2Proof Sys2Proof.Machine

/- Small states. -/

/-- What a command leaves. -/
def after (i : Instr) (s : State) : State :=
  match exec i s with
  | .next t => t
  | _ => s

/-- A device in service: RUNNING, powered, its link up. -/
def base : State :=
  { boot := { perstLow := false, powered := true, inReset := false, stage := .running, link := true, cfg := true, treeDone := true }
    sec := { lmsLeft := 9 } }

/-- A LAUNCH whose attempt runs on core 0. -/
def launch : Cmd := { page := 1, ring := 0, pkt := 0x10 :: zeros 63, colony := 1, phase := .running, n := 1, cores := [0], attempts := 1 }

/-- Colony 1 in service with core 0, channels 0 to 15 and port 0. -/
def colony1 : Colony := { st := .active, cur := { valid := true, cores := [0], channels := List.range 16, ports := [0] } }

/-- Core 0 runs the command `k`. -/
def onCore (c : Core) (k : Cmd) : State :=
  { base with cores := [(0, { c with st := .running, cmd := some 0, colony := 1 })], cmds := [(0, k)], cols := [(1, colony1)] }

/-- A word of an opcode with other fields, and a core with an image of that word and a NOP. -/
def wd (op rest : Nat) : Word := BitVec.ofNat 64 (op * 2 ^ 56 + rest)
def at_ (w : Word) (c : Core) : State := onCore { c with im := [w, wd 1 0] } launch
def rd (n : Nat) : Nat := n * 2 ^ 47
def ra (n : Nat) : Nat := n * 2 ^ 42
def rb (n : Nat) : Nat := n * 2 ^ 37

/- Kernel instructions. -/

/-- s1 = -5, s2 = 3. -/
def regs : Core := { sregs := [(1, BitVec.ofInt 64 (-5)), (2, 3)] }
/-- OP s3, s1, s2. -/
def w3 (op : Nat) : Word := wd op (rd 3 + ra 1 + rb 2)

theorem test_scalar_results :
    sreg (coreAt (after (.add 0 (w3 0x10)) (at_ (w3 0x10) regs)) 0) 3 = BitVec.ofInt 64 (-2) ∧
    sreg (coreAt (after (.sub 0 (w3 0x11)) (at_ (w3 0x11) regs)) 0) 3 = BitVec.ofInt 64 (-8) ∧
    sreg (coreAt (after (.shl 0 (w3 0x15)) (at_ (w3 0x15) regs)) 0) 3 = BitVec.ofInt 64 (-40) ∧
    sreg (coreAt (after (.sra 0 (w3 0x17)) (at_ (w3 0x17) regs)) 0) 3 = BitVec.ofInt 64 (-1) ∧
    sreg (coreAt (after (.mulhu 0 (w3 0x19)) (at_ (w3 0x19) regs)) 0) 3 = 2 ∧
    sreg (coreAt (after (.min 0 (w3 0x1A)) (at_ (w3 0x1A) regs)) 0) 3 = BitVec.ofInt 64 (-5) ∧
    sreg (coreAt (after (.minu 0 (w3 0x1C)) (at_ (w3 0x1C) regs)) 0) 3 = 3 := by decide

/-- OP s3, s1, IMM. -/
def wi (op imm : Nat) : Word := wd op (rd 3 + ra 1 + imm)

theorem test_immediate_results :
    sreg (coreAt (after (.addi 0 (wi 0x20 0xFFFFFFFF)) (at_ (wi 0x20 0xFFFFFFFF) regs)) 0) 3 = BitVec.ofInt 64 (-6) ∧
    sreg (coreAt (after (.andi 0 (wi 0x22 0xFFFFFFFF)) (at_ (wi 0x22 0xFFFFFFFF) regs)) 0) 3 = 0xFFFFFFFB ∧
    sreg (coreAt (after (.srai 0 (wi 0x27 1)) (at_ (wi 0x27 1) regs)) 0) 3 = BitVec.ofInt 64 (-3) ∧
    sreg (coreAt (after (.movhi 0 (wd 0x2F (rd 2 + 7))) (at_ (wd 0x2F (rd 2 + 7)) regs)) 0) 2 = 0x700000003 := by decide

theorem witness_ScalarResults :
    (∀ op ∈ List.range 14, Issues (at_ (w3 (0x10 + op)) regs) 0 (w3 (0x10 + op)) ∧ opIs (w3 (0x10 + op)) (0x10 + op) = true) ∧
    (∀ op ∈ [0x1E, 0x1F], Issues (at_ (wd op (rd 3 + ra 1)) regs) 0 (wd op (rd 3 + ra 1))) ∧
    (∀ op ∈ [0x20, 0x22, 0x23, 0x24, 0x25, 0x26, 0x27, 0x28], Issues (at_ (wi op 63) regs) 0 (wi op 63)) ∧
    (∀ op ∈ [0x2E, 0x2F], Issues (at_ (wd op (rd 0 + 5)) regs) 0 (wd op (rd 0 + 5))) := by
  unfold Issues; decide

/-- CMP p1, s1, s2 and P p1, p2, p3. -/
def wc (op : Nat) : Word := wd op (2 ^ 49 + ra 1 + rb 2)
def wp (op : Nat) : Word := wd op (2 ^ 49 + 2 * 2 ^ 46 + 3 * 2 ^ 43)

theorem witness_PredicateResults :
    (∀ op ∈ [0x30, 0x31, 0x32, 0x33, 0x34, 0x35], Issues (at_ (wc op) regs) 0 (wc op)) ∧
    (∀ op ∈ [0x38, 0x39, 0x3A, 0x3B], Issues (at_ (wp op) regs) 0 (wp op)) := by
  unfold Issues; decide

theorem test_compares :
    pred (coreAt (after (.cmplt 0 (wc 0x32)) (at_ (wc 0x32) regs)) 0) 1 = true ∧
    pred (coreAt (after (.cmpltu 0 (wc 0x33)) (at_ (wc 0x33) regs)) 0) 1 = false ∧
    pred (coreAt (after (.pandn 0 (wp 0x3B)) (at_ (wp 0x3B) { regs with preds := 0x05 })) 0) 1 = true := by decide

theorem witness_ControlFlowTargets :
    Issues (at_ (wd 1 0) regs) 0 (wd 1 0) ∧ Issues (at_ (wd 3 0) regs) 0 (wd 3 0) ∧ Issues (at_ (wd 3 1) regs) 0 (wd 3 1) ∧
    Issues (at_ (wd 4 (rd 3 + 1)) regs) 0 (wd 4 (rd 3 + 1)) ∧
    Issues (at_ (wd 5 (ra 2)) { sregs := [(2, 1)] }) 0 (wd 5 (ra 2)) := by
  unfold Issues; decide

theorem test_control_flow :
    (coreAt (after (.br 0 (wd 3 1)) (at_ (wd 3 1) regs)) 0).pc = 1 ∧
    (coreAt (after (.call 0 (wd 4 (rd 3 + 1))) (at_ (wd 4 (rd 3 + 1)) regs)) 0).pc = 1 ∧
    sreg (coreAt (after (.call 0 (wd 4 (rd 3 + 1))) (at_ (wd 4 (rd 3 + 1)) regs)) 0) 3 = 1 := by decide

theorem witness_EndWaitsForTheCore :
    Issues (at_ (wd 2 0) {}) 0 (wd 2 0) ∧ opIs (wd 2 0) 2 = true ∧ cmdAt (at_ (wd 2 0) {}) 0 = some launch ∧
    (∀ m ∈ launch.cores, barsOf (at_ (wd 2 0) {}) 0 launch m ≤ 0) ∧ (coreAt (at_ (wd 2 0) {}) 0).dc = [] := by
  unfold Issues; decide

theorem witness_EndWaitsForTheCore_others :
    (∀ c ∈ [{ mq := [{ word := wd 0xA0 0, index := 0, order := 0 }] }, { groups := [(2, 1)] }],
      Issues (at_ (wd 2 0) c) 0 (wd 2 0) ∧ (c.mq ≠ [] ∨ c.vq ≠ [] ∨ c.dq ≠ [] ∨ ∃ g ∈ c.groups, g.2 ≠ 0)) ∧
    (let k : Cmd := { launch with cores := [0, 1], endBars := [(1, 2)] }
     let s := onCore { im := [wd 2 0], bars := 1 } k
     Issues s 0 (wd 2 0) ∧ cmdAt s 0 = some k ∧ ∃ m ∈ k.cores, (coreAt s 0).bars < barsOf s 0 k m) := by
  unfold Issues; decide

/-- ADD s3, s1, s2 under p1, which is 0. -/
def wg : Word := wd 0x10 (2 ^ 52 + rd 3 + ra 1 + rb 2)

theorem witness_GuardsDecide :
    running (at_ wg regs) (coreAt (at_ wg regs) 0) = true ∧ (at_ wg regs).flt.armed.contains (7, 0) = false ∧
    wg = fetched (coreAt (at_ wg regs) 0) ∧ legalWord wg = true ∧ guardHolds (coreAt (at_ wg regs) 0) wg = false ∧ opIs wg 0x10 = true := by
  decide

/-- Forms that the tables refuse: MOV with B, SHLI by 64, MOVI with A, CMPEQ with IMM and IB = 0 or B and IB = 1, PG = 0 with
PN = 1, STS with X, VLD with STR = 0, SYSR with IMM = 8. -/
def refused : List Word :=
  [wd 0x1E (rb 1), wd 0x25 64, wd 0x2E (ra 1), wd 0x30 1, wd 0x30 (2 ^ 32 + rb 1), wd 0x01 (2 ^ 55), wd 0x41 (2 ^ 39), wd 0x44 0, wd 0x80 8]

theorem witness_refused_forms :
    (∀ k, k < 9 → Fetches (at_ (refused.getD k 0) {}) 0 (refused.getD k 0) ∧ legalWord (refused.getD k 0) = false) ∧
    fB (wd 0x1E (rb 1)) ≠ 0 ∧ 64 ≤ fImm (wd 0x25 64) ∧ fA (wd 0x2E (ra 1)) ≠ 0 ∧
    (fIB (wd 0x30 1) = false ∧ fImm (wd 0x30 1) ≠ 0) ∧ (fIB (wd 0x30 (2 ^ 32 + rb 1)) = true ∧ fB (wd 0x30 (2 ^ 32 + rb 1)) ≠ 0) ∧
    ((wd 0x01 (2 ^ 55)).toNat / 2 ^ 52 % 8 = 0 ∧ (wd 0x01 (2 ^ 55)).getLsbD 55 = true) ∧ fX (wd 0x41 (2 ^ 39)) = true ∧ fStr (wd 0x44 0) = 0 ∧
    7 < fImm (wd 0x80 8) := by
  unfold Fetches; decide

/-- The lone command of a core whose word is `w`. -/
theorem lone (w : Word) (c : Core) (h : c.dc = []) : Lone (at_ w c) 0 0 := ⟨rfl, h, rfl, launch, rfl, rfl, rfl, rfl⟩

/-- LDS, STS s3 at s2 + offset, 4 bytes wide. -/
def wm (op off : Nat) : Word := wd op (rd 3 + ra 2 + 2 * 2 ^ 40 + off)
/-- s2 = 0x17FFFC: the last word of the scratchpad. -/
def edge : Core := { sregs := [(2, 0x17FFFC), (3, 0x11223344)] }

theorem witness_IllegalAndFaultingForms :
    (running (at_ 0 {}) (coreAt (at_ 0 {}) 0) = true ∧ fetched (coreAt (at_ 0 {}) 0) = 0 ∧ assigned 0 = false) ∧
    (∀ op ∈ [3, 4], ∀ off ∈ [2, 0xFFFF], Issues (at_ (wd op off) {}) 0 (wd op off)) ∧
    Issues (at_ (wd 5 (ra 2)) { sregs := [(2, 2)] }) 0 (wd 5 (ra 2)) ∧
    (∀ op ∈ [0x40, 0x41], Issues (at_ (wm op 4) edge) 0 (wm op 4) ∧ Issues (at_ (wm op 0xFFFFFFFE) edge) 0 (wm op 0xFFFFFFFE)) := by
  unfold Issues; decide

theorem witness_IllegalInstructionEndsTheCommand :
    running (at_ 0 {}) (coreAt (at_ 0 {}) 0) = true ∧ (at_ 0 {}).flt.armed.contains (7, 0) = false ∧ 0 = fetched (coreAt (at_ 0 {}) 0) ∧
    assigned 0 = false ∧ (coreAt (at_ 0 {}) 0).cmd = some 0 ∧ cmdAt (at_ 0 {}) 0 = some launch ∧ launch.phase = .running ∧ launch.job = 0 ∧
    launch.cores = [0] ∧ (coreAt (at_ 0 {}) 0).dc = [] ∧ (at_ 0 {}).flt.recs = [] := by decide

theorem witness_ScratchpadFaults : Lone (at_ (wm 0x40 4) edge) 0 0 ∧ Lone (at_ (wm 0x41 2) edge) 0 0 :=
  ⟨lone (wm 0x40 4) edge (by decide), lone (wm 0x41 2) edge (by decide)⟩

theorem test_illegal_instruction :
    (cmdAt (after (.unassignedOpcode 0 0) (at_ 0 {})) 0).map (fun k => (k.phase, k.after)) = some (.killing, some 0x0B) ∧
    (coreAt (after (.unassignedOpcode 0 0) (at_ 0 {})) 0).st = .killed := by decide

theorem witness_ScratchpadScalarAccess :
    ∀ op ∈ [0x40, 0x41], Issues (at_ (wm op 0) edge) 0 (wm op 0) ∧ NoSpInjection (at_ (wm op 0) edge) 0 ∧
      interlocked (queued (coreAt (at_ (wm op 0) edge) 0)) [(0x17FFFC, 4)] [(0x17FFFC, 4)] = false := by
  unfold Issues NoSpInjection; decide

theorem test_scratchpad_faults :
    (cmdAt (after (.lds 0 (wm 0x40 4) {}) (at_ (wm 0x40 4) edge)) 0).map (fun k => k.after) = some (some 0x04) ∧
    (cmdAt (after (.sts 0 (wm 0x41 0xFFFFFFFF)) (at_ (wm 0x41 0xFFFFFFFF) edge)) 0).map (fun k => k.after) = some (some 0x04) := by decide

theorem test_scratchpad :
    mread (coreAt (after (.sts 0 (wm 0x41 0)) (at_ (wm 0x41 0) edge)) 0).sp 0x17FFFC 4 = [0x44, 0x33, 0x22, 0x11] ∧
    sreg (coreAt (after (.lds 0 (wm 0x40 0) {}) (at_ (wm 0x40 0) { edge with sp := [(0x17FFFF, 0x80)] })) 0) 3 = 0x80000000 ∧
    (let t := after (.lds 0 (wm 0x40 0) { sp := .uncorrected }) (at_ (wm 0x40 0) edge)
     (coreAt t 0).err = 2 ∧ (coreAt t 0).sramUe = 1 ∧ (cmdAt t 0).map (fun k => (k.phase, k.after)) = some (.killing, none)) := by decide

/-- VLD, VST v3 at s2, stride 1 line; s2 = the last base that fits. -/
def wv (op : Nat) : Word := wd op (rd 3 + ra 2 + 2 ^ 30)
def vbase : Core := { sregs := [(2, 0x17FC00)] }

theorem witness_ScratchpadVectorAccess :
    (∀ op ∈ [0x44, 0x45], Issues (at_ (wv op) vbase) 0 (wv op) ∧ vPending (coreAt (at_ (wv op) vbase) 0) 3 = false ∧
      vReadPending (coreAt (at_ (wv op) vbase) 0) 3 = false ∧ NoSpInjection (at_ (wv op) vbase) 0 ∧
      interlocked (queued (coreAt (at_ (wv op) vbase) 0)) ((vecLines (coreAt (at_ (wv op) vbase) 0) (wv op)).map (fun a => (a, 64))) [] = false) ∧
    (0x17FC00 : Nat) % 64 = 0 ∧ ∀ k, k < 16 → 0x17FC00 + 64 * 1 * k + 64 ≤ 0x180000 := by
  unfold Issues NoSpInjection; decide

theorem witness_VectorFaults :
    ∀ op ∈ [0x44, 0x45], Issues (at_ (wv op) { sregs := [(2, 0x17FC01)] }) 0 (wv op) ∧ Issues (at_ (wv op) { sregs := [(2, 0x17FC40)] }) 0 (wv op) := by
  unfold Issues; decide

theorem witness_VectorFaults_lone : Lone (at_ (wv 0x44) { sregs := [(2, 0x17FC40)] }) 0 0 :=
  lone (wv 0x44) { sregs := [(2, 0x17FC40)] } (by decide)

/- Global memory, DMA, synchronisation, queues. -/

/-- The attempt writes the page at 0x10000, whose shadow frame stands at 0x700000000. -/
def writer : Cmd := { launch with regions := [(0x10000, 65536)], shadows := [{ dpa := 0x10000, size := 65536, frame := 0x700000000 }] }
/-- A core that has the page's leaf, and its line both as committed and in the shadow frame. -/
def cached : Core :=
  { sregs := [(2, 0x10000), (3, 0x11223344)], tc := [⟨1, 0, 0x10000, 0, 0x10000, true, true, false⟩]
    dc := [⟨4, 0x1000, .shared, List.replicate 64 7⟩, ⟨4, 0x70000000, .exclusive, List.replicate 64 7⟩] }
def memOn (w : Word) (c : Core) : State := onCore { c with im := [w, wd 1 0] } writer
/-- LDG, STG s3 at s2, 4 bytes. -/
def wl (op : Nat) : Word := wd op (rd 3 + ra 2 + 2 * 2 ^ 40)

theorem witness_GlobalAccessThroughTheDataCache :
    agentHalted (memOn (wl 0x50) cached) 0 = false ∧ agentHalted (memOn (wl 0x51) cached) 0 = false ∧
    (chanAt (memOn (wl 0x51) cached) (channelOf 0x700001000)).mode ≠ .fenced ∧
    Issues (memOn (wd 0x52 0) cached) 0 (wd 0x52 0) ∧ Issues (memOn (wl 0x50) cached) 0 (wl 0x50) ∧ Issues (memOn (wl 0x51) cached) 0 (wl 0x51) ∧
    tcLook colony1 cached.tc 1 0 0x10000 .read = .ok 0x10000 ⟨0x10000, 0, 0x10000, true, true, false⟩ ∧
    tcLook colony1 cached.tc 1 0 0x10000 .write = .ok 0x10000 ⟨0x10000, 0, 0x10000, true, true, false⟩ ∧
    readAddr (memOn (wl 0x50) cached) colony1 (some writer) 0x10000 = 0x10000 ∧
    (cacheFind cached.dc (channelOf 0x10000) (chanOff (lineBase 0x10000))).isSome = true ∧ inRegions writer 0x10000 4 = true ∧
    (shadowFor writer 0x10000).map (fun sh => sh.addr 0x10000) = some 0x700001000 ∧ ownCheck colony1 0 (channelOf 0x700001000) = .pass ∧
    (cacheFind cached.dc (channelOf 0x700001000) (chanOff (lineBase 0x700001000))).map (fun l => l.mode) = some .exclusive := by
  unfold Issues; decide

theorem test_global_access :
    sreg (coreAt (after (.ldg 0 (wl 0x50) {}) (memOn (wl 0x50) cached)) 0) 3 = 0x07070707 ∧
    ((cacheFind (coreAt (after (.stg 0 (wl 0x51) {}) (memOn (wl 0x51) cached)) 0).dc 4 0x70000000).map (fun l => (l.mode, l.data.take 5))) =
      some (.modified, [0x44, 0x33, 0x22, 0x11, 7]) := by decide

/-- A descriptor of one row of 1 line: q0 the address 0x10000, q1 line count 1, row count 1, offset 64 (R83). -/
def descBytes : List Byte := leBytes 8 0x10000 ++ leBytes 8 (2 ^ 48 + 2 ^ 32 + 64) ++ zeros 16
/-- DMA group 2 with the descriptor at s2 = 0. -/
def wdma : Word := wd 0x60 (rd 2)
def dmaCore : Core := { sp := mwrite [] 0 descBytes }

theorem witness_DmaIssueAndWait :
    (Issues (at_ wdma dmaCore) 0 wdma ∧ NoSpInjection (at_ wdma dmaCore) 0 ∧ descOk (mread dmaCore.sp 0 32) = true ∧
      interlocked (queued (coreAt (at_ wdma dmaCore) 0)) [(0, 32)] [] = false) ∧
    (Issues (at_ (wd 0x61 (rd 2)) {}) 0 (wd 0x61 (rd 2)) ∧ group {} 2 ≤ fImm (wd 0x61 (rd 2))) ∧
    (Issues (at_ (wd 0x61 (rd 2)) { groups := [(2, 1)] }) 0 (wd 0x61 (rd 2)) ∧ fImm (wd 0x61 (rd 2)) < group { groups := [(2, 1)] } 2) ∧
    Issues (at_ (wd 0x62 0) {}) 0 (wd 0x62 0) ∧
    (Issues (at_ (wd 0x62 0) { groups := [(2, 1)] }) 0 (wd 0x62 0) ∧ ∃ g ∈ (coreAt (at_ (wd 0x62 0) { groups := [(2, 1)] }) 0).groups, g.2 ≠ 0) := by
  unfold Issues NoSpInjection; decide

theorem test_dma :
    (coreAt (after (.dma 0 wdma {}) (at_ wdma dmaCore)) 0).dq.map (fun d => (d.va, d.spo, d.lines, d.group, d.toHbm)) = [(0x10000, 64, 1, 2, false)] ∧
    group (coreAt (after (.dma 0 wdma {}) (at_ wdma dmaCore)) 0) 2 = 1 := by decide

def sysr (k : Nat) : Word := wd 0x80 (rd 3 + k)

theorem witness_SynchronisationEffects :
    (Issues (at_ (wd 0x70 5) {}) 0 (wd 0x70 5) ∧ launch.cores[0]? = some 0) ∧
    (Issues (at_ (wd 0x71 (2 ^ 38 + 1)) { sems := [(1, 1)] }) 0 (wd 0x71 (2 ^ 38 + 1)) ∧ fImm (wd 0x71 (2 ^ 38 + 1)) ≤ sem { sems := [(1, 1)] } 1) ∧
    (Issues (at_ (wd 0x71 (2 ^ 38 + 1)) {}) 0 (wd 0x71 (2 ^ 38 + 1)) ∧ sem {} 1 < 1) ∧
    (Issues (at_ (wd 0x72 0) {}) 0 (wd 0x72 0) ∧ writesReturned (coreAt (at_ (wd 0x72 0) {}) 0) 0 = true ∧ ∀ m ∈ launch.cores, m ≠ 0 → False) ∧
    (Issues (onCore { im := [wd 0x72 0] } { launch with n := 2, cores := [0, 1] }) 0 (wd 0x72 0) ∧
      ∃ m ∈ [0, 1], m ≠ 0 ∧ barsOf (onCore { im := [wd 0x72 0] } { launch with n := 2, cores := [0, 1] }) 0 { launch with n := 2, cores := [0, 1] } m ≤ 0) ∧
    (Issues (at_ (wd 0x72 0) { bars := 1, stall := .barrier }) 0 (wd 0x72 0) ∧ ∀ m ∈ launch.cores, m ≠ 0 → False) ∧
    (Fetches (at_ (wd 0x80 8) {}) 0 (wd 0x80 8) ∧ 7 < fImm (wd 0x80 8)) ∧
    Issues (at_ (wd 0x73 (rd 3)) {}) 0 (wd 0x73 (rd 3)) ∧ ∀ k ∈ List.range 8, Issues (at_ (sysr k) {}) 0 (sysr k) := by
  unfold Issues Fetches; decide

theorem test_synchronisation :
    sem (coreAt (after (.wait 0 (wd 0x71 (2 ^ 38 + 1))) (at_ (wd 0x71 (2 ^ 38 + 1)) { sems := [(1, 3)] })) 0) 1 = 2 ∧
    sreg (coreAt (after (.sysr 0 (sysr 1)) (at_ (sysr 1) {})) 0) 3 = 1 ∧
    (after (.sig 0 (wd 0x70 5)) (at_ (wd 0x70 5) {})).signals.map (fun m => (m.src, m.dst, m.sem, m.value)) = [(0, 0, 0, 5)] := by decide

/-- ACC.CLR of tile 1, KERNEL mode, anchor from s2. -/
def wclr : Word := wd 0x90 (2 ^ 51 + ra 2)

theorem witness_AccClrAnchorsATile :
    Issues (at_ wclr { sregs := [(2, 0x3FF)] }) 0 wclr ∧ opIs wclr 0x90 = true ∧ fMode wclr = 0 ∧ launch.legacy = false := by
  unfold Issues; decide

theorem test_acc_clr : (tile (coreAt (after (.accClr 0 wclr) (at_ wclr { sregs := [(2, 0x3FF)] })) 0) true).anchor = -1 := by decide

theorem witness_QueuedInstructions :
    (∀ op ∈ [0xA0, 0xA4, 0xA9], Issues (at_ (wd op 0) {}) 0 (wd op 0)) ∧ Issues (at_ (wd 0xA8 0) {}) 0 (wd 0xA8 0) ∧
    (∀ op ∈ [0xA0, 0xA4, 0xA8, 0xA9], let q : QInstr := { word := wd op 0, index := 0, order := 0 }
      interlocked (queued {}) (spReads q) (spWrites q) = false) ∧
    (∀ op ∈ [0xC0, 0xC1, 0xC2, 0xC3, 0xC4, 0xC5, 0xC6, 0xC7, 0xC8, 0xC9, 0xCA, 0xCB, 0xCC, 0xCD, 0xCE, 0xCF, 0xD0, 0xDA, 0xDB, 0xDC, 0xDD, 0xDE],
      Issues (at_ (wd op 0) {}) 0 (wd op 0)) ∧ Issues (at_ (wd 0xD8 1) {}) 0 (wd 0xD8 1) := by
  unfold Issues; decide

/-- An MM of one k-block in 8-bit formats waits at the head of the matrix queue; a VADD v1, v2, v3 in the vector queue. -/
def wmm : Word := wd 0xA0 (2 * 2 ^ 48 + 2 * 2 ^ 45)
def mmState : State := onCore { mq := [{ word := wmm, index := 0, order := 0 }] } launch
def wvadd : Word := wd 0xC0 (rd 1 + ra 2 + rb 3)
def vecState : State :=
  onCore { vq := [{ word := wvadd, index := 0, order := 0 }], vregs := [(512 + 255, 0x3F800000), (768 + 255, 0x40000000)] } launch

/-- The same for another queue head; an MM of a sparse B that is read from scratchpad 0, an ACC.WR of one row whose pitch is 64
bytes, one of FP8 rows as a blocked operand, one block-scaled. -/
def headOn (q : QInstr) (c : Core) : State := onCore { c with mq := [q] } launch
def qOf (w : Word) (y : Word) : QInstr := { word := w, index := 0, order := 1, y := y }
def wsp : Word := wd 0xA0 (2 * 2 ^ 48 + 2 * 2 ^ 45 + 2 ^ 22)
def spCore : Core := { sp := (List.range 512).map (fun i => (2048 + i, 0x44)) }
/-- A VACC of v1 into tile 0. -/
def wvacc : Word := wd 0xDC (ra 1)

/-- Every byte of a stretch that lists one value is that value. -/
theorem mget_evenly (b k n : Nat) (v : Byte) (h : k < n) : mget ((List.range n).map (fun i => (b + i, v))) (b + k) = v := by
  induction n generalizing b k with
  | zero => omega
  | succ n ih =>
    rw [List.range_succ_eq_map, List.map_cons, List.map_map]
    simp only [mget]
    split
    · rfl
    · have hk : b + k = (b + 1) + (k - 1) := by omega
      have e : (fun i => (b + i, v)) ∘ Nat.succ = fun i => (b + 1 + i, v) := by
        funext i
        simp only [Function.comp_apply, Nat.succ_eq_add_one, Prod.mk.injEq, and_true]
        omega
      rw [hk, e]
      exact ih (b + 1) (k - 1) (by omega)

theorem witness_MatrixDispatchRunsMm :
    running mmState (coreAt mmState 0) = true ∧ (coreAt mmState 0).mq = [{ word := wmm, index := 0, order := 0 }] ∧ opOf wmm = 0xA0 ∧
    NoSpInjection mmState 0 ∧ (tile (coreAt mmState 0) (fT wmm)).mode = 0 ∧ (coreAt mmState 0).vq = [] ∧
    (∀ r ∈ spReads { word := wmm, index := 0, order := 0 } ++ spWrites { word := wmm, index := 0, order := 0 }, r.1 + r.2 ≤ 0x180000) ∧
    (∀ a ∈ offsetsOf { word := wmm, index := 0, order := 0 }, a % 64 = 0) ∧ fSP wmm = false := by
  unfold NoSpInjection; decide

theorem witness_MatrixDispatchRunsMm_others :
    (∀ op ∈ [0xA4, 0xA9, 0xA8], let q := qOf (wd op 0) 64
      running (headOn q {}) (coreAt (headOn q {}) 0) = true ∧
      (∀ r ∈ spReads q ++ spWrites q, r.1 + r.2 ≤ 0x180000) ∧ (∀ a ∈ offsetsOf q, a % 64 = 0)) ∧
    opOf (wd 0xA4 0) = 0xA4 ∧ opOf (wd 0xA9 0) = 0xA9 ∧ opOf (wd 0xA8 0) = 0xA8 ∧ launch.legacy = false ∧
    fLAY (wd 0xA8 0) = 0 ∧ roundUp (rowBytes (wd 0xA8 0)) 64 ≤ 64 ∧
    (let v : QInstr := { word := wvacc, index := 0, order := 0 }
     let s := onCore { mq := [qOf (wd 0xA4 0) 0], vq := [v] } launch
     running s (coreAt s 0) = true ∧ vaccOn (fT (wd 0xA4 0)) v = true ∧ v.order < (qOf (wd 0xA4 0) 0).order) := by decide

theorem witness_MatrixDispatchRunsMm_sparse :
    running (headOn (qOf wsp 0) spCore) (coreAt (headOn (qOf wsp 0) spCore) 0) = true ∧ fSP wsp = true ∧ fKB wsp = 0 ∧
    (∀ r ∈ spReads (qOf wsp 0), r.1 + r.2 ≤ 0x180000) ∧
    ∀ l, l < 128 → metaOk (sparseMeta spCore.sp (fFB wsp) (0 * blockBytes (fFB wsp) true) l) = true := by
  refine ⟨by decide, by decide, by decide, by decide, fun l hl => ?_⟩
  have e (j : Nat) (h : j < 512) : mget spCore.sp (2048 + j) = 0x44 := mget_evenly 2048 j 512 0x44 h
  simp only [sparseMeta, show (fFB wsp) = 2 by decide, Nat.zero_mul, Nat.zero_add, mread, Nat.add_assoc]
  rw [if_neg (by decide), e _ (by omega), e _ (by omega), e _ (by omega), e _ (by omega)]
  decide

theorem test_accumulator_error :
    (let t := after (.matrixDispatch 0 { acc := .uncorrected }) mmState
     (coreAt t 0).err = 4 ∧ (coreAt t 0).accUe = 1 ∧ (cmdAt t 0).map (fun k => k.phase) = some .killing) := by decide

theorem witness_VectorDispatchIsLanewise :
    running vecState (coreAt vecState 0) = true ∧ (coreAt vecState 0).vq = [{ word := wvadd, index := 0, order := 0 }] ∧ opOf wvadd = 0xC0 := by
  decide

theorem witness_VectorDispatchIsLanewise_others :
    (∀ y ∈ [1, 128, 126], let q : QInstr := { word := wvacc, index := 0, order := 0, y := BitVec.ofNat 64 y }
      let s := onCore { vq := [q] } launch
      running s (coreAt s 0) = true ∧ (coreAt s 0).vq = [q] ∧ opOf q.word = 0xDC ∧ (coreAt s 0).mq = []) ∧
    (let q : QInstr := { word := wvacc, index := 0, order := 5 }
     let m : QInstr := { word := wd 0xA4 0, index := 0, order := 3 }
     let s := onCore { vq := [q], mq := [m] } launch
     running s (coreAt s 0) = true ∧ fT m.word = bit wvacc 0 ∧ m.order < q.order) ∧
    (let q : QInstr := { word := wd 0xDD 0, index := 0, order := 0, x := 0x17F000 }
     let s := onCore { vq := [q] } launch
     running s (coreAt s 0) = true ∧ opOf q.word = 0xDD ∧ spOperand q.x % 64 = 0 ∧ spOperand q.x + 4096 ≤ 0x180000 ∧ NoSpInjection s 0) ∧
    (∀ sub ∈ [0x01, 0x41, 0x53], let q : QInstr := { word := wd 0xD8 sub, index := 0, order := 0 }
      let s := onCore { vq := [q] } launch
      running s (coreAt s 0) = true ∧ opOf q.word = 0xD8 ∧ subOk 0xD8 (fSub q.word) = true) := by
  unfold NoSpInjection; decide

/-- R120: a VACC adds 256 lanes to two rows from an even one; an odd row is illegal. -/
theorem test_vacc :
    (let s (y : Word) := onCore { vq := [{ word := wvacc, index := 0, order := 0, y := y }], vregs := [(256, 0x3F800000)] } launch
     tget {} (tile (coreAt (after (.vectorDispatch 0 {}) (s 126)) 0) false).elems (126 * 128) ≠ {} ∧
     (cmdAt (after (.vectorDispatch 0 {}) (s 1)) 0).map (fun k => k.after) = some (some 0x0B)) := by decide +kernel

theorem test_fadd : fadd 0x3F800000 0x40000000 = 0x40400000 ∧ fmul 0x3F800000 0x40000000 = 0x40000000 ∧ fadd 0x7F800000 0xFF800000 = 0x7FC00000 := by
  decide

/-- Descriptors of one line at 0x10000, scratchpad offset 64: a read and a write. -/
def desc1 (hbm : Bool) : DmaDesc :=
  { id := 0, group := 2, toHbm := hbm, list := false, va := 0x10000, spo := 64, lspo := 0, lines := 1, rows := 1, hstride := 0, sstride := 0, offset := 0, word := 0, index := 0 }
def dmaOn (hbm : Bool) : State := onCore { cached with dc := [], dq := [desc1 hbm], groups := [(2, 1)] } writer
def leaf1 : Pte := ⟨0x10000, 0, 0x10000, true, true, false⟩

theorem witness_DmaLinesAndTags_issue :
    (∀ b ∈ [false, true], running (dmaOn b) (coreAt (dmaOn b) 0) = true ∧ (coreAt (dmaOn b) 0).cmd = some 0 ∧
      (coreAt (dmaOn b) 0).dq.find? (fun x => decide (x.issued < x.total)) = some (desc1 b) ∧ tagFree (coreAt (dmaOn b) 0) b 0 = true ∧
      lineAt (coreAt (dmaOn b) 0) (desc1 b) 0 = .ok 0x10000 64 ∧ agentHalted (dmaOn b) 0 = false ∧ (coreAt (dmaOn b) 0).tags.length < 385 ∧
      creditFor (dmaOn b) (channelOf 0x10000) 0 0 = some .urgent ∧ creditFor (dmaOn b) (channelOf 0x700001000) 0 0 = some .urgent ∧
      requestWaits (dmaOn b) 0 (channelOf 0x10000) (chanOff 0x10000) = false ∧ ncBlocked (dmaOn b) (channelOf 0x10000) (chanOff 0x10000) b = false ∧
      requestWaits (dmaOn b) 0 (channelOf 0x700001000) (chanOff 0x700001000) = false ∧
      ncBlocked (dmaOn b) (channelOf 0x700001000) (chanOff 0x700001000) b = false ∧ earlierConflict (coreAt (dmaOn b) 0) (desc1 b) 64 = false ∧
      tcLook colony1 (coreAt (dmaOn b) 0).tc 1 0 0x10000 (if b then .write else .read) = .ok 0x10000 leaf1) ∧
    readAddr (dmaOn false) colony1 (some writer) 0x10000 = 0x10000 ∧ ownCheck colony1 0 (channelOf 0x10000) = .pass ∧
    inRegions writer 0x10000 64 = true ∧ (shadowFor writer 0x10000).isSome = true ∧ (chanAt (dmaOn true) 0).mode ≠ .fenced ∧
    NoSpInjection (dmaOn true) 0 := by
  unfold NoSpInjection; decide

/-- A class with no entry left: the slice in limit mode (R256) and the device's limit 0; a slice that holds the line, and one whose
controller queue is full (R231, R232). -/
def fullQueue : List MemReq := (List.range 224).map (fun k => ⟨639, k, 4, 64 * k, .shared⟩)
def dmaCls (c : Channel) (l : Nat) : State :=
  { dmaOn false with cmds := [(0, { writer with cls := 4 })], chans := [(channelOf 0x10000, c)], hub := { outLim := l } }

theorem witness_DmaLinesAndTags_credit :
    creditFor (dmaCls { limit := true } 0) (channelOf 0x10000) 0 4 = none ∧
    creditFor (dmaCls {} 64) (channelOf 0x10000) 0 4 = some .reserved ∧
    queueRoom (chanAt (dmaCls { queue := fullQueue } 64) (channelOf 0x10000)) 4 = false ∧
    resident (chanAt (dmaCls { lines := [⟨chanOff 0x10000, 4, false, 0⟩] } 64) (channelOf 0x10000)) (chanOff 0x10000) = true := by decide +kernel

theorem test_request_buffer :
    (coreAt (after (.dmaLineIssue 0 {}) (dmaCls { limit := true } 0)) 0).tags = [] ∧
    (chanAt (after (.dmaLineIssue 0 {}) (dmaCls {} 64)) (channelOf 0x10000)).queue.map (fun r => (r.tag, r.cls)) = [(0, 4)] ∧
    (chanAt (after (.dmaLineIssue 0 {}) (dmaCls { queue := fullQueue } 64)) (channelOf 0x10000)).buf.map (fun r => (r.tag, r.cls)) = [(0, 4)] := by
  decide +kernel

/-- A descriptor of a list whose one entry, at scratchpad offset 128, is 0x10000. -/
def listOn : State :=
  let d : DmaDesc := { desc1 false with list := true, lspo := 128 }
  onCore { cached with dc := [], dq := [d], groups := [(2, 1)], sp := mwrite [] 128 (leBytes 8 0x10000) } writer

theorem witness_DmaLinesAndTags_list :
    lineAt (coreAt listOn 0) { desc1 false with list := true, lspo := 128 } 0 = .ok 0x10000 64 ∧
    dmaConflict (coreAt listOn 0) { desc1 false with list := true, lspo := 128 } [(128, 8)] [] = false := by decide

theorem witness_DmaLinesAndTags_read : checkRead (dmaOn false) (sourceAddr (dmaOn false) 0x10000) = (dmaOn false, none) := by rfl

/-- A tag of descriptor 0 out in epoch `e`, the core in epoch 0. -/
def tag1 (w : Bool) (e : Nat) : DmaTag :=
  { tag := 5, write := w, urgent := false, epoch := e, desc := 0, spo := 64, data := List.replicate 64 9, instar := 0, colony := 1, cmd := 0 }
def tagOn (w : Bool) (e : Nat) : State := onCore { tags := [tag1 w e], dq := [{ desc1 w with issued := 1, out := 1 }], groups := [(2, 1)] } launch

theorem witness_DmaLinesAndTags_return :
    ∀ w ∈ [false, true], ∀ e ∈ [0, 15],
      (coreAt (tagOn w e) 0).tags.find? (fun x => x.tag == 5 && x.write == w) = some (tag1 w e) ∧ (coreAt (tagOn w e) 0).st = .running ∧
      replyHeld (tagOn w e) 0 0 5 = false ∧
      replyHeld { tagOn w e with chans := [(0, { buf := [⟨0, 5, 0, 0, .urgent⟩] })] } 0 0 5 = true := by
  decide

theorem test_dma_tags :
    mread (coreAt (after (.dmaReadReply 0 5) (tagOn false 0)) 0).sp 63 2 = [0, 9] ∧ group (coreAt (after (.dmaReadReply 0 5) (tagOn false 0)) 0) 2 = 0 ∧
    (coreAt (after (.dmaReadReply 0 5) (tagOn false 15)) 0).sp = [] ∧
    (coreAt (after (.dmaWriteTagReturn 0 5) (tagOn true 0)) 0).dq = [] ∧
    (coreAt (after (.dmaLineIssue 0 {}) (dmaOn false)) 0).tags.map (fun g => (g.desc, g.spo)) = [(0, 64)] := by decide

/-- A signal of `v` to semaphore 1 of core 0, which holds 1. -/
def sigOn (v after : Nat) (c : Core) : State :=
  { onCore { c with sems := [(1, 1)] } launch with
    signals := [{ cmd := 0, src := 0, dst := 0, sem := 1, value := v, index := 0, word := 0, after := after }] }

theorem witness_SignalsReachTheirSemaphore :
    ((findIdx? (fun x : SignalMsg => x.src == 0 && x.dst == 0) (sigOn 1 1 { dq := [desc1 true] }).signals).isSome = true ∧
      writesReturned (coreAt (sigOn 1 1 { dq := [desc1 true] }) 0) 1 = false) ∧
    (∀ v ∈ [2 ^ 32 - 2, 2 ^ 32 - 1], writesReturned (coreAt (sigOn v 0 {}) 0) 0 = true ∧ (coreAt (sigOn v 0 {}) 0).cmd = some 0 ∧
      (coreAt (sigOn v 0 {}) 0).st = .running ∧ sem (coreAt (sigOn v 0 {}) 0) 1 = 1) ∧
    (coreAt (sigOn 1 0 { ended := true }) 0).ended = true := by decide

theorem test_signals :
    sem (coreAt (after (.signalDelivery 0 0) (sigOn (2 ^ 32 - 2) 0 {})) 0) 1 = 2 ^ 32 - 1 ∧
    (cmdAt (after (.signalDelivery 0 0) (sigOn (2 ^ 32 - 1) 0 {})) 0).map (fun k => k.after) = some (some 0x0B) ∧
    sem (coreAt (after (.signalDelivery 0 0) (sigOn 1 0 { ended := true })) 0) 1 = 1 := by decide

/-- R226's top of a set and R227's hash. -/
theorem witness_AddressMapSpreadsAndInverts : channelOf (frameAddr 511 (2 ^ 31 - 1)) = 511 ∧ chanOff (frameAddr 511 (2 ^ 31 - 1)) = 2 ^ 31 - 1 ∧
    frameAddr 1 0 = 0x400 ∧ channelOf 0x4400 = 0 := by decide

/- Coherence. -/

/-- Channel 0 with one directory entry for line 64, which lies in a shadow frame. -/
def dirOn (e : DirEntry) (dc : List CacheLine) : State :=
  { base with chans := [(0, { dir := [e] })], cores := [(0, { dc := dc }), (1, {})]
              cmds := [(7, { launch with shadows := [⟨0x10000, 65536, 0, []⟩] })], nextCmd := 8 }
def ent (st : DirState) : DirEntry := { offset := 64, st := st, sharers := [1], owner := 1, pendAgent := 0, pendKind := .getm, acks := [1] }

theorem witness_LineRequests :
    (∀ a ∈ [0, 640], domainOpen base a 511 = true ∧ heldLine base a 511 0 = none ∧ requestWaits base a 511 0 = false ∧
      mayIssue base a (agentClass base a) 511 0 = true ∧ lineOpen base a 511 0 false = true ∧ isCaching a = true) ∧
    (dirFind (chanAt base 511) 0 = none ∧ lineWf 0 = true ∧ dirRoom (chanAt base 511) 0 = true ∧ lineOpen base 640 511 0 true = true) ∧
    (∀ st ∈ [DirState.shared, .owned, .invalidating], domainOpen (dirOn (ent st) []) 2 0 = true ∧ isCaching 2 = true ∧
      heldLine (dirOn (ent st) []) 2 0 64 = none ∧ requestWaits (dirOn (ent st) []) 2 0 64 = false ∧
      mayIssue (dirOn (ent st) []) 2 (agentClass (dirOn (ent st) []) 2) 0 64 = true ∧ lineOpen (dirOn (ent st) []) 2 0 64 true = true ∧
      dirFind (chanAt (dirOn (ent st) []) 0) 64 = some (ent st) ∧
      (∀ x ∈ (chanAt (dirOn (ent st) []) 0).dir, x.offset = 64 → x = ent st)) ∧
    (∃ a ∈ sharerAgents (dirOn (ent .shared) []) (ent .shared), a ≠ 2) ∧ DirState.invalidating.transient = true ∧
    creditFor (dmaCls { limit := true } 0) (channelOf 0x10000) 0 (agentClass (dmaCls { limit := true } 0) 0) = none := by decide

theorem witness_LineRequests_read (a : Nat) (st : DirState) :
    checkRead base (sourceAddr base (frameAddr 511 0)) = (base, none) ∧ NoneReserved base a 511 0 ∧
    checkRead (dirOn (ent st) []) (sourceAddr (dirOn (ent st) []) (frameAddr 0 64)) = (dirOn (ent st) [], none) ∧ NoneReserved (dirOn (ent st) []) a 0 64 :=
  ⟨rfl, List.forall_mem_nil _, by cases st <;> rfl, List.forall_mem_nil _⟩

theorem test_line_requests :
    ((dirFind (chanAt (after (.gets 2 0 64 {}) (dirOn (ent .shared) [])) 0) 64).map (fun e => e.sharers)) = some [1, 2] ∧
    ((dirFind (chanAt (after (.getm 2 0 64 false {}) (dirOn (ent .owned) [])) 0) 64).map (fun e => (e.st, e.acks))) = some (.forwarding, [1]) ∧
    (chanAt (after (.getm 2 0 64 false {}) (dirOn (ent .invalidating) [])) 0).nacks = 1 ∧
    mread (after (.ncw 2 0 64 (List.replicate 64 3)) base).hbm 64 1 = [3] ∧
    ((cacheFind (cacheOf (after (.getm 640 511 0 false {}) base) 640) 511 0).map (fun l => l.mode)) = some .modified := by decide

/-- Agent 1's modified copy. -/
def held1 (e : DirEntry) : State :=
  { base with chans := [(0, { dir := [e] })], cores := [(0, {}), (1, { dc := [⟨0, 64, .modified, List.replicate 64 5⟩] })] }

theorem witness_CachesAnswerTheHome :
    ∀ st ∈ [DirState.forwarding, .invalidating, .recallingShared, .recallingOwned], domainOpen (held1 (ent st)) 1 0 = true ∧
      isCaching 1 = true ∧ dirFind (chanAt (held1 (ent st)) 0) 64 = some (ent st) ∧ 1 ∈ (ent st).acks ∧
      heldLine (held1 (ent st)) 1 0 64 = some ⟨0, 64, .modified, List.replicate 64 5⟩ := by decide

theorem witness_HomeEndsTransientStates :
    (serving base = true ∧ (∀ m ∈ (chanAt (dirOn (ent .invalidating) []) 0).nacked, m.reserved = false) ∧
      heldLine (dirOn (ent .invalidating) []) 1 0 64 = none ∧ (∀ a ∈ (ent .invalidating).acks, a = 1) ∧ isCaching 0 = true ∧
      agentFenced (dirOn (ent .invalidating) []) 0 = false ∧ (chanAt (dirOn (ent .invalidating) []) 0).mode ≠ .fenced ∧
      homeBad (dirOn (ent .invalidating) []) 0 64 = false) ∧
    (heldLine (dirOn (ent .recallingShared) []) 1 0 64 = none ∧ (ent .recallingShared).pendData = []) ∧
    (let e : DirEntry := { ent .forwarding with pendKind := .gets, answer := some [] }
     dirFind (chanAt (dirOn e []) 0) 64 = some e ∧ e.owner = 1 ∧ agentFenced (dirOn e []) 0 = false ∧ homeBad (dirOn e []) 0 64 = false) := by decide

theorem test_transient_states :
    ((dirFind (chanAt (after (.invalidationAck 1 0 64) (dirOn (ent .invalidating) [])) 0) 64).map (fun e => (e.st, e.owner))) = some (.owned, 0) ∧
    dirFind (chanAt (after (.invalidationAck 1 0 64) (dirOn (ent .recallingShared) [])) 0) 64 = none ∧
    ((dirFind (chanAt (after (.forwardedRequest 1 0 64) (held1 (ent .forwarding))) 0) 64).map (fun e => e.answer)) =
      some (some (List.replicate 64 5)) ∧
    heldLine (after (.invalidation 1 0 64) (held1 (ent .invalidating))) 1 0 64 = none := by decide

/-- Agent 2's GETM was NACKed seven times. -/
def nackOn : State := { base with chans := [(0, { nacked := [{ agent := 2, offset := 64, kind := .getm, count := 7 }] })] }

theorem witness_LinesLeaveTheCaches :
    (domainOpen (held1 (ent .owned)) 1 0 = true ∧ lineWf 64 = true ∧ isCaching 1 = true ∧
      heldLine (held1 (ent .owned)) 1 0 64 = some ⟨0, 64, .modified, List.replicate 64 5⟩ ∧ (ent .owned).owner = 1 ∧
      dirFind (chanAt (held1 (ent .owned)) 0) 64 = some (ent .owned)) ∧
    (domainOpen nackOn 2 0 = true ∧ (chanAt nackOn 0).nacked.find? (fun x => x.agent == 2 && x.offset == 64) =
        some { agent := 2, offset := 64, kind := .getm, count := 7 } ∧
      dirFind (chanAt nackOn 0) 64 = none ∧ dirRoom (chanAt nackOn 0) 64 = true ∧
      mayIssue nackOn 2 (agentClass nackOn 2) 0 64 = true ∧ ∀ m ∈ (chanAt nackOn 0).nacked, m.reserved = true → m.offset = 64 → m.agent = 2) := by decide

theorem witness_LinesLeaveTheCaches_read : checkRead nackOn (sourceAddr nackOn (frameAddr 0 64)) = (nackOn, none) := rfl

theorem test_write_back :
    mread (after (.putm 1 0 64) (held1 (ent .owned))).hbm 64 1 = [5] ∧ (chanAt (after (.putm 1 0 64) (held1 (ent .owned))) 0).dir = [] ∧
    (after (.drop 1 0 64) (held1 (ent .owned))).hbm = [] ∧
    ((dirFind (chanAt (after (.nackRetry 2 0 64) nackOn) 0) 64).map (fun e => (e.st, e.owner))) = some (.owned, 2) := by decide

/- Rings and commands. -/

/-- Ring 0 of page 0, 64 slots, with its completion ring. -/
def ring0 (r : SqRing) : State :=
  { base with hub := { sqs := [(0, r)], cqs := [(0, { enable := true, log2n := 6 })] } }
def sq6 : SqRing := { enable := true, log2n := 6, st := .running, head := 62, tail := 63 }

theorem witness_RingPageWrites :
    ownsPage (ring0 sq6) .pf 0 0 = true ∧ sqAt (ring0 sq6) 0 0 = sq6 ∧ sq6.head < 2 ^ 6 ∧ sq6.tail < 2 ^ 6 ∧
    ((0 : Nat) + 64 - 62) % 64 ≥ (63 + 64 - 62) % 64 ∧ (62 + 64 - 62) % 64 < (63 + 64 - 62) % 64 ∧
    ownsPage (ring0 {}) .pf 0 0 = true ∧ (sqAt (ring0 {}) 0 0).enable = false ∧ (0x26 : Word).getLsbD 5 = true ∧ (0x26 : Word).toNat % 32 = 6 ∧
    (0x30 : Word).toNat % 32 = 16 ∧ (cqAt (ring0 {}) 0 0).enable = true ∧ (cqAt (ring0 {}) 0 1).enable = false ∧ (6 : Word).getLsbD 5 = false ∧
    6 ≤ (cqAt (ring0 {}) 0 0).log2n ∧ (cqAt (ring0 {}) 0 0).log2n ≤ 16 ∧ (sqAt (ring0 sq6) 0 0).enable = true ∧ (1 : Word).getLsbD 0 = true ∧ (sqAt (ring0 { sq6 with st := .stopped }) 0 0).st = .stopped ∧ (∀ e ∈ (ring0 sq6).cmds, e.2.op ≠ 0x03) := by
  decide

theorem test_doorbell :
    (sqAt (after (.sqDoorbell .pf 0 0 0) (ring0 sq6)) 0 0).tail = 0 ∧ (sqAt (after (.sqDoorbell .pf 0 0 62) (ring0 sq6)) 0 0).dberr = true ∧
    (sqAt (after (.sqDoorbell .pf 0 0 64) (ring0 sq6)) 0 0).dberr = true ∧ (sqAt (after (.sqEnable .pf 0 0 0x26) (ring0 {})) 0 0).st = .running ∧
    (sqAt (after (.resume .pf 0 0 1) (ring0 { sq6 with st := .stopped })) 0 0).st = .running ∧
    syncAt (after (.syncCounterAccess .pf 0 255 9) base) 0 255 = 9 := by decide

/-- A NOP of class 4 (R141: a normal ring's label is not 0). -/
def nop4 : List Byte := [0, 0, 4] ++ zeros 61

theorem witness_PacketFetchFillsTheTracker :
    serving (ring0 sq6) = true ∧ (ring0 sq6).boot.removed = false ∧ fetchTurn (ring0 sq6) 0 0 = true ∧ fetchable (ring0 sq6) 0 0 sq6 [] = true ∧ fetchable (ring0 sq6) 0 0 sq6 (nop4) = true ∧
    (let c : Cmd := { page := 0, ring := 0, pkt := nop4, colony := actsFor 0 (nop4) }
     validate c true = none ∧ indLen c = 0 ∧ c.defer = false ∧ (colAt (ring0 sq6) c.colony).sealSess = none ∧
     targetAtFetch (ring0 sq6) 0 { c with regions := fetchRegions c } = none) ∧
    (let c : Cmd := { page := 0, ring := 0, pkt := 0xFF :: zeros 63, colony := actsFor 0 (0xFF :: zeros 63) }
     fetchable (ring0 sq6) 0 0 sq6 (0xFF :: zeros 63) = true ∧ indLen c = 0 ∧ opcodes.contains c.op = false ∧
     ∀ e, e < 16 → (engineAt (ring0 sq6) e).cmd ≠ some 0) := by decide

theorem test_packet_fetch :
    (sqAt (after (.packetFetch 0 0 (some (nop4)) none) (ring0 sq6)) 0 0).head = 63 ∧
    ((cmdAt (after (.packetFetch 0 0 (some (0xFF :: zeros 63)) none) (ring0 sq6)) 0).map (fun k => (k.phase, k.status))) = some (.done, 0x0A) ∧
    (sqAt (after (.packetFetch 0 0 none none) (ring0 sq6)) 0 0).fetcherr = true := by decide

/-- The packet of an opcode with some bytes set, and commands of ring 0 of page 1 in the tracker. -/
def pktOf (op : Nat) (fs : List (Nat × Nat × Nat)) : List Byte :=
  fs.foldl (fun p f => p.take f.1 ++ leBytes f.2.1 f.2.2 ++ p.drop (f.1 + f.2.1)) (BitVec.ofNat 8 op :: zeros 63)
def cmdOf (op : Nat) (fs : List (Nat × Nat × Nat)) : Cmd := { page := 1, ring := 0, pkt := pktOf op fs, colony := 1 }
def withCmds (l : List Cmd) : State := { base with cmds := (List.range l.length).zip l, cols := [(1, colony1)], nextCmd := l.length }

theorem witness_QueueControlCommands :
    (∀ c ∈ [cmdOf 0 [], cmdOf 1 [], cmdOf 2 [(24, 8, 7)], cmdOf 3 [], cmdOf 3 [(24, 8, 1)]],
      cmdAt (withCmds [c]) 0 = some c ∧ Alone (withCmds [c]) 0 c ∧ canStart (withCmds [c]) 0 c = true ∧
      (∀ e ∈ (withCmds [c]).cmds, inScope 0 c e = true → e.2.recorded = true) ∧
      (∀ e ∈ (withCmds [c]).cmds, earlierOnRing 0 c e = true → e.2.recorded = true)) ∧
    (let s := withCmds [{ cmdOf 0 [] with phase := .done }, cmdOf 1 []]
     canStart s 1 (cmdOf 1 []) = true ∧ Alone s 1 (cmdOf 1 []) ∧ ∃ e ∈ s.cmds, inScope 1 (cmdOf 1 []) e = true ∧ e.2.recorded = false) ∧
    ((cmdOf 2 [(24, 8, 7)]).byte 32 8 = 0 ∧ ∀ e ∈ (withCmds [cmdOf 2 [(24, 8, 7)]]).cmds, e.2.op ≠ 0x03) ∧
    (let c : Cmd := { cmdOf 3 [(24, 8, 1), (20, 4, 1)] with phase := .started }
     Alone (withCmds [c]) 0 c ∧ c.byte 20 4 ≠ 0 ∧ serving (withCmds [c]) = true) := by
  unfold Alone; decide

/-- A COMMIT of the next slot of ring 0 of page 1, whose target is held. -/
def commitPkt : List Byte := pktOf 0x11 [(2, 1, 4), (16, 4, 9)]
def commitState : State :=
  { withCmds [{ cmdOf 0x10 [(4, 4, 9)] with phase := .held, held := true, recorded := true }] with
    hub := { sqs := [(16, sq6)], cqs := [(16, { enable := true, log2n := 6 })] }, boot := { base.boot with link := true }
    pcie := { vfEnable := true, numVfs := 64 } }

theorem witness_PacketFetchFillsTheTracker_target :
    let s := commitState
    let c : Cmd := { page := 1, ring := 0, pkt := commitPkt, colony := actsFor 1 commitPkt }
    serving s = true ∧ fetchTurn s 1 0 = true ∧ fetchable s 1 0 sq6 commitPkt = true ∧ sqAt s 1 0 = sq6 ∧ commitPkt.length = 64 ∧
    validate c true = none ∧ indLen c = 0 ∧ c.defer = false ∧ (colAt s c.colony).sealSess = none ∧ c.op ≠ 0x71 ∧
    wrongColony { c with regions := fetchRegions c } (targetAtFetch s s.nextCmd { c with regions := fetchRegions c }) = false ∧
    (targetAtFetch s s.nextCmd { c with regions := fetchRegions c }).map (fun e => e.1) = some 0 := by decide

/-- SIGNAL's counter number is bits 16 to 31; it adds by default (R143). -/
theorem test_queue_control :
    (cmdAt (after (.signal 0) (withCmds [cmdOf 2 [(16, 2, 3), (24, 8, 7)]])) 0).map (fun k => (k.phase, k.result)) = some (.done, 7) ∧
    syncAt (after (.signal 0) (withCmds [cmdOf 2 [(16, 2, 3), (24, 8, 7)]])) 1 3 = 7 ∧
    (cmdAt (after (.waitCommand 0) (withCmds [cmdOf 3 [(24, 8, 1)]])) 0).map (fun k => k.phase) = some .started ∧
    (cmdAt (after (.waitTimeout 0) (withCmds [{ cmdOf 3 [(24, 8, 1), (20, 4, 1)] with phase := .started }])) 0).map (fun k => k.status) =
      some 0x0C := by decide

/-- A deferred LAUNCH whose outputs are held, behind it a COMMIT or ABANDON of its tag. -/
def heldLaunch : Cmd := { cmdOf 0x10 [(4, 4, 9)] with phase := .held, held := true, recorded := true, shadows := [⟨0x10000, 65536, 0x700000000, []⟩] }
def pairOf (op : Nat) : State := withCmds [heldLaunch, cmdOf op [(16, 4, heldLaunch.tag)]]

theorem witness_CommitAndAbandon :
    (∀ p ∈ [(0x11, commitRow), (0x12, abandonRow)], let c := cmdOf p.1 [(16, 4, heldLaunch.tag)]
      Alone (pairOf p.1) 1 c ∧ canStart (pairOf p.1) 1 c = true ∧ targetOf (pairOf p.1) 1 c p.2 = some (0, heldLaunch) ∧
      targetOf (withCmds [cmdOf p.1 []]) 0 (cmdOf p.1 []) p.2 = none) ∧
    heldLaunch.colony = (cmdOf 0x11 []).colony ∧ heldLaunch.status = 0 ∧
    (∀ p ∈ [(0x11, commitRow), (0x12, abandonRow)], let c : Cmd := { cmdOf p.1 [(16, 4, 9)] with colony := 2 }
      let s := withCmds [heldLaunch, c]
      Alone s 1 c ∧ canStart s 1 c = true ∧ targetOf s 1 c p.2 = some (0, heldLaunch) ∧ heldLaunch.colony ≠ c.colony) ∧
    (let x : Cmd := { heldLaunch with shadows := [] }
     let c := cmdOf 0x12 [(16, 4, 9)]
     targetOf (withCmds [x, c]) 1 c abandonRow = some (0, x) ∧ x.returning ++ (x.shadows.map Shadow.run ++ x.reserve).map (fun f => (⟨f, x.attempts, none⟩ : Giving)) = []) := by
  unfold Alone; decide

theorem test_commit_abandon :
    (cmdAt (after (.commit 1) (pairOf 0x11)) 0).map (fun k => k.phase) = some .ended ∧
    (cmdAt (after (.abandon 1) (pairOf 0x12)) 0).map (fun k => k.phase) = some .written ∧
    (cmdAt (after (.commit 0) (withCmds [cmdOf 0x11 []])) 0).map (fun k => k.status) = some 0x0B := by decide

/- Records, launches, attempts and commits. -/

/-- Page 1 with a completion ring of 64 slots at its last slot, and the command `c` in the tracker. -/
def withRing (c : Cmd) : State := { withCmds [c] with hub := { sqs := [(16, { sq6 with head := 0, tail := 0 })], cqs := [(16, { enable := true, log2n := 6, tail := 63, head := 5, base := 1 })] } }
def doneNop : Cmd := { cmdOf 0 [(4, 4, 7)] with phase := .done }
def failedLaunch : Cmd := { cmdOf 0x10 [(37, 1, 1)] with phase := .done, status := 7 }

theorem witness_CompletionRecordsAreWritten :
    cmdAt (withRing doneNop) 0 = some doneNop ∧ serving (withRing doneNop) = true ∧ doneNop.due = true ∧
    recordBehind (withRing doneNop) 0 doneNop 0 = false ∧ (cqAt (withRing doneNop) 1 0).enable = true ∧
    ((cqAt (withRing doneNop) 1 0).tail + 1) % 64 ≠ (cqAt (withRing doneNop) 1 0).head ∧ doneNop.unsettled = false ∧
    cmdAt (withRing failedLaunch) 0 = some failedLaunch ∧ serving (withRing failedLaunch) = true ∧ failedLaunch.due = true ∧
    recordBehind (withRing failedLaunch) 0 failedLaunch 0 = false ∧ failedLaunch.unsettled = true := by decide

/-- The tail wraps and the phase turns; the tag lies in bytes 0 to 3 (R153). -/
theorem test_completion_record :
    (let t := after (.completionRecordWrite 0) (withRing doneNop)
     (cqAt t 1 0).tail = 0 ∧ (cqAt t 1 0).phase = false ∧ cmdAt t 0 = none ∧ tget 1 t.hub.cseq 1 = 2) ∧
    (cmdAt (after (.completionRecordWrite 0) (withRing failedLaunch)) 0).map (fun c => c.recorded) = some true := by decide

/-- An image of one word at VA 0x10000, an output page at 0x20000, a pool of one shadow frame. -/
def header : List Byte :=
  leBytes 4 0x394B4245 ++ leBytes 2 1 ++ leBytes 2 1 ++ leBytes 2 1 ++ leBytes 2 0 ++ leBytes 2 1 ++ leBytes 2 1 ++ leBytes 2 1 ++ zeros 238
def home1 : Colony :=
  { colony1 with ptes := [⟨0x10000, 0, 0x10000, true, false, true⟩, ⟨0x20000, 0, 0x20000, true, true, false⟩], pool := [⟨0, 0x700000000, 0x10000⟩] }
def image1 (c : Cmd) : State :=
  { base with cmds := [(0, c)], cols := [(1, home1)], cores := [(0, { st := .bound, colony := 1 })], nextCmd := 1
              hbm := mwrite (mwrite [] (keyOf 0x10000) header) (keyOf 0x10100) (leBytes 8 0x0200000000000000) }
def fetchedLaunch : Cmd := { cmdOf 0x10 [(16, 8, 0x10000)] with regions := [(0x20000, 64)] }
def readyLaunch : Cmd := { fetchedLaunch with phase := .ready, hdr := [1, 1, 1], codeLen := 1, entry := 0, image := leNat (sha384 (leBytes 8 0x0200000000000000)) }
def isTaken : Reserve → Bool
  | .taken _ _ => true
  | _ => false
def isOk {α : Type} : Except VaErr α → Bool
  | .ok _ => true
  | _ => false

theorem witness_LaunchStartsItsCores_header :
    vaRead (image1 fetchedLaunch) 1 0x10000 256 .image = .ok header ∧ headerStatus header false = none ∧
    chooseN (keepHeader fetchedLaunch header) (countCores (image1 fetchedLaunch) (keepHeader fetchedLaunch header)) = some 1 :=
  ⟨by rfl, by decide, by decide⟩

theorem witness_LaunchStartsItsCores :
    fetchedLaunch.op = 0x10 ∧ jobAborted (image1 fetchedLaunch) fetchedLaunch = false ∧ canStart (image1 fetchedLaunch) 0 fetchedLaunch = true ∧
    fetchedLaunch.nonPreempt = false ∧ conflicted (image1 fetchedLaunch) 0 fetchedLaunch = false ∧ (∀ r ∈ fetchedLaunch.regions, inDiag home1 r = false) ∧
    isTaken (reserveOf home1 (needOf (touchedPages home1 fetchedLaunch.regions))) = true ∧
    (readyLaunch.phase = .ready ∧ coresPromised (image1 readyLaunch) 0 readyLaunch = false ∧
      chooseN readyLaunch (countCores (image1 readyLaunch) readyLaunch) = some 1 ∧ 1 ≤ (freeFor (image1 readyLaunch) 1 0).length ∧
      (freeFor (image1 readyLaunch) 1 0).Nodup ∧ (colAt (image1 readyLaunch) 1).st = .active) := by decide

theorem witness_LaunchStartsItsCores_code :
    vaRead (image1 readyLaunch) 1 (0x10000 + 256) 8 .image = .ok (leBytes 8 0x0200000000000000) ∧
    leNat (sha384 (leBytes 8 0x0200000000000000)) ≠ 0 ∧ Alone (image1 { readyLaunch with image := 0 }) 0 { readyLaunch with image := 0 } := by
  unfold Alone
  exact ⟨by rfl, by decide +kernel, by decide⟩

theorem test_launch :
    (cmdAt (after (.launch 0) (image1 fetchedLaunch)) 0).map (fun k => (k.phase, k.n, k.reserve.length)) = some (.ready, 1, 1) ∧
    (let t := after (.attemptStart 0) (image1 readyLaunch)
     (coreAt t 0).st = .running ∧ (coreAt t 0).im = [0x0200000000000000] ∧ (cmdAt t 0).map (fun k => (k.phase, k.cores)) = some (.running, [0])) ∧
    (cmdAt (after (.attemptStart 0) (image1 { readyLaunch with image := 0 })) 0).map (fun k => (k.phase, k.status)) = some (.done, 0x05) := by
  decide +kernel

def endedCore : State := at_ (wd 2 0) { ended := true, acc0 := { low := true } }

theorem witness_AttemptsEnd :
    ((coreAt endedCore 0).cmd = some 0 ∧ endedCore.flt.fatal = false ∧ (coreAt endedCore 0).st = .running ∧ (coreAt endedCore 0).ended = true ∧
      (∀ g ∈ (coreAt endedCore 0).tags, g.write = false) ∧ launch.legacy = false) ∧
    (let s := withCmds [launch]; serving s = true ∧ launch.op = 0x10 ∧ launch.phase = .running ∧ runningCores s 0 launch = [] ∧ launch.claimedBy = none) := by
  decide

theorem test_attempt_end :
    (coreAt (after (.coreReturnBound 0) endedCore) 0).st = .bound ∧ (cmdAt (after (.coreReturnBound 0) endedCore) 0).map (fun k => k.low) = some true ∧
    (cmdAt (after (.attemptEnd 0) (withCmds [launch])) 0).map (fun k => k.phase) = some .ended := by decide

def shadow1 : Shadow := ⟨0x10000, 65536, 0x700000000, List.range 1024⟩
def endedCmd : Cmd := { launch with phase := .ended, shadows := [] }
def mergedCmd : Cmd := { launch with phase := .merged, shadows := [shadow1] }
def writtenCmd : Cmd := { launch with phase := .written, recorded := true, returning := [⟨⟨0, 0x10000, 65536⟩, 0, none⟩] }
/-- The first of two lines written; two frames to return, of which a write of attempt 1 still holds one back. -/
def mergingCmd : Cmd := { launch with phase := .ended, shadows := [⟨0x10000, 128, 0x700000000, [0]⟩] }
def holding : State :=
  { withCmds [{ writtenCmd with returning := [⟨⟨0, 0x10000, 65536⟩, 0, none⟩, ⟨⟨0, 0x20000, 65536⟩, 1, none⟩] }] with
    cores := [(0, { tags := [{ tag := 5, write := true, urgent := false, epoch := 0, desc := 0, spo := 0, data := [], instar := 0, colony := 1, cmd := 0, attempt := 1 }] })] }

theorem witness_CommitsPublishShadowFrames :
    (serving (withCmds [endedCmd]) = true ∧ ∀ sh ∈ endedCmd.shadows, unwritten sh = []) ∧
    (let s := withCmds [mergedCmd]
     ringSettled s 0 mergedCmd = true ∧ Alone s 0 mergedCmd ∧ mergedCmd.op = 0x10 ∧ mergedCmd.held = false ∧ shadow1.size % 65536 = 0 ∧ shadow1.dpa % 65536 = 0 ∧
     shadow1.frame % 65536 = 0 ∧ (∀ e ∈ s.chans, e.2.dir = []) ∧ allLines s = []) ∧
    (writtenCmd.returning ≠ [] ∧ writtenCmd.unsettled = false ∧ (∀ g ∈ writtenCmd.returning, landed (withCmds [writtenCmd]) 0 1 g = true) ∧
      holdsSet colony1.cur (setOf 0x10000) = true) ∧
    landed holding 0 1 ⟨⟨0, 0x10000, 65536⟩, 0, none⟩ = true ∧ landed holding 0 1 ⟨⟨0, 0x20000, 65536⟩, 1, none⟩ = false := by
  unfold Alone; decide

theorem witness_CommitsPublishShadowFrames_merge :
    let s := withCmds [mergingCmd]
    mergeProblem s mergingCmd = none ∧ mergingCmd.shadows.map unwritten = [[1]] ∧
    (∀ sh ∈ mergingCmd.shadows, sh.addr (sh.dpa + 64) < 2 ^ 40 ∧ sh.addr (sh.dpa + 64) % 64 = 0) := by decide

theorem test_publish :
    frameOf (colAt (after (.publish 0) (withCmds [mergedCmd])) 1) 0x1FFFF = 0x70000EFFF ∧
    frameOf (colAt (after (.publish 0) (withCmds [mergedCmd])) 1) 0x20000 = 0x20000 ∧
    (cmdAt (after (.publish 0) (withCmds [mergedCmd])) 0).map (fun k => k.phase) = some .done ∧
    (colAt (after (.shadowFrameReturn 0) (withCmds [writtenCmd])) 1).pool = [⟨0, 0x10000, 65536⟩] ∧
    (acctAt (after (.commitMergeCopy 0 .clean true) (withCmds [mergingCmd])) 1).hbmRd = 1 ∧
    (cmdAt (after (.shadowFrameReturn 0) holding) 0).map (fun k => k.returning.length) = some 1 := by decide

/- Channels. -/

/-- Channel 511 as given. -/
def chan511 (c : Channel) : State := { base with chans := [(511, c)] }

theorem witness_ChannelLineAccess :
    serving (chan511 {}) = true ∧ lineWf 0x75FFFFC0 = true ∧ (chanAt (chan511 {}) 511).mode ≠ .fenced ∧ (chanAt (chan511 {}) 511).retraining = false ∧
    (chan511 {}).flt.armed.contains (3, 511) = false ∧ 64 ∉ (chanAt (chan511 {}) 511).badLines ∧ 64 ∉ (chanAt (chan511 {}) 511).badTags ∧
    (chan511 {}).flt.armed.contains (8, 511) = false ∧ cmdAt (chan511 {}) 0 = none ∧
    (chanAt (chan511 { queue := [⟨0, 5, 0, 64, .urgent⟩] }) 511).queue.find? (fun x => x.offset == 64) = some ⟨0, 5, 0, 64, .urgent⟩ ∧
    (let s := { withCmds [launch] with chans := [(511, {})] }; cmdAt s 0 = some launch) := by decide

theorem test_line_access :
    (chanAt (after (.hbmRead 511 64 0 .uncorrected .uncorrected true) (chan511 {})) 511).badLines = [64] ∧
    (chanAt (after (.hbmRead 511 64 0 .uncorrected .clean true) (chan511 {})) 511).retryOk = 1 ∧
    (chanAt (after (.hbmWrite 511 64 (List.replicate 64 1) 0) (chan511 { badLines := [64] })) 511).badLines = [] := by decide

theorem witness_ChannelMaintenance :
    serving (chan511 {}) = true ∧ (chan511 {}).boot.powered = true ∧ (chanAt (chan511 {}) 511).mode = .inService ∧
    (chanAt (chan511 {}) 511).urgentFirst = false ∧ (chanAt (chan511 {}) 511).retraining = false ∧ (chanAt (chan511 {}) 511).badLines = [] ∧
    refreshHeld { urgentFirst := true } 3 = true ∧ refreshHeld {} 3 = false ∧ (chanAt (chan511 {}) 511).calBusy = false ∧ setBusy (chan511 {}) 511 = false ∧ (0 : Nat) ≤ 2 ∧
    (NoTeardown (chan511 { retraining := true }) ∧ (chanAt (chan511 { retraining := true }) 511).retraining = true) ∧
    (∀ k ∈ [16383, 16384], (chanAt (chan511 { remapQueue := [7], spareNext := k }) 511).remapQueue = [7]) ∧
    lineWf (2048 * 0 + 64 * 31) = true ∧ 0 ∉ (chan511 {}).flt.quar := by
  unfold NoTeardown; decide

theorem test_maintenance :
    (chanAt (after (.refresh 511 3 86) (chan511 {})) 511).fastRefresh = true ∧ (chanAt (after (.refresh 511 3 85) (chan511 {})) 511).fastRefresh = false ∧
    (chanAt (after (.calibrationSlot 511 9 2000 true true) (chan511 {})) 511).calRate = 2 ∧
    (chanAt (after (.retrainDone 511 false) (chan511 { retraining := true })) 511).mode = .fenced ∧
    (chanAt (after (.remapCopy 511) (chan511 { remapQueue := [7], spareNext := 5 })) 511).remap = [(7, 5)] ∧
    (chanAt (after (.patrolScrub 511 0 31 .uncorrected) (chan511 {})) 511).scrubRows = [0] ∧
    (meshAt (after (.meshFlitReplay 0 15) base) 0).replays = 15 ∧ (chanAt (after (.sliceAllocatorFault 511) (chan511 {})) 511).limit = true := by
  decide

theorem witness_CountersCleared : fnLive base .pf = true ∧ serving base = true := by decide

/- Kills. -/

/-- Core 0 KILLED and wiped behind a command whose kill waits for it. -/
def killed0 (after : Option Nat) : State :=
  { base with cores := [(0, { st := .killed, wipeBusy := true, colony := 1, sregs := [(1, 5)] })], cols := [(1, colony1)]
              cmds := [(0, { launch with phase := .killing, killing := [0], after := after })] }

theorem witness_KillsComplete :
    (killed0 none).flt.fatal = false ∧ NoTeardown (killed0 none) ∧ (coreAt (killed0 none) 0).st = .killed ∧ (coreAt (killed0 none) 0).wipeBusy = true ∧
    (coreAt (killed0 none) 0).transit = false ∧ (coreAt (killed0 none) 0).epochHeld = false ∧ (coreAt (killed0 none) 0).pend2 = 0x3F ∧
    (coreAt (killed0 none) 0).overBank = false ∧ (coreAt (killed0 none) 0).dc = [] ∧ (coreAt (killed0 none) 0).pend1 = 0x3F ∧
    (∀ e ∈ ({ killed0 none with cmds := [] } : State).cmds, ¬ (e.2.phase = .killing ∧ 0 ∈ e.2.killing)) ∧
    (∀ a ∈ [none, some 0x0C], Alone (killed0 a) 0 { launch with phase := .killing, killing := [0], after := a } ∧
      ∀ e ∈ (killed0 a).cmds, e.1 ≠ 0 → ¬ (e.2.phase = .killing ∧ 0 ∈ e.2.killing)) := by
  unfold NoTeardown Alone; decide

theorem test_kill_complete :
    (coreAt (after (.killComplete 0 true) (killed0 none)) 0).st = .bound ∧ (coreAt (after (.killComplete 0 true) (killed0 none)) 0).sregs = [] ∧
    (cmdAt (after (.killComplete 0 true) (killed0 none)) 0).map (fun k => k.phase) = some .fetched ∧
    (cmdAt (after (.killComplete 0 true) (killed0 (some 0x0C))) 0).map (fun k => (k.phase, k.status)) = some (.done, 0x0C) := by decide

/-- A non-preemptible LAUNCH on core 0; a LAUNCH of ring 0 on core 0 while one of ring 1 waits for the core. -/
def npRun : Cmd := { launch with pkt := pktOf 0x10 [(36, 1, 0x80)] }
def sharing : State :=
  { onCore {} launch with cmds := [(0, launch), (1, { launch with ring := 1, phase := .ready, hdr := [1, 1, 1], cores := [], attempts := 0 })]
                          cols := [(1, { colony1 with turn := some 16 })] }
/-- Core 1 owes the acknowledgement of an invalidation and is BOUND. -/
def silent : State := { dirOn (ent .invalidating) [] with cores := [(1, { st := .bound, colony := 1 })], cols := [(1, colony1)] }

theorem witness_AttemptsAreKilled :
    (serving (onCore {} npRun) = true ∧ allLines (onCore {} npRun) = [] ∧ npRun.nonPreempt = true ∧ runningCores (onCore {} npRun) 0 npRun ≠ []) ∧
    (allLines sharing = [] ∧ launch.urgent = false ∧ launch.nonPreempt = false ∧ launch.turnKills < 2 ∧ runningCores sharing 0 launch ≠ [] ∧
      sliced sharing 1 = true ∧ (colAt sharing 1).turn = some (ringOf launch) ∧
      (∀ e ∈ sharing.cmds, e.1 ≠ 0 → e.2.colony = 1 → e.2.phase = .running → ringOf e.2 ≠ ringOf launch)) ∧
    (∀ c ∈ [1, 64], sliced base c = false) ∧
    (serving silent = true ∧ NoTeardown silent ∧ silent.flt.recs = [] ∧ silent.flt.unrecordedReset = [] ∧ (coreAt silent 1).st = .bound ∧
      (coreAt silent 1).cmd = none ∧ (chanAt silent 0).mode ≠ .fenced ∧ dirFind (chanAt silent 0) 64 = some (ent .invalidating) ∧ 1 ∈ (ent .invalidating).acks) ∧
    (fnLive silent .pf = true ∧ (coreAt silent 639).st ≠ .fenced ∧ (coreAt silent 639).cmd = none ∧ (coreAt silent 639).claim = none ∧ ∀ e ∈ silent.cmds, e.2.phase = .killing → 639 ∉ e.2.killing) := by
  unfold NoTeardown; decide

theorem test_kills :
    (coreAt (after (.nplimitReached 0) (onCore {} npRun)) 0).st = .killed ∧
    (cmdAt (after (.nplimitReached 0) (onCore {} npRun)) 0).map (fun k => k.after) = some (some 0x0C) ∧
    (cmdAt (after (.timeSliceEnd 1) sharing) 0).map (fun k => (k.phase, k.turnKills, k.after)) = some (.killing, 1, none) ∧
    ((tfind (after (.agentUnresponsive 1 0 64) silent).flt.recs 0).map (fun r => (r.cause, r.severity))) = some (0x10, 3) ∧
    (coreAt (after (.coreFence 639) silent) 639).st = .fenced := by decide

/- Movements. -/

def moveCmd (op : Nat) (fs : List (Nat × Nat × Nat)) : Cmd := { cmdOf op fs with regions := [(0x20000, 64)] }
def moveOn (c : Cmd) : State := { image1 c with sec := { lmsLeft := 9, slots := [(0, { st := .active, kind := 1, stores := 2 ^ 32 - 1 })] } }

theorem witness_MovementsStart :
    (∀ op ∈ [0x20, 0x21, 0x22, 0x23], canStart (moveOn (moveCmd op [])) 0 (moveCmd op []) = true ∧ conflicted (moveOn (moveCmd op [])) 0 (moveCmd op []) = false ∧
      idleEngines (moveOn (moveCmd op [])) ≠ [] ∧ isTaken (reserveOf home1 (needOf (touchedPages home1 [(0x20000, 64)]))) = true ∧
      lifecycle (moveOn (moveCmd op [])) ≠ 2 ∧ slotUsable (moveOn (moveCmd op [])) (moveCmd op []) = true) ∧
    (moveCmd 0x23 []).attempts = 0 ∧ (slotAt (moveOn (moveCmd 0x23 [])) (moveCmd 0x23 []).slot).stores < 2 ^ 32 := by decide

theorem test_movement_starts :
    (cmdAt (after (.copy 0) (moveOn (moveCmd 0x20 []))) 0).map (fun k => (k.phase, k.engines)) = some (.running, [0, 1, 2, 3]) ∧
    (slotAt (after (.storeSealed 0 5) (moveOn (moveCmd 0x23 []))) 0).stores = 2 ^ 32 := by decide

/-- Engine 0 at work on a FILL or COPY to the page at 0x10000, whose shadow frame is bound; its leaf is cached. -/
def moving (c : Cmd) : Cmd :=
  { c with phase := .running, regions := [(0x10000, 64)], shadows := [{ dpa := 0x10000, size := 65536, frame := 0x700000000 }], engines := [0], attempts := 1 }
def engineOn (c : Cmd) : State :=
  { withCmds [moving c] with hub := { engines := [(0, { cmd := some 0, tc := [⟨1, 0, 0x10000, 0, 0x10000, true, true, false⟩] })] } }
def fillCmd : Cmd := moving (cmdOf 0x21 [(16, 8, 0x10000), (24, 8, 64), (32, 8, 0x2A)])
def copyCmd : Cmd := moving (cmdOf 0x20 [(16, 8, 2 ^ 63), (24, 8, 0x10000), (32, 8, 64)])

theorem shadow_of_move (c : Cmd) (h : c = fillCmd ∨ c = copyCmd) :
    ShadowAt (engineOn c) c (engineAt (engineOn c) 0).tc 0 0x10000 0x700001000 := by
  rcases h with rfl | rfl <;>
    exact ⟨0x10000, leaf1, { dpa := 0x10000, size := 65536, frame := 0x700000000 }, by decide⟩

theorem witness_EnginesMoveLines :
    (∀ c ∈ [fillCmd, copyCmd], cmdAt (engineOn c) 0 = some c ∧ serving (engineOn c) = true ∧ c.phase = .running ∧
      (engineAt (engineOn c) 0).cmd = some 0 ∧ (engineAt (engineOn c) 0).want = none ∧ (engineOn c).flt.armed.contains (9, 0) = false ∧
      allLines (engineOn c) = [] ∧ (engineAt (engineOn c) 0).inService = true ∧ (engineAt (engineOn c) 0).lines = [] ∧
      (idleEngines (engineOn c)).find? (fun x => x != 0) = some 1 ∧ runningCores (engineOn c) 0 c = []) ∧
    (fillCmd.byte 16 8 + 64 * fillCmd.moved) % 64 = 0 ∧ copyCmd.stage ≠ 1 ∧ copyCmd.isHost 16 = true ∧ copyCmd.isHost 24 = false ∧
    (copyCmd.addr 24 + 64 * copyCmd.moved) = 0x10000 ∧ agentHalted (engineOn fillCmd) 648 = false ∧ fillCmd.units_ ≤ fillCmd.moved + 1 := by decide

/-- Two lines to fill or to copy from the host; a copy of two lines within the page, whose first source line the engine holds. -/
def fill2 : Cmd := moving (cmdOf 0x21 [(16, 8, 0x10000), (24, 8, 128), (32, 8, 0x2A)])
def copy2 : Cmd := moving (cmdOf 0x20 [(16, 8, 2 ^ 63), (24, 8, 0x10000), (32, 8, 128)])
def within2 : Cmd := moving (cmdOf 0x20 [(16, 8, 0x18000), (24, 8, 0x10000), (32, 8, 128)])
def engineHas (c : Cmd) (l : List CacheLine) : State :=
  modEngine (engineOn c) 0 (fun e => { e with lines := l })
def source2 : List CacheLine := [⟨channelOf 0x18000, chanOff 0x18000, .shared, List.replicate 64 7⟩]

theorem witness_EnginesMoveLines_taken :
    (∀ c ∈ [fillCmd, copyCmd, fill2, copy2, within2], let s := engineHas c source2
      let ch := channelOf 0x700001000
      let off := chanOff 0x700001000
      cacheFind (engineAt s 0).lines ch off = none ∧ requestWaits s 648 ch off = false ∧ (creditFor s ch 648 c.cls).isSome = true ∧
      (∀ m ∈ (chanAt s ch).nacked, m.reserved = false) ∧ dirFind (chanAt s ch) off = none ∧ dirRoom (chanAt s ch) off = true ∧ agentHalted s 648 = false) ∧
    RoomFor (engineHas fillCmd source2) 648 (chanOff 0x700001000) ∧
    (∀ c ∈ [fill2, copy2, within2], c.moved + 1 < c.units_) ∧
    (let s := engineHas within2 source2
     within2.op = 0x20 ∧ within2.isHost 16 = false ∧ within2.isHost 24 = false ∧ (within2.addr 16 + 64 * within2.moved) % 64 = 0 ∧
     tcLook (colAt s 1) (engineAt s 0).tc 1 0 0x18000 .read = .ok 0x18000 leaf1 ∧
     (tcHit (engineAt s 0).tc 1 0 0x18000).map (fun y => y.r) = some true ∧
     ownCheck (colAt s 1) 0 (channelOf (frameOf (colAt s 1) 0x18000)) = .pass ∧
     (cacheFind (engineAt s 0).lines (channelOf (frameOf (colAt s 1) 0x18000)) (chanOff (lineBase (frameOf (colAt s 1) 0x18000)))).map
       (fun l => l.data.length) = some 64) := by
  unfold RoomFor; decide

theorem test_engine_lines :
    mread (after (.copyEngineLine 0 none {}) (engineOn fillCmd)).hbm (keyOf 0x700001000) 2 = [0x2A, 0] ∧
    (cmdAt (after (.copyEngineLine 0 (some (List.replicate 64 8)) {}) (engineOn copyCmd)) 0).map (fun k => (k.phase, k.moved)) = some (.ended, 1) ∧
    (engineAt (after (.copyEngineFault 0) (engineOn fillCmd)) 1).cmd = some 0 ∧
    (cmdAt (after (.completionTimeout 0) (engineOn copyCmd)) 0).map (fun k => k.status) = some 0x04 := by decide

/- Collectives and messages. -/

/-- The device 5 with a window 3 for colony 2 of device 9 onto colony 1's page at 0x20000; port 0 is ACTIVE; routes as given. -/
def win1 : Window :=
  { base := 0x20000, len := 0x10000, sfaddr := 9, scol := 2, colony := 1, rd := true, wr := true, add := true, bar := true, cls := 4
    rmark := 0, job := 7, valid := true, revoking := false, sboot := 77 }
def fab1 (cmds : List Cmd) : State :=
  { base with cmds := (List.range cmds.length).zip cmds, nextCmd := cmds.length, cols := [(1, { home1 with peers := [(9, 7)] })]
              ports := [(0, { st := .active, colony := 1 })], fab := { faddr := 5, windows := [(3, win1)] } }
/-- A bulk packet and a control message of colony 2 of device 9. -/
def bulk : FabHeader :=
  { dst := 5, src := 9, ttl := 8, scol := 2, instar := 1, window := 3, job := 7, cseq := 1, tag := 4, tagPort := 0, offset := 0, anchor := 0
    status := 0, high := false, boottag := 77 }
def ctl : CtlHeader := { dst := 5, src := 9, ttl := 8, scol := 2, instar := 1, job := 7, mseq := 6 }

/-- A collective of job 7, CSEQ 1, to 0x28000, its plan at 0x24000; the plan's single step. -/
def coll (op len : Nat) : Cmd := cmdOf op [(16, 2, 7), (20, 4, 1), (24, 8, 0x20000), (32, 8, 0x28000), (40, 8, len), (48, 8, 0x24000)]
def planBytes (op buf count nsrc : Nat) : List Byte :=
  leBytes 4 0x4E4C505A ++ leBytes 2 1 ++ leBytes 2 1 ++ leBytes 2 1 ++ zeros 6 ++ leBytes 1 op ++ leBytes 1 buf ++ zeros 22 ++ leBytes 4 count ++ leBytes 4 nsrc
def planned (c : Cmd) (p : List Byte) : State := { fab1 [c] with hbm := mwrite [] (keyOf 0x24000) p }
def step1 (op buf count nsrc : Nat) : PlanStep := { op := op, buf := buf, window := 0, peer := 0, loff := 0, roff := 0, count := count, nsrc := nsrc }

theorem witness_CollectivesRun_plan :
    vaRead (planned (coll 0x31 64) (planBytes 3 2 1 1)) 1 0x24000 16 .read = .ok ((planBytes 3 2 1 1).take 16) ∧
    vaRead (planned (coll 0x31 64) (planBytes 3 2 1 1)) 1 0x24010 32 .read = .ok ((planBytes 3 2 1 1).drop 16) ∧
    planHeadOk ((planBytes 3 2 1 1).take 16) = true ∧
    planSteps 1 ((planBytes 3 2 1 1).drop 16) = [(planBytes 3 2 1 1).drop 16] ∧ stepOf ((planBytes 3 2 1 1).drop 16) = step1 3 2 1 1 :=
  ⟨by rfl, by rfl, by decide, by decide, by decide⟩

theorem witness_CollectivesRun :
    (let s := planned (coll 0x31 64) (planBytes 3 2 1 1)
     canStart s 0 (coll 0x31 64) = true ∧ jobAborted s (coll 0x31 64) = false ∧ (coll 0x31 64).planVa % 64 = 0 ∧
     stepOk (coll 0x31 64) 1 ((planBytes 3 2 1 1).drop 16) = true ∧ Waiting [step1 3 2 1 1] ∧
     conflicted s 0 { coll 0x31 64 with regions := [(0x28000, 64)] } = false ∧
     isTaken (collectiveReserve home1 { coll 0x31 64 with regions := [(0x28000, 64)] }) = true) ∧
    (stepOk (coll 0x31 64) 1 ((planBytes 1 0 1 1).drop 16) = false ∧ Alone (planned (coll 0x31 64) (planBytes 1 0 1 1)) 0 (coll 0x31 64)) ∧
    (∀ op ∈ [0x30, 0x31, 0x32, 0x33], let c : Cmd := { coll op 64 with phase := .running, plan := [{ step1 3 2 1 1 with done := true }], moved := 64 }
      serving (fab1 [c]) = true ∧ (∀ p ∈ c.plan, p.done = true) ∧ (c.op = 0x30 → c.cCount ≤ c.moved)) := by
  unfold Waiting Alone; decide

theorem witness_CollectivesRun_read :
    let s := planned (coll 0x31 64) (planBytes 3 2 1 1)
    conflicted (noteRead s (coll 0x31 64) 0x24000 48 .read) 0 { coll 0x31 64 with regions := [(0x28000, 64)], plan := [step1 3 2 1 1], members := 1 } = false := by
  decide

/-- A REDUCE of one partial at 0x20000, its plan to expect one of one source; running with four, its translation cached at port 0. -/
def reducing : Cmd := { coll 0x30 4 with phase := .running, plan := [step1 3 1 1 1], cls := 4 }
def reduceOn : State :=
  { fab1 [reducing] with ports := [(0, { st := .active, colony := 1, tc := [⟨1, 0, 0x20000, 0, 0x20000, true, true, false⟩] })] }

theorem witness_CollectivesRun_reduce :
    (let s := planned (coll 0x30 1) (planBytes 3 1 1 1)
     let c := coll 0x30 1
     canStart s 0 c = true ∧ jobAborted s c = false ∧ c.planVa % 64 = 0 ∧ planHeadOk ((planBytes 3 1 1 1).take 16) = true ∧
     stepOk c 1 ((planBytes 3 1 1 1).drop 16) = true ∧ Waiting [stepOf ((planBytes 3 1 1 1).drop 16)] ∧
     conflicted (noteRead s c 0x24000 48 .read) 0 { c with plan := [step1 3 1 1 1], members := 1 } = false ∧
     isTaken (collectiveReserve { home1 with pool := [⟨0, 0x700000000, 0x20000⟩] } c) = true ∧ 0 < c.cCount ∧ c.cSrc < 2 ^ 48 ∧
     localEngine s c = some 0 ∧ engineHalted s (some 0) = false ∧ tcHit (portAt s 0).tc 1 0 c.cSrc = none) ∧
    (serving reduceOn = true ∧ Waiting reducing.plan ∧ reducing.moved < reducing.cCount ∧ reducing.cCount ≤ reducing.moved + 4 ∧
     localEngine reduceOn reducing = some 0 ∧ engineHalted reduceOn (some 0) = false ∧
     (tcHit (portAt reduceOn 0).tc 1 0 (reducing.cSrc + 16 * reducing.moved)).map (fun y => y.r) = some true ∧
     (let fa := readAddr reduceOn (colAt reduceOn 1) (some reducing) 0x20000
      ownCheck (colAt reduceOn 1) 0 (channelOf fa) = .pass ∧ reachBlocked reduceOn reducing (some 0) fa false = false)) ∧
    (∀ op ∈ [0x30, 0x31, 0x32, 0x33], let c : Cmd := { coll op 64 with phase := .running, plan := [{ step1 3 2 1 1 with done := true }], moved := 64 }
      engineHalted (fab1 [c]) (localEngine (fab1 [c]) c) = false) := by
  unfold Waiting; decide

theorem witness_CollectivesRun_reduce_read :
    tcLook (colAt reduceOn 1) (portAt reduceOn 0).tc 1 0 0x20000 .read = .ok 0x20000 ⟨0x20000, 0, 0x20000, true, true, false⟩ ∧
    checkRead reduceOn (readAddr reduceOn (colAt reduceOn 1) (some reducing) 0x20000) = (reduceOn, none) := ⟨rfl, rfl⟩

theorem test_reduce :
    (portAt (after (.reduce 0) { planned (coll 0x30 1) (planBytes 3 1 1 1) with cols := [(1, { home1 with pool := [⟨0, 0x700000000, 0x20000⟩] })] }) 0).want =
      some (0x20000, false, 0) ∧
    (cmdAt (after (.reduce 0) { reduceOn with hbm := [(keyOf 0x20010, 7)] }) 0).map (fun k => (k.moved, k.scratch.length)) = some (4, 4) := by decide

theorem test_collectives :
    (cmdAt (after (.gather 0) (planned (coll 0x31 64) (planBytes 3 2 1 1))) 0).map (fun k => (k.phase, k.plan)) = some (.running, [step1 3 2 1 1]) ∧
    (cmdAt (after (.gather 0) (planned (coll 0x31 64) (planBytes 1 0 1 1))) 0).map (fun k => k.status) = some 0x0A ∧
    (cmdAt (after (.barrier 0) (fab1 [{ coll 0x33 0 with phase := .running }])) 0).map (fun k => k.phase) = some .ended := by decide

/-- A running collective whose output page has its shadow frame. -/
def gathering (op len buf nsrc : Nat) : Cmd :=
  { coll op len with phase := .running, plan := [step1 3 buf 1 nsrc], shadows := [{ dpa := 0x20000, size := 65536, frame := 0x700000000 }], moved := 1 }
def barring (nsrc : Nat) : Cmd := { coll 0x33 0 with phase := .running, plan := [step1 6 0 0 nsrc] }

theorem witness_CollectiveArrivals_window :
    windowCheck (fab1 [gathering 0x31 64 2 2]) 9 2 1 7 77 3 (fun x => x.wr) = (fab1 [gathering 0x31 64 2 2], .ok win1) ∧
    windowCheck (fab1 [gathering 0x30 1 1 2]) 9 2 1 7 77 3 (fun x => x.add) = (fab1 [gathering 0x30 1 1 2], .ok win1) ∧
    windowCheck (fab1 [barring 2]) 9 2 1 7 77 3 (fun x => x.bar) = (fab1 [barring 2], .ok win1) := ⟨rfl, rfl, rfl⟩

theorem witness_CollectiveArrivals :
    (∀ c ∈ [gathering 0x31 64 2 2, gathering 0x30 1 1 2, barring 1, barring 2], windowServed (fab1 [c]) win1 = true ∧
      arrives (fab1 [c]) 0 5 9 = true ∧ runningCollective (fab1 [c]) 1 7 1 = some (0, c) ∧ repeated (fab1 [c]) 0 0 = false ∧
      engineHalted (fab1 [c]) (localEngine (fab1 [c]) c) = false) ∧
    repeated { fab1 [] with zlt := { delivered := [(16, [7])] } } 0 7 = true ∧
    (let c := gathering 0x31 64 2 2
     inWindow win1 0x28000 64 = true ∧ finalAgainst c.plan false 0 1 = false ∧
     arrivalWaits (fab1 [c]) 1 4 (some c) none true 0x28000 64 = false ∧
     countArrival c.plan 2 0 1 = some [{ step1 3 2 1 2 with got := [(0, 1)] }] ∧ Waiting [{ step1 3 2 1 2 with got := [(0, 1)] }] ∧
     (shadowFor c 0x20000).map (fun sh => sh.addr 0x28000) = some 0x70000A000 ∧ ownCheck home1 0 (channelOf 0x28000) = .pass ∧
     inWindow win1 (0x28000 + 512 * 64) 64 = false ∧ inWindow win1 (0x28000 + 511 * 64) 64 = true) ∧
    (let c := gathering 0x30 1 1 2
     c.cCount ≤ c.moved ∧ c.cAnchor = 0 ∧ inWindow win1 0x28000 (1 * c.unitBytes) = true ∧ finalAgainst c.plan true 0 1 = false ∧
     (countArrival c.plan 1 0 1).isSome = true ∧ targetProblem (fab1 [c]) 1 .write 0x28000 (1 * c.unitBytes) = none) ∧
    answered (fab1 [barring 2]) 9 6 = none ∧ Waiting (barring 2).plan ∧ (∀ q ∈ (barring 2).plan, q.op ≠ 3) ∧
    (findIdx? (fun q : PlanStep => q.op == 6 && !q.done && decide (q.bars < q.nsrc)) (barring 1).plan).isSome = true := by
  unfold Waiting; decide

theorem test_arrivals :
    (let t := after (.writePacket 0 bulk (List.replicate 64 3)) (fab1 [gathering 0x31 64 2 2])
     mread t.hbm (keyOf 0x70000A000) 1 = [3] ∧ (cmdAt t 0).map (fun k => k.moved) = some 65) ∧
    (cmdAt (after (.addPacket 0 bulk (leBytes 16 5)) (fab1 [gathering 0x30 1 1 2])) 0).map (fun k => k.scratch.length) = some 1 ∧
    (cmdAt (after (.barrierMessage 0 ctl 1 3 77) (fab1 [barring 1])) 0).map (fun k => k.phase) = some .ended ∧
    (after (.writePacket 0 { bulk with offset := 512 } (List.replicate 64 3)) (fab1 [gathering 0x31 64 2 2])).hbm = [] := by decide

/-- A remote request of the command outstanding at port 0 under tag 4. -/
def asked (c : Cmd) (r : FabReq) : State := { fab1 [c] with ports := [(0, { st := .active, colony := 1, reqs := [r] })] }
def req1 (k : FabKind) (dst : Nat) (waiting : Bool) : FabReq :=
  { tag := 4, kind := k, cmd := 0, step := 0, unit := 0, units := 1, colony := 1, instar := 0, dst := dst, window := 3, offset := 0, waiting := waiting }
def sending (op buf : Nat) : Cmd := { coll 0x31 64 with phase := .running, plan := [step1 op buf 1 0], shadows := [{ dpa := 0x20000, size := 65536, frame := 0x700000000 }] }

theorem witness_CollectiveReplies :
    repeated (fab1 [sending 2 0]) 0 0 = false ∧ (portAt (fab1 [sending 2 0]) 0).drain = [] ∧ NoTeardown (fab1 [sending 2 0]) ∧
    engineHalted (asked (sending 2 0) (req1 .write 9 false)) (localEngine (asked (sending 2 0) (req1 .write 9 false)) (sending 2 0)) = false ∧
    requestOf (fab1 [sending 2 0]) bulk = none ∧ arrives (fab1 [sending 2 0]) 0 5 9 = true ∧
    (let s := asked (sending 2 0) (req1 .write 9 false)
     requestOf s bulk = some (req1 .write 9 false) ∧ arrives s 0 5 9 = true ∧ NoTeardown s ∧ (sending 2 0).isCollective = true ∧
     (sending 2 0).plan[0]? = some (step1 2 0 1 0) ∧ (step1 2 0 1 0).count ≤ (step1 2 0 1 0).acked + 1 ∧ (sending 2 0).job ≠ 0 ∧
     runningCores s 0 (sending 2 0) = []) ∧
    (let s := asked (sending 1 1) (req1 .add 5 true)
     serving s = true ∧ NoTeardown s ∧ (portAt s 0).reqs.find? (fun q => q.tag == 4 && q.waiting) = some (req1 .add 5 true) ∧
     (sending 1 1).plan[0]? = some (step1 1 1 1 0)) := by
  unfold NoTeardown; decide

theorem witness_CollectiveReplies_port : requestPort (asked (sending 1 1) (req1 .add 5 true)) (sending 1 1) 5 = .ok (0, 16) := rfl

theorem test_replies :
    (cmdAt (after (.wack 0 bulk) (asked (sending 2 0) (req1 .write 9 false))) 0).map (fun k => k.phase) = some .ended ∧
    (portAt (after (.refuse 0 bulk) (asked (sending 2 0) (req1 .write 9 false))) 0).reqs.map (fun r => r.waiting) = [true] ∧
    (cmdAt (after (.refuse 0 { bulk with status := 0x0D }) (asked (sending 2 0) (req1 .write 9 false))) 0).map (fun k => k.status) = some 0x0D ∧
    (portAt (after (.collectiveBusyRetry 0 4) (asked (sending 1 1) (req1 .add 5 true))) 0).reqs.map (fun r => r.waiting) = [false] := by decide

/- Handoffs. -/

/-- HANDOFF of a phase to the same device's colony 2: HSEQ 1, `len` bytes at 0x28000; a record of it in a state. -/
def hcmd (phase len : Nat) : Cmd := { cmdOf 0x34 [(16, 1, phase), (18, 2, 7), (20, 4, 1), (24, 3, 5), (28, 1, 2), (32, 8, 0x28000), (40, 8, len)] with
  shadows := [{ dpa := 0x20000, size := 65536, frame := 0x700000000 }] }
def rec1 (st : HState) (len : Nat) (cmd : Option Nat) : Handoff :=
  { colony := 1, job := 7, hseq := 1, peer := 5, peerColony := 2, st := st, timer := 0, len := len, cmd := cmd }
def hoff (c : Cmd) (l : List Handoff) : State :=
  { fab1 [c] with fab := { faddr := 5, windows := [(3, { win1 with sfaddr := 5 })], handoffs := (List.range l.length).zip l } }

theorem witness_HandoffCommands :
    (∀ p ∈ [1, 2, 3, 4], canStart (hoff (hcmd p 64) []) 0 (hcmd p 64) = true ∧ jobAborted (hoff (hcmd p 64) []) (hcmd p 64) = false ∧
      cmdHandoff (hoff (hcmd p 64) []) (hcmd p 64) = none ∧ peerRoute (hoff (hcmd p 64) []) (hcmd p 64) = none ∧ Alone (hoff (hcmd p 64) []) 0 (hcmd p 64)) ∧
    freeHandoff (hoff (hcmd 1 64) []) = some 0 ∧ (offerWindow (hoff (hcmd 1 64) []) (hcmd 1 64)).isSome = true ∧
    cmdHandoff (hoff (hcmd 2 64) [rec1 .offerSeen 128 none]) (hcmd 2 64) = some (0, rec1 .offerSeen 128 none) ∧
    (cmdHandoff (hoff (hcmd 2 0) [rec1 .offerSeen 0 none]) (hcmd 2 0) = some (0, rec1 .offerSeen 0 none) ∧ (hcmd 2 0).stateLen = 0 ∧
      conflicted (hoff (hcmd 2 0) [rec1 .offerSeen 0 none]) 0 (hcmd 2 0) = false ∧
      isTaken (reserveOf home1 (needOf (touchedPages home1 (hcmd 2 0).regions))) = true) ∧
    cmdHandoff (hoff (hcmd 3 64) [rec1 .acceptedSeen 64 none]) (hcmd 3 64) = some (0, rec1 .acceptedSeen 64 none) ∧
    (let c : Cmd := { hcmd 2 64 with phase := .running, stage := 1, moved := 64 }
     serving (hoff c []) = true ∧ NoTeardown (hoff c []) ∧ c.stateLen ≤ 64 * c.stage ∧ c.stateLen ≤ c.moved) := by
  unfold Alone NoTeardown; decide

theorem test_handoff_commands :
    (after (.handoffOffer 0) (hoff (hcmd 1 64) [])).fab.handoffs.map (fun e => (e.1, e.2.st)) = [(0, .offered)] ∧
    (after (.handoffOffer 0) (hoff (hcmd 1 64) [])).fab.unacked.map (fun x => (x.mtype, x.body)) = [(0x10, [1, 3, 2, 0x8000, 64])] ∧
    (cmdAt (after (.handoffAccept 0) (hoff (hcmd 2 64) [rec1 .offerSeen 128 none])) 0).map (fun k => k.status) = some 0x0B ∧
    (after (.handoffRelease 0) (hoff (hcmd 3 64) [rec1 .acceptedSeen 64 none])).fab.unacked.map (fun x => x.mtype) = [0x12] ∧
    (after (.handoffAudit 0) (hoff (hcmd 4 64) [])).fab.unacked.map (fun x => x.mtype) = [0x13] ∧
    (cmdAt (after (.handoffWaitTimeout 0) (hoff { hcmd 2 64 with phase := .started } [])) 0).map (fun k => k.status) = some 0x0C := by decide

/-- Messages and packets of colony 2 of the same device, by local delivery. -/
def hctl : CtlHeader := { ctl with src := 5 }
def hbulk : FabHeader := { bulk with src := 5 }
/-- The AUDIT of command 0 waits for its answer. -/
def audit1 (l : List Handoff) : State :=
  let s := hoff { hcmd 4 64 with phase := .started } l
  { s with fab := { s.fab with unacked := [{ mseq := 0, mtype := 0x13, dst := 5, scol := 1, instar := 0, job := 7, body := [1, 0, 0], cmd := some 0 }] } }

theorem witness_HandoffMessages :
    (arrives (hoff (hcmd 2 64) []) 16 5 5 = true ∧ answered (hoff (hcmd 2 64) []) 5 6 = none ∧ colonyWf 1 = true ∧ colonyWf 64 = true ∧ (colAt (hoff (hcmd 2 64) []) 1).st = .active ∧
      findHandoff (hoff (hcmd 2 64) []) 1 7 1 5 2 = none ∧ freeHandoff (hoff (hcmd 2 64) []) = some 0) ∧
    (∀ st ∈ [HState.offered, .offerSeen, .accepting, .accepted], let s := hoff (hcmd 2 64) [rec1 st 64 none]
      handoffOf s 7 1 5 2 = some (0, rec1 st 64 none) ∧ findHandoff s 1 7 1 5 2 = some (0, rec1 st 64 none) ∧ tfind s.fab.handoffs 0 = some (rec1 st 64 none)) ∧
    (∀ l ∈ [[], [rec1 .offered 64 none]], (auditOf (audit1 l) hctl 1).isSome = true ∧ (cmdAt (audit1 l) 0).map (fun k => k.phase) = some .started ∧
      arrives (audit1 l) 16 5 5 = true ∧ Alone (audit1 l) 0 { hcmd 4 64 with phase := .started } ∧
      ∀ x ∈ (audit1 l).fab.unacked, (auditedRecord (dropUnacked (audit1 l) x.mseq) x hctl 1) = ((List.range l.length).zip l).head?) ∧
    (let s := hoff (hcmd 2 64) [rec1 .offered 64 none]
     arrivalWaits s 1 4 none (some 0) false win1.base 64 = false ∧ windowServed s win1 = true ∧ hbulk.offset % 64 = 0 ∧ inWindow win1 (win1.base + 0) 64 = true ∧ (findHandoff s 1 7 1 5 2).any (fun e => e.2.st == .offered) = true ∧
     targetProblem s 1 .read win1.base 64 = none ∧ badLine s 1 win1.base 1 = none) ∧
    (let c : Cmd := { hcmd 2 64 with phase := .running, stage := 1 }
     requestOf (asked c (req1 .read 9 false)) bulk = some (req1 .read 9 false) ∧ NoTeardown (asked c (req1 .read 9 false)) ∧
     arrivalWaits (asked c (req1 .read 9 false)) 1 0 (some c) none true (c.stateVa + 64 * 0) 64 = false ∧
     (c.stateVa + 64 * 0) % 64 = 0 ∧ c.stateLen ≤ 64 * c.stage ∧ (shadowFor c 0x20000).map (fun sh => sh.addr 0x28000) = some 0x70000A000 ∧
     (chanAt (asked c (req1 .read 9 false)) (channelOf 0x70000A000)).mode ≠ .fenced) ∧
    (tfind (hoff (hcmd 2 64) [rec1 .declined 64 none]).fab.handoffs 0).map (fun h => h.st) = some .declined := by
  unfold Alone NoTeardown; decide

theorem witness_HandoffMessages_read :
    windowCheck (hoff (hcmd 2 64) [rec1 .offered 64 none]) 5 2 1 7 77 3 (fun x => x.rd) =
      (hoff (hcmd 2 64) [rec1 .offered 64 none], .ok { win1 with sfaddr := 5 }) ∧
    vaLines (hoff (hcmd 2 64) [rec1 .offered 64 none]) 1 .read win1.base 1 = .ok (zeros 64) ∧
    walk home1 0x28000 .write = .ok 0x28000 ⟨0x20000, 0, 0x20000, true, true, false⟩ := ⟨rfl, rfl, rfl⟩

theorem test_handoff_messages :
    (after (.offer 16 hctl 1 3 1 0 64) (hoff (hcmd 2 64) [])).fab.handoffs.map (fun e => e.2.st) = [.offerSeen] ∧
    (after (.accept 16 hctl 1 2) (hoff (hcmd 2 64) [rec1 .offered 64 none])).fab.handoffs.map (fun e => e.2.st) = [.acceptedSeen] ∧
    (after (.release 16 hctl 1 1) (hoff (hcmd 2 64) [rec1 .accepted 64 none])).fab.handoffs = [] ∧
    (after (.auditQ 16 hctl 1 1 true) (hoff (hcmd 2 64) [rec1 .offerSeen 64 none])).fab.handoffs.map (fun e => e.2.st) = [.declined] ∧
    (cmdAt (after (.auditR 16 hctl 1 0) (audit1 [])) 0).map (fun k => (k.phase, k.result)) = some (.done, 0) ∧
    (cmdAt (after (.readData 0 bulk (List.replicate 64 1)) (asked { hcmd 2 64 with phase := .running, stage := 1 } (req1 .read 9 false))) 0).map
      (fun k => (k.phase, k.moved)) = some (.ended, 64) ∧
    (after (.handoffTimer 0) (hoff (hcmd 2 64) [rec1 .offered 64 none])).fab.hoffTimers = 1 ∧
    (after (.declinedExpiry 0) (hoff (hcmd 2 64) [rec1 .declined 64 none])).fab.handoffs = [] := by decide

/- The fabric. -/

/-- Window data as given. -/
def wsel (w : Window) (l : Tbl Window) : State :=
  { fab1 [] with fab := { faddr := 0, wsel := 65535, windows := l
                          wdata := (List.range 4).map (fun k => (k, BitVec.ofNat 64 (bytesAt (windowBytes w) (8 * k) 8))) } }
/-- A route by port 0 to every device: PLEN 0, VALID (bit 29), PRIMARY bit 0. -/
def routed : State := { fab1 [] with fab := { faddr := 5, routes := [(0, BitVec.ofNat 64 (2 ^ 32 + 2 ^ 29))] } }
/-- A packet of class 0 and a message on their way from device 9 to device 77. -/
def passing (ttl : Nat) : Transit := .bulk 0 1 { bulk with dst := 77, ttl := ttl } (List.replicate 64 1)
def passingMsg (ttl : Nat) : Transit := .control 1 { ctl with dst := 77, ttl := ttl } [1]

theorem witness_FabricTablesAndTransit :
    fnLive (fab1 []) .pf = true ∧ serving (fab1 []) = true ∧ (wsel win1 []).fab.faddr = 0 ∧ (fab1 []).fab.faddr ≠ 0 ∧ (0xFFFFFE : Word).toNat % 2 ^ 24 ≠ 0xFFFFFF ∧
    tfind (wsel win1 []).fab.windows 65535 = none ∧ windowOk (wdataBytes (wsel win1 [])) = true ∧
    windowOk (wdataBytes (wsel { win1 with len := 0 } [])) = false ∧ tfind (wsel win1 [(65535, win1)]).fab.windows 65535 = some win1 ∧
    arrives (fab1 []) 0 5 9 = true ∧ answered (fab1 []) 9 6 = none ∧ win1.sfaddr = 9 ∧ (127 + 256 - 0) % 256 ≤ 127 ∧
    (portAt (fab1 []) 0).st = .active ∧
    (∀ t ∈ [0, 1, 2], transitPath (passing t) = (77, 9, 7, t) ∧ transitPath (passingMsg t) = (77, 9, 7, t)) ∧
    (transitArrives (fab1 []) 0 (passing 2)).isSome = true ∧ (transitArrives routed 0 (passingMsg 2)).isSome = true ∧
    transitArrives { fab1 [] with zlt := { delivered := [(16, [0])] } } 0 (passing 2) = none := by decide

theorem witness_FabricTablesAndTransit_route :
    (∀ n s1, transitArrives (fab1 []) 0 (passing 2) = some s1 → route s1 0 (transitLane (passing 2)) 9 77 7 ≠ .port n) ∧
    (∀ s1, transitArrives routed 0 (passing 2) = some s1 → route s1 0 (transitLane (passing 2)) 9 77 7 = .port 0) ∧
    route routed 0 (transitLane (passingMsg 2)) 9 77 7 = .port 0 := by
  refine ⟨fun n s1 e h => ?_, fun s1 e => ?_, rfl⟩
  · cases Option.some.inj e
    cases (show Route.noEntry = Route.port n from h)
  · cases Option.some.inj e
    rfl

theorem test_fabric_tables :
    (after (.fabricAddressWrite 0x1000007) (wsel win1 [])).fab.faddr = 7 ∧ (after .windowWrite (wsel win1 [])).fab.windows = [(65535, win1)] ∧
    (after .windowWrite (wsel { win1 with len := 0 } [])).fab.wReject = true ∧ (after .windowWrite (wsel win1 [(65535, win1)])).fab.wReject = true ∧
    ((tfind (after (.revoke 0 ctl) (fab1 [])).fab.windows 3).map (fun w => w.valid)) = some false ∧
    ((tfind (after (.instarRetire 0 ctl 127 77) (fab1 [])).fab.windows 3).map (fun w => w.rmark)) = some 127 ∧
    ((tfind (after (.instarRetire 0 ctl 128 77) (fab1 [])).fab.windows 3).map (fun w => w.rmark)) = some 0 ∧
    (after (.transitForward 0 (passing 1)) (fab1 [])).fab.dropTtl = 1 ∧ (after (.transitForward 0 (passing 2)) (fab1 [])).fab.dropNoRoute = 1 ∧
    (portAt (after (.transitForward 0 (passingMsg 2)) routed) 0).txQueue.map (fun k => (k.vl, k.out)) =
      [(0, .message 0 1 { ctl with dst := 77, ttl := 1 } [1])] := by decide

/-- A message of type `t` to device 9 and one to this device, unacknowledged. -/
def out1 (t dst : Nat) (cmd : Option Nat) : OutMsg := { mseq := 6, mtype := t, dst := dst, scol := 1, instar := 0, job := 7, body := [1], cmd := cmd }
def unacked (t dst : Nat) : State :=
  let s := fab1 [{ hcmd 1 64 with phase := .started }]
  { s with fab := { s.fab with unacked := [out1 t dst (some 0)] } }

theorem witness_FabricMessages :
    NoTeardown (fab1 [coll 0x33 0]) ∧ arrives (fab1 [coll 0x33 0]) 0 5 9 = true ∧ answered (fab1 [coll 0x33 0]) 9 6 = none ∧
    (9, 0) ∉ (fab1 [coll 0x33 0]).fab.aborts ∧ coloniesOf (fab1 [coll 0x33 0]) 9 = [1] ∧ (coll 0x33 0).job = 7 ∧ (coll 0x33 0).phase = .fetched ∧
    (∀ e ∈ (fab1 [coll 0x33 0]).cmds, e.2.claimedBy ≠ some 0) ∧
    (∀ t ∈ [0x13, 0x10, 3, 4], NoTeardown (unacked t 9) ∧ arrives (unacked t 9) 0 5 9 = true ∧
      (unacked t 9).fab.unacked.find? (fun y => y.mseq == 6 && y.dst == 9) = some (out1 t 9 (some 0)) ∧ Alone (unacked t 9) 0 { hcmd 1 64 with phase := .started }) ∧
    (serving (unacked 3 5) = true ∧ (unacked 3 5).fab.unacked.find? (fun y => y.mseq == 6 && !y.acked) = some (out1 3 5 (some 0))) ∧
    (let s := asked (sending 2 0) (req1 .write 9 false)
     serving s = true ∧ (portAt s 0).reqs.find? (fun q => q.tag == 4) = some (req1 .write 9 false) ∧ runningCores s 0 (sending 2 0) = []) := by
  unfold NoTeardown Alone; decide

/-- The same with a route to device 9; its retransmission leaves by port 0. -/
def unackedRouted : State := { unacked 3 9 with fab := { (unacked 3 9).fab with routes := [(0, BitVec.ofNat 64 (2 ^ 32 + 2 ^ 29))] } }

theorem witness_FabricMessages_more :
    route unackedRouted (messageColony 3 1) 0 5 9 7 = .port 0 ∧
    (∀ t ∈ [0x10, 0x12, 0x13], serving (unacked t 9) = true ∧ (unacked t 9).fab.unacked.find? (fun y => y.mseq == 6) = some (out1 t 9 (some 0)) ∧
      runningCores (unacked t 9) 0 { hcmd 1 64 with phase := .started } = [] ∧ ∀ e ∈ (unacked t 9).cols, 6 ∉ e.2.awaiting) ∧
    (portAt (asked (sending 1 1) (req1 .add 5 true)) 0).reqs.find? (fun q => q.tag == 4) = some (req1 .add 5 true) := ⟨rfl, by decide⟩

theorem test_fabric_messages :
    (cmdAt (after (.peerAbort 0 ctl 0 0x10 9) (fab1 [coll 0x33 0])) 0).map (fun k => (k.phase, k.status)) = some (.done, 7) ∧
    (cmdAt (after (.ack 0 ctl 6 0) (unacked 0x10 9)) 0).map (fun k => k.phase) = some .done ∧
    (after (.ack 0 ctl 6 0) (unacked 0x13 9)).fab.unacked.map (fun y => y.acked) = [true] ∧ (after (.ack 0 ctl 6 0) (unacked 3 9)).fab.unacked = [] ∧
    (after (.controlRetransmit 6) (unacked 3 5)).out.length = 1 ∧
    (cmdAt (after (.fabricTimeout 0 4 0) (asked (sending 2 0) (req1 .write 9 false))) 0).map (fun k => k.status) = some 7 := by decide

/- Mappings. -/

/-- MAP of the page 0x30000 (all permissions), its host form, UNMAP of the page at 0x20000. -/
def mapCmd : Cmd := cmdOf 0x40 [(16, 8, 0x30000), (24, 8, 0x30000), (32, 4, 1), (37, 1, 7)]
def syncCmd : Cmd := cmdOf 0x42 [(16, 8, 0x30000), (24, 8, 2 ^ 63), (32, 4, 1)]
def unmapCmd : Cmd := cmdOf 0x41 [(16, 8, 0x20000), (32, 4, 1)]
def page3 : Pte := ⟨0x30000, 0, 0x30000, true, true, true⟩
def mapped (c : Cmd) : State := { image1 c with cols := [(1, { home1 with wdBusy := if c.phase = .started then some 0 else none })] }

theorem witness_MappingsChange_commands :
    (∀ c ∈ [mapCmd, syncCmd, unmapCmd], canStart (mapped c) 0 c = true ∧ Alone (mapped c) 0 c ∧ c.stage = 0 ∧ serving (mapped c) = true) ∧
    (mapEntries mapCmd = [(0x30000, some page3)] ∧ worst (mapFields mapCmd) = none) ∧
    (syncCmd.isHost 24 = true ∧ runOver syncCmd.pgVa syncCmd.pgBytes 1 (2 ^ 48) = [] ∧ words8 1 (leBytes 8 0x3000F) = [0x3000F] ∧
      hostEntryOk 0 0x3000F = true ∧ hostEntry syncCmd.pgVa 0x3000F = (0x30000, some page3)) ∧
    (pageRows home1 [(0x30000, some page3)] = none ∧ withdraws home1 0 (0x30000, some page3) = false ∧ leafAt home1 0x30000 0 = none ∧
      addedNeed (mapped mapCmd) 1 [page3] = [] ∧ (placeTables home1 (tablesFor page3)).isSome = true) ∧
    ((unmapCmd.byte 37 1).testBit 0 = false ∧ conflicted (mapped unmapCmd) 0 unmapCmd = false ∧ (colAt (mapped unmapCmd) 1).wdBusy = none ∧
      leafAt home1 unmapCmd.pgVa 0 = some ⟨0x20000, 0, 0x20000, true, true, false⟩) ∧
    (let c : Cmd := { unmapCmd with phase := .started, stage := 2 }
     (colAt (mapped c) 1).wdBusy = some 0 ∧ oldEpoch (mapped c) 1 = false) := by
  unfold Alone; decide

theorem test_mappings :
    (colAt (after (.map 0) (mapped mapCmd)) 1).ptes.contains page3 = true ∧
    (cmdAt (after (.map 0) (mapped mapCmd)) 0).map (fun k => (k.phase, k.result)) = some (.done, 1) ∧
    (colAt (after (.syncTable 0 (some (leBytes 8 0x3000F))) (mapped syncCmd)) 1).ptes.contains page3 = true ∧
    leafAt (colAt (after (.unmap 0) (mapped unmapCmd)) 1) 0x20000 0 = none ∧
    (cmdAt (after (.withdrawalDrainEnd 0) (mapped { unmapCmd with phase := .started, stage := 2 })) 0).map (fun k => k.phase) = some .done := by decide

/-- Core 639 waits for a page that is there or not; a record with it as the waiter. -/
def walking (va : Nat) : State :=
  { base with cols := [(1, home1)], cmds := [(0, launch)], cores := [(639, { st := .running, cmd := some 0, colony := 1, want := some (va, true) })] }
def xltOn : State :=
  let s := walking 0x30000
  { s with flt := { recs := [(0, { cause := 0x30, severity := 1, st := .opened, unit := .none, colony := 1, fseq := 1, xlt := true, va := 0x30000, waiters := [639] })] } }

/-- The walkers of all dies hold the page's leaf. -/
def parityOn : State :=
  { walking 0x20000 with mesh := (List.range 4).map (fun d => (d, { wcache := [{ colony := 1, level := 1, va := 0x20000, leaf := some ⟨0x20000, 0, 0x20000, true, true, false⟩ }] })) }

theorem witness_MappingsChange_walks :
    (∀ va ∈ [0x20000, 0x30000], serving (walking va) = true ∧ (coreAt (walking va) 639).cmd = some 0 ∧ (coreAt (walking va) 639).want = some (va, true) ∧
      agentWaits (walking va) 639 = false) ∧
    (leafFor home1.ptes 0x2FFFF).isSome = true ∧ leafFor home1.ptes 0x30000 = none ∧ 0 < home1.fMax ∧ (walking 0x30000).flt.recs = [] ∧
    ((tfind xltOn.flt.recs 0).map (fun r => (r.xlt, r.st, r.waiters)) = some (true, .opened, [639]) ∧ agentCmd xltOn 639 = some 0 ∧
      launch.job = 0 ∧ allLines xltOn = []) ∧
    launch.dying = false ∧ walkerLeaf (meshAt (walking 0x20000) (639 / 160)).wcache 1 0x20000 = none ∧ walkerLeaf (meshAt parityOn 3).wcache 1 0x20000 = leafFor home1.ptes 0x20000 ∧
    walkerDie 640 (leafFor home1.ptes 0x20000) = 0 ∧ walkerLeaf (meshAt parityOn 0).wcache 1 0x20000 = leafFor home1.ptes 0x20000 := by decide

theorem test_walks :
    (coreAt (after (.translationWalk 639 1 0x20000 .write false) (walking 0x20000)) 639).tc.map (fun e => e.dpa) = [0x20000] ∧
    ((tfind (after (.translationWalk 639 1 0x30000 .write false) (walking 0x30000)).flt.recs 0).map (fun r => (r.va, r.access, r.waiters))) =
      some (0x30000, 2, [639]) ∧
    ((tfind (after (.translationRecordTimeout 0) xltOn).flt.recs 0).map (fun r => (r.st, r.fin, r.status))) = some (.closed, 4, 3) := by decide

/-- A FILL needs a 2 MiB shadow frame; 2 MiB stand free, but a page's frame stands among them. -/
def compact : State :=
  { base with nextCmd := 1, cmds := [(0, { cmdOf 0x21 [] with regions := [(0x200000, 64)] })]
              cols := [(1, { home1 with ptes := [⟨0x20000, 0, 0x20000, true, true, false⟩, ⟨0x200000, 1, 0x200000, true, true, false⟩]
                                        pool := [⟨0, 0x700000000, 0x20000⟩, ⟨0, 0x700030000, 0x1D0000⟩, ⟨0, 0x700200000, 0x10000⟩]
                                        frames := [(2, 0x70002)] })] }

theorem witness_MappingsChange_compaction :
    compactTo compact 1 0x20000 = some 0x700200000 ∧ movedSize (colAt compact 1) 0x20000 = 65536 := by decide +kernel

theorem test_walker_parity :
    (after (.translationWalk 640 1 0x20000 .read true) parityOn).mesh.map (fun e => e.2.wparity) = [1, 0, 0, 0] := by decide +kernel

/- Colonies. -/

/-- A composition command of page 0 that names core 0, channels 16 to 31, or nothing. -/
def compose (op : Nat) (fs : List (Nat × Nat × Nat)) (ind : List Byte) : Cmd := { page := 0, ring := 0, pkt := pktOf op fs, colony := 0, ind := ind }
def core0 : List Byte := 1 :: zeros 255
def set1 : List Byte := zeros 82 ++ [0xFF, 0xFF] ++ zeros 172
def bindCmd : Cmd := compose 0x50 [(16, 1, 2), (17, 1, 0x7F), (18, 1, 3)] set1
def composing (c : Cmd) (cols : Tbl Colony) : State :=
  { base with nextCmd := 1, cmds := [(0, c)], cols := cols, cores := [(0, { st := .bound, colony := 1 })]
              sec := { slots := [(4, { st := .active, kind := 0, tenant := 3 })] } }
def owner1 : Tbl Colony := [(1, { colony1 with cur := { colony1.cur with instar := 255 } })]
/-- Colony 1 with an old entry without requests. -/
def advanced : Tbl Colony := [(1, { colony1 with old := { valid := true, instar := 255, channels := List.range 16 } })]

/-- A BIND that waits for nothing more than its map update. -/
def bindingCmd : Cmd := { bindCmd with phase := .started, stage := 2 }
def bindingOn : State :=
  { composing bindingCmd [(2, { st := .binding })] with chans := [(16, { mode := .transit, claim := some 0 })] }

theorem witness_ColoniesRecompose_commands :
    (bindOk (composing bindCmd owner1) bindCmd = true ∧ coresOf (namedUnits set1) = [] ∧ portsOf (namedUnits set1) = [] ∧
      channelsOf (namedUnits set1) = [16, 17, 18, 19, 20, 21, 22, 23, 24, 25, 26, 27, 28, 29, 30, 31] ∧
      (∀ n ∈ channelsOf (namedUnits set1), (chanAt (composing bindCmd owner1) n).mode ≠ .fenced)) ∧
    (∀ p ∈ [(0x51, 0), (0x52, 0)], let c := compose p.1 [(16, 1, 1), (17, 1, p.2)] core0
      rebindOk (composing c owner1) c = true ∧ namedUnits core0 ≠ [] ∧ (coreAt (composing c owner1) 0).st ≠ .running ∧ c.colField ≠ 0) ∧
    (∀ c ∈ [bindCmd, compose 0x51 [(16, 1, 1)] core0, compose 0x51 [(16, 1, 2), (17, 1, 1)] [], compose 0x53 [] []],
      canStart (composing c owner1) 0 c = true ∧ claimedElsewhere (composing c owner1) 0 c = false ∧ serving (composing c owner1) = true ∧
      Alone (composing c owner1) 0 c ∧ NoTeardown (composing c owner1)) ∧
    (let c := compose 0x51 [(16, 1, 2), (17, 1, 1)] []
     (c.byte 17 1).testBit 0 = true ∧ c.colField = 2 ∧ advanceHeld { st := .active, cur := { valid := true } } = false) ∧
    (let c : Cmd := { compose 0x51 [(16, 1, 1)] [] with phase := .started, stage := 1, units := [.channel 3] }
     advanceHeld (colAt (composing c owner1) 1) = false ∧ (colAt (composing c owner1) 1).cur.valid = true ∧
     3 ∈ (colAt (composing c owner1) 1).cur.channels ∧ (chanAt (composing c owner1) 3).mode ≠ .fenced ∧
     reclaimWaits (composing c owner1) 1 = false ∧ tablesFit (composing c owner1) c = true) ∧
    (Alone bindingOn 0 bindingCmd ∧ bindingCmd.units = [] ∧ claimedUnits bindingOn 0 = [.channel 16]) := by
  unfold Alone NoTeardown; decide

theorem test_composition :
    (chanAt (after (.bind 0) (composing bindCmd owner1)) 31).wipeBusy = true ∧ (colAt (after (.bind 0) (composing bindCmd owner1)) 2).st = .binding ∧
    (coreAt (after (.unbind 0) (composing (compose 0x51 [(16, 1, 1)] core0) owner1)) 0).claim = some 0 ∧
    (coreAt (after (.rebind 0) (composing (compose 0x52 [(16, 1, 1)] core0) owner1)) 0).claim = some 0 ∧
    (colAt (after (.teardown 0) (composing (compose 0x51 [(16, 1, 2), (17, 1, 1)] []) [(2, { st := .active, cur := { valid := true } })])) 2).st = .free ∧
    (let t := after (.mapUpdate 0) (composing { compose 0x51 [(16, 1, 1)] [] with phase := .started, stage := 1, units := [.channel 3] } owner1)
     (colAt t 1).cur.instar = 0 ∧ (colAt t 1).old.instar = 255 ∧ (colAt t 1).cur.channels.contains 3 = false) ∧
    (let t := after (.mapUpdate 0) bindingOn
     (colAt t 2).st = .active ∧ (colAt t 2).cur.channels = [16] ∧ (chanAt t 16).colony = 2) := by decide

/-- Channels, ports and cores on their way. -/
def moved1 : State :=
  { composing { compose 0x50 [(16, 1, 2)] [] with phase := .started, stage := 2, units := [.channel 5, .channel 6] } advanced with
    chans := [(4, { mode := .transit, wipeBusy := true, remap := [(1, 2)] }), (5, { mode := .transit, wipeBusy := true, claim := some 0 }),
              (6, { mode := .transit, awaits := some 1 })]
    ports := [(3, { st := .active, leaving := true, colony := 1 })]
    cores := [(1, { st := .fenced, replaceDue := true, colony := 1, phys := 17 })]
    boot := { base.boot with spares := [(0, [3, 18])] }, hbm := mwrite [] (hbmKey 4 0) [1, 2] }

theorem witness_ColoniesRecompose_units :
    serving moved1 = true ∧ NoTeardown moved1 ∧ (colAt moved1 1).st = .active ∧ advanceHeld (colAt moved1 1) = true ∧ inflightOld moved1 1 = 0 ∧ (chanAt moved1 6).mode = .transit ∧ (chanAt moved1 6).awaits = some 1 ∧
    (∀ n ∈ [4, 5], (chanAt moved1 n).mode = .transit ∧ (chanAt moved1 n).wipeBusy = true ∧ (chanAt moved1 n).rewipe = false ∧ (chanAt moved1 n).retraining = false) ∧
    (chanAt moved1 4).claim = none ∧ (chanAt moved1 5).claim = some 0 ∧ (cmdAt moved1 0).map (fun c => c.toField) = some 2 ∧
    (portAt moved1 3).leaving = true ∧ (portAt moved1 3).st = .active ∧
    ((coreAt moved1 1).st = .fenced ∧ (coreAt moved1 1).replaceDue = true ∧ 0 ∉ moved1.flt.quar ∧
      (∀ e ∈ moved1.cores, e.1 < 1 → e.1 / 160 = 0 → e.2.replaceDue = false) ∧ nearestSpare [3, 18] 17 = some 3) ∧
    (fnLive (composing bindCmd owner1) .pf = true ∧ ∀ e ∈ (composing bindCmd owner1).cmds, e.2.colony ≠ 1) := by
  unfold NoTeardown; decide

theorem test_units :
    (colAt (after (.oldEntryRetire 1) moved1) 1).old.valid = false ∧ (chanAt (after (.oldEntryRetire 1) moved1) 6).wipeBusy = true ∧ (after (.channelWipeDone 4 true) moved1).hbm = [] ∧
    (chanAt (after (.channelWipeDone 4 true) moved1) 4).remap = [(1, 2)] ∧
    (cmdAt (after (.channelWipeDone 5 true) moved1) 0).map (fun c => c.units) = some [.channel 6] ∧
    (portAt (after (.portLeaveDrainEnd 3) moved1) 3).refreshing = true ∧ (coreAt (after (.coreReplacement 1) moved1) 1).phys = 3 ∧
    (colAt (after (.colonyReset 1) (composing bindCmd owner1)) 1).cur.instar = 0 := by decide

/- The encodings that VSFU may give (R117): 2 ulp of EXP2(1) = 2, LOG2(8) = 3 and SIGMOID(0) = 1/2, 1 ulp of RSQRT(4) = 1/2
and RCP(-4) = -1/4, the absolute bound of LOG2(1) = 0. -/

theorem test_sfu :
    keysUlp 2 (exp2Span ⟨false, 1, 0⟩) = (0x3FFFFFFC, 0x40000002) ∧ keysUlp 2 (log2Span ⟨false, 1, 3⟩) = (0x403FFFFE, 0x40400002) ∧
    keysUlp 2 (sigmoidSpan ⟨false, 0, 0⟩) = (0x3EFFFFFC, 0x3F000002) ∧ keysUlp 1 (rsqrtSpan ⟨false, 1, 2⟩) = (0x3EFFFFFE, 0x3F000001) ∧
    keysUlp 1 (negSpan true (rcpSpan ⟨true, 1, 2⟩)) = (-0x3E800001 - 1, -0x3E7FFFFE - 1) ∧
    log2Keys ⟨false, 1, 0⟩ = (-0x34800000 - 1, 0x34800000) := by decide

/- Keys. -/

/-- A KEY_LOAD blob of FORM 0, kind 1, tenant 0. -/
def blob0 : List Byte := leBytes 4 0x424B4245 ++ leBytes 2 1 ++ [0, 1, 0] ++ zeros 55
def blob1 : List Byte := leBytes 4 0x424B4245 ++ leBytes 2 1 ++ [1, 0, 0] ++ zeros 215
/-- KEY_LOAD into slot 7 from host memory. -/
def loadCmd (kind len : Nat) : Cmd := compose 0x61 [(16, 1, 7), (17, 1, kind), (24, 8, 2 ^ 63), (32, 2, len)] []
def hostBlob : List Byte := leBytes 4 0x53534245 ++ leBytes 2 1 ++ zeros 154
def attestCmd : Cmd := compose 0x60 [(24, 8, 2 ^ 63)] []
def sealCmd : Cmd := { cmdOf 0x63 [(24, 8, 2 ^ 63), (32, 8, 2 ^ 63)] with ind := [] }
def keysOn (c : Cmd) (k : Slot) : State :=
  { base with nextCmd := 1, cmds := [(0, c)], cols := [(1, { colony1 with keySlot := 4 })], sec := { lmsLeft := 9, slots := [(7, k)] } }

def startedLoad : Cmd := { loadCmd 0 224 with phase := .started }
/-- A wrapped key is being loaded into slot 7. -/
def loadOn : State := keysOn startedLoad { st := .loading, cmd := some 0, wrapped := true }

theorem witness_KeysAndEvidence_load :
    serving loadOn = true ∧ loadingSlot loadOn 0 = some 7 ∧ (tfind loadOn.sec.slots 7).isSome = true ∧ cmdAt loadOn 0 = some startedLoad ∧
      startedLoad.finished = false ∧ startedLoad.job = 0 ∧ (slotAt loadOn 7).wrapped = true ∧ (slotAt loadOn 7).wrapOk = false ∧ Alone loadOn 0 startedLoad := by
  unfold Alone; decide

theorem witness_KeysAndEvidence :
    (∀ c ∈ [attestCmd, loadCmd 1 64, loadCmd 0 224, compose 0x62 [(16, 1, 7), (17, 1, 1)] [], sealCmd],
      cmdAt (keysOn c {}) 0 = some c ∧ canStart (keysOn c {}) 0 c = true ∧ Alone (keysOn c {}) 0 c ∧ NoTeardown (keysOn c {})) ∧
    (attestCmd.isHost 24 = true ∧ treeReady (keysOn attestCmd {}) = true ∧ (keysOn attestCmd {}).sec.lmsLeft < 2 ^ 16 ∧ attestCmd.pkt.length = 64) ∧
    ((loadCmd 1 64).isHost 24 = true ∧ blob0.length = (loadCmd 1 64).byte 32 2 ∧ blob1.length = (loadCmd 0 224).byte 32 2 ∧
      blobOk (loadCmd 1 64) (zeros 64) = false ∧ blobOk (loadCmd 1 64) blob0 = true ∧ blobOk (loadCmd 0 224) blob1 = true ∧
      keyLoadOk (keysOn (loadCmd 1 64) { st := .active }) (loadCmd 1 64) blob0 = false ∧
      keyLoadOk (keysOn (loadCmd 0 224) {}) (loadCmd 0 224) blob1 = true ∧ loadingSlot (keysOn (loadCmd 0 224) {}) 0 = none) ∧
    (let c := compose 0x62 [(16, 1, 7), (17, 1, 1)] []
     let s := keysOn c { st := .active, kind := 1 }
     (slotAt s c.keySlotNo).st = .active ∧ (slotAt s c.keySlotNo).kind = c.keyKind ∧ vfSlotOk s c 1 0 = true ∧
     (∀ e ∈ s.cols, e.2.keySlot ≠ 7) ∧ (∀ e ∈ s.cmds, (e.2.op = 0x22 ∨ e.2.op = 0x23) → e.2.slot ≠ 7) ∧ (slotAt (keysOn c {}) 7).st ≠ .active) ∧
    (sealCmd.isHost 24 = true ∧ sealCmd.isHost 32 = true ∧ hostBlob.length = 160 ∧ hostBlobOk hostBlob = true ∧ treeReady (keysOn sealCmd {}) = true) ∧
    (let c : Cmd := { compose 0x62 [(16, 1, 7), (17, 1, 1)] [] with phase := .started }
     let s := keysOn c { st := .retiring, kind := 1, cmd := some 0 }
     serving s = true ∧ (slotAt s 7).st = .retiring ∧ slotInflight s 7 = 0 ∧ c.finished = false ∧ clocked s = true ∧ 0 < s.sec.spares) ∧
    (let s : State := { keysOn attestCmd { st := .active } with sec := { spares := 0, slots := [(7, { st := .active })] } }
     s.sec.spares = 0 ∧ (slotAt s 7).cmd = none ∧ (slotAt s 7).st ≠ .failed ∧ ∀ e ∈ s.cols, e.2.keySlot ≠ 7) := by
  unfold Alone NoTeardown; decide

theorem test_keys :
    (cmdAt (after (.attest 0) (keysOn attestCmd {})) 0).map (fun k => k.result) = some 3896 ∧ (after (.attest 0) (keysOn attestCmd {})).sec.lmsLeft = 8 ∧
    (slotAt (after (.keyLoad 0 (some blob1)) (keysOn (loadCmd 0 224) {})) 7).st = .loading ∧
    (slotAt (after (.keyLoad 0 none) (keysOn startedLoad { st := .loading, cmd := some 0, wrapped := true, wrapOk := true })) 7).st = .active ∧
    (slotAt (after (.keyLoad 0 none) loadOn) 7).st = .empty ∧ (cmdAt (after (.keyLoad 0 none) loadOn) 0).map (fun k => k.status) = some 0x05 ∧
    (cmdAt (after (.keyLoad 0 (some (zeros 64))) (keysOn (loadCmd 1 64) {})) 0).map (fun k => k.status) = some 0x0A ∧
    (slotAt (after (.keyZeroise 7) (keysOn { compose 0x62 [(16, 1, 7), (17, 1, 1)] [] with phase := .started } { st := .retiring, kind := 1, cmd := some 0 })) 7).st = .empty ∧
    (after (.keySlotCheckFail 127) (keysOn attestCmd {})).sec.spares = 7 ∧
    (colAt (after (.sealSession 0 (some hostBlob)) (keysOn sealCmd {})) 1).sealSess = some (0, 1) := by decide

/- Faults. -/

def fltRec (st : RecState) (u : UnitRef) : FaultRec := { cause := 0x10, severity := 3, st := st, unit := u, colony := 1, fseq := 1 }
/-- READ_FAULT of two records, SAMPLE of the LAUNCH with tag 0, PERTURB of point 63. -/
def readFaultCmd : Cmd := cmdOf 0x70 [(16, 2, 511), (18, 2, 1), (24, 8, 2 ^ 63)]
def sampleCmd : Cmd := cmdOf 0x71 [(24, 8, 0x20000)]
def perturbCmd (action : Nat) : Cmd := cmdOf 0x72 [(16, 1, 63), (17, 1, action), (20, 4, 5), (24, 4, 6)]
def flt (c : Cmd) : State :=
  { base with nextCmd := 2, cmds := [(0, { launch with pkt := pktOf 0x10 [] }), (1, c)], cols := [(1, { home1 with cur := { home1.cur with cores := [0] } })]
              flt := { recs := [(511, fltRec .closed .none)] } }

/-- A SAMPLE of colony 2 of colony 1's LAUNCH (R130). -/
def strangeSample : Cmd := { sampleCmd with colony := 2 }

theorem witness_FaultCommands :
    (∀ c ∈ [readFaultCmd, sampleCmd, perturbCmd 0, perturbCmd 3], cmdAt (flt c) 1 = some c ∧ canStart (flt c) 1 c = true ∧ Alone (flt c) 1 c) ∧
    (readFaultCmd.isHost 24 = true ∧ (tfind (flt readFaultCmd).flt.recs 511).isSome = true) ∧
    ((sampleTarget (flt sampleCmd) 1 sampleCmd).map (fun e => (e.1, e.2.isLaunch, e.2.phase)) = some (0, true, .running) ∧
      (let sc : Cmd := { sampleCmd with regions := [(0x20000, 65536)] }
       destOk (setCmd (flt sampleCmd) 1 sc) sc = true ∧ conflicted (setCmd (flt sampleCmd) 1 sc) 1 sc = false ∧
       isTaken (reserveOf home1 (needOf (touchedPages home1 sc.regions))) = true)) ∧
    (canStart (flt strangeSample) 1 strangeSample = true ∧ Alone (flt strangeSample) 1 strangeSample ∧
      (sampleTarget (flt strangeSample) 1 strangeSample).map (fun e => e.2.colony) = some 1) ∧
    (flt (perturbCmd 3)).flt.pctlEn = false ∧
    (let s : State := { base with flt := { pctlEn := true, gnats := [(63, ⟨1, 2, 3, 0⟩)] }, sec := { lcSteps := 1 } }
     s.flt.pctlEn = true ∧ tfind s.flt.gnats 63 = some ⟨1, 2, 3, 0⟩ ∧ serving s = true ∧ fnLive s .pf = true ∧ s.flt.fatal = false ∧
     (0x10027F0001 : Word).getLsbD 32 = false ∧ (0x1027F0001 : Word).getLsbD 32 = true ∧ (0x1027F0001 : Word).toNat % 16 = 1 ∧
     (0x1027F0001 : Word).toNat / 2 ^ 16 % 2 ^ 10 = 639 ∧ lifecycle s = 1 ∧ targetOk 1 639 = true ∧ targetOk 1 640 = false ∧ lifecycle base ≠ 1) ∧
    holdsWork (at_ 0 {}) 7 0 = true := by
  unfold Alone; decide

theorem test_fault_commands :
    (cmdAt (after (.readFault 1) (flt readFaultCmd)) 1).map (fun k => (k.phase, k.result)) = some (.done, 1) ∧
    (cmdAt (after (.perturb 1) (flt (perturbCmd 3))) 1).map (fun k => k.status) = some 0x0B ∧
    (after (.perturbExpiry 63) { base with flt := { gnats := [(63, ⟨1, 2, 3, 0⟩)] } }).flt.gnats = [] ∧
    (after (.perturbEnableWrite 1) base).flt.pctlEn = true ∧
    (after (.inject 0x1027F0001) { base with sec := { lcSteps := 1 } }).flt.armed = [(1, 639)] := by decide

/-- Units with a reset or a reaction window in the record 0, control cores, an unconfirmed quarantine. -/
def hang (st : RecState) (u : UnitRef) : State :=
  { base with flt := { recs := [(0, fltRec st u)], toggling := true, quarPending := [(3, 1)], unrecordedWin := [.channel 9] }
              hub := { ctrl := [(0, .active), (1, .active), (2, .standby)] } }

/-- A request waits at channel 511. -/
def waitingChan : State := chan511 { queue := [⟨0, 5, 4, 64, .shared⟩] }

theorem witness_HangsAndReactions :
    serving (at_ 0 {}) = true ∧ NoTeardown (at_ 0 {}) ∧ resetting (at_ 0 {}) (.core 0) = false ∧ launch.job = 0 ∧ 0 ∈ runningCores (at_ 0 {}) 0 launch ∧
    holdsOld (at_ 0 {}) 0 = false ∧ cmdTranslating (at_ 0 {}) 0 = false ∧ atBarrier (at_ 0 {}) 0 = false ∧
    (∀ e ∈ (at_ 0 {}).flt.recs, e.2.st.live = false) ∧ recEntry (at_ 0 {}).flt.recs = some 0 ∧
    (resetting waitingChan (.channel 511) = false ∧ (chanAt waitingChan 511).mode ≠ .fenced ∧ (chanAt waitingChan 511).queue ≠ [] ∧ serving waitingChan = true ∧
      NoTeardown waitingChan) ∧
    resetting (hang .resetting (.copyEngine 15)) (.copyEngine 15) = true ∧
    (resetting (hang .resetting (.core 639)) (.core 639) = true ∧ (coreAt (hang .resetting (.core 639)) 639).st ≠ .killed ∧
      (coreAt (hang .resetting (.core 639)) 639).st ≠ .fenced) ∧
    (let s := hang .closed .none
     serving s = true ∧ NoTeardown s ∧ ctrlAt s 0 = .active ∧ ctrlIn s .standby = [2] ∧ ctrlAt s 2 = .standby ∧ ctrlIn s .active ≠ [] ∧
     (tfind s.flt.quarPending 3).isSome = true ∧ s.flt.toggling = true ∧ s.flt.unrecordedWin[512 - 512]? = some (.channel 9)) ∧
    (let s := hang .window (.channel 8)
     tfind s.flt.recs 0 = some (fltRec .window (.channel 8)) ∧ (chanAt s 8).mode ≠ .fenced ∧ fnLive s .pf = true) := by
  unfold NoTeardown; decide

theorem test_reactions :
    (cmdAt (after (.hangWindowExpiry (.core 0)) (at_ 0 {})) 0).map (fun k => (k.phase, k.faultRuns, k.after)) = some (.killing, 1, none) ∧
    (chanAt (after (.hangWindowExpiry (.channel 511)) waitingChan) 511).mode = .fenced ∧
    (coreAt (after (.engineResetTimeout (.core 639)) (hang .resetting (.core 639))) 639).st = .fenced ∧
    resetting (after (.engineResetDone (.copyEngine 15)) (hang .resetting (.copyEngine 15))) (.copyEngine 15) = false ∧
    ctrlAt (after (.watchdogExpiry 0) (hang .closed .none)) 2 = .active ∧ ctrlAt (after (.controlCoreUncorrectableError 2) (hang .closed .none)) 2 = .fenced ∧
    (after (.quarantineTimeout 3) (hang .closed .none)).flt.stopCause = 0x50 ∧ (after .collectorSelfCheckFailure base).flt.stopCause = 0x52 ∧
    (chanAt (after (.reactionWindowExpiry 0) (hang .window (.channel 8))) 8).mode = .fenced ∧
    (chanAt (after (.fltAckFence 0) (hang .window (.channel 8))) 8).mode = .fenced ∧
    ((tfind (after (.fltAckKeep 0) (hang .window (.channel 8))).flt.recs 0).map (fun r => r.st)) = some .closed ∧
    (chanAt (after (.reactionWindowExpiry 512) (hang .closed .none)) 9).mode = .fenced ∧
    (after .aliveToggle (hang .closed .none)).flt.alive = some true := by decide

/- Power. -/

/-- Die 3 in a state; the boot at a stage. -/
def dieOn (st : Stage) (d : DiePower) : State :=
  { base with boot := { base.boot with stage := st }, pwr := { dies := [(3, d)], railGood := 0xFFF, rootLock := 31 } }

theorem witness_PowerAndCooling :
    (∀ st ∈ [Stage.running, .hold], clocked (dieOn st {}) = true ∧ NoTeardown (dieOn st {})) ∧
    (dieAt (dieOn .running { mode := .raising, pstate := 4 }) 3).mode = .raising ∧ (dieAt (dieOn .running {}) 3).mode = .steady ∧
    (∀ p ∈ [0, 4], let d : DiePower := { mode := .hold, wait := 0, pstate := p, vstate := p, preTrip := 2 }
      (dieAt (dieOn .running d) 3).mode = .hold ∧ (dieAt (dieOn .running d) 3).wait = 0) ∧
    (3 ∉ (dieOn .running {}).flt.quar ∧ cutsOff [3] = false ∧ cutsOff [0, 1] = true ∧ (dieOn .running {}).boot.stage ≠ .hold) ∧
    (dieOn .running {}).pwr.trip = false ∧ pastCooling (dieOn .running {}) = true ∧
    (let s : State := { dieOn .running {} with hub := { regNext := some (true, 1, 2), cold := 0 } }
     s.hub.regNext = some (true, 1, 2) ∧ s.hub.cold = 0 ∧ (colAt s 64).cold = 0 ∧ (colAt s (portAt s 15).colony).cold = 0) := by
  unfold NoTeardown; decide

theorem test_power :
    (dieAt (after (.voltageReached 3) (dieOn .running { mode := .raising, pstate := 4 })) 3).pstate = 3 ∧
    (dieAt (after (.droopTrip 3) (dieOn .running { pstate := 3 })) 3).pstate = 4 ∧ (dieAt (after (.droopTrip 3) (dieOn .running {})) 3).gating = true ∧
    (dieAt (after (.droopHoldExpiry 3 0) (dieOn .running { mode := .hold, pstate := 1, vstate := 1, preTrip := 2 })) 3).pstate = 2 ∧
    (after (.railOutOfTolerance 11) (dieOn .running {})).boot.removed = true ∧ (after (.railOutOfTolerance 4) (dieOn .running {})).flt.stopCause = 0x50 ∧
    (after (.pllLockLoss 4) (dieOn .running {})).flt.stopCause = 0x52 ∧ (after (.pllLockLoss 0) (dieOn .hold {})).boot.refuse = 0x86 ∧
    (after (.thermalTrip 3) (dieOn .running {})).flt.stopCause = 0x53 ∧ (after .coolantLoss (dieOn .running {})).flt.stopCause = 0x53 ∧
    (after .coolantOkHigh (dieOn .running {})).pwr.lost = true ∧ (after .coolantOkLow (dieOn .running {})).pwr.coolantOk = false := by decide

/- Ports and links. -/

/-- Port 15 as given. -/
def port15 (p : Port) : State := { base with ports := [(15, p)] }
def lanes8 : List Nat := List.range 8
def active15 : Port := { st := .active, lanes := lanes8, keysLive := 1 }
/-- A partner's discovery descriptor of a version (R316): port 3, 8 lanes, FADDR 7, LMS signatures, IDHASH 5. -/
def partnerDesc (version : Nat) : List Byte :=
  leBytes 4 0x45544C5A ++ leBytes 2 version ++ leBytes 1 3 ++ leBytes 1 8 ++ leBytes 3 7 ++ leBytes 1 1 ++ zeros 4 ++ leBytes 48 5 ++ zeros 64

theorem witness_PortJoin :
    (∀ st ∈ [PortState.disabled, .detect, .train, .discover, .auth, .active, .refused, .fenced],
      serving (port15 { st := st }) = true ∧ clocked (port15 { st := st }) = true ∧ fnLive (port15 { st := st }) .pf = true ∧
      NoTeardown (port15 { st := st }) ∧ (portAt (port15 { st := st }) 15).st = st) ∧
    (∀ e ∈ (port15 {}).flt.recs, e.2.st.live = false) ∧ (List.range 9).Nodup ∧ ([0, 1, 2] : List Nat).Nodup ∧ treeReady (port15 { st := .auth }) = true ∧
    (portAt (port15 { st := .train }) 15).peerDesc = [] ∧ (portAt (port15 { st := .discover }) 15).ownDesc = [] ∧
    treeReady ({ port15 { st := .discover } with boot := { base.boot with treeDone := false } } : State) = false ∧
    descriptorOk (partnerDesc 1) = true ∧ descriptorOk (partnerDesc 2) = false ∧
    (let p : Port := { st := .auth, ownLms := true, peerLms := true }
     0 < (port15 p).sec.lmsLeft ∧ p.transit = false ∧ authProblem (port15 p) p true true true = none ∧ authProblem (port15 p) p true true false ≠ none ∧
     ({ port15 p with sec := { lmsLeft := 0 } } : State).sec.lmsLeft = 0) ∧
    (7 ∈ (portAt (port15 { active15 with spare := some 8 }) 15).lanes ∧ (portAt (port15 active15) 15).spare = none ∧ 4 < active15.lanes.length ∧
      (portAt (port15 { active15 with lanes := [0, 1, 2, 3] }) 15).lanes.length ≤ 4) ∧
    (8 ∈ (portAt (port15 { active15 with retraining := [8] }) 15).retraining) := by
  unfold NoTeardown; decide

theorem test_port_join :
    (portAt (after (.portEnWrite 15 0) (port15 {})) 15).st = .disabled ∧ (portAt (after (.portFence 15) (port15 active15)) 15).st = .fenced ∧
    (after (.portFence 15) (port15 { st := .fenced })).zlt.evSeq = 2 ∧
    (portAt (after (.portUnfence 15) (port15 { st := .fenced })) 15).st = .detect ∧ (portAt (after (.portRetrain 15) (port15 active15)) 15).st = .detect ∧
    (portAt (after (.lossOfPartner 15 3) (port15 { active15 with departures := [0, 0, 0] })) 15).holdoff = true ∧
    (after (.eventRingEnable 0x16) (port15 {})).zlt.evEnable = true ∧ (portAt (after (.partnerPresence 15 4) (port15 {})) 15).st = .train ∧
    (portAt (after (.partnerPresence 15 3) (port15 {})) 15).st = .detect ∧
    (portAt (after (.trainingDone 15 (List.range 9) 4) (port15 { st := .train })) 15).spare = some 4 ∧
    (portAt (after (.trainTimeout 15 0) (port15 { st := .train })) 15).st = .detect ∧
    (portAt (after (.discoveryDescriptor 15 (partnerDesc 1)) (port15 { st := .discover })) 15).st = .auth ∧
    (portAt (after (.discoveryDescriptor 15 (partnerDesc 2)) (port15 { st := .discover })) 15).st = .refused ∧
    (portAt (after (.laneFailing 15 7) (port15 { active15 with spare := some 8 })) 15).lanes = [0, 1, 2, 3, 4, 5, 6, 8] ∧
    (portAt (after (.laneRetrainDone 15 8 true) (port15 { active15 with retraining := [8] })) 15).spare = some 8 ∧
    (portAt (after (.detectHoldoffExpiry 15) (port15 { holdoff := true })) 15).holdoff = false ∧
    (portAt (after (.authentication 15 6 true true true) (port15 { st := .auth, ownLms := true, peerLms := true })) 15).st = .active := by decide

/-- A flit of a kind at a SEQ, with ACK 5, as the partner lays it out. -/
def flit (kind seq : Nat) (content : List Byte) : FlitIn :=
  { bytes := flitBytes { seq := seq, kind := kind, vl := 0, kp := false, content := content } 5, slot := seq }
/-- The tag of a control packet of zero bytes under the receiving key and IV of a port that got no packet yet. -/
def zeroTag : List Byte := tagBytes 0 0 [3] (zeros 40)
def linked : Port :=
  { active15 with rxLanes := lanes8, rxSeq := 8191, owed := [(0, 3)],
                  replayBuf := [{ seq := 4, kind := 4, vl := 0, kp := false, content := [] }, { seq := 6, kind := 4, vl := 0, kp := false, content := [] }] }
/-- LINK flits sent, and the lane and SEQ of every flit sent. -/
def linksOut (s : State) : List (Nat × List Nat) := s.out.filterMap (fun o => match o with | .link _ k b => some (k, b) | _ => none)
def flitsOut (s : State) : List (Nat × Nat) :=
  s.out.filterMap (fun o => match o with | .flit _ lane b => some (lane, bytesAt b 0 4 / 64 % 8192) | _ => none)

theorem witness_LinkFlits :
    portsRun (port15 linked) = true ∧ (portAt (port15 linked) 15).st = .active ∧ (5, 15) ∉ (port15 linked).flt.armed ∧ (6, 15) ∉ (port15 linked).flt.armed ∧
    (portAt (port15 linked) 15).txQueue = [] ∧ linked.linkQueue = [] ∧ linked.replayBuf.length < 4094 ∧ linked.rxLanes ≠ [] ∧
    (∀ k ∈ List.range 10, tget 0 linked.fails (alongLane linked 8191 k) + 1 < 8) ∧
    linked.rxHold = [] ∧ tget [] linked.rxQueue 0 = [] ∧ tget 0 linked.owed 0 + 1 < 32 ∧ 0 < tget 0 linked.owed 0 ∧ linked.departures = [] ∧
    NoTeardown (port15 linked) ∧
    (let p : Port := { active15 with keyFlits := 2 ^ 32 - 2 ^ 24 }
     p.rekeying = false ∧ p.keysLive = 1 ∧ 2 ^ 32 - 2 ^ 24 ≤ p.keyFlits ∧ portsRun (port15 p) = true) ∧
    (portAt (port15 { active15 with rekeying := true }) 15).rekeying = true ∧
    (let p : Port := { active15 with refreshing := true }
     serving (port15 p) = true ∧ (portAt (port15 p) 15).transit = false ∧ (portAt (port15 p) 15).rewipe = false) := by
  unfold NoTeardown; decide

/-- Good flits: IDLE, an unassigned kind, LINK at the SEQ awaited, a control packet ahead of it; and one with a bad CRC. -/
theorem witness_LinkFlits_received :
    (∀ k ∈ [0, 5, 4], crcHolds (flit k 8191 (zeros 56)).bytes = true ∧ (flitIn (flit k 8191 (zeros 56))).1.kind = k) ∧
    ((flitIn (flit 4 8191 (zeros 56))).1.seq + 8192 - linked.rxSeq) % 8192 = 0 ∧
    crcHolds (flit 3 0 (zeros 56)).bytes = true ∧ (flitIn (flit 3 0 (zeros 56))).1.vl = 0 ∧
    ((flitIn (flit 3 0 (zeros 56))).1.seq + 8192 - linked.rxSeq) % 8192 = 1 ∧
    crcHolds { flit 4 8191 (zeros 56) with bytes := zeros 64 }.bytes = false := by decide +kernel

/-- A control packet whose tag holds, and one whose tag does not. -/
theorem witness_LinkFlits_sealed (t : List Byte) (h : t.length = 16) :
    let f := flit 3 8191 (zeros 40 ++ t)
    let g : Flit := { seq := 8191, kind := 3, vl := 0, kp := false, content := zeros 40 ++ t }
    crcHolds f.bytes = true ∧ flitIn f = (g, 5) ∧ (sealHolds (beginPacket linked g) [g] = true ↔ t = zeroTag) := by
  have hc : (zeros 40 ++ t).length = 56 := by simp [zeros, h]
  refine ⟨crcHolds_flitBytes _ _ hc, flitIn_flitBytes _ _ hc (by simp) (by simp) (by simp) rfl (by decide) _ rfl rfl, ?_⟩
  have hd : (zeros 40 ++ t).drop 40 = t := List.drop_left' (by simp [zeros])
  have ht : (zeros 40 ++ t).take 40 = zeros 40 := List.take_left' (by simp [zeros])
  simp only [sealHolds, List.headD_cons, List.flatMap_cons, List.flatMap_nil, List.append_nil, hc, List.map_cons, List.map_nil]
  show (tagBytes _ _ _ ((zeros 40 ++ t).take 40) == (zeros 40 ++ t).drop 40) = true ↔ _
  rw [ht, hd, beq_iff_eq]
  exact eq_comm

/-- Some 16 bytes are not the tag. -/
theorem witness_LinkFlits_unsealed : (zeroTag.map (fun b => b + 1)).length = 16 ∧ zeroTag.map (fun b => b + 1) ≠ zeroTag := by
  refine ⟨by simp [zeroTag, tagBytes], fun h => ?_⟩
  have h0 : ∀ b : Byte, b + 1 ≠ b := by decide
  have := congrArg List.head? h
  simp only [zeroTag, tagBytes, leBytes, List.map_cons, List.head?_cons, Option.some.injEq] at this
  exact h0 _ this

theorem test_link :
    linksOut (after (.flitReceive 15 { flit 4 8191 (zeros 56) with bytes := zeros 64, along := 2 }) (port15 linked)) = [(2, [8191, 3])] ∧
    linksOut (after (.flitReceive 15 { flit 4 8191 (zeros 56) with uncorrectable := true }) (port15 linked)) = [(2, [8191, 255]), (2, [63, 3])] ∧
    (portAt (after (.flitReceive 15 (flit 4 8191 (zeros 56))) (port15 linked)) 15).rxSeq = 0 ∧
    (portAt (after (.flitReceive 15 (flit 4 8191 (zeros 56))) (port15 linked)) 15).replayBuf.map (fun f => f.seq) = [6] ∧
    (portAt (after (.flitReceive 15 (flit 3 0 (zeros 56))) (port15 linked)) 15).rxHold.length = 1 ∧
    flitsOut (after (.nak 15 4 1) (port15 linked)) = [(0, 4)] ∧
    tget 0 (portAt (after (.creditReturn 15 0 300) (port15 linked)) 15).credits 0 = 256 ∧
    linksOut (after (.creditReturnTimer 15 0) (port15 linked)) = [(1, [0, 3])] ∧
    (portAt (after (.rekey 15) (port15 { active15 with keyFlits := 2 ^ 32 - 2 ^ 24 })) 15).keysLive = 2 ∧
    (portAt (after (.rekeyAcknowledged 15) (port15 { active15 with rekeying := true })) 15).kp = true ∧
    (portAt (after (.sessionRefreshDone 15) (port15 { active15 with refreshing := true })) 15).refreshing = false ∧
    (portAt (after (.tagHoldExpiry 15 7) (port15 { active15 with heldTags := [7, 9] })) 15).heldTags = [9] := by decide +kernel

/-- The check value of CRC-32C, of the nine bytes "123456789" (its standard's). -/
theorem test_crc32c : crc32c [0x31, 0x32, 0x33, 0x34, 0x35, 0x36, 0x37, 0x38, 0x39] = 0xE3069283 := by decide +kernel

/- Boot, host, management. -/

/-- A boot state: powered, out of reset, at a stage. -/
def bootAt (st : Stage) : State := { base with boot := { base.boot with stage := st, treeDone := false }, mgt := { link := true } }
def heldReset : State := { base with boot := { base.boot with perstLow := true } }
def prepared (st : Stage) : State :=
  { bootAt st with boot := { base.boot with stage := st, prepDone := true, ppr := [(1, 0, 2, 3)], len := 3648 }
                   sec := { base.sec with idRoot := leNat (sha384 (zeros 157)), idhash := leNat (sha384 (zeros 97)) } }
/-- A certificate of a role, its key, issuer's key and signature block all zero bytes (R381, R385). -/
def certificate (role : Nat) : List Byte :=
  leBytes 4 0x54434245 ++ leBytes 2 1 ++ leBytes 1 role ++ zeros 9 ++ sha384 (zeros 157) ++ zeros 292
/-- A least bundle (R464): an empty configuration (R465), a chain of zero keys (R385), a calibration record of their IDHASH (R456),
an image of 64 zero bytes and SVN 1 (R386). -/
def bundleBytes : List Byte :=
  leBytes 4 0x4E424245 ++ leBytes 2 1 ++ zeros 2 ++ leBytes 4 256 ++ leBytes 4 1024 ++ leBytes 4 1280 ++ leBytes 4 869 ++ leBytes 4 2176 ++ leBytes 4 1124 ++
  leBytes 4 3328 ++ leBytes 4 320 ++ zeros 216 ++ leBytes 4 0x43424245 ++ leBytes 2 1 ++ zeros 1018 ++ zeros 157 ++ certificate 1 ++ certificate 2 ++ zeros 27 ++
  leBytes 4 0x4C414350 ++ leBytes 2 1 ++ zeros 2 ++ sha384 (zeros 97) ++ zeros 1068 ++ zeros 28 ++
  leBytes 4 0x57464245 ++ leBytes 2 1 ++ leBytes 2 0 ++ leBytes 2 1 ++ zeros 2 ++ leBytes 4 64 ++ sha384 (zeros 64) ++ zeros 256
def bundle : Bundle :=
  { readable := true, bytes := bundleBytes, chainSigned := true, hssMatch := true, pcalSigned := true, imageSigned := true, ownerSigned := false }
/-- Colony 1 is VF 5's, in service or in reset behind its peers. -/
def vfOn (col : Colony) (flr : List Nat) : State :=
  { base with cols := [(1, { col with vf := 5 })], pcie := { vfEnable := true, numVfs := 64, flr := flr, msix := [(6, { pend := [29] })] } }

theorem witness_ResetBootAndHost :
    (heldReset.boot.perstLow = true ∧ heldReset.boot.powered = true) ∧ (base.boot.powered = true ∧ base.boot.perstLow = false ∧ base.boot.inReset = false ∧
      base.flt.fatal = false ∧ base.boot.stage ≠ .failed ∧ (bootAt .failed).boot.stage = .failed) ∧
    ({ base with boot := { base.boot with hotHeld := true } } : State).boot.hotHeld = true ∧
    (base.boot.link = true ∧ serving base = true ∧ serving (bootAt .waitBundle) = false ∧ (bootAt .waitBundle).boot.link = true) ∧
    (clocked (bootAt .hold) = true ∧ ({ bootAt .hold with pwr := { coolantOk := true } } : State).pwr.coolantOk = true ∧ (2 ^ 32 - 1) % 2 ^ 32 ≠ 0) ∧
    (pastStep4 (bootAt .waitBundle) = true ∧ (bootAt .waitBundle).boot.treeDone = false ∧ (bootAt .waitBundle).sec.lmsExhausted = false ∧
      (bootAt .waitBundle).boot.prepDone = false) ∧
    (bootWritable (prepared .waitBundle) = true ∧ (1 : Word).getLsbD 0 = true ∧ (prepared .waitBundle).boot.len = 3648) ∧
    (clocked (prepared .ready) = true ∧ (prepared .ready).boot.prepDone = true ∧ (prepared .ready).boot.pprRun = false ∧ (prepared .ready).boot.ppr ≠ []) ∧
    clocked (bootAt .start) = true := by decide

theorem witness_ResetBootAndHost_functions :
    (cfgLive (vfOn {} []) (.vf 63) = true ∧ 63 ∉ (vfOn {} []).pcie.flr ∧ NoTeardown (vfOn {} []) ∧
      (vfOn {} []).cols.find? (fun e => e.2.vf == 63 && (e.2.st == .active || e.2.st == .resetting)) = none) ∧
    (let c : Colony := { colony1 with vf := 5 }
     (vfOn c []).cols.find? (fun e => e.2.vf == 5 && (e.2.st == .active || e.2.st == .resetting)) = some (1, c) ∧ NoTeardown (vfOn c []) ∧
     cfgLive (vfOn c []) (.vf 5) = true ∧ advanceHeld c = false ∧ c.cur.valid = true ∧ ∀ e ∈ (vfOn c []).cmds, e.2.colony ≠ 1) ∧
    (let s := vfOn { colony1 with st := .resetting, stage := .waitingPeers, awaiting := [3] } [5]
     serving s = true ∧ 5 ∈ s.pcie.flr ∧ (colAt s 1).vf = 5 ∧ (colAt s 1).stage = .waitingPeers ∧ (colAt s 1).awaiting ≠ []) ∧
    (cfgLive (vfOn {} []) .pf = true ∧ (vfOn {} []).pcie.vfEnable = true ∧ cfgLive base .pf = true ∧ base.pcie.vfEnable = false) ∧
    (fnLive (vfOn {} []) (.vf 5) = true ∧ 29 ≤ maxVec (.vf 5)) := by
  unfold NoTeardown; decide

theorem test_boot :
    (after .powerOn State.reset).boot.powered = true ∧ (after .perstNRelease heldReset).boot.coolWait = true ∧ (after .perstNAssert base).boot.inReset = true ∧
    (after .hotReset base).boot.hotHeld = true ∧ (after .surpriseRemoval base).boot.removed = true ∧
    (after (.bootSelftest [0, 1, 2, 3, 4, 5] true true true true 77 9) { bootAt .hold with pwr := { coolantOk := true } }).boot.stage = .waitBundle ∧
    (after (.bootSelftest [] true true true true 77 9) { bootAt .hold with pwr := { coolantOk := true } }).boot.refuse = 0x81 ∧
    (after .lowerTreeDone (bootAt .waitBundle)).sec.lmsLeft = 32768 ∧
    (after (.bootPpr []) (prepared .ready)).boot.pprDone = 1 ∧ serving (after .bonorLoad (bootAt .start)) = true := by decide

/-- The bundle passes every check of R466; with a bad signature in its chain it fails with code 0x05. -/
theorem witness_ResetBootAndHost_bundle :
    bundleRefusal (prepared .waitBundle) bundle 3648 0 = none ∧
    bundleRefusal (prepared .waitBundle) { bundle with chainSigned := false } 3648 0 = some 5 := by decide +kernel

theorem test_boot_bundle :
    (after (.bootGo 1 bundle) (prepared .waitBundle)).boot.stage = .start ∧
    (after (.bootGo 1 { bundle with readable := false }) (prepared .waitBundle)).boot.refuse = 1 := by decide +kernel

/-- SHA-384 of "abc" (the standard's example): its first and last bytes. -/
theorem test_sha384 : bytesAt (sha384 [0x61, 0x62, 0x63]) 0 2 = 0x00CB ∧ bytesAt (sha384 [0x61, 0x62, 0x63]) 46 2 = 0xA725 := by decide +kernel

theorem test_host :
    (colAt (after (.vfFlr 5) (vfOn colony1 [])) 1).st = .resetting ∧ (after (.vfFlr 5) (vfOn colony1 [])).pcie.flr = [5] ∧
    (after .vfEnableClear (vfOn {} [])).pcie.vfEnable = false ∧ (after (.vfEnableSet 64) base).pcie.numVfs = 64 ∧
    (after (.d3hot .pf true) base).pcie.d3 = [0] ∧ (after (.msiXVectorUnmask (.vf 5) 29) (vfOn {} [])).out = [.msix (.vf 5) 29] ∧
    (colAt (after (.flrWaitCut 5) (vfOn { colony1 with st := .resetting, stage := .waitingPeers, awaiting := [3] } [5])) 1).awaiting = [] := by decide

/-- A device of a lifecycle with one session, live or in handshake. -/
def mgmtOn (steps : Nat) (st : Stage) (live : Bool) : State :=
  { bootAt st with boot := { (bootAt st).boot with treeDone := true }, sec := { (prepared st).sec with lcSteps := steps, lmsLeft := 9, imageSvn := 1, fuseSvn := 0 }
                   mgt := { link := true, sessions := [{ id := 1, live := live, pushes := 2 }], upload := some 61440 } }
def mh (session : Nat) : MgmtHeader := { session := session, seq := 2, req := 8, tagOk := true }
/-- The responses sent: session, request, status and body. -/
def answersOut (s : State) : List (Nat × Nat × Nat × List Byte) := s.out.filterMap (fun o => match o with | .mgmt n r st b _ => some (n, r, st, b) | _ => none)
/-- A device with the whole bundle staged. -/
def staged : State :=
  { mgmtOn 3 .waitBundle true with mgt := { (mgmtOn 3 .waitBundle true).mgt with upload := some 3648, staging := mwrite [] 0 bundleBytes } }
def token : Token := { kind := 1, sigOk := true, idhash := 0, boots := 0, mgmtRoot := 0, ownerRoot := none }

theorem witness_Management :
    (mgmtUp (mgmtOn 3 .running true) = true ∧ lifecycle (mgmtOn 2 .running true) = 2 ∧ lifecycle (mgmtOn 3 .running true) = 3 ∧
      lifecycle (mgmtOn 1 .running true) = 1 ∧ (mgmtOn 3 .running false).mgt.handshakeWait = 0 ∧
      ((mgmtOn 3 .running true).mgt.sessions.filter (fun x => x.live)).length < 2) ∧
    ((findSession (mgmtOn 3 .running false) 1).map (fun x => x.live) = some false ∧ treeReady (mgmtOn 3 .running false) = true) ∧
    ((findSession (mgmtOn 3 .running true) 1).map (fun x => (x.live, seqOk x (mh 1), x.cache.length, x.pushes)) = some (true, true, 0, 2) ∧
      inService (mgmtOn 3 .running true) = true ∧ (mgmtOn 3 .running true).flt.fatal = false ∧
      (mgmtOn 3 .running true).sec.fuseSvn < (mgmtOn 3 .running true).sec.imageSvn ∧ 0 < (mgmtOn 3 .running true).sec.spareRows) ∧
    (beforeReady (mgmtOn 3 .waitBundle true) = true ∧ waiting (mgmtOn 3 .waitBundle true) = true ∧ bundleLenOk 33554432 = true ∧
      (mgmtOn 3 .waitBundle true).mgt.upload = some 61440 ∧ 0 + 61440 ≤ 61440 ∧ Memory.wf (mgmtOn 3 .waitBundle true).mgt.staging = true) ∧
    ((mgmtOn 3 .running true).mgt.pending = none ∧ (mgmtOn 3 .running true).sec.lcSteps ≠ 9 ∧ (mgmtOn 3 .running true).sec.mgmtRoots.length < 4) ∧
    (lifecycle (mgmtOn 0 .running true) = 0 ∧ token.boots = (mgmtOn 0 .running true).sec.boots ∧ (tokenFuses (mgmtOn 0 .running true) token 5).isSome = true) := by
  decide

/-- The staged bundle passes every check; an upload of zero bytes fails the first. -/
theorem witness_Management_bundle :
    bundleRefusal staged { bundle with bytes := mread staged.mgt.staging 0 3648 } 3648 1 = none ∧
    bundleRefusal (mgmtOn 3 .waitBundle true) { bundle with bytes := mread [] 0 256 } 256 1 = some 2 := by
  refine ⟨?_, by decide +kernel⟩
  have hl : bundleBytes.length = 3648 := by decide +kernel
  have h : mread staged.mgt.staging 0 3648 = bundleBytes := by
    rw [← hl]
    exact mread_mwrite (m := []) 0 bundleBytes rfl
  rw [h]
  decide +kernel

theorem test_management :
    answersOut (after (.helloA (mh 0) 5 6) (mgmtOn 1 .running true)) = [(0, 8, 3, [])] ∧ (after (.helloA (mh 0) 5 6) (mgmtOn 3 .running true)).mgt.handshakeWait = 50000 ∧
    (after (.authA (mh 1) true true) (mgmtOn 3 .running false)).sec.lmsLeft = 8 ∧
    answersOut (after (.setPowerCap (mh 1) 401) (mgmtOn 3 .running true)) = [(1, 8, 4, [])] ∧ (after (.setPowerCap (mh 1) 200) (mgmtOn 3 .running true)).pwr.cap = 200 ∧
    (after (.advanceSvn (mh 1) true) (mgmtOn 3 .running true)).sec.fuseSvn = 1 := by decide

theorem test_management_delayed :
    (after (.setFwPolicy (mh 1) 2 64) (mgmtOn 3 .waitBundle true)).mgt.policyFloor = 64 ∧
    (after (.bundleBegin (mh 1) 256) (mgmtOn 3 .waitBundle true)).mgt.upload = some 256 ∧
    answersOut (after (.bundleEnd (mh 1) bundle) { mgmtOn 3 .waitBundle true with mgt := { (mgmtOn 3 .waitBundle true).mgt with upload := some 256 } }) = [(1, 8, 1, [2])] ∧
    (after (.mgmtReset (mh 1) 10000) (mgmtOn 3 .running true)).mgt.pending = some .reset ∧
    (after (.transition (mh 1) 0) (mgmtOn 2 .running true)).mgt.pending = some .transition ∧
    (after (.handover (mh 1) 0 6) (mgmtOn 3 .running true)).mgt.pending = some (.handover 6) := by decide

theorem test_management_lifecycle :
    (after (.lcToken (mh 0) token 5) (mgmtOn 0 .running true)).sec.lcSteps = 1 ∧
    (let s := mgmtOn 3 .running true
     (after (.mgmtDelayExpiry true) { s with mgt := { s.mgt with pending := some (.handover 6) } }).sec.mgmtRoots = [0, 6]) ∧
    (after (.mgmtSessionExpiry 1) (mgmtOn 3 .running true)).mgt.sessions = [] ∧ (after (.pauseFrame 65537) (mgmtOn 3 .running true)).mgt.pause = 1 ∧
    (after (.icmpv6Echo [3]) (mgmtOn 3 .running true)).out = [.net 2 [3]] := by decide

theorem witness_RegisterWrites : serving base = true ∧ fnLive base .pf = true := by decide

theorem test_register_writes :
    (after (.registerWrite .pf 0 0x0800 2000 8) base).hub.npLimit = 2000 ∧ (after (.registerWrite .pf 0 0x0800 2001 8) base).hub.npLimit = 100 ∧
    (after (.registerWrite .pf 0 0x0800 2000 4) base).hub.npLimit = 100 ∧
    (coreAt (after (.registerWrite .pf 0 (0x60000 + 0x100 * 639 + 0x18) 3 8) { base with cores := [(639, { err := 7 })] }) 639).err = 4 ∧
    (portAt (after (.registerWrite .pf 0 (0x40000 + 0x100 * 15 + 0x38) 9 8) base) 15).bond = 0 := by decide

/- Whole machine. -/

theorem witness_StepRunsFrontCommand :
    ({ base with pending := [.queryState (mh 0)] } : State).pending = [.queryState (mh 0)] ∧ base.pending = [] := by decide

theorem witness_StepKeepsMemoryCanonical : State.memWf (memOn (wl 0x51) cached) ∧ State.memWf State.reset := by
  unfold State.memWf; decide

/- Ill-formed commands, one for each check. -/

theorem ill_formed_kernel :
    (Instr.add 640 (w3 0x10)).wf = false ∧ (Instr.add 0 (w3 0x11)).wf = false ∧ (Instr.unassignedOpcode 0 (w3 0x10)).wf = false ∧
    (Instr.unassignedOpcode 640 0).wf = false ∧ (Instr.matrixDispatch 640 {}).wf = false ∧ (Instr.unassignedOpcode 0 0).wf = true := by decide

theorem ill_formed_units :
    (Instr.sqDoorbell (.vf 64) 0 0 0).wf = false ∧ (Instr.sqDoorbell .pf 65 0 0).wf = false ∧ (Instr.sqDoorbell .pf 0 16 0).wf = false ∧
    (Instr.syncCounterAccess .pf 0 256 0).wf = false ∧ (Instr.packetFetch 65 0 none none).wf = false ∧ (Instr.gets 680 0 0 {}).wf = false ∧
    (Instr.gets 0 512 0 {}).wf = false ∧ (Instr.gets 0 0 32 {}).wf = false ∧ (Instr.gets 0 0 0x76000000 {}).wf = false ∧ (Instr.gets 679 511 0x75FFFFC0 {}).wf = true ∧
    (Instr.hbmWrite 512 0 [] 0).wf = false ∧ (Instr.refresh 512 0 0).wf = false ∧ (Instr.patrolScrub 0 966656 0 .clean).wf = false ∧
    (Instr.patrolScrub 0 0 32 .clean).wf = false ∧ (Instr.sliceAllocatorFault 512).wf = false ∧ (Instr.copyEngineFault 16).wf = false ∧
    (Instr.controlCoreUncorrectableError 16).wf = false ∧ (Instr.timeSliceEnd 0).wf = false ∧ (Instr.timeSliceEnd 65).wf = false ∧
    (Instr.translationWalk 680 1 0 .read false).wf = false ∧ (Instr.translationWalk 0 65 0 .read false).wf = false := by decide

theorem ill_formed_rest :
    (Instr.portFence 16).wf = false ∧ (Instr.laneFailing 0 64).wf = false ∧ (Instr.revoke 17 ctl).wf = false ∧
    (Instr.writePacket 17 bulk []).wf = false ∧ (Instr.writePacket 0 { bulk with dst := 2 ^ 24 } []).wf = false ∧
    (Instr.writePacket 0 { bulk with src := 2 ^ 24 } []).wf = false ∧ (Instr.writePacket 0 { bulk with ttl := 256 } []).wf = false ∧
    (Instr.writePacket 0 { bulk with window := 65536 } []).wf = false ∧ (Instr.writePacket 0 { bulk with tag := 4096 } []).wf = false ∧
    (Instr.writePacket 0 { bulk with tagPort := 16 } []).wf = false ∧ (Instr.transitForward 16 (passing 1)).wf = false ∧ (Instr.transitForward 0 (.bulk 0 1 { bulk with dst := 2 ^ 24 } [])).wf = false ∧
    (Instr.fltAckKeep 512).wf = false ∧ (Instr.perturbExpiry 64).wf = false ∧ (Instr.keyZeroise 128).wf = false ∧
    (Instr.droopTrip 4).wf = false ∧ (Instr.pllLockLoss 5).wf = false ∧ (Instr.railOutOfTolerance 12).wf = false ∧
    (Instr.vfFlr 64).wf = false ∧ (Instr.flrWaitCut 64).wf = false ∧ (Instr.d3hot (.vf 64) true).wf = false ∧
    (Instr.registerWrite .pf 0 0 0 2).wf = false ∧ (Instr.registerWrite .pf 0 0 0 8).wf = true := by decide

end Sys2Proof.Tests
end

section
/-! PROOFS. The frame of a kernel instruction, the fields of its word, and arithmetic of words as numbers modulo 2^64. -/

namespace Sys2Proof.Machine

/- The frame of a kernel instruction where its body does not act (R71, R98, R99). -/

theorem legalWord_of_issues {s : State} {n : Nat} {w : Word} (h : Issues s n w) : legalWord w = true := h.2.2.2.1

theorem issue_illegal {s : State} {n op : Nat} {w : Word} (h : Fetches s n w) (ho : opIs w op = true)
    (hl : legalWord w = false) (body : Core → State) : issue s n op w body = illegal s n (coreAt s n).pc w := by
  obtain ⟨hrun, hang, hw⟩ := h
  have hang : armed s 7 n = false := hang
  simp [issue, issueRow, hrun, ho, hang, ← hw, hl]

theorem issue_retires {s : State} {n op : Nat} {w : Word} (h : Fetches s n w) (ho : opIs w op = true)
    (hl : legalWord w = true) (hg : guardHolds (coreAt s n) w = false) (body : Core → State) :
    issue s n op w body = retire s n (coreAt s n) := by
  obtain ⟨hrun, hang, hw⟩ := h
  have hang : armed s 7 n = false := hang
  simp [issue, issueRow, hrun, ho, hang, ← hw, hl, hg]

/- Fields of the word. -/

theorem opOf_of_opIs {w : Word} {op : Nat} (h : opIs w op = true) : opOf w = op := by
  have hw := w.isLt
  have h : w.toNat / 2 ^ 56 = op := by simpa [opIs] using h
  simp only [opOf, field, nbits, Nat.shiftRight_eq_div_pow]
  omega

theorem legalWord_false_of_fieldsOk {w : Word} (h : fieldsOk w = false) : legalWord w = false := by simp [legalWord, h]

theorem fImm_eq (w : Word) : fImm w = w.toNat % 2 ^ 32 := by simp [fImm, field, nbits]

theorem sext_toNat {k : Nat} (x : BitVec k) : sext x.toNat k = x.toInt := by
  have hx := x.isLt
  rw [BitVec.toInt_eq_toNat_cond, sext, Nat.mod_eq_of_lt hx]
  cases k with
  | zero => simp [BitVec.of_length_zero]
  | succ k =>
    have : (2 * x.toNat < 2 ^ (k + 1)) ↔ x.toNat < 2 ^ (k + 1 - 1) := by rw [pow_succ]; simp; omega
    simp only [this]

theorem sext_eq_toInt (n k : Nat) : sext n k = (BitVec.ofNat k n).toInt := by
  rw [← sext_toNat, BitVec.toNat_ofNat, sext, sext, Nat.mod_mod]

/-- The sign-extended immediate (R75). -/
theorem immS_eq (w : Word) : immS w = (w.setWidth 32).toInt := by
  rw [immS, fImm_eq, ← sext_toNat, BitVec.toNat_setWidth]

/- Arithmetic of words as numbers modulo 2^64 (R74). -/

theorem popcount_eq_countP (k n : Nat) : popcount k n = (List.range k).countP (fun i => n.testBit i) := by
  induction k generalizing n with
  | zero => rfl
  | succ k ih =>
    rw [popcount, ih, List.range_succ_eq_map, List.countP_cons, List.countP_map, Nat.add_comm]
    congr 1
    · congr 1
      funext i
      simp [Nat.testBit_succ]
    · rcases Nat.mod_two_eq_zero_or_one n with h | h <;> simp [Nat.testBit_zero, h]

theorem and_ofNat (a : Word) (i : Nat) : a &&& BitVec.ofNat 64 i = BitVec.ofNat 64 (Nat.land a.toNat i) := by
  rw [show Nat.land a.toNat i = a.toNat &&& i from rfl, BitVec.ofNat_and, BitVec.ofNat_toNat, BitVec.setWidth_eq]

theorem or_ofNat (a : Word) (i : Nat) : a ||| BitVec.ofNat 64 i = BitVec.ofNat 64 (Nat.lor a.toNat i) := by
  rw [show Nat.lor a.toNat i = a.toNat ||| i from rfl, BitVec.ofNat_or, BitVec.ofNat_toNat, BitVec.setWidth_eq]

theorem xor_ofNat (a : Word) (i : Nat) : a ^^^ BitVec.ofNat 64 i = BitVec.ofNat 64 (Nat.xor a.toNat i) := by
  rw [show Nat.xor a.toNat i = a.toNat ^^^ i from rfl, BitVec.ofNat_xor, BitVec.ofNat_toNat, BitVec.setWidth_eq]

theorem shiftLeft_eq_ofNat (a : Word) (k : Nat) : a <<< k = BitVec.ofNat 64 (a.toNat * 2 ^ k) := by
  apply BitVec.eq_of_toNat_eq
  simp [Nat.shiftLeft_eq]

theorem ushiftRight_eq_ofNat (a : Word) (k : Nat) : a >>> k = BitVec.ofNat 64 (a.toNat / 2 ^ k) := by
  rw [← Nat.shiftRight_eq_div_pow, ← BitVec.toNat_ushiftRight, BitVec.ofNat_toNat, BitVec.setWidth_eq]

theorem sshiftRight_eq_ofInt (a : Word) (k : Nat) : a.sshiftRight k = BitVec.ofInt 64 (a.toInt / 2 ^ k) := by
  rw [BitVec.sshiftRight, Int.shiftRight_eq_div_pow]
  norm_cast

theorem sub_eq_ofInt (a b : Word) : a - b = BitVec.ofInt 64 (a.toInt - b.toInt) := by
  apply BitVec.eq_of_toInt_eq
  simp [BitVec.toInt_sub, BitVec.toInt_ofInt]

end Sys2Proof.Machine
end

section
/-! PROOFS. Scalar instructions (R74, R75). -/

namespace Sys2Proof.Machine

/- Scalar instructions (R74, R75). -/

/-- A scalar instruction with register operands writes what its function gives for s[A] and s[B] (R74). -/
theorem scalarRR_writes {s : State} {n op : Nat} {w v : Word} (h : Issues s n w) (f : Word → Word → Word)
    (hv : f (sreg (coreAt s n) (fA w)) (sreg (coreAt s n) (fB w)) = v) (ho : opIs w op = true) :
    WritesSreg s (scalarRR s n op w f) n (fD w) v := by
  rw [scalarRR, issueReg_body h ho, hv]
  exact writesSreg_retire ..

/-- A scalar instruction with an immediate writes what its function gives for s[A] and the immediate (R75). -/
theorem scalarRI_writes {s : State} {n op : Nat} {w v : Word} (h : Issues s n w) (f : Word → Nat → Word)
    (hv : f (sreg (coreAt s n) (fA w)) (fImm w) = v) (ho : opIs w op = true) :
    WritesSreg s (scalarRI s n op w f) n (fD w) v := by
  rw [scalarRI, issueReg_body h ho, hv]
  exact writesSreg_retire ..

theorem min_eq_ofInt (a b : Word) : (if a.toInt ≤ b.toInt then a else b) = BitVec.ofInt 64 (min a.toInt b.toInt) := by
  rw [min_def]; split <;> exact BitVec.ofInt_toInt.symm

theorem max_eq_ofInt (a b : Word) : (if a.toInt ≤ b.toInt then b else a) = BitVec.ofInt 64 (max a.toInt b.toInt) := by
  rw [max_def]; split <;> exact BitVec.ofInt_toInt.symm

theorem minu_eq_ofNat (a b : Word) : (if a.toNat ≤ b.toNat then a else b) = BitVec.ofNat 64 (min a.toNat b.toNat) := by
  rw [min_def]; split <;> simp

theorem maxu_eq_ofNat (a b : Word) : (if a.toNat ≤ b.toNat then b else a) = BitVec.ofNat 64 (max a.toNat b.toNat) := by
  rw [max_def]; split <;> simp

/- The fields that R74 and R75 require to be 0. -/

theorem legalWord_mov {w : Word} (ho : opIs w 0x1E = true) (hb : fB w ≠ 0) : legalWord w = false :=
  legalWord_false_of_fieldsOk (by simp [fieldsOk, opOf_of_opIs ho, isZeroBits, ← fB.eq_1, hb])

theorem legalWord_popc {w : Word} (ho : opIs w 0x1F = true) (hb : fB w ≠ 0) : legalWord w = false :=
  legalWord_false_of_fieldsOk (by simp [fieldsOk, opOf_of_opIs ho, isZeroBits, ← fB.eq_1, hb])

theorem shiftField_ne_zero {w : Word} (h : 64 ≤ fImm w) : field w 31 6 ≠ 0 := by
  simp only [fImm, field, nbits, Nat.shiftRight_eq_div_pow] at h ⊢
  omega

theorem legalWord_shiftImmediate {w : Word} {op : Nat} (hop : op = 0x25 ∨ op = 0x26 ∨ op = 0x27) (ho : opIs w op = true)
    (hi : 64 ≤ fImm w) : legalWord w = false := by
  apply legalWord_false_of_fieldsOk
  rcases hop with rfl | rfl | rfl <;> simp [fieldsOk, opOf_of_opIs ho, isZeroBits, shiftField_ne_zero hi]

theorem legalWord_moveImmediate {w : Word} {op : Nat} (hop : op = 0x2E ∨ op = 0x2F) (ho : opIs w op = true)
    (ha : fA w ≠ 0) : legalWord w = false := by
  apply legalWord_false_of_fieldsOk
  rcases hop with rfl | rfl <;> simp [fieldsOk, opOf_of_opIs ho, isZeroBits, ← fA.eq_1, ha]

theorem issueReg_illegal {s : State} {n op : Nat} {w : Word} (h : Fetches s n w) (f : Core → Core)
    (ho : opIs w op = true) (hl : legalWord w = false) : issueReg s n op w f = illegal s n (coreAt s n).pc w := by
  rw [issueReg, issue_illegal h ho hl]

theorem scalarRR_illegal {s : State} {n op : Nat} {w : Word} (h : Fetches s n w) (f : Word → Word → Word)
    (ho : opIs w op = true) (hl : legalWord w = false) : scalarRR s n op w f = illegal s n (coreAt s n).pc w := by
  rw [scalarRR, issueReg_illegal h _ ho hl]

theorem scalarRI_illegal {s : State} {n op : Nat} {w : Word} (h : Fetches s n w) (f : Word → Nat → Word)
    (ho : opIs w op = true) (hl : legalWord w = false) : scalarRI s n op w f = illegal s n (coreAt s n).pc w := by
  rw [scalarRI, issueReg_illegal h _ ho hl]

/-- Settles O2: each row's function is the one its table row gives, and the frame writes it to s[D] alone. -/
theorem scalarResults : Obligations.ScalarResults := by
  refine ⟨fun s n w h => ?_, fun s n w h => ?_, fun s n w h => ⟨?_, ?_, ?_⟩⟩
  · intro a b gives
    have row {op : Nat} {i : Instr} {v : Word} (f : Word → Word → Word) (hi : exec i s = .next (scalarRR s n op w f))
        (hv : f a b = v) (ho : opIs w op = true) : gives i v := ⟨_, hi, scalarRR_writes h f hv ho⟩
    exact ⟨row _ rfl (by simp [BitVec.ofNat_add]), row _ rfl (sub_eq_ofInt a b),
      row _ rfl (by simp), row _ rfl (by simp),
      row _ rfl (by simp), row _ rfl (shiftLeft_eq_ofNat a _),
      row _ rfl (ushiftRight_eq_ofNat a _), row _ rfl (sshiftRight_eq_ofInt a _),
      row _ rfl (by simp [BitVec.ofNat_mul]), row _ rfl rfl,
      row _ rfl (min_eq_ofInt a b), row _ rfl (max_eq_ofInt a b), row _ rfl (minu_eq_ofNat a b), row _ rfl (maxu_eq_ofNat a b),
      row _ rfl rfl, row _ rfl (by rw [popcount_eq_countP]; rfl)⟩
  · intro a imm simm gives
    have himm : toWord (sext imm 32) = BitVec.ofInt 64 simm := congrArg toWord (immS_eq w)
    have row {op : Nat} {i : Instr} {v : Word} (f : Word → Nat → Word) (hi : exec i s = .next (scalarRI s n op w f))
        (hv : f a imm = v) (ho : opIs w op = true) : gives i v := ⟨_, hi, scalarRI_writes h f hv ho⟩
    exact ⟨row _ rfl (by simp [himm, BitVec.ofInt_add]), row _ rfl (and_ofNat a imm), row _ rfl (or_ofNat a imm),
      row _ rfl (xor_ofNat a imm), row _ rfl (shiftLeft_eq_ofNat a _), row _ rfl (ushiftRight_eq_ofNat a _),
      row _ rfl (sshiftRight_eq_ofInt a _), row _ rfl (by simp [himm, BitVec.ofInt_mul]), row _ rfl himm,
      fun ho => ⟨_, rfl, by rw [issueReg_body h ho]; exact writesSreg_retire ..⟩⟩
  · intro hb
    exact ⟨fun ho => congrArg _ (scalarRR_illegal h _ ho (legalWord_mov ho hb)),
      fun ho => congrArg _ (scalarRR_illegal h _ ho (legalWord_popc ho hb))⟩
  · intro hi
    exact ⟨fun ho => congrArg _ (scalarRI_illegal h _ ho (legalWord_shiftImmediate (by decide) ho hi)),
      fun ho => congrArg _ (scalarRI_illegal h _ ho (legalWord_shiftImmediate (by decide) ho hi)),
      fun ho => congrArg _ (scalarRI_illegal h _ ho (legalWord_shiftImmediate (by decide) ho hi))⟩
  · intro ha
    exact ⟨fun ho => congrArg _ (scalarRI_illegal h _ ho (legalWord_moveImmediate (by decide) ho ha)),
      fun ho => congrArg _ (issueReg_illegal h _ ho (legalWord_moveImmediate (by decide) ho ha))⟩

end Sys2Proof.Machine
end

section
/-! PROOFS. Compares, predicate logic and guards (R71, R76). -/

namespace Sys2Proof.Machine

/- Compares and predicate logic (R76). -/

theorem compareTo_writes {s : State} {n op : Nat} {w : Word} {v : Bool} (h : Issues s n w) (ho : opIs w op = true)
    (hv : compare op (sreg (coreAt s n) (fA w)) (cmpB (coreAt s n) w) = v) :
    WritesPred s (compareTo s n op w) n (fPD w) v := by
  rw [compareTo, issueReg_body h ho, hv]
  exact writesPred_retire _ _ _ (Nat.mod_lt _ (by decide))

theorem logicTo_writes {s : State} {n op : Nat} {w : Word} {v : Bool} (h : Issues s n w) (ho : opIs w op = true)
    (hv : predLogic op (pred (coreAt s n) (fPA w)) (pred (coreAt s n) (fPB w)) = v) :
    WritesPred s (logicTo s n op w) n (fPD w) v := by
  rw [logicTo, issueReg_body h ho, hv]
  exact writesPred_retire _ _ _ (Nat.mod_lt _ (by decide))

/-- The second operand of a compare (R76). -/
theorem cmpB_eq (c : Core) (w : Word) :
    cmpB c w = if fIB w then BitVec.ofInt 64 (w.setWidth 32).toInt else sreg c (fB w) := by
  rw [cmpB, toWord, immS_eq]

theorem compare_eq (a b : Word) : compare 0x30 a b = decide (a.toNat = b.toNat) := by
  simp [compare, BitVec.toNat_inj, Bool.beq_eq_decide_eq]

theorem compare_ne (a b : Word) : compare 0x31 a b = decide (a.toNat ≠ b.toNat) := by
  simp [compare, BitVec.toNat_inj, bne, Bool.beq_eq_decide_eq]

/-- A compare whose unused second operand is not 0 is illegal (R76, R98). -/
theorem legalWord_compare {w : Word} {op : Nat} (hop : 0x30 ≤ op ∧ op ≤ 0x35) (ho : opIs w op = true)
    (hz : if fIB w then fB w ≠ 0 else fImm w ≠ 0) : legalWord w = false := by
  have hp : formatPOk w = false := by
    cases hib : fIB w <;> simp_all [formatPOk, isZeroBits, fB, fImm]
  have hf : fieldsOk w = formatPOk w := by
    have := opOf_of_opIs ho
    obtain ⟨hlo, hhi⟩ := hop
    interval_cases op <;> simp [fieldsOk, this]
  exact legalWord_false_of_fieldsOk (hf.trans hp)

theorem compareTo_illegal {s : State} {n op : Nat} {w : Word} (h : Fetches s n w) (ho : opIs w op = true)
    (hl : legalWord w = false) : compareTo s n op w = illegal s n (coreAt s n).pc w := by
  rw [compareTo, issueReg_illegal h _ ho hl]

/-- Settles O3: the condition of each opcode is its row's, and the frame writes it to p[PD] alone. -/
theorem predicateResults : Obligations.PredicateResults := by
  refine ⟨fun s n w h hz => ?_, fun s n w h => ?_⟩
  · have row {op : Nat} (hop : 0x30 ≤ op ∧ op ≤ 0x35) (ho : opIs w op = true) :=
      congrArg (Host.Outcome.next (φ := Fault) (ρ := Refusal)) (compareTo_illegal h ho (legalWord_compare hop ho hz))
    exact ⟨row (by decide), row (by decide), row (by decide), row (by decide), row (by decide), row (by decide)⟩
  · intro a b p q gives
    have hb : cmpB (coreAt s n) w = b := cmpB_eq _ w
    have cmp {op : Nat} {i : Instr} {v : Bool} (hi : exec i s = .next (compareTo s n op w)) (hv : compare op a b = v)
        (ho : opIs w op = true) : gives i v := ⟨_, hi, compareTo_writes h ho (hb ▸ hv)⟩
    have logic {op : Nat} {i : Instr} {v : Bool} (hi : exec i s = .next (logicTo s n op w)) (hv : predLogic op p q = v)
        (ho : opIs w op = true) : gives i v := ⟨_, hi, logicTo_writes h ho hv⟩
    exact ⟨cmp rfl (compare_eq a b), cmp rfl (compare_ne a b), cmp rfl rfl, cmp rfl rfl, cmp rfl rfl, cmp rfl rfl,
      logic rfl rfl, logic rfl rfl, logic rfl (by rw [predLogic]; cases p <;> cases q <;> rfl), logic rfl rfl⟩

/- Guards (R71). -/

/-- A guard reads p[PG] and PN (R71). -/
theorem guardHolds_eq (c : Core) (w : Word) :
    guardHolds c w = xor (pred c (w.toNat / 2 ^ 52 % 8)) (w.getLsbD 55) := by
  simp only [guardHolds, fPG, fPN, field, nbits, bit, BitVec.getLsbD, Nat.shiftRight_eq_div_pow]
  rfl

theorem legalWord_guardNever {w : Word} (hg : w.toNat / 2 ^ 52 % 8 = 0) (hn : w.getLsbD 55 = true) : legalWord w = false := by
  have hpg : fPG w = 0 := by rw [fPG, field, nbits, Nat.shiftRight_eq_div_pow]; exact hg
  have hpn : fPN w = true := hn
  simp [legalWord, hpg, hpn]

/-- A result is that of the frame of an opcode with some body. -/
def InFrame (s : State) (n op : Nat) (w : Word) (x : Res) : Prop := ∃ body, x = .next (issue s n op w body)

theorem inFrame_issue (s : State) (n op : Nat) (w : Word) (body : Core → State) :
    InFrame s n op w (.next (issue s n op w body)) := ⟨_, rfl⟩

theorem inFrame_issueReg (s : State) (n op : Nat) (w : Word) (f : Core → Core) :
    InFrame s n op w (.next (issueReg s n op w f)) := ⟨_, rfl⟩

theorem inFrame_scalarRR (s : State) (n op : Nat) (w : Word) (f : Word → Word → Word) :
    InFrame s n op w (.next (scalarRR s n op w f)) := inFrame_issueReg ..

theorem inFrame_scalarRI (s : State) (n op : Nat) (w : Word) (f : Word → Nat → Word) :
    InFrame s n op w (.next (scalarRI s n op w f)) := inFrame_issueReg ..

theorem inFrame_compareTo (s : State) (n op : Nat) (w : Word) : InFrame s n op w (.next (compareTo s n op w)) :=
  inFrame_issueReg ..

theorem inFrame_logicTo (s : State) (n op : Nat) (w : Word) : InFrame s n op w (.next (logicTo s n op w)) :=
  inFrame_issueReg ..

theorem inFrame_globalAccess (s : State) (n op : Nat) (w : Word) (e : Sram) (write : Bool)
    (act : State → Nat → Cmd → Core → Nat → Pte → State) : InFrame s n op w (.next (globalAccess s n op w e write act)) :=
  inFrame_issue ..

theorem inFrame_issueVec (s : State) (n op : Nat) (w : Word) : InFrame s n op w (.next (issueVec s n op w)) :=
  inFrame_issue ..

/-- Every kernel row stands in the frame of its opcode (R71, R98). -/
theorem kernelRows_inFrame (s : State) (n : Nat) (w : Word) (e : Sram) :
    ∀ r ∈ kernelRows n w e, InFrame s n r.1 w (exec r.2 s) := by
  have row {op : Nat} {f : Core → State} := inFrame_issue s n op w f
  have reg {op : Nat} {f : Core → Core} := inFrame_issueReg s n op w f
  have rr {op : Nat} {f : Word → Word → Word} := inFrame_scalarRR s n op w f
  have ri {op : Nat} {f : Word → Nat → Word} := inFrame_scalarRI s n op w f
  have cmp {op : Nat} := inFrame_compareTo s n op w
  have logic {op : Nat} := inFrame_logicTo s n op w
  have glob {op : Nat} {wr : Bool} {f : State → Nat → Cmd → Core → Nat → Pte → State} := inFrame_globalAccess s n op w e wr f
  have vec {op : Nat} := inFrame_issueVec s n op w
  simp only [kernelRows, List.forall_mem_cons]
  exact ⟨rr, rr, rr, rr, rr, rr, rr, rr, rr, rr, rr, rr, rr, rr, rr, rr, ri, ri, ri, ri, ri, ri, ri, ri, ri, reg,
    cmp, cmp, cmp, cmp, cmp, cmp, logic, logic, logic, logic, reg, row, row, row, row, row, row, row, row, glob,
    glob, reg, row, row, row, row, row, row, reg, row, row, row, row, row, row, vec, vec, vec, vec, vec, vec, vec,
    vec, vec, vec, vec, vec, vec, vec, vec, vec, vec, vec, vec, vec, vec, vec, vec, fun _ h => absurd h List.not_mem_nil⟩

/-- Settles O6: a kernel row acts only through the frame of its opcode, which decides by the word and its guard. -/
theorem guardsDecide : Obligations.GuardsDecide := by
  refine ⟨guardHolds_eq, fun s n w e h r hr ho => ?_⟩
  obtain ⟨body, hexec⟩ := kernelRows_inFrame s n w e r hr
  refine ⟨fun hl hg => ⟨_, hexec, ?_⟩, fun hpg hpn => ?_⟩
  · rw [issue_retires h ho hl hg]
    exact ⟨onlyCore_setCore .., coreAt_setCore_same ..⟩
  · rw [hexec, issue_illegal h ho (legalWord_guardNever hpg hpn)]

end Sys2Proof.Machine
end

section
/-! PROOFS. Synchronisation and system values (R86 to R90). -/

namespace Sys2Proof.Machine

/- Effects on one core. -/

theorem onlyCore_trans {s t u : State} {n : Nat} (h : OnlyCore s t n) (h' : OnlyCore t u n) : OnlyCore s u n := by
  obtain ⟨hrest, hcores⟩ := h
  obtain ⟨hrest', hcores'⟩ := h'
  refine ⟨?_, fun m hm => (hcores' m hm).trans (hcores m hm)⟩
  rw [← hrest, ← hrest']

theorem onlyCore_retire (s : State) (n : Nat) (c : Core) : OnlyCore s (retire s n c) n := onlyCore_setCore ..

theorem coreAt_retire (s : State) (n : Nat) (c : Core) : coreAt (retire s n c) n = retireTo c (c.pc + 1) :=
  coreAt_setCore_same ..

theorem sems_retireTo (c : Core) (pc : Nat) : (retireTo c pc).sems = c.sems := by unfold retireTo; split <;> rfl

/- Barriers (R86, R88). -/

theorem barsOf_setCore_same {s : State} {id n : Nat} {cmd : Cmd} {c : Core} (hc : c.cmd = some id) :
    barsOf (setCore s n c) id cmd n = c.bars := by
  simp [barsOf, hc]

theorem barsOf_setCore_other {s : State} {id n m : Nat} {cmd : Cmd} {c : Core} (h : m ≠ n) :
    barsOf (setCore s n c) id cmd m = barsOf s id cmd m := by
  simp [barsOf, coreAt_setCore_other _ _ h]

/-- With core `n` at the barrier, all have arrived when every other core of the command has executed as many BARs. -/
theorem allArrived_setCore {s : State} {n id : Nat} {cmd : Cmd} {c : Core} (hid : cmdAt s id = some cmd)
    (hc : c.cmd = some id) :
    allArrived (setCore s n c) id c.bars = true ↔ ∀ m ∈ cmd.cores, m ≠ n → c.bars ≤ barsOf s id cmd m := by
  have hid' : cmdAt (setCore s n c) id = some cmd := hid
  simp only [allArrived, hid', List.all_eq_true, decide_eq_true_eq]
  refine forall₂_congr fun m _ => ?_
  by_cases hm : m = n
  · subst hm; simp [barsOf_setCore_same hc]
  · simp [barsOf_setCore_other hm, hm]

/-- A core that stands at its barrier retires the BAR once the others have arrived, and else waits (R86). -/
def barrierWait (s : State) (n id : Nat) (c : Core) : State :=
  if allArrived (setCore s n c) id c.bars then retire (setCore s n c) n c else setCore s n c

theorem barrierWait_retires {s : State} {n id : Nat} {cmd : Cmd} {c : Core} (hid : cmdAt s id = some cmd)
    (hc : c.cmd = some id) (h : ∀ m ∈ cmd.cores, m ≠ n → c.bars ≤ barsOf s id cmd m) :
    OnlyCore s (barrierWait s n id c) n ∧ coreAt (barrierWait s n id c) n = retireTo c (c.pc + 1) := by
  rw [barrierWait, if_pos ((allArrived_setCore hid hc).mpr h)]
  exact ⟨onlyCore_trans (onlyCore_setCore ..) (onlyCore_retire ..), coreAt_retire ..⟩

theorem barrierWait_waits {s : State} {n id : Nat} {cmd : Cmd} {c : Core} (hid : cmdAt s id = some cmd)
    (hc : c.cmd = some id) (h : ∃ m ∈ cmd.cores, m ≠ n ∧ barsOf s id cmd m < c.bars) :
    OnlyCore s (barrierWait s n id c) n ∧ coreAt (barrierWait s n id c) n = c := by
  have hna : ¬ allArrived (setCore s n c) id c.bars = true := by
    rw [allArrived_setCore hid hc]
    push Not
    exact h
  rw [barrierWait, if_neg hna]
  exact ⟨onlyCore_setCore .., coreAt_setCore_same ..⟩

/-- The first issue of a BAR counts it and stands at the barrier, once the core's earlier writes are released (R86, R88). -/
theorem bar_first {s : State} {n id : Nat} {w : Word} (h : Issues s n w) (ho : opIs w 0x72 = true)
    (hc : (coreAt s n).cmd = some id) (hs : (coreAt s n).stall ≠ .barrier)
    (hw : writesReturned (coreAt s n) (coreAt s n).nextDesc = true) :
    exec (.bar n w) s = .next (barrierWait s n id { coreAt s n with bars := (coreAt s n).bars + 1, stall := .barrier }) := by
  show Host.Outcome.next (issue s n 0x72 w _) = _
  rw [issue_body h ho]
  simp [hs, hw, hc, barrierWait]

/-- A later issue of the same BAR only looks again. -/
theorem bar_again {s : State} {n id : Nat} {w : Word} (h : Issues s n w) (ho : opIs w 0x72 = true)
    (hc : (coreAt s n).cmd = some id) (hs : (coreAt s n).stall = .barrier) :
    exec (.bar n w) s = .next (barrierWait s n id (coreAt s n)) := by
  show Host.Outcome.next (issue s n 0x72 w _) = _
  rw [issue_body h ho]
  simp [hs, hc, barrierWait]

/- Semaphores (R86, R87). -/

theorem wait_takes {s : State} {n : Nat} {w : Word} (h : Issues s n w) (ho : opIs w 0x71 = true)
    (hv : fImm w ≤ sem (coreAt s n) (fSem w)) :
    exec (.wait n w) s = .next (retire s n { coreAt s n with
      sems := tset (coreAt s n).sems (fSem w) (sem (coreAt s n) (fSem w) - fImm w) }) := by
  show Host.Outcome.next (issue s n 0x71 w _) = _
  rw [issue_body h ho, if_pos hv]

theorem wait_stalls {s : State} {n : Nat} {w : Word} (h : Issues s n w) (ho : opIs w 0x71 = true)
    (hv : sem (coreAt s n) (fSem w) < fImm w) : exec (.wait n w) s = .next (stallOn s n .semaphore) := by
  show Host.Outcome.next (issue s n 0x71 w _) = _
  rw [issue_body h ho, if_neg (by omega)]

theorem sig_sends {s : State} {n id dst : Nat} {w : Word} {cmd : Cmd} (h : Issues s n w) (ho : opIs w 0x70 = true)
    (hc : (coreAt s n).cmd = some id) (hid : cmdAt s id = some cmd)
    (hd : cmd.cores[(sreg (coreAt s n) (fA w)).toNat]? = some dst) :
    exec (.sig n w) s = .next (retire { s with signals := s.signals ++ [{
      cmd := id, src := n, dst := dst, sem := fSem w, value := fImm w, index := (coreAt s n).pc, word := w
      after := (coreAt s n).nextDesc }] } n (coreAt s n)) := by
  show Host.Outcome.next (issue s n 0x70 w _) = _
  rw [issue_body h ho]
  simp only [hc, hid, hd]

/- System values (R90). -/

theorem legalWord_sysr {w : Word} (ho : opIs w 0x80 = true) (h : 7 < fImm w ∨ fA w ≠ 0) : legalWord w = false := by
  apply legalWord_false_of_fieldsOk
  rcases h with h | h
  · simp [fieldsOk, opOf_of_opIs ho, h]
  · simp [fieldsOk, opOf_of_opIs ho, isZeroBits, ← fA.eq_1, h]

theorem sysr_writes {s : State} {n id : Nat} {w : Word} {cmd : Cmd} (h : Issues s n w) (ho : opIs w 0x80 = true)
    (hc : (coreAt s n).cmd = some id) (hid : cmdAt s id = some cmd) :
    ∃ t, exec (.sysr n w) s = .next t ∧ WritesSreg s t n (fD w) (sysValue s (coreAt s n) cmd (fImm w)) := by
  refine ⟨_, rfl, ?_⟩
  rw [issue_body h ho]
  simp only [hc, Option.bind_some, hid]
  exact writesSreg_retire ..

/-- Settles O13: each row's own lemma says what its body does where it issues. -/
theorem synchronisationEffects : Obligations.SynchronisationEffects := by
  refine ⟨fun s n w h ho hz => ?_, fun s n id w cmd h => ?_⟩
  · show Host.Outcome.next (issue s n 0x80 w _) = _
    rw [issue_illegal h ho (legalWord_sysr ho hz)]
  intro c hc hid
  refine ⟨fun dst ho hd => ?sig, fun ho hv => ?waitTakes, fun ho hv => ?waitStalls, fun ho hs hw ha => ?barRetires,
    fun ho hs hw ha => ?barWaits, fun ho hs ha => ?barAgain, fun ho => ?semrd, fun ho => ?sysr⟩
  case sig => exact sig_sends h ho hc hid hd
  case waitTakes =>
    refine ⟨_, wait_takes h ho hv, onlyCore_retire .., ?_, ?_, fun k hk => ?_⟩
    · rw [coreAt_retire, sems_retireTo]
    · rw [coreAt_retire, sem, sems_retireTo, tget_tset_same]
    · rw [coreAt_retire, sem, sems_retireTo, tget_tset_other _ _ _ hk]; rfl
  case waitStalls => exact ⟨_, wait_stalls h ho hv, onlyCore_setCore .., coreAt_setCore_same ..⟩
  case barRetires => exact ⟨_, bar_first h ho hc hs hw, barrierWait_retires hid hc ha⟩
  case barWaits =>
    obtain ⟨m, hm, hne, hb⟩ := ha
    exact ⟨_, bar_first h ho hc hs hw, barrierWait_waits hid hc ⟨m, hm, hne, Nat.lt_succ_of_le hb⟩⟩
  case barAgain => exact ⟨_, bar_again h ho hc hs, barrierWait_retires hid hc ha⟩
  case semrd => exact ⟨_, rfl, by rw [issueReg_body h ho]; exact writesSreg_retire ..⟩
  case sysr =>
    obtain ⟨t, ht, hwr⟩ := sysr_writes h ho hc hid
    have row {k : Nat} {v : Word} (hv : sysValue s c cmd k = v) (hk : fImm w = k) :
        ∃ t, exec (.sysr n w) s = .next t ∧ WritesSreg s t n (fD w) v := by
      subst hk hv; exact ⟨t, ht, hwr⟩
    exact ⟨row rfl, row rfl, row rfl, row rfl, row rfl, row rfl,
      row (by cases hl : c.lowSpill <;> cases hh : c.highSpill <;> simp [sysValue, b2n, hl, hh]), row rfl⟩

end Sys2Proof.Machine
end

section
/-! PROOFS. What a kill and the directory's own traffic leave of cores and commands (R36, R175, R272). -/

namespace Sys2Proof.Machine

/- What a lookup finds in a table whose entries are changed one by one. -/

theorem tfind_map {α β : Type} (f : α → β) (t : Tbl α) (n : Nat) :
    tfind (t.map (fun e => (e.1, f e.2))) n = (tfind t n).map f := by
  induction t with
  | nil => rfl
  | cons e r ih =>
    obtain ⟨k, v⟩ := e
    simp only [List.map_cons, tfind]
    split
    · rfl
    · exact ih

theorem foldl_keeps {σ α γ : Type} (view : σ → γ) (f : σ → α → σ) (h : ∀ t x, view (f t x) = view t) (l : List α) (s : σ) :
    view (l.foldl f s) = view s := by
  induction l generalizing s with
  | nil => rfl
  | cons x l ih => exact (ih (f s x)).trans (h s x)

/- The directory's own traffic touches neither a core's state nor a command, but for the written-line bits of its shadow
frames (R168, R272). -/

def Cmd.withoutShadows (k : Cmd) : Cmd := { k with shadows := [] }

/-- The state of every core, and every command without its shadow frames. -/
def attempts (s : State) : (Nat → CoreState) × (Nat → Option Cmd) :=
  (fun m => (coreAt s m).st, fun i => (cmdAt s i).map Cmd.withoutShadows)

theorem attempts_congr {s t : State} (hcores : t.cores = s.cores) (hcmds : t.cmds = s.cmds) : attempts t = attempts s := by
  simp [attempts, coreAt, cmdAt, hcores, hcmds]

@[simp] theorem attempts_modChan (s : State) (n : Nat) (f : Channel → Channel) : attempts (modChan s n f) = attempts s := rfl
@[simp] theorem attempts_modHub (s : State) (f : Hub → Hub) : attempts (modHub s f) = attempts s := rfl
@[simp] theorem attempts_modEngine (s : State) (n : Nat) (f : CopyEngine → CopyEngine) :
    attempts (modEngine s n f) = attempts s := rfl
@[simp] theorem attempts_drawFree (s : State) : attempts (drawFree s).2 = attempts s := rfl
@[simp] theorem attempts_leaveWaiters (s : State) (agent : Nat) : attempts (leaveWaiters s agent) = attempts s := rfl
@[simp] theorem attempts_cancelRequests (s : State) (agent : Nat) : attempts (cancelRequests s agent) = attempts s := rfl
@[simp] theorem attempts_unNack (s : State) (agent ch off : Nat) : attempts (unNack s agent ch off) = attempts s := rfl
@[simp] theorem attempts_nack (s : State) (agent ch off : Nat) (kind : ReqKind) (data : List Byte) :
    attempts (nack s agent ch off kind data) = attempts s := rfl

theorem attempts_modCore (s : State) (n : Nat) {f : Core → Core} (hf : ∀ c, (f c).st = c.st) :
    attempts (modCore s n f) = attempts s := by
  refine Prod.ext (funext fun m => ?_) rfl
  show (coreAt (modCore s n f) m).st = (coreAt s m).st
  by_cases h : m = n
  · subst h; rw [coreAt_modCore_same, hf]
  · rw [coreAt_modCore_other s f h]

@[simp] theorem attempts_setCache (s : State) (agent : Nat) (l : List CacheLine) : attempts (setCache s agent l) = attempts s := by
  unfold setCache
  split
  · exact attempts_modCore s agent fun _ => rfl
  · split <;> rfl

/-- A command with the written-line bits of a line set in its shadow frames (R168). -/
def markShadows (fa : Nat) (k : Cmd) : Cmd :=
  { k with shadows := k.shadows.map (fun sh =>
      if sh.holds fa then { sh with lines := insertSorted sh.lines ((sh.dpaAt fa - sh.dpa) / 64) } else sh) }

theorem cmdAt_markWritten (s : State) (fa i : Nat) : cmdAt (markWritten s fa) i = (cmdAt s i).map (markShadows fa) :=
  tfind_map (markShadows fa) s.cmds i

@[simp] theorem attempts_markWritten (s : State) (fa : Nat) : attempts (markWritten s fa) = attempts s := by
  refine Prod.ext rfl (funext fun i => ?_)
  simp only [attempts, cmdAt_markWritten, Option.map_map]
  rfl

@[simp] theorem attempts_writeLine (s : State) (fa : Nat) (data : List Byte) : attempts (writeLine s fa data) = attempts s := by
  simp only [writeLine, attempts_markWritten]
  split <;> rfl

@[simp] theorem attempts_sliceTouch (s : State) (cls ch off : Nat) (dirty : Bool) :
    attempts (sliceTouch s cls ch off dirty) = attempts s := by
  simp only [sliceTouch, attempts_modChan]
  split <;> rfl

@[simp] theorem attempts_homeWrite (s : State) (cls ch off : Nat) (data : List Byte) :
    attempts (homeWrite s cls ch off data) = attempts s := by
  simp only [homeWrite]
  split <;> simp

@[simp] theorem attempts_evictLine (s : State) (agent : Nat) (v : CacheLine) : attempts (evictLine s agent v) = attempts s := by
  simp only [evictLine]
  repeat' split
  all_goals simp

@[simp] theorem attempts_fillCache (s : State) (agent ch off : Nat) (mode : CacheMode) (data : List Byte) :
    attempts (fillCache s agent ch off mode data) = attempts s := by
  simp only [fillCache, attempts_setCache]
  repeat' split
  all_goals simp

@[simp] theorem attempts_grantHome (s : State) (agent ch off : Nat) (e : DirEntry) (mode : CacheMode) :
    attempts (grantHome s agent ch off e mode) = attempts s := by
  simp only [grantHome]
  repeat' split
  all_goals simp

@[simp] theorem attempts_grantOwned (s : State) (agent ch off : Nat) (kind : ReqKind) :
    attempts (grantOwned s agent ch off kind) = attempts s := by
  simp only [grantOwned]
  split <;> simp

@[simp] theorem attempts_serveNcr (s : State) (agent ch off : Nat) : attempts (serveNcr s agent ch off) = attempts s := by
  simp [serveNcr]

@[simp] theorem attempts_serveUncached (s : State) (agent ch off : Nat) (kind : ReqKind) (data : List Byte) :
    attempts (serveUncached s agent ch off kind data) = attempts s := by
  cases kind <;> simp [serveUncached]

@[simp] theorem attempts_beginRecall (s : State) (ch : Nat) (e : DirEntry) : attempts (beginRecall s ch e) = attempts s := by
  simp only [beginRecall]
  repeat' split
  all_goals simp

@[simp] theorem attempts_dirServe (s : State) (agent ch off : Nat) (kind : ReqKind) (data : List Byte) :
    attempts (dirServe s agent ch off kind data) = attempts s := by
  simp only [dirServe]
  repeat' split
  all_goals simp

@[simp] theorem attempts_serveOne (ch : Nat) (s : State) (n : Nacked) : attempts (serveOne ch s n) = attempts s := by
  simp only [serveOne]
  repeat' split
  all_goals simp

@[simp] theorem attempts_serveReserved (s : State) (ch : Nat) : attempts (serveReserved s ch) = attempts s :=
  foldl_keeps attempts _ (fun t x => attempts_serveOne ch t x) _ _

@[simp] theorem attempts_endInvalidating (s : State) (ch : Nat) (e : DirEntry) :
    attempts (endInvalidating s ch e) = attempts s := by
  simp only [endInvalidating, attempts_serveReserved]
  repeat' split
  all_goals simp

@[simp] theorem attempts_leaveShared (s : State) (ch : Nat) (e : DirEntry) : attempts (leaveShared s ch e) = attempts s := rfl

@[simp] theorem attempts_endForwarding (s : State) (ch : Nat) (e : DirEntry) (dirty : List Byte) :
    attempts (endForwarding s ch e dirty) = attempts s := by
  simp only [endForwarding, attempts_serveReserved]
  repeat' split
  all_goals simp

@[simp] theorem attempts_endRecall (s : State) (ch : Nat) (e : DirEntry) : attempts (endRecall s ch e) = attempts s := by
  simp only [endRecall, attempts_serveReserved, attempts_modChan]
  split <;> simp

@[simp] theorem attempts_ackFrom (s : State) (ch off agent : Nat) : attempts (ackFrom s ch off agent) = attempts s := by
  simp only [ackFrom]
  repeat' split
  all_goals simp

@[simp] theorem attempts_dropLine (s : State) (agent ch off : Nat) : attempts (dropLine s agent ch off) = attempts s := by
  simp only [dropLine]
  repeat' split
  all_goals simp

@[simp] theorem attempts_invalidateLine (s : State) (agent ch off : Nat) :
    attempts (invalidateLine s agent ch off) = attempts s := by
  simp only [invalidateLine]
  repeat' split
  all_goals simp

@[simp] theorem attempts_killCache (s : State) (agent : Nat) : attempts (killCache s agent) = attempts s := by
  simp only [killCache, attempts_setCache, eachLine]
  refine (foldl_keeps attempts _ (fun t l => ?_) _ _).trans (attempts_cancelRequests s agent)
  split <;> simp

/- The end of a command's engines and remote requests (R175). -/

@[simp] theorem attempts_freeEngines (s : State) (id : Nat) : attempts (freeEngines s id) = attempts s := by
  refine foldl_keeps attempts _ (fun t e => ?_) _ _
  split <;> simp

@[simp] theorem attempts_inflightDec (s : State) (colony instar : Nat) : attempts (inflightDec s colony instar) = attempts s :=
  rfl

@[simp] theorem attempts_finishReqs (s : State) (l : List FabReq) : attempts (finishReqs s l) = attempts s :=
  foldl_keeps attempts _ (fun t (r : FabReq) => attempts_inflightDec t r.colony r.instar) _ _

@[simp] theorem attempts_endReqs (s : State) (id : Nat) : attempts (endReqs s id) = attempts s := by
  simp only [endReqs, attempts_finishReqs]
  refine (attempts_congr rfl rfl : _ = attempts (List.foldl _ s _)).trans ?_
  exact foldl_keeps attempts _ (fun t (e : Nat × Port) => attempts_leaveWaiters t (664 + e.1)) _ _

/- The kill of a lone core's attempt (R156, R175). -/

theorem coreAt_coreKill_st (s : State) (n : Nat) : (coreAt (coreKill s n) n).st = .killed := by
  simp [coreKill]

theorem attempts_coreKill_cmds (s : State) (n : Nat) : (attempts (coreKill s n)).2 = (attempts s).2 :=
  (congrArg Prod.snd ((attempts_leaveWaiters (killCache s n) n).trans (attempts_killCache s n)) :)

/-- What a kill has set in a command outlasts whatever leaves the attempts. -/
theorem cmdAt_of_attempts {s t : State} {id : Nat} {k : Cmd} (h : (attempts t).2 = (attempts s).2)
    (hk : cmdAt s id = some k) :
    ∃ k', cmdAt t id = some k' ∧ k'.phase = k.phase ∧ k'.killing = k.killing ∧ k'.after = k.after := by
  have hmap : (cmdAt t id).map Cmd.withoutShadows = some k.withoutShadows := by
    have := congrFun h id
    simpa only [attempts, hk, Option.map_some] using this
  obtain ⟨k', hk', heq⟩ := Option.map_eq_some_iff.mp hmap
  have hphase := congrArg Cmd.phase heq
  have hkilling := congrArg Cmd.killing heq
  have hafter := congrArg Cmd.after heq
  exact ⟨k', hk', hphase, hkilling, hafter⟩

theorem diesWith_congr {s t : State} {n id status : Nat} (h : attempts t = attempts s) (hs : DiesWith s n id status) :
    DiesWith t n id status := by
  obtain ⟨hst, k, hk, hphase, hkilling, hafter⟩ := hs
  obtain ⟨k', hk', hp, hl, ha⟩ := cmdAt_of_attempts (congrArg Prod.snd h) hk
  exact ⟨(congrFun (congrArg Prod.fst h) n).trans hst, k', hk', hp.trans hphase, hl.trans hkilling, ha.trans hafter⟩

/-- The core's kill and its command's own record of it meet in `DiesWith`. -/
theorem diesWith_coreKill {s : State} {n id status : Nat} {k : Cmd} (hk : cmdAt s id = some k) (hphase : k.phase = .killing)
    (hkilling : k.killing = [n]) (hafter : k.after = some status) : DiesWith (coreKill s n) n id status := by
  obtain ⟨k', hk', hp, hl, ha⟩ := cmdAt_of_attempts (attempts_coreKill_cmds s n) hk
  exact ⟨coreAt_coreKill_st s n, k', hk', hp.trans hphase, hl.trans hkilling, ha.trans hafter⟩

/-- Charging an attempt leaves what its kill has set (R183, R190). -/
theorem cmdAt_noteOverrun {s : State} {id : Nat} {c : Cmd} (h : cmdAt s id = some c) :
    ∃ t, cmdAt (noteOverrun s id) id = some { c with turnOver := t } := by
  unfold noteOverrun
  simp only [h]
  split
  · exact ⟨none, cmdAt_setCmd_same ..⟩
  · exact ⟨c.turnOver, h⟩

theorem cmdAt_chargeAttempt {s : State} {id : Nat} {c : Cmd} (toColony : Bool) (h : cmdAt s id = some c) :
    ∃ k, cmdAt (chargeAttempt s id toColony) id = some { c with attemptNs := 0, use := {}, coreNs := k } := by
  simp only [chargeAttempt, h]
  exact ⟨_, cmdAt_setCmd_same ..⟩

/-- A killed attempt of one running core is being killed (R175). -/
theorem killAttempt_dies {s : State} {n id status : Nat} {c : Cmd} (toColony : Bool) (hc : cmdAt s id = some c)
    (hrun : runningCores s id c = [n]) : DiesWith (killAttempt s id (some status) toColony) n id status := by
  unfold killAttempt
  simp only [hc, hrun, List.foldl_cons, List.foldl_nil, List.isEmpty_cons, Bool.false_eq_true, if_false]
  refine diesWith_congr ((attempts_endReqs ..).trans (attempts_freeEngines ..)) ?_
  obtain ⟨t, ht⟩ := cmdAt_noteOverrun (cmdAt_setCmd_same
    { s with signals := s.signals.filter (fun m => m.cmd != id) } id
    { c with attemptNs := c.attemptNs + [n].length * nsSince s c.startTick, phase := .killing, killing := [n]
             after := some status, engines := [] })
  obtain ⟨k, hk⟩ := cmdAt_chargeAttempt toColony ht
  exact diesWith_coreKill hk rfl rfl rfl

/-- A fault that does not rerun kills the running attempt of a command outside job groups (R156). -/
theorem faultCmd_dies {s : State} {n id status : Nat} {rec : Option Nat} {c : Cmd} (hc : cmdAt s id = some c)
    (hphase : c.phase = .running) (hjob : c.job = 0) (hrun : runningCores s id c = [n]) :
    DiesWith (faultCmd s id status rec false) n id status := by
  have hfin : c.finished = false := by simp [Cmd.finished, hphase]
  unfold faultCmd
  simp only [hc, hfin, hphase, hjob]
  refine killAttempt_dies _ (cmdAt_setCmd_same ..) ?_
  exact hrun

/-- A fault of severity COMMAND changes nothing but the collector (R410 to R413). -/
theorem recordFault_command {s : State} {r : FaultRec} (hsev : r.severity = 1) :
    ∃ f, (recordFault s r).1 = { s with flt := f } := by
  have hirq (t : State) : faultIrq t 1 = t := by unfold faultIrq; split <;> rfl
  unfold recordFault
  split
  · simp only [mergeInto, hsev, show decide (2 ≤ 1) = false from rfl, Bool.and_false, Bool.false_eq_true, if_false]
    split
    · exact ⟨_, rfl⟩
    · exact ⟨_, rfl⟩
  · split
    · simp only [hsev, hirq]; exact ⟨_, rfl⟩
    · simp only [hsev, hirq]; exact ⟨_, rfl⟩

theorem severity_nameCmd (s : State) (r : FaultRec) (id : Nat) : (nameCmd s r id).severity = r.severity := by
  unfold nameCmd; split <;> rfl

/-- A fault at issue that does not rerun ends the attempt of a lone core (R99, R156, R175). -/
theorem kernelFault_dies {s : State} {n id : Nat} (hl : Lone s n id) (hrun : running s (coreAt s n) = true)
    (cause status index : Nat) (w : Word) : DiesWith (kernelFault s n cause status index w false) n id status := by
  obtain ⟨hcore, -, -, cmd, hcmd, hphase, hjob, hcores⟩ := hl
  have hst : (coreAt s n).st = .running := by
    simp only [running, Bool.and_eq_true, beq_iff_eq] at hrun
    exact hrun.1.1.2
  simp only [kernelFault, hcore, commandFault]
  generalize hr : nameCmd s _ id = r
  obtain ⟨f, hf⟩ := recordFault_command (s := s) (show r.severity = 1 by rw [← hr, severity_nameCmd]; rfl)
  rw [hf]
  exact faultCmd_dies hcmd hphase hjob (by
    simp only [runningCores, hcores]
    exact List.filter_eq_self.mpr (by simpa [coreAt] using ⟨hst, hcore⟩))

theorem accessFault_dies {s : State} {n id : Nat} (hl : Lone s n id) (hrun : running s (coreAt s n) = true)
    (index : Nat) (w : Word) : DiesWith (accessFault s n index w) n id 0x04 := kernelFault_dies hl hrun ..

/-- A range violation sets its flag and ends the command as any access fault (R21). -/
theorem rangeFault_dies {s : State} {n id : Nat} (hl : Lone s n id) (hrun : running s (coreAt s n) = true)
    (index : Nat) (w : Word) : DiesWith (rangeFault s n index w) n id 0x04 := by
  have hcore : coreAt (setErr s n 6) n = { coreAt s n with err := (coreAt s n).err ||| (1#8 <<< 6) } := coreAt_modCore_same ..
  refine accessFault_dies ?_ ?_ index w
  · rw [Lone, hcore]; exact hl
  · rw [hcore]; exact hrun

end Sys2Proof.Machine
end

section
/-! PROOFS. Scratchpad loads and stores (R79). -/

namespace Sys2Proof.Machine

/- Addresses and widths (R79). -/

theorem effAddr_eq (c : Core) (w : Word) :
    effAddr c w = (sreg c (fA w) + BitVec.ofInt 64 (w.setWidth 32).toInt).toNat := by
  rw [effAddr, toWord, immS_eq]

theorem fWidth_eq (w : Word) : fWidth w = 2 ^ (w.toNat / 2 ^ 40 % 4) := by
  norm_num [fWidth, field, nbits, Nat.shiftRight_eq_div_pow]

theorem loaded_eq (w : Word) (bs : List Byte) :
    loaded w bs = if fX w then BitVec.ofInt 64 (BitVec.ofNat (8 * bs.length) (leNat bs)).toInt else BitVec.ofNat 64 (leNat bs) := by
  rw [loaded, toWord, sext_eq_toInt]

theorem legalWord_stsX {w : Word} (ho : opIs w 0x41 = true) (hx : fX w = true) : legalWord w = false :=
  legalWord_false_of_fieldsOk (by simp [fieldsOk, opOf_of_opIs ho, hx])

/- What retiring and counting an error leave of a core. -/

theorem sp_retireTo (c : Core) (pc : Nat) : (retireTo c pc).sp = c.sp := by unfold retireTo; split <;> rfl
theorem pc_retireTo (c : Core) (pc : Nat) : (retireTo c pc).pc = pc := by unfold retireTo; split <;> rfl
theorem err_retireTo (c : Core) (pc : Nat) : (retireTo c pc).err = c.err := by unfold retireTo; split <;> rfl
theorem spCe_retireTo (c : Core) (pc : Nat) : (retireTo c pc).spCe = c.spCe := by unfold retireTo; split <;> rfl
theorem sp_setSreg (c : Core) (d : Nat) (v : Word) : (setSreg c d v).sp = c.sp := by unfold setSreg; split <;> rfl
theorem err_setSreg (c : Core) (d : Nat) (v : Word) : (setSreg c d v).err = c.err := by unfold setSreg; split <;> rfl
theorem spCe_setSreg (c : Core) (d : Nat) (v : Word) : (setSreg c d v).spCe = c.spCe := by unfold setSreg; split <;> rfl

/-- Marking a bank for repair changes the marks alone (R27). -/
theorem markBank_eq (c : Core) (b : Nat) :
    ∃ p q o, markBank c b = { c with pend1 := p, pend2 := q, overBank := o } := by
  unfold markBank
  repeat' split
  all_goals exact ⟨_, _, _, rfl⟩

/-- A corrected error is counted, and its bank may be marked (R27). -/
theorem spCorrectable_eq (c : Core) (b : Nat) :
    ∃ k p q o, spCorrectable c b = { c with
      err := c.err ||| 1#8, spCe := satInc 16 c.spCe, bankCe := k, pend1 := p, pend2 := q, overBank := o } := by
  simp only [spCorrectable]
  split
  · obtain ⟨p, q, o, h⟩ := markBank_eq { c with
      err := c.err ||| 1#8, spCe := satInc 16 c.spCe, bankCe := tset c.bankCe b (tget 0 c.bankCe b + 1) } b
    exact ⟨_, p, q, o, h⟩
  · exact ⟨_, _, _, _, rfl⟩

/- A scratchpad read without an injection (R27, R432). -/

theorem disarm_of_unarmed {s : State} {k n : Nat} (h : s.flt.armed.contains (k, n) = false) : disarm s k n = s := by
  have hf : s.flt.armed.filter (fun x => x != (k, n)) = s.flt.armed := by
    refine List.filter_eq_self.mpr fun x hx => ?_
    rw [bne_iff_ne]
    rintro rfl
    simp [hx] at h
  rw [disarm, hf]

theorem spRead_clean {s : State} {n : Nat} (h : NoSpInjection s n) (off index : Nat) :
    spRead s n off .clean index = (s, true) := by
  obtain ⟨h1, h2⟩ := h
  have h1 : armed s 1 n = false := h1
  have h2 : armed s 2 n = false := h2
  simp [spRead, h1, h2]

theorem spRead_corrected {s : State} {n : Nat} (h : NoSpInjection s n) (off index : Nat) :
    spRead s n off .corrected index = (modCore s n (fun c => spCorrectable c (bankOf off)), true) := by
  obtain ⟨h1, h2⟩ := h
  have ha : armed s 2 n = false := h2
  simp [spRead, ha, disarm_of_unarmed h1]

theorem spRead_uncorrected {s : State} {n : Nat} (h : NoSpInjection s n) (off index : Nat) :
    spRead s n off .uncorrected index =
      (sramFault (modCore s n (fun c => markBank c (bankOf off))) n 1 false false index, false) := by
  obtain ⟨h1, h2⟩ := h
  have ha : armed s 2 n = false := h2
  simp [spRead, ha, disarm_of_unarmed h2]

/- LDS and STS (R79). -/

/-- An access that does not lie within the scratchpad or is not aligned ends the lone core's command (R21, R79, R80). -/
theorem spAccess_denied {s t : State} {n id : Nat} {w : Word} {p q : Prop} [Decidable p] [Decidable q] (h : Issues s n w)
    (hl : Lone s n id) (hbad : p ∨ q) :
    DiesWith (if p then rangeFault s n (coreAt s n).pc w else if q then accessFault s n (coreAt s n).pc w else t) n id 0x04 := by
  by_cases hp : p
  · rw [if_pos hp]; exact rangeFault_dies hl h.1 ..
  · rw [if_neg hp, if_pos (hbad.resolve_left hp)]; exact accessFault_dies hl h.1 ..

theorem not_spInside_iff (a k : Nat) : (!spInside a k) = true ↔ spTop < a + k := by simp [spInside]

/-- LDS after its read: the value it loads, retired. -/
def ldsRetire (s : State) (n : Nat) (w : Word) (a : Nat) : State :=
  retire s n (setSreg (coreAt s n) (fD w) (loaded w (mread (coreAt s n).sp a (fWidth w))))

/-- An LDS within the scratchpad, aligned and behind no queued instruction that writes there, does its read (R79, R112). -/
theorem lds_reads {s : State} {n : Nat} {w : Word} (e : Sram) (h : Issues s n w) (ho : opIs w 0x40 = true)
    (hin : effAddr (coreAt s n) w + fWidth w ≤ spTop) (hal : effAddr (coreAt s n) w % fWidth w = 0)
    (hq : interlocked (queued (coreAt s n)) [(effAddr (coreAt s n) w, fWidth w)] [] = false) :
    exec (.lds n w e) s = .next (let r := spRead s n (effAddr (coreAt s n) w) e.sp (coreAt s n).pc
      if r.2 then ldsRetire r.1 n w (effAddr (coreAt s n) w) else r.1) := by
  show Host.Outcome.next (issue s n 0x40 w _) = _
  rw [issue_body h ho]
  simp only [spInside, hin, hal, hq]
  rfl

theorem sts_stores {s : State} {n : Nat} {w : Word} (h : Issues s n w) (ho : opIs w 0x41 = true)
    (hin : effAddr (coreAt s n) w + fWidth w ≤ spTop) (hal : effAddr (coreAt s n) w % fWidth w = 0)
    (hq : interlocked (queued (coreAt s n)) [] [(effAddr (coreAt s n) w, fWidth w)] = false) :
    exec (.sts n w) s = .next (retire s n { coreAt s n with
      sp := mwrite (coreAt s n).sp (effAddr (coreAt s n) w) (leBytes (fWidth w) (sreg (coreAt s n) (fD w)).toNat) }) := by
  show Host.Outcome.next (issue s n 0x41 w _) = _
  rw [issue_body h ho]
  simp only [spInside, hin, hal, hq]
  rfl

/-- A scratchpad changed within bounds and the instruction retired. -/
theorem writesSp_retire {s : State} {n : Nat} {sp : List Host.Cell} {inside : Nat → Prop}
    (h : ∀ x, ¬ inside x → mget sp x = mget (coreAt s n).sp x) :
    WritesSp s (retire s n { coreAt s n with sp := sp }) n inside := by
  refine ⟨onlyCore_retire .., ?_, fun x hx => ?_⟩
  · rw [coreAt_retire, sp_retireTo]
  · rw [coreAt_retire, sp_retireTo]; exact h x hx

theorem sp_after_retire (s : State) (n : Nat) (c : Core) : (coreAt (retire s n c) n).sp = c.sp := by
  rw [coreAt_retire, sp_retireTo]

/-- An LDS whose word SECDED has corrected reads it so, and counts the error (R27). -/
theorem ldsRetire_corrected (s : State) (n b : Nat) (w : Word) (a : Nat) :
    let c := coreAt s n
    let t := ldsRetire (modCore s n (fun c => spCorrectable c b)) n w a
    let x := loaded w (mread c.sp a (fWidth w))
    OnlyCore s t n ∧ (coreAt t n).pc = c.pc + 1 ∧ sreg (coreAt t n) (fD w) = (if fD w = 0 then 0 else x) ∧
    (∀ r, r ≠ fD w → sreg (coreAt t n) r = sreg c r) ∧ (coreAt t n).sp = c.sp ∧ (coreAt t n).err = c.err ||| 1#8 ∧
    (coreAt t n).spCe = satInc 16 c.spCe := by
  intro c t x
  obtain ⟨k, p, q, o, hc⟩ := spCorrectable_eq c b
  have ht : coreAt t n = retireTo (setSreg (spCorrectable c b) (fD w) (loaded w (mread (spCorrectable c b).sp a (fWidth w))))
      (c.pc + 1) := by
    simp only [t, ldsRetire, coreAt_modCore_same, coreAt_retire, setSreg_pc]
    rw [show spCorrectable (coreAt s n) b = _ from hc]
  have hsp : (spCorrectable c b).sp = c.sp := by rw [hc]
  rw [ht, pc_retireTo, sp_retireTo, err_retireTo, spCe_retireTo, sp_setSreg, err_setSreg, spCe_setSreg, hsp]
  refine ⟨onlyCore_trans (onlyCore_setCore ..) (onlyCore_retire ..), rfl, ?_, fun r hr => ?_, rfl, by rw [hc], by rw [hc]⟩
  · rw [sreg_retireTo, sreg_setSreg_same]
  · rw [sreg_retireTo, sreg_setSreg_other _ _ hr, hc]; rfl

/-- Settles O9: the frame reaches the body, whose read meets SECDED's report; a bad offset kills the lone core's attempt. -/
theorem scratchpadScalarAccess : Obligations.ScratchpadScalarAccess := by
  refine ⟨fun s n w h ho hx => ?_, fun s n id w e h hl => ?_, fun s n w e h => ?_⟩
  · show Host.Outcome.next (issue s n 0x41 w _) = _
    rw [issue_illegal h ho (legalWord_stsX ho hx)]
  · intro a k hbad
    have ha : effAddr (coreAt s n) w = a := effAddr_eq ..
    have hk : fWidth w = k := fWidth_eq w
    rw [← ha, ← hk] at hbad
    have hbad := hbad.imp_left (not_spInside_iff ..).mpr
    exact ⟨fun ho => ⟨_, rfl, by rw [issue_body h ho]; exact spAccess_denied h hl hbad⟩,
      fun ho => ⟨_, rfl, by rw [issue_body h ho]; exact spAccess_denied h hl hbad⟩⟩
  · intro c a k hin hal
    have ha : effAddr (coreAt s n) w = a := effAddr_eq ..
    have hk : fWidth w = k := fWidth_eq w
    clear_value a k
    subst ha hk
    refine ⟨fun ho hinj hq => ?_, fun ho hq => ⟨_, sts_stores h ho hin hal hq, writesSp_retire fun x hx => ?_, fun hwf => ?_⟩⟩
    · intro v x
      have hv : loaded w (mread c.sp (effAddr c w) (fWidth w)) = x := by rw [loaded_eq, mread_length]
      rw [lds_reads e h ho hin hal hq]
      refine ⟨fun he => ⟨_, rfl, ?_⟩, fun he => ⟨_, rfl, ?_⟩, fun he => ?_⟩
      · rw [he, spRead_clean hinj, ← hv]
        exact writesSreg_retire ..
      · rw [he, spRead_corrected hinj, ← hv]
        exact ldsRetire_corrected ..
      · simp only [he, spRead_uncorrected hinj, bankOf, Bool.false_eq_true, if_false]
        rfl
    · refine mget_mwrite_other _ _ _ ?_
      rw [leBytes_length]
      omega
    · rw [sp_after_retire]
      have := mread_mwrite (effAddr c w) (leBytes (fWidth w) (sreg c (fD w)).toNat) hwf
      rw [leBytes_length] at this
      rw [this, leNat_leBytes, show (256 : Nat) = 2 ^ 8 from rfl, ← pow_mul]

end Sys2Proof.Machine
end

section
/-! PROOFS. Vector loads and stores (R80). -/

namespace Sys2Proof.Machine

/- Rows of equal length laid end to end. -/

theorem take_drop_flatMap {α β : Type} {f : α → List β} {b : Nat} (hf : ∀ x, (f x).length = b) (l : List α) (q : Nat) :
    ((l.flatMap f).drop (b * q)).take b = (l[q]?).elim [] f := by
  induction l generalizing q with
  | nil => simp
  | cons x l ih =>
    cases q with
    | zero => simp [← hf x]
    | succ q =>
      have hd : (f x ++ l.flatMap f).drop (b * (q + 1)) = (l.flatMap f).drop (b * q) := by
        rw [List.drop_append, List.drop_eq_nil_of_le (by rw [hf]; exact Nat.le_mul_of_pos_right _ (by omega)), hf, List.nil_append,
          Nat.mul_succ, Nat.add_sub_cancel]
      rw [List.flatMap_cons, hd, ih]
      rfl

theorem getElem?_flatMap_row {α β : Type} {f : α → List β} {b : Nat} (hf : ∀ x, (f x).length = b) {l : List α} {q r : Nat} {x : α}
    (hx : l[q]? = some x) (hr : r < b) : (l.flatMap f)[b * q + r]? = (f x)[r]? := by
  have h := congrArg (fun k => k[r]?) (take_drop_flatMap hf l q)
  simpa [hx, List.getElem?_take, hr, List.getElem?_drop] using h

/- Parts of a range read or written (R8). -/

theorem drop_mread (m : List Host.Cell) (a j k : Nat) : (mread m a (j + k)).drop j = mread m (a + j) k := by
  induction j generalizing a with
  | zero => simp
  | succ j ih =>
    rw [show j + 1 + k = (j + k) + 1 by omega, mread, List.drop_succ_cons, ih, show a + 1 + j = a + (j + 1) by omega]

theorem take_mread (m : List Host.Cell) (a k j : Nat) : (mread m a (k + j)).take k = mread m a k := by
  induction k generalizing a with
  | zero => simp [mread]
  | succ k ih => rw [show k + 1 + j = (k + j) + 1 by omega, mread, List.take_succ_cons, ih, mread]

/-- Part of what has been stored reads back. -/
theorem mread_mwrite_part {m : List Host.Cell} (a j k : Nat) (bs : List Byte) (h : Memory.wf m = true) (hk : j + k ≤ bs.length) :
    mread (mwrite m a bs) (a + j) k = (bs.drop j).take k := by
  obtain ⟨d, hd⟩ := Nat.exists_eq_add_of_le hk
  have hall := mread_mwrite a bs h
  rw [hd, Nat.add_assoc] at hall
  rw [← take_mread _ _ k d, ← drop_mread, hall]

theorem mread_congr {m m' : List Host.Cell} (a n : Nat) (h : ∀ x, a ≤ x → x < a + n → mget m x = mget m' x) :
    mread m a n = mread m' a n := by
  induction n generalizing a with
  | zero => rfl
  | succ n ih => rw [mread, mread, h a (le_refl a) (by omega), ih (a + 1) fun x h1 h2 => h x (by omega) (by omega)]

/- Vector registers (R68). -/

theorem tget_setLanes_out (t : Tbl Lane) (base : Nat) (l : List Lane) {k : Nat} (h : k < base ∨ base + l.length ≤ k) :
    tget 0 (setLanes t base l) k = tget 0 t k := by
  induction l generalizing t base with
  | nil => rfl
  | cons x l ih =>
    rw [List.length_cons] at h
    rw [setLanes, ih _ _ (by omega), tget_tset_other _ _ _ (by omega)]

theorem tget_setLanes_in (t : Tbl Lane) (base : Nat) {l : List Lane} {i : Nat} {x : Lane} (h : l[i]? = some x) :
    tget 0 (setLanes t base l) (base + i) = x := by
  induction l generalizing t base i with
  | nil => simp at h
  | cons y l ih =>
    rw [setLanes]
    cases i with
    | zero =>
      rw [tget_setLanes_out _ _ _ (by omega)]
      simpa using h
    | succ i =>
      rw [show base + (i + 1) = base + 1 + i by omega]
      exact ih _ _ (by simpa using h)

theorem vlane_setVreg_same (c : Core) (d : Nat) {l : List Lane} {i : Nat} {x : Lane} (h : l[i]? = some x) :
    vlane (setVreg c d l) d i = x := tget_setLanes_in _ _ h

theorem vlane_setVreg_other (c : Core) {d r i : Nat} {l : List Lane} (hl : l.length = 256) (hr : r ≠ d) (hi : i < 256) :
    vlane (setVreg c d l) r i = vlane c r i := by
  refine tget_setLanes_out _ _ _ ?_
  rw [hl]
  omega

theorem vregs_retireTo (c : Core) (pc : Nat) : (retireTo c pc).vregs = c.vregs := by unfold retireTo; split <;> rfl

theorem vlane_retireTo (c : Core) (pc r i : Nat) : vlane (retireTo c pc) r i = vlane c r i := by
  rw [vlane, vregs_retireTo]; rfl

theorem setVreg_pc (c : Core) (d : Nat) (l : List Lane) : (setVreg c d l).pc = c.pc := rfl

theorem retireTo_setVreg (c : Core) (d : Nat) (l : List Lane) (pc : Nat) :
    retireTo (setVreg c d l) pc = retireTo { c with vregs := (setVreg c d l).vregs } pc := rfl

/- The lines of an access (R80). -/

theorem legalWord_noStride {w : Word} {op : Nat} (hop : op = 0x44 ∨ op = 0x45) (ho : opIs w op = true) (hs : fStr w = 0) :
    legalWord w = false := by
  apply legalWord_false_of_fieldsOk
  rcases hop with rfl | rfl <;> simp [fieldsOk, opOf_of_opIs ho, formatVOk, isZeroBits, ← fStr.eq_1, hs]

theorem stride_pos {w : Word} {op : Nat} (hop : op = 0x44 ∨ op = 0x45) (ho : opIs w op = true) (hl : legalWord w = true) :
    0 < fStr w := by
  rcases Nat.eq_zero_or_pos (fStr w) with h | h
  · rw [legalWord_noStride hop ho h] at hl; contradiction
  · exact h

theorem getElem?_vecLines (c : Core) (w : Word) {k : Nat} (h : k < 16) :
    (vecLines c w)[k]? = some (vecBase c w + 64 * fStr w * k) := by
  simp [vecLines, h]

theorem forall_mem_vecLines {c : Core} {w : Word} {p : Nat → Prop} :
    (∀ a ∈ vecLines c w, p a) ↔ ∀ k, k < 16 → p (vecBase c w + 64 * fStr w * k) := by
  simp [vecLines]

/-- The lines of an access follow each other (R80). -/
theorem vecLines_apart (c : Core) {w : Word} (h : 0 < fStr w) : (vecLines c w).Pairwise (fun a b => a + 64 ≤ b) := by
  refine List.pairwise_map.mpr (List.pairwise_lt_range.imp fun {j k} hjk => ?_)
  have : 64 * fStr w * (j + 1) ≤ 64 * fStr w * k := Nat.mul_le_mul_left _ hjk
  rw [Nat.mul_succ] at this
  omega

theorem vecLines_outside {c : Core} {w : Word} :
    ((vecLines c w).any (fun a => !spInside a 64)) = true ↔ ∃ k, k < 16 ∧ spTop < vecBase c w + 64 * fStr w * k + 64 := by
  simp [vecLines, spInside]

theorem vecLines_inside {c : Core} {w : Word} (h : ∀ k, k < 16 → vecBase c w + 64 * fStr w * k + 64 ≤ spTop) :
    ((vecLines c w).any (fun a => !spInside a 64)) = false := by
  rw [Bool.eq_false_iff, Ne, vecLines_outside]
  rintro ⟨k, hk, hlt⟩
  exact absurd (h k hk) (by omega)

/-- An access that leaves the scratchpad or whose base is not aligned ends the lone core's command (R21, R80, R99). -/
theorem vecAccess_bad {c : Core} {w : Word}
    (h : vecBase c w % 64 ≠ 0 ∨ ∃ k, k < 16 ∧ 0x180000 < vecBase c w + 64 * fStr w * k + 64) :
    ((vecLines c w).any (fun a => !spInside a 64)) = true ∨ vecBase c w % 64 ≠ 0 :=
  h.symm.imp_left vecLines_outside.mpr

/- VLD (R80). -/

theorem lineLanes_length (sp : List Host.Cell) (a : Nat) : (lineLanes sp a).length = 16 := by simp [lineLanes]

/-- Lane i of the lines read is lane i mod 16 of line i / 16. -/
theorem getElem?_lanesRead (c : Core) (w : Word) (sp : List Host.Cell) {i : Nat} (hi : i < 256) :
    ((vecLines c w).flatMap (lineLanes sp))[i]? =
      some (BitVec.ofNat 32 (leNat (mread sp (vecBase c w + 64 * fStr w * (i / 16) + 4 * (i % 16)) 4))) := by
  have h := getElem?_flatMap_row (lineLanes_length sp) (getElem?_vecLines c w (k := i / 16) (by omega)) (r := i % 16) (by omega)
  rw [Nat.div_add_mod] at h
  rw [h]
  simp [lineLanes, Nat.mod_lt]

theorem lanesRead_length (c : Core) (w : Word) (sp : List Host.Cell) : ((vecLines c w).flatMap (lineLanes sp)).length = 256 := by
  simp [List.length_flatMap, lineLanes_length, vecLines, Function.comp_def]

/-- A VLD within the scratchpad, behind nothing queued that it must wait for, loads its lanes (R80, R112). -/
theorem vld_loads {s : State} {n : Nat} {w : Word} {e : Sram} (h : Issues s n w) (ho : opIs w 0x44 = true)
    (hal : vecBase (coreAt s n) w % 64 = 0) (hin : ∀ k, k < 16 → vecBase (coreAt s n) w + 64 * fStr w * k + 64 ≤ spTop)
    (hp : vPending (coreAt s n) (fD w) = false) (hr : vReadPending (coreAt s n) (fD w) = false)
    (hq : interlocked (queued (coreAt s n)) ((vecLines (coreAt s n) w).map (fun a => (a, 64))) [] = false)
    (hinj : NoSpInjection s n) (he : e.sp = .clean) :
    exec (.vld n w e) s = .next (retire s n (setVreg (coreAt s n) (fD w)
      ((vecLines (coreAt s n) w).flatMap (lineLanes (coreAt s n).sp)))) := by
  show Host.Outcome.next (issue s n 0x44 w _) = _
  rw [issue_body h ho]
  simp [vecLines_inside hin, hal, hp, hr, hq, he, spRead_clean hinj]

/- VST (R80). -/

/-- The bytes of one line of lanes (R8). -/
def laneBytes (l : List Lane) : List Byte := l.flatMap (fun x => leBytes 4 x.toNat)

theorem laneBytes_length (l : List Lane) : (laneBytes l).length = 4 * l.length := by
  simp [laneBytes, List.length_flatMap, Nat.mul_comm]

theorem storeLines_cons (sp : List Host.Cell) (a : Nat) (r : List Nat) (l : List Lane) :
    storeLines sp (a :: r) l = storeLines (mwrite sp a (laneBytes (l.take 16))) r (l.drop 16) := rfl

/-- Lines stored leave every byte outside them. -/
theorem mget_storeLines_other (sp : List Host.Cell) (ls : List Nat) (l : List Lane) {x : Nat}
    (h : ∀ a ∈ ls, x < a ∨ a + 64 ≤ x) : mget (storeLines sp ls l) x = mget sp x := by
  induction ls generalizing sp l with
  | nil => rfl
  | cons a r ih =>
    rw [List.forall_mem_cons] at h
    rw [storeLines_cons, ih _ _ h.2]
    refine mget_mwrite_other _ _ _ ?_
    rw [laneBytes_length, List.length_take]
    omega

/-- Lanes stored line by line on lines apart read back. -/
theorem mread_storeLines {sp : List Host.Cell} {ls : List Nat} {l : List Lane} (hwf : Memory.wf sp = true)
    (hls : ls.Pairwise (fun a b => a + 64 ≤ b)) {a q r : Nat} {x : Lane} (ha : ls[q]? = some a)
    (hr : r < 16) (hx : l[16 * q + r]? = some x) : mread (storeLines sp ls l) (a + 4 * r) 4 = leBytes 4 x.toNat := by
  induction ls generalizing sp l q with
  | nil => simp at ha
  | cons b ls ih =>
    rw [List.pairwise_cons] at hls
    rw [storeLines_cons]
    cases q with
    | succ q =>
      refine ih (wf_mwrite _ _ hwf) hls.2 (q := q) (by simpa using ha) ?_
      rw [List.getElem?_drop, ← hx]
      congr 1
      omega
    | zero =>
      obtain rfl : b = a := by simpa using ha
      have hx : (l.take 16)[r]? = some x := by simpa [List.getElem?_take, hr] using hx
      have hlen : r < (l.take 16).length := (List.getElem?_eq_some_iff.mp hx).1
      have hrest : mread (storeLines (mwrite sp b (laneBytes (l.take 16))) ls (l.drop 16)) (b + 4 * r) 4 =
          mread (mwrite sp b (laneBytes (l.take 16))) (b + 4 * r) 4 :=
        mread_congr _ _ fun y hy hy' => mget_storeLines_other _ _ _ fun c hc => .inl (by have := hls.1 c hc; omega)
      rw [hrest, mread_mwrite_part _ _ _ _ hwf (by rw [laneBytes_length]; omega), laneBytes,
        take_drop_flatMap (fun x => leBytes_length 4 _), hx]
      rfl

theorem vst_stores {s : State} {n : Nat} {w : Word} (h : Issues s n w) (ho : opIs w 0x45 = true)
    (hal : vecBase (coreAt s n) w % 64 = 0) (hin : ∀ k, k < 16 → vecBase (coreAt s n) w + 64 * fStr w * k + 64 ≤ spTop)
    (hp : vPending (coreAt s n) (fD w) = false)
    (hq : interlocked (queued (coreAt s n)) [] ((vecLines (coreAt s n) w).map (fun a => (a, 64))) = false) :
    exec (.vst n w) s = .next (retire s n { coreAt s n with
      sp := storeLines (coreAt s n).sp (vecLines (coreAt s n) w) (vreg (coreAt s n) (fD w)) }) := by
  show Host.Outcome.next (issue s n 0x45 w _) = _
  rw [issue_body h ho]
  simp [vecLines_inside hin, hal, hp, hq]

/-- Settles O10: a VLD's lanes are those of its lines in order, and a VST's lines lie apart, so that each reads back. -/
theorem scratchpadVectorAccess : Obligations.ScratchpadVectorAccess := by
  refine ⟨fun s n w e h hs => ⟨fun ho => ?_, fun ho => ?_⟩, fun s n id w e h hl => ?_, fun s n w e h => ?_⟩
  · show Host.Outcome.next (issue s n 0x44 w _) = _
    rw [issue_illegal h ho (legalWord_noStride (.inl rfl) ho hs)]
  · show Host.Outcome.next (issue s n 0x45 w _) = _
    rw [issue_illegal h ho (legalWord_noStride (.inr rfl) ho hs)]
  · intro base hbad
    have hbad := vecAccess_bad hbad
    exact ⟨fun ho => ⟨_, rfl, by rw [issue_body h ho]; exact spAccess_denied h hl hbad⟩,
      fun ho => ⟨_, rfl, by rw [issue_body h ho]; exact spAccess_denied h hl hbad⟩⟩
  · intro c base lane hal hin hp
    refine ⟨fun ho hinj he hr hq => ⟨_, vld_loads h ho hal hin hp hr hq hinj he, onlyCore_retire .., ?_, fun i hi => ?_, fun r i hr hi => ?_⟩,
      fun ho hq => ⟨_, vst_stores h ho hal hin hp hq, writesSp_retire fun x hx => ?_, fun hwf i hi => ?_⟩⟩
    · rw [coreAt_retire, vregs_retireTo, setVreg_pc]; exact retireTo_setVreg ..
    · rw [coreAt_retire, vlane_retireTo]
      exact vlane_setVreg_same _ _ (getElem?_lanesRead c w c.sp hi)
    · rw [coreAt_retire, vlane_retireTo]
      exact vlane_setVreg_other _ (lanesRead_length c w c.sp) hr hi
    · refine mget_storeLines_other _ _ _ (forall_mem_vecLines.mpr fun k hk => ?_)
      by_contra hn
      push Not at hn
      exact hx ⟨k, hk, hn⟩
    · have hlane : (vreg c (fD w))[16 * (i / 16) + i % 16]? = some (vlane c (fD w) i) := by
        rw [Nat.div_add_mod]; simp [vreg, hi]
      rw [sp_after_retire]
      have hread := mread_storeLines hwf (vecLines_apart c (stride_pos (.inr rfl) ho (legalWord_of_issues h)))
        (getElem?_vecLines c w (k := i / 16) (by omega)) (r := i % 16) (by omega) hlane
      rw [show lane i = vecBase c w + 64 * fStr w * (i / 16) + 4 * (i % 16) from rfl, hread, leNat_leBytes]
      exact Nat.mod_eq_of_lt ((vlane c (fD w) i).isLt.trans_eq (by norm_num))

end Sys2Proof.Machine
end

section
/-! PROOFS. LAUNCH and its attempts (R69, R89, R95 to R97, R164, R165). -/

namespace Sys2Proof.Machine

/- Bonor's own reads leave all but the walkers, the slices and its control core's translation cache (R248, R296). -/

/-- A state without what a walk and its reads leave their traces in. -/
def apartFromWalks (s : State) : State :=
  { s with chans := [], mesh := [], hub := { s.hub with ctrlTc := [], urgSeen := false } }

@[simp] theorem apartFromWalks_modChan (s : State) (n : Nat) (f : Channel → Channel) :
    apartFromWalks (modChan s n f) = apartFromWalks s := rfl
@[simp] theorem apartFromWalks_modMesh (s : State) (n : Nat) (f : Mesh → Mesh) :
    apartFromWalks (modMesh s n f) = apartFromWalks s := rfl

@[simp] theorem apartFromWalks_sliceTouch (s : State) (cls ch off : Nat) (dirty : Bool) :
    apartFromWalks (sliceTouch s cls ch off dirty) = apartFromWalks s := by
  simp only [sliceTouch, apartFromWalks_modChan]
  split <;> rfl

theorem apartFromWalks_fillTc (s : State) {agent : Nat} (e : TcEntry) (h : 640 ≤ agent ∧ agent < 648) :
    apartFromWalks (fillTc s agent e) = apartFromWalks s := by
  rw [fillTc, setTc, if_neg (by omega), if_pos h.2]
  rfl

@[simp] theorem apartFromWalks_readEntry (cls : Nat) (c : Colony) (va : Nat) (s : State) (level : Nat) :
    apartFromWalks (readEntry cls c va s level) = apartFromWalks s := by
  unfold readEntry; split <;> simp

@[simp] theorem apartFromWalks_walkTables (s : State) (die cls colony va : Nat) :
    apartFromWalks (walkTables s die cls colony va) = apartFromWalks s := by
  simp only [walkTables, apartFromWalks_modMesh]
  exact foldl_keeps apartFromWalks _ (fun t l => apartFromWalks_readEntry _ _ _ t l) _ _

@[simp] theorem apartFromWalks_walkFor (s : State) (agent cls colony va : Nat) :
    apartFromWalks (walkFor s agent cls colony va).1 = apartFromWalks s := by
  simp only [walkFor]
  split <;> simp

theorem apartFromWalks_rewalk (s : State) {agent : Nat} (cls colony va : Nat) (acc : Access) (h : 640 ≤ agent ∧ agent < 648) :
    apartFromWalks (rewalk s agent cls colony va acc) = apartFromWalks s := by
  simp only [rewalk]
  repeat' split
  all_goals simp [apartFromWalks_fillTc _ _ h]

theorem apartFromWalks_noteWalk (s : State) {agent : Nat} (cls colony va : Nat) (acc : Access) (h : 640 ≤ agent ∧ agent < 648) :
    apartFromWalks (noteWalk s agent cls colony va acc) = apartFromWalks s := by
  have hw := apartFromWalks_walkFor (rewalk s agent cls colony va acc) agent cls colony va
  have hr := apartFromWalks_rewalk s cls colony va acc h
  simp only [noteWalk]
  split
  · exact hr
  · split
    · next heq => rw [heq] at hw; exact (apartFromWalks_fillTc _ _ h).trans (hw.trans hr)
    · next heq => rw [heq] at hw; exact hw.trans hr

theorem apartFromWalks_noteLines {agent : Nat} (cls colony : Nat) (acc : Access) (h : 640 ≤ agent ∧ agent < 648) (k : Nat) :
    ∀ (s : State) (va : Nat), apartFromWalks (noteLines agent cls colony acc s va k) = apartFromWalks s := by
  induction k with
  | zero => exact fun _ _ => rfl
  | succ k ih =>
    intro s va
    rw [noteLines, ih]
    split
    · rw [apartFromWalks_sliceTouch, apartFromWalks_noteWalk s cls colony va acc h]
    · exact apartFromWalks_noteWalk s cls colony va acc h

/-- The control core that Bonor reads through is one of the eight. -/
theorem bonorAgent_range (s : State) : 640 ≤ bonorAgent s ∧ bonorAgent s < 648 := by
  unfold bonorAgent
  cases hf : (List.range 8).find? (fun n => ctrlAt s n == .active) with
  | none => simp
  | some k =>
    have := List.mem_range.mp (List.mem_of_find?_eq_some hf)
    simp only [Option.getD_some]
    omega

theorem apartFromWalks_noteRead (s : State) (c : Cmd) (va len : Nat) (acc : Access) :
    apartFromWalks (noteRead s c va len acc) = apartFromWalks s :=
  apartFromWalks_noteLines _ _ acc (bonorAgent_range s) _ s _

/-- What does not look at the traces of walks sees the same after one of Bonor's reads. -/
theorem noteRead_keeps {α : Type} (view : State → α) (hv : ∀ t, view (apartFromWalks t) = view t) (s : State) (c : Cmd)
    (va len : Nat) (acc : Access) : view (noteRead s c va len acc) = view s := by
  rw [← hv, apartFromWalks_noteRead, hv]

/- The turn of a sliced colony (R182). -/

@[simp] theorem settleTurn_cores (s : State) (n : Nat) : (settleTurn s n).cores = s.cores := by
  unfold settleTurn; repeat' split
  all_goals rfl
@[simp] theorem settleTurn_cmds (s : State) (n : Nat) : (settleTurn s n).cmds = s.cmds := by
  unfold settleTurn; repeat' split
  all_goals rfl
@[simp] theorem settleTurn_hbm (s : State) (n : Nat) : (settleTurn s n).hbm = s.hbm := by
  unfold settleTurn; repeat' split
  all_goals rfl
theorem settleTurn_pool (s : State) (n : Nat) : (colAt (settleTurn s n) n).pool = (colAt s n).pool := by
  unfold settleTurn; repeat' split
  · rfl
  · rw [colAt_modCol_same]
  · rw [colAt_modCol_same]

theorem cmdAt_settleTurn (s : State) (n id : Nat) : cmdAt (settleTurn s n) id = cmdAt s id := by rw [cmdAt, settleTurn_cmds]; rfl
theorem coreAt_settleTurn (s : State) (n m : Nat) : coreAt (settleTurn s n) m = coreAt s m := by rw [coreAt, settleTurn_cores]; rfl

/- R97's choice of the core count. -/

theorem chooseN_bounds {c : Cmd} {lo hi mult usable n : Nat} (hh : c.hdr = [lo, hi, mult]) (h : chooseN c usable = some n) :
    lo ≤ n ∧ n ≤ hi ∧ n % mult = 0 ∧ n ≤ usable ∧ (c.coreLimit ≠ 0 → n ≤ c.coreLimit) := by
  simp only [chooseN, hh, Option.ite_none_right_eq_some, Option.some.injEq] at h
  obtain ⟨⟨hlo, -⟩, rfl⟩ := h
  have hle := Nat.div_mul_le_self (min (min hi usable) (if c.coreLimit = 0 then 640 else c.coreLimit)) mult
  obtain ⟨htop, hlim⟩ := Nat.le_min.mp hle
  obtain ⟨hhi, husable⟩ := Nat.le_min.mp htop
  exact ⟨hlo, hhi, Nat.mul_mod_left _ _, husable, fun h0 => hlim.trans_eq (if_neg h0)⟩

/-- A LAUNCH made ready with its header, its core count and its reserve (R96, R97, R165). -/
def readyCmd (c : Cmd) (h : List Byte) (n : Nat) (fs : List Frames) : Cmd :=
  { keepHeader c h with phase := .ready, n := n, reserve := fs }

/-- A LAUNCH whose image is legal, and that nothing holds back, is made ready with its core count and reserve (R96, R97, R165). -/
theorem launch_ready {s : State} {id n : Nat} {c : Cmd} {h : List Byte} {fs : List Frames} {col : Colony}
    (hc : cmdAt s id = some c) (hop : c.op = 0x10) (hab : jobAborted s c = false) (hs : canStart s id c = true)
    (hnp : c.nonPreempt = true → (runCtlAt s c.colony).npAllow = true) (hcf : conflicted s id c = false)
    (hva : vaRead s c.colony c.imageVa 256 .image = .ok h) (hh : headerStatus h c.legacy = none)
    (hd : ∀ r ∈ c.regions, inDiag (colAt s c.colony) r = false)
    (hn : chooseN (keepHeader c h) (countCores s (keepHeader c h)) = some n)
    (hr : reserveOf (colAt s c.colony) (needOf (touchedPages (colAt s c.colony) c.regions)) = .taken fs col) :
    exec (.launch id) s = .next (settleTurn (setCmd (setCol (noteRead s c c.imageVa 256 .image) c.colony col) id
      (readyCmd c h n fs)) c.colony) := by
  have hcol : colAt (noteRead s c c.imageVa 256 .image) c.colony = colAt s c.colony :=
    noteRead_keeps (fun t => colAt t c.colony) (fun _ => rfl) ..
  have hcount : countCores (noteRead s c c.imageVa 256 .image) (keepHeader c h) = countCores s (keepHeader c h) :=
    noteRead_keeps (fun t => countCores t (keepHeader c h)) (fun _ => rfl) ..
  have hnp' : (c.nonPreempt && !(runCtlAt s c.colony).npAllow) = false := by
    cases hp : c.nonPreempt
    · rfl
    · rw [hnp hp]; rfl
  have hdiag : c.regions.any (fun r => inDiag (colAt s c.colony) r) = false := by
    rw [List.any_eq_false]; exact fun r hr => by rw [hd r hr]; decide
  show Host.Outcome.next (direct s id 0x10 _) = _
  simp only [direct, hc, hop, hs, hnp', hab, hcf, hva, hh, hcol, hcount, hdiag, hn, hr, and_self, if_true, Bool.false_eq_true, if_false, readyCmd]

/- Cores changed one after another. -/

theorem coreAt_foldl_modCore_of_notMem {α : Type} (f : α → Core → Core) {m : Nat} (l : List (α × Nat)) (s : State)
    (h : m ∉ l.map Prod.snd) : coreAt (l.foldl (fun t e => modCore t e.2 (f e.1)) s) m = coreAt s m := by
  induction l generalizing s with
  | nil => rfl
  | cons e l ih =>
    rw [List.map_cons, List.mem_cons, not_or] at h
    rw [List.foldl_cons, ih _ h.2, coreAt_modCore_other _ _ h.1]

/-- Of cores that differ, each is changed once. -/
theorem coreAt_foldl_modCore_of_mem {α : Type} (f : α → Core → Core) {m : Nat} {a : α} {l : List (α × Nat)} (s : State)
    (hl : (l.map Prod.snd).Nodup) (h : (a, m) ∈ l) :
    coreAt (l.foldl (fun t e => modCore t e.2 (f e.1)) s) m = f a (coreAt s m) := by
  induction l generalizing s with
  | nil => simp at h
  | cons e l ih =>
    rw [List.map_cons, List.nodup_cons] at hl
    rw [List.foldl_cons]
    rcases List.mem_cons.mp h with rfl | h
    · rw [coreAt_foldl_modCore_of_notMem f l _ hl.1, coreAt_modCore_same]
    · have hne : m ≠ e.2 := fun heq => hl.1 (heq ▸ List.mem_map_of_mem (f := Prod.snd) h)
      rw [ih _ hl.2 h, coreAt_modCore_other _ _ hne]

theorem enumNat_map_snd {α : Type} (l : List α) : (enumNat l).map Prod.snd = l :=
  List.map_snd_zip (by simp)

theorem mem_enumNat {α : Type} {l : List α} {i : Nat} {x : α} (h : l[i]? = some x) : (i, x) ∈ enumNat l := by
  obtain ⟨hi, rfl⟩ := List.getElem?_eq_some_iff.mp h
  refine List.mem_iff_getElem.mpr ⟨i, by simpa [enumNat] using hi, ?_⟩
  simp [enumNat]

/- The start of an attempt (R69, R89). -/

/-- Cores given up by a LAUNCH that kept them. -/
def releaseKept (s : State) (id : Nat) : State :=
  (keptCores s id).foldl (fun t m => modCore t m (fun k => { k with heldFor := none })) s

theorem coreAt_releaseKept (s : State) (id m : Nat) : ∃ h, coreAt (releaseKept s id) m = { coreAt s m with heldFor := h } := by
  unfold releaseKept
  generalize keptCores s id = l
  induction l generalizing s with
  | nil => exact ⟨_, rfl⟩
  | cons a l ih =>
    obtain ⟨h, hm⟩ := ih (modCore s a fun k => { k with heldFor := none })
    rw [List.foldl_cons, hm]
    by_cases hma : m = a
    · subst hma; rw [coreAt_modCore_same]; exact ⟨h, rfl⟩
    · rw [coreAt_modCore_other _ _ hma]; exact ⟨h, rfl⟩

/-- Some cores armed with a kernel, by rank. -/
def armCores (s : State) (id : Nat) (c : Cmd) (cores : List Nat) (words : List Word) : State :=
  (enumNat cores).foldl (fun t e => modCore t e.2 (armCore id c.entry e.1 c.image words)) s

theorem coreAt_armCores_of_mem {s : State} {id i m : Nat} {c : Cmd} {cores : List Nat} {words : List Word} (hl : cores.Nodup)
    (h : cores[i]? = some m) :
    coreAt (armCores s id c cores words) m = armCore id c.entry i c.image words (coreAt s m) :=
  coreAt_foldl_modCore_of_mem (fun r => armCore id c.entry r c.image words) s (by rwa [enumNat_map_snd]) (mem_enumNat h)

theorem coreAt_armCores_of_notMem {s : State} {id m : Nat} {c : Cmd} {cores : List Nat} {words : List Word} (h : m ∉ cores) :
    coreAt (armCores s id c cores words) m = coreAt s m :=
  coreAt_foldl_modCore_of_notMem (fun r => armCore id c.entry r c.image words) _ s (by rwa [enumNat_map_snd])

theorem hbm_modCore (s : State) (n : Nat) (f : Core → Core) : (modCore s n f).hbm = s.hbm := rfl

theorem hbm_armCores (s : State) (id : Nat) (c : Cmd) (cores : List Nat) (words : List Word) :
    (armCores s id c cores words).hbm = s.hbm :=
  foldl_keeps State.hbm _ (fun t (e : Nat × Nat) => hbm_modCore t e.2 _) _ _

theorem hbm_releaseKept (s : State) (id : Nat) : (releaseKept s id).hbm = s.hbm :=
  foldl_keeps State.hbm _ (fun t (m : Nat) => hbm_modCore t m _) _ _

/-- A core armed with a kernel: its initial state (R69), with its scratchpad as it was. -/
theorem armCore_initial (id entry rank image : Nat) (words : List Word) (c : Core) :
    let k := armCore id entry rank image words c
    k.st = .running ∧ k.cmd = some id ∧ k.rank = rank ∧ k.pc = entry ∧ k.im = words ∧ (∀ r, sreg k r = 0) ∧
    (∀ j, sem k j = 0) ∧ (∀ r i, vlane k r i = 0) ∧ (∀ r, r < 8 → (pred k r = true ↔ r = 0)) ∧ k.acc0 = {} ∧ k.acc1 = {} ∧
    (∀ g, group k g = 0) ∧ k.mq = [] ∧ k.vq = [] ∧ k.sp = c.sp := by
  refine ⟨rfl, rfl, rfl, rfl, rfl, fun r => ?_, fun _ => rfl, fun _ _ => rfl, fun r _ => ?_, rfl, rfl, fun _ => rfl, rfl, rfl, rfl⟩
  · unfold sreg; split <;> rfl
  · show (decide (r = 0) || Nat.testBit 1 r) = true ↔ r = 0
    simp [Nat.testBit_one_eq_true_iff_self_eq_zero]

/-- The command whose attempt starts (R97, R164). -/
def startedCmd (s : State) (id : Nat) (c : Cmd) (n : Nat) : Cmd :=
  { c with
    phase := .running, n := n, cores := (freeFor s c.colony id).take n, result := n, attempts := c.attempts + 1, startTick := s.ticks
    endBars := [], use := {}, cls := launchClass s c, npLimit := s.hub.npLimit, attemptNs := 0, low := false, high := false
    turnOver := none }

theorem startCores_eq (s : State) (id : Nat) (c : Cmd) (n : Nat) (code : List Byte) :
    startCores s id c n code = settleTurn (setCmd (armCores (releaseKept s id) id c ((freeFor s c.colony id).take n)
      (codeWords c.codeLen code)) id (startedCmd s id c n)) c.colony := rfl

theorem coreAt_startCores (s : State) (id : Nat) (c : Cmd) (n : Nat) (code : List Byte) (m : Nat) :
    coreAt (startCores s id c n code) m =
      coreAt (armCores (releaseKept s id) id c ((freeFor s c.colony id).take n) (codeWords c.codeLen code)) m := by
  rw [startCores_eq, coreAt_settleTurn]; rfl

theorem hbm_startCores (s : State) (id : Nat) (c : Cmd) (n : Nat) (code : List Byte) :
    (startCores s id c n code).hbm = s.hbm := by
  rw [startCores_eq, settleTurn_hbm]
  exact (hbm_armCores ..).trans (hbm_releaseKept ..)

/-- ATTEMPT_START with cores enough reads the code and checks it (R96, R164). -/
theorem attemptStart_reads {s : State} {id n : Nat} {c : Cmd} {code : List Byte} (hc : cmdAt s id = some c) (hop : c.op = 0x10)
    (hab : jobAborted s c = false) (hs : serving s = true) (hph : c.phase = .ready) (hst : (colAt s c.colony).st = .active)
    (hp : coresPromised s id c = false) (hn : chooseN c (countCores s c) = some n) (hf : n ≤ (freeFor s c.colony id).length)
    (hva : vaRead s c.colony (c.imageVa + 256) (8 * c.codeLen) .image = .ok code) :
    exec (.attemptStart id) s = .next (let s1 := noteRead s c (c.imageVa + 256) (8 * c.codeLen) .image
      if leNat (sha384 code) ≠ c.image then bonorFault s1 id 0x04 0x05 0 else startCores s1 id c n code) := by
  show execAttemptStart id s = _
  have hlaunch : c.isLaunch = true := by rw [Cmd.isLaunch, hop]; rfl
  have hgo : (!serving s || !c.isLaunch || c.phase != .ready || (colAt s c.colony).st != .active || coresPromised s id c) = false := by
    simp [hs, hlaunch, hph, hst, hp]
  simp only [execAttemptStart, hc, hgo, hab, hn, hva, if_neg (Nat.not_lt.mpr hf), Bool.false_eq_true, if_false]
  split <;> rfl

/- The end of a command that no engine works for (R155). -/

@[simp] theorem endReqs_hub (s : State) (id : Nat) : (endReqs s id).hub = s.hub := by
  refine (foldl_keeps State.hub (fun t (r : FabReq) => inflightDec t r.colony r.instar) (fun _ _ => rfl) _ _).trans ?_
  exact foldl_keeps State.hub (fun t (e : Nat × Port) => leaveWaiters t (664 + e.1)) (fun _ _ => rfl) _ _

@[simp] theorem endReqs_cores (s : State) (id : Nat) : (endReqs s id).cores = s.cores := by
  refine (foldl_keeps State.cores (fun t (r : FabReq) => inflightDec t r.colony r.instar) (fun _ _ => rfl) _ _).trans ?_
  exact foldl_keeps State.cores (fun t (e : Nat × Port) => leaveWaiters t (664 + e.1)) (fun _ _ => rfl) _ _

@[simp] theorem endReqs_hbm (s : State) (id : Nat) : (endReqs s id).hbm = s.hbm := by
  refine (foldl_keeps State.hbm (fun t (r : FabReq) => inflightDec t r.colony r.instar) (fun _ _ => rfl) _ _).trans ?_
  exact foldl_keeps State.hbm (fun t (e : Nat × Port) => leaveWaiters t (664 + e.1)) (fun _ _ => rfl) _ _

theorem freeEngines_of_idle {s : State} {id : Nat} (h : ∀ e, e < 16 → (engineAt s e).cmd ≠ some id) : freeEngines s id = s := by
  have hstep : ∀ l : List Nat, (∀ e ∈ l, e < 16) → l.foldl (fun t e =>
      if (engineAt t e).cmd == some id then
        modEngine (leaveWaiters (killCache t (648 + e)) (648 + e)) e (fun x => { x with cmd := none, want := none })
      else t) s = s := by
    intro l hl
    induction l with
    | nil => rfl
    | cons e l ih =>
      rw [List.forall_mem_cons] at hl
      rw [List.foldl_cons, if_neg (by simpa using h e hl.1)]
      exact ih hl.2
  exact hstep _ fun e he => List.mem_range.mp he

/-- Closing a record and counting the end change neither cores nor HBM (R154, R410). -/
theorem closeCmdRec_eq (s : State) (c : Cmd) : ∃ f, closeCmdRec s c = { s with flt := f } := by
  unfold closeCmdRec modRec
  repeat' split
  all_goals exact ⟨_, rfl⟩

theorem stampFin_eq {s : State} {id : Nat} {c : Cmd} (h : cmdAt s id = some c) :
    stampFin s id = setCmd (modHub s (fun h => { h with finished := h.finished + 1 })) id { c with fin := s.hub.finished } :=
  modCmd_some _ h

/-- A command has its final status; no core and no byte of HBM changed. -/
def DoneWith (s t : State) (id status : Nat) : Prop :=
  (∃ k, cmdAt t id = some k ∧ k.phase = .done ∧ k.status = status) ∧ t.cores = s.cores ∧ t.hbm = s.hbm

/-- A command that no engine works for ends with its status (R155). -/
theorem endOne_done {s : State} {id : Nat} {c : Cmd} (status detail result : Nat) (hc : cmdAt s id = some c)
    (hfin : c.finished = false) (he : ∀ e, e < 16 → (engineAt s e).cmd ≠ some id) :
    DoneWith s (endOne s id status detail result) id status := by
  have hidle : freeEngines (endReqs s id) id = endReqs s id := freeEngines_of_idle (by simpa [engineAt] using he)
  simp only [endOne, hc, hfin, hidle, Bool.false_eq_true, if_false]
  rw [stampFin_eq (cmdAt_setCmd_same ..)]
  obtain ⟨f, hf⟩ := closeCmdRec_eq (setCmd (modHub (setCmd (endReqs s id) id _) _) id _) c
  rw [hf]
  exact ⟨⟨_, cmdAt_setCmd_same .., rfl, rfl⟩, endReqs_cores s id, endReqs_hbm s id⟩

theorem endCmd_done {s : State} {id : Nat} {c : Cmd} (status detail result : Nat) (hc : cmdAt s id = some c)
    (hfin : c.finished = false) (ha : Alone s id c) : DoneWith s (endCmd s id status detail result) id status := by
  obtain ⟨hclaim, hengines⟩ := ha
  have hend : endCmd s id status detail result = endOne s id status detail result := by simp [endCmd, hc, hfin, hclaim]
  exact hend ▸ endOne_done status detail result hc hfin hengines

/-- A fault that Bonor finds ends a command outside job groups that no engine works for (R299, R494). -/
theorem bonorFault_done {s : State} {id : Nat} {c : Cmd} (cause status detail : Nat) (hc : cmdAt s id = some c)
    (hfin : c.finished = false) (hjob : c.job = 0) (ha : Alone s id c) :
    DoneWith s (bonorFault s id cause status detail) id status := by
  simp only [bonorFault, hc, hjob, raiseAbort, if_true]
  generalize hr : nameCmd s _ id = r
  obtain ⟨f, hf⟩ := recordFault_command (s := s) (show r.severity = 1 by rw [← hr, severity_nameCmd]; rfl)
  rw [hf, modCmd_some (s := { s with flt := f }) _ hc]
  exact endCmd_done status detail 0 (cmdAt_setCmd_same ..) hfin ha

/-- Settles O30: what Bonor reads leaves all that the choice of cores and the reserve look at; each core chosen is armed once. -/
theorem launchStartsItsCores : Obligations.LaunchStartsItsCores := by
  intro s id n c hc hop hab
  refine ⟨fun h fs col hs hnp hcf hva hh hd hn hr => ?ready, fun code hs hph hst hp hn hf hnodup hva hdig => ?start,
    fun code hs hph hst hp hn hf hva hdig hjob ha => ?refused⟩
  case ready =>
    obtain ⟨hlo, hhi, hmult, hcount, hlim⟩ := chooseN_bounds rfl hn
    refine ⟨_, readyCmd c h n fs, launch_ready hc hop hab hs hnp hcf hva hh hd hn hr,
      (cmdAt_settleTurn ..).trans (cmdAt_setCmd_same ..), rfl, rfl, rfl, rfl, rfl, hlo, hhi, hmult, hcount, hlim, ?_, ?_, ?_⟩
    · rw [settleTurn_pool]
      exact congrArg Colony.pool (colAt_setCol_same ..)
    · rw [settleTurn_cores]
      exact noteRead_keeps State.cores (fun _ => rfl) ..
    · rw [settleTurn_hbm]
      exact noteRead_keeps State.hbm (fun _ => rfl) ..
  case start =>
    intro free
    have hread := attemptStart_reads hc hop hab hs hph hst hp hn hf hva
    have hs1 {α : Type} (view : State → α) (hv : ∀ t, view (apartFromWalks t) = view t) := noteRead_keeps view hv s c
      (c.imageVa + 256) (8 * c.codeLen) .image
    rw [if_neg (not_not.mpr hdig)] at hread
    generalize noteRead s c (c.imageVa + 256) (8 * c.codeLen) .image = s1 at hread hs1
    have hfree : freeFor s1 c.colony id = free := hs1 (freeFor · c.colony id) fun _ => rfl
    have hticks : s1.ticks = s.ticks := hs1 State.ticks fun _ => rfl
    have hcore (m : Nat) : coreAt s1 m = coreAt s m := hs1 (coreAt · m) fun _ => rfl
    have hhbm : s1.hbm = s.hbm := hs1 State.hbm fun _ => rfl
    have hkept : ∀ m, ∃ k, coreAt (releaseKept s1 id) m = { coreAt s m with heldFor := k } := fun m => by
      rw [← hcore]; exact coreAt_releaseKept s1 id m
    refine ⟨_, startedCmd s1 id c n, hread, (cmdAt_settleTurn ..).trans (cmdAt_setCmd_same ..), rfl, rfl, rfl, hticks, ?_,
      fun i m him => ?_, fun m hm => ?_, ?_⟩
    · rw [startedCmd, hfree]
    · obtain ⟨k, hk⟩ := hkept m
      rw [coreAt_startCores, hfree, coreAt_armCores_of_mem (hnodup.sublist (List.take_sublist n free)) him, hk]
      exact armCore_initial ..
    · obtain ⟨k, hk⟩ := hkept m
      rw [coreAt_startCores, hfree, coreAt_armCores_of_notMem hm, hk]
    · rw [hbm_startCores, hhbm]
  case refused =>
    have hread := attemptStart_reads hc hop hab hs hph hst hp hn hf hva
    rw [if_pos hdig] at hread
    have hs1 {α : Type} (view : State → α) (hv : ∀ t, view (apartFromWalks t) = view t) := noteRead_keeps view hv s c
      (c.imageVa + 256) (8 * c.codeLen) .image
    have hfin : c.finished = false := by rw [Cmd.finished, hph]
    have ha1 : Alone (noteRead s c (c.imageVa + 256) (8 * c.codeLen) .image) id c :=
      ⟨ha.1, fun e he => by rw [hs1 (engineAt · e) fun _ => rfl]; exact ha.2 e he⟩
    obtain ⟨⟨k, hk, hdone, hstatus⟩, hcores, hhbm⟩ :=
      bonorFault_done 0x04 0x05 0 ((hs1 (cmdAt · id) fun _ => rfl).trans hc) hfin hjob ha1
    exact ⟨_, k, hread, hk, hdone, hstatus, hcores.trans (hs1 State.cores fun _ => rfl), hhbm.trans (hs1 State.hbm fun _ => rfl)⟩

end Sys2Proof.Machine
end

section
/-! PROOFS. The address map inside a set (R227): 16 KiB of a set is a row of 16 granules, one on each channel. -/

namespace Sys2Proof.Machine

/- The fold of a row, and the three maps written with it. -/

/-- What R227 folds into the granule's place within its row of 16 KiB: O[17:14] XOR O[21:18], of the row's number. -/
def rowFold (r : Nat) : Nat := r % 16 ^^^ r / 16 % 16

theorem rowFold_lt (r : Nat) : rowFold r < 16 :=
  Nat.xor_lt_two_pow (n := 4) (Nat.mod_lt _ (by decide)) (Nat.mod_lt _ (by decide))

theorem xor_rowFold_lt {i : Nat} (hi : i < 16) (r : Nat) : i ^^^ rowFold r < 16 :=
  Nat.xor_lt_two_pow (n := 4) hi (rowFold_lt r)

/-- The fold sees only the low 8 bits of a row's number, so a row folds alike in every set. -/
theorem rowFold_congr {r q : Nat} (h : r % 256 = q % 256) : rowFold r = rowFold q := by
  have hlow : r % 16 = q % 16 := by omega
  have hhigh : r / 16 % 16 = q / 16 % 16 := by omega
  rw [rowFold, rowFold, hlow, hhigh]

theorem channelOf_eq_fields (a : Nat) :
    channelOf a = 16 * (a / 2 ^ 35) + (a / 2 ^ 10 % 16 ^^^ a / 2 ^ 14 % 16 ^^^ a / 2 ^ 18 % 16) := by
  simp only [channelOf, setOf, nbits, Nat.shiftRight_eq_div_pow]
  rfl

theorem channelOf_eq (a : Nat) : channelOf a = 16 * (a / 2 ^ 35) + (a / 2 ^ 10 % 16 ^^^ rowFold (a / 2 ^ 14)) := by
  have hfold : a / 2 ^ 14 / 16 % 16 = a / 2 ^ 18 % 16 := by omega
  rw [channelOf_eq_fields, rowFold, hfold, Nat.xor_assoc]

theorem frameAddr_eq (ch off : Nat) :
    frameAddr ch off =
      ch / 16 * 2 ^ 35 + off / 1024 * 2 ^ 14 + (ch % 16 ^^^ rowFold (off / 1024)) * 1024 + off % 1024 := by
  simp only [frameAddr, rowFold, Nat.xor_assoc]

/- The channel and the offset name the address again, and an address its channel and offset. -/

theorem frameAddr_channelOf_chanOff (a : Nat) : frameAddr (channelOf a) (chanOff a) = a := by
  have hlt := xor_rowFold_lt (Nat.mod_lt (a / 2 ^ 10) (show 0 < 16 by decide)) (a / 2 ^ 14)
  have hset : channelOf a / 16 = a / 2 ^ 35 := by rw [channelOf_eq]; omega
  have hplace : channelOf a % 16 = a / 2 ^ 10 % 16 ^^^ rowFold (a / 2 ^ 14) := by rw [channelOf_eq]; omega
  have hrow : chanOff a / 1024 = a % 2 ^ 35 / 2 ^ 14 := by rw [chanOff, setOff]; omega
  have hbyte : chanOff a % 1024 = a % 1024 := by rw [chanOff]; omega
  have hfold : rowFold (a % 2 ^ 35 / 2 ^ 14) = rowFold (a / 2 ^ 14) := rowFold_congr (by omega)
  rw [frameAddr_eq, hset, hplace, hrow, hbyte, hfold, Nat.xor_xor_cancel_right]
  omega

theorem channelOf_frameAddr (ch : Nat) {off : Nat} (hoff : off < 2 ^ 31) : channelOf (frameAddr ch off) = ch := by
  have hlt := xor_rowFold_lt (Nat.mod_lt ch (show 0 < 16 by decide)) (off / 1024)
  have hset : frameAddr ch off / 2 ^ 35 = ch / 16 := by rw [frameAddr_eq]; omega
  have hgran : frameAddr ch off / 2 ^ 10 % 16 = ch % 16 ^^^ rowFold (off / 1024) := by rw [frameAddr_eq]; omega
  have hfold : rowFold (frameAddr ch off / 2 ^ 14) = rowFold (off / 1024) :=
    rowFold_congr (by rw [frameAddr_eq]; omega)
  rw [channelOf_eq, hset, hgran, hfold, Nat.xor_xor_cancel_right, Nat.div_add_mod]

theorem chanOff_frameAddr (ch : Nat) {off : Nat} (hoff : off < 2 ^ 31) : chanOff (frameAddr ch off) = off := by
  have hlt := xor_rowFold_lt (Nat.mod_lt ch (show 0 < 16 by decide)) (off / 1024)
  rw [chanOff, setOff, frameAddr_eq]
  omega

/- The spread: each row has one granule on each channel of the set, so rows within a set spread evenly. -/

theorem count_row {k f : Nat} (hk : k < 16) (hf : f < 16) :
    (List.range 16).countP (fun i => i ^^^ f == k) = 1 := by
  have hsolve : (fun i => i ^^^ f == k) = (· == k ^^^ f) := by
    funext i
    rw [Bool.eq_iff_iff, beq_iff_eq, beq_iff_eq, ← Nat.xor_left_inj (z := f), Nat.xor_xor_cancel_right]
  rw [hsolve]
  exact List.count_eq_one_of_mem List.nodup_range (List.mem_range.2 (Nat.xor_lt_two_pow (n := 4) hk hf))

/-- `m` rows that stay in the set of the first place `m` granules on each channel of that set. -/
theorem count_rows {a k : Nat} (ha : a % 2 ^ 14 = 0) (hk : k < 16) (m : Nat) (hm : a % 2 ^ 35 + 2 ^ 14 * m ≤ 2 ^ 35) :
    (List.range (16 * m)).countP (fun g => channelOf (a + 1024 * g) == 16 * (a / 2 ^ 35) + k) = m := by
  induction m with
  | zero => rfl
  | succ m ih =>
    have hlast : ∀ i ∈ List.range 16,
        ((fun g => channelOf (a + 1024 * g) == 16 * (a / 2 ^ 35) + k) ∘ (16 * m + ·)) i = true ↔
          (i ^^^ rowFold (a / 2 ^ 14 + m) == k) = true := fun i hi => by
      have hi := List.mem_range.1 hi
      have hset : (a + 1024 * (16 * m + i)) / 2 ^ 35 = a / 2 ^ 35 := by omega
      have hgran : (a + 1024 * (16 * m + i)) / 2 ^ 10 % 16 = i := by omega
      have hrow : (a + 1024 * (16 * m + i)) / 2 ^ 14 = a / 2 ^ 14 + m := by omega
      rw [Function.comp_apply, channelOf_eq, hset, hgran, hrow, beq_iff_eq, beq_iff_eq, Nat.add_left_cancel_iff]
    rw [Nat.mul_succ, List.range_add, List.countP_append, ih (by omega), List.countP_map, List.countP_congr hlast,
      count_row hk (rowFold_lt _)]

/-- Settles O20: the fold is its own inverse within a row of 16 granules, and an aligned page is whole rows of one set. -/
theorem addressMapSpreadsAndInverts : Obligations.AddressMapSpreadsAndInverts := by
  refine ⟨fun a _ htop => ⟨channelOf_eq_fields a, rfl, ?granule, ?line, frameAddr_channelOf_chanOff a⟩,
    fun ch off _ hoff => ⟨channelOf_frameAddr ch hoff, chanOff_frameAddr ch hoff⟩, fun size hsize a ha k hk => ?spread⟩
  case granule => omega
  case line => rw [chanOff]; omega
  case spread =>
    have hpage : size / 1024 = 16 * (size / 2 ^ 14) ∧ a % 2 ^ 14 = 0 ∧ a % 2 ^ 35 + 2 ^ 14 * (size / 2 ^ 14) ≤ 2 ^ 35 := by
      simp only [List.mem_cons, List.not_mem_nil, or_false] at hsize
      obtain rfl | rfl | rfl := hsize <;> omega
    obtain ⟨hgran, hrow, hset⟩ := hpage
    rw [← List.countP_eq_length_filter, hgran, count_rows hrow hk _ hset]

end Sys2Proof.Machine
end

section
/-! PROOFS. What every step keeps: the canonical form of the byte memories and the one-time fuses. The invariant `Keeps` and what it
says of memories, cores and fuses; then, part by part of the model, one lemma per function that gives a state. -/

set_option Elab.async false

namespace Sys2Proof.Machine

/-- A byte memory is canonical if those of `s0` are. -/
def MemOk (s0 : State) (m : List Host.Cell) : Prop := s0.memWf → Memory.wf m = true
/-- So is the scratchpad of every core of a table. -/
def CoresOk (s0 : State) (t : Tbl Core) : Prop := ∀ e ∈ t, MemOk s0 e.2.sp
/-- No one-time fuse of `s0` is turned back by these values of BOOT_COUNTER, FW_SVN, the management roots and the spare rows. -/
def FusesOk (s0 : State) (boots svn : Nat) (roots : List Nat) (rows : Nat) : Prop :=
  s0.sec.boots ≤ boots ∧ s0.sec.fuseSvn ≤ svn ∧ s0.sec.mgmtRoots <+: roots ∧ rows ≤ s0.sec.spareRows
structure Keeps (s0 t : State) : Prop where
  hbm : MemOk s0 t.hbm
  staging : MemOk s0 t.mgt.staging
  cores : CoresOk s0 t.cores
  fuses : FusesOk s0 t.sec.boots t.sec.fuseSvn t.sec.mgmtRoots t.sec.spareRows
def KeepsNext (s0 : State) (r : Res) : Prop := ∃ t, r = .next t ∧ Keeps s0 t

def Got.state : Got → State
  | .data s _ => s
  | .stop s => s
def Reach.state : Reach → State
  | .at_ s _ _ => s
  | .stop s => s

theorem keepsNext_next {s0 t : State} : KeepsNext s0 (.next t) ↔ Keeps s0 t :=
  ⟨fun ⟨_, h, k⟩ => by cases h; exact k, fun k => ⟨t, rfl, k⟩⟩

theorem memOk_nil {s0 : State} : MemOk s0 [] := fun _ => rfl
theorem memOk_mwrite {s0 : State} {m : List Host.Cell} {a : Nat} {b : List Byte} (h : MemOk s0 m) : MemOk s0 (mwrite m a b) :=
  fun h0 => wf_mwrite a b (h h0)
theorem memOk_mwipe {s0 : State} {m : List Host.Cell} {a n : Nat} (h : MemOk s0 m) : MemOk s0 (mwipe m a n) :=
  fun h0 => wf_mwipe a n (h h0)
theorem memOk_mput {s0 : State} {m : List Host.Cell} {a : Nat} {b : Byte} (h : MemOk s0 m) : MemOk s0 (mput m a b) :=
  fun h0 => wf_mput a b (h h0)

theorem memOk_storeLines {s0 : State} {m : List Host.Cell} {l : List Nat} {v : List Lane} (hm : MemOk s0 m) : MemOk s0 (storeLines m l v) := by
  induction l generalizing m v with
  | nil => exact hm
  | cons a l ih => exact ih (memOk_mwrite hm)
theorem memOk_foldl {s0 : State} {α : Type} {f : List Host.Cell → α → List Host.Cell} (hf : ∀ m x, MemOk s0 m → MemOk s0 (f m x)) {m : List Host.Cell}
    (hm : MemOk s0 m) (l : List α) : MemOk s0 (l.foldl f m) := by
  induction l generalizing m with
  | nil => exact hm
  | cons a l ih => exact ih (hf _ _ hm)
theorem memOk_storeRows {s0 : State} {l t w b p} {m : List Host.Cell} (hm : MemOk s0 m) : MemOk s0 (storeRows l t w b p m) :=
  memOk_foldl (fun _ _ h => memOk_mwrite h) hm _
theorem memOk_storeScales {s0 : State} {l t w b} {m : List Host.Cell} (hm : MemOk s0 m) : MemOk s0 (storeScales l t w b m) :=
  memOk_foldl (fun _ _ h => memOk_mwrite h) hm _
theorem memOk_storeBlocked {s0 : State} {l t w b} {m : List Host.Cell} (hm : MemOk s0 m) : MemOk s0 (storeBlocked l t w b m) :=
  memOk_mwrite hm
theorem memOk_tget {s0 : State} {t : Tbl Core} {n : Nat} (h : CoresOk s0 t) : MemOk s0 (tget {} t n).sp := by
  induction t with
  | nil => exact memOk_nil
  | cons e t ih =>
    obtain ⟨k, v⟩ := e
    rw [tget]
    split
    · exact h _ List.mem_cons_self
    · exact ih fun e he => h e (List.mem_cons_of_mem _ he)
theorem coresOk_nil {s0 : State} : CoresOk s0 [] := by simp [CoresOk]
theorem coresOk_tset {s0 : State} {t : Tbl Core} {n : Nat} {c : Core} (h : CoresOk s0 t) (hc : MemOk s0 c.sp) :
    CoresOk s0 (tset t n c) := by
  intro e he
  obtain rfl | he := mem_tset he
  · exact hc
  · exact h e he
theorem coresOk_map {s0 : State} {t : Tbl Core} {f : Nat × Core → Nat × Core} (h : CoresOk s0 t) (hf : ∀ e, (f e).2.sp = e.2.sp) :
    CoresOk s0 (t.map f) := by
  simp only [CoresOk, List.forall_mem_map, hf]
  exact h

theorem sp_advanceEpoch {c} : (advanceEpoch c).sp = c.sp := by unfold advanceEpoch; grind
theorem sp_setPred {c n v} : (setPred c n v).sp = c.sp := by unfold setPred; grind
theorem sp_setVreg {c n v} : (setVreg c n v).sp = c.sp := by unfold setVreg; grind
theorem sp_setTile {c t x} : (setTile c t x).sp = c.sp := by unfold setTile; grind
theorem sp_foldFlags {c t} : (foldFlags c t).sp = c.sp := by unfold foldFlags; grind
theorem sp_markBank {c b} : (markBank c b).sp = c.sp := by unfold markBank; grind
theorem sp_spCorrectable {c b} : (spCorrectable c b).sp = c.sp := by unfold spCorrectable; grind [sp_markBank]
theorem sp_wiped {c} : (wiped c).sp = [] := rfl
theorem sp_repairBanks {c} : (repairBanks c).1.sp = c.sp := by unfold repairBanks; grind
theorem sp_armCore {id entry rank image code c} : (armCore id entry rank image code c).sp = c.sp := by unfold armCore; grind
theorem sp_clearTile {c t anchor mode} : (clearTile c t anchor mode).sp = c.sp := by unfold clearTile; grind [sp_setTile, sp_foldFlags]
theorem sp_popMatrix {c} : (popMatrix c).sp = c.sp := by unfold popMatrix; grind
theorem sp_popVector {c} : (popVector c).sp = c.sp := by unfold popVector; grind
theorem sp_lineDone {c desc} : (lineDone c desc).sp = c.sp := by unfold lineDone; grind
theorem sp_releaseEpoch {c} : (releaseEpoch c).sp = c.sp := by unfold releaseEpoch; grind [sp_advanceEpoch]

theorem keeps_of_stop {s0 : State} {g : Got} {t : State} (hg : Keeps s0 g.state) (e : g = .stop t) : Keeps s0 t := by subst e; exact hg
theorem keeps_of_data {s0 : State} {g : Got} {t : State} {b : List Byte} (hg : Keeps s0 g.state) (e : g = .data t b) : Keeps s0 t := by
  subst e; exact hg
theorem keeps_of_reach_stop {s0 : State} {g : Reach} {t : State} (hg : Keeps s0 g.state) (e : g = .stop t) : Keeps s0 t := by
  subst e; exact hg
theorem keeps_of_reach_at {s0 : State} {g : Reach} {t : State} {d : Nat} {p : Pte} (hg : Keeps s0 g.state) (e : g = .at_ t d p) :
    Keeps s0 t := by subst e; exact hg

theorem sendChunks_zero {id i : Nat} {eng : Option Nat} {s : State} : sendChunks id i eng 0 s = s := rfl
set_option maxRecDepth 100000 in
theorem sendChunks_succ {id i : Nat} {eng : Option Nat} {k : Nat} {s : State} : sendChunks id i eng (k + 1) s =
    match cmdAt s id with
    | none => s
    | some c =>
      match c.plan[i]? with
      | none => s
      | some p =>
        if c.phase ≠ .running ∨ p.count ≤ p.sent then s
        else match requestPort s c p.peer with
          | .error st => noRoute s id st
          | .ok (e, port) =>
            match freeReqTag (portAt s e) with
            | none => s
            | some tag =>
              let n := min (packetUnits c p) (p.count - p.sent)
              let (t, went) := sendUnits s id i c eng p (p.loff + p.sent) n e port tag
              if went then sendChunks id i eng k (modStep t id i (fun q => { q with sent := q.sent + n })) else t := rfl
theorem sendReads_zero {id : Nat} {eng : Option Nat} {s : State} : sendReads id eng 0 s = s := rfl
set_option maxRecDepth 100000 in
theorem sendReads_succ {id : Nat} {eng : Option Nat} {k : Nat} {s : State} : sendReads id eng (k + 1) s =
    match cmdAt s id with
    | none => s
    | some c =>
      if c.phase ≠ .running ∨ c.stateLen ≤ 64 * c.stage then s
      else match cmdHandoff s c with
        | none => s
        | some (_, h) =>
          match requestPort s c c.hPeer with
          | .error st => noRoute s id st
          | .ok (e, out) =>
            match freeReqTag (portAt s e) with
            | none => s
            | some tag =>
              let n := min (if c.cls = 0 then 4 else 64) (c.stateLen / 64 - c.stage)
              match readTarget s id c eng (c.stateVa + 64 * c.stage) (64 * n) with
              | .error t => t
              | .ok s =>
                let hd := requestHeader s c e tag h.window c.hseq (h.offset + 64 * c.stage) c.hPeer 0 false
                let r : FabReq := { tag := tag, kind := .read, cmd := id, step := 0, unit := c.stage, units := n, colony := c.colony
                                    instar := stampOf s c.colony, xepoch := (colAt s c.colony).epoch, dst := c.hPeer, window := h.window, offset := hd.offset }
                let s1 := inflightInc (modPort s e (fun q => { q with reqs := q.reqs ++ [r] })) c.colony r.instar
                sendReads id eng k (putPacket (modCmd s1 id (fun x => { x with stage := x.stage + n })) out c.cls 3 hd (zeros n)) := rfl

theorem keeps_fst {s0 : State} {α : Type} {r : State × α} {t : State} {a : α} (hr : Keeps s0 r.1) (e : r = (t, a)) : Keeps s0 t := by subst e; exact hr
theorem keeps_snd {s0 : State} {α : Type} {r : α × State} {t : State} {a : α} (hr : Keeps s0 r.2) (e : r = (a, t)) : Keeps s0 t := by subst e; exact hr
theorem keeps_ite {s0 : State} {p : Prop} [Decidable p] {a b : State} (ha : Keeps s0 a) (hb : Keeps s0 b) : Keeps s0 (if p then a else b) := by
  split
  · exact ha
  · exact hb

section
variable {s0 s : State} (h : Keeps s0 s)
include h
theorem memOk_hbm : MemOk s0 s.hbm := h.hbm
theorem memOk_staging : MemOk s0 s.mgt.staging := h.staging
theorem coresOk_cores : CoresOk s0 s.cores := h.cores
theorem fusesOk_sec : FusesOk s0 s.sec.boots s.sec.fuseSvn s.sec.mgmtRoots s.sec.spareRows := h.fuses
theorem memOk_coreAt {n} : MemOk s0 (coreAt s n).sp := memOk_tget h.cores

omit h in
theorem keeps_mk {p t f o cores sg hub cmds nc cols chans hbm ports zlt fab sec flt pwr mesh boot mgt pcie}
    (hcores : CoresOk s0 cores) (hhbm : MemOk s0 hbm) (hsec : FusesOk s0 sec.boots sec.fuseSvn sec.mgmtRoots sec.spareRows) (hmgt : MemOk s0 mgt.staging) :
    Keeps s0 ⟨p, t, f, o, cores, sg, hub, cmds, nc, cols, chans, hbm, ports, zlt, fab, sec, flt, pwr, mesh, boot, mgt, pcie⟩ :=
  ⟨hhbm, hmgt, hcores, hsec⟩
theorem keeps_of_eq {t : State} (hcores : t.cores = s.cores) (hhbm : t.hbm = s.hbm) (hsec : t.sec = s.sec) (hmgt : t.mgt = s.mgt) :
    Keeps s0 t := ⟨hhbm ▸ h.hbm, hmgt ▸ h.staging, hcores ▸ h.cores, hsec ▸ h.fuses⟩
theorem keeps_foldl {α} {f : State → α → State} (hf : ∀ t x, Keeps s0 t → Keeps s0 (f t x)) (l : List α) : Keeps s0 (l.foldl f s) := by
  induction l generalizing s with
  | nil => exact h
  | cons x l ih => exact ih (hf _ _ h)
theorem keeps_setCore {n c} (hc : MemOk s0 c.sp) : Keeps s0 (setCore s n c) :=
  ⟨h.hbm, h.staging, coresOk_tset h.cores hc, h.fuses⟩
theorem keeps_modCore {n} {f : Core → Core} (hf : (f (coreAt s n)).sp = (coreAt s n).sp) : Keeps s0 (modCore s n f) := by
  grind [modCore, keeps_setCore, memOk_coreAt]
end
end Sys2Proof.Machine
end

section
/-! PROOFS. The byte memories and the fuses are kept: shared operations. -/

set_option Elab.async false

namespace Sys2Proof.Machine
section
variable {s0 s : State} (h : Keeps s0 s)
include h
theorem keeps_setCol {n c} : Keeps s0 (setCol s n c) := by
  grind [setCol, keeps_mk, coresOk_cores, memOk_hbm, memOk_staging, fusesOk_sec]
theorem keeps_modCol {n f} : Keeps s0 (modCol s n f) := by
  grind [modCol, keeps_setCol]
theorem keeps_setChan {n c} : Keeps s0 (setChan s n c) := by
  grind [setChan, keeps_mk, coresOk_cores, memOk_hbm, memOk_staging, fusesOk_sec]
theorem keeps_modChan {n f} : Keeps s0 (modChan s n f) := by
  grind [modChan, keeps_setChan]
theorem keeps_setPort {n p} : Keeps s0 (setPort s n p) := by
  grind [setPort, keeps_mk, coresOk_cores, memOk_hbm, memOk_staging, fusesOk_sec]
theorem keeps_modPort {n f} : Keeps s0 (modPort s n f) := by
  grind [modPort, keeps_setPort]
theorem keeps_modMesh {n f} : Keeps s0 (modMesh s n f) := by
  grind [modMesh, keeps_mk, coresOk_cores, memOk_hbm, memOk_staging, fusesOk_sec]
theorem keeps_setCmd {id c} : Keeps s0 (setCmd s id c) := by
  grind [setCmd, keeps_mk, coresOk_cores, memOk_hbm, memOk_staging, fusesOk_sec]
theorem keeps_modCmd {id f} : Keeps s0 (modCmd s id f) := by
  grind [modCmd, keeps_setCmd]
theorem keeps_modHub {f} : Keeps s0 (modHub s f) := by
  grind [modHub, keeps_mk, coresOk_cores, memOk_hbm, memOk_staging, fusesOk_sec]
theorem keeps_modEngine {n f} : Keeps s0 (modEngine s n f) := by
  grind [modEngine, keeps_modHub]
theorem keeps_setCtrl {n c} : Keeps s0 (setCtrl s n c) := by
  grind [setCtrl, keeps_modHub]
theorem keeps_setSq {page ring r} : Keeps s0 (setSq s page ring r) := by
  grind [setSq, keeps_modHub]
theorem keeps_setCq {page ring r} : Keeps s0 (setCq s page ring r) := by
  grind [setCq, keeps_modHub]
theorem keeps_setSync {page n v} : Keeps s0 (setSync s page n v) := by
  grind [setSync, keeps_modHub]
theorem keeps_modSlot {n f} : Keeps s0 (modSlot s n f) := by
  unfold modSlot; grind [keeps_mk, coresOk_cores, memOk_hbm, memOk_staging, fusesOk_sec]
theorem keeps_modDie {n f} : Keeps s0 (modDie s n f) := by
  grind [modDie, keeps_mk, coresOk_cores, memOk_hbm, memOk_staging, fusesOk_sec]
theorem keeps_modAcct {c f} : Keeps s0 (modAcct s c f) := by
  grind [modAcct, keeps_modHub]
theorem keeps_filterTcs {keep} : Keeps s0 (filterTcs s keep) := by
  have hc := coresOk_map (f := fun e : Nat × Core => (e.1, { e.2 with tc := e.2.tc.filter keep })) h.cores fun _ => rfl
  grind [filterTcs, keeps_modHub, keeps_mk, memOk_hbm, memOk_staging, fusesOk_sec]
theorem keeps_filterWalkers {keep} : Keeps s0 (filterWalkers s keep) := by
  grind [filterWalkers, keeps_mk, coresOk_cores, memOk_hbm, memOk_staging, fusesOk_sec]
theorem keeps_emit {o} : Keeps s0 (emit s o) := by
  grind [emit, keeps_mk, coresOk_cores, memOk_hbm, memOk_staging, fusesOk_sec]
theorem keeps_setMsix {fn m} : Keeps s0 (setMsix s fn m) := by
  grind [setMsix, keeps_mk, coresOk_cores, memOk_hbm, memOk_staging, fusesOk_sec]
theorem keeps_raiseMsix {fn v} : Keeps s0 (raiseMsix s fn v) := by
  unfold raiseMsix; grind [keeps_emit, keeps_setMsix]
theorem keeps_countFor {id colony f} : Keeps s0 (countFor s id colony f) := by
  grind [countFor, keeps_setCmd, keeps_modAcct]
theorem keeps_faultIrq {severity} : Keeps s0 (faultIrq s severity) := by
  grind [faultIrq, keeps_raiseMsix]
theorem keeps_mergeInto {i r} : Keeps s0 (mergeInto s i r) := by
  grind [mergeInto, keeps_faultIrq, keeps_mk, coresOk_cores, memOk_hbm, memOk_staging, fusesOk_sec]
theorem keeps_recordFault {r} : Keeps s0 (recordFault s r).1 := by
  grind [recordFault, keeps_faultIrq, keeps_mergeInto, keeps_mk, coresOk_cores, memOk_hbm, memOk_staging, fusesOk_sec]
theorem keeps_modRec {i f} : Keeps s0 (modRec s i f) := by
  grind [modRec, keeps_mk, coresOk_cores, memOk_hbm, memOk_staging, fusesOk_sec]
theorem keeps_closeRec {i} : Keeps s0 (closeRec s i) := by
  unfold closeRec; grind [keeps_modRec]
theorem keeps_fencedRecs {u} : Keeps s0 (fencedRecs s u) := by
  grind [fencedRecs, keeps_mk, coresOk_cores, memOk_hbm, memOk_staging, fusesOk_sec]
theorem keeps_disarm {kind n} : Keeps s0 (disarm s kind n) := by
  grind [disarm, keeps_mk, coresOk_cores, memOk_hbm, memOk_staging, fusesOk_sec]
theorem keeps_drawFree : Keeps s0 (drawFree s).2 := by
  grind [drawFree, keeps_mk, coresOk_cores, memOk_hbm, memOk_staging, fusesOk_sec]
theorem keeps_syndrome : Keeps s0 (syndrome s).2 := by
  grind [syndrome, keeps_drawFree]
end
end Sys2Proof.Machine
end

section
/-! PROOFS. The byte memories and the fuses are kept: flits. -/

set_option Elab.async false

namespace Sys2Proof.Machine
section
variable {s0 s : State} (h : Keeps s0 s)
include h
theorem keeps_emitFlit {n f} : Keeps s0 (emitFlit n s f) := by
  grind [emitFlit, keeps_emit, keeps_mk, coresOk_cores, memOk_hbm, memOk_staging, fusesOk_sec]
theorem keeps_startPacket {n k} : Keeps s0 (startPacket s n k) := by
  grind [startPacket, keeps_emit, keeps_emitFlit, keeps_setPort, keeps_foldl]
theorem keeps_startLink {n kind body} : Keeps s0 (startLink s n kind body) := by
  grind [startLink, keeps_emit, keeps_emitFlit, keeps_setPort]
theorem keeps_pumpLinks {n l} : Keeps s0 (pumpLinks n l s) := by
  induction l generalizing s <;> grind [pumpLinks, keeps_modPort, keeps_startLink]
theorem keeps_pumpLane {n vl l} : Keeps s0 (pumpLane n vl l s).1 := by
  induction l generalizing s <;> grind [pumpLane, keeps_startPacket]
theorem keeps_pumpShared {n k} : Keeps s0 (pumpShared n k s) := by
  induction k generalizing s <;> grind [pumpShared, keeps_startPacket, keeps_setPort]
theorem keeps_pumpVl {n vl} : Keeps s0 (pumpVl s n vl) := by
  grind [pumpVl, keeps_modPort, keeps_pumpLane]
theorem keeps_pump {n} : Keeps s0 (pump s n) := by
  grind [pump, keeps_pumpShared, keeps_pumpLinks, keeps_pumpVl]
theorem keeps_sendLink {n kind body} : Keeps s0 (sendLink s n kind body) := by
  grind [sendLink, keeps_modPort, keeps_pump]
theorem keeps_startRefresh {n} : Keeps s0 (startRefresh s n) :=
  keeps_sendLink (keeps_modPort (keeps_drawFree (keeps_drawFree h)))
theorem keeps_queuePacket {n cls bulk transit flits out} : Keeps s0 (queuePacket s n cls bulk transit flits out) := by
  grind [queuePacket, keeps_modPort, keeps_pump, keeps_mk, coresOk_cores, memOk_hbm, memOk_staging, fusesOk_sec]
theorem keeps_putMsg {mtype x2 body} : Keeps s0 (putMsg s mtype x2 body) := by
  grind [putMsg, keeps_queuePacket, keeps_emit]
theorem keeps_sendMsg {mtype dst scol instar job body cmd} : Keeps s0 (sendMsg s mtype dst scol instar job body cmd) := by
  grind [sendMsg, keeps_putMsg, keeps_mk, coresOk_cores, memOk_hbm, memOk_staging, fusesOk_sec]
theorem keeps_putPacket {n cls kind x4 data} : Keeps s0 (putPacket s n cls kind x4 data) := by
  grind [putPacket, keeps_queuePacket, keeps_emit]
theorem keeps_resendBond {n} : Keeps s0 (resendBond s n) := by
  grind [resendBond, keeps_modPort, keeps_pump, keeps_mk, coresOk_cores, memOk_hbm, memOk_staging, fusesOk_sec, keeps_foldl]
end
end Sys2Proof.Machine
end

section
/-! PROOFS. The byte memories and the fuses are kept: address spaces. -/

set_option Elab.async false

namespace Sys2Proof.Machine
section
variable {s0 s : State} (h : Keeps s0 s)
include h
theorem keeps_inflightInc {colony instar} : Keeps s0 (inflightInc s colony instar) := by
  grind [inflightInc, keeps_modCol]
theorem keeps_inflightDec {colony instar} : Keeps s0 (inflightDec s colony instar) := by
  grind [inflightDec, keeps_modCol]
theorem keeps_countStale {colony} : Keeps s0 (countStale s colony) := by
  grind [countStale, keeps_modCol]
theorem keeps_markWritten {fa} : Keeps s0 (markWritten s fa) := by
  grind [markWritten, keeps_mk, coresOk_cores, memOk_hbm, memOk_staging, fusesOk_sec]
theorem keeps_writeLine {fa data} : Keeps s0 (writeLine s fa data) := by
  grind [writeLine, keeps_disarm, keeps_modChan, keeps_markWritten, keeps_mk, coresOk_cores, memOk_hbm, memOk_mwrite, memOk_staging, fusesOk_sec]
end
end Sys2Proof.Machine
end

section
/-! PROOFS. The byte memories and the fuses are kept: the request buffers. -/

set_option Elab.async false

namespace Sys2Proof.Machine
section
variable {s0 s : State} (h : Keeps s0 s)
include h
theorem keeps_placeMiss {ch r} : Keeps s0 (placeMiss s ch r) := by
  grind [placeMiss, keeps_modChan]
theorem keeps_dropReq {ch master tag} : Keeps s0 (dropReq s ch master tag) := by
  grind [dropReq, keeps_modChan]
end
end Sys2Proof.Machine
end

section
/-! PROOFS. The byte memories and the fuses are kept: caches and directories. -/

set_option Elab.async false

namespace Sys2Proof.Machine
section
variable {s0 s : State} (h : Keeps s0 s)
include h
theorem keeps_setCache {agent l} : Keeps s0 (setCache s agent l) := by
  grind [setCache, keeps_modHub, keeps_modEngine, keeps_modCore]
theorem keeps_sliceTouch {cls ch off dirty} : Keeps s0 (sliceTouch s cls ch off dirty) := by
  grind [sliceTouch, keeps_modHub, keeps_modChan]
theorem keeps_homeWrite {cls ch off data} : Keeps s0 (homeWrite s cls ch off data) := by
  grind [homeWrite, keeps_modChan, keeps_sliceTouch, keeps_writeLine]
theorem keeps_sliceError {ch off x3} : Keeps s0 (sliceError s ch off x3) := by
  unfold sliceError; grind [keeps_modChan]
theorem keeps_purgeLine {ch off} : Keeps s0 (purgeLine s ch off) := by
  have hc := coresOk_map (f := fun e : Nat × Core => (e.1, { e.2 with dc := cacheDrop e.2.dc ch off })) h.cores fun _ => rfl
  grind [purgeLine, keeps_modChan, keeps_modHub, keeps_mk, memOk_hbm, memOk_staging, fusesOk_sec]
theorem keeps_closeLine {ch off} : Keeps s0 (closeLine s ch off) := by
  grind [closeLine, keeps_modChan, keeps_purgeLine, sp_wiped]
theorem keeps_ncWriteLine {cls fa data} : Keeps s0 (ncWriteLine s cls fa data) := by
  grind [ncWriteLine, keeps_purgeLine, keeps_homeWrite]
theorem keeps_ncReadLine {cls fa} : Keeps s0 (ncReadLine s cls fa).1 := by
  grind [ncReadLine, keeps_sliceTouch]
theorem keeps_evictLine {agent v} : Keeps s0 (evictLine s agent v) := by
  grind [evictLine, keeps_modChan, keeps_setCache, keeps_homeWrite]
theorem keeps_fillCache {agent ch off mode data} : Keeps s0 (fillCache s agent ch off mode data) := by
  grind [fillCache, keeps_evictLine, keeps_setCache]
theorem keeps_nack {agent ch off kind data} : Keeps s0 (nack s agent ch off kind data) := by
  grind [nack, keeps_modChan]
theorem keeps_unNack {agent ch off} : Keeps s0 (unNack s agent ch off) := by
  grind [unNack, keeps_modChan]
theorem keeps_beginRecall {ch x2} : Keeps s0 (beginRecall s ch x2) := by
  grind [beginRecall, keeps_modChan]
theorem keeps_grantHome {agent ch off x4 mode} : Keeps s0 (grantHome s agent ch off x4 mode) := by
  grind [grantHome, keeps_modChan, keeps_sliceTouch, keeps_fillCache]
theorem keeps_grantOwned {agent ch off kind} : Keeps s0 (grantOwned s agent ch off kind) := by
  grind [grantOwned, keeps_modChan, keeps_grantHome, keeps_fillCache, keeps_drawFree]
theorem keeps_serveNcr {agent ch off} : Keeps s0 (serveNcr s agent ch off) := by
  grind [serveNcr, keeps_sliceTouch, keeps_unNack]
theorem keeps_serveUncached {agent ch off kind data} : Keeps s0 (serveUncached s agent ch off kind data) := by
  unfold serveUncached; grind [keeps_grantOwned, keeps_unNack, keeps_homeWrite, keeps_serveNcr]
theorem keeps_dirServe {agent ch off kind data} : Keeps s0 (dirServe s agent ch off kind data) := by
  grind [dirServe, keeps_beginRecall, keeps_modChan, keeps_grantOwned, keeps_nack, keeps_unNack, keeps_serveUncached, keeps_grantHome, keeps_serveNcr]
theorem keeps_dirRequest {agent ch off kind data} : Keeps s0 (dirRequest s agent ch off kind data) := by
  grind [dirRequest, keeps_dirServe, keeps_nack]
theorem keeps_serveOne {ch n} : Keeps s0 (serveOne ch s n) := by
  grind [serveOne, keeps_beginRecall, keeps_dirServe, keeps_modChan]
theorem keeps_serveReserved {ch} : Keeps s0 (serveReserved s ch) := by
  grind [serveReserved, keeps_serveOne, keeps_foldl]
theorem keeps_endInvalidating {ch x2} : Keeps s0 (endInvalidating s ch x2) := by
  grind [endInvalidating, keeps_modChan, keeps_grantOwned, keeps_serveReserved, keeps_homeWrite]
theorem keeps_leaveShared {ch x2} : Keeps s0 (leaveShared s ch x2) := by
  grind [leaveShared, keeps_modChan]
theorem keeps_endForwarding {ch x2 dirty} : Keeps s0 (endForwarding s ch x2 dirty) := by
  grind [endForwarding, keeps_modChan, keeps_grantOwned, keeps_serveReserved, keeps_fillCache, keeps_homeWrite, keeps_leaveShared]
theorem keeps_endRecall {ch x2} : Keeps s0 (endRecall s ch x2) := by
  grind [endRecall, keeps_modChan, keeps_serveReserved, keeps_homeWrite]
theorem keeps_ackFrom {ch off agent} : Keeps s0 (ackFrom s ch off agent) := by
  grind [ackFrom, keeps_modChan, keeps_endRecall, keeps_endInvalidating]
theorem keeps_dropLine {agent ch off} : Keeps s0 (dropLine s agent ch off) := by
  grind [dropLine, keeps_modChan, keeps_setCache, keeps_endRecall, keeps_endForwarding]
theorem keeps_invalidateLine {agent ch off} : Keeps s0 (invalidateLine s agent ch off) := by
  grind [invalidateLine, keeps_modChan, keeps_ackFrom, keeps_setCache, keeps_endForwarding]
theorem keeps_putLine {agent ch off} : Keeps s0 (putLine s agent ch off) := by
  unfold putLine; grind [keeps_modChan, keeps_setCache, keeps_homeWrite, keeps_endRecall, keeps_endForwarding]
theorem keeps_eachLine {f : State → CacheLine → State} {agent} (hf : ∀ t l, Keeps s0 t → Keeps s0 (f t l)) : Keeps s0 (eachLine f s agent) :=
  keeps_foldl h hf _
theorem keeps_cancelRequests {agent} : Keeps s0 (cancelRequests s agent) := by
  grind [cancelRequests, keeps_mk, coresOk_cores, memOk_hbm, memOk_staging, fusesOk_sec]
theorem keeps_killCache {agent} : Keeps s0 (killCache s agent) := by
  grind [killCache, keeps_eachLine, keeps_dropLine, keeps_invalidateLine, keeps_cancelRequests, keeps_setCache]
theorem keeps_flushCache {agent} : Keeps s0 (flushCache s agent) := by
  grind [flushCache, keeps_eachLine, keeps_putLine, keeps_invalidateLine]
theorem keeps_sweepChannel {agent ch} : Keeps s0 (sweepChannel agent s ch) := by
  grind [sweepChannel, keeps_modChan, keeps_setChan, keeps_ackFrom, keeps_endForwarding, keeps_foldl]
theorem keeps_sexton {agent} : Keeps s0 (sexton s agent) := by
  grind [sexton, keeps_modHub, keeps_sweepChannel, keeps_setCache, keeps_foldl]
end
end Sys2Proof.Machine
end

section
/-! PROOFS. The byte memories and the fuses are kept: walkers and translation caches. -/

set_option Elab.async false

namespace Sys2Proof.Machine
section
variable {s0 s : State} (h : Keeps s0 s)
include h
theorem keeps_setTc {agent l} : Keeps s0 (setTc s agent l) := by
  grind [setTc, keeps_modHub, keeps_modPort, keeps_modEngine, keeps_modCore]
theorem keeps_fillTc {agent x2} : Keeps s0 (fillTc s agent x2) := by
  grind [fillTc, keeps_setTc]
theorem keeps_readEntry {cls c va level} : Keeps s0 (readEntry cls c va s level) := by
  grind [readEntry, keeps_sliceTouch]
theorem keeps_walkTables {die cls colony va} : Keeps s0 (walkTables s die cls colony va) := by
  grind [walkTables, keeps_modMesh, keeps_readEntry, keeps_foldl]
theorem keeps_walkFor {agent cls colony va} : Keeps s0 (walkFor s agent cls colony va).1 := by
  grind [walkFor, keeps_walkTables]
theorem keeps_walkerParity {die colony va} : Keeps s0 (walkerParity s die colony va) := by
  grind [walkerParity, keeps_modMesh]
theorem keeps_rewalk {agent cls colony va acc} : Keeps s0 (rewalk s agent cls colony va acc) := by
  grind [rewalk, keeps_fillTc, keeps_walkTables, keeps_modMesh]
theorem keeps_noteWalk {agent cls colony va acc} : Keeps s0 (noteWalk s agent cls colony va acc) := by
  grind [noteWalk, keeps_fillTc, keeps_rewalk, keeps_walkFor]
theorem keeps_noteLines {agent cls colony acc va k} : Keeps s0 (noteLines agent cls colony acc s va k) := by
  induction k generalizing s va <;> grind [noteLines, keeps_sliceTouch, keeps_noteWalk]
theorem keeps_noteRead {c va len acc} : Keeps s0 (noteRead s c va len acc) := by
  grind [noteRead, keeps_noteLines]
end
end Sys2Proof.Machine
end

section
/-! PROOFS. The byte memories and the fuses are kept: units and their records. -/

set_option Elab.async false

namespace Sys2Proof.Machine
section
variable {s0 s : State} (h : Keeps s0 s)
include h
theorem keeps_leaveWaiters {agent} : Keeps s0 (leaveWaiters s agent) := by
  grind [leaveWaiters, keeps_mk, coresOk_cores, memOk_hbm, memOk_staging, fusesOk_sec]
theorem keeps_freeEngines {id} : Keeps s0 (freeEngines s id) := by
  grind [freeEngines, keeps_leaveWaiters, keeps_modEngine, keeps_killCache, keeps_foldl]
theorem keeps_finishReqs {l} : Keeps s0 (finishReqs s l) := by
  grind [finishReqs, keeps_inflightDec, keeps_foldl]
theorem keeps_drainReqs {p} : Keeps s0 (drainReqs s p) := by
  grind [drainReqs, keeps_mk, coresOk_cores, memOk_hbm, memOk_staging, fusesOk_sec]
theorem keeps_squashDrain {n p} : Keeps s0 (squashDrain s n p) := by
  grind [squashDrain, keeps_modPort, keeps_countStale, keeps_finishReqs, keeps_foldl]
theorem keeps_endReqs {id} : Keeps s0 (endReqs s id) := by
  grind [endReqs, keeps_leaveWaiters, keeps_finishReqs, keeps_mk, coresOk_cores, memOk_hbm, memOk_staging, fusesOk_sec, keeps_foldl]
theorem keeps_closeCmdRec {c} : Keeps s0 (closeCmdRec s c) := by
  grind [closeCmdRec, keeps_modRec]
theorem keeps_stampFin {id} : Keeps s0 (stampFin s id) := by
  grind [stampFin, keeps_modHub, keeps_modCmd]
theorem keeps_endOne {id status detail result} : Keeps s0 (endOne s id status detail result) := by
  grind [endOne, keeps_freeEngines, keeps_stampFin, keeps_setCmd, keeps_endReqs, keeps_closeCmdRec]
theorem keeps_endCmd {id status detail result} : Keeps s0 (endCmd s id status detail result) := by
  unfold endCmd
  repeat' split
  all_goals grind [keeps_endOne, keeps_modCmd]
theorem keeps_completeOk {id result} : Keeps s0 (completeOk s id result) := by
  grind [completeOk, keeps_endCmd, keeps_modCmd]
theorem keeps_refuseCmd {id status detail result} : Keeps s0 (refuseCmd s id status detail result) := by
  grind [refuseCmd, keeps_endCmd, keeps_modCmd]
theorem keeps_leaveTracker {id} : Keeps s0 (leaveTracker s id) := by
  grind [leaveTracker, keeps_mk, coresOk_cores, memOk_hbm, memOk_staging, fusesOk_sec]
theorem keeps_coreKill {n} : Keeps s0 (coreKill s n) := by
  unfold coreKill; grind [keeps_leaveWaiters, keeps_killCache, keeps_modCore, sp_advanceEpoch]
theorem keeps_chargeAttempt {id toColony} : Keeps s0 (chargeAttempt s id toColony) := by
  grind [chargeAttempt, keeps_setCmd, keeps_modAcct]
theorem keeps_noteOverrun {id} : Keeps s0 (noteOverrun s id) := by
  grind [noteOverrun, keeps_setCmd, keeps_modCol]
theorem keeps_failHeld {id status} : Keeps s0 (failHeld s id status) := by
  unfold failHeld; grind [keeps_leaveTracker, keeps_endOne, keeps_setCmd, keeps_modCmd]
theorem keeps_finishKill {id} : Keeps s0 (finishKill s id) := by
  grind [finishKill, keeps_endCmd, keeps_setCmd, keeps_closeCmdRec, keeps_mk, coresOk_cores, memOk_hbm, memOk_staging, fusesOk_sec]
theorem keeps_killAttempt {id after toColony} : Keeps s0 (killAttempt s id after toColony) := by
  unfold killAttempt
  split
  · exact h
  · have hr : ∀ x l, Keeps s0 (endReqs (freeEngines (List.foldl coreKill (chargeAttempt (noteOverrun
        (setCmd { s with signals := s.signals.filter (fun m => m.cmd != id) } id x) id) id toColony) l) id) id) := fun _ _ =>
      keeps_endReqs (keeps_freeEngines (keeps_foldl (keeps_chargeAttempt (keeps_noteOverrun (keeps_setCmd
        (keeps_mk h.cores h.hbm h.fuses h.staging)))) (fun _ _ ht => keeps_coreKill ht) _))
    grind [keeps_finishKill]
theorem keeps_abortCmd {id status} : Keeps s0 (abortCmd s id status) := by
  grind [abortCmd, keeps_endCmd, keeps_setCmd, keeps_killAttempt, keeps_failHeld]
theorem keeps_preempt {id} : Keeps s0 (preempt s id) := by
  grind [preempt, keeps_killAttempt]
theorem keeps_endJob {cols job except faultId} : Keeps s0 (endJob s cols job except faultId) := by
  grind [endJob, keeps_setCmd, keeps_abortCmd, keeps_foldl]
theorem keeps_raiseAbort {colony job status except faultId} : Keeps s0 (raiseAbort s colony job status except faultId) := by
  grind [raiseAbort, keeps_sendMsg, keeps_endJob, keeps_modCol, keeps_mk, coresOk_cores, memOk_hbm, memOk_staging, fusesOk_sec, keeps_foldl]
theorem keeps_faultCmd {id status rec rerunnable} : Keeps s0 (faultCmd s id status rec rerunnable) := by
  grind [faultCmd, keeps_endCmd, keeps_raiseAbort, keeps_setCmd, keeps_killAttempt, keeps_finishKill, keeps_modCmd]
theorem keeps_preemptMove {id} : Keeps s0 (preemptMove s id) := by
  grind [preemptMove, keeps_raiseAbort, keeps_preempt]
theorem keeps_commandFault {id cause status unit rank addr addrKind word rerunnable} : Keeps s0 (commandFault s id cause status unit rank addr addrKind word rerunnable) := by
  grind [commandFault, keeps_faultCmd, keeps_recordFault]
theorem keeps_diagLine {colony va data} : Keeps s0 (diagLine s colony va data) := by
  grind [diagLine, keeps_dirRequest]
theorem keeps_diagLines {colony va k d} : Keeps s0 (diagLines s colony va k d) := by
  induction k generalizing s va d <;> grind [diagLines, keeps_diagLine]
theorem keeps_diagWrite {colony rec kind rank core offsets data} : Keeps s0 (diagWrite s colony rec kind rank core offsets data) := by
  unfold diagWrite; grind [keeps_diagLine, keeps_modCol, keeps_modRec, keeps_diagLines]
theorem keeps_noteTransitFence {claim u} : Keeps s0 (noteTransitFence s claim u) := by
  unfold noteTransitFence; grind [keeps_modCmd]
theorem keeps_noteLost {colony rec rank core lost} : Keeps s0 (noteLost s colony rec rank core lost) := by
  unfold noteLost; grind [keeps_diagWrite, keeps_modRec]
theorem keeps_fenceCore {n status rec} : Keeps s0 (fenceCore s n status rec) := by
  unfold fenceCore
  extract_lets c lost sT s1 s2 s3 s4 s5
  have hT : Keeps s0 sT := by grind [keeps_modCmd]
  clear_value sT
  have h1 : Keeps s0 s1 := keeps_setCore (keeps_leaveWaiters hT) (memOk_coreAt h (n := n))
  clear_value s1
  have h4 : Keeps s0 s4 := keeps_noteTransitFence (keeps_noteLost (keeps_sexton h1))
  clear_value s4
  have h5 : Keeps s0 s5 := by grind [keeps_faultCmd]
  clear_value s5
  split
  · exact h
  · exact keeps_foldl h5 (fun t e ht => by grind [keeps_setCmd, keeps_finishKill]) _
theorem keeps_fenceChannel {n} : Keeps s0 (fenceChannel s n) := by
  grind [fenceChannel, keeps_noteTransitFence, keeps_setChan]
theorem keeps_endPortCmds {n status rec} : Keeps s0 (endPortCmds s n status rec) := by
  grind [endPortCmds, keeps_raiseAbort, keeps_setCmd, keeps_abortCmd, keeps_foldl]
theorem keeps_closeReqs {n status rec bonded} : Keeps s0 (closeReqs s n status rec bonded) := by
  grind [closeReqs, keeps_endPortCmds, keeps_modPort, keeps_squashDrain, keeps_finishReqs]
theorem keeps_zltEvent {event n detail} : Keeps s0 (zltEvent s event n detail) := by
  grind [zltEvent, keeps_raiseMsix, keeps_emit, keeps_mk, coresOk_cores, memOk_hbm, memOk_staging, fusesOk_sec]
theorem keeps_fencePortAs {n status rec detail} : Keeps s0 (fencePortAs s n status rec detail) := by
  grind [fencePortAs, keeps_zltEvent, keeps_modPort, keeps_noteTransitFence, keeps_closeReqs, keeps_resendBond]
theorem keeps_fencePort {n status rec} : Keeps s0 (fencePort s n status rec) := by
  grind [fencePort, keeps_fencePortAs]
theorem keeps_fenceEngine {n rec} : Keeps s0 (fenceEngine s n rec) := by
  unfold fenceEngine
  have hf := fun f => keeps_sexton (agent := 648 + n) (keeps_modEngine (f := f) (n := n) (keeps_leaveWaiters (agent := 648 + n) h))
  grind [keeps_noteLost, keeps_faultCmd, keeps_modCmd]
theorem keeps_failSlot {n} : Keeps s0 (failSlot s n) := by
  grind [failSlot, keeps_modSlot]
theorem keeps_deviceStop {cause} : Keeps s0 (deviceStop s cause) := by
  grind [deviceStop, keeps_emit, keeps_mk, coresOk_cores, memOk_hbm, memOk_staging, fusesOk_sec]
theorem keeps_deviceFault {cause unit} : Keeps s0 (deviceFault s cause unit) := by
  grind [deviceFault, keeps_deviceStop, keeps_recordFault]
theorem keeps_loseCtrl {n rec} : Keeps s0 (loseCtrl s n rec) := by
  have h1 := fun lost => keeps_noteLost (colony := 0) (rec := rec) (rank := 0) (core := 0) (lost := lost) (keeps_sexton (agent := 640 + n) (keeps_setCtrl (n := n) (c := .fenced) h))
  unfold loseCtrl
  grind [keeps_setCtrl, keeps_deviceFault, keeps_mk, coresOk_cores, memOk_hbm, memOk_staging, fusesOk_sec]
theorem keeps_quarantine {d rec} : Keeps s0 (quarantine s d rec) := by
  grind [quarantine, keeps_modDie, keeps_fencePort, keeps_fenceChannel, keeps_deviceFault, keeps_fenceCore, keeps_mk, coresOk_cores, memOk_hbm,
      memOk_staging, fusesOk_sec, keeps_foldl]
theorem keeps_fenceUnit {u status rec} : Keeps s0 (fenceUnit s u status rec) := by
  unfold fenceUnit; grind [keeps_fencePort, keeps_fenceChannel, keeps_fencedRecs, keeps_quarantine, keeps_loseCtrl, keeps_fenceCore,
      keeps_failSlot, keeps_fenceEngine, keeps_modRec]
theorem keeps_fenceFault {cause u colony status} : Keeps s0 (fenceFault s cause u colony status) := by
  grind [fenceFault, keeps_fenceUnit, keeps_recordFault]
end
end Sys2Proof.Machine
end

section
/-! PROOFS. The byte memories and the fuses are kept: issue, kills and faults of a core. -/

set_option Elab.async false

namespace Sys2Proof.Machine
section
variable {s0 s : State} (h : Keeps s0 s)
include h
theorem keeps_kernelFault {n cause status index w rerunnable} : Keeps s0 (kernelFault s n cause status index w rerunnable) := by
  grind [kernelFault, keeps_commandFault]
theorem keeps_illegal {n index w} : Keeps s0 (illegal s n index w) := by
  grind [illegal, keeps_kernelFault]
theorem keeps_accessFault {n index w} : Keeps s0 (accessFault s n index w) := by
  grind [accessFault, keeps_kernelFault]
theorem keeps_setErr {n i} : Keeps s0 (setErr s n i) := by
  grind [setErr, keeps_modCore]
theorem keeps_rangeFault {n index w} : Keeps s0 (rangeFault s n index w) := by
  grind [rangeFault, keeps_accessFault, keeps_setErr]
theorem keeps_retire {n c} (hc : MemOk s0 c.sp) : Keeps s0 (retire s n c) := by
  grind [retire, keeps_setCore, sp_retireTo]
theorem keeps_sramFault {n i acc injected index} : Keeps s0 (sramFault s n i acc injected index) := by
  grind [sramFault, keeps_fenceUnit, keeps_faultCmd, keeps_setErr, keeps_recordFault, keeps_syndrome, keeps_modCore]
theorem keeps_parityFault {n} : Keeps s0 (parityFault s n) := by
  grind [parityFault, keeps_sramFault]
theorem keeps_issueRow {n row w} {body : Core → State} (hb : Keeps s0 (body (coreAt s n))) : Keeps s0 (issueRow s n row w body) := by
  grind [issueRow, keeps_illegal, keeps_parityFault, keeps_retire, memOk_coreAt]
theorem keeps_issue {n op w} {body : Core → State} (hb : Keeps s0 (body (coreAt s n))) : Keeps s0 (issue s n op w body) :=
  keeps_issueRow h hb
theorem keeps_issueReg {n op w} {f : Core → Core} (hf : ∀ c, (f c).sp = c.sp) : Keeps s0 (issueReg s n op w f) := by
  grind [issueReg, keeps_issue, keeps_retire, memOk_coreAt]
theorem keeps_spRead {n off x3 index} : Keeps s0 (spRead s n off x3 index).1 := by
  unfold spRead; grind [keeps_disarm, keeps_sramFault, keeps_modCore, sp_markBank, sp_spCorrectable]
theorem keeps_enqueueMatrix {n c q} (hc : MemOk s0 c.sp) : Keeps s0 (enqueueMatrix s n c q) := by
  grind [enqueueMatrix, keeps_retire, memOk_coreAt]
theorem keeps_enqueueVector {n c q} (hc : MemOk s0 c.sp) : Keeps s0 (enqueueVector s n c q) := by
  grind [enqueueVector, keeps_retire, memOk_coreAt]
end
end Sys2Proof.Machine
end

section
/-! PROOFS. The byte memories and the fuses are kept: scratchpad access. -/

set_option Elab.async false

namespace Sys2Proof.Machine
section
variable {s0 s : State} (h : Keeps s0 s)
include h
theorem keeps_checkRead {fa} : Keeps s0 (checkRead s fa).1 := by
  grind [checkRead, keeps_disarm]
theorem keeps_lineRecord {ch colony dpa cmd rank word p injected} : Keeps s0 (lineRecord s ch colony dpa cmd rank word p injected).1 := by
  unfold lineRecord; grind [keeps_setChan, keeps_recordFault, keeps_syndrome]
theorem keeps_lineFault {id ch dpa rank word p injected} : Keeps s0 (lineFault s id ch dpa rank word p injected) := by
  grind [lineFault, keeps_lineRecord, keeps_faultCmd]
theorem keeps_bindShadow {id p sh t} (ht : bindShadow s id p = some (sh, t)) : Keeps s0 t := by
  grind [bindShadow, keeps_setCmd]
theorem keeps_ownFault {id colony o unit rank index word} : Keeps s0 (ownFault s id colony o unit rank index word) := by
  unfold ownFault; grind [keeps_preempt, keeps_commandFault, keeps_countStale]
theorem keeps_bonorFault {id cause status detail} : Keeps s0 (bonorFault s id cause status detail) := by
  grind [bonorFault, keeps_endCmd, keeps_raiseAbort, keeps_modCmd, keeps_recordFault]
theorem keeps_vaFault {id x2} : Keeps s0 (vaFault s id x2) := by
  unfold vaFault; grind [keeps_bonorFault, keeps_lineFault]
end
end Sys2Proof.Machine
end

section
/-! PROOFS. The byte memories and the fuses are kept: rings. -/

set_option Elab.async false

namespace Sys2Proof.Machine
section
variable {s0 s : State} (h : Keeps s0 s)
include h
theorem keeps_noticeRing {page ring} : Keeps s0 (noticeRing s page ring) := by
  grind [noticeRing, keeps_modHub]
theorem keeps_execSqDoorbell {fn page ring value} : KeepsNext s0 (execSqDoorbell fn page ring value s) := by
  grind [execSqDoorbell, keeps_setSq, keeps_noticeRing, keepsNext_next]
theorem keeps_execSqEnable {fn page ring value} : KeepsNext s0 (execSqEnable fn page ring value s) := by
  grind [execSqEnable, keeps_setSq, keepsNext_next]
theorem keeps_execCqEnable {fn page ring value} : KeepsNext s0 (execCqEnable fn page ring value s) := by
  grind [execCqEnable, keeps_setCq, keepsNext_next]
theorem keeps_execResume {fn page ring value} : KeepsNext s0 (execResume fn page ring value s) := by
  grind [execResume, keeps_setSq, keeps_noticeRing, keepsNext_next]
theorem keeps_execCqHeadWrite {fn page ring value} : KeepsNext s0 (execCqHeadWrite fn page ring value s) := by
  grind [execCqHeadWrite, keeps_setCq, keepsNext_next]
theorem keeps_changeSync {page n v} : Keeps s0 (changeSync s page n v) := by
  grind [changeSync, keeps_setSync, keeps_completeOk, keeps_foldl]
theorem keeps_execSyncCounterAccess {fn page n value} : KeepsNext s0 (execSyncCounterAccess fn page n value s) := by
  grind [execSyncCounterAccess, keeps_changeSync, keepsNext_next]
end
end Sys2Proof.Machine
end

section
/-! PROOFS. The byte memories and the fuses are kept: fetch and the tracker. -/

set_option Elab.async false

namespace Sys2Proof.Machine
section
variable {s0 s : State} (h : Keeps s0 s)
include h
theorem keeps_noteFetch {page ring} : Keeps s0 (noteFetch s page ring) := by
  grind [noteFetch, keeps_modHub]
theorem keeps_logAer {kind} : Keeps s0 (logAer s kind) := by
  grind [logAer, keeps_mk, coresOk_cores, memOk_hbm, memOk_staging, fusesOk_sec]
theorem keeps_sealAtFetch {id} : Keeps s0 (sealAtFetch s id) := by
  grind [sealAtFetch, keeps_setCmd, keeps_modCol]
theorem keeps_takeAtFetch {id c} : Keeps s0 (takeAtFetch s id c) := by
  grind [takeAtFetch, keeps_modCmd]
theorem keeps_countFetch {c} : Keeps s0 (countFetch s c) := by
  grind [countFetch, keeps_modAcct, keeps_noteRead]
theorem keeps_execPacketFetch {page ring slot ind} : KeepsNext s0 (execPacketFetch page ring slot ind s) := by
  unfold execPacketFetch
  dsimp only
  split
  · exact keepsNext_next.2 h
  · split
    · grind [keeps_setSq, keeps_logAer, keepsNext_next]
    · next raw _ =>
      have h1 := fun x => keeps_countFetch (c := x) (keeps_noteFetch (page := page) (ring := ring) (keeps_setSq (page := page) (ring := ring) (r := { sqAt s page ring with head := ((sqAt s page ring).head + 1) % ringSlots (sqAt s page ring).log2n }) h))
      split
      · exact keepsNext_next.2 h
      · generalize hs1 : countFetch _ _ = s1
        have h2 : ∀ x, Keeps s0 { s1 with cmds := tset s1.cmds s1.nextCmd x, nextCmd := s1.nextCmd + 1 } := by
          subst hs1; exact fun x => keeps_mk (h1 _).cores (h1 _).hbm (h1 _).fuses (h1 _).staging
        split
        · grind [keeps_bonorFault, keeps_endCmd, keepsNext_next]
        · grind [keeps_endCmd, keeps_takeAtFetch, keeps_sealAtFetch, keepsNext_next]
end
end Sys2Proof.Machine
end

section
/-! PROOFS. The byte memories and the fuses are kept: turns and attempts. -/

set_option Elab.async false

namespace Sys2Proof.Machine
section
variable {s0 s : State} (h : Keeps s0 s)
include h
theorem keeps_direct {id op} {body : Cmd → State} (hb : ∀ c, Keeps s0 (body c)) : Keeps s0 (direct s id op body) := by
  grind [direct]
theorem keeps_directOrWaiting {id op} {body : Cmd → State} (hb : ∀ c, Keeps s0 (body c)) : Keeps s0 (directOrWaiting s id op body) := by
  grind [directOrWaiting]
theorem keeps_waitIn {id} : Keeps s0 (waitIn s id) := by
  grind [waitIn, keeps_modCmd]
theorem keeps_giveBack {colony fs} : Keeps s0 (giveBack s colony fs) := by
  grind [giveBack, keeps_modCol, keeps_foldl]
theorem keeps_forgetPage {colony dpa size} : Keeps s0 (forgetPage s colony dpa size) := by
  grind [forgetPage, keeps_filterWalkers, keeps_filterTcs]
theorem keeps_recallFrame {frame size} : Keeps s0 (recallFrame s frame size) := by
  grind [recallFrame, keeps_closeLine, keeps_foldl]
theorem keeps_exchange {id colony sh} : Keeps s0 (exchange s id colony sh) := by
  grind [exchange, keeps_forgetPage, keeps_recallFrame, keeps_modCmd, keeps_modCol, keeps_foldl]
theorem keeps_exchangeAll {id} : Keeps s0 (exchangeAll s id) := by
  grind [exchangeAll, keeps_exchange, keeps_modCmd, keeps_foldl]
theorem keeps_execNopCommand {cmd} : KeepsNext s0 (execNopCommand cmd s) := by
  grind [execNopCommand, keeps_completeOk, keeps_direct, keepsNext_next]
theorem keeps_execFence {cmd} : KeepsNext s0 (execFence cmd s) := by
  grind [execFence, keeps_completeOk, keeps_waitIn, keeps_directOrWaiting, keepsNext_next]
theorem keeps_hostOut {page colony addr data} : Keeps s0 (hostOut s page colony addr data) := by
  grind [hostOut, keeps_modAcct, keeps_emit]
theorem keeps_hostPut {id page colony addr data} : Keeps s0 (hostPut s id page colony addr data) := by
  grind [hostPut, keeps_emit, keeps_countFor]
theorem keeps_reserved {id c} {body : State → State} (hb : ∀ t, Keeps s0 t → Keeps s0 (body t)) : Keeps s0 (reserved s id c body) := by
  grind [reserved, keeps_bonorFault, keeps_setCol, keeps_modCmd, keeps_refuseCmd]
theorem keeps_shadowWrite {id va data} : Keeps s0 (shadowWrite s id va data) := by
  unfold shadowWrite; grind [keeps_bindShadow, keeps_ncWriteLine]
theorem keeps_shadowWriteAll {id va k d} : Keeps s0 (shadowWriteAll s id va k d) := by
  induction k generalizing s va d <;> grind [shadowWriteAll, keeps_shadowWrite]
theorem keeps_writeReport {id c off data result} : Keeps s0 (writeReport s id c off data result) := by
  grind [writeReport, keeps_reserved, keeps_completeOk, keeps_shadowWriteAll, keeps_hostOut, keeps_modCmd]
theorem keeps_srcRead {c off len host t b} (ht : srcRead s c off len host = .ok (t, b)) : Keeps s0 t := by
  unfold srcRead at ht
  grind [keeps_modAcct, keeps_noteRead]
theorem keeps_execSignal {cmd} : KeepsNext s0 (execSignal cmd s) := by
  unfold execSignal; grind [keeps_reserved, keeps_vaFault, keeps_completeOk, keeps_changeSync, keeps_noteRead, keeps_hostOut, keeps_modCmd,
      keeps_direct, keeps_shadowWrite, keepsNext_next]
theorem keeps_execWaitCommand {cmd} : KeepsNext s0 (execWaitCommand cmd s) := by
  grind [execWaitCommand, keeps_completeOk, keeps_waitIn, keeps_direct, keepsNext_next]
theorem keeps_execWaitTimeout {cmd} : KeepsNext s0 (execWaitTimeout cmd s) := by
  grind [execWaitTimeout, keeps_refuseCmd, keepsNext_next]
theorem keeps_afterRecord {id} : Keeps s0 (afterRecord s id) := by
  grind [afterRecord, keeps_setCmd, keeps_mk, coresOk_cores, memOk_hbm, memOk_staging, fusesOk_sec]
theorem keeps_dropRecord {colony} : Keeps s0 (dropRecord s colony) := by
  grind [dropRecord, keeps_recordFault]
theorem keeps_countDropped {page} : Keeps s0 (countDropped s page) := by
  grind [countDropped, keeps_modCol]
theorem keeps_dropDisabled {id c} : Keeps s0 (dropDisabled s id c) := by
  grind [dropDisabled, keeps_afterRecord, keeps_countDropped, keeps_dropRecord]
theorem keeps_sendRecord {id c} : Keeps s0 (sendRecord s id c) := by
  grind [sendRecord, keeps_modHub, keeps_raiseMsix, keeps_setCq, keeps_setSq, keeps_afterRecord, keeps_modAcct, keeps_hostOut]
theorem keeps_execCompletionRecordWrite {cmd} : KeepsNext s0 (execCompletionRecordWrite cmd s) := by
  grind [execCompletionRecordWrite, keeps_sendRecord, keeps_dropDisabled, keepsNext_next]
theorem keeps_claimTarget {id t} : Keeps s0 (claimTarget s id t) := by
  grind [claimTarget, keeps_modCmd, keeps_waitIn]
theorem keeps_execCommit {cmd} : KeepsNext s0 (execCommit cmd s) := by
  grind [execCommit, keeps_claimTarget, keeps_modCmd, keeps_directOrWaiting, keeps_refuseCmd, keepsNext_next]
theorem keeps_discardHeld {t} : Keeps s0 (discardHeld s t) := by
  grind [discardHeld, keeps_leaveTracker, keeps_modCmd]
theorem keeps_disposeFailed {t by_} : Keeps s0 (disposeFailed s t by_) := by
  grind [disposeFailed, keeps_setCmd, keeps_mk, coresOk_cores, memOk_hbm, memOk_staging, fusesOk_sec]
theorem keeps_execAbandon {cmd} : KeepsNext s0 (execAbandon cmd s) := by
  unfold execAbandon; grind [keeps_claimTarget, keeps_completeOk, keeps_discardHeld, keeps_modCmd, keeps_disposeFailed, keeps_directOrWaiting,
      keeps_refuseCmd, keeps_abortCmd, keepsNext_next]
end
end Sys2Proof.Machine
end

section
/-! PROOFS. The byte memories and the fuses are kept: the colony map. -/

set_option Elab.async false

namespace Sys2Proof.Machine
section
variable {s0 s : State} (h : Keeps s0 s)
include h
theorem keeps_flushTcs {colony} : Keeps s0 (flushTcs s colony) := by
  grind [flushTcs, keeps_filterTcs]
theorem keeps_sendRetire {colony value cmd} : Keeps s0 (sendRetire s colony value cmd) := by
  grind [sendRetire, keeps_sendMsg, keeps_foldl]
theorem keeps_retireDue {colony} : Keeps s0 (retireDue s colony) := by
  grind [retireDue, keeps_sendRetire, keeps_modCol]
theorem keeps_switchCores {colony} : Keeps s0 (switchCores s colony) :=
  keeps_mk (coresOk_map h.cores fun _ => by grind) h.hbm h.fuses h.staging
theorem keeps_mapUpdate {colony mayMerge cores channels ports} : Keeps s0 (mapUpdate s colony mayMerge cores channels ports) := by
  grind [mapUpdate, keeps_retireDue, keeps_flushTcs, keeps_modCol, keeps_switchCores]
theorem keeps_wipeFault {n cause status} : Keeps s0 (wipeFault s n cause status) := by
  grind [wipeFault, keeps_fenceUnit, keeps_fenceFault, keeps_mergeInto]
theorem keeps_wipeCore {n} : Keeps s0 (wipeCore s n) := by
  grind [wipeCore, keeps_setCore, keeps_killCache, keeps_wipeFault, memOk_nil, sp_wiped, sp_repairBanks]
theorem keeps_bindCore {n colony} : Keeps s0 (bindCore s n colony) := by
  grind [bindCore, keeps_modCore]
theorem keeps_freeCore {n} : Keeps s0 (freeCore s n) := by
  grind [freeCore, keeps_modCore]
theorem keeps_composed {c} : Keeps s0 (composed s c) := by
  grind [composed, keeps_modCol]
theorem keeps_dropClaims {id} : Keeps s0 (dropClaims s id) :=
  keeps_mk (coresOk_map h.cores fun _ => by grind) h.hbm h.fuses h.staging
theorem keeps_breakClaim {n} : Keeps s0 (breakClaim s n) := by
  grind [breakClaim, keeps_composed, keeps_dropClaims, keeps_refuseCmd]
theorem keeps_bringHome {u d ns} : Keeps s0 (bringHome s u d ns) := by
  grind [bringHome, keeps_breakClaim, keeps_mapUpdate, keeps_bindCore, keeps_wipeCore, keeps_foldl, sp_wiped]
theorem keeps_keep {id need ns} : Keeps s0 (keep s id need ns) := by
  grind [keep, keeps_modCore, keeps_foldl]
theorem keeps_reclaimKills {u id need l} : Keeps s0 (reclaimKills s u id need l) := by
  induction l generalizing s <;> grind [reclaimKills, keeps_preempt, keeps_keep]
theorem keeps_returnKept {u id} : Keeps s0 (returnKept s u id) := by
  grind [returnKept, keeps_bringHome, keeps_foldl]
theorem keeps_reclaim {u id need} : Keeps s0 (reclaim s u id need) :=
  keeps_returnKept (keeps_keep (keeps_reclaimKills (keeps_keep (keeps_keep (keeps_keep h)))))
end
end Sys2Proof.Machine
end

section
/-! PROOFS. The byte memories and the fuses are kept: LAUNCH, commit and publish. -/

set_option Elab.async false

namespace Sys2Proof.Machine
section
variable {s0 s : State} (h : Keeps s0 s)
include h
theorem keeps_settleTurn {colony} : Keeps s0 (settleTurn s colony) := by
  grind [settleTurn, keeps_modCol]
theorem keeps_execLaunch {cmd} : KeepsNext s0 (execLaunch cmd s) := by
  refine keepsNext_next.2 (keeps_direct h fun c => ?_)
  repeat' split
  all_goals grind [keeps_endCmd, keeps_vaFault, keeps_setCmd, keeps_noteRead, keeps_settleTurn, keeps_setCol]
theorem keeps_startCores {id c n code} : Keeps s0 (startCores s id c n code) := by
  unfold startCores; grind [keeps_setCmd, keeps_settleTurn, keeps_modCore, keeps_mk, coresOk_cores, memOk_hbm, memOk_staging, fusesOk_sec,
      keeps_foldl, sp_armCore]
theorem keeps_execAttemptStart {cmd} : KeepsNext s0 (execAttemptStart cmd s) := by
  unfold execAttemptStart
  repeat' split
  all_goals grind [keeps_bonorFault, keeps_endCmd, keeps_reclaim, keeps_vaFault, keeps_startCores, keeps_noteRead, keepsNext_next]
theorem keeps_execCoreReturnBound {core} : KeepsNext s0 (execCoreReturnBound core s) := by
  unfold execCoreReturnBound; grind [keeps_setCmd, keeps_setCore, memOk_coreAt, keepsNext_next, sp_foldFlags]
theorem keeps_abandonAtEnd {id c t} (ht : abandonAtEnd s id c = some t) : Keeps s0 t := by
  grind [abandonAtEnd, keeps_endCmd]
theorem keeps_execAttemptEnd {cmd} : KeepsNext s0 (execAttemptEnd cmd s) := by
  have h1 := keeps_chargeAttempt (id := cmd) (toColony := true) (keeps_noteOverrun (id := cmd) h)
  unfold execAttemptEnd
  grind [→ keeps_abandonAtEnd, keeps_stampFin, keeps_settleTurn, keeps_modCmd, keepsNext_next]
theorem keeps_countMerge {ch} : Keeps s0 (countMerge s ch) := by
  grind [countMerge, keeps_modChan]
theorem keeps_mergePage {col cls sh} : Keeps s0 (mergePage s col cls sh) := by
  grind [mergePage, keeps_countMerge, keeps_homeWrite, keeps_foldl]
theorem keeps_failCommit {id ch dpa p} : Keeps s0 (failCommit s id ch dpa p) := by
  grind [failCommit, keeps_lineRecord, keeps_failHeld, keeps_lineFault]
theorem keeps_execCommitMergeCopy {cmd report tagOk} : KeepsNext s0 (execCommitMergeCopy cmd report tagOk s) := by
  unfold execCommitMergeCopy
  repeat' split
  all_goals grind [keeps_failCommit, keeps_modAcct, keeps_modCmd, keeps_mergePage, keeps_foldl, keepsNext_next]
theorem keeps_publishSignal {id c} : Keeps s0 (publishSignal s id c) := by
  unfold publishSignal; grind [keeps_changeSync, keeps_modCmd, keeps_bindShadow, keeps_ncWriteLine]
theorem keeps_endPublish {id} : Keeps s0 (endPublish s id) := by
  grind [endPublish, keeps_leaveTracker, keeps_endOne, keeps_completeOk, keeps_setCmd]
theorem keeps_setHandoff {i x2} : Keeps s0 (setHandoff s i x2) := by
  grind [setHandoff, keeps_mk, coresOk_cores, memOk_hbm, memOk_staging, fusesOk_sec]
theorem keeps_handedOver {c} : Keeps s0 (handedOver s c) := by
  grind [handedOver, keeps_sendMsg, keeps_setHandoff]
theorem keeps_execPublish {cmd} : KeepsNext s0 (execPublish cmd s) := by
  grind [execPublish, keeps_exchangeAll, keeps_endCmd, keeps_endPublish, keeps_handedOver, keeps_publishSignal, keepsNext_next]
theorem keeps_execShadowFrameReturn {cmd} : KeepsNext s0 (execShadowFrameReturn cmd s) := by
  grind [execShadowFrameReturn, keeps_leaveTracker, keeps_setCmd, keeps_giveBack, keepsNext_next]
theorem keeps_nextTurn {colony l} : Keeps s0 (nextTurn s colony l) := by
  induction l generalizing s <;> grind [nextTurn, keeps_modCol]
theorem keeps_endTurn {colony ring} : Keeps s0 (endTurn s colony ring) := by
  grind [endTurn, keeps_preempt, keeps_setCmd, keeps_foldl]
theorem keeps_execTimeSliceEnd {colony} : KeepsNext s0 (execTimeSliceEnd colony s) := by
  grind [execTimeSliceEnd, keeps_endTurn, keeps_nextTurn, keeps_modCol, keepsNext_next]
theorem keeps_execNplimitReached {cmd} : KeepsNext s0 (execNplimitReached cmd s) := by
  grind [execNplimitReached, keeps_killAttempt, keepsNext_next]
end
end Sys2Proof.Machine
end

section
/-! PROOFS. The byte memories and the fuses are kept: translation. -/

set_option Elab.async false

namespace Sys2Proof.Machine
section
variable {s0 s : State} (h : Keeps s0 s)
include h
theorem keeps_clearWant {agent va} : Keeps s0 (clearWant s agent va) := by
  grind [clearWant, keeps_modPort, keeps_modEngine, keeps_modCore]
theorem keeps_stallBare {agent colony} : Keeps s0 (stallBare s agent colony) := by
  grind [stallBare, keeps_modCol]
theorem keeps_newXlt {agent colony va access cmd} : Keeps s0 (newXlt s agent colony va access cmd) := by
  unfold newXlt; grind [keeps_raiseMsix, keeps_modCol, keeps_recordFault]
theorem keeps_xltFault {agent colony va access} : Keeps s0 (xltFault s agent colony va access) := by
  grind [xltFault, keeps_newXlt, keeps_faultCmd, keeps_modCol, keeps_modRec, keeps_stallBare]
theorem keeps_unstall {agent colony} : Keeps s0 (unstall s agent colony) := by
  grind [unstall, keeps_modCol]
theorem keeps_walkAgent {agent cls colony va} : Keeps s0 (walkAgent s agent cls colony va).1 := by
  grind [walkAgent, keeps_fillTc, keeps_walkFor, keeps_unstall, keeps_clearWant]
theorem keeps_execTranslationWalk {agent colony va access parity} : KeepsNext s0 (execTranslationWalk agent colony va access parity s) := by
  grind [execTranslationWalk, keeps_walkAgent, keeps_walkerParity, keeps_xltFault, keepsNext_next]
theorem keeps_closeXlt {i fin status} : Keeps s0 (closeXlt s i fin status) := by
  grind [closeXlt, keeps_modRec]
theorem keeps_rejectXlt {i fin} : Keeps s0 (rejectXlt s i fin) := by
  grind [rejectXlt, keeps_faultCmd, keeps_closeXlt, keeps_foldl]
theorem keeps_execTranslationRecordTimeout {record} : KeepsNext s0 (execTranslationRecordTimeout record s) := by
  grind [execTranslationRecordTimeout, keeps_rejectXlt, keepsNext_next]
theorem keeps_resolveXlt {colony} : Keeps s0 (resolveXlt s colony) := by
  grind [resolveXlt, keeps_closeXlt, keeps_foldl]
theorem keeps_writeEntries {colony size l} : Keeps s0 (writeEntries s colony size l) := by
  grind [writeEntries, keeps_sliceTouch, keeps_foldl]
theorem keeps_forgetTables {colony} : Keeps s0 (forgetTables s colony) := by
  grind [forgetTables, keeps_filterWalkers]
theorem keeps_withdraw {id colony size l} : Keeps s0 (withdraw s id colony size l) := by
  unfold withdraw; grind [keeps_forgetPage, keeps_writeEntries, keeps_forgetTables, keeps_setCol, keeps_modCmd, keeps_foldl]
theorem keeps_applyEntries {colony size l} : Keeps s0 (applyEntries s colony size l) := by
  grind [applyEntries, keeps_resolveXlt, keeps_writeEntries, keeps_modCol, keeps_foldl]
theorem keeps_flipEpoch {id colony} : Keeps s0 (flipEpoch s id colony) := by
  grind [flipEpoch, keeps_modCmd, keeps_modCol]
theorem keeps_changeEntries {id c l wd} : Keeps s0 (changeEntries s id c l wd) := by
  grind [changeEntries, keeps_flipEpoch, keeps_completeOk, keeps_modCmd, keeps_waitIn, keeps_applyEntries, keeps_withdraw]
theorem keeps_withFrames {id c l} {go : State → State} (hg : ∀ t, Keeps s0 t → Keeps s0 (go t)) : Keeps s0 (withFrames s id c l go) := by
  grind [withFrames, keeps_foldl, keeps_setCol, keeps_modCmd, keeps_waitIn, keeps_refuseCmd]
theorem keeps_takeEntries {id c l} : Keeps s0 (takeEntries s id c l) := by
  grind [takeEntries, keeps_setCmd, keeps_modCmd, keeps_waitIn, keeps_withFrames, keeps_changeEntries]
theorem keeps_wdStage {id c} {first : State} (hf : Keeps s0 first) : Keeps s0 (wdStage s id c first) := by
  grind [wdStage, keeps_flipEpoch]
theorem keeps_execMap {cmd} : KeepsNext s0 (execMap cmd s) := by
  grind [execMap, keeps_wdStage, keeps_takeEntries, keeps_directOrWaiting, keeps_refuseCmd, keepsNext_next]
theorem keeps_execUnmap {cmd} : KeepsNext s0 (execUnmap cmd s) := by
  grind [execUnmap, keeps_wdStage, keeps_waitIn, keeps_directOrWaiting, keeps_changeEntries, keeps_rejectXlt, keeps_foldl, keepsNext_next]
theorem keeps_syncEntries {cmd c bytes} : Keeps s0 (syncEntries s cmd c bytes) := by
  grind [syncEntries, keeps_takeEntries, keeps_refuseCmd]
theorem keeps_execSyncTable {cmd src} : KeepsNext s0 (execSyncTable cmd src s) := by
  grind [execSyncTable, keeps_wdStage, keeps_srcRead, keeps_vaFault, keeps_setCmd, keeps_syncEntries, keeps_directOrWaiting, keepsNext_next]
theorem keeps_execWithdrawalDrainEnd {cmd} : KeepsNext s0 (execWithdrawalDrainEnd cmd s) := by
  grind [execWithdrawalDrainEnd, keeps_completeOk, keeps_modCol, keeps_applyEntries, keepsNext_next]
theorem keeps_moveFrame {colony dpa a} : Keeps s0 (moveFrame s colony dpa a) := by
  grind [moveFrame, keeps_forgetPage, keeps_recallFrame, keeps_setCol, keeps_homeWrite, keeps_modCol, keeps_foldl]
theorem keeps_execCompaction {colony dpa} : KeepsNext s0 (execCompaction colony dpa s) := by
  grind [execCompaction, keeps_moveFrame, keepsNext_next]
end
end Sys2Proof.Machine
end

section
/-! PROOFS. The byte memories and the fuses are kept: data movement. -/

set_option Elab.async false

namespace Sys2Proof.Machine
section
variable {s0 s : State} (h : Keeps s0 s)
include h
theorem keeps_startMove {id c} : Keeps s0 (startMove s id c) := by
  grind [startMove, keeps_setCmd, keeps_setCol, keeps_modEngine, keeps_refuseCmd, keeps_foldl]
theorem keeps_execCopy {cmd} : KeepsNext s0 (execCopy cmd s) := by
  grind [execCopy, keeps_direct, keeps_startMove, keepsNext_next]
theorem keeps_execFill {cmd} : KeepsNext s0 (execFill cmd s) := by
  grind [execFill, keeps_direct, keeps_startMove, keepsNext_next]
theorem keeps_execLoadSealed {cmd} : KeepsNext s0 (execLoadSealed cmd s) := by
  grind [execLoadSealed, keeps_bonorFault, keeps_direct, keeps_refuseCmd, keeps_startMove, keepsNext_next]
theorem keeps_execStoreSealed {cmd iv} : KeepsNext s0 (execStoreSealed cmd iv s) := by
  grind [execStoreSealed, keeps_bonorFault, keeps_modSlot, keeps_direct, keeps_refuseCmd, keeps_startMove, keepsNext_next]
theorem keeps_engOwn {id x2 colony va o} : Keeps s0 (engOwn s id x2 colony va o) := by
  unfold engOwn; grind [keeps_preempt, keeps_commandFault, keeps_countStale]
theorem keeps_engTake {x1 id c x dpa fa kind} : Keeps s0 (engTake s x1 id c x dpa fa kind).state := by
  grind [engTake, keeps_dirRequest, keeps_checkRead, keeps_lineFault, keeps_sliceError, Got.state]
theorem keeps_engTake_stop {x1 id c x dpa fa kind t} (e : engTake s x1 id c x dpa fa kind = .stop t) : Keeps s0 t := keeps_of_stop (keeps_engTake h) e
theorem keeps_engTake_data {x1 id c x dpa fa kind t d} (e : engTake s x1 id c x dpa fa kind = .data t d) : Keeps s0 t := keeps_of_data (keeps_engTake h) e
theorem keeps_engLine {x1 id c x va} : Keeps s0 (engLine s x1 id c x va).state := by
  grind [engLine, keeps_rewalk, keeps_commandFault, keeps_engOwn, keeps_modEngine, keeps_engTake, → keeps_engTake_stop, → keeps_engTake_data,
      Got.state]
theorem keeps_engLine_stop {x1 id c x va t} (e : engLine s x1 id c x va = .stop t) : Keeps s0 t := keeps_of_stop (keeps_engLine h) e
theorem keeps_engLine_data {x1 id c x va t d} (e : engLine s x1 id c x va = .data t d) : Keeps s0 t := keeps_of_data (keeps_engLine h) e
theorem keeps_engRead {x1 id c x va len} : Keeps s0 (engRead s x1 id c x va len).state := by
  unfold engRead
  repeat' split
  all_goals grind [keeps_engLine, → keeps_engLine_stop, → keeps_engLine_data, Got.state]
theorem keeps_engRead_stop {x1 id c x va len t} (e : engRead s x1 id c x va len = .stop t) : Keeps s0 t := keeps_of_stop (keeps_engRead h) e
theorem keeps_engRead_data {x1 id c x va len t d} (e : engRead s x1 id c x va len = .data t d) : Keeps s0 t := keeps_of_data (keeps_engRead h) e
theorem keeps_engStore {x1 ch off line} : Keeps s0 (engStore s x1 ch off line) := by
  grind [engStore, keeps_modEngine]
theorem keeps_engPut {x1 id c x va whole line} : Keeps s0 (engPut s x1 id c x va whole line).state := by
  unfold engPut
  extract_lets col sR
  have hR : Keeps s0 sR := keeps_rewalk h
  clear_value sR
  split
  · rw [Got.state]; exact keeps_modEngine h
  · rw [Got.state]; exact keeps_commandFault hR
  · split
    · split
      · exact h
      · next hb =>
        have hs1 := keeps_bindShadow hR hb
        extract_lets fa
        split
        · rw [Got.state]; exact keeps_faultCmd hs1
        · split
          · next ht => exact keeps_engTake_stop hs1 ht
          · next ht => rw [Got.state]; exact keeps_engStore (keeps_engTake_data hs1 ht)
    · rw [Got.state]; exact keeps_engOwn hR
theorem keeps_engPut_stop {x1 id c x va whole line t} (e : engPut s x1 id c x va whole line = .stop t) : Keeps s0 t := keeps_of_stop (keeps_engPut h) e
theorem keeps_engPut_data {x1 id c x va whole line t d} (e : engPut s x1 id c x va whole line = .data t d) : Keeps s0 t := keeps_of_data (keeps_engPut h) e
theorem keeps_engWrite {x1 id c x va bs} : Keeps s0 (engWrite s x1 id c x va bs).state := by
  unfold engWrite
  repeat' split
  all_goals grind [keeps_engPut, → keeps_engPut_stop, → keeps_engPut_data, Got.state]
theorem keeps_engWrite_stop {x1 id c x va bs t} (e : engWrite s x1 id c x va bs = .stop t) : Keeps s0 t := keeps_of_stop (keeps_engWrite h) e
theorem keeps_engWrite_data {x1 id c x va bs t d} (e : engWrite s x1 id c x va bs = .data t d) : Keeps s0 t := keeps_of_data (keeps_engWrite h) e
theorem keeps_sourceUnit {x1 id c x off plus len host} : Keeps s0 (sourceUnit s x1 id c x off plus len host).state := by
  unfold sourceUnit; grind [keeps_engRead, → keeps_engRead_stop, → keeps_engRead_data, Got.state]
theorem keeps_sourceUnit_stop {x1 id c x off plus len host t} (e : sourceUnit s x1 id c x off plus len host = .stop t) : Keeps s0 t := keeps_of_stop (keeps_sourceUnit h) e
theorem keeps_sourceUnit_data {x1 id c x off plus len host t d} (e : sourceUnit s x1 id c x off plus len host = .data t d) : Keeps s0 t := keeps_of_data (keeps_sourceUnit h) e
theorem keeps_destUnit {x1 id c x off plus bs} : Keeps s0 (destUnit s x1 id c x off plus bs).state := by
  grind [destUnit, keeps_engWrite, keeps_hostPut, → keeps_engWrite_stop, → keeps_engWrite_data, Got.state]
theorem keeps_destUnit_stop {x1 id c x off plus bs t} (e : destUnit s x1 id c x off plus bs = .stop t) : Keeps s0 t := keeps_of_stop (keeps_destUnit h) e
theorem keeps_destUnit_data {x1 id c x off plus bs t d} (e : destUnit s x1 id c x off plus bs = .data t d) : Keeps s0 t := keeps_of_data (keeps_destUnit h) e
theorem keeps_sealFault {x1 id} : Keeps s0 (sealFault s x1 id) := by
  grind [sealFault, keeps_commandFault]
theorem keeps_unitDone {id len more} : Keeps s0 (unitDone s id len more) := by
  grind [unitDone, keeps_modCmd, keeps_countFor]
omit h in
theorem keeps_andThen {g : Got} {f : State → List Byte → State} (hg : Keeps s0 g.state) (hf : ∀ t b, Keeps s0 t → Keeps s0 (f t b)) :
    Keeps s0 (g.andThen f) := by
  cases g <;> grind [Got.andThen, Got.state]
theorem keeps_flushEngines {id} : Keeps s0 (flushEngines s id) := by
  grind [flushEngines, keeps_flushCache, keeps_foldl]
theorem keeps_endMove {id} : Keeps s0 (endMove s id) := by
  grind [endMove, keeps_freeEngines, keeps_chargeAttempt, keeps_flushEngines, keeps_modCmd]
theorem keeps_plainUnit {x1 id c x host} : Keeps s0 (plainUnit s x1 id c x host) := by
  grind [plainUnit, keeps_destUnit, keeps_andThen, keeps_engWrite, keeps_unitDone, keeps_sourceUnit, → keeps_destUnit_stop, → keeps_destUnit_data,
      → keeps_engWrite_stop, → keeps_engWrite_data, → keeps_sourceUnit_stop, → keeps_sourceUnit_data]
theorem keeps_sealUnit {x1 id c x host} : Keeps s0 (sealUnit s x1 id c x host) := by
  grind [sealUnit, keeps_destUnit, keeps_andThen, keeps_unitDone, keeps_sourceUnit, → keeps_destUnit_stop, → keeps_destUnit_data,
      → keeps_sourceUnit_stop, → keeps_sourceUnit_data]
theorem keeps_loadUnit {x1 id c x host} : Keeps s0 (loadUnit s x1 id c x host) := by
  grind [loadUnit, keeps_andThen, keeps_engWrite, keeps_sealFault, keeps_unitDone, keeps_sourceUnit, → keeps_engWrite_stop, → keeps_engWrite_data,
      → keeps_sourceUnit_stop, → keeps_sourceUnit_data]
theorem keeps_openUnit {x1 id c x host} : Keeps s0 (openUnit s x1 id c x host) := by
  grind [openUnit, keeps_destUnit, keeps_andThen, keeps_sealFault, keeps_unitDone, keeps_modCmd, keeps_modCol, keeps_sourceUnit,
      → keeps_destUnit_stop, → keeps_destUnit_data, → keeps_sourceUnit_stop, → keeps_sourceUnit_data]
theorem keeps_execCopyEngineLine {engine host x} : KeepsNext s0 (execCopyEngineLine engine host x s) := by
  grind [execCopyEngineLine, keeps_plainUnit, keeps_openUnit, keeps_endMove, keeps_loadUnit, keeps_sealUnit, keepsNext_next]
theorem keeps_hostFail {id c kind} : Keeps s0 (hostFail s id c kind) := by
  grind [hostFail, keeps_logAer, keeps_commandFault]
theorem keeps_execHostReadCompletion {cmd poisoned error} : KeepsNext s0 (execHostReadCompletion cmd poisoned error s) := by
  grind [execHostReadCompletion, keeps_hostFail, keepsNext_next]
theorem keeps_execCompletionTimeout {cmd} : KeepsNext s0 (execCompletionTimeout cmd s) := by
  grind [execCompletionTimeout, keeps_hostFail, keepsNext_next]
theorem keeps_moveWork {engine id} : Keeps s0 (moveWork s engine id) := by
  grind [moveWork, keeps_leaveWaiters, keeps_modEngine, keeps_modCmd]
theorem keeps_restartCopy {id} : Keeps s0 (restartCopy s id) := by
  grind [restartCopy, keeps_modCmd]
theorem keeps_execCopyEngineFault {engine} : KeepsNext s0 (execCopyEngineFault engine s) := by
  unfold execCopyEngineFault; grind [keeps_moveWork, keeps_modEngine, keeps_killCache, keeps_closeRec, keeps_recordFault, keeps_restartCopy,
      keepsNext_next]
end
end Sys2Proof.Machine
end

section
/-! PROOFS. The byte memories and the fuses are kept: colonies. -/

set_option Elab.async false

namespace Sys2Proof.Machine
section
variable {s0 s : State} (h : Keeps s0 s)
include h
theorem keeps_setClaim {u k} : Keeps s0 (setClaim s u k) := by
  unfold setClaim; grind [keeps_modPort, keeps_modChan, keeps_modCore]
theorem keeps_freeUnit {x1} : Keeps s0 (freeUnit s x1) := by
  unfold freeUnit; grind [keeps_modPort, keeps_modChan, keeps_freeCore]
theorem keeps_enterUnit {colony x2} : Keeps s0 (enterUnit s colony x2) := by
  unfold enterUnit; grind [keeps_modPort, keeps_modChan, keeps_bindCore]
theorem keeps_markReplacements {kept} : Keeps s0 (markReplacements s kept) :=
  keeps_mk (coresOk_map h.cores fun _ => by grind) h.hbm h.fuses h.staging
theorem keeps_finishCompose {id} : Keeps s0 (finishCompose s id) := by
  grind [finishCompose, keeps_endCmd, keeps_markReplacements, keeps_composed, keeps_modCmd]
theorem keeps_tornUnit {u} : Keeps s0 (tornUnit s u) := by
  grind [tornUnit, keeps_mk, coresOk_cores, memOk_hbm, memOk_staging, fusesOk_sec]
theorem keeps_unitReady {u} : Keeps s0 (unitReady s u) := by
  grind [unitReady, keeps_freeUnit, keeps_modCmd, keeps_finishCompose, keeps_tornUnit, sp_wiped]
theorem keeps_squashOld {colony} : Keeps s0 (squashOld s colony) := by
  unfold squashOld
  refine keeps_modCol (keeps_foldl ?_ (fun t p ht => keeps_squashDrain ht) _)
  exact keeps_mk (coresOk_map h.cores fun _ => rfl) h.hbm h.fuses h.staging
theorem keeps_awaitSent {colony} {f : State → State} (hf : ∀ t, Keeps s0 t → Keeps s0 (f t)) : Keeps s0 (awaitSent s colony f) := by
  grind [awaitSent, keeps_modCol]
theorem keeps_resetMessages {colony} : Keeps s0 (resetMessages s colony) := by
  grind [resetMessages, keeps_awaitSent, keeps_sendRetire, keeps_modCol]
theorem keeps_teardownMessages {colony} : Keeps s0 (teardownMessages s colony) := by
  unfold teardownMessages; grind [keeps_sendMsg, keeps_awaitSent, keeps_sendRetire, keeps_modCol, keeps_mk, coresOk_cores, memOk_hbm,
      memOk_staging, fusesOk_sec, keeps_foldl]
theorem keeps_flushRecords {colony} : Keeps s0 (flushRecords s colony) := by
  grind [flushRecords, keeps_afterRecord, keeps_countDropped, keeps_sendRecord, keeps_dropDisabled, keeps_foldl]
theorem keeps_disableRings {page} : Keeps s0 (disableRings s page) := by
  grind [disableRings, keeps_modHub]
theorem keeps_resetFunction {v} : Keeps s0 (resetFunction s v) := by
  grind [resetFunction, keeps_modHub, keeps_mk, coresOk_cores, memOk_hbm, memOk_staging, fusesOk_sec]
theorem keeps_flrDone {colony} : Keeps s0 (flrDone s colony) := by
  grind [flrDone, keeps_resetFunction]
theorem keeps_finishTeardown {colony} : Keeps s0 (finishTeardown s colony) := by
  have h1 : Keeps s0 (flrDone (disableRings (flushRecords s colony) colony) colony) :=
    keeps_flrDone (keeps_disableRings (keeps_flushRecords h))
  unfold finishTeardown
  generalize flrDone (disableRings (flushRecords s colony) colony) colony = s1 at h1
  have h2 : ∀ c l, Keeps s0 (setCol (filterWalkers (filterTcs (List.foldl (fun t (e : Nat × Cmd) => leaveTracker t e.1)
      { s1 with cores := s1.cores.map (fun e => (e.1, if e.2.home = colony then { e.2 with home := 0 } else e.2))
                cmds := s1.cmds.map (fun e => (e.1, if e.2.colony = colony then { e.2 with returning := [], shadows := [], reserve := [] } else e.2)) }
      l) (fun e => e.colony != colony)) (fun e => e.colony != colony)) colony c) := fun _ _ =>
    keeps_setCol (keeps_filterWalkers (keeps_filterTcs (keeps_foldl
      (keeps_mk (coresOk_map h1.cores fun _ => by grind) h1.hbm h1.fuses h1.staging) (fun _ _ ht => keeps_leaveTracker ht) _)))
  dsimp only
  split
  · exact keeps_endCmd (keeps_markReplacements (keeps_modCmd (h2 _ _)))
  · exact h2 _ _
theorem keeps_releaseUnits {colony} : Keeps s0 (releaseUnits s colony) := by
  grind [releaseUnits, keeps_modPort, keeps_freeUnit, keeps_modChan, keeps_unitReady, keeps_wipeCore, keeps_tornUnit, keeps_modCore, keeps_foldl,
      sp_wiped]
theorem keeps_resetStep {n c} : Keeps s0 (resetStep s n c) := by
  grind [resetStep, keeps_flrDone, keeps_modHub, keeps_squashOld, keeps_resetMessages, keeps_filterWalkers, keeps_modCol, keeps_mapUpdate,
      keeps_wipeCore, keeps_foldl]
theorem keeps_teardownStep {n c} : Keeps s0 (teardownStep s n c) := by
  grind [teardownStep, keeps_finishTeardown, keeps_squashOld, keeps_releaseUnits, keeps_teardownMessages, keeps_modCol, keeps_mapUpdate]
theorem keeps_colonyStep {n} : Keeps s0 (colonyStep s n) := by
  grind [colonyStep, keeps_resetStep, keeps_teardownStep]
theorem keeps_colonyProgress {n} : Keeps s0 (colonyProgress s n) := by
  grind [colonyProgress, keeps_colonyStep]
theorem keeps_settleColonies : Keeps s0 (settleColonies s) := by
  grind [settleColonies, keeps_colonyProgress, keeps_foldl]
theorem keeps_closeColonyXlt {colony status} : Keeps s0 (closeColonyXlt s colony status) := by
  grind [closeColonyXlt, keeps_modCol, keeps_mk, coresOk_cores, memOk_hbm, memOk_staging, fusesOk_sec]
theorem keeps_dropColonyState {colony} : Keeps s0 (dropColonyState s colony) := by
  grind [dropColonyState, keeps_modCol, keeps_mk, coresOk_cores, memOk_hbm, memOk_staging, fusesOk_sec]
theorem keeps_endForTeardown {colony} : Keeps s0 (endForTeardown s colony) := by
  grind [endForTeardown, keeps_setCmd, keeps_discardHeld, keeps_disposeFailed, keeps_abortCmd, keeps_foldl]
theorem keeps_silentEnd {id} : Keeps s0 (silentEnd s id) := by
  unfold silentEnd
  split
  · exact h
  next c _ =>
  extract_lets s1 run ns s2 s3
  have h1 : Keeps s0 s1 := by grind [keeps_dropRecord]
  have h2 : Keeps s0 s2 := keeps_chargeAttempt (keeps_setCmd (keeps_mk h1.cores h1.hbm h1.fuses h1.staging))
  have h3 : Keeps s0 s3 := keeps_endReqs (keeps_freeEngines (keeps_foldl h2 (fun _ _ ht => keeps_coreKill ht) _))
  clear_value s3
  grind [keeps_modCol, keeps_setCmd, keeps_mk, coresOk_cores, memOk_hbm, memOk_staging, fusesOk_sec]
theorem keeps_endForReset {colony} : Keeps s0 (endForReset s colony) := by
  grind [endForReset, keeps_silentEnd, keeps_foldl]
theorem keeps_abortJobs {colony status jobs} : Keeps s0 (abortJobs s colony status jobs) := by
  grind [abortJobs, keeps_raiseAbort, keeps_foldl]
theorem keeps_refreshPort {n} : Keeps s0 (refreshPort s n) := by
  grind [refreshPort, keeps_modPort, keeps_unitReady, keeps_startRefresh, sp_wiped]
theorem keeps_releaseClaim {c u} : Keeps s0 (releaseClaim s c u) := by
  unfold releaseClaim; grind [keeps_modPort, keeps_refreshPort, keeps_modChan, keeps_unitReady, keeps_setClaim, keeps_wipeCore, sp_wiped]
theorem keeps_endCompose {id} : Keeps s0 (endCompose s id) := by
  grind [endCompose, keeps_endCmd, keeps_composed, keeps_modCmd, keeps_releaseClaim, keeps_foldl]
theorem keeps_startTeardown {colony id} : Keeps s0 (startTeardown s colony id) := by
  unfold startTeardown
  extract_lets was jobs sA s1 s2 s3 s4 s5
  have h2 : Keeps s0 s2 := keeps_foldl (keeps_modCol (keeps_drainReqs h)) (fun _ _ ht => keeps_endCompose ht) _
  have h4 : Keeps s0 s4 := keeps_modCol (keeps_dropColonyState (keeps_abortJobs (keeps_closeColonyXlt (keeps_endForTeardown h2))))
  have h5 : Keeps s0 s5 := by grind [keeps_modCol, keeps_teardownMessages]
  exact keeps_colonyProgress h5
theorem keeps_startReset {colony} : Keeps s0 (startReset s colony) :=
  keeps_colonyProgress (keeps_dropColonyState (keeps_abortJobs (keeps_closeColonyXlt (keeps_endForReset (keeps_disableRings (keeps_modCol (keeps_drainReqs h)))))))
theorem keeps_execColonyReset {colony} : KeepsNext s0 (execColonyReset colony s) := by
  grind [execColonyReset, keeps_startReset, keepsNext_next]
theorem keeps_claimUnits {id c stage} : Keeps s0 (claimUnits s id c stage) := by
  grind [claimUnits, keeps_setClaim, keeps_modCmd, keeps_modCol, keeps_waitIn, keeps_foldl]
theorem keeps_execBind {cmd} : KeepsNext s0 (execBind cmd s) := by
  refine keepsNext_next.2 (keeps_direct h fun c => ?_)
  split
  · exact h
  · split
    · exact keeps_refuseCmd h
    · refine keeps_foldl (keeps_foldl (keeps_foldl (keeps_modCol (keeps_claimUnits h)) (fun t n ht => ?_) _) (fun t n ht => ?_) _) (fun t n ht => ?_) _
      · exact keeps_unitReady (keeps_wipeCore (keeps_modCore ht rfl))
      · grind [keeps_unitReady, keeps_modChan]
      · grind [keeps_unitReady, keeps_refreshPort]
theorem keeps_killNamed {us} : Keeps s0 (killNamed s us) := by
  grind [killNamed, keeps_preemptMove, keeps_foldl]
theorem keeps_recompose {id c} : Keeps s0 (recompose s id c) := by
  grind [recompose, keeps_killNamed, keeps_endCmd, keeps_markReplacements, keeps_modCmd, keeps_refuseCmd, keeps_claimUnits]
theorem keeps_execUnbind {cmd} : KeepsNext s0 (execUnbind cmd s) := by
  grind [execUnbind, keeps_direct, keeps_recompose, keepsNext_next]
theorem keeps_execRebind {cmd} : KeepsNext s0 (execRebind cmd s) := by
  grind [execRebind, keeps_direct, keeps_recompose, keepsNext_next]
theorem keeps_execTeardown {cmd} : KeepsNext s0 (execTeardown cmd s) := by
  grind [execTeardown, keeps_waitIn, keeps_direct, keeps_startTeardown, keeps_refuseCmd, keepsNext_next]
theorem keeps_leaveCore {n to_} : Keeps s0 (leaveCore s n to_) := by
  grind [leaveCore, keeps_unitReady, keeps_setCore, keeps_wipeCore, memOk_coreAt, sp_wiped]
theorem keeps_leavePort {n} : Keeps s0 (leavePort s n) := by
  grind [leavePort, keeps_modPort, keeps_unitReady, keeps_drainReqs, keeps_preemptMove, keeps_foldl]
theorem keeps_leaveChannel {n from_ retired} : Keeps s0 (leaveChannel s n from_ retired) := by
  grind [leaveChannel, keeps_modChan, keeps_unitReady]
theorem keeps_removalUpdate {id c} : Keeps s0 (removalUpdate s id c) := by
  grind [removalUpdate, keeps_leaveChannel, keeps_leavePort, keeps_modCmd, keeps_modCol, keeps_mapUpdate, keeps_leaveCore, keeps_foldl]
theorem keeps_arrivalUpdate {id c} : Keeps s0 (arrivalUpdate s id c) := by
  grind [arrivalUpdate, keeps_enterUnit, keeps_modCol, keeps_mapUpdate, keeps_finishCompose, keeps_foldl]
theorem keeps_firstUpdate {id c} : Keeps s0 (firstUpdate s id c) := by
  grind [firstUpdate, keeps_modHub, keeps_retireDue, keeps_enterUnit, keeps_setCol, keeps_modCmd, keeps_finishCompose, keeps_switchCores, keeps_mk,
      coresOk_cores, memOk_hbm, memOk_staging, fusesOk_sec, keeps_foldl]
theorem keeps_execMapUpdate {cmd} : KeepsNext s0 (execMapUpdate cmd s) := by
  grind [execMapUpdate, keeps_arrivalUpdate, keeps_firstUpdate, keeps_removalUpdate, keeps_finishCompose, keepsNext_next]
theorem keeps_startWipes {colony} : Keeps s0 (startWipes s colony) := by
  grind [startWipes, keeps_mk, coresOk_cores, memOk_hbm, memOk_staging, fusesOk_sec]
theorem keeps_execOldEntryRetire {colony} : KeepsNext s0 (execOldEntryRetire colony s) := by
  grind [execOldEntryRetire, keeps_startWipes, keeps_modCol, keeps_colonyProgress, keepsNext_next]
theorem keeps_countLost {colony lost} : Keeps s0 (countLost s colony lost) := by
  grind [countLost, keeps_modRec, keeps_foldl]
theorem keeps_wipeChannel {n} : Keeps s0 (wipeChannel s n) := by
  have h1 := fun l : List DirEntry => keeps_foldl (keeps_countLost h (colony := holderOf s n)
    (lost := ((chanAt s n).dir.filter (fun e => e.st == .owned)).map (fun e => homeDpa s n e.offset)))
    (fun t e ht => keeps_closeLine ht (ch := n) (off := e.offset)) l
  unfold wipeChannel
  refine keeps_modChan ?_
  exact keeps_mk (h1 _).cores (memOk_mwipe (h1 _).hbm) (h1 _).fuses (h1 _).staging
theorem keeps_execChannelWipeDone {channel ok} : KeepsNext s0 (execChannelWipeDone channel ok s) := by
  grind [execChannelWipeDone, keeps_modChan, keeps_unitReady, keeps_fenceFault, keeps_settleColonies, keeps_tornUnit, keeps_wipeChannel,
      keepsNext_next]
theorem keeps_execPortLeaveDrainEnd {port} : KeepsNext s0 (execPortLeaveDrainEnd port s) := by
  grind [execPortLeaveDrainEnd, keeps_modPort, keeps_refreshPort, keeps_settleColonies, keeps_squashDrain, keepsNext_next, sp_wiped]
theorem keeps_execSessionRefreshDone {port} : KeepsNext s0 (execSessionRefreshDone port s) := by
  grind [execSessionRefreshDone, keeps_modPort, keeps_unitReady, keeps_startRefresh, keeps_settleColonies, keeps_drawFree, keepsNext_next]
theorem keeps_afterKill {n} : Keeps s0 (afterKill s n) := by
  grind [afterKill, keeps_modCore, sp_wiped]
theorem keeps_reportKill {n} : Keeps s0 (reportKill s n) := by
  grind [reportKill, keeps_setCmd, keeps_finishKill, keeps_foldl]
theorem keeps_execKillComplete {core wipeOk} : KeepsNext s0 (execKillComplete core wipeOk s) := by
  grind [execKillComplete, keeps_afterKill, keeps_reportKill, keeps_unitReady, keeps_settleColonies, keeps_wipeFault, keeps_wipeCore, keepsNext_next]
theorem keeps_dropTags {n} : Keeps s0 (dropTags s n) := by
  grind [dropTags, keeps_modCore, keeps_inflightDec, keeps_foldl]
theorem keeps_execCoreReplacement {core} : KeepsNext s0 (execCoreReplacement core s) := by
  have hr : ∀ (t : State) c r, Keeps s0 t → MemOk s0 c.sp → Keeps s0 (recordFault (setCore t core c) r).1 := fun t c r ht hc =>
    keeps_recordFault (keeps_setCore ht hc)
  have hd : ∀ (t : State) c, Keeps s0 t → MemOk s0 c.sp → Keeps s0 (setCore (dropTags t core) core c) := fun t c ht hc =>
    keeps_setCore (keeps_dropTags ht) hc
  unfold execCoreReplacement
  grind [memOk_nil, keeps_mk, coresOk_cores, memOk_hbm, memOk_staging, fusesOk_sec, memOk_coreAt, keepsNext_next]
theorem keeps_execQueryMap {cmd} : KeepsNext s0 (execQueryMap cmd s) := by
  grind [execQueryMap, keeps_completeOk, keeps_hostOut, keeps_direct, keepsNext_next]
end
end Sys2Proof.Machine
end

section
/-! PROOFS. The byte memories and the fuses are kept: coherent requests. -/

set_option Elab.async false

namespace Sys2Proof.Machine
section
variable {s0 s : State} (h : Keeps s0 s)
include h
theorem keeps_agentBad {agent ch off p injected} : Keeps s0 (agentBad s agent ch off p injected) := by
  grind [agentBad, keeps_lineRecord, keeps_lineFault, keeps_closeRec]
theorem keeps_sendRequest {agent ch off kind data x6} : Keeps s0 (sendRequest s agent ch off kind data x6) := by
  grind [sendRequest, keeps_dirRequest, keeps_unNack, keeps_checkRead, keeps_agentBad, keeps_sliceError]
theorem keeps_homeRequest {agent ch off kind data x6} : Keeps s0 (homeRequest s agent ch off kind data x6) := by
  grind [homeRequest, keeps_sendRequest]
theorem keeps_execGets {agent channel offset x3} : KeepsNext s0 (execGets agent channel offset x3 s) := by
  grind [execGets, keeps_homeRequest, keepsNext_next]
theorem keeps_execGetm {agent channel offset whole x4} : KeepsNext s0 (execGetm agent channel offset whole x4 s) := by
  grind [execGetm, keeps_homeRequest, keepsNext_next]
theorem keeps_execNcr {agent channel offset x3} : KeepsNext s0 (execNcr agent channel offset x3 s) := by
  grind [execNcr, keeps_homeRequest, keepsNext_next]
theorem keeps_execNcw {agent channel offset data} : KeepsNext s0 (execNcw agent channel offset data s) := by
  grind [execNcw, keeps_homeRequest, keepsNext_next]
theorem keeps_execPutm {agent channel offset} : KeepsNext s0 (execPutm agent channel offset s) := by
  grind [execPutm, keeps_putLine, keepsNext_next]
theorem keeps_execDrop {agent channel offset} : KeepsNext s0 (execDrop agent channel offset s) := by
  grind [execDrop, keeps_dropLine, keepsNext_next]
theorem keeps_execForwardedRequest {agent channel offset} : KeepsNext s0 (execForwardedRequest agent channel offset s) := by
  grind [execForwardedRequest, keeps_modChan, keeps_setCache, keepsNext_next]
theorem keeps_execOwnerResponse {agent channel offset} : KeepsNext s0 (execOwnerResponse agent channel offset s) := by
  grind [execOwnerResponse, keeps_endForwarding, keepsNext_next]
theorem keeps_execInvalidation {agent channel offset} : KeepsNext s0 (execInvalidation agent channel offset s) := by
  grind [execInvalidation, keeps_modChan, keeps_setCache, keepsNext_next]
theorem keeps_execInvalidationAck {agent channel offset} : KeepsNext s0 (execInvalidationAck agent channel offset s) := by
  grind [execInvalidationAck, keeps_ackFrom, keepsNext_next]
theorem keeps_execNackRetry {agent channel offset} : KeepsNext s0 (execNackRetry agent channel offset s) := by
  grind [execNackRetry, keeps_serveReserved, keeps_sendRequest, keepsNext_next]
end
end Sys2Proof.Machine
end

section
/-! PROOFS. The byte memories and the fuses are kept: hangs, resets and fences. -/

set_option Elab.async false

namespace Sys2Proof.Machine
section
variable {s0 s : State} (h : Keeps s0 s)
include h
theorem keeps_execReadFault {cmd} : KeepsNext s0 (execReadFault cmd s) := by
  grind [execReadFault, keeps_writeReport, keeps_direct, keepsNext_next]
theorem keeps_sampleInto {id c t} : Keeps s0 (sampleInto s id c t) := by
  grind [sampleInto, keeps_reserved, keeps_setCmd, keeps_shadowWriteAll, keeps_modCmd]
theorem keeps_execSample {cmd} : KeepsNext s0 (execSample cmd s) := by
  grind [execSample, keeps_sampleInto, keeps_modCmd, keeps_waitIn, keeps_directOrWaiting, keeps_refuseCmd, keepsNext_next]
theorem keeps_clearPoint {p} : Keeps s0 (clearPoint s p) := by
  grind [clearPoint, keeps_mk, coresOk_cores, memOk_hbm, memOk_staging, fusesOk_sec]
theorem keeps_execPerturb {cmd} : KeepsNext s0 (execPerturb cmd s) := by
  grind [execPerturb, keeps_completeOk, keeps_direct, keeps_refuseCmd, keeps_clearPoint, keeps_mk, coresOk_cores, memOk_hbm, memOk_staging,
      fusesOk_sec, keepsNext_next]
theorem keeps_execPerturbExpiry {point} : KeepsNext s0 (execPerturbExpiry point s) := by
  grind [execPerturbExpiry, keeps_clearPoint, keepsNext_next]
theorem keeps_execPerturbEnableWrite {value} : KeepsNext s0 (execPerturbEnableWrite value s) := by
  grind [execPerturbEnableWrite, keeps_mk, coresOk_cores, memOk_hbm, memOk_staging, fusesOk_sec, keepsNext_next]
theorem keeps_tornFenced : Keeps s0 (tornFenced s) := by
  grind [tornFenced, keeps_freeUnit, keeps_tornUnit, keeps_foldl]
theorem keeps_afterFence : Keeps s0 (afterFence s) := by
  grind [afterFence, keeps_settleColonies, keeps_tornFenced]
theorem keeps_execCoreFence {core} : KeepsNext s0 (execCoreFence core s) := by
  grind [execCoreFence, keeps_afterFence, keeps_fenceFault, keepsNext_next]
theorem keeps_execCoreClrCnt {core} : KeepsNext s0 (execCoreClrCnt core s) := by
  grind [execCoreClrCnt, keeps_modCore, keepsNext_next]
theorem keeps_takeHang {kind n} : Keeps s0 (takeHang s kind n).1 := by
  grind [takeHang, keeps_mk, coresOk_cores, memOk_hbm, memOk_staging, fusesOk_sec]
theorem keeps_resetCore {n cause injected} : Keeps s0 (resetCore s n cause injected) := by
  grind [resetCore, keeps_coreKill, keeps_diagWrite, keeps_faultCmd, keeps_recordFault]
theorem keeps_resetEngine {n cause injected} : Keeps s0 (resetEngine s n cause injected) := by
  grind [resetEngine, keeps_faultCmd, keeps_modEngine, keeps_recordFault]
theorem keeps_resetPort {n cause injected} : Keeps s0 (resetPort s n cause injected) := by
  grind [resetPort, keeps_endPortCmds, keeps_raiseAbort, keeps_setCmd, keeps_recordFault, keeps_abortCmd, keeps_foldl]
theorem keeps_syncStall {id} : Keeps s0 (syncStall s id) := by
  grind [syncStall, keeps_diagWrite, keeps_faultCmd, keeps_recordFault, keeps_foldl]
theorem keeps_secondHang {n id} : Keeps s0 (secondHang s n id) := by
  grind [secondHang, keeps_takeHang, keeps_diagWrite, keeps_modCmd, keeps_recordFault]
theorem keeps_hangCore {n} : Keeps s0 (hangCore s n) := by
  grind [hangCore, keeps_takeHang, keeps_syncStall, keeps_secondHang, keeps_resetCore]
theorem keeps_execHangWindowExpiry {unit} : KeepsNext s0 (execHangWindowExpiry unit s) := by
  unfold execHangWindowExpiry; grind [keeps_hangCore, keeps_fenceUnit, keeps_resetPort, keeps_takeHang, keeps_afterFence, keeps_settleColonies,
      keeps_recordFault, keeps_resetEngine, keepsNext_next]
theorem keeps_execAgentUnresponsive {agent channel offset} : KeepsNext s0 (execAgentUnresponsive agent channel offset s) := by
  grind [execAgentUnresponsive, keeps_fenceUnit, keeps_afterFence, keeps_settleColonies, keeps_recordFault, keeps_resetEngine, keeps_resetCore,
      keepsNext_next]
theorem keeps_closeReset {u} : Keeps s0 (closeReset s u) := by
  grind [closeReset, keeps_mk, coresOk_cores, memOk_hbm, memOk_staging, fusesOk_sec]
theorem keeps_execEngineResetDone {unit} : KeepsNext s0 (execEngineResetDone unit s) := by
  unfold execEngineResetDone; grind [keeps_closeReset, keeps_dropTags, keeps_settleColonies, keeps_modEngine, keepsNext_next]
theorem keeps_execEngineResetTimeout {unit} : KeepsNext s0 (execEngineResetTimeout unit s) := by
  grind [execEngineResetTimeout, keeps_fenceUnit, keeps_afterFence, keeps_mk, coresOk_cores, memOk_hbm, memOk_staging, fusesOk_sec, keepsNext_next]
theorem keeps_execWatchdogExpiry {ctrl} : KeepsNext s0 (execWatchdogExpiry ctrl s) := by
  grind [execWatchdogExpiry, keeps_fenceUnit, keeps_takeHang, keeps_recordFault, keepsNext_next]
theorem keeps_execControlCoreUncorrectableError {ctrl} : KeepsNext s0 (execControlCoreUncorrectableError ctrl s) := by
  grind [execControlCoreUncorrectableError, keeps_fenceFault, keepsNext_next]
theorem keeps_execCollectorSelfCheckFailure : KeepsNext s0 (execCollectorSelfCheckFailure s) := by
  grind [execCollectorSelfCheckFailure, keeps_deviceFault, keepsNext_next]
theorem keeps_execReactionWindowExpiry {record} : KeepsNext s0 (execReactionWindowExpiry record s) := by
  unfold execReactionWindowExpiry
  repeat' split
  all_goals grind [keeps_fenceUnit, keeps_afterFence, keeps_mk, coresOk_cores, memOk_hbm, memOk_staging, fusesOk_sec, keepsNext_next]
theorem keeps_restartCount {x1} : Keeps s0 (restartCount s x1) := by
  unfold restartCount; grind [keeps_modChan, keeps_modEngine, keeps_modCore]
theorem keeps_execFltAckKeep {record} : KeepsNext s0 (execFltAckKeep record s) := by
  grind [execFltAckKeep, keeps_restartCount, keeps_modRec, keepsNext_next]
theorem keeps_execFltAckFence {record} : KeepsNext s0 (execFltAckFence record s) := by
  grind [execFltAckFence, keeps_fenceUnit, keeps_afterFence, keepsNext_next]
theorem keeps_execQuarantineTimeout {die} : KeepsNext s0 (execQuarantineTimeout die s) := by
  grind [execQuarantineTimeout, keeps_deviceFault, keepsNext_next]
theorem keeps_execAliveToggle : KeepsNext s0 (execAliveToggle s) := by
  grind [execAliveToggle, keeps_emit, keeps_mk, coresOk_cores, memOk_hbm, memOk_staging, fusesOk_sec, keepsNext_next]
theorem keeps_execTagHoldExpiry {port tag} : KeepsNext s0 (execTagHoldExpiry port tag s) := by
  grind [execTagHoldExpiry, keeps_modPort, keepsNext_next]
theorem keeps_execSliceAllocatorFault {slice} : KeepsNext s0 (execSliceAllocatorFault slice s) := by
  grind [execSliceAllocatorFault, keeps_modChan, keeps_recordFault, keepsNext_next]
theorem keeps_execInject {value} : KeepsNext s0 (execInject value s) := by
  grind [execInject, keeps_mk, coresOk_cores, memOk_hbm, memOk_staging, fusesOk_sec, keepsNext_next]
end
end Sys2Proof.Machine
end

section
/-! PROOFS. The byte memories and the fuses are kept: HBM channels. -/

set_option Elab.async false

namespace Sys2Proof.Machine
section
variable {s0 s : State} (h : Keeps s0 s)
include h
theorem keeps_countBytes {ch bytes cmd} : Keeps s0 (countBytes s ch bytes cmd) := by
  grind [countBytes, keeps_modChan]
theorem keeps_execHbmRead {channel offset cmd first second tagOk} : KeepsNext s0 (execHbmRead channel offset cmd first second tagOk s) := by
  unfold execHbmRead
  extract_lets c k s1 s2 colony dpa injected s3 stop s4
  have h2 : Keeps s0 s2 := by grind [keeps_countBytes, keeps_modChan, keeps_countFor]
  have h3 : Keeps s0 s3 := keeps_disarm h2
  have h4 : Keeps s0 s4 := by grind [keeps_modChan]
  have hstop : ∀ t p, Keeps s0 t → Keeps s0 (stop t p) := fun t p ht => by grind [keeps_lineFault, keeps_lineRecord, keeps_closeRec]
  clear_value s4 s3 stop
  grind [keepsNext_next, keeps_modChan]
theorem keeps_execHbmWrite {channel offset data cmd} : KeepsNext s0 (execHbmWrite channel offset data cmd s) := by
  grind [execHbmWrite, keeps_countBytes, keeps_modChan, keeps_countFor, keeps_writeLine, keepsNext_next]
theorem keeps_execRemapCopy {channel} : KeepsNext s0 (execRemapCopy channel s) := by
  grind [execRemapCopy, keeps_setChan, keeps_recordFault, keepsNext_next]
theorem keeps_execPatrolScrub {channel row line report} : KeepsNext s0 (execPatrolScrub channel row line report s) := by
  grind [execPatrolScrub, keeps_countBytes, keeps_lineRecord, keeps_modChan, keeps_closeRec, keepsNext_next]
theorem keeps_execRefresh {channel bank temp} : KeepsNext s0 (execRefresh channel bank temp s) := by
  grind [execRefresh, keeps_modChan, keepsNext_next]
theorem keeps_execCalibrationSlot {channel margin slopeMilli marginOk tracking} : KeepsNext s0 (execCalibrationSlot channel margin slopeMilli marginOk tracking s) := by
  grind [execCalibrationSlot, keeps_setChan, keepsNext_next]
theorem keeps_execRetrainDone {channel pass} : KeepsNext s0 (execRetrainDone channel pass s) := by
  grind [execRetrainDone, keeps_afterFence, keeps_fenceFault, keeps_setChan, keepsNext_next]
theorem keeps_execHbcClrCnt {channel} : KeepsNext s0 (execHbcClrCnt channel s) := by
  grind [execHbcClrCnt, keeps_modChan, keepsNext_next]
theorem keeps_execHbcClrPeak {channel} : KeepsNext s0 (execHbcClrPeak channel s) := by
  grind [execHbcClrPeak, keeps_modChan, keepsNext_next]
theorem keeps_execMeshFlitReplay {die replays} : KeepsNext s0 (execMeshFlitReplay die replays s) := by
  grind [execMeshFlitReplay, keeps_afterFence, keeps_fenceFault, keeps_modMesh, keepsNext_next]
end
end Sys2Proof.Machine
end

section
/-! PROOFS. The byte memories and the fuses are kept: power and clocks. -/

set_option Elab.async false

namespace Sys2Proof.Machine
section
variable {s0 s : State} (h : Keeps s0 s)
include h
theorem keeps_coolDown {r} : Keeps s0 (coolDown s r) := by
  grind [coolDown, keeps_modDie, keeps_foldl]
theorem keeps_capDown {r cap l w} : Keeps s0 (capDown r cap l w s) := by
  induction l generalizing s w <;> grind [capDown, keeps_modDie]
theorem keeps_capUp {r cap l w} : Keeps s0 (capUp r cap l w s) := by
  induction l generalizing s w <;> grind [capUp, keeps_modDie]
theorem keeps_evaluate {r} : Keeps s0 (evaluate s r) := by
  grind [evaluate, keeps_capUp, keeps_coolDown, keeps_capDown, keeps_mk, coresOk_cores, memOk_hbm, memOk_staging, fusesOk_sec]
theorem keeps_takeReadings {r} : Keeps s0 (takeReadings s r) := by
  grind [takeReadings, keeps_modAcct, keeps_mk, coresOk_cores, memOk_hbm, memOk_staging, fusesOk_sec, keeps_foldl]
theorem keeps_secondEnd : Keeps s0 (secondEnd s) := by
  grind [secondEnd, keeps_modDie, keeps_mk, coresOk_cores, memOk_hbm, memOk_staging, fusesOk_sec, keeps_foldl]
theorem keeps_applyConfig : Keeps s0 (applyConfig s) := by
  grind [applyConfig, keeps_mk, coresOk_cores, memOk_hbm, memOk_staging, fusesOk_sec, keeps_foldl]
theorem keeps_meshMiss {misses d} : Keeps s0 (meshMiss s misses d) := by
  grind [meshMiss, keeps_raiseMsix, keeps_modMesh]
theorem keeps_portMissed {misses n} : Keeps s0 (portMissed s misses n) := by
  grind [portMissed, keeps_raiseMsix, keeps_setPort]
theorem keeps_meshUrgent {d} : Keeps s0 (meshUrgent s d) := by
  grind [meshUrgent, keeps_modMesh, keeps_drawFree]
theorem keeps_urgentWindow : Keeps s0 (urgentWindow s) := by
  grind [urgentWindow, keeps_modHub, keeps_meshUrgent, keeps_foldl]
theorem keeps_coldRuns : Keeps s0 (coldRuns s) := by
  grind [coldRuns, keeps_mk, coresOk_cores, memOk_hbm, memOk_staging, fusesOk_sec]
theorem keeps_quarRuns : Keeps s0 (quarRuns s) := by
  grind [quarRuns, keeps_mk, coresOk_cores, memOk_hbm, memOk_staging, fusesOk_sec]
theorem keeps_execWindowBoundary {r linkMiss portMiss} : KeepsNext s0 (execWindowBoundary r linkMiss portMiss s) := by
  have h4 : Keeps s0 ((List.range 4).foldl (fun t d => modDie t d dieWindow) (takeReadings (quarRuns (coldRuns (applyConfig (urgentWindow
      ((List.range 16).foldl (fun t n => portMissed t portMiss n) ((List.range 4).foldl (fun t d => meshMiss t linkMiss d) s)))))) r)) :=
    keeps_foldl (keeps_takeReadings (keeps_quarRuns (keeps_coldRuns (keeps_applyConfig (keeps_urgentWindow (keeps_foldl (keeps_foldl h
      (fun _ _ ht => keeps_meshMiss ht) _) (fun _ _ ht => keeps_portMissed ht) _)))))) (fun _ _ ht => keeps_modDie ht) _
  unfold execWindowBoundary
  grind [keeps_evaluate, keeps_secondEnd, keeps_mk, coresOk_cores, memOk_hbm, memOk_staging, fusesOk_sec, keepsNext_next]
theorem keeps_execVoltageReached {die} : KeepsNext s0 (execVoltageReached die s) := by
  grind [execVoltageReached, keeps_modDie, keepsNext_next]
theorem keeps_execDroopTrip {die} : KeepsNext s0 (execDroopTrip die s) := by
  grind [execDroopTrip, keeps_modDie, keepsNext_next]
theorem keeps_execDroopHoldExpiry {die target} : KeepsNext s0 (execDroopHoldExpiry die target s) := by
  grind [execDroopHoldExpiry, keeps_modDie, keepsNext_next]
theorem keeps_dieFault {d} : Keeps s0 (dieFault s d) := by
  grind [dieFault, keeps_afterFence, keeps_fenceFault]
theorem keeps_execSenseBelowMinimum {die} : KeepsNext s0 (execSenseBelowMinimum die s) := by
  grind [execSenseBelowMinimum, keeps_dieFault, keepsNext_next]
theorem keeps_disableAllRings : Keeps s0 (disableAllRings s) := by
  grind [disableAllRings, keeps_modHub]
theorem keeps_linkLost : Keeps s0 (linkLost s) := by
  grind [linkLost, keeps_startReset, keeps_disableAllRings, keeps_mk, coresOk_cores, memOk_hbm, memOk_staging, fusesOk_sec, keeps_foldl]
theorem keeps_execRailOutOfTolerance {rail} : KeepsNext s0 (execRailOutOfTolerance rail s) := by
  grind [execRailOutOfTolerance, keeps_dieFault, keeps_fencePort, keeps_afterFence, keeps_deviceFault, keeps_deviceStop, keeps_linkLost, keeps_mk,
      coresOk_cores, memOk_hbm, memOk_staging, fusesOk_sec, keeps_foldl, keepsNext_next]
theorem keeps_execPllLockLoss {die} : KeepsNext s0 (execPllLockLoss die s) := by
  grind [execPllLockLoss, keeps_dieFault, keeps_deviceFault, keeps_mk, coresOk_cores, memOk_hbm, memOk_staging, fusesOk_sec, keepsNext_next]
theorem keeps_stopDies : Keeps s0 (stopDies s) := by
  grind [stopDies, keeps_modDie, keeps_foldl]
theorem keeps_execThermalTrip {x0} : KeepsNext s0 (execThermalTrip x0 s) := by
  grind [execThermalTrip, keeps_stopDies, keeps_deviceFault, keeps_mk, coresOk_cores, memOk_hbm, memOk_staging, fusesOk_sec, keepsNext_next]
theorem keeps_execCoolantOkLow : KeepsNext s0 (execCoolantOkLow s) := by
  grind [execCoolantOkLow, keeps_mk, coresOk_cores, memOk_hbm, memOk_staging, fusesOk_sec, keepsNext_next]
theorem keeps_execCoolantOkHigh : KeepsNext s0 (execCoolantOkHigh s) := by
  grind [execCoolantOkHigh, keeps_mk, coresOk_cores, memOk_hbm, memOk_staging, fusesOk_sec, keepsNext_next]
theorem keeps_execCoolantLoss : KeepsNext s0 (execCoolantLoss s) := by
  grind [execCoolantLoss, keeps_stopDies, keeps_deviceFault, keeps_mk, coresOk_cores, memOk_hbm, memOk_staging, fusesOk_sec, keepsNext_next]
theorem keeps_execPwrCoolClr : KeepsNext s0 (execPwrCoolClr s) := by
  grind [execPwrCoolClr, keeps_mk, coresOk_cores, memOk_hbm, memOk_staging, fusesOk_sec, keepsNext_next]
end
end Sys2Proof.Machine
end

section
/-! PROOFS. The byte memories and the fuses are kept: ports and links. -/

set_option Elab.async false

namespace Sys2Proof.Machine
section
variable {s0 s : State} (h : Keeps s0 s)
include h
theorem keeps_signDevice : Keeps s0 (signDevice s).1 := by
  unfold signDevice; grind [keeps_zltEvent, keeps_mk, coresOk_cores, memOk_hbm, memOk_staging, fusesOk_sec]
theorem keeps_execPortEnWrite {port value} : KeepsNext s0 (execPortEnWrite port value s) := by
  grind [execPortEnWrite, keeps_fencePortAs, keeps_modPort, keeps_afterFence, keepsNext_next]
theorem keeps_execPortFence {port} : KeepsNext s0 (execPortFence port s) := by
  grind [execPortFence, keeps_fencePortAs, keeps_afterFence, keeps_fencedRecs, keeps_recordFault, keepsNext_next]
theorem keeps_execPortUnfence {port} : KeepsNext s0 (execPortUnfence port s) := by
  grind [execPortUnfence, keeps_modPort, keepsNext_next]
theorem keeps_meetPartner {n} : Keeps s0 (meetPartner s n) := by
  unfold meetPartner
  dsimp only
  split
  · exact h
  · exact keeps_emit (keeps_setPort (keeps_drawFree h))
theorem keeps_announce {n} : Keeps s0 (announce s n) := by
  grind [announce, keeps_meetPartner, keeps_emit, keeps_drawFree, keeps_setPort]
theorem keeps_announceAll : Keeps s0 (announceAll s) := by
  grind [announceAll, keeps_announce, keeps_foldl]
theorem keeps_partnerLost {n cause} : Keeps s0 (partnerLost s n cause) :=
  keeps_settleColonies (keeps_announce (keeps_closeReqs (keeps_modPort (keeps_resendBond (keeps_zltEvent h)))))
theorem keeps_execPortRetrain {port} : KeepsNext s0 (execPortRetrain port s) := by
  grind [execPortRetrain, keeps_modPort, keeps_partnerLost, keepsNext_next]
theorem keeps_execZltClrCnt {port} : KeepsNext s0 (execZltClrCnt port s) := by
  grind [execZltClrCnt, keeps_modPort, keepsNext_next]
theorem keeps_execEventRingEnable {value} : KeepsNext s0 (execEventRingEnable value s) := by
  grind [execEventRingEnable, keeps_mk, coresOk_cores, memOk_hbm, memOk_staging, fusesOk_sec, keepsNext_next]
theorem keeps_execPartnerPresence {port lanes} : KeepsNext s0 (execPartnerPresence port lanes s) := by
  grind [execPartnerPresence, keeps_modPort, keepsNext_next]
theorem keeps_trainFail {n map} : Keeps s0 (trainFail s n map) := by
  grind [trainFail, keeps_zltEvent, keeps_modPort]
theorem keeps_execTrainingDone {port passed weakest} : KeepsNext s0 (execTrainingDone port passed weakest s) := by
  grind [execTrainingDone, keeps_announce, keeps_modPort, keeps_trainFail, keepsNext_next]
theorem keeps_execTrainTimeout {port failed} : KeepsNext s0 (execTrainTimeout port failed s) := by
  grind [execTrainTimeout, keeps_trainFail, keepsNext_next]
theorem keeps_refusePartner {n detail} : Keeps s0 (refusePartner s n detail) := by
  grind [refusePartner, keeps_zltEvent, keeps_modPort]
theorem keeps_execDiscoveryDescriptor {port d} : KeepsNext s0 (execDiscoveryDescriptor port d s) := by
  grind [execDiscoveryDescriptor, keeps_announce, keeps_modPort, keeps_refusePartner, keeps_meetPartner, keepsNext_next]
theorem keeps_goActive {n} : Keeps s0 (goActive s n) := by
  grind [goActive, keeps_zltEvent, keeps_unitReady, keeps_settleColonies, keeps_drawFree, keeps_setPort]
theorem keeps_execAuthentication {port peerKey chainOk ecdsaOk lmsOk} : KeepsNext s0 (execAuthentication port peerKey chainOk ecdsaOk lmsOk s) := by
  grind [execAuthentication, keeps_refusePartner, keeps_emit, keeps_goActive, keeps_signDevice, keepsNext_next]
theorem keeps_laneFail {n lane} : Keeps s0 (laneFail s n lane) := by
  grind [laneFail, keeps_zltEvent, keeps_sendLink, keeps_modPort, keeps_partnerLost]
theorem keeps_execLaneFailing {port lane} : KeepsNext s0 (execLaneFailing port lane s) := by
  grind [execLaneFailing, keeps_laneFail, keepsNext_next]
theorem keeps_execLaneRetrainDone {port lane pass} : KeepsNext s0 (execLaneRetrainDone port lane pass s) := by
  grind [execLaneRetrainDone, keeps_zltEvent, keeps_setPort, keepsNext_next]
theorem keeps_execLossOfPartner {port cause} : KeepsNext s0 (execLossOfPartner port cause s) := by
  grind [execLossOfPartner, keeps_modPort, keeps_partnerLost, keepsNext_next]
theorem keeps_execDetectHoldoffExpiry {port} : KeepsNext s0 (execDetectHoldoffExpiry port s) := by
  grind [execDetectHoldoffExpiry, keeps_modPort, keepsNext_next]
theorem keeps_takeAck {n ack} : Keeps s0 (takeAck s n ack) := by
  grind [takeAck, keeps_modPort, keeps_pump]
theorem keeps_oweCredits {n vl k} : Keeps s0 (oweCredits s n vl k) := by
  grind [oweCredits, keeps_sendLink, keeps_modPort]
theorem keeps_releaseFlit {n f} : Keeps s0 (releaseFlit s n f).1 := by
  grind [releaseFlit, keeps_modPort, keeps_setPort, keeps_oweCredits]
theorem keeps_releaseHeld {n k bad} : Keeps s0 (releaseHeld n k (s, bad)).1 := by
  induction k generalizing s bad <;> grind [releaseHeld, keeps_releaseFlit, keeps_setPort]
theorem keeps_nakLane {n seq k l} : Keeps s0 (nakLane n seq k l s) := by
  induction k generalizing s l with
  | zero => exact h
  | succ k ih => cases l with
    | nil => exact h
    | cons b r => exact ih (keeps_sendLink h)
theorem keeps_failFlits {n seq l} : Keeps s0 (failFlits s n seq l) := by
  grind [failFlits, keeps_laneFail, keeps_nakLane, keeps_setPort, keeps_foldl]
theorem keeps_badCodeword {n f} : Keeps s0 (badCodeword s n f).1 := by
  grind [badCodeword, keeps_modPort, keeps_mk, coresOk_cores, memOk_hbm, memOk_staging, fusesOk_sec]
theorem keeps_acceptFlit {port f} : Keeps s0 (acceptFlit s port f) := by
  grind [acceptFlit, keeps_releaseFlit, keeps_modPort, keeps_partnerLost, keeps_takeAck, keeps_releaseHeld, keeps_setPort]
theorem keeps_execFlitReceive {port f} : KeepsNext s0 (execFlitReceive port f s) := by
  grind [execFlitReceive, keeps_modPort, keeps_badCodeword, keeps_acceptFlit, keeps_failFlits, keepsNext_next]
theorem keeps_execNak {port base mask} : KeepsNext s0 (execNak port base mask s) := by
  grind [execNak, keeps_emitFlit, keeps_setPort, keeps_foldl, keepsNext_next]
theorem keeps_execCreditReturn {port vl credits} : KeepsNext s0 (execCreditReturn port vl credits s) := by
  grind [execCreditReturn, keeps_modPort, keeps_pump, keepsNext_next]
theorem keeps_execCreditReturnTimer {port vl} : KeepsNext s0 (execCreditReturnTimer port vl s) := by
  grind [execCreditReturnTimer, keeps_sendLink, keeps_modPort, keepsNext_next]
theorem keeps_execRekey {port} : KeepsNext s0 (execRekey port s) := by
  grind [execRekey, keeps_sendLink, keeps_setPort, keepsNext_next]
theorem keeps_execRekeyAcknowledged {port} : KeepsNext s0 (execRekeyAcknowledged port s) := by
  grind [execRekeyAcknowledged, keeps_pump, keeps_setPort, keepsNext_next]
end
end Sys2Proof.Machine
end

section
/-! PROOFS. The byte memories and the fuses are kept: keys and evidence. -/

set_option Elab.async false

namespace Sys2Proof.Machine
section
variable {s0 s : State} (h : Keeps s0 s)
include h
theorem keeps_attestation {scope colony nonce} : Keeps s0 (attestation s scope colony nonce).1 := by
  grind [attestation, keeps_signDevice]
theorem keeps_orWait {before id} : Keeps s0 before → Keeps s0 (orWait before id s) := by
  grind [orWait]
theorem keeps_execAttest {cmd} : KeepsNext s0 (execAttest cmd s) := by
  grind [execAttest, keeps_writeReport, keeps_direct, keeps_orWait, keeps_attestation, keepsNext_next]
theorem keeps_endLoad {cmd n} : Keeps s0 (endLoad s cmd n) := by
  grind [endLoad, keeps_bonorFault, keeps_completeOk, keeps_modSlot]
theorem keeps_execKeyLoad {cmd blob} : KeepsNext s0 (execKeyLoad cmd blob s) := by
  unfold execKeyLoad
  repeat' split
  all_goals grind [keeps_srcRead, keeps_vaFault, keeps_endLoad, keeps_modSlot, keeps_modCmd, keeps_waitIn, keeps_direct, keeps_refuseCmd,
      keeps_drawFree, keepsNext_next]
theorem keeps_retireUsers {n} : Keeps s0 (retireUsers s n) := by
  unfold retireUsers
  repeat' split
  all_goals grind [keeps_startTeardown, keeps_abortCmd, keeps_mk, coresOk_cores, memOk_hbm, memOk_staging, fusesOk_sec, keeps_foldl]
theorem keeps_execKeyRetire {cmd} : KeepsNext s0 (execKeyRetire cmd s) := by
  grind [execKeyRetire, keeps_retireUsers, keeps_settleColonies, keeps_modSlot, keeps_waitIn, keeps_direct, keeps_refuseCmd, keepsNext_next]
theorem keeps_execKeyZeroise {slot} : KeepsNext s0 (execKeyZeroise slot s) := by
  grind [execKeyZeroise, keeps_completeOk, keeps_modSlot, keepsNext_next]
theorem keeps_execKeySlotCheckFail {slot} : KeepsNext s0 (execKeySlotCheckFail slot s) := by
  unfold execKeySlotCheckFail; grind [keeps_retireUsers, keeps_fenceFault, keeps_settleColonies, keeps_refuseCmd, keeps_recordFault, keeps_mk,
      coresOk_cores, memOk_hbm, memOk_staging, fusesOk_sec, keepsNext_next]
theorem keeps_execSealSession {cmd blob} : KeepsNext s0 (execSealSession cmd blob s) := by
  refine keepsNext_next.2 (keeps_direct h fun c => ?_)
  split
  · exact h
  · split
    · exact keeps_vaFault (keeps_modCmd h)
    · next t b hb =>
      have ht := keeps_srcRead h hb
      split
      · exact keeps_refuseCmd ht
      · exact keeps_orWait (keeps_writeReport (keeps_modCol (keeps_signDevice (keeps_drawFree ht)))) ht
end
end Sys2Proof.Machine
end

section
/-! PROOFS. The byte memories and the fuses are kept: the fabric. -/

set_option Elab.async false

namespace Sys2Proof.Machine
section
variable {s0 s : State} (h : Keeps s0 s)
include h
theorem keeps_execFabricAddressWrite {value} : KeepsNext s0 (execFabricAddressWrite value s) := by
  grind [execFabricAddressWrite, keeps_mk, coresOk_cores, memOk_hbm, memOk_staging, fusesOk_sec, keepsNext_next]
theorem keeps_needPeer {colony faddr} : Keeps s0 (needPeer s colony faddr) := by
  grind [needPeer, keeps_modCol]
theorem keeps_addPeer {colony faddr job} : Keeps s0 (addPeer s colony faddr job) := by
  grind [addPeer, keeps_needPeer, keeps_modCol]
theorem keeps_execWindowWrite : KeepsNext s0 (execWindowWrite s) := by
  grind [execWindowWrite, keeps_needPeer, keeps_mk, coresOk_cores, memOk_hbm, memOk_staging, fusesOk_sec, keepsNext_next]
theorem keeps_execWindowRead : KeepsNext s0 (execWindowRead s) := by
  grind [execWindowRead, keeps_mk, coresOk_cores, memOk_hbm, memOk_staging, fusesOk_sec, keepsNext_next]
theorem keeps_revokeWhere {p} : Keeps s0 (revokeWhere s p) := by
  grind [revokeWhere, keeps_mk, coresOk_cores, memOk_hbm, memOk_staging, fusesOk_sec]
theorem keeps_execWindowRevoke : KeepsNext s0 (execWindowRevoke s) := by
  grind [execWindowRevoke, keeps_revokeWhere, keepsNext_next]
theorem keeps_noteDelivered {port bseq} : Keeps s0 (noteDelivered s port bseq) := by
  grind [noteDelivered, keeps_mk, coresOk_cores, memOk_hbm, memOk_staging, fusesOk_sec]
theorem keeps_bulkArrives {port hd t} (ht : bulkArrives s port hd = some t) : Keeps s0 t := by
  grind [bulkArrives, keeps_noteDelivered]
theorem keeps_forward {n x2} : Keeps s0 (forward s n x2) := by
  unfold forward; grind [keeps_queuePacket]
theorem keeps_transitArrives {port p t} (ht : transitArrives s port p = some t) : Keeps s0 t := by
  cases p <;> grind [transitArrives, keeps_noteDelivered]
theorem keeps_execTransitForward {inPort packet} : KeepsNext s0 (execTransitForward inPort packet s) := by
  grind [execTransitForward, keeps_forward, keeps_transitArrives, keeps_mk, coresOk_cores, memOk_hbm, memOk_staging, fusesOk_sec, keepsNext_next]
theorem keeps_windowCheck {src scol instar job boottag widx perm} : Keeps s0 (windowCheck s src scol instar job boottag widx perm).1 := by
  grind [windowCheck, keeps_countStale, keeps_mk, coresOk_cores, memOk_hbm, memOk_staging, fusesOk_sec]
theorem keeps_remember {src mseq rtype value} : Keeps s0 (remember s src mseq rtype value) := by
  grind [remember, keeps_mk, coresOk_cores, memOk_hbm, memOk_staging, fusesOk_sec]
theorem keeps_sendAck {m status} : Keeps s0 (sendAck s m status) := by
  grind [sendAck, keeps_sendMsg]
theorem keeps_acked {m status} : Keeps s0 (acked s m status) := by
  grind [acked, keeps_remember, keeps_sendAck]
theorem keeps_sendBusy {m} : Keeps s0 (sendBusy s m) := by
  grind [sendBusy, keeps_sendMsg]
theorem keeps_once {port m} {again : Nat → State} {act : State → State} (hg : ∀ v, Keeps s0 (again v)) (ha : Keeps s0 (act s)) :
    Keeps s0 (once s port m again act) := by
  grind [once, keeps_sendAck]
theorem keeps_execRevoke {port m} : KeepsNext s0 (execRevoke port m s) := by
  grind [execRevoke, keeps_once, keeps_revokeWhere, keeps_acked, keepsNext_next]
theorem keeps_execInstarRetire {port m value boottag} : KeepsNext s0 (execInstarRetire port m value boottag s) := by
  unfold execInstarRetire; grind [keeps_once, keeps_acked, keeps_mk, coresOk_cores, memOk_hbm, memOk_staging, fusesOk_sec, keepsNext_next]
theorem keeps_actAbort {m aseq cause origin} : Keeps s0 (actAbort s m aseq cause origin) := by
  grind [actAbort, keeps_sendMsg, keeps_endJob, keeps_modCol, keeps_mk, coresOk_cores, memOk_hbm, memOk_staging, fusesOk_sec, keeps_foldl]
theorem keeps_execPeerAbort {port m aseq cause origin} : KeepsNext s0 (execPeerAbort port m aseq cause origin s) := by
  grind [execPeerAbort, keeps_actAbort, keeps_settleColonies, keeps_once, keeps_acked, keepsNext_next]
theorem keeps_execControlRetransmit {mseq} : KeepsNext s0 (execControlRetransmit mseq s) := by
  grind [execControlRetransmit, keeps_putMsg, keeps_mk, coresOk_cores, memOk_hbm, memOk_staging, fusesOk_sec, keepsNext_next]
end
end Sys2Proof.Machine
end

section
/-! PROOFS. The byte memories and the fuses are kept: shadow and scratch lines. -/

set_option Elab.async false

namespace Sys2Proof.Machine
section
variable {s0 s : State} (h : Keeps s0 s)
include h
theorem keeps_execLds {core w x2} : KeepsNext s0 (execLds core w x2 s) := by
  grind [execLds, keeps_rangeFault, keeps_accessFault, keeps_issue, keeps_spRead, keeps_retire, memOk_coreAt, keepsNext_next, sp_setSreg]
theorem keeps_execSts {core w} : KeepsNext s0 (execSts core w s) := by
  grind [execSts, keeps_rangeFault, keeps_accessFault, keeps_issue, keeps_retire, memOk_coreAt, memOk_mwrite, keepsNext_next]
theorem keeps_execVld {core w x2} : KeepsNext s0 (execVld core w x2 s) := by
  grind [execVld, keeps_rangeFault, keeps_accessFault, keeps_issue, keeps_spRead, keeps_retire, memOk_coreAt, keepsNext_next, sp_setVreg]
theorem keeps_execVst {core w} : KeepsNext s0 (execVst core w s) := by
  grind [execVst, keeps_illegal, keeps_rangeFault, keeps_accessFault, keeps_issue, keeps_retire, memOk_storeLines, memOk_coreAt, keepsNext_next]
end
end Sys2Proof.Machine
end

section
/-! PROOFS. The byte memories and the fuses are kept: matrix instructions. -/

set_option Elab.async false

namespace Sys2Proof.Machine
section
variable {s0 s : State} (h : Keeps s0 s)
include h
theorem keeps_execAccClr {core w} : KeepsNext s0 (execAccClr core w s) := by
  grind [execAccClr, keeps_illegal, keeps_issue, keeps_retire, memOk_coreAt, keepsNext_next, sp_clearTile]
theorem keeps_execMm {core w} : KeepsNext s0 (execMm core w s) := by
  grind [execMm, keeps_issue, keeps_enqueueMatrix, memOk_coreAt, keepsNext_next]
theorem keeps_execAccRaw {core w} : KeepsNext s0 (execAccRaw core w s) := by
  grind [execAccRaw, keeps_issue, keeps_enqueueMatrix, memOk_coreAt, keepsNext_next]
theorem keeps_execAccExp {core w} : KeepsNext s0 (execAccExp core w s) := by
  grind [execAccExp, keeps_issue, keeps_enqueueMatrix, memOk_coreAt, keepsNext_next]
theorem keeps_execAccWr {core w} : KeepsNext s0 (execAccWr core w s) := by
  grind [execAccWr, keeps_issue, keeps_enqueueMatrix, memOk_coreAt, keepsNext_next]
theorem keeps_checkedOffsets {n q} {body : State → State} (hb : Keeps s0 (body s)) : Keeps s0 (checkedOffsets s n q body) := by
  grind [checkedOffsets, keeps_rangeFault, keeps_accessFault]
theorem keeps_runMm {n cmd q x4} : Keeps s0 (runMm s n cmd q x4) := by
  unfold runMm; grind [keeps_illegal, keeps_spRead, keeps_setCore, keeps_checkedOffsets, memOk_coreAt, sp_setTile, sp_popMatrix]
theorem keeps_runAccRaw {n cmd q x4} : Keeps s0 (runAccRaw s n cmd q x4) := by
  unfold runAccRaw; grind [keeps_illegal, keeps_spRead, keeps_setCore, keeps_checkedOffsets, memOk_coreAt, sp_setTile, sp_popMatrix]
theorem keeps_runAccExp {n cmd q} : Keeps s0 (runAccExp s n cmd q) := by
  unfold runAccExp
  repeat' split
  all_goals grind [keeps_illegal, keeps_setCore, keeps_checkedOffsets, memOk_coreAt, memOk_mwrite, sp_setTile, sp_popMatrix]
theorem keeps_runAccWr {n cmd q} : Keeps s0 (runAccWr s n cmd q) := by
  unfold runAccWr
  grind [keeps_illegal, keeps_setCore, keeps_checkedOffsets, memOk_coreAt, sp_setTile, sp_popMatrix, memOk_storeRows, memOk_storeBlocked,
      memOk_storeScales]
theorem keeps_accFault {n q} : Keeps s0 (accFault s n q) := by
  grind [accFault, keeps_afterFence, keeps_sramFault]
theorem keeps_execMatrixDispatch {core x1} : KeepsNext s0 (execMatrixDispatch core x1 s) := by
  grind [execMatrixDispatch, keeps_accFault, keeps_runAccRaw, keeps_runAccWr, keeps_runAccExp, keeps_runMm, keepsNext_next]
end
end Sys2Proof.Machine
end

section
/-! PROOFS. The byte memories and the fuses are kept: collectives. -/

set_option Elab.async false

namespace Sys2Proof.Machine
section
variable {s0 s : State} (h : Keeps s0 s)
include h
theorem keeps_modStep {id i f} : Keeps s0 (modStep s id i f) := by
  grind [modStep, keeps_modCmd]
theorem keeps_reach {id c eng va acc} : Keeps s0 (reach s id c eng va acc).state := by
  unfold reach; grind [keeps_modPort, keeps_rewalk, keeps_vaFault, keeps_commandFault, keeps_noteWalk, Reach.state]
theorem keeps_reach_stop {id c eng va acc t} (e : reach s id c eng va acc = .stop t) : Keeps s0 t := keeps_of_reach_stop (keeps_reach h) e
theorem keeps_reach_at {id c eng va acc t d p} (e : reach s id c eng va acc = .at_ t d p) : Keeps s0 t := keeps_of_reach_at (keeps_reach h) e
theorem keeps_reachOwn {id c eng va o} : Keeps s0 (reachOwn s id c eng va o) := by
  unfold reachOwn; grind [keeps_preempt, keeps_commandFault, keeps_countStale]
theorem keeps_engineLine {id c eng va} : Keeps s0 (engineLine s id c eng va).state := by
  unfold engineLine
  repeat' split
  all_goals grind [keeps_reach, keeps_checkRead, keeps_ncReadLine, keeps_lineFault, keeps_reachOwn, → keeps_reach_stop, → keeps_reach_at, Got.state]
theorem keeps_engineLine_stop {id c eng va t} (e : engineLine s id c eng va = .stop t) : Keeps s0 t := keeps_of_stop (keeps_engineLine h) e
theorem keeps_engineLine_data {id c eng va t d} (e : engineLine s id c eng va = .data t d) : Keeps s0 t := keeps_of_data (keeps_engineLine h) e
theorem keeps_engineLines {id c eng va k d} : Keeps s0 (engineLines id c eng k va s d).state := by
  induction k generalizing s va d <;> grind [engineLines, → keeps_engineLine_stop, → keeps_engineLine_data, keeps_engineLine, Got.state]
theorem keeps_engineLines_stop {id c eng va k d t} (e : engineLines id c eng k va s d = .stop t) : Keeps s0 t := keeps_of_stop (keeps_engineLines h) e
theorem keeps_engineLines_data {id c eng va k d t b} (e : engineLines id c eng k va s d = .data t b) : Keeps s0 t := keeps_of_data (keeps_engineLines h) e
theorem keeps_engineRead {id c eng va len} : Keeps s0 (engineRead s id c eng va len).state := by
  unfold engineRead
  repeat' split
  all_goals grind [keeps_engineLines, → keeps_engineLines_stop, → keeps_engineLines_data, Got.state]
theorem keeps_engineRead_stop {id c eng va len t} (e : engineRead s id c eng va len = .stop t) : Keeps s0 t := keeps_of_stop (keeps_engineRead h) e
theorem keeps_engineRead_data {id c eng va len t d} (e : engineRead s id c eng va len = .data t d) : Keeps s0 t := keeps_of_data (keeps_engineRead h) e
theorem keeps_engineLinePut {id c eng va bs} : Keeps s0 (engineLinePut s id c eng va bs).state := by
  unfold engineLinePut
  repeat' split
  all_goals grind [keeps_reach, keeps_faultCmd, keeps_reachOwn, keeps_bindShadow, keeps_ncWriteLine, → keeps_reach_stop, → keeps_reach_at, Got.state]
theorem keeps_engineLinePut_stop {id c eng va bs t} (e : engineLinePut s id c eng va bs = .stop t) : Keeps s0 t := keeps_of_stop (keeps_engineLinePut h) e
theorem keeps_engineLinePut_data {id c eng va bs t d} (e : engineLinePut s id c eng va bs = .data t d) : Keeps s0 t := keeps_of_data (keeps_engineLinePut h) e
theorem keeps_enginePut {id c eng k va d} : Keeps s0 (enginePut id c eng k va d s).state := by
  induction k generalizing s va d <;> grind [enginePut, → keeps_engineLinePut_stop, → keeps_engineLinePut_data, keeps_engineLinePut, Got.state]
theorem keeps_enginePut_stop {id c eng k va d t} (e : enginePut id c eng k va d s = .stop t) : Keeps s0 t := keeps_of_stop (keeps_enginePut h) e
theorem keeps_enginePut_data {id c eng k va d t b} (e : enginePut id c eng k va d s = .data t b) : Keeps s0 t := keeps_of_data (keeps_enginePut h) e
theorem keeps_endCollective {id status} : Keeps s0 (endCollective s id status) := by
  grind [endCollective, keeps_raiseAbort, keeps_abortCmd]
theorem keeps_finishCollective {id} : Keeps s0 (finishCollective s id) := by
  grind [finishCollective, keeps_chargeAttempt, keeps_modCmd]
theorem keeps_sumSource {id eng k} : Keeps s0 (sumSource id eng k s) := by
  induction k generalizing s <;> grind [sumSource, → keeps_engineLine_stop, → keeps_engineLine_data, keeps_engineLine, keeps_modCmd, Got.state]
theorem keeps_finalChunks {id i eng k} : Keeps s0 (finalChunks id i eng k s) := by
  induction k generalizing s with
  | zero => exact h
  | succ k ih =>
    unfold finalChunks
    repeat' split
    all_goals grind [→ keeps_enginePut_stop, → keeps_enginePut_data, keeps_modStep, keeps_modCmd]
theorem keeps_sendData {id c eng p u n} : Keeps s0 (sendData s id c eng p u n).1.state := by
  unfold sendData
  repeat' split
  all_goals grind [keeps_engineRead, → keeps_engineRead_stop, → keeps_engineRead_data, Got.state]
theorem keeps_noRoute {id status} : Keeps s0 (noRoute s id status) := by
  grind [noRoute, keeps_endCollective, keeps_abortCmd]
theorem keeps_countOut {colony port bytes} : Keeps s0 (countOut s colony port bytes) := by
  grind [countOut, keeps_modAcct]
theorem keeps_sendUnits {id i c eng p u n e port tag} : Keeps s0 (sendUnits s id i c eng p u n e port tag).1 := by
  have h1 := keeps_sendData (id := id) (c := c) (eng := eng) (p := p) (u := u) (n := n) h
  unfold sendUnits
  dsimp only
  split
  · next hg => exact keeps_of_stop h1 hg
  · next hg => exact keeps_countFor (keeps_putPacket (keeps_inflightInc (keeps_modPort (keeps_modCmd (keeps_of_data h1 hg)))))
theorem keeps_sendChunks {id i eng k} : Keeps s0 (sendChunks id i eng k s) := by
  induction k generalizing s with
  | zero => rw [sendChunks_zero]; exact h
  | succ k ih =>
    rw [sendChunks_succ]
    split
    · exact h
    split
    · exact h
    split
    · exact h
    split
    · exact keeps_noRoute h
    split
    · exact h
    · extract_lets n
      split
      next t went hu =>
      have ht : Keeps s0 t := keeps_fst (keeps_sendUnits h) hu
      exact keeps_ite (ih (keeps_modStep ht)) ht
theorem keeps_sendBarrier {id i c p} : Keeps s0 (sendBarrier s id i c p) := by
  grind [sendBarrier, keeps_sendMsg, keeps_modStep, keeps_noRoute]
theorem keeps_runStep {id eng i} : Keeps s0 (runStep id eng s i) := by
  grind [runStep, keeps_sendBarrier, keeps_modStep, keeps_finalChunks, keeps_sendChunks]
theorem keeps_progress {id} : Keeps s0 (progress s id) := by
  grind [progress, keeps_runStep, keeps_sumSource, keeps_finishCollective, keeps_foldl]
theorem keeps_beginCollective {id c members plan} : Keeps s0 (beginCollective s id c members plan) := by
  unfold beginCollective
  dsimp only
  repeat' split
  all_goals first | exact h | exact keeps_modCmd h | exact keeps_refuseCmd h | skip
  all_goals
    refine keeps_progress (keeps_modCol (keeps_foldl (keeps_setCmd (keeps_setCol h)) (fun t p ht => ?_) _))
    grind [keeps_addPeer]
theorem keeps_startCollective {id c} : Keeps s0 (startCollective s id c) := by
  grind [startCollective, keeps_beginCollective, keeps_vaFault, keeps_noteRead, keeps_refuseCmd]
theorem keeps_collectiveRow {id op} : Keeps s0 (collectiveRow s id op) := by
  grind [collectiveRow, keeps_startCollective, keeps_progress]
theorem keeps_execReduce {cmd} : KeepsNext s0 (execReduce cmd s) := by
  grind [execReduce, keeps_collectiveRow, keepsNext_next]
theorem keeps_execGather {cmd} : KeepsNext s0 (execGather cmd s) := by
  grind [execGather, keeps_collectiveRow, keepsNext_next]
theorem keeps_execScatter {cmd} : KeepsNext s0 (execScatter cmd s) := by
  grind [execScatter, keeps_collectiveRow, keepsNext_next]
theorem keeps_execBarrier {cmd} : KeepsNext s0 (execBarrier cmd s) := by
  grind [execBarrier, keeps_collectiveRow, keepsNext_next]
theorem keeps_replyPacket {x1 kind status cls data} : Keeps s0 (replyPacket s x1 kind status cls data) := by
  grind [replyPacket, keeps_putPacket]
theorem keeps_refusePacket {x1 status cls} : Keeps s0 (refusePacket s x1 status cls) := by
  grind [refusePacket, keeps_replyPacket]
theorem keeps_badArrival {id x2 cls} : Keeps s0 (badArrival s id x2 cls) := by
  grind [badArrival, keeps_endCollective, keeps_refusePacket]
theorem keeps_execWritePacket {port x1 payload} : KeepsNext s0 (execWritePacket port x1 payload s) := by
  unfold execWritePacket
  split
  · exact keepsNext_next.2 h
  next t ht =>
  have h0 := keeps_bulkArrives h ht
  split
  next s1 got hw =>
  have h1 : Keeps s0 s1 := by grind [keeps_windowCheck]
  clear hw
  split
  · exact keepsNext_next.2 (keeps_settleColonies (keeps_refusePacket h1))
  split
  · exact keepsNext_next.2 (keeps_refusePacket h1)
  · extract_lets size k va
    repeat' split
    all_goals grind [keeps_badArrival, keeps_replyPacket, → keeps_enginePut_stop, → keeps_enginePut_data, keeps_progress, keeps_refusePacket,
      keeps_modCmd, keepsNext_next]
theorem keeps_execAddPacket {port x1 payload} : KeepsNext s0 (execAddPacket port x1 payload s) := by
  unfold execAddPacket
  split
  · exact keepsNext_next.2 h
  next t ht =>
  have h0 := keeps_bulkArrives h ht
  split
  next s1 got hw =>
  have h1 : Keeps s0 s1 := by grind [keeps_windowCheck]
  clear hw
  repeat' split
  all_goals grind [keeps_settleColonies, keeps_badArrival, keeps_replyPacket, keeps_progress, keeps_refusePacket, keeps_modCmd, keepsNext_next]
theorem keeps_lateReply {x1} : Keeps s0 (lateReply s x1) := by
  grind [lateReply, keeps_modPort, keeps_countStale, keeps_finishReqs, keeps_mk, coresOk_cores, memOk_hbm, memOk_staging, fusesOk_sec]
theorem keeps_freeReq {x1 r} : Keeps s0 (freeReq s x1 r) := by
  grind [freeReq, keeps_modPort, keeps_finishReqs]
theorem keeps_execWack {port x1} : KeepsNext s0 (execWack port x1 s) := by
  unfold execWack
  split
  · exact keepsNext_next.2 h
  next t ht =>
  have h0 := keeps_bulkArrives h ht
  grind [keeps_lateReply, keeps_modStep, keeps_settleColonies, keeps_freeReq, keeps_progress, keepsNext_next]
theorem keeps_execRefuse {port x1} : KeepsNext s0 (execRefuse port x1 s) := by
  unfold execRefuse
  repeat' split
  all_goals grind [keeps_lateReply, keeps_modPort, keeps_endCollective, keeps_bulkArrives, keeps_settleColonies, keeps_freeReq, keepsNext_next]
theorem keeps_execCollectiveBusyRetry {port tag} : KeepsNext s0 (execCollectiveBusyRetry port tag s) := by
  unfold execCollectiveBusyRetry
  repeat' split
  all_goals grind [keeps_settleColonies, keeps_sendUnits, keeps_noRoute, keeps_finishReqs, keepsNext_next]
theorem keeps_execBarrierMessage {port m cseq window boottag} : KeepsNext s0 (execBarrierMessage port m cseq window boottag s) := by
  refine keepsNext_next.2 (keeps_once h (fun _ => h) ?_)
  split
  next s1 got hw =>
  have h1 : Keeps s0 s1 := by grind [keeps_windowCheck]
  repeat' split
  all_goals grind [keeps_endCollective, keeps_modStep, keeps_settleColonies, keeps_sendBusy, keeps_progress, keeps_acked]
end
end Sys2Proof.Machine
end

section
/-! PROOFS. The byte memories and the fuses are kept: handoff. -/

set_option Elab.async false

namespace Sys2Proof.Machine
section
variable {s0 s : State} (h : Keeps s0 s)
include h
theorem keeps_dropHandoff {i} : Keeps s0 (dropHandoff s i) := by
  grind [dropHandoff, keeps_mk, coresOk_cores, memOk_hbm, memOk_staging, fusesOk_sec]
theorem keeps_handoffRow {id phase} {body : Cmd → State} (hb : ∀ c, Keeps s0 (body c)) : Keeps s0 (handoffRow s id phase body) := by
  grind [handoffRow, keeps_directOrWaiting, keeps_refuseCmd]
theorem keeps_handoffMsg {c mtype body cmd} : Keeps s0 (handoffMsg s c mtype body cmd) := by
  grind [handoffMsg, keeps_sendMsg]
theorem keeps_execHandoffOffer {cmd} : KeepsNext s0 (execHandoffOffer cmd s) := by
  unfold execHandoffOffer
  repeat' split
  all_goals grind [keeps_addPeer, keeps_handoffMsg, keeps_waitIn, keeps_handoffRow, keeps_refuseCmd, keeps_setHandoff, keepsNext_next]
theorem keeps_execOffer {port m hseq window rcol offset len} : KeepsNext s0 (execOffer port m hseq window rcol offset len s) := by
  grind [execOffer, keeps_sendBusy, keeps_once, keeps_setHandoff, keeps_acked, keepsNext_next]
theorem keeps_finishAccept {id} : Keeps s0 (finishAccept s id) := by
  grind [finishAccept, keeps_chargeAttempt, keeps_modCmd]
theorem keeps_readTarget {id c eng va len} : (∀ t, readTarget s id c eng va len = .ok t → Keeps s0 t) ∧ (∀ t, readTarget s id c eng va len = .error t → Keeps s0 t) := by
  grind [readTarget, → keeps_reach_stop, → keeps_reach_at, keeps_reach, Reach.state]
theorem keeps_sendReads {id eng k} : Keeps s0 (sendReads id eng k s) := by
  induction k generalizing s with
  | zero => rw [sendReads_zero]; exact h
  | succ k ih =>
    rw [sendReads_succ]
    split
    · exact h
    split
    · exact h
    split
    · exact h
    split
    · exact keeps_noRoute h
    split
    · exact h
    · extract_lets n
      split
      · next ht => exact (keeps_readTarget h).2 _ ht
      · next ht =>
        have h1 := (keeps_readTarget h).1 _ ht
        exact ih (keeps_putPacket (keeps_modCmd (keeps_inflightInc (keeps_modPort h1))))
theorem keeps_acceptProgress {id} : Keeps s0 (acceptProgress s id) := by
  grind [acceptProgress, keeps_finishAccept, keeps_sendReads]
theorem keeps_startAccept {id i x3 c} : Keeps s0 (startAccept s id i x3 c) := by
  grind [startAccept, keeps_addPeer, keeps_setCmd, keeps_acceptProgress, keeps_setCol, keeps_waitIn, keeps_refuseCmd, keeps_setHandoff]
theorem keeps_execHandoffAccept {cmd} : KeepsNext s0 (execHandoffAccept cmd s) := by
  grind [execHandoffAccept, keeps_startAccept, keeps_acceptProgress, keeps_settleColonies, keeps_waitIn, keeps_handoffRow, keeps_refuseCmd,
      keepsNext_next]
theorem keeps_execAccept {port m hseq rcol} : KeepsNext s0 (execAccept port m hseq rcol s) := by
  grind [execAccept, keeps_once, keeps_setHandoff, keeps_acked, keepsNext_next]
theorem keeps_execReadPacket {port x1 lines} : KeepsNext s0 (execReadPacket port x1 lines s) := by
  unfold execReadPacket
  split
  · exact keepsNext_next.2 h
  next t ht =>
  have h0 := keeps_bulkArrives h ht
  split
  next s1 got hw =>
  have h1 : Keeps s0 s1 := by grind [keeps_windowCheck]
  clear hw
  split
  · exact keepsNext_next.2 (keeps_settleColonies (keeps_refusePacket h1))
  extract_lets va
  repeat' split
  all_goals grind [keeps_lineRecord, keeps_countOut, keeps_replyPacket, keeps_noteLines, keeps_refusePacket, keepsNext_next]
theorem keeps_execReadData {port x1 payload} : KeepsNext s0 (execReadData port x1 payload s) := by
  unfold execReadData
  split
  · exact keepsNext_next.2 h
  next t ht =>
  have h0 := keeps_bulkArrives h ht
  have hp : ∀ p r, Keeps s0 (freeReq t p r) := fun _ _ => keeps_freeReq h0
  repeat' split
  · exact keepsNext_next.2 (keeps_settleColonies (keeps_lateReply h0))
  · exact keepsNext_next.2 (keeps_lateReply h0)
  · exact keepsNext_next.2 (keeps_lateReply h0)
  · exact keepsNext_next.2 h
  · next he => exact keepsNext_next.2 (keeps_settleColonies (keeps_enginePut_stop (hp _ _) he))
  · next he => exact keepsNext_next.2 (keeps_settleColonies (keeps_acceptProgress (keeps_modCmd (keeps_enginePut_data (hp _ _) he))))
theorem keeps_execHandoffRelease {cmd} : KeepsNext s0 (execHandoffRelease cmd s) := by
  unfold execHandoffRelease
  grind [keeps_handoffMsg, keeps_waitIn, keeps_handoffRow, keeps_refuseCmd, keeps_setHandoff, keepsNext_next]
theorem keeps_execRelease {port m hseq rcol} : KeepsNext s0 (execRelease port m hseq rcol s) := by
  grind [execRelease, keeps_dropHandoff, keeps_once, keeps_acked, keepsNext_next]
theorem keeps_released {i x2} : Keeps s0 (released s i x2) := by
  grind [released, keeps_completeOk, keeps_dropHandoff]
theorem keeps_execHandoffAudit {cmd} : KeepsNext s0 (execHandoffAudit cmd s) := by
  grind [execHandoffAudit, keeps_handoffMsg, keeps_waitIn, keeps_handoffRow, keeps_refuseCmd, keepsNext_next]
theorem keeps_sendAuditR {m hseq colony state} : Keeps s0 (sendAuditR s m hseq colony state) := by
  grind [sendAuditR, keeps_sendMsg]
theorem keeps_execAuditQ {port m hseq state withdraw} : KeepsNext s0 (execAuditQ port m hseq state withdraw s) := by
  grind [execAuditQ, keeps_sendAuditR, keeps_sendAck, keeps_once, keeps_setHandoff, keeps_acked, keepsNext_next]
theorem keeps_resolve {i hd peer timed} : Keeps s0 (resolve s i hd peer timed) := by
  unfold resolve
  split
  all_goals grind [keeps_released, keeps_sendMsg, keeps_dropHandoff, keeps_setHandoff]
theorem keeps_dropUnacked {mseq} : Keeps s0 (dropUnacked s mseq) := by
  grind [dropUnacked, keeps_mk, coresOk_cores, memOk_hbm, memOk_staging, fusesOk_sec]
theorem keeps_execAuditR {port m hseq state} : KeepsNext s0 (execAuditR port m hseq state s) := by
  unfold execAuditR
  repeat' split
  all_goals grind [keeps_dropUnacked, keeps_completeOk, keeps_dropHandoff, keeps_resolve, keepsNext_next]
theorem keeps_barrierAcked {x status} : Keeps s0 (barrierAcked s x status) := by
  unfold barrierAcked
  repeat' split
  all_goals grind [keeps_endCollective, keeps_modStep, keeps_progress]
theorem keeps_offerAcked {x status} : Keeps s0 (offerAcked s x status) := by
  grind [offerAcked, keeps_completeOk, keeps_dropHandoff, keeps_refuseCmd]
theorem keeps_releaseAcked {x} : Keeps s0 (releaseAcked s x) := by
  grind [releaseAcked, keeps_released]
theorem keeps_noLongerAwaited {mseq} : Keeps s0 (noLongerAwaited s mseq) := by
  grind [noLongerAwaited, keeps_mk, coresOk_cores, memOk_hbm, memOk_staging, fusesOk_sec]
theorem keeps_execAck {port m mseq status} : KeepsNext s0 (execAck port m mseq status s) := by
  grind [execAck, keeps_dropUnacked, keeps_releaseAcked, keeps_settleColonies, keeps_noLongerAwaited, keeps_barrierAcked, keeps_offerAcked,
      keeps_mk, coresOk_cores, memOk_hbm, memOk_staging, fusesOk_sec, keepsNext_next]
theorem keeps_execBusy {port m mseq} : KeepsNext s0 (execBusy port m mseq s) := by
  grind [execBusy, keeps_mk, coresOk_cores, memOk_hbm, memOk_staging, fusesOk_sec, keepsNext_next]
theorem keeps_fencePeer {colony dst} : Keeps s0 (fencePeer s colony dst) := by
  grind [fencePeer, keeps_fencePortAs, keeps_modCol, keeps_recordFault, keeps_foldl]
theorem keeps_messageTimeout {x} : Keeps s0 (messageTimeout s x) := by
  grind [messageTimeout, keeps_fencePeer, keeps_dropUnacked, keeps_endCollective, keeps_noLongerAwaited, keeps_foldl]
theorem keeps_execFabricTimeout {port tag mseq} : KeepsNext s0 (execFabricTimeout port tag mseq s) := by
  grind [execFabricTimeout, keeps_endCollective, keeps_settleColonies, keeps_messageTimeout, keepsNext_next]
theorem keeps_execFlrWaitCut {vf} : KeepsNext s0 (execFlrWaitCut vf s) := by
  unfold execFlrWaitCut
  repeat' split
  all_goals grind [keeps_fencePeer, keeps_dropUnacked, keeps_settleColonies, keeps_modCol, keeps_foldl, keepsNext_next]
theorem keeps_execHandoffTimer {index} : KeepsNext s0 (execHandoffTimer index s) := by
  grind [execHandoffTimer, keeps_sendMsg, keeps_mk, coresOk_cores, memOk_hbm, memOk_staging, fusesOk_sec, keepsNext_next]
theorem keeps_execHandoffWaitTimeout {cmd} : KeepsNext s0 (execHandoffWaitTimeout cmd s) := by
  grind [execHandoffWaitTimeout, keeps_refuseCmd, keepsNext_next]
theorem keeps_execDeclinedExpiry {index} : KeepsNext s0 (execDeclinedExpiry index s) := by
  grind [execDeclinedExpiry, keeps_dropHandoff, keepsNext_next]
end
end Sys2Proof.Machine
end

section
/-! PROOFS. The byte memories and the fuses are kept: reset and boot. -/

set_option Elab.async false

namespace Sys2Proof.Machine
section
variable {s0 s : State} (h : Keeps s0 s)
include h
theorem keeps_resetEntry : Keeps s0 (resetEntry s) := by
  exact ⟨memOk_nil, memOk_nil, coresOk_nil, h.fuses⟩
theorem keeps_bootStart : Keeps s0 (bootStart s) := by
  grind [bootStart, keeps_mk, coresOk_cores, memOk_hbm, memOk_staging, fusesOk_sec]
theorem keeps_resetAndBoot : Keeps s0 (resetAndBoot s) := by
  grind [resetAndBoot, keeps_bootStart, keeps_resetEntry]
theorem keeps_execPowerOn : KeepsNext s0 (execPowerOn s) := by
  grind [execPowerOn, keeps_resetEntry, keeps_mk, coresOk_cores, memOk_hbm, memOk_staging, fusesOk_sec, keepsNext_next]
theorem keeps_execPerstNAssert : KeepsNext s0 (execPerstNAssert s) := by
  grind [execPerstNAssert, keeps_resetEntry, keeps_mk, coresOk_cores, memOk_hbm, memOk_staging, fusesOk_sec, keepsNext_next]
theorem keeps_execPerstNRelease : KeepsNext s0 (execPerstNRelease s) := by
  grind [execPerstNRelease, keeps_bootStart, keeps_mk, coresOk_cores, memOk_hbm, memOk_staging, fusesOk_sec, keepsNext_next]
theorem keeps_execHotReset : KeepsNext s0 (execHotReset s) := by
  grind [execHotReset, keeps_resetEntry, keeps_mk, coresOk_cores, memOk_hbm, memOk_staging, fusesOk_sec, keepsNext_next]
theorem keeps_execHotResetEnd : KeepsNext s0 (execHotResetEnd s) := by
  grind [execHotResetEnd, keeps_bootStart, keepsNext_next]
theorem keeps_execSurpriseRemoval : KeepsNext s0 (execSurpriseRemoval s) := by
  grind [execSurpriseRemoval, keeps_settleColonies, keeps_linkLost, keeps_mk, coresOk_cores, memOk_hbm, memOk_staging, fusesOk_sec, keepsNext_next]
theorem keeps_execPcieLinkTrainingDone : KeepsNext s0 (execPcieLinkTrainingDone s) := by
  grind [execPcieLinkTrainingDone, keeps_mk, coresOk_cores, memOk_hbm, memOk_staging, fusesOk_sec, keepsNext_next]
theorem keeps_execConfigurationRetryEnd : KeepsNext s0 (execConfigurationRetryEnd s) := by
  grind [execConfigurationRetryEnd, keeps_mk, coresOk_cores, memOk_hbm, memOk_staging, fusesOk_sec, keepsNext_next]
theorem keeps_burn {ok} : Keeps s0 (burn s ok).1 := by
  unfold burn
  have hr : s.sec.spareRows - 1 ≤ s.sec.spareRows := Nat.sub_le _ _
  split
  · exact h
  · split
    · obtain ⟨hb, hs, hm, hr⟩ := h.fuses
      exact keeps_mk h.cores h.hbm ⟨hb, hs, hm, (Nat.sub_le _ _).trans hr⟩ h.staging
    · exact keeps_recordFault (keeps_recordFault h)
theorem keeps_bootFails {code} : Keeps s0 (bootFails s code) := by
  grind [bootFails, keeps_mk, coresOk_cores, memOk_hbm, memOk_staging, fusesOk_sec]
theorem keeps_burnBoot {ok} : Keeps s0 (burnBoot s ok) := by
  have hb := keeps_burn h (ok := ok)
  unfold burnBoot
  split
  · exact keeps_mk h.cores h.hbm h.fuses h.staging
  split
  · next s1 he =>
    have h1 : Keeps s0 s1 := by rw [he] at hb; exact hb
    obtain ⟨hboots, hsvn, hroots, hrows⟩ := h1.fuses
    exact keeps_mk h1.cores h1.hbm ⟨hboots.trans (Nat.le_succ _), hsvn, hroots, hrows⟩ h1.staging
  · next s1 he =>
    have h1 : Keeps s0 s1 := by rw [he] at hb; exact hb
    exact keeps_mk h1.cores h1.hbm h1.fuses h1.staging
theorem keeps_execBootSelftest {ctrlPass fusesOk collectorOk rngOk burnOk boottag deviceKey} : KeepsNext s0 (execBootSelftest ctrlPass fusesOk collectorOk rngOk burnOk boottag deviceKey s) := by
  unfold execBootSelftest
  extract_lets ctrl active s1
  have h1 : Keeps s0 s1 := keeps_burnBoot (keeps_modHub h)
  clear_value s1
  have hf : ∀ code, KeepsNext s0 (.next (bootFails s code)) := fun _ => keepsNext_next.2 (keeps_bootFails h)
  repeat' split
  · exact keepsNext_next.2 h
  · exact hf _
  · exact hf _
  · exact hf _
  · exact hf _
  · next hd =>
    have h2 := keeps_snd (keeps_drawFree h1) hd
    exact keepsNext_next.2 (keeps_mk h2.cores h2.hbm h2.fuses h2.staging)
theorem keeps_execLowerTreeDone : KeepsNext s0 (execLowerTreeDone s) := by
  grind [execLowerTreeDone, keeps_announceAll, keeps_mk, coresOk_cores, memOk_hbm, memOk_staging, fusesOk_sec, keepsNext_next]
theorem keeps_tryStart : Keeps s0 (tryStart s) := by
  grind [tryStart, keeps_mk, coresOk_cores, memOk_hbm, memOk_staging, fusesOk_sec]
theorem keeps_channelFails {ch} : Keeps s0 (channelFails s ch) := by
  grind [channelFails, keeps_modChan, keeps_fencedRecs, keeps_recordFault]
omit h in
theorem coresOk_numberCores {failed die} (hc : CoresOk s0 s.cores) : CoresOk s0 (numberCores s failed die) := by
  have hn : ∀ n, MemOk s0 (coreAt s n).sp := fun n => memOk_tget hc
  simp only [CoresOk, numberCores, List.forall_mem_map]
  intro i _
  split
  · exact hn _
  · exact hn _
theorem keeps_execBootPrepDone {failedTiles failedChannels} : KeepsNext s0 (execBootPrepDone failedTiles failedChannels s) := by
  unfold execBootPrepDone
  split
  · exact keepsNext_next.2 h
  refine keepsNext_next.2 (keeps_tryStart (keeps_foldl (keeps_mk ?_ h.hbm h.fuses h.staging) (fun _ _ ht => keeps_channelFails ht) _))
  intro e he
  obtain ⟨d, _, hd⟩ := List.mem_flatMap.1 he
  exact coresOk_numberCores h.cores e hd
theorem keeps_execBootPpr {failed} : KeepsNext s0 (execBootPpr failed s) := by
  grind [execBootPpr, keeps_tryStart, keeps_mk, coresOk_cores, memOk_hbm, memOk_staging, fusesOk_sec, keepsNext_next, sp_wiped]
theorem keeps_takeBundle {b len source} : Keeps s0 (takeBundle s b len source).1 := by
  grind [takeBundle, keeps_tryStart, keeps_mk, coresOk_cores, memOk_hbm, memOk_staging, fusesOk_sec]
theorem keeps_execBootGo {value b} : KeepsNext s0 (execBootGo value b s) := by
  unfold execBootGo
  have h1 : ∀ m : Mgmt, MemOk s0 m.staging → Keeps s0 { s with mgt := m } := fun m hm => keeps_mk h.cores h.hbm h.fuses hm
  grind [keeps_takeBundle, keeps_logAer, memOk_nil, keepsNext_next]
theorem keeps_execBonorLoad : KeepsNext s0 (execBonorLoad s) := by
  grind [execBonorLoad, keeps_announceAll, keeps_mk, coresOk_cores, memOk_hbm, memOk_staging, fusesOk_sec, keepsNext_next]
end
end Sys2Proof.Machine
end

section
/-! PROOFS. The byte memories and the fuses are kept: global access and copies. -/

set_option Elab.async false

namespace Sys2Proof.Machine
section
variable {s0 s : State} (h : Keeps s0 s)
include h
theorem keeps_stallWant {n va write} : Keeps s0 (stallWant s n va write) := by
  grind [stallWant, keeps_modCore]
theorem keeps_loadLine {n w a line} : Keeps s0 (loadLine s n w a line) := by
  grind [loadLine, keeps_retire, memOk_coreAt, sp_setSreg]
theorem keeps_dcRead {n ch off x4 index} : Keeps s0 (dcRead s n ch off x4 index).1 := by
  unfold dcRead
  repeat' split
  all_goals grind [keeps_setErr, keeps_invalidateLine, keeps_sramFault, keeps_modCore]
theorem keeps_ldgAt {n id cmd c w e dpa} : Keeps s0 (ldgAt s n id cmd c w e dpa) := by
  unfold ldgAt
  extract_lets fa ch off
  split
  next t ok hd =>
  have ht : Keeps s0 t := by grind [keeps_dcRead]
  clear hd
  split
  · exact ht
  split
  · exact keeps_loadLine ht
  split
  · split
    · exact ht
    extract_lets sE
    have hE : Keeps s0 sE := keeps_sliceError ht
    clear_value sE
    split
    next s1 bad hb =>
    have h1 : Keeps s0 s1 := by grind [keeps_checkRead]
    clear hb
    grind [keeps_loadLine, keeps_dirRequest, keeps_sliceTouch, keeps_lineFault]
  · exact keeps_ownFault ht
theorem keeps_storeInto {n ch off x4 bs} : Keeps s0 (storeInto s n ch off x4 bs) := by
  grind [storeInto, keeps_modCore]
theorem keeps_stgAt {n id c w e dpa p} : Keeps s0 (stgAt s n id c w e dpa p) := by
  unfold stgAt
  split
  · exact h
  next sh sB hb =>
  have hB := keeps_bindShadow h hb
  extract_lets fa ch off bs held done
  have hdone : ∀ t, Keeps s0 t → Keeps s0 (done t) := fun t ht => keeps_retire (keeps_storeInto ht) (memOk_coreAt (keeps_storeInto ht))
  clear_value done held
  split
  · split
    · exact keeps_faultCmd hB
    split
    next t ok hd =>
    have ht : Keeps s0 t := by grind [keeps_dcRead]
    clear hd
    extract_lets sE
    have hE : Keeps s0 sE := keeps_sliceError ht
    clear_value sE
    split
    · exact ht
    split
    · exact hdone _ ht
    split
    · exact ht
    split
    next s1 bad hb =>
    have h1 : Keeps s0 s1 := by grind [keeps_checkRead]
    clear hb
    grind [keeps_dirRequest, keeps_lineFault]
  · exact keeps_ownFault h
theorem keeps_tcParity {n colony va} : Keeps s0 (tcParity s n colony va) := by
  grind [tcParity, keeps_setErr, keeps_modCore]
theorem keeps_globalAccess {n op w e write} {act : State → Nat → Cmd → Core → Nat → Pte → State}
    (ha : ∀ t id cmd c dpa p, Keeps s0 t → MemOk s0 c.sp → Keeps s0 (act t id cmd c dpa p)) : Keeps s0 (globalAccess s n op w e write act) := by
  refine keeps_issue h ?_
  have hR : ∀ cls col a acc, Keeps s0 (rewalk s n cls col a acc) := fun _ _ _ _ => keeps_rewalk h
  have hc := fun cls col a acc => memOk_coreAt (hR cls col a acc) (n := n)
  extract_lets a
  split
  · exact keeps_accessFault h
  split
  · exact h
  split
  · exact h
  grind [keeps_stallWant, keeps_accessFault, keeps_tcParity]
theorem keeps_execLdg {core w x2} : KeepsNext s0 (execLdg core w x2 s) := by
  grind [execLdg, keeps_globalAccess, keeps_ldgAt, keepsNext_next]
theorem keeps_execStg {core w x2} : KeepsNext s0 (execStg core w x2 s) := by
  grind [execStg, keeps_stgAt, keeps_globalAccess, keepsNext_next]
theorem keeps_execMfence {core w} : KeepsNext s0 (execMfence core w s) := by
  grind [execMfence, keeps_issueReg, keepsNext_next]
end
end Sys2Proof.Machine
end

section
/-! PROOFS. The byte memories and the fuses are kept: scalar instructions. -/

set_option Elab.async false

namespace Sys2Proof.Machine
section
variable {s0 s : State} (h : Keeps s0 s)
include h
theorem keeps_scalarRR {n op w f} : Keeps s0 (scalarRR s n op w f) := by
  grind [scalarRR, keeps_issueReg, sp_setSreg]
theorem keeps_execAdd {core w} : KeepsNext s0 (execAdd core w s) := by
  grind [execAdd, keeps_scalarRR, keepsNext_next]
theorem keeps_execSub {core w} : KeepsNext s0 (execSub core w s) := by
  grind [execSub, keeps_scalarRR, keepsNext_next]
theorem keeps_execAnd {core w} : KeepsNext s0 (execAnd core w s) := by
  grind [execAnd, keeps_scalarRR, keepsNext_next]
theorem keeps_execOr {core w} : KeepsNext s0 (execOr core w s) := by
  grind [execOr, keeps_scalarRR, keepsNext_next]
theorem keeps_execXor {core w} : KeepsNext s0 (execXor core w s) := by
  grind [execXor, keeps_scalarRR, keepsNext_next]
theorem keeps_execShl {core w} : KeepsNext s0 (execShl core w s) := by
  grind [execShl, keeps_scalarRR, keepsNext_next]
theorem keeps_execShr {core w} : KeepsNext s0 (execShr core w s) := by
  grind [execShr, keeps_scalarRR, keepsNext_next]
theorem keeps_execSra {core w} : KeepsNext s0 (execSra core w s) := by
  grind [execSra, keeps_scalarRR, keepsNext_next]
theorem keeps_execMul {core w} : KeepsNext s0 (execMul core w s) := by
  grind [execMul, keeps_scalarRR, keepsNext_next]
theorem keeps_execMulhu {core w} : KeepsNext s0 (execMulhu core w s) := by
  grind [execMulhu, keeps_scalarRR, keepsNext_next]
theorem keeps_execMin {core w} : KeepsNext s0 (execMin core w s) := by
  grind [execMin, keeps_scalarRR, keepsNext_next]
theorem keeps_execMax {core w} : KeepsNext s0 (execMax core w s) := by
  grind [execMax, keeps_scalarRR, keepsNext_next]
theorem keeps_execMinu {core w} : KeepsNext s0 (execMinu core w s) := by
  grind [execMinu, keeps_scalarRR, keepsNext_next]
theorem keeps_execMaxu {core w} : KeepsNext s0 (execMaxu core w s) := by
  grind [execMaxu, keeps_scalarRR, keepsNext_next]
theorem keeps_execMov {core w} : KeepsNext s0 (execMov core w s) := by
  grind [execMov, keeps_scalarRR, keepsNext_next]
theorem keeps_execPopc {core w} : KeepsNext s0 (execPopc core w s) := by
  grind [execPopc, keeps_scalarRR, keepsNext_next]
theorem keeps_scalarRI {n op w f} : Keeps s0 (scalarRI s n op w f) := by
  grind [scalarRI, keeps_issueReg, sp_setSreg]
theorem keeps_execAddi {core w} : KeepsNext s0 (execAddi core w s) := by
  grind [execAddi, keeps_scalarRI, keepsNext_next]
theorem keeps_execAndi {core w} : KeepsNext s0 (execAndi core w s) := by
  grind [execAndi, keeps_scalarRI, keepsNext_next]
theorem keeps_execOri {core w} : KeepsNext s0 (execOri core w s) := by
  grind [execOri, keeps_scalarRI, keepsNext_next]
theorem keeps_execXori {core w} : KeepsNext s0 (execXori core w s) := by
  grind [execXori, keeps_scalarRI, keepsNext_next]
theorem keeps_execShli {core w} : KeepsNext s0 (execShli core w s) := by
  grind [execShli, keeps_scalarRI, keepsNext_next]
theorem keeps_execShri {core w} : KeepsNext s0 (execShri core w s) := by
  grind [execShri, keeps_scalarRI, keepsNext_next]
theorem keeps_execSrai {core w} : KeepsNext s0 (execSrai core w s) := by
  grind [execSrai, keeps_scalarRI, keepsNext_next]
theorem keeps_execMuli {core w} : KeepsNext s0 (execMuli core w s) := by
  grind [execMuli, keeps_scalarRI, keepsNext_next]
theorem keeps_execMovi {core w} : KeepsNext s0 (execMovi core w s) := by
  grind [execMovi, keeps_scalarRI, keepsNext_next]
theorem keeps_execMovhi {core w} : KeepsNext s0 (execMovhi core w s) := by
  grind [execMovhi, keeps_issueReg, keepsNext_next, sp_setSreg]
theorem keeps_compareTo {n op w} : Keeps s0 (compareTo s n op w) := by
  grind [compareTo, keeps_issueReg, sp_setPred]
theorem keeps_logicTo {n op w} : Keeps s0 (logicTo s n op w) := by
  grind [logicTo, keeps_issueReg, sp_setPred]
theorem keeps_execCmpeq {core w} : KeepsNext s0 (execCmpeq core w s) := by
  grind [execCmpeq, keeps_compareTo, keepsNext_next]
theorem keeps_execCmpne {core w} : KeepsNext s0 (execCmpne core w s) := by
  grind [execCmpne, keeps_compareTo, keepsNext_next]
theorem keeps_execCmplt {core w} : KeepsNext s0 (execCmplt core w s) := by
  grind [execCmplt, keeps_compareTo, keepsNext_next]
theorem keeps_execCmpltu {core w} : KeepsNext s0 (execCmpltu core w s) := by
  grind [execCmpltu, keeps_compareTo, keepsNext_next]
theorem keeps_execCmpge {core w} : KeepsNext s0 (execCmpge core w s) := by
  grind [execCmpge, keeps_compareTo, keepsNext_next]
theorem keeps_execCmpgeu {core w} : KeepsNext s0 (execCmpgeu core w s) := by
  grind [execCmpgeu, keeps_compareTo, keepsNext_next]
theorem keeps_execPand {core w} : KeepsNext s0 (execPand core w s) := by
  grind [execPand, keeps_logicTo, keepsNext_next]
theorem keeps_execPor {core w} : KeepsNext s0 (execPor core w s) := by
  grind [execPor, keeps_logicTo, keepsNext_next]
theorem keeps_execPxor {core w} : KeepsNext s0 (execPxor core w s) := by
  grind [execPxor, keeps_logicTo, keepsNext_next]
theorem keeps_execPandn {core w} : KeepsNext s0 (execPandn core w s) := by
  grind [execPandn, keeps_logicTo, keepsNext_next]
theorem keeps_branchTo {n w c0 c target} (hc : MemOk s0 c.sp) : Keeps s0 (branchTo s n w c0 c target) := by
  grind [branchTo, keeps_illegal, keeps_setCore, sp_retireTo]
theorem keeps_execNop {core w} : KeepsNext s0 (execNop core w s) := by
  grind [execNop, keeps_issueReg, keepsNext_next]
theorem keeps_execBr {core w} : KeepsNext s0 (execBr core w s) := by
  grind [execBr, keeps_issue, keeps_branchTo, memOk_coreAt, keepsNext_next]
theorem keeps_execCall {core w} : KeepsNext s0 (execCall core w s) := by
  grind [execCall, keeps_issue, keeps_branchTo, memOk_coreAt, keepsNext_next, sp_setSreg]
theorem keeps_execJr {core w} : KeepsNext s0 (execJr core w s) := by
  grind [execJr, keeps_issue, keeps_branchTo, memOk_coreAt, keepsNext_next]
theorem keeps_noteBars {n c} : Keeps s0 (noteBars s n c) := by
  grind [noteBars, keeps_modCmd]
theorem keeps_execEnd {core w} : KeepsNext s0 (execEnd core w s) := by
  grind [execEnd, keeps_kernelFault, keeps_issue, keeps_noteBars, keeps_flushCache, keeps_modCore, keepsNext_next, sp_retireTo]
theorem keeps_execSysr {core w} : KeepsNext s0 (execSysr core w s) := by
  grind [execSysr, keeps_issue, keeps_retire, memOk_coreAt, keepsNext_next, sp_setSreg]
theorem keeps_execUnassignedOpcode {core w} : KeepsNext s0 (execUnassignedOpcode core w s) := by
  grind [execUnassignedOpcode, keeps_issueRow, keepsNext_next]
end
end Sys2Proof.Machine
end

section
/-! PROOFS. The byte memories and the fuses are kept: DMA and synchronisation. -/

set_option Elab.async false

namespace Sys2Proof.Machine
section
variable {s0 s : State} (h : Keeps s0 s)
include h
theorem keeps_dmaFault {n offset w} : Keeps s0 (dmaFault s n offset w) := by
  grind [dmaFault, keeps_commandFault, keeps_setErr]
theorem keeps_execDma {core w x2} : KeepsNext s0 (execDma core w x2 s) := by
  grind [execDma, keeps_rangeFault, keeps_issue, keeps_spRead, keeps_retire, keeps_dmaFault, memOk_coreAt, keepsNext_next]
theorem keeps_stallOn {n k} : Keeps s0 (stallOn s n k) := by
  grind [stallOn, keeps_modCore]
theorem keeps_execDmaWait {core w} : KeepsNext s0 (execDmaWait core w s) := by
  grind [execDmaWait, keeps_issue, keeps_retire, keeps_stallOn, memOk_coreAt, keepsNext_next]
theorem keeps_execDmaWaitall {core w} : KeepsNext s0 (execDmaWaitall core w s) := by
  grind [execDmaWaitall, keeps_issue, keeps_retire, keeps_stallOn, memOk_coreAt, keepsNext_next]
theorem keeps_tagLine {n d spo cls ch data} : Keeps s0 (tagLine s n d spo cls ch data) := by
  grind [tagLine, keeps_setCore, keeps_inflightInc, keeps_mk, coresOk_cores, memOk_hbm, memOk_staging, fusesOk_sec, memOk_coreAt]
theorem keeps_dmaRead {n id cmd c d e spo dpa} : Keeps s0 (dmaRead s n id cmd c d e spo dpa) := by
  unfold dmaRead
  extract_lets fa ch off sE
  have hE : Keeps s0 sE := keeps_sliceError h
  clear_value sE
  split
  · split
    · exact h
    split
    · exact h
    split
    · exact keeps_nack h
    split
    next s1 bad hb =>
    have h1 : Keeps s0 s1 := by grind [keeps_checkRead]
    clear hb
    grind [keeps_placeMiss, keeps_ncReadLine, keeps_lineFault, keeps_tagLine]
  · exact keeps_ownFault h
theorem keeps_dmaWrite {n id cmd c d x6 spo dpa p} : Keeps s0 (dmaWrite s n id cmd c d x6 spo dpa p) := by
  grind [dmaWrite, keeps_faultCmd, keeps_ownFault, keeps_nack, keeps_spRead, keeps_bindShadow, keeps_tagLine, keeps_ncWriteLine]
theorem keeps_issueLine {n id cmd c d x6} : Keeps s0 (issueLine s n id cmd c d x6) := by
  grind [issueLine, keeps_rewalk, keeps_rangeFault, keeps_dmaRead, keeps_accessFault, keeps_dmaWrite, keeps_modCore, keeps_dmaFault, keeps_tcParity]
theorem keeps_execDmaLineIssue {core x1} : KeepsNext s0 (execDmaLineIssue core x1 s) := by
  grind [execDmaLineIssue, keeps_issueLine, keeps_spRead, keepsNext_next]
theorem keeps_returnTag {n tag write} {land : DmaTag → Core → Core} (hl : ∀ t c, MemOk s0 c.sp → MemOk s0 (land t c).sp) : Keeps s0 (returnTag s n tag write land) := by
  unfold returnTag
  grind [keeps_setCore, keeps_dropReq, keeps_inflightDec, memOk_coreAt, sp_lineDone, sp_releaseEpoch]
theorem keeps_execDmaReadReply {core tag} : KeepsNext s0 (execDmaReadReply core tag s) := by
  grind [execDmaReadReply, keeps_returnTag, memOk_mwrite, keepsNext_next]
theorem keeps_execDmaWriteTagReturn {core tag} : KeepsNext s0 (execDmaWriteTagReturn core tag s) := by
  grind [execDmaWriteTagReturn, keeps_returnTag, keepsNext_next]
theorem keeps_execSig {core w} : KeepsNext s0 (execSig core w s) := by
  refine keepsNext_next.2 (keeps_issue h ?_)
  repeat' split
  · exact h
  · exact h
  · exact keeps_illegal h
  · exact keeps_retire (keeps_mk h.cores h.hbm h.fuses h.staging) (memOk_coreAt h)
theorem keeps_execSignalDelivery {src dst} : KeepsNext s0 (execSignalDelivery src dst s) := by
  grind [execSignalDelivery, keeps_commandFault, keeps_setCore, keeps_mk, coresOk_cores, memOk_hbm, memOk_staging, fusesOk_sec, memOk_coreAt,
      keepsNext_next]
theorem keeps_execWait {core w} : KeepsNext s0 (execWait core w s) := by
  grind [execWait, keeps_issue, keeps_retire, keeps_stallOn, memOk_coreAt, keepsNext_next]
theorem keeps_execBar {core w} : KeepsNext s0 (execBar core w s) := by
  grind [execBar, keeps_issue, keeps_setCore, keeps_retire, memOk_coreAt, keepsNext_next]
theorem keeps_execSemrd {core w} : KeepsNext s0 (execSemrd core w s) := by
  grind [execSemrd, keeps_issueReg, keepsNext_next, sp_setSreg]
end
end Sys2Proof.Machine
end

section
/-! PROOFS. The byte memories and the fuses are kept: the PCI Express endpoint. -/

set_option Elab.async false

namespace Sys2Proof.Machine
section
variable {s0 s : State} (h : Keeps s0 s)
include h
theorem keeps_flrVf {v} : Keeps s0 (flrVf s v) := by
  grind [flrVf, keeps_startReset, keeps_resetFunction, keeps_mk, coresOk_cores, memOk_hbm, memOk_staging, fusesOk_sec]
theorem keeps_execVfFlr {vf} : KeepsNext s0 (execVfFlr vf s) := by
  grind [execVfFlr, keeps_flrVf, keeps_settleColonies, keepsNext_next]
theorem keeps_execVfEnableClear : KeepsNext s0 (execVfEnableClear s) := by
  grind [execVfEnableClear, keeps_flrVf, keeps_settleColonies, keeps_mk, coresOk_cores, memOk_hbm, memOk_staging, fusesOk_sec, keeps_foldl,
      keepsNext_next]
theorem keeps_execVfEnableSet {numVfs} : KeepsNext s0 (execVfEnableSet numVfs s) := by
  grind [execVfEnableSet, keeps_mk, coresOk_cores, memOk_hbm, memOk_staging, fusesOk_sec, keepsNext_next]
theorem keeps_execD3hot {fn enter} : KeepsNext s0 (execD3hot fn enter s) := by
  grind [execD3hot, keeps_mk, coresOk_cores, memOk_hbm, memOk_staging, fusesOk_sec, keepsNext_next]
theorem keeps_unmaskVector {fn vector} : Keeps s0 (unmaskVector s fn vector) := by
  grind [unmaskVector, keeps_emit, keeps_setMsix]
theorem keeps_execMsiXVectorUnmask {fn vector} : KeepsNext s0 (execMsiXVectorUnmask fn vector s) := by
  grind [execMsiXVectorUnmask, keeps_unmaskVector, keepsNext_next]
end
end Sys2Proof.Machine
end

section
/-! PROOFS. The byte memories and the fuses are kept: the management port. -/

set_option Elab.async false

namespace Sys2Proof.Machine
section
variable {s0 s : State} (h : Keeps s0 s)
include h
theorem keeps_reply {ty session req status body} : Keeps s0 (reply s ty session req status body) := by
  grind [reply, keeps_emit]
theorem keeps_setSession {x} : Keeps s0 (setSession s x) := by
  grind [setSession, keeps_mk, coresOk_cores, memOk_hbm, memOk_staging, fusesOk_sec]
theorem keeps_sealedReply {x ty req status body} : Keeps s0 (sealedReply s x ty req status body) := by
  grind [sealedReply, keeps_emit, keeps_setSession]
theorem keeps_sessionReply {id ty req status body} : Keeps s0 (sessionReply s id ty req status body) := by
  grind [sessionReply, keeps_sealedReply]
theorem keeps_inSession {ty hd} {act : State → Served} (ha : ∀ t, Keeps s0 t → Keeps s0 (act t).1) : Keeps s0 (inSession s ty hd act) := by
  grind [inSession, keeps_sealedReply, keeps_setSession, keeps_sessionReply]
theorem keeps_refuseState : Keeps s0 (refuseState s).1 := by
  grind [refuseState]
theorem keeps_sealed {ty hd permitted} {act : State → Served} (ha : ∀ t, Keeps s0 t → Keeps s0 (act t).1) : Keeps s0 (sealed s ty hd permitted act) := by
  grind [sealed, keeps_inSession, refuseState]
theorem keeps_openMsg {ty hd} {act : State → Served} (ha : ∀ t, Keeps s0 t → Keeps s0 (act t).1) : Keeps s0 (openMsg s ty hd act) := by
  grind [openMsg, keeps_inSession, keeps_reply]
theorem keeps_notice {kind delay} : Keeps s0 (notice s kind delay) := by
  grind [notice, keeps_raiseMsix, keeps_mk, coresOk_cores, memOk_hbm, memOk_staging, fusesOk_sec]
theorem keeps_execHelloA {x0 nonce peerKey} : KeepsNext s0 (execHelloA x0 nonce peerKey s) := by
  refine keepsNext_next.2 (keeps_openMsg h fun t ht => ?_)
  have h2 := keeps_drawFree (keeps_drawFree ht)
  split
  · exact ht
  split
  · exact ht
  · exact keeps_mk h2.cores h2.hbm h2.fuses h2.staging
theorem keeps_execAuthA {x0 chainOk sigOk} : KeepsNext s0 (execAuthA x0 chainOk sigOk s) := by
  grind [execAuthA, keeps_signDevice, keeps_setSession, keeps_reply, keeps_mk, coresOk_cores, memOk_hbm, memOk_staging, fusesOk_sec, keepsNext_next]
theorem keeps_execMgmtSessionExpiry {session} : KeepsNext s0 (execMgmtSessionExpiry session s) := by
  grind [execMgmtSessionExpiry, keeps_mk, coresOk_cores, memOk_hbm, memOk_staging, fusesOk_sec, keepsNext_next]
theorem keeps_execQueryState {x0} : KeepsNext s0 (execQueryState x0 s) := by
  grind [execQueryState, keeps_openMsg, keepsNext_next]
theorem keeps_execFaultHistory {x0 fromFseq count} : KeepsNext s0 (execFaultHistory x0 fromFseq count s) := by
  grind [execFaultHistory, keeps_refuseState, keeps_inSession, keepsNext_next]
theorem keeps_execGetTelemetry {x0 seconds} : KeepsNext s0 (execGetTelemetry x0 seconds s) := by
  grind [execGetTelemetry, keeps_sealed, keepsNext_next]
theorem keeps_execSubscribe {x0} : KeepsNext s0 (execSubscribe x0 s) := by
  grind [execSubscribe, keeps_sealed, keeps_setSession, keepsNext_next]
theorem keeps_execTelemetryPush {session} : KeepsNext s0 (execTelemetryPush session s) := by
  grind [execTelemetryPush, keeps_sealedReply, keepsNext_next]
theorem keeps_execSetPowerCap {x0 cap} : KeepsNext s0 (execSetPowerCap x0 cap s) := by
  grind [execSetPowerCap, keeps_sealed, keeps_notice, keeps_mk, coresOk_cores, memOk_hbm, memOk_staging, fusesOk_sec, keepsNext_next]
theorem keeps_execMgmtAttest {x0 nonce} : KeepsNext s0 (execMgmtAttest x0 nonce s) := by
  grind [execMgmtAttest, keeps_sealed, keeps_attestation, keepsNext_next]
theorem keeps_execSetFwPolicy {x0 sources floor} : KeepsNext s0 (execSetFwPolicy x0 sources floor s) := by
  grind [execSetFwPolicy, keeps_sealed, keeps_refuseState, keeps_mk, coresOk_cores, memOk_hbm, memOk_staging, fusesOk_sec, keepsNext_next]
theorem keeps_execBundleBegin {x0 len} : KeepsNext s0 (execBundleBegin x0 len s) := by
  refine keepsNext_next.2 (keeps_sealed h fun t ht => ?_)
  split
  · exact ht
  · exact keeps_mk ht.cores ht.hbm ht.fuses memOk_nil
theorem keeps_execBundleData {x0 offset data} : KeepsNext s0 (execBundleData x0 offset data s) := by
  unfold execBundleData
  grind [keeps_sealed, keeps_refuseState, keeps_mk, coresOk_cores, memOk_hbm, memOk_staging, fusesOk_sec, memOk_mwrite, keepsNext_next]
theorem keeps_execBundleEnd {x0 b} : KeepsNext s0 (execBundleEnd x0 b s) := by
  unfold execBundleEnd
  grind [keeps_sealed, keeps_refuseState, keeps_notice, keeps_takeBundle, keeps_mk, coresOk_cores, memOk_hbm, memOk_staging, fusesOk_sec,
      keepsNext_next]
omit h in
theorem keeps_burned {t : State} {ok b : Bool} (ht : Keeps s0 s) (e : burn s ok = (t, b)) : Keeps s0 t := by
  have := keeps_burn ht (ok := ok)
  rw [e] at this
  exact this
omit h in
theorem imageSvn_burned {t : State} {ok : Bool} (e : burn s ok = (t, true)) : t.sec.imageSvn = s.sec.imageSvn := by
  unfold burn at e
  split at e
  · cases e; rfl
  split at e
  · cases e; rfl
  · cases e
theorem keeps_execAdvanceSvn {x0 burnOk} : KeepsNext s0 (execAdvanceSvn x0 burnOk s) := by
  refine keepsNext_next.2 (keeps_sealed h fun t ht => ?_)
  split
  · exact ht
  split
  · next hlt _ t1 hb =>
    have h1 := keeps_burned ht hb
    have hs := imageSvn_burned hb
    obtain ⟨hboots, hsvn, hroots, hrows⟩ := h1.fuses
    refine keeps_mk h1.cores h1.hbm ⟨hboots, ?_, hroots, hrows⟩ h1.staging
    have := ht.fuses.2.1
    show s0.sec.fuseSvn ≤ t1.sec.imageSvn
    omega
  · next hb => exact keeps_burned ht hb
theorem keeps_schedule {a kind delayMs} : Keeps s0 (schedule s a kind delayMs).1 := by
  grind [schedule, keeps_refuseState, keeps_notice, keeps_mk, coresOk_cores, memOk_hbm, memOk_staging, fusesOk_sec]
theorem keeps_execMgmtReset {x0 delayMs} : KeepsNext s0 (execMgmtReset x0 delayMs s) := by
  grind [execMgmtReset, keeps_sealed, keeps_schedule, keepsNext_next]
theorem keeps_execTransition {x0 delayMs} : KeepsNext s0 (execTransition x0 delayMs s) := by
  grind [execTransition, keeps_sealed, keeps_schedule, keepsNext_next]
theorem keeps_execHandover {x0 delayMs root} : KeepsNext s0 (execHandover x0 delayMs root s) := by
  grind [execHandover, keeps_sealed, keeps_schedule, keepsNext_next]
theorem keeps_execRetire {x0 delayMs} : KeepsNext s0 (execRetire x0 delayMs s) := by
  grind [execRetire, keeps_sealed, keeps_schedule, keepsNext_next]
omit h in
theorem fusesOk_lifecycled {z : Security} {a} (hz : FusesOk s0 z.boots z.fuseSvn z.mgmtRoots z.spareRows) :
    FusesOk s0 (lifecycled z a).boots (lifecycled z a).fuseSvn (lifecycled z a).mgmtRoots (lifecycled z a).spareRows := by
  obtain ⟨hboots, hsvn, hroots, hrows⟩ := hz
  cases a with
  | handover root => exact ⟨hboots, hsvn, hroots.trans (List.prefix_append _ _), hrows⟩
  | _ => exact ⟨hboots, hsvn, hroots, hrows⟩
theorem keeps_execMgmtDelayExpiry {burnOk} : KeepsNext s0 (execMgmtDelayExpiry burnOk s) := by
  unfold execMgmtDelayExpiry
  split
  · exact keepsNext_next.2 h
  extract_lets m s1
  have h1 : Keeps s0 s1 := keeps_mk h.cores h.hbm h.fuses h.staging
  split
  · exact keepsNext_next.2 h1
  split
  · exact keepsNext_next.2 (keeps_resetAndBoot h1)
  split
  · next hb =>
    have h2 := keeps_burned h1 hb
    exact keepsNext_next.2 (keeps_resetAndBoot (keeps_mk h2.cores h2.hbm (fusesOk_lifecycled h2.fuses) h2.staging))
  · next hb => exact keepsNext_next.2 (keeps_burned h1 hb)
omit h in
theorem fuses_tokenFuses {t : Token} {secret : BitVec 256} {z : Security} (e : tokenFuses s t secret = some z) :
    z.boots = s.sec.boots ∧ z.fuseSvn = s.sec.fuseSvn ∧ s.sec.mgmtRoots <+: z.mgmtRoots := by
  unfold tokenFuses at e
  split at e
  · cases e; exact ⟨rfl, rfl, List.prefix_refl _⟩
  split at e
  · cases e; exact ⟨rfl, rfl, List.prefix_append _ _⟩
  split at e
  · cases e; exact ⟨rfl, rfl, List.prefix_refl _⟩
  · cases e
theorem keeps_execLcToken {x0 t secret} : KeepsNext s0 (execLcToken x0 t secret s) := by
  have hr : ∀ f st b, KeepsNext s0 (.next (reply s f 0 x0.req st b)) := fun _ _ _ => keepsNext_next.2 (keeps_reply h)
  unfold execLcToken
  generalize (if lifecycle s = 0 then 0 else s.sec.idhash) = idhash
  split
  · exact keepsNext_next.2 h
  split
  · exact hr _ _ _
  split
  · exact hr _ _ _
  split
  · exact hr _ _ _
  split
  · exact hr _ _ _
  next z hz =>
  obtain ⟨hboots, hsvn, hroots⟩ := fuses_tokenFuses hz
  split
  · next s1 hb =>
    have h1 := keeps_burned h hb
    refine keepsNext_next.2 (keeps_resetAndBoot (keeps_mk h1.cores h1.hbm ⟨?_, ?_, ?_, h1.fuses.2.2.2⟩ h1.staging))
    · exact hboots ▸ h.fuses.1
    · exact hsvn ▸ h.fuses.2.1
    · exact h.fuses.2.2.1.trans hroots
  · next hb => exact keepsNext_next.2 (keeps_reply (keeps_burned h hb))
theorem keeps_execNeighborDiscovery {solicited prefixAdvert} : KeepsNext s0 (execNeighborDiscovery solicited prefixAdvert s) := by
  unfold execNeighborDiscovery
  repeat' split
  all_goals grind [keeps_emit, keeps_mk, coresOk_cores, memOk_hbm, memOk_staging, fusesOk_sec, keepsNext_next]
theorem keeps_execIcmpv6Echo {data} : KeepsNext s0 (execIcmpv6Echo data s) := by
  grind [execIcmpv6Echo, keeps_emit, keepsNext_next]
theorem keeps_execPauseFrame {quanta} : KeepsNext s0 (execPauseFrame quanta s) := by
  grind [execPauseFrame, keeps_mk, coresOk_cores, memOk_hbm, memOk_staging, fusesOk_sec, keepsNext_next]
end
end Sys2Proof.Machine
end

section
/-! PROOFS. The byte memories and the fuses are kept: register writes. -/

set_option Elab.async false

namespace Sys2Proof.Machine
section
variable {s0 s : State} (h : Keeps s0 s)
include h
theorem keeps_effect {r} (hr : KeepsNext s0 r) : Keeps s0 (effect r s) := by
  grind [effect, KeepsNext]
theorem keeps_coldStart : Keeps s0 (coldStart s) := by
  grind [coldStart, keeps_mk, coresOk_cores, memOk_hbm, memOk_staging, fusesOk_sec]
theorem keeps_ringWrite {fn page r off v} : Keeps s0 (ringWrite fn page r off v s) := by
  grind [ringWrite, keeps_setCq, keeps_setSq, keeps_execSqDoorbell, keeps_effect, keeps_execCqHeadWrite, keeps_execCqEnable, keeps_execResume,
      keeps_execSqEnable]
theorem keeps_pageWrite {fn page off v} : Keeps s0 (pageWrite fn page off v s) := by
  grind [pageWrite, keeps_execSyncCounterAccess, keeps_effect, keeps_ringWrite]
theorem keeps_classWrite {c v} : Keeps s0 (classWrite c v s) := by
  grind [classWrite, keeps_modHub, keeps_coldStart, keeps_foldl]
theorem keeps_runCtlWrite {c v} : Keeps s0 (runCtlWrite c v s) := by
  unfold runCtlWrite
  extract_lets old s1
  have h1 : Keeps s0 s1 := keeps_modHub h
  exact keeps_ite h1 (keeps_mk (coresOk_map h1.cores fun _ => by grind) h1.hbm h1.fuses h1.staging)
theorem keeps_bootRegWrite {off v} : Keeps s0 (bootRegWrite off v s) := by
  grind [bootRegWrite, keeps_mk, coresOk_cores, memOk_hbm, memOk_staging, fusesOk_sec]
theorem keeps_hubWrite {off v} : Keeps s0 (hubWrite off v s) := by
  grind [hubWrite, keeps_modHub, keeps_coldStart, keeps_classWrite, keeps_runCtlWrite]
theorem keeps_colWrite {off v} : Keeps s0 (colWrite off v s) := by
  grind [colWrite, keeps_effect, keeps_execColonyReset, keeps_coldStart, keeps_modCol]
theorem keeps_xltWrite {off v} : Keeps s0 (xltWrite off v s) := by
  grind [xltWrite, keeps_modCol]
theorem keeps_secWrite {off v} : Keeps s0 (secWrite off v s) := by
  grind [secWrite, keeps_modSlot]
theorem keeps_ackWrite {v} : Keeps s0 (ackWrite v s) := by
  grind [ackWrite, keeps_effect, keeps_execFltAckFence, keeps_execFltAckKeep]
theorem keeps_fltWrite {off v} : Keeps s0 (fltWrite off v s) := by
  grind [fltWrite, keeps_execPerturbEnableWrite, keeps_effect, keeps_modCol, keeps_ackWrite, keeps_execInject, keeps_mk, coresOk_cores, memOk_hbm,
      memOk_staging, fusesOk_sec]
theorem keeps_pwrWrite {off v} : Keeps s0 (pwrWrite off v s) := by
  grind [pwrWrite, keeps_effect, keeps_execPwrCoolClr]
theorem keeps_meshWrite {off v} : Keeps s0 (meshWrite off v s) := by
  grind [meshWrite, keeps_modMesh]
theorem keeps_mgtWrite {off v} : Keeps s0 (mgtWrite off v s) := by
  grind [mgtWrite, keeps_mk, coresOk_cores, memOk_hbm, memOk_staging, fusesOk_sec]
theorem keeps_fabWrite {off v} : Keeps s0 (fabWrite off v s) := by
  grind [fabWrite, keeps_effect, keeps_execWindowRevoke, keeps_execWindowRead, keeps_execFabricAddressWrite, keeps_execWindowWrite, keeps_mk,
      coresOk_cores, memOk_hbm, memOk_staging, fusesOk_sec]
theorem keeps_portCommand {p v} : Keeps s0 (portCommand p v s) := by
  grind [portCommand, keeps_effect, keeps_execPortRetrain, keeps_execZltClrCnt, keeps_execPortUnfence, keeps_execPortFence]
theorem keeps_portWrite {p off v} : Keeps s0 (portWrite p off v s) := by
  unfold portWrite
  repeat' split
  all_goals grind [keeps_modPort, keeps_portCommand, keeps_effect, keeps_execPortEnWrite]
theorem keeps_zltDevWrite {off v} : Keeps s0 (zltDevWrite off v s) := by
  unfold zltDevWrite
  repeat' split
  all_goals grind [keeps_execEventRingEnable, keeps_effect, keeps_mk, coresOk_cores, memOk_hbm, memOk_staging, fusesOk_sec]
theorem keeps_allowWrite {i k v} : Keeps s0 (allowWrite i k v s) := by
  grind [allowWrite, keeps_mk, coresOk_cores, memOk_hbm, memOk_staging, fusesOk_sec]
theorem keeps_zltWrite {off v} : Keeps s0 (zltWrite off v s) := by
  grind [zltWrite, keeps_portWrite, keeps_allowWrite, keeps_zltDevWrite]
theorem keeps_hbcWrite {off v} : Keeps s0 (hbcWrite off v s) := by
  grind [hbcWrite, keeps_effect, keeps_execHbcClrPeak, keeps_execHbcClrCnt]
theorem keeps_coreWrite {off v} : Keeps s0 (coreWrite off v s) := by
  grind [coreWrite, keeps_execCoreFence, keeps_effect, keeps_execCoreClrCnt, keeps_modCore]
theorem keeps_blockWrite {off v} : Keeps s0 (blockWrite off v s) :=
  keeps_ite (keeps_hubWrite h) (keeps_ite (keeps_mgtWrite h) (keeps_ite (keeps_colWrite h) (keeps_ite (keeps_xltWrite h)
    (keeps_ite (keeps_secWrite h) (keeps_ite (keeps_fltWrite h) (keeps_ite (keeps_pwrWrite h) (keeps_ite (keeps_meshWrite h)
      (keeps_ite (keeps_fabWrite h) (keeps_ite (keeps_zltWrite h) (keeps_ite (keeps_hbcWrite h) (keeps_ite (keeps_coreWrite h) h)))))))))))
theorem keeps_msixWord {fn i x} : Keeps s0 (msixWord fn i x s) := by
  grind [msixWord, keeps_unmaskVector, keeps_setMsix]
theorem keeps_msixWrite {fn off v size} : Keeps s0 (msixWrite fn off v size s) := by
  grind [msixWrite, keeps_msixWord]
theorem keeps_execRegisterWrite {fn bar offset value size} : KeepsNext s0 (execRegisterWrite fn bar offset value size s) := by
  unfold execRegisterWrite
  repeat' split
  all_goals grind [keeps_blockWrite, keeps_bootRegWrite, keeps_pageWrite, keeps_logAer, keeps_msixWrite, keepsNext_next]
end
end Sys2Proof.Machine
end

section
/-! PROOFS. The byte memories and the fuses are kept: vector instructions. -/

set_option Elab.async false

namespace Sys2Proof.Machine
section
variable {s0 s : State} (h : Keeps s0 s)
include h
theorem keeps_issueVec {n op w} : Keeps s0 (issueVec s n op w) := by
  grind [issueVec, keeps_issue, keeps_enqueueVector, memOk_coreAt]
theorem keeps_execVadd {core w} : KeepsNext s0 (execVadd core w s) := by
  grind [execVadd, keeps_issueVec, keepsNext_next]
theorem keeps_execVsub {core w} : KeepsNext s0 (execVsub core w s) := by
  grind [execVsub, keeps_issueVec, keepsNext_next]
theorem keeps_execVmul {core w} : KeepsNext s0 (execVmul core w s) := by
  grind [execVmul, keeps_issueVec, keepsNext_next]
theorem keeps_execVfma {core w} : KeepsNext s0 (execVfma core w s) := by
  grind [execVfma, keeps_issueVec, keepsNext_next]
theorem keeps_execVmin {core w} : KeepsNext s0 (execVmin core w s) := by
  grind [execVmin, keeps_issueVec, keepsNext_next]
theorem keeps_execVmax {core w} : KeepsNext s0 (execVmax core w s) := by
  grind [execVmax, keeps_issueVec, keepsNext_next]
theorem keeps_execVabs {core w} : KeepsNext s0 (execVabs core w s) := by
  grind [execVabs, keeps_issueVec, keepsNext_next]
theorem keeps_execVneg {core w} : KeepsNext s0 (execVneg core w s) := by
  grind [execVneg, keeps_issueVec, keepsNext_next]
theorem keeps_execVcmp {core w} : KeepsNext s0 (execVcmp core w s) := by
  grind [execVcmp, keeps_issueVec, keepsNext_next]
theorem keeps_execVsel {core w} : KeepsNext s0 (execVsel core w s) := by
  grind [execVsel, keeps_issueVec, keepsNext_next]
theorem keeps_execViadd {core w} : KeepsNext s0 (execViadd core w s) := by
  grind [execViadd, keeps_issueVec, keepsNext_next]
theorem keeps_execVand {core w} : KeepsNext s0 (execVand core w s) := by
  grind [execVand, keeps_issueVec, keepsNext_next]
theorem keeps_execVor {core w} : KeepsNext s0 (execVor core w s) := by
  grind [execVor, keeps_issueVec, keepsNext_next]
theorem keeps_execVxor {core w} : KeepsNext s0 (execVxor core w s) := by
  grind [execVxor, keeps_issueVec, keepsNext_next]
theorem keeps_execVshl {core w} : KeepsNext s0 (execVshl core w s) := by
  grind [execVshl, keeps_issueVec, keepsNext_next]
theorem keeps_execVshr {core w} : KeepsNext s0 (execVshr core w s) := by
  grind [execVshr, keeps_issueVec, keepsNext_next]
theorem keeps_execVsfu {core w} : KeepsNext s0 (execVsfu core w s) := by
  grind [execVsfu, keeps_issueVec, keepsNext_next]
theorem keeps_execVcvt {core w} : KeepsNext s0 (execVcvt core w s) := by
  grind [execVcvt, keeps_issueVec, keepsNext_next]
theorem keeps_execVred {core w} : KeepsNext s0 (execVred core w s) := by
  grind [execVred, keeps_issueVec, keepsNext_next]
theorem keeps_execVrmax {core w} : KeepsNext s0 (execVrmax core w s) := by
  grind [execVrmax, keeps_issueVec, keepsNext_next]
theorem keeps_execVacc {core w} : KeepsNext s0 (execVacc core w s) := by
  grind [execVacc, keeps_issueVec, keepsNext_next]
theorem keeps_execVwpf {core w} : KeepsNext s0 (execVwpf core w s) := by
  grind [execVwpf, keeps_issueVec, keepsNext_next]
theorem keeps_execVperm {core w} : KeepsNext s0 (execVperm core w s) := by
  grind [execVperm, keeps_issueVec, keepsNext_next]
theorem keeps_runVacc {n cmd q} : Keeps s0 (runVacc s n cmd q) := by
  grind [runVacc, keeps_illegal, keeps_setCore, memOk_coreAt, sp_setTile, sp_popVector]
theorem keeps_runVwpf {n q x3} : Keeps s0 (runVwpf s n q x3) := by
  grind [runVwpf, keeps_spRead, keeps_setCore, keeps_checkedOffsets, memOk_coreAt, sp_setVreg, sp_popVector]
theorem keeps_execVectorDispatch {core x1} : KeepsNext s0 (execVectorDispatch core x1 s) := by
  grind [execVectorDispatch, keeps_runVacc, keeps_accFault, keeps_setCore, keeps_runVwpf, memOk_coreAt, keepsNext_next, sp_popVector]
end
end Sys2Proof.Machine
end

section
/-! PROOFS. A step keeps the byte memories and the fuses. -/

set_option Elab.async false

namespace Sys2Proof.Machine
section
variable {s0 s : State} (h : Keeps s0 s)
include h
set_option maxRecDepth 100000 in
/-- Every command answers a next state, which keeps what the invariant speaks of. -/
theorem keeps_exec {c : Instr} : KeepsNext s0 (exec c s) :=
  match c with
  | .add .. => keeps_execAdd h
  | .sub .. => keeps_execSub h
  | .and .. => keeps_execAnd h
  | .or .. => keeps_execOr h
  | .xor .. => keeps_execXor h
  | .shl .. => keeps_execShl h
  | .shr .. => keeps_execShr h
  | .sra .. => keeps_execSra h
  | .mul .. => keeps_execMul h
  | .mulhu .. => keeps_execMulhu h
  | .min .. => keeps_execMin h
  | .max .. => keeps_execMax h
  | .minu .. => keeps_execMinu h
  | .maxu .. => keeps_execMaxu h
  | .mov .. => keeps_execMov h
  | .popc .. => keeps_execPopc h
  | .addi .. => keeps_execAddi h
  | .andi .. => keeps_execAndi h
  | .ori .. => keeps_execOri h
  | .xori .. => keeps_execXori h
  | .shli .. => keeps_execShli h
  | .shri .. => keeps_execShri h
  | .srai .. => keeps_execSrai h
  | .muli .. => keeps_execMuli h
  | .movi .. => keeps_execMovi h
  | .movhi .. => keeps_execMovhi h
  | .cmpeq .. => keeps_execCmpeq h
  | .cmpne .. => keeps_execCmpne h
  | .cmplt .. => keeps_execCmplt h
  | .cmpltu .. => keeps_execCmpltu h
  | .cmpge .. => keeps_execCmpge h
  | .cmpgeu .. => keeps_execCmpgeu h
  | .pand .. => keeps_execPand h
  | .por .. => keeps_execPor h
  | .pxor .. => keeps_execPxor h
  | .pandn .. => keeps_execPandn h
  | .nop .. => keeps_execNop h
  | .end_ .. => keeps_execEnd h
  | .br .. => keeps_execBr h
  | .call .. => keeps_execCall h
  | .jr .. => keeps_execJr h
  | .lds .. => keeps_execLds h
  | .sts .. => keeps_execSts h
  | .vld .. => keeps_execVld h
  | .vst .. => keeps_execVst h
  | .ldg .. => keeps_execLdg h
  | .stg .. => keeps_execStg h
  | .mfence .. => keeps_execMfence h
  | .dma .. => keeps_execDma h
  | .dmaWait .. => keeps_execDmaWait h
  | .dmaWaitall .. => keeps_execDmaWaitall h
  | .sig .. => keeps_execSig h
  | .wait .. => keeps_execWait h
  | .bar .. => keeps_execBar h
  | .semrd .. => keeps_execSemrd h
  | .sysr .. => keeps_execSysr h
  | .accClr .. => keeps_execAccClr h
  | .mm .. => keeps_execMm h
  | .accRaw .. => keeps_execAccRaw h
  | .accExp .. => keeps_execAccExp h
  | .accWr .. => keeps_execAccWr h
  | .matrixDispatch .. => keeps_execMatrixDispatch h
  | .vectorDispatch .. => keeps_execVectorDispatch h
  | .vadd .. => keeps_execVadd h
  | .vsub .. => keeps_execVsub h
  | .vmul .. => keeps_execVmul h
  | .vfma .. => keeps_execVfma h
  | .vmin .. => keeps_execVmin h
  | .vmax .. => keeps_execVmax h
  | .vabs .. => keeps_execVabs h
  | .vneg .. => keeps_execVneg h
  | .vcmp .. => keeps_execVcmp h
  | .vsel .. => keeps_execVsel h
  | .viadd .. => keeps_execViadd h
  | .vand .. => keeps_execVand h
  | .vor .. => keeps_execVor h
  | .vxor .. => keeps_execVxor h
  | .vshl .. => keeps_execVshl h
  | .vshr .. => keeps_execVshr h
  | .vsfu .. => keeps_execVsfu h
  | .vcvt .. => keeps_execVcvt h
  | .vred .. => keeps_execVred h
  | .vrmax .. => keeps_execVrmax h
  | .vacc .. => keeps_execVacc h
  | .vwpf .. => keeps_execVwpf h
  | .vperm .. => keeps_execVperm h
  | .dmaLineIssue .. => keeps_execDmaLineIssue h
  | .dmaReadReply .. => keeps_execDmaReadReply h
  | .dmaWriteTagReturn .. => keeps_execDmaWriteTagReturn h
  | .signalDelivery .. => keeps_execSignalDelivery h
  | .sqDoorbell .. => keeps_execSqDoorbell h
  | .sqEnable .. => keeps_execSqEnable h
  | .cqEnable .. => keeps_execCqEnable h
  | .resume .. => keeps_execResume h
  | .cqHeadWrite .. => keeps_execCqHeadWrite h
  | .syncCounterAccess .. => keeps_execSyncCounterAccess h
  | .packetFetch .. => keeps_execPacketFetch h
  | .nopCommand .. => keeps_execNopCommand h
  | .fence .. => keeps_execFence h
  | .signal .. => keeps_execSignal h
  | .waitCommand .. => keeps_execWaitCommand h
  | .waitTimeout .. => keeps_execWaitTimeout h
  | .launch .. => keeps_execLaunch h
  | .attemptStart .. => keeps_execAttemptStart h
  | .coreReturnBound .. => keeps_execCoreReturnBound h
  | .attemptEnd .. => keeps_execAttemptEnd h
  | .commitMergeCopy .. => keeps_execCommitMergeCopy h
  | .publish .. => keeps_execPublish h
  | .shadowFrameReturn .. => keeps_execShadowFrameReturn h
  | .completionRecordWrite .. => keeps_execCompletionRecordWrite h
  | .commit .. => keeps_execCommit h
  | .abandon .. => keeps_execAbandon h
  | .copy .. => keeps_execCopy h
  | .fill .. => keeps_execFill h
  | .loadSealed .. => keeps_execLoadSealed h
  | .storeSealed .. => keeps_execStoreSealed h
  | .reduce .. => keeps_execReduce h
  | .gather .. => keeps_execGather h
  | .scatter .. => keeps_execScatter h
  | .barrier .. => keeps_execBarrier h
  | .handoffOffer .. => keeps_execHandoffOffer h
  | .handoffAccept .. => keeps_execHandoffAccept h
  | .handoffRelease .. => keeps_execHandoffRelease h
  | .handoffAudit .. => keeps_execHandoffAudit h
  | .map .. => keeps_execMap h
  | .unmap .. => keeps_execUnmap h
  | .syncTable .. => keeps_execSyncTable h
  | .withdrawalDrainEnd .. => keeps_execWithdrawalDrainEnd h
  | .compaction .. => keeps_execCompaction h
  | .bind .. => keeps_execBind h
  | .unbind .. => keeps_execUnbind h
  | .teardown .. => keeps_execTeardown h
  | .rebind .. => keeps_execRebind h
  | .queryMap .. => keeps_execQueryMap h
  | .mapUpdate .. => keeps_execMapUpdate h
  | .oldEntryRetire .. => keeps_execOldEntryRetire h
  | .channelWipeDone .. => keeps_execChannelWipeDone h
  | .portLeaveDrainEnd .. => keeps_execPortLeaveDrainEnd h
  | .coreReplacement .. => keeps_execCoreReplacement h
  | .colonyReset .. => keeps_execColonyReset h
  | .attest .. => keeps_execAttest h
  | .keyLoad .. => keeps_execKeyLoad h
  | .keyRetire .. => keeps_execKeyRetire h
  | .keyZeroise .. => keeps_execKeyZeroise h
  | .keySlotCheckFail .. => keeps_execKeySlotCheckFail h
  | .sealSession .. => keeps_execSealSession h
  | .readFault .. => keeps_execReadFault h
  | .sample .. => keeps_execSample h
  | .perturb .. => keeps_execPerturb h
  | .perturbExpiry .. => keeps_execPerturbExpiry h
  | .killComplete .. => keeps_execKillComplete h
  | .timeSliceEnd .. => keeps_execTimeSliceEnd h
  | .nplimitReached .. => keeps_execNplimitReached h
  | .coreFence .. => keeps_execCoreFence h
  | .coreClrCnt .. => keeps_execCoreClrCnt h
  | .translationWalk .. => keeps_execTranslationWalk h
  | .translationRecordTimeout .. => keeps_execTranslationRecordTimeout h
  | .gets .. => keeps_execGets h
  | .getm .. => keeps_execGetm h
  | .ncr .. => keeps_execNcr h
  | .ncw .. => keeps_execNcw h
  | .putm .. => keeps_execPutm h
  | .drop .. => keeps_execDrop h
  | .forwardedRequest .. => keeps_execForwardedRequest h
  | .ownerResponse .. => keeps_execOwnerResponse h
  | .invalidation .. => keeps_execInvalidation h
  | .invalidationAck .. => keeps_execInvalidationAck h
  | .nackRetry .. => keeps_execNackRetry h
  | .agentUnresponsive .. => keeps_execAgentUnresponsive h
  | .meshFlitReplay .. => keeps_execMeshFlitReplay h
  | .hbmRead .. => keeps_execHbmRead h
  | .hbmWrite .. => keeps_execHbmWrite h
  | .refresh .. => keeps_execRefresh h
  | .calibrationSlot .. => keeps_execCalibrationSlot h
  | .retrainDone .. => keeps_execRetrainDone h
  | .remapCopy .. => keeps_execRemapCopy h
  | .patrolScrub .. => keeps_execPatrolScrub h
  | .hbcClrCnt .. => keeps_execHbcClrCnt h
  | .hbcClrPeak .. => keeps_execHbcClrPeak h
  | .windowBoundary .. => keeps_execWindowBoundary h
  | .voltageReached .. => keeps_execVoltageReached h
  | .droopTrip .. => keeps_execDroopTrip h
  | .droopHoldExpiry .. => keeps_execDroopHoldExpiry h
  | .senseBelowMinimum .. => keeps_execSenseBelowMinimum h
  | .railOutOfTolerance .. => keeps_execRailOutOfTolerance h
  | .pllLockLoss .. => keeps_execPllLockLoss h
  | .thermalTrip sensor => keeps_execThermalTrip (x0 := sensor) h
  | .coolantOkLow => keeps_execCoolantOkLow h
  | .coolantLoss => keeps_execCoolantLoss h
  | .pwrCoolClr => keeps_execPwrCoolClr h
  | .hangWindowExpiry .. => keeps_execHangWindowExpiry h
  | .engineResetDone .. => keeps_execEngineResetDone h
  | .engineResetTimeout .. => keeps_execEngineResetTimeout h
  | .watchdogExpiry .. => keeps_execWatchdogExpiry h
  | .reactionWindowExpiry .. => keeps_execReactionWindowExpiry h
  | .fltAckKeep .. => keeps_execFltAckKeep h
  | .fltAckFence .. => keeps_execFltAckFence h
  | .quarantineTimeout .. => keeps_execQuarantineTimeout h
  | .aliveToggle => keeps_execAliveToggle h
  | .inject .. => keeps_execInject h
  | .perturbEnableWrite .. => keeps_execPerturbEnableWrite h
  | .tagHoldExpiry .. => keeps_execTagHoldExpiry h
  | .portEnWrite .. => keeps_execPortEnWrite h
  | .portFence .. => keeps_execPortFence h
  | .portUnfence .. => keeps_execPortUnfence h
  | .portRetrain .. => keeps_execPortRetrain h
  | .zltClrCnt .. => keeps_execZltClrCnt h
  | .eventRingEnable .. => keeps_execEventRingEnable h
  | .partnerPresence .. => keeps_execPartnerPresence h
  | .trainingDone .. => keeps_execTrainingDone h
  | .trainTimeout .. => keeps_execTrainTimeout h
  | .discoveryDescriptor .. => keeps_execDiscoveryDescriptor h
  | .authentication .. => keeps_execAuthentication h
  | .laneFailing .. => keeps_execLaneFailing h
  | .laneRetrainDone .. => keeps_execLaneRetrainDone h
  | .lossOfPartner .. => keeps_execLossOfPartner h
  | .detectHoldoffExpiry .. => keeps_execDetectHoldoffExpiry h
  | .flitReceive .. => keeps_execFlitReceive h
  | .nak .. => keeps_execNak h
  | .creditReturn .. => keeps_execCreditReturn h
  | .creditReturnTimer .. => keeps_execCreditReturnTimer h
  | .rekey .. => keeps_execRekey h
  | .rekeyAcknowledged .. => keeps_execRekeyAcknowledged h
  | .sessionRefreshDone .. => keeps_execSessionRefreshDone h
  | .fabricAddressWrite .. => keeps_execFabricAddressWrite h
  | .windowWrite => keeps_execWindowWrite h
  | .windowRead => keeps_execWindowRead h
  | .windowRevoke => keeps_execWindowRevoke h
  | .transitForward .. => keeps_execTransitForward h
  | .writePacket .. => keeps_execWritePacket h
  | .addPacket .. => keeps_execAddPacket h
  | .readPacket .. => keeps_execReadPacket h
  | .readData .. => keeps_execReadData h
  | .wack .. => keeps_execWack h
  | .refuse .. => keeps_execRefuse h
  | .barrierMessage .. => keeps_execBarrierMessage h
  | .peerAbort .. => keeps_execPeerAbort h
  | .revoke .. => keeps_execRevoke h
  | .instarRetire .. => keeps_execInstarRetire h
  | .ack .. => keeps_execAck h
  | .busy .. => keeps_execBusy h
  | .offer .. => keeps_execOffer h
  | .accept .. => keeps_execAccept h
  | .release .. => keeps_execRelease h
  | .auditQ .. => keeps_execAuditQ h
  | .auditR .. => keeps_execAuditR h
  | .controlRetransmit .. => keeps_execControlRetransmit h
  | .fabricTimeout .. => keeps_execFabricTimeout h
  | .collectiveBusyRetry .. => keeps_execCollectiveBusyRetry h
  | .handoffTimer .. => keeps_execHandoffTimer h
  | .declinedExpiry .. => keeps_execDeclinedExpiry h
  | .powerOn => keeps_execPowerOn h
  | .perstNAssert => keeps_execPerstNAssert h
  | .perstNRelease => keeps_execPerstNRelease h
  | .hotReset => keeps_execHotReset h
  | .surpriseRemoval => keeps_execSurpriseRemoval h
  | .bootSelftest .. => keeps_execBootSelftest h
  | .lowerTreeDone => keeps_execLowerTreeDone h
  | .bootPrepDone .. => keeps_execBootPrepDone h
  | .bootGo .. => keeps_execBootGo h
  | .bootPpr .. => keeps_execBootPpr h
  | .bonorLoad => keeps_execBonorLoad h
  | .vfFlr .. => keeps_execVfFlr h
  | .vfEnableClear => keeps_execVfEnableClear h
  | .helloA .. => keeps_execHelloA h
  | .authA .. => keeps_execAuthA h
  | .queryState .. => keeps_execQueryState h
  | .lcToken .. => keeps_execLcToken h
  | .setFwPolicy .. => keeps_execSetFwPolicy h
  | .bundleBegin .. => keeps_execBundleBegin h
  | .bundleData .. => keeps_execBundleData h
  | .bundleEnd .. => keeps_execBundleEnd h
  | .advanceSvn .. => keeps_execAdvanceSvn h
  | .mgmtAttest .. => keeps_execMgmtAttest h
  | .setPowerCap .. => keeps_execSetPowerCap h
  | .getTelemetry .. => keeps_execGetTelemetry h
  | .subscribe .. => keeps_execSubscribe h
  | .telemetryPush .. => keeps_execTelemetryPush h
  | .faultHistory .. => keeps_execFaultHistory h
  | .mgmtReset .. => keeps_execMgmtReset h
  | .transition .. => keeps_execTransition h
  | .handover .. => keeps_execHandover h
  | .retire .. => keeps_execRetire h
  | .mgmtDelayExpiry .. => keeps_execMgmtDelayExpiry h
  | .mgmtSessionExpiry .. => keeps_execMgmtSessionExpiry h
  | .registerWrite .. => keeps_execRegisterWrite h
  | .unassignedOpcode .. => keeps_execUnassignedOpcode h
  | .copyEngineLine .. => keeps_execCopyEngineLine h
  | .copyEngineFault .. => keeps_execCopyEngineFault h
  | .sliceAllocatorFault .. => keeps_execSliceAllocatorFault h
  | .controlCoreUncorrectableError .. => keeps_execControlCoreUncorrectableError h
  | .collectorSelfCheckFailure => keeps_execCollectorSelfCheckFailure h
  | .hotResetEnd => keeps_execHotResetEnd h
  | .pcieLinkTrainingDone => keeps_execPcieLinkTrainingDone h
  | .configurationRetryEnd => keeps_execConfigurationRetryEnd h
  | .hostReadCompletion .. => keeps_execHostReadCompletion h
  | .completionTimeout .. => keeps_execCompletionTimeout h
  | .vfEnableSet .. => keeps_execVfEnableSet h
  | .d3hot .. => keeps_execD3hot h
  | .msiXVectorUnmask .. => keeps_execMsiXVectorUnmask h
  | .coolantOkHigh => keeps_execCoolantOkHigh h
  | .handoffWaitTimeout .. => keeps_execHandoffWaitTimeout h
  | .flrWaitCut .. => keeps_execFlrWaitCut h
  | .neighborDiscovery .. => keeps_execNeighborDiscovery h
  | .icmpv6Echo .. => keeps_execIcmpv6Echo h
  | .pauseFrame .. => keeps_execPauseFrame h
end

theorem keeps_refl (s : State) (rest : List Instr) : Keeps s { s with pending := rest } where
  hbm h := h.1
  staging h := h.2.1
  cores e he h := h.2.2 e he
  fuses := ⟨le_refl _, le_refl _, List.prefix_refl _, le_refl _⟩

/-- A step, of a command or of the counter, has a next state that keeps the byte memories and the fuses. -/
theorem keeps_step (s : State) : KeepsNext s (step s) := by
  unfold step
  split
  · unfold tick
    split
    · exact keepsNext_next.2 (keeps_refl s s.pending)
    · exact keepsNext_next.2 (keeps_of_eq (keeps_refl s s.pending) rfl rfl rfl rfl)
  · exact keeps_exec (keeps_refl s _)

/-- Settles O59, by the frame of every command: what a step writes to a byte memory goes through `mwrite`, `mwipe` or `mput`, which
keep it canonical. -/
theorem stepKeepsMemoryCanonical : Obligations.StepKeepsMemoryCanonical := by
  intro s t hs e
  obtain ⟨u, hu, k⟩ := keeps_step s
  obtain rfl : u = t := by simpa [hu] using e
  exact ⟨k.hbm hs, k.staging hs, fun c hc => k.cores c hc hs⟩

/-- Settles O60, by the same frame: a fuse is written by the boot count, a token, a delayed action, ADVANCE_SVN and a spare row only. -/
theorem fusesNeverTurnBack : Obligations.FusesNeverTurnBack := by
  intro s
  obtain ⟨t, e, k⟩ := keeps_step s
  exact ⟨t, e, k.fuses⟩
end Sys2Proof.Machine
end

section
/-! PROOFS. Steps, the state after reset, and the clearing commands. -/

namespace Sys2Proof.Machine

theorem next_congr {s t : State} (h : s = t) : (Host.Outcome.next s : Res) = .next t := congrArg _ h

/-- Settles O1, by the two cases of the queue. -/
theorem stepRunsFrontCommand : Obligations.StepRunsFrontCommand := by
  refine ⟨fun s c rest h => by rw [step, h], fun s h => ?_⟩
  simp only [step, h, tick]
  cases s.boot.powered <;> cases s.boot.inReset <;> simp

/-- Settles O58: every table of the state after reset is empty, and reads its default. -/
theorem resetState : Obligations.ResetState := by
  refine ⟨by unfold State.memWf; decide, rfl, rfl, rfl, fun _ => rfl, fun _ _ => ⟨rfl, rfl, rfl⟩, fun _ => rfl, rfl, fun _ => rfl, rfl, rfl,
    fun _ => ⟨rfl, rfl, rfl, rfl, rfl, rfl, rfl⟩, fun _ => ⟨rfl, rfl, rfl⟩, rfl, rfl, fun _ => rfl, rfl, rfl, rfl, rfl, rfl⟩

theorem onlyChan_setChan (s : State) (n : Nat) (c : Channel) : OnlyChan s (setChan s n c) n :=
  ⟨rfl, fun _ hm => chanAt_setChan_other s c hm⟩
theorem onlyPort_setPort (s : State) (n : Nat) (p : Port) : OnlyPort s (setPort s n p) n :=
  ⟨rfl, fun _ hm => portAt_setPort_other s p hm⟩

/-- Settles O35: each command changes one record of one unit. -/
theorem countersCleared : Obligations.CountersCleared := by
  intro s n hl hs
  have hon : (fnLive s .pf && serving s) = true := by rw [hl, hs]; rfl
  have hpf : pfWrites s = true := by rw [pfWrites, hl, hs]; rfl
  refine ⟨⟨_, next_congr (if_pos hon), onlyCore_setCore .., coreAt_setCore_same ..⟩,
    ⟨_, next_congr (if_pos hon), onlyChan_setChan .., chanAt_setChan_same ..⟩,
    ⟨_, next_congr (if_pos hon), onlyChan_setChan .., chanAt_setChan_same ..⟩,
    fun hn => ⟨_, next_congr (if_pos ?_), onlyPort_setPort .., portAt_setPort_same ..⟩, ⟨_, next_congr (if_pos hon), rfl⟩⟩
  rw [hpf, decide_eq_true hn]; rfl

end Sys2Proof.Machine
end

section
/-! PROOFS. Control transfer, END and the forms that are illegal or fault (R77, R78, R88, R92, R98, R99). -/

namespace Sys2Proof.Machine

theorem fTgt_eq (w : Word) : fTgt w = (w.setWidth 16).toInt := by
  have hf : field w 15 0 = w.toNat % 2 ^ 16 := by simp [field, nbits]
  rw [fTgt, hf, ← sext_toNat, BitVec.toNat_setWidth]

/-- A branch whose target lies within the image goes there (R78). -/
theorem branchTo_inside {s : State} {n : Nat} {w : Word} {c0 c : Core} {target : Int} (h0 : 0 ≤ target) (h1 : target < c0.im.length) :
    branchTo s n w c0 c target = setCore s n (retireTo c target.toNat) := by
  rw [branchTo, if_pos ⟨h0, h1⟩]
theorem branchTo_outside {s : State} {n : Nat} {w : Word} {c0 c : Core} {target : Int} (h : target < 0 ∨ (c0.im.length : Int) ≤ target) :
    branchTo s n w c0 c target = illegal s n c0.pc w := by
  rw [branchTo, if_neg (by omega)]

theorem onlyRetires_setCore (s : State) (n pc : Nat) : OnlyRetires s (setCore s n (retireTo (coreAt s n) pc)) n pc :=
  ⟨onlyCore_setCore .., coreAt_setCore_same ..⟩

/-- Settles O4: the frame reaches the row, whose target lies within the image. -/
theorem controlFlowTargets : Obligations.ControlFlowTargets := by
  intro s n w h c target jump
  refine ⟨fun ho => ⟨_, rfl, ?_⟩, fun ho h0 h1 => ⟨_, rfl, ?_⟩, fun ho h0 h1 => ⟨_, rfl, ?_⟩, fun ho hj => ⟨_, rfl, ?_⟩⟩
  · rw [issueReg_body h ho]; exact onlyRetires_setCore ..
  · rw [issue_body h ho, fTgt_eq, branchTo_inside h0 h1]; exact onlyRetires_setCore ..
  · rw [issue_body h ho, fTgt_eq, branchTo_inside h0 h1]; exact writesSregTo_retire ..
  · have hj : ((sreg c (fA w)).toNat : Int) < c.im.length := by exact_mod_cast hj
    rw [issue_body h ho, branchTo_inside (Int.natCast_nonneg _) hj]; exact onlyRetires_setCore ..

/-- Settles O7: each form stops in the frame or at the first check of its row. -/
theorem illegalAndFaultingForms : Obligations.IllegalAndFaultingForms := by
  intro s n w e c target a
  have ha : effAddr c w = a := effAddr_eq ..
  refine ⟨fun hrun hang hw hun => ?_, fun h => ⟨fun ht => ⟨fun ho => ?_, fun ho => ?_⟩, fun hj ho => ?_, fun hr => ?_, fun hin hal => ?_⟩⟩
  · have hl : legalWord w = false := by simp [legalWord, hun]
    have hang : armed s 7 n = false := hang
    show Host.Outcome.next (issueRow s n (!assigned w) w _) = _
    simp [issueRow, hun, hang, hl, ← hw, show running s (coreAt s n) = true from hrun, c]
  · show Host.Outcome.next (issue s n 0x03 w _) = _
    rw [issue_body h ho, fTgt_eq, branchTo_outside ht]
  · show Host.Outcome.next (issue s n 0x04 w _) = _
    rw [issue_body h ho, fTgt_eq, branchTo_outside ht]
  · show Host.Outcome.next (issue s n 0x05 w _) = _
    rw [issue_body h ho, branchTo_outside (Or.inr (by exact_mod_cast hj))]
  · have hout : (!spInside (effAddr c w) (fWidth w)) = true := (not_spInside_iff ..).2 (ha ▸ hr)
    exact ⟨fun ho => next_congr ((issue_body h ho _).trans (if_pos hout)), fun ho => next_congr ((issue_body h ho _).trans (if_pos hout))⟩
  · have hout : ¬ (!spInside (effAddr c w) (fWidth w)) = true := by rw [not_spInside_iff, ha, spTop]; omega
    have hal : effAddr c w % fWidth w ≠ 0 := ha ▸ hal
    exact ⟨fun ho => next_congr ((issue_body h ho _).trans ((if_neg hout).trans (if_pos hal))),
      fun ho => next_congr ((issue_body h ho _).trans ((if_neg hout).trans (if_pos hal)))⟩

end Sys2Proof.Machine
end

section
/-! PROOFS. Issue of DMA, of ACC.CLR and into the queues; the delivery of signals (R82, R87, R91, R92). -/

namespace Sys2Proof.Machine

theorem descAddr_eq (c : Core) (w : Word) :
    descAddr c w = (sreg c (fA w) + BitVec.ofInt 64 (w.setWidth 32).toInt).toNat := by
  rw [descAddr, toWord, immS_eq]

theorem onlyRetires_retire (s : State) (n : Nat) : OnlyRetires s (retire s n (coreAt s n)) n ((coreAt s n).pc + 1) :=
  onlyRetires_setCore ..

theorem dq_retireTo (c : Core) (pc : Nat) : (retireTo c pc).dq = c.dq := by unfold retireTo; split <;> rfl
theorem groups_retireTo (c : Core) (pc : Nat) : (retireTo c pc).groups = c.groups := by unfold retireTo; split <;> rfl

theorem stallOn_stalls (s : State) (n : Nat) (k : Stall) : OnlyCore s (stallOn s n k) n ∧ coreAt (stallOn s n k) n = { coreAt s n with stall := k } :=
  ⟨onlyCore_setCore .., coreAt_setCore_same ..⟩

/-- A DMA whose descriptor is in place, read without an error and well formed, queues it (R82). -/
theorem dma_queues {s : State} {n : Nat} {w : Word} {e : Sram} (h : Issues s n w) (ho : opIs w 0x60 = true)
    (hal : descAddr (coreAt s n) w % 32 = 0) (hin : descAddr (coreAt s n) w + 32 ≤ spTop) (hq : (coreAt s n).dq.length < 64)
    (hni : NoSpInjection s n) (hsp : e.sp = .clean) (hil : interlocked (queued (coreAt s n)) [(descAddr (coreAt s n) w, 32)] [] = false)
    (hok : descOk (mread (coreAt s n).sp (descAddr (coreAt s n) w) 32) = true) :
    let c := coreAt s n
    exec (.dma n w e) s = .next (retire s n { c with
      dq := c.dq ++ [descOf c w (descAddr c w) (mread c.sp (descAddr c w) 32)], nextDesc := c.nextDesc + 1
      groups := tset c.groups (fG w) (group c (fG w) + 1) }) := by
  have hs : spInside (descAddr (coreAt s n) w) 32 = true := decide_eq_true hin
  show Host.Outcome.next (issue s n 0x60 w _) = _
  rw [issue_body h ho]
  simp [hal, hs, Nat.not_le.2 hq, hil, hsp, spRead_clean hni, hok]

/-- Settles O12: each row's check decides between retiring and stalling. -/
theorem dmaIssueAndWait : Obligations.DmaIssueAndWait := by
  intro s n w e h c a
  have ha : descAddr c w = a := descAddr_eq ..
  refine ⟨fun ho hal hin hq hni hsp hil hok => ?_, fun ho => ⟨fun hg => ?_, fun hg => ?_⟩, fun ho => ⟨fun hg => ?_, fun hg => ?_⟩⟩
  · rw [← ha] at hal hin hil hok ⊢
    refine ⟨_, dma_queues h ho hal hin hq hni hsp hil hok, onlyCore_retire .., ?_⟩
    unfold group
    simp only [coreAt_retire, dq_retireTo, groups_retireTo]
    exact ⟨rfl, tget_tset_same .., fun g hg => tget_tset_other _ _ _ hg, rfl⟩
  · exact ⟨_, next_congr ((issue_body h ho _).trans (if_pos hg)), onlyRetires_retire ..⟩
  · exact ⟨_, next_congr ((issue_body h ho _).trans (if_neg (Nat.not_le.2 hg))), stallOn_stalls ..⟩
  · have hall : c.groups.all (fun g => g.2 == 0) = true := by simpa [List.all_eq_true] using hg
    exact ⟨_, next_congr ((issue_body h ho _).trans (if_pos hall)), onlyRetires_retire ..⟩
  · have hall : ¬ c.groups.all (fun g => g.2 == 0) = true := by simpa [List.all_eq_true] using hg
    exact ⟨_, next_congr ((issue_body h ho _).trans (if_neg hall)), stallOn_stalls ..⟩

/-- Settles O19, by the checks of SIGNAL_DELIVERY in their order. -/
theorem signalsReachTheirSemaphore : Obligations.SignalsReachTheirSemaphore := by
  intro s src dst k m c hf
  have hx : exec (.signalDelivery src dst) s = execSignalDelivery src dst s := rfl
  refine ⟨fun hw => ?_, fun hw => ⟨fun hc he hst hlt => ?_, fun hc he hst hle => ?_, fun hbad => ?_⟩⟩
  · simp [hx, execSignalDelivery, hf, hw]
  · have hcore : coreAt { s with signals := s.signals.eraseIdx k } dst = c := rfl
    refine ⟨setCore { s with signals := s.signals.eraseIdx k } dst { c with sems := tset c.sems m.sem (sem c m.sem + m.value) }, ?_,
      onlyCore_setCore .., ?_, ?_, fun j hj => ?_⟩
    · have hlt : ¬ 2 ^ 32 ≤ sem c m.sem + m.value := Nat.not_le.2 hlt
      simp [-Nat.reducePow, hx, execSignalDelivery, hf, hw, hcore, hc, he, hst, hlt]
    · rw [coreAt_setCore_same]
    · rw [coreAt_setCore_same]; exact tget_tset_same ..
    · rw [coreAt_setCore_same]; exact tget_tset_other _ _ _ hj
  · have hcore : coreAt { s with signals := s.signals.eraseIdx k } dst = c := rfl
    simp [-Nat.reducePow, hx, execSignalDelivery, hf, hw, hcore, hc, he, hst, hle]; rfl
  · have hcore : coreAt { s with signals := s.signals.eraseIdx k } dst = c := rfl
    have : (c.cmd != some m.cmd || c.ended || c.st != .running) = true := by
      rcases hbad with h | h | h <;> simp [h]
    simp [hx, execSignalDelivery, hf, hw, hcore, this]

theorem enqueueMatrix_queues {s : State} {n : Nat} {c : Core} {q : QInstr} (hl : c.mq.length < 8)
    (hi : interlocked (queued c) (spReads q) (spWrites q) = false) (ho : q.order = c.order) (hx : q.index = c.pc) :
    enqueueMatrix s n c q = retire s n { c with mq := c.mq ++ [q], order := c.order + 1 } := by
  rw [enqueueMatrix, if_neg (Nat.not_le.2 hl), hi, ← ho, ← hx]; rfl

theorem enqueueVector_queues {s : State} {n : Nat} {c : Core} {q : QInstr} (hl : c.vq.length < 8)
    (hr : ∀ r ∈ vecSources q.word, vPending c r = false) (hd : ∀ d, vecDest q.word = some d → vPending c d = false)
    (hi : interlocked (queued c) (spReads q) (spWrites q) = false) (ho : q.order = c.order) (hx : q.index = c.pc) :
    enqueueVector s n c q = retire s n { c with vq := c.vq ++ [q], order := c.order + 1 } := by
  unfold enqueueVector
  extract_lets touched
  have hany : touched.any (vPending c) = false := by
    simp only [touched, List.any_append, Bool.or_eq_false_iff, List.any_eq_false]
    refine ⟨fun r hm => by simp [hr r hm], ?_⟩
    cases hv : vecDest q.word with
    | none => simp
    | some d => simp [hd d hv]
  rw [if_neg (Nat.not_le.2 hl), hany, hi, ← ho, ← hx]; rfl

/-- A matrix instruction that its queue takes at issue (R92, R104). -/
theorem matrix_issues {s : State} {n op x y z u : Nat} {w : Word} {i : Instr} (h : Issues s n w) (ho : opIs w op = true)
    (hi : exec i s = .next (issue s n op w (fun c => enqueueMatrix s n c (qMatrix c w x y z u))))
    (hl : (coreAt s n).mq.length < 8)
    (hil : interlocked (queued (coreAt s n)) (spReads (qMatrix (coreAt s n) w x y z u)) (spWrites (qMatrix (coreAt s n) w x y z u)) = false) :
    ∃ t, exec i s = .next t ∧ OnlyCore s t n ∧ coreAt t n = retireTo { coreAt s n with
      mq := (coreAt s n).mq ++ [qMatrix (coreAt s n) w x y z u], order := (coreAt s n).order + 1 } ((coreAt s n).pc + 1) := by
  refine ⟨_, hi, ?_⟩
  rw [issue_body h ho, enqueueMatrix_queues hl hil rfl rfl]
  exact ⟨onlyCore_retire .., coreAt_retire ..⟩

/-- A vector instruction with s[VA] and s[VB] as read at issue (R114). -/
def qVector (c : Core) (w : Word) : QInstr := { word := w, index := c.pc, order := c.order, x := sreg c (fA w), y := sreg c (fB w) }

/-- A vector instruction that its queue takes at issue (R92, R114). -/
theorem vector_issues {s : State} {n : Nat} {w : Word} (h : Issues s n w) (hl : (coreAt s n).vq.length < 8)
    (hr : ∀ r ∈ vecSources w, vPending (coreAt s n) r = false) (hd : ∀ d, vecDest w = some d → vPending (coreAt s n) d = false)
    (hil : interlocked (queued (coreAt s n)) (spReads (qVector (coreAt s n) w)) (spWrites (qVector (coreAt s n) w)) = false)
    (op : Nat) (i : Instr) (hi : exec i s = .next (issueVec s n op w)) (ho : opIs w op = true) :
    ∃ t, exec i s = .next t ∧ OnlyCore s t n ∧ coreAt t n = retireTo { coreAt s n with
      vq := (coreAt s n).vq ++ [qVector (coreAt s n) w], order := (coreAt s n).order + 1 } ((coreAt s n).pc + 1) := by
  refine ⟨_, hi, ?_⟩
  rw [issueVec, issue_body h ho]
  have hq := enqueueVector_queues (s := s) (n := n) (q := qVector (coreAt s n) w) hl hr hd hil rfl rfl
  rw [qVector] at hq
  rw [hq]
  exact ⟨onlyCore_retire .., coreAt_retire ..⟩

/-- Settles O15: the frame reaches the queue, which has room. -/
theorem queuedInstructions : Obligations.QueuedInstructions := by
  refine ⟨fun s n w h => ?_, fun s n w h => ?_⟩
  · exact ⟨fun ho => matrix_issues h ho rfl, fun ho => matrix_issues h ho rfl, fun ho => matrix_issues h ho rfl,
      fun ho => matrix_issues h ho rfl⟩
  · intro c q hl hr hd hil queues
    have row := vector_issues h hl hr hd hil
    exact ⟨row 0xC0 (.vadd n w) rfl, row 0xC1 (.vsub n w) rfl, row 0xC2 (.vmul n w) rfl, row 0xC3 (.vfma n w) rfl,
      row 0xC4 (.vmin n w) rfl, row 0xC5 (.vmax n w) rfl, row 0xC6 (.vabs n w) rfl, row 0xC7 (.vneg n w) rfl,
      row 0xC8 (.vcmp n w) rfl, row 0xC9 (.vsel n w) rfl, row 0xCA (.viadd n w) rfl, row 0xCB (.vand n w) rfl,
      row 0xCC (.vor n w) rfl, row 0xCD (.vxor n w) rfl, row 0xCE (.vshl n w) rfl, row 0xCF (.vshr n w) rfl,
      row 0xD0 (.vsfu n w) rfl, row 0xD8 (.vcvt n w) rfl, row 0xDA (.vred n w) rfl, row 0xDB (.vrmax n w) rfl,
      row 0xDC (.vacc n w) rfl, row 0xDD (.vwpf n w) rfl, row 0xDE (.vperm n w) rfl⟩

end Sys2Proof.Machine
end

section
/-! PROOFS. END (R77, R88, R277), ACC.CLR (R52, R91), and a held kill epoch (R33, R99). -/

namespace Sys2Proof.Machine

/-- A device in service. -/
def servingBoot : Boot := { perstLow := false, powered := true, inReset := false, stage := .running, link := true, cfg := true, treeDone := true }

/-- A LAUNCH of colony 1 whose attempt runs on core `n`. -/
def launchOn (n : Nat) : Cmd := { page := 1, ring := 0, pkt := 0x10 :: zeros 63, colony := 1, phase := .running, n := 1, cores := [n], attempts := 1 }

/-- The word END, and a core of number 640 at it. The agent of that number is control core 0, whose cache holds a modified line. -/
def endWord : Word := 0x0200000000000000
def core640 : State :=
  { boot := servingBoot, cores := [(640, { st := .running, cmd := some 0, colony := 1, im := [endWord] })], cmds := [(0, launchOn 640)]
    hub := { ctrlLines := [(0, [{ channel := 0, offset := 0, mode := .modified, data := [] }])] } }

/-- Refutes O5: its last clause looks at the lines of core `n` alone, and the statement does not say `n < 640`; the agents from 640 on
are the control cores, and a modified line of theirs leaves the cache that END writes back. -/
theorem not_endWaitsForTheCore : ¬ Obligations.EndWaitsForTheCore := by
  intro h
  obtain ⟨-, hend⟩ := h core640 640 0 endWord (launchOn 640) (by unfold Issues; decide) (by decide) (by decide) (by decide)
  obtain ⟨-, hdone⟩ := hend (by decide) (by decide) (by decide) (by decide)
  obtain ⟨-, hclean⟩ := hdone (by decide)
  have hx := hclean (by decide)
  have written : ∀ t, exec (.end_ 640 endWord) core640 = .next t → t.hub.ctrlLines = [(0, [])] := by
    intro t e
    cases e
    decide
  exact absurd (written _ hx) (by decide)

theorem acc0_retireTo (c : Core) (pc : Nat) : (retireTo c pc).acc0 = c.acc0 := by unfold retireTo; split <;> rfl
theorem acc1_retireTo (c : Core) (pc : Nat) : (retireTo c pc).acc1 = c.acc1 := by unfold retireTo; split <;> rfl
theorem lowSpill_retireTo (c : Core) (pc : Nat) : (retireTo c pc).lowSpill = c.lowSpill := by unfold retireTo; split <;> rfl
theorem highSpill_retireTo (c : Core) (pc : Nat) : (retireTo c pc).highSpill = c.highSpill := by unfold retireTo; split <;> rfl

theorem sext_ten (v : Word) : sext (v.toNat % 1024) 10 = (v.setWidth 10).toInt := by
  rw [← sext_toNat, BitVec.toNat_setWidth]

/-- The anchor and the mode that ACC.CLR gives a tile (R52, R53). -/
def clrAnchor (c : Core) (w : Word) (cmd : Cmd) : Int :=
  if cmd.legacy then 0 else if fMode w = 0 then ((sreg c (fA w)).setWidth 10).toInt else if fMode w = 1 then cmd.anchor else scaledAnchor cmd
def clrMode (w : Word) (cmd : Cmd) : Nat := if cmd.legacy then 0 else fMode w

theorem accClr_clears {s : State} {n id : Nat} {w : Word} {cmd : Cmd} (h : Issues s n w) (ho : opIs w 0x90 = true)
    (hc : (coreAt s n).cmd = some id) (hid : cmdAt s id = some cmd) (hmq : ∀ q ∈ (coreAt s n).mq, fT q.word ≠ fT w)
    (hvq : ∀ q ∈ (coreAt s n).vq, vaccOn (fT w) q = false)
    (hfmt : cmd.legacy = false → fMode w = 2 → is16 cmd.fmtA = false ∧ is16 cmd.fmtB = false) :
    exec (.accClr n w) s = .next (retire s n (clearTile (coreAt s n) (fT w) (clrAnchor (coreAt s n) w cmd) (clrMode w cmd))) := by
  have hcmd : coreCmd s (coreAt s n) = some cmd := by rw [coreCmd, hc]; exact hid
  have hq : ((coreAt s n).mq.any (fun q => fT q.word == fT w) || (coreAt s n).vq.any (vaccOn (fT w))) = false := by
    simpa [Bool.or_eq_false_iff] using ⟨hmq, hvq⟩
  show Host.Outcome.next (issue s n 0x90 w _) = _
  rw [issue_body h ho]
  simp only [hcmd, hq, clrAnchor, clrMode, sext_ten]
  cases hl : cmd.legacy with
  | true => simp
  | false =>
    by_cases h2 : fMode w = 2
    · obtain ⟨ha, hb⟩ := hfmt hl h2
      simp [h2, ha, hb]
    · simp [h2]

/-- Settles O14. -/
theorem accClrAnchorsATile : Obligations.AccClrAnchorsATile := by
  intro s n id w cmd h ho c old hc hid hmq hvq hfmt
  refine ⟨_, accClr_clears h ho hc hid hmq hvq hfmt, onlyCore_retire .., ?_⟩
  rw [coreAt_retire]
  simp only [old, tile, acc0_retireTo, acc1_retireTo, lowSpill_retireTo, highSpill_retireTo]
  cases fT w
  · exact ⟨rfl, rfl, rfl, rfl, rfl⟩
  · exact ⟨rfl, rfl, rfl, rfl, rfl⟩

/-- A core that runs a LAUNCH with a tag of its next kill epoch still out: a kill holds its epoch back (R33). -/
def heldEpochState : State :=
  { boot := servingBoot
    cores := [(0, { st := .running, cmd := some 0, colony := 1, tags := [{ tag := 0, write := false, urgent := false, epoch := 1, desc := 0, spo := 0, data := [], instar := 0, colony := 1, cmd := 0 }] })]
    cmds := [(0, launchOn 0)], cols := [(1, { st := .active, cur := { valid := true, cores := [0], channels := List.range 16 } })] }

set_option maxRecDepth 20000 in
/-- Refutes O8: the kill epoch does not advance while a tag of the next epoch is out (R33). -/
theorem not_illegalInstructionEndsTheCommand : ¬ Obligations.IllegalInstructionEndsTheCommand := by
  intro h
  obtain ⟨t, r, k, hx, hrest⟩ := h heldEpochState 0 0 0 (launchOn 0) (by decide) (by decide) (by decide) (by decide) (by decide)
    (by decide) (by decide) (by decide) (by decide) (by decide) (by decide)
  obtain ⟨-, -, -, -, -, -, -, -, -, -, -, -, -, -, -, hepoch, -⟩ := hrest
  have held : exec (.unassignedOpcode 0 0) heldEpochState = .next t → (coreAt t 0).epoch = 0 := by
    intro e
    cases e
    decide
  rw [held hx] at hepoch
  exact absurd hepoch (by decide)

end Sys2Proof.Machine
end
section
/-! PROOFS. Coherent requests: what each operation on a line leaves of the directories and the caches (R267, R270, R272). -/

namespace Sys2Proof.Machine

/- The directory and the waiting requests of a channel under changes of other fields. -/

theorem chanAt_modChan (s : State) (n m : Nat) (f : Channel → Channel) :
    chanAt (modChan s n f) m = if m = n then f (chanAt s n) else chanAt s m := by
  split
  · next h => subst h; exact chanAt_modChan_same ..
  · next h => exact chanAt_setChan_other s _ h

theorem dir_modChan {f : Channel → Channel} (hf : ∀ c, (f c).dir = c.dir) (s : State) (n m : Nat) :
    (chanAt (modChan s n f) m).dir = (chanAt s m).dir := by
  rw [chanAt_modChan]
  split
  · next h => subst h; exact hf _
  · rfl
theorem nacked_modChan {f : Channel → Channel} (hf : ∀ c, (f c).nacked = c.nacked) (s : State) (n m : Nat) :
    (chanAt (modChan s n f) m).nacked = (chanAt s m).nacked := by
  rw [chanAt_modChan]
  split
  · next h => subst h; exact hf _
  · rfl

theorem dir_clearBad (c : Channel) (off : Nat) : (clearBad c off).dir = c.dir := by unfold clearBad; dsimp only; split <;> rfl
theorem nacked_clearBad (c : Channel) (off : Nat) : (clearBad c off).nacked = c.nacked := by unfold clearBad; dsimp only; split <;> rfl

/-- Writing a line touches neither directories nor waiting requests (R168, R236). -/
theorem dir_writeLine (s : State) (fa : Nat) (data : List Byte) (m : Nat) : (chanAt (writeLine s fa data) m).dir = (chanAt s m).dir := by
  unfold writeLine
  extract_lets ch off corrupt s1 s2 s3
  have h2 : (chanAt s2 m).dir = (chanAt s m).dir := dir_modChan (fun c => dir_clearBad c off) s1 ch m
  have h3 : (chanAt s3 m).dir = (chanAt s m).dir := by
    simp only [s3]
    split
    · rw [dir_modChan]
      · exact h2
      · exact fun _ => rfl
    · exact h2
  exact h3
theorem nacked_writeLine (s : State) (fa : Nat) (data : List Byte) (m : Nat) :
    (chanAt (writeLine s fa data) m).nacked = (chanAt s m).nacked := by
  unfold writeLine
  extract_lets ch off corrupt s1 s2 s3
  have h2 : (chanAt s2 m).nacked = (chanAt s m).nacked := nacked_modChan (fun c => nacked_clearBad c off) s1 ch m
  have h3 : (chanAt s3 m).nacked = (chanAt s m).nacked := by
    simp only [s3]
    split
    · rw [nacked_modChan]
      · exact h2
      · exact fun _ => rfl
    · exact h2
  exact h3

/-- A slice's lookup changes its own lines and counts alone (R229). -/
theorem sliceTouch_eq (s : State) (cls ch off : Nat) (dirty : Bool) :
    ∃ f : Channel → Channel, (∀ c, (f c).dir = c.dir ∧ (f c).nacked = c.nacked) ∧
      sliceTouch s cls ch off dirty = modChan (if cls = 0 then modHub s (fun h => { h with urgSeen := true }) else s) ch f := by
  unfold sliceTouch
  refine ⟨_, fun c => ?_, rfl⟩
  have hc : ∀ b : Bool, (if b then noteBitmap c (frameAddr ch off / 65536) else c).dir = c.dir ∧
      (if b then noteBitmap c (frameAddr ch off / 65536) else c).nacked = c.nacked := fun b => by cases b <;> simp [noteBitmap]
  have hc := hc (shadowAt s (frameAddr ch off)).isSome
  dsimp only
  split
  · exact hc
  · exact hc

theorem chanAt_modHub (s : State) (f : Hub → Hub) (m : Nat) : chanAt (modHub s f) m = chanAt s m := rfl

theorem dir_sliceTouch (s : State) (cls ch off : Nat) (dirty : Bool) (m : Nat) :
    (chanAt (sliceTouch s cls ch off dirty) m).dir = (chanAt s m).dir := by
  obtain ⟨f, hf, e⟩ := sliceTouch_eq s cls ch off dirty
  rw [e, dir_modChan fun c => (hf c).1]
  split
  · rw [chanAt_modHub]
  · rfl
theorem nacked_sliceTouch (s : State) (cls ch off : Nat) (dirty : Bool) (m : Nat) :
    (chanAt (sliceTouch s cls ch off dirty) m).nacked = (chanAt s m).nacked := by
  obtain ⟨f, hf, e⟩ := sliceTouch_eq s cls ch off dirty
  rw [e, nacked_modChan fun c => (hf c).2]
  split
  · rw [chanAt_modHub]
  · rfl
theorem hbm_sliceTouch (s : State) (cls ch off : Nat) (dirty : Bool) : (sliceTouch s cls ch off dirty).hbm = s.hbm := by
  obtain ⟨f, -, e⟩ := sliceTouch_eq s cls ch off dirty
  rw [e]; split <;> rfl
theorem cores_sliceTouch (s : State) (cls ch off : Nat) (dirty : Bool) : (sliceTouch s cls ch off dirty).cores = s.cores := by
  obtain ⟨f, -, e⟩ := sliceTouch_eq s cls ch off dirty
  rw [e]; split <;> rfl

theorem dir_homeWrite (s : State) (cls ch off : Nat) (data : List Byte) (m : Nat) :
    (chanAt (homeWrite s cls ch off data) m).dir = (chanAt s m).dir := by
  have h1 := (dir_sliceTouch (writeLine s (frameAddr ch off) data) cls ch off true m).trans (dir_writeLine s (frameAddr ch off) data m)
  unfold homeWrite
  dsimp only
  split
  · rw [dir_modChan]
    · exact h1
    · exact fun _ => rfl
  · exact h1
theorem nacked_homeWrite (s : State) (cls ch off : Nat) (data : List Byte) (m : Nat) :
    (chanAt (homeWrite s cls ch off data) m).nacked = (chanAt s m).nacked := by
  have h1 := (nacked_sliceTouch (writeLine s (frameAddr ch off) data) cls ch off true m).trans (nacked_writeLine s (frameAddr ch off) data m)
  unfold homeWrite
  dsimp only
  split
  · rw [nacked_modChan]
    · exact h1
    · exact fun _ => rfl
  · exact h1

theorem cores_writeLine (s : State) (fa : Nat) (data : List Byte) : (writeLine s fa data).cores = s.cores := by
  unfold writeLine; dsimp only; split <;> rfl
theorem hub_writeLine (s : State) (fa : Nat) (data : List Byte) : (writeLine s fa data).hub = s.hub := by
  unfold writeLine; dsimp only; split <;> rfl
theorem hbm_writeLine (s : State) (fa : Nat) (data : List Byte) :
    (writeLine s fa data).hbm = mwrite s.hbm (hbmKey (channelOf fa) (chanOff (lineBase fa))) (padTo 64 data) := by
  unfold writeLine; dsimp only; split <;> rfl

theorem cores_homeWrite (s : State) (cls ch off : Nat) (data : List Byte) : (homeWrite s cls ch off data).cores = s.cores := by
  have h1 := (cores_sliceTouch (writeLine s (frameAddr ch off) data) cls ch off true).trans (cores_writeLine ..)
  unfold homeWrite; dsimp only; split <;> exact h1
theorem hbm_homeWrite (s : State) (cls ch off : Nat) (data : List Byte) : (homeWrite s cls ch off data).hbm =
    mwrite s.hbm (hbmKey (channelOf (frameAddr ch off)) (chanOff (lineBase (frameAddr ch off)))) (padTo 64 data) := by
  have h1 := (hbm_sliceTouch (writeLine s (frameAddr ch off) data) cls ch off true).trans (hbm_writeLine ..)
  unfold homeWrite; dsimp only; split <;> exact h1

/- Caches. -/

/-- The caches of all agents: cores, control cores and line buffers. -/
def caches (s : State) : Tbl Core × Tbl (List CacheLine) × Tbl CopyEngine := (s.cores, s.hub.ctrlLines, s.hub.engines)

theorem cacheOf_congr {s t : State} (h : caches t = caches s) (agent : Nat) : cacheOf t agent = cacheOf s agent := by
  simp only [caches, Prod.mk.injEq] at h
  obtain ⟨hc, hl, he⟩ := h
  unfold cacheOf coreAt engineAt
  rw [hc, hl, he]

theorem caches_sliceTouch (s : State) (cls ch off : Nat) (dirty : Bool) : caches (sliceTouch s cls ch off dirty) = caches s := by
  obtain ⟨f, -, e⟩ := sliceTouch_eq s cls ch off dirty
  rw [e]; split <;> rfl
theorem caches_writeLine (s : State) (fa : Nat) (data : List Byte) : caches (writeLine s fa data) = caches s := by
  unfold caches; rw [cores_writeLine, hub_writeLine]
theorem caches_homeWrite (s : State) (cls ch off : Nat) (data : List Byte) : caches (homeWrite s cls ch off data) = caches s := by
  have h1 := (caches_sliceTouch (writeLine s (frameAddr ch off) data) cls ch off true).trans (caches_writeLine ..)
  unfold homeWrite; dsimp only; split <;> exact h1

@[simp] theorem cacheOf_setCache_same (s : State) (agent : Nat) (l : List CacheLine) : cacheOf (setCache s agent l) agent = l := by
  unfold cacheOf setCache
  by_cases h1 : agent < 640
  · simp [h1]
  · by_cases h2 : agent < 648
    · simp [h1, h2, modHub]
    · simp [h1, h2]
@[simp] theorem chanAt_setCache (s : State) (agent : Nat) (l : List CacheLine) (m : Nat) : chanAt (setCache s agent l) m = chanAt s m := by
  unfold setCache; repeat' split
  all_goals rfl
@[simp] theorem hbm_setCache (s : State) (agent : Nat) (l : List CacheLine) : (setCache s agent l).hbm = s.hbm := by
  unfold setCache; repeat' split
  all_goals rfl

theorem mem_cacheDrop {l : List CacheLine} {ch off : Nat} {x : CacheLine} :
    x ∈ cacheDrop l ch off ↔ x ∈ l ∧ ¬(x.channel = ch ∧ x.offset = off) := by
  grind [cacheDrop]
theorem cacheFind_cacheDrop (l : List CacheLine) (ch off : Nat) : cacheFind (cacheDrop l ch off) ch off = none := by
  rw [cacheFind, List.find?_eq_none]
  intro x hx
  simpa using (mem_cacheDrop.1 hx).2
/-- A line put at the end of a cache that does not hold it is found there. -/
theorem cacheFind_append_new {l : List CacheLine} {x : CacheLine} {ch off : Nat} (hl : ∀ y ∈ l, ¬(y.channel = ch ∧ y.offset = off))
    (hc : x.channel = ch) (ho : x.offset = off) : cacheFind (l ++ [x]) ch off = some x := by
  have hnone : cacheFind l ch off = none := by
    simp only [cacheFind, List.find?_eq_none, Bool.and_eq_true, beq_iff_eq]; exact hl
  rw [cacheFind] at hnone
  simp [cacheFind, hnone, hc, ho]
theorem cacheFind_some {l : List CacheLine} {ch off : Nat} {x : CacheLine} (h : cacheFind l ch off = some x) :
    x ∈ l ∧ x.channel = ch ∧ x.offset = off := by
  have := List.find?_some h
  simp only [Bool.and_eq_true, beq_iff_eq] at this
  exact ⟨List.mem_of_find?_eq_some h, this⟩

/- Directory entries. -/

theorem find?_filter_offset_ne {l : List DirEntry} {off o : Nat} (h : off ≠ o) :
    (l.filter (fun x => x.offset != o)).find? (fun x => x.offset == off) = l.find? (fun x => x.offset == off) := by
  rw [List.find?_filter]
  congr 1
  funext x
  grind
theorem find?_filter_offset_self (l : List DirEntry) (off : Nat) :
    (l.filter (fun x => x.offset != off)).find? (fun x => x.offset == off) = none := by
  rw [List.find?_eq_none]
  grind
theorem dirFind_dirPut_same (c : Channel) (e : DirEntry) : dirFind (dirPut c e) e.offset = some { e with used := c.clock } := by
  rw [dirFind, dirPut, List.find?_append, find?_filter_offset_self]
  simp
theorem dirFind_dirPut_other (c : Channel) (e : DirEntry) {off : Nat} (h : off ≠ e.offset) : dirFind (dirPut c e) off = dirFind c off := by
  rw [dirFind, dirPut, List.find?_append, find?_filter_offset_ne h]
  simp [dirFind, h.symm]
theorem dirFind_dirDel_same (c : Channel) (off : Nat) : dirFind (dirDel c off) off = none := find?_filter_offset_self ..
theorem dirFind_dirDel_other (c : Channel) {off o : Nat} (h : off ≠ o) : dirFind (dirDel c o) off = dirFind c off :=
  find?_filter_offset_ne h
theorem dirFind_congr {c d : Channel} (h : c.dir = d.dir) (off : Nat) : dirFind c off = dirFind d off := by rw [dirFind, h]; rfl
theorem dirFind_offset {c : Channel} {off : Nat} {e : DirEntry} (h : dirFind c off = some e) : e.offset = off := by
  simpa using List.find?_some h

/- Lines that leave or enter a cache (R272). -/

theorem caches_modChan (s : State) (n : Nat) (f : Channel → Channel) : caches (modChan s n f) = caches s := rfl

/-- What a change of other lines leaves: the entry of line `off` of channel `ch`, and what waits at the slices. -/
def SameLine (s t : State) (ch off : Nat) : Prop :=
  dirFind (chanAt t ch) off = dirFind (chanAt s ch) off ∧ ∀ m, (chanAt t m).nacked = (chanAt s m).nacked

theorem sameLine_trans {s t u : State} {ch off : Nat} (h : SameLine s t ch off) (h' : SameLine t u ch off) : SameLine s u ch off :=
  ⟨h'.1.trans h.1, fun m => (h'.2 m).trans (h.2 m)⟩
theorem sameLine_setCache (s : State) (agent : Nat) (l : List CacheLine) (ch off : Nat) : SameLine s (setCache s agent l) ch off :=
  ⟨by rw [chanAt_setCache], fun m => by rw [chanAt_setCache]⟩
theorem sameLine_homeWrite (s : State) (cls c o : Nat) (data : List Byte) (ch off : Nat) : SameLine s (homeWrite s cls c o data) ch off :=
  ⟨dirFind_congr (dir_homeWrite ..) off, nacked_homeWrite s cls c o data⟩
theorem sameLine_dirPut (s : State) {c ch off : Nat} {e : DirEntry} (h : ¬(c = ch ∧ e.offset = off)) :
    SameLine s (modChan s c (fun x => dirPut x e)) ch off := by
  refine ⟨?_, fun m => nacked_modChan (f := _) ?_ s c m⟩
  rotate_left
  · exact fun _ => rfl
  rw [chanAt_modChan]
  split
  · next hc => subst hc; exact dirFind_dirPut_other _ _ fun ho => h ⟨rfl, ho.symm⟩
  · rfl
theorem sameLine_dirDel (s : State) {c o ch off : Nat} (h : ¬(c = ch ∧ o = off)) :
    SameLine s (modChan s c (fun x => dirDel x o)) ch off := by
  refine ⟨?_, fun m => nacked_modChan (f := _) ?_ s c m⟩
  rotate_left
  · exact fun _ => rfl
  rw [chanAt_modChan]
  split
  · next hc => subst hc; exact dirFind_dirDel_other _ fun ho => h ⟨rfl, ho.symm⟩
  · rfl

/-- A line that leaves a full cache leaves every other line's entry as it is, and that cache without it. -/
theorem evictLine_other (s : State) (agent : Nat) (v : CacheLine) {ch off : Nat} (h : ¬(v.channel = ch ∧ v.offset = off)) :
    SameLine s (evictLine s agent v) ch off ∧ cacheOf (evictLine s agent v) agent = cacheDrop (cacheOf s agent) v.channel v.offset := by
  unfold evictLine
  extract_lets s0 home put
  have h0 : SameLine s s0 ch off := sameLine_setCache ..
  have c0 : cacheOf s0 agent = cacheDrop (cacheOf s agent) v.channel v.offset := cacheOf_setCache_same ..
  have hhome : SameLine s (home s0) ch off := sameLine_trans h0 (sameLine_homeWrite ..)
  have chome : cacheOf (home s0) agent = cacheDrop (cacheOf s agent) v.channel v.offset := (cacheOf_congr (caches_homeWrite ..) _).trans c0
  have put_ok : ∀ t e, SameLine s t ch off → e.offset = v.offset → SameLine s (put t e) ch off := fun t e ht he =>
    sameLine_trans ht (sameLine_dirPut t (by rw [he]; exact h))
  have cput : ∀ t e, cacheOf (put t e) agent = cacheOf t agent := fun t e => cacheOf_congr (caches_modChan ..) _
  clear_value s0 put home
  split
  · exact ⟨h0, c0⟩
  split
  · exact ⟨hhome, chome⟩
  next e he =>
  have heo := dirFind_offset he
  split
  · split
    · exact ⟨sameLine_trans hhome (sameLine_dirDel _ h), (cacheOf_congr (caches_modChan ..) _).trans chome⟩
    · exact ⟨h0, c0⟩
  · split
    · exact ⟨h0, c0⟩
    · split
      · exact ⟨put_ok _ _ hhome heo, (cput _ _).trans chome⟩
      · exact ⟨put_ok _ _ h0 heo, (cput _ _).trans c0⟩
  · split
    · exact ⟨put_ok _ _ h0 heo, (cput _ _).trans c0⟩
    · exact ⟨h0, c0⟩
  · exact ⟨h0, c0⟩

/-- A line that enters a cache is found there; its entry stays; without a full set, so does HBM. -/
theorem fillCache_fills (s : State) (agent ch off : Nat) (mode : CacheMode) (data : List Byte) :
    SameLine s (fillCache s agent ch off mode data) ch off ∧
    cacheFind (cacheOf (fillCache s agent ch off mode data) agent) ch off = some ⟨ch, off, mode, data⟩ ∧
    (RoomFor s agent off → (fillCache s agent ch off mode data).hbm = s.hbm) := by
  unfold fillCache
  extract_lets s0 mates s1
  have c0 : cacheOf s0 agent = cacheDrop (cacheOf s agent) ch off := cacheOf_setCache_same ..
  have h0 : SameLine s s0 ch off := sameLine_setCache ..
  have hmates : ∀ v ∈ mates, ¬(v.channel = ch ∧ v.offset = off) := fun v hv =>
    (mem_cacheDrop.1 (c0 ▸ (List.mem_filter.1 hv).1)).2
  have h1 : SameLine s s1 ch off ∧ (∀ y ∈ cacheOf s1 agent, ¬(y.channel = ch ∧ y.offset = off)) ∧ (RoomFor s agent off → s1.hbm = s.hbm) := by
    have hs0 : SameLine s s0 ch off ∧ (∀ y ∈ cacheOf s0 agent, ¬(y.channel = ch ∧ y.offset = off)) ∧ (RoomFor s agent off → s0.hbm = s.hbm) :=
      ⟨h0, fun y hy => (mem_cacheDrop.1 (c0 ▸ hy)).2, fun _ => hbm_setCache ..⟩
    clear_value s0
    rcases hm : mates with _ | ⟨v, rest⟩
    · simpa only [s1, hm] using hs0
    · simp only [s1, hm]
      split
      · exact hs0
      · next hfull =>
        rw [← hm] at hfull
        obtain ⟨hv1, hv2⟩ := evictLine_other s0 agent v (hmates v (hm ▸ List.mem_cons_self))
        refine ⟨sameLine_trans h0 hv1, fun y hy => hs0.2.1 y ?_, fun hroom => absurd ?_ hfull⟩
        · rw [hv2] at hy; exact (mem_cacheDrop.1 hy).1
        · refine lt_of_le_of_lt ?_ hroom
          simp only [mates, c0, cacheDrop]
          exact List.Sublist.length_le (List.Sublist.filter _ List.filter_sublist)
  obtain ⟨hs, hc, hh⟩ := h1
  refine ⟨sameLine_trans hs (sameLine_setCache ..), ?_, fun hr => (hbm_setCache ..).trans (hh hr)⟩
  rw [cacheOf_setCache_same]
  exact cacheFind_append_new hc rfl rfl

/- Grants (R272). -/

theorem homeData_congr {s t : State} (hh : t.hbm = s.hbm) (hc : t.cmds = s.cmds) (hl : t.cols = s.cols) (ch off : Nat) :
    homeData t ch off = homeData s ch off := by
  have hs : sourceAddr t (frameAddr ch off) = sourceAddr s (frameAddr ch off) := by
    unfold sourceAddr shadowAt colAt; rw [hc, hl]
  rw [homeData, homeData, hs, lineData, lineData, hh]

theorem dirFind_modChan_dirPut (s : State) (ch : Nat) (e : DirEntry) :
    dirFind (chanAt (modChan s ch (fun c => dirPut c e)) ch) e.offset = some { e with used := (chanAt s ch).clock } := by
  rw [chanAt_modChan_same]; exact dirFind_dirPut_same ..

/-- A line whose home can supply it is granted (R272). -/
theorem grantHome_grants {s : State} {agent ch off : Nat} {e : DirEntry} (mode : CacheMode) (hg : homeBad s ch off = false) (ho : e.offset = off) :
    let t := grantHome s agent ch off e mode
    (∃ k, dirFind (chanAt t ch) off = some { e with used := k }) ∧ (∀ m, (chanAt t m).nacked = (chanAt s m).nacked) ∧
    cacheFind (cacheOf t agent) ch off = some ⟨ch, off, mode, homeData s ch off⟩ ∧ (RoomFor s agent off → t.hbm = s.hbm) := by
  intro t
  let s1 := modChan (sliceTouch s (agentClass s agent) ch off false) ch (fun c => dirPut c e)
  have ht : t = fillCache s1 agent ch off mode (homeData s ch off) := by
    simp only [t, grantHome, hg]; rfl
  obtain ⟨⟨hd, hn⟩, hc, hh⟩ := fillCache_fills s1 agent ch off mode (homeData s ch off)
  have hcache : cacheOf s1 agent = cacheOf s agent := cacheOf_congr ((caches_modChan ..).trans (caches_sliceTouch ..)) _
  refine ⟨⟨(chanAt (sliceTouch s (agentClass s agent) ch off false) ch).clock, ?_⟩, fun m => ?_, ?_, fun hr => ?_⟩
  · rw [ht, hd]; subst ho; exact dirFind_modChan_dirPut ..
  · rw [ht, hn, nacked_modChan, nacked_sliceTouch]
    exact fun _ => rfl
  · rw [ht, hc]
  · rw [ht, hh (by unfold RoomFor; rw [hcache]; exact hr)]
    exact hbm_sliceTouch s (agentClass s agent) ch off false

end Sys2Proof.Machine
end
section
/-! PROOFS. Coherent requests, answers and write-backs at the home (R267, R271 to R274). -/

namespace Sys2Proof.Machine

/- What a request's own place in the waiting list does not matter to. -/

theorem homeBad_unNack (s : State) (agent c o ch off : Nat) : homeBad (unNack s agent c o) ch off = homeBad s ch off := by
  have hs : sourceAddr (unNack s agent c o) (frameAddr ch off) = sourceAddr s (frameAddr ch off) := rfl
  rw [homeBad, homeBad, hs]
  unfold lineProblem unNack
  dsimp only
  rw [chanAt_modChan]
  split
  · next h => rw [h]; rfl
  · rfl

theorem homeBad_of_checkRead {s : State} {ch off : Nat} (h : checkRead s (sourceAddr s (frameAddr ch off)) = (s, none)) :
    homeBad s ch off = false := by
  unfold checkRead at h
  rw [homeBad]
  cases hp : lineProblem s (sourceAddr s (frameAddr ch off)) with
  | none => rfl
  | some p => simp [hp] at h

theorem dir_unNack (s : State) (agent ch off m : Nat) : (chanAt (unNack s agent ch off) m).dir = (chanAt s m).dir := by
  rw [unNack, dir_modChan]
  exact fun _ => rfl
theorem not_mem_nacked_unNack (s : State) (agent ch off : Nat) :
    ∀ x ∈ (chanAt (unNack s agent ch off) ch).nacked, ¬(x.agent = agent ∧ x.offset = off) := by
  intro x hx
  rw [unNack, chanAt_modChan_same] at hx
  have := (List.mem_filter.1 hx).2
  grind
theorem caches_unNack (s : State) (agent ch off : Nat) : caches (unNack s agent ch off) = caches s := rfl
theorem roomFor_congr {s t : State} (h : caches t = caches s) (agent off : Nat) : RoomFor t agent off ↔ RoomFor s agent off := by
  unfold RoomFor; rw [cacheOf_congr h]

/-- What a grant leaves of a line (R272): its entry, the requester's copy, the requests that wait, and HBM. -/
def Granted (s t : State) (agent ch off : Nat) (e : DirEntry) (l : CacheLine) : Prop :=
  (∃ k, dirFind (chanAt t ch) off = some { e with used := k }) ∧
  (∀ x ∈ (chanAt t ch).nacked, ¬(x.agent = agent ∧ x.offset = off)) ∧
  cacheFind (cacheOf t agent) ch off = some l ∧ (RoomFor s agent off → t.hbm = s.hbm)

/-- A line whose home can supply it is granted to a requester that waits no more. -/
theorem granted_unNack {s : State} {agent ch off : Nat} {e : DirEntry} (mode : CacheMode) (hg : homeBad s ch off = false) (ho : e.offset = off) :
    Granted s (grantHome (unNack s agent ch off) agent ch off e mode) agent ch off e ⟨ch, off, mode, homeData s ch off⟩ := by
  obtain ⟨hd, hn, hc, hh⟩ := grantHome_grants (s := unNack s agent ch off) (agent := agent) (e := e) mode
    ((homeBad_unNack s agent ch off ch off).trans hg) ho
  exact ⟨hd, fun x hx => not_mem_nacked_unNack s agent ch off x (hn ch ▸ hx), hc, hh⟩

/-- A request that reaches its home is served there as the directory's table says. -/
theorem sendRequest_reaches {s : State} {agent ch off : Nat} {kind k : ReqKind} {data : List Byte}
    (hm : mayIssue s agent (agentClass s agent) ch off = true) (hread : checkRead s (sourceAddr s (frameAddr ch off)) = (s, none))
    (hres : NoneReserved s agent ch off) (hk : kindServed s agent ch off kind = k) :
    sendRequest s agent ch off kind data .clean = dirServe s agent ch off k data := by
  have hnone : (chanAt s ch).nacked.any (fun n => n.reserved && n.offset == off && n.agent != agent) = false := by
    rw [List.any_eq_false]
    intro x hx
    have := hres x hx
    grind
  have hdir : dirRequest s agent ch off k data = dirServe s agent ch off k data := by rw [dirRequest, hnone]; rfl
  have herr : sliceError s ch off .clean = s := by simp [sliceError]
  simp only [sendRequest, hm, herr, ite_self, hk, hread, hdir, Bool.true_or, Bool.not_true, Bool.false_eq_true, if_false]

theorem homeRequest_reaches {s : State} {agent ch off : Nat} {e : Sram} {kind k : ReqKind} {data : List Byte}
    (h : ReachesHome s agent ch off e) (hk : kindServed s agent ch off kind = k) :
    homeRequest s agent ch off kind data .clean = dirServe s agent ch off k data := by
  obtain ⟨hw, hm, -, hread, hres⟩ := h
  rw [homeRequest, hw]
  exact sendRequest_reaches hm hread hres hk

theorem kindServed_of_not_gets {s : State} {agent ch off : Nat} {kind : ReqKind} (h : kind ≠ .gets) : kindServed s agent ch off kind = kind := by
  simp [kindServed, h]
/-- Only an INVALIDATING or RECALLING line makes a GETS something else (R275). -/
theorem kindServed_stable {s : State} {agent ch off : Nat} {kind : ReqKind}
    (h : ∀ x ∈ (chanAt s ch).dir, x.offset = off → x.st = .shared ∨ x.st = .owned) : kindServed s agent ch off kind = kind := by
  unfold kindServed
  split
  · next hc =>
    obtain ⟨-, -, hany⟩ := hc
    obtain ⟨x, hx, hp⟩ := List.any_eq_true.1 hany
    have := h x hx
    grind
  · rfl
theorem no_entry {c : Channel} {off : Nat} (h : dirFind c off = none) : ∀ x ∈ c.dir, x.offset ≠ off := by
  simpa [dirFind] using h

/- Where a line's home lies in HBM. -/

theorem padTo_of_length {k : Nat} {data : List Byte} (h : data.length = k) : padTo k data = data := by
  exact List.take_left' h

theorem lineBase_frameAddr (ch : Nat) {off : Nat} (h : off % 64 = 0) : lineBase (frameAddr ch off) = frameAddr ch off := by
  rw [lineBase, frameAddr_eq]
  omega

theorem key_frameAddr {ch off : Nat} (h : lineWf off = true) :
    hbmKey (channelOf (frameAddr ch off)) (chanOff (lineBase (frameAddr ch off))) = hbmKey ch off := by
  simp only [lineWf, Bool.and_eq_true, decide_eq_true_eq] at h
  obtain ⟨h64, hlt⟩ := h
  have hoff : off < 2 ^ 31 := by omega
  rw [lineBase_frameAddr ch h64, channelOf_frameAddr ch hoff, chanOff_frameAddr ch hoff]

/-- A full line written at its home lies there, and no other byte of HBM changes (R272). -/
theorem homeWrite_writes {s : State} {ch off : Nat} {data : List Byte} (cls : Nat) (hw : lineWf off = true) (hl : data.length = 64) :
    (Memory.wf s.hbm = true → mread (homeWrite s cls ch off data).hbm (hbmKey ch off) 64 = data) ∧
    ∀ a, ¬(hbmKey ch off ≤ a ∧ a < hbmKey ch off + 64) → mget (homeWrite s cls ch off data).hbm a = mget s.hbm a := by
  rw [hbm_homeWrite, key_frameAddr hw, padTo_of_length hl]
  refine ⟨fun hwf => ?_, fun a ha => mget_mwrite_other _ _ _ (by omega)⟩
  rw [← hl]
  exact mread_mwrite _ _ hwf

/- Requests of an UNCACHED line (R272). -/

theorem dirServe_uncached {s : State} {agent ch off : Nat} {kind : ReqKind} {data : List Byte} (hn : dirFind (chanAt s ch) off = none)
    (hr : kind = .ncr ∨ kind = .ncw ∨ dirRoom (chanAt s ch) off = true) :
    dirServe s agent ch off kind data = serveUncached s agent ch off kind data := by
  unfold dirServe
  dsimp only
  rw [hn]
  dsimp only
  split
  · rfl
  · next h =>
    have hroom : dirRoom (chanAt s ch) off = true := by
      rcases hr with h' | h' | h'
      · simp [h'] at h
      · simp [h'] at h
      · exact h'
    rw [if_pos hroom]

/-- A GETS or GETM of an UNCACHED line makes its requester the owner, with the home's data. -/
theorem uncached_grants {s : State} {agent ch off : Nat} {kind : ReqKind} {data : List Byte} (hk : kind = .gets ∨ kind = .getm)
    (hn : dirFind (chanAt s ch) off = none) (hr : dirRoom (chanAt s ch) off = true) (hg : homeBad s ch off = false) :
    Granted s (dirServe s agent ch off kind data) agent ch off (ownedBy off agent)
      ⟨ch, off, if kind = .gets then .exclusive else .modified, homeData s ch off⟩ := by
  rw [dirServe_uncached hn (.inr (.inr hr))]
  rcases hk with rfl | rfl
  · exact granted_unNack _ hg rfl
  · exact granted_unNack _ hg rfl

/-- GETM without data gives the ownership alone (R272). -/
theorem uncached_ownership {s : State} {agent ch off : Nat} {data : List Byte} (hn : dirFind (chanAt s ch) off = none)
    (hr : dirRoom (chanAt s ch) off = true) :
    ∃ l, l.length = 64 ∧ Granted s (dirServe s agent ch off .getw data) agent ch off (ownedBy off agent) ⟨ch, off, .modified, l⟩ := by
  rw [dirServe_uncached hn (.inr (.inr hr))]
  let s1 := modChan (drawFree (unNack s agent ch off)).2 ch (fun c => dirPut c (ownedBy off agent))
  refine ⟨leBytes 64 (drawFree (unNack s agent ch off)).1, leBytes_length .., ?_⟩
  obtain ⟨⟨hd, hnk⟩, hc, hh⟩ := fillCache_fills s1 agent ch off .modified (leBytes 64 (drawFree (unNack s agent ch off)).1)
  refine ⟨⟨_, hd.trans (dirFind_modChan_dirPut ..)⟩, fun x hx => ?_, hc, hh⟩
  have hx : x ∈ (chanAt s1 ch).nacked := hnk ch ▸ hx
  rw [show (chanAt s1 ch).nacked = (chanAt (unNack s agent ch off) ch).nacked by
    simp only [s1]; rw [nacked_modChan]; exacts [rfl, fun _ => rfl]] at hx
  exact not_mem_nacked_unNack s agent ch off x hx

theorem exec_gets {s : State} {agent ch off : Nat} {e : Sram} (ho : domainOpen s agent ch = true) (hc : isCaching agent = true)
    (hl : lineOpen s agent ch off false = true) (hh : heldLine s agent ch off = none) :
    exec (.gets agent ch off e) s = .next (homeRequest s agent ch off .gets [] e.slice) :=
  next_congr (if_pos (by rw [ho, hc, hl, hh]; rfl))
theorem exec_getm {s : State} {agent ch off : Nat} {whole : Bool} {e : Sram} (ho : domainOpen s agent ch = true) (hc : isCaching agent = true)
    (hl : lineOpen s agent ch off true = true) (hh : heldLine s agent ch off = none) :
    exec (.getm agent ch off whole e) s = .next (homeRequest s agent ch off (if whole then .getw else .getm) [] e.slice) :=
  next_congr (if_pos (by rw [ho, hc, hl, hh]; rfl))
theorem exec_ncr {s : State} {agent ch off : Nat} {e : Sram} (ho : domainOpen s agent ch = true)
    (hl : lineOpen s agent ch off false = true) : exec (.ncr agent ch off e) s = .next (homeRequest s agent ch off .ncr [] e.slice) :=
  next_congr (if_pos (by rw [ho, hl]; rfl))
theorem exec_ncw {s : State} {agent ch off : Nat} {data : List Byte} (ho : domainOpen s agent ch = true)
    (hl : lineOpen s agent ch off false = true) :
    exec (.ncw agent ch off data) s = .next (homeRequest s agent ch off .ncw (padTo 64 data) .clean) :=
  next_congr (if_pos (by rw [ho, hl]; rfl))

/-- Requests of an UNCACHED line (R272): the first part of O21. -/
theorem uncached_requests (s : State) (agent ch off : Nat) (data : List Byte) (e : Sram) (ho : domainOpen s agent ch = true)
    (hh : heldLine s agent ch off = none) (hr : ReachesHome s agent ch off e) (hn : dirFind (chanAt s ch) off = none) (hw : lineWf off = true) :
    let grants (i : Instr) (own : Bool) (m : CacheMode) : Prop :=
      isCaching agent = true → lineOpen s agent ch off own = true → dirRoom (chanAt s ch) off = true →
      ∃ t d, exec i s = .next t ∧ dirFind (chanAt t ch) off = some d ∧ d.st = .owned ∧ d.owner = agent ∧
        cacheFind (cacheOf t agent) ch off = some ⟨ch, off, m, homeData s ch off⟩ ∧ (RoomFor s agent off → t.hbm = s.hbm)
    grants (.gets agent ch off e) false .exclusive ∧ grants (.getm agent ch off false e) true .modified ∧
    (isCaching agent = true → lineOpen s agent ch off true = true → dirRoom (chanAt s ch) off = true →
      ∃ t d l, exec (.getm agent ch off true e) s = .next t ∧ dirFind (chanAt t ch) off = some d ∧ d.st = .owned ∧ d.owner = agent ∧
        cacheFind (cacheOf t agent) ch off = some ⟨ch, off, .modified, l⟩ ∧ l.length = 64 ∧ (RoomFor s agent off → t.hbm = s.hbm)) ∧
    (lineOpen s agent ch off false = true →
      (∃ t, exec (.ncr agent ch off e) s = .next t ∧ (chanAt t ch).dir = (chanAt s ch).dir ∧ t.hbm = s.hbm ∧ t.cores = s.cores) ∧
      (data.length = 64 → ∃ t, exec (.ncw agent ch off data) s = .next t ∧ (chanAt t ch).dir = (chanAt s ch).dir ∧
        t.cores = s.cores ∧ (Memory.wf s.hbm = true → mread t.hbm (hbmKey ch off) 64 = data) ∧
        ∀ a, ¬ (hbmKey ch off ≤ a ∧ a < hbmKey ch off + 64) → mget t.hbm a = mget s.hbm a)) := by
  have he : e.slice = .clean := hr.2.2.1
  have hg : homeBad s ch off = false := homeBad_of_checkRead hr.2.2.2.1
  have hstable : kindServed s agent ch off .gets = .gets := kindServed_stable fun x hx hxo => absurd hxo (no_entry hn x hx)
  refine ⟨fun hc hl hroom => ?_, fun hc hl hroom => ?_, fun hc hl hroom => ?_, fun hl => ⟨?_, fun hlen => ?_⟩⟩
  · obtain ⟨⟨k, hd⟩, -, hcf, hhb⟩ := uncached_grants (agent := agent) (data := []) (.inl rfl) hn hroom hg
    exact ⟨_, _, by rw [exec_gets ho hc hl hh, he, homeRequest_reaches hr hstable], hd, rfl, rfl, hcf, hhb⟩
  · obtain ⟨⟨k, hd⟩, -, hcf, hhb⟩ := uncached_grants (agent := agent) (data := []) (.inr rfl) hn hroom hg
    exact ⟨_, _, by rw [exec_getm ho hc hl hh, he]; exact next_congr (homeRequest_reaches hr (kindServed_of_not_gets (by decide))), hd, rfl, rfl, hcf, hhb⟩
  · obtain ⟨l, hlen, ⟨k, hd⟩, -, hcf, hhb⟩ := uncached_ownership (agent := agent) (data := []) hn hroom
    exact ⟨_, _, l, by rw [exec_getm ho hc hl hh, he]; exact next_congr (homeRequest_reaches hr (kindServed_of_not_gets (by decide))), hd, rfl, rfl, hcf, hlen, hhb⟩
  · refine ⟨_, by rw [exec_ncr ho hl, he, homeRequest_reaches hr (kindServed_of_not_gets (by decide)), dirServe_uncached hn (.inl rfl)], ?_, ?_, ?_⟩
    · exact (dir_unNack ..).trans (dir_sliceTouch s (agentClass s agent) ch off false ch)
    · exact hbm_sliceTouch s (agentClass s agent) ch off false
    · exact cores_sliceTouch s (agentClass s agent) ch off false
  · have hp : padTo 64 data = data := padTo_of_length hlen
    obtain ⟨hm, hrest⟩ := homeWrite_writes (s := s) (ch := ch) (agentClass s agent) hw hlen
    refine ⟨unNack (homeWrite s (agentClass s agent) ch off data) agent ch off, by rw [exec_ncw ho hl, hp, homeRequest_reaches hr (kindServed_of_not_gets (by decide)), dirServe_uncached hn (.inr (.inl rfl))]; rfl, ?_, ?_, hm, hrest⟩
    · exact (dir_unNack ..).trans (dir_homeWrite s (agentClass s agent) ch off data ch)
    · exact cores_homeWrite ..

/- Requests of a line that the directory knows (R272, R273). -/

theorem mem_insertNew_self (l : List Nat) (x : Nat) : x ∈ insertNew l x := by
  unfold insertNew; split
  · next h => simpa using h
  · simp
theorem mem_insertNew_of_mem {l : List Nat} {x y : Nat} (h : y ∈ l) : y ∈ insertNew l x := by
  unfold insertNew; split
  · exact h
  · simp [h]

/-- A transient entry with its request, put in the requester's place among the waiting (R272). -/
theorem pending_entry (s : State) {agent ch off : Nat} {d : DirEntry} (hd : d.offset = off) :
    let t := modChan (unNack s agent ch off) ch (fun x => dirPut x d)
    (∃ k, dirFind (chanAt t ch) off = some { d with used := k }) ∧ t.cores = s.cores ∧ t.hbm = s.hbm :=
  ⟨⟨(chanAt (unNack s agent ch off) ch).clock, by subst hd; exact dirFind_modChan_dirPut ..⟩, rfl, rfl⟩

theorem nack_counts (s : State) (agent ch off : Nat) (kind : ReqKind) (data : List Byte) :
    let t := nack s agent ch off kind data
    (chanAt t ch).dir = (chanAt s ch).dir ∧ (chanAt t ch).nacks = ((chanAt s ch).nacks + 1) % 2 ^ 64 ∧
    (∃ m ∈ (chanAt t ch).nacked, m.agent = agent ∧ m.offset = off ∧ m.kind = kind) ∧ t.cores = s.cores ∧ t.hbm = s.hbm := by
  intro t
  refine ⟨?_, ?_, ?_, rfl, rfl⟩
  · simp only [t, nack, chanAt_modChan_same]
  · simp only [t, nack, chanAt_modChan_same, wrapAdd]
  · simp only [t, nack, chanAt_modChan_same]
    exact ⟨_, List.mem_append_right _ (List.mem_singleton.2 rfl), rfl, rfl, rfl⟩

/-- Requests of a line that the directory knows (R272, R273): the second part of O21. -/
theorem known_requests (s : State) (agent ch off : Nat) (d : DirEntry) (e : Sram) (ho : domainOpen s agent ch = true)
    (hc : isCaching agent = true) (hh : heldLine s agent ch off = none) (hr : ReachesHome s agent ch off e)
    (hd : dirFind (chanAt s ch) off = some d) (hu : ∀ x ∈ (chanAt s ch).dir, x.offset = off → x = d) :
    (d.st = .shared → lineOpen s agent ch off false = true →
      ∃ t f, exec (.gets agent ch off e) s = .next t ∧ dirFind (chanAt t ch) off = some f ∧ f.st = .shared ∧
        agent ∈ f.sharers ∧ (∀ a ∈ d.sharers, a ∈ f.sharers) ∧
        cacheFind (cacheOf t agent) ch off = some ⟨ch, off, .shared, homeData s ch off⟩ ∧ (RoomFor s agent off → t.hbm = s.hbm)) ∧
    (lineOpen s agent ch off true = true →
      (d.st = .shared → (∃ a ∈ sharerAgents s d, a ≠ agent) →
        ∃ t f, exec (.getm agent ch off false e) s = .next t ∧ dirFind (chanAt t ch) off = some f ∧ f.st = .invalidating ∧
          f.pendAgent = agent ∧ f.acks = (sharerAgents s d).filter (fun a => a != agent) ∧ t.cores = s.cores ∧ t.hbm = s.hbm) ∧
      (d.st = .owned →
        ∃ t f, exec (.getm agent ch off false e) s = .next t ∧ dirFind (chanAt t ch) off = some f ∧ f.st = .forwarding ∧
          f.pendAgent = agent ∧ f.pendKind = .getm ∧ f.acks = [d.owner] ∧ t.cores = s.cores ∧ t.hbm = s.hbm) ∧
      (d.st.transient = true →
        ∃ t, exec (.getm agent ch off false e) s = .next t ∧ (chanAt t ch).dir = (chanAt s ch).dir ∧
          (chanAt t ch).nacks = ((chanAt s ch).nacks + 1) % 2 ^ 64 ∧
          (∃ m ∈ (chanAt t ch).nacked, m.agent = agent ∧ m.offset = off ∧ m.kind = .getm) ∧ t.cores = s.cores ∧ t.hbm = s.hbm)) := by
  have he : e.slice = .clean := hr.2.2.1
  have hg : homeBad s ch off = false := homeBad_of_checkRead hr.2.2.2.1
  have hoff : d.offset = off := dirFind_offset hd
  refine ⟨fun hst hl => ?_, fun hl => ?_⟩
  · have hk : kindServed s agent ch off .gets = .gets := kindServed_stable fun x hx hxo => .inl (hu x hx hxo ▸ hst)
    have hserve : dirServe s agent ch off .gets [] = grantHome (unNack s agent ch off) agent ch off (addSharer d agent) .shared := by
      simp only [dirServe, hd, hst]
    obtain ⟨⟨k, hf⟩, -, hcf, hhb⟩ := granted_unNack (s := s) (agent := agent) (e := addSharer d agent) .shared hg hoff
    exact ⟨_, _, by rw [exec_gets ho hc hl hh, he, homeRequest_reaches hr hk, hserve], hf, hst, mem_insertNew_self ..,
      fun a ha => mem_insertNew_of_mem ha, hcf, hhb⟩
  · have hx : exec (.getm agent ch off false e) s = .next (dirServe s agent ch off .getm []) := by
      rw [exec_getm ho hc hl hh, he]; exact next_congr (homeRequest_reaches hr (kindServed_of_not_gets (by decide)))
    rw [hx]
    refine ⟨fun hst ⟨a, ha, hne⟩ => ?_, fun hst => ?_, fun hst => ?_⟩
    · have hothers : ((sharerAgents s d).filter (fun a => a != agent)).isEmpty = false := by
        rw [List.isEmpty_eq_false_iff_exists_mem]
        exact ⟨a, List.mem_filter.2 ⟨ha, by simpa using hne⟩⟩
      obtain ⟨⟨k, hf⟩, hcores, hhbm⟩ := pending_entry s (agent := agent) (ch := ch)
        (d := { d with st := .invalidating, acks := (sharerAgents s d).filter (fun a => a != agent), pendAgent := agent, pendKind := .getm,
                       pendData := [], pendStamp := reqStamp s agent ch off }) hoff
      exact ⟨_, _, by simp only [dirServe, hd, hst, hothers]; rfl, hf, rfl, rfl, rfl, hcores, hhbm⟩
    · obtain ⟨⟨k, hf⟩, hcores, hhbm⟩ := pending_entry s (agent := agent) (ch := ch)
        (d := { d with st := .forwarding, acks := [d.owner], pendAgent := agent, pendKind := .getm,
                       pendData := [], pendStamp := reqStamp s agent ch off }) hoff
      exact ⟨_, _, by simp only [dirServe, hd, hst], hf, rfl, rfl, rfl, rfl, hcores, hhbm⟩
    · refine ⟨nack s agent ch off .getm [], ?_, nack_counts s agent ch off .getm []⟩
      cases hs : d.st with
      | shared => simp [hs, DirState.transient] at hst
      | owned => simp [hs, DirState.transient] at hst
      | invalidating => simp [dirServe, hd, hs]
      | recallingShared => simp [dirServe, hd, hs]
      | forwarding => simp [dirServe, hd, hs]
      | recallingOwned => simp [dirServe, hd, hs]

/-- A request without credit waits at its agent (R231). -/
theorem homeRequest_waits {s : State} {agent ch off : Nat} (kind : ReqKind) (data : List Byte) (e : EccReport)
    (h : creditFor s ch agent (agentClass s agent) = none) : homeRequest s agent ch off kind data e = s := by
  have hm : mayIssue s agent (agentClass s agent) ch off = false := by simp [mayIssue, h]
  simp [homeRequest, sendRequest, hm, h]

/-- Settles O21, by the home's answer in each state of the line. -/
theorem lineRequests : Obligations.LineRequests := by
  refine ⟨fun s agent ch off data e ho hh hr hn _ hw => uncached_requests s agent ch off data e ho hh hr hn hw,
    fun s agent ch off d e ho hc hh hr hd hu => known_requests s agent ch off d e ho hc hh hr hd hu, fun s agent ch off whole data e h => ?_⟩
  have hwait := fun kind d r => homeRequest_waits (off := off) kind d r h
  refine ⟨next_congr ?_, next_congr ?_, next_congr ?_, next_congr ?_⟩
  · rw [hwait, ite_self]
  · rw [hwait, ite_self]
  · rw [hwait, ite_self]
  · rw [hwait, ite_self]

end Sys2Proof.Machine
end
section
/-! PROOFS. Answers of the caches, the end of transient states, and lines that leave the caches (R272, R273). -/

namespace Sys2Proof.Machine

theorem heldLine_caching {s : State} {agent : Nat} (h : isCaching agent = true) (ch off : Nat) :
    heldLine s agent ch off = cacheFind (cacheOf s agent) ch off := if_pos h

theorem domainOpen_closed {s : State} {agent ch : Nat} (h : domainOpen s agent ch = true) (hc : isCaching agent = true) :
    (!domainOpen s agent ch || !isCaching agent) = false := by rw [h, hc]; rfl

/-- What an agent's cache holds after it has answered a forwarded request (R272). -/
def keptLines (s : State) (agent ch off : Nat) (kind : ReqKind) (l : CacheLine) : List CacheLine :=
  cacheDrop (cacheOf s agent) ch off ++ (afterForward kind l).toList

/-- An owner's cache and its answer after a forwarded request (R272). -/
theorem forwarded_answers {s : State} {agent ch off : Nat} {e : DirEntry} {l : CacheLine} (ho : domainOpen s agent ch = true)
    (hc : isCaching agent = true) (hd : dirFind (chanAt s ch) off = some e) (ha : agent ∈ e.acks) (hst : e.st = .forwarding)
    (hl : heldLine s agent ch off = some l) :
    exec (.forwardedRequest agent ch off) s = .next (modChan (setCache s agent (keptLines s agent ch off e.pendKind l)) ch
      (fun c => dirPut c { e with acks := [], answer := some (ownerAnswer e.pendKind (some l)) })) := by
  have hx : exec (.forwardedRequest agent ch off) s = execForwardedRequest agent ch off s := rfl
  have hack : e.acks.contains agent = true := by simpa using ha
  rw [hx, execForwardedRequest, domainOpen_closed ho hc]
  simp only [hd, hst, hack, hl, keptLines, Option.bind_some]
  cases afterForward e.pendKind l with
  | some x => rfl
  | none => simp

/-- The line an owner keeps is found in its cache. -/
theorem keptLines_found {s : State} {agent ch off : Nat} {l : CacheLine} {kind : ReqKind} (hl : cacheFind (cacheOf s agent) ch off = some l) :
    cacheFind (keptLines s agent ch off kind l) ch off = afterForward kind l := by
  obtain ⟨-, hch, hoff⟩ := cacheFind_some hl
  have hrest : ∀ y ∈ cacheDrop (cacheOf s agent) ch off, ¬(y.channel = ch ∧ y.offset = off) := fun y hy => (mem_cacheDrop.1 hy).2
  have hgone : cacheFind (cacheDrop (cacheOf s agent) ch off ++ []) ch off = none := by rw [List.append_nil, cacheFind_cacheDrop]
  cases kind with
  | gets => exact cacheFind_append_new hrest hch hoff
  | ncr => exact cacheFind_append_new hrest hch hoff
  | getm => exact hgone
  | getw => exact hgone
  | ncw => exact hgone

/-- An entry put in a channel's directory is found there. -/
theorem dirFind_put (s : State) (ch : Nat) {e : DirEntry} {off : Nat} (h : e.offset = off) :
    dirFind (chanAt (modChan s ch (fun c => dirPut c e)) ch) off = some { e with used := (chanAt s ch).clock } := by
  subst h; exact dirFind_modChan_dirPut ..

/-- Settles O22, by the kind of the forwarded request and the state of the entry. -/
theorem cachesAnswerTheHome : Obligations.CachesAnswerTheHome := by
  intro s agent ch off e l ho hc hd ha hl
  have hoff := dirFind_offset hd
  have hfind : cacheFind (cacheOf s agent) ch off = some l := by rw [← heldLine_caching hc]; exact hl
  refine ⟨fun hst => ?_, fun hst => ?_⟩
  · refine ⟨_, _, forwarded_answers ho hc hd ha hst hl, hbm_setCache .., dirFind_put _ ch hoff, hst, rfl, ?_⟩
    have held : ∀ (c : List CacheLine) f, heldLine (modChan (setCache s agent c) ch f) agent ch off = cacheFind c ch off := fun c f => by
      rw [heldLine_caching hc, cacheOf_congr (caches_modChan ..), cacheOf_setCache_same]
    rw [held, keptLines_found hfind]
    refine ⟨fun hk => by rw [hk]; rfl, fun hk => by rw [hk]; rfl, fun hk => ?_⟩
    rcases hk with hk | hk | hk
    · rw [hk]; rfl
    · rw [hk]; rfl
    · rw [hk]; rfl
  · have hx : exec (.invalidation agent ch off) s = execInvalidation agent ch off s := rfl
    have hack : (!e.acks.contains agent || !e.st.transient || e.st == .forwarding) = false := by
      rcases hst with h | h | h
      all_goals simp [h, ha, DirState.transient]
    let s1 := setCache s agent (cacheDrop (cacheOf s agent) ch off)
    have held : heldLine s1 agent ch off = none := by rw [heldLine_caching hc, cacheOf_setCache_same, cacheFind_cacheDrop]
    by_cases hm : e.st = .recallingOwned ∧ l.mode = .modified
    · refine ⟨modChan s1 ch (fun c => dirPut c { e with pendData := l.data }), _, ?_, hbm_setCache .., ?_, dirFind_put _ ch hoff, rfl, rfl, fun _ _ => rfl⟩
      · rw [hx, execInvalidation]
        simp only [domainOpen_closed ho hc, hd, hack, hl, if_pos hm]; rfl
      · exact (congrArg (fun c => if isCaching agent = true then cacheFind c ch off else none) (cacheOf_congr (caches_modChan ..) agent)).trans held
    · refine ⟨s1, e, ?_, hbm_setCache .., held, by rw [chanAt_setCache]; exact hd, rfl, rfl, fun h1 h2 => absurd ⟨h1, h2⟩ hm⟩
      rw [hx, execInvalidation]
      simp only [domainOpen_closed ho hc, hd, hack, hl, if_neg hm]; rfl

/-- With no reserved request waiting, nothing is served when an entry comes free (R274). -/
theorem serveReserved_idle {s : State} {ch : Nat} (h : ∀ m ∈ (chanAt s ch).nacked, m.reserved = false) : serveReserved s ch = s := by
  have : (chanAt s ch).nacked.filter (fun n => n.reserved) = [] := by simpa [List.filter_eq_nil_iff] using h
  rw [serveReserved, this]; rfl

theorem ackFrom_last {s : State} {ch off agent : Nat} {e : DirEntry} (hd : dirFind (chanAt s ch) off = some e) (ha : agent ∈ e.acks)
    (hall : ∀ a ∈ e.acks, a = agent) :
    (e.st = .invalidating → ackFrom s ch off agent = endInvalidating s ch { e with acks := [] }) ∧
    (e.st = .recallingShared → ackFrom s ch off agent = endRecall s ch { e with acks := [] }) := by
  have hnil : e.acks.filter (fun a => a != agent) = [] := by
    rw [List.filter_eq_nil_iff]; intro a h; simp [hall a h]
  have hmem : e.acks.contains agent = true := by simpa using ha
  refine ⟨fun hst => ?_, fun hst => ?_⟩
  · simp only [ackFrom, hd, hmem, hst, hnil]; rfl
  · simp only [ackFrom, hd, hmem, hst, hnil]; rfl

theorem exec_invalidationAck {s : State} {agent ch off : Nat} (hs : serving s = true) (hf : (chanAt s ch).mode ≠ .fenced)
    (hh : heldLine s agent ch off = none) : exec (.invalidationAck agent ch off) s = .next (ackFrom s ch off agent) := by
  have hm : ((chanAt s ch).mode != .fenced) = true := by simpa using hf
  exact next_congr (if_pos (by rw [hs, hm, hh]; rfl))

/-- Settles O23: each transient state ends as its entry says, and no reserved request follows. -/
theorem homeEndsTransientStates : Obligations.HomeEndsTransientStates := by
  intro s agent ch off e hs hf hd hres
  have hoff := dirFind_offset hd
  refine ⟨fun hh ha hall hst hk hpc hpf hg => ?_, fun hh ha hall hst hp => ?_, fun hst how hans hk hpc hpf hg => ?_⟩
  · obtain ⟨⟨k, hf'⟩, hn, hcf, -⟩ := grantHome_grants (agent := e.pendAgent) (e := ownedBy off e.pendAgent) .modified hg rfl
    have hgone : requesterGone s { e with acks := [] } = false := by simp [requesterGone, hpc, hpf]
    have hend : endInvalidating s ch { e with acks := [] } = grantHome s e.pendAgent ch off (ownedBy off e.pendAgent) .modified := by
      simp only [endInvalidating, hgone]
      rw [hk, hoff]
      exact serveReserved_idle (by rw [show grantOwned s e.pendAgent ch off .getm = _ from rfl]; intro m hm; exact hres m (hn ch ▸ hm))
    refine ⟨_, _, by rw [exec_invalidationAck hs hf hh, (ackFrom_last hd ha hall).1 hst, hend], hf', rfl, rfl, ?_⟩
    rw [heldLine_caching hpc]; exact hcf
  · have hend : endRecall s ch { e with acks := [] } = modChan s ch (fun c => dirDel c off) := by
      simp only [endRecall, hp, hoff, List.isEmpty_nil, if_true]
      refine serveReserved_idle fun m hm => hres m ?_
      rwa [nacked_modChan] at hm
      exact fun _ => rfl
    refine ⟨modChan s ch (fun c => dirDel c off), by rw [exec_invalidationAck hs hf hh, (ackFrom_last hd ha hall).2 hst, hend], ?_, rfl⟩
    rw [chanAt_modChan_same, dirFind_dirDel_same]
  · let own := cacheFind (cacheOf s e.owner) ch off
    let sh := if own.isSome then insertNew [e.owner] e.pendAgent else [e.pendAgent]
    let s2 := modChan s ch (fun c => dirPut c { offset := off, st := .shared, sharers := sh })
    have hgone : requesterGone s { e with answer := none } = false := by simp [requesterGone, hpc, hpf]
    obtain ⟨⟨hdt, hn⟩, hcf, hhb⟩ := fillCache_fills s2 e.pendAgent ch off .shared (homeData s ch off)
    have hend : endForwarding s ch { e with answer := none } [] = fillCache s2 e.pendAgent ch off .shared (homeData s ch off) := by
      simp only [endForwarding, hgone]
      simp only [hk, hoff, hg, List.isEmpty_nil, Bool.and_false, Bool.or_self, Bool.false_eq_true, if_true, if_false]
      refine serveReserved_idle fun m hm => hres m ?_
      have hs2 : (chanAt s2 ch).nacked = (chanAt s ch).nacked := by simp only [s2]; rw [nacked_modChan]; exact fun _ => rfl
      exact hs2 ▸ hn ch ▸ hm
    have hmem : e.pendAgent ∈ sh := by
      simp only [sh]; split
      · exact mem_insertNew_self ..
      · exact List.mem_singleton.2 rfl
    have hx : exec (.ownerResponse agent ch off) s = .next (endForwarding s ch { e with answer := none } []) := by
      have hm : (!serving s || (chanAt s ch).mode == .fenced) = false := by simp [hs, hf]
      show execOwnerResponse agent ch off s = _
      rw [execOwnerResponse, hm]
      simp only [hd, hans, hst, how, and_self, if_true]; rfl
    refine ⟨_, _, by rw [hx, hend], hdt.trans (dirFind_put s ch rfl), rfl, hmem, ?_, fun hr => hhb hr⟩
    rw [heldLine_caching hpc]; exact hcf

/-- Settles O24: an owner's entry is freed with its line; a retried request is served as a first one. -/
theorem linesLeaveTheCaches : Obligations.LinesLeaveTheCaches := by
  intro s agent ch off l ho hch hw
  refine ⟨fun e hc hl hm hd hst how hlen => ?_, fun e hlt hl hm hd hst how => ?_, fun m hfind hres hk hc hd hroom hmay hread hnr => ?_⟩
  · have hfind : cacheFind (cacheOf s agent) ch off = some l := by rw [← heldLine_caching hc]; exact hl
    let s0 := setCache s agent (cacheDrop (cacheOf s agent) ch off)
    let t := modChan (homeWrite s0 (agentClass s agent) ch off l.data) ch (fun c => dirDel c off)
    have hput : putLine s agent ch off = t := by
      have hd0 : dirFind (chanAt s0 ch) off = some e := by rw [chanAt_setCache]; exact hd
      have hm : (l.mode != .modified) = false := by simp [hm]
      simp only [putLine, hfind, hm]
      rw [show setCache s agent (cacheDrop (cacheOf s agent) ch off) = s0 from rfl, hd0]
      simp only [hst, how]; rfl
    have hx : exec (.putm agent ch off) s = .next t := by
      rw [← hput]; exact next_congr (if_pos (by rw [ho, hc]; rfl))
    obtain ⟨hw1, hw2⟩ := homeWrite_writes (s := s0) (ch := ch) (agentClass s agent) hw hlen
    have hhbm : s0.hbm = s.hbm := hbm_setCache ..
    refine ⟨t, hx, ?_, ?_, fun hwf => hw1 (hhbm ▸ hwf), fun a ha => (hw2 a ha).trans (by rw [hhbm])⟩
    · rw [heldLine_caching hc, cacheOf_congr ((caches_modChan ..).trans (caches_homeWrite ..)), cacheOf_setCache_same, cacheFind_cacheDrop]
    · rw [chanAt_modChan_same, dirFind_dirDel_same]
  · have hc : isCaching agent = true := by simp [isCaching]; omega
    let s0 := setCache s agent (cacheDrop (cacheOf s agent) ch off)
    have hdrop : dropLine s agent ch off = modChan s0 ch (fun c => dirDel c off) := by
      have hd0 : dirFind (chanAt s0 ch) off = some e := by rw [chanAt_setCache]; exact hd
      rw [dropLine]
      rw [show setCache s agent (cacheDrop (cacheOf s agent) ch off) = s0 from rfl]
      simp only [hd0, hst, how]; rfl
    have hx : exec (.drop agent ch off) s = .next (dropLine s agent ch off) :=
      next_congr (if_pos (by rw [ho, hl, decide_eq_true hlt]; simp [hm]))
    refine ⟨modChan s0 ch (fun c => dirDel c off), by rw [hx, hdrop], ?_, ?_, hbm_setCache ..⟩
    · rw [heldLine_caching hc, cacheOf_congr (caches_modChan ..), cacheOf_setCache_same, cacheFind_cacheDrop]
    · rw [chanAt_modChan_same, dirFind_dirDel_same]
  · have hg : homeBad s ch off = false := homeBad_of_checkRead hread
    obtain ⟨⟨k, hf⟩, hn, hcf, -⟩ := uncached_grants (agent := agent) (data := m.data) (.inr rfl) hd hroom hg
    have hx : exec (.nackRetry agent ch off) s = .next (dirServe s agent ch off .getm m.data) := by
      show execNackRetry agent ch off s = _
      rw [execNackRetry, ho]
      simp only [hfind, hres, hk]
      exact next_congr (sendRequest_reaches hmay hread hnr (kindServed_of_not_gets (by decide)))
    exact ⟨_, _, hx, hf, rfl, rfl, by rw [heldLine_caching hc]; exact hcf, hn⟩

end Sys2Proof.Machine
end
section
/-! PROOFS. Ring pages, queue control, COMMIT and ABANDON (R130 to R135, R143, R145, R153 to R159). -/

namespace Sys2Proof.Machine

theorem field_eq (w : Word) (hi lo : Nat) : field w hi lo = w.toNat / 2 ^ lo % 2 ^ (hi + 1 - lo) := by
  rw [field, nbits, Nat.shiftRight_eq_div_pow]
theorem bit_eq (w : Word) (i : Nat) : bit w i = w.getLsbD i := rfl

/-- How far an index of a ring lies past another. -/
theorem ahead_eq {n h x : Nat} (hh : h < n) (hx : x < n) : ahead n h x = if h ≤ x then x - h else x + n - h := by
  unfold ahead
  split
  · rw [show x + n - h = x - h + n by omega, Nat.add_mod_right, Nat.mod_eq_of_lt (by omega)]
  · exact Nat.mod_eq_of_lt (by omega)

/-- R134's grounds, in ring order: the doorbell lies outside the ring, the ring is disabled, or its tail would move back. -/
theorem doorbellBad_iff {r : SqRing} {tail : Nat} (hh : r.head < ringSlots r.log2n) (ht : r.tail < ringSlots r.log2n) :
    doorbellBad r tail = true ↔ ringSlots r.log2n ≤ tail ∨ r.st = .disabled ∨
      ahead (ringSlots r.log2n) r.head tail < ahead (ringSlots r.log2n) r.head r.tail := by
  simp only [doorbellBad, Bool.or_eq_true, Bool.and_eq_true, decide_eq_true_eq, beq_iff_eq, ne_eq]
  generalize hn : ringSlots r.log2n = n at hh ht ⊢
  by_cases htail : n ≤ tail
  · simp [htail]
  · have htail' : tail < n := by omega
    rw [ahead_eq hh htail', ahead_eq hh ht]
    by_cases hst : r.st = .disabled
    · simp [hst]
    · simp only [htail, hst, false_or]
      split <;> split <;> omega

theorem mem_of_tfind {α : Type} {t : Tbl α} {n : Nat} {x : α} (h : tfind t n = some x) : (n, x) ∈ t := by
  induction t with
  | nil => cases h
  | cons e r ih =>
    obtain ⟨k, v⟩ := e
    rw [tfind] at h
    split at h
    · next hk => cases h; rw [hk]; exact List.mem_cons_self ..
    · exact List.mem_cons_of_mem _ (ih h)

/-- A counter that no WAIT waits on changes, and nothing else does (R158). -/
theorem changeSync_of_no_wait {s : State} (h : ∀ e ∈ s.cmds, e.2.op ≠ 0x03) (page n : Nat) (v : Word) :
    changeSync s page n v = setSync s page n v := by
  refine List.foldl_fixed' (fun e => ?_) s.cmds
  split
  · next c hc => exact if_neg fun hw => h _ (mem_of_tfind (x := c) hc) hw.1
  · rfl

/-- Settles O25: a write that owns its page acts on its own entry. -/
theorem ringPageWrites : Obligations.RingPageWrites := by
  intro s fn page ring value hown r q n tail d
  have htail : field value 15 0 = tail := by rw [field_eq]; simp [tail]
  refine ⟨fun hh ht => ⟨fun h1 h2 h3 => ?forward, fun h => ?bad⟩, ⟨?on, ?off, ?cq⟩, fun hb hst => ?resume, ?head, fun hr k hk hno => ?sync⟩
  case forward =>
    have hgood : ¬doorbellBad r tail = true := by
      rw [doorbellBad_iff hh ht]
      rintro (h | h | h)
      · exact absurd h1 (Nat.not_lt.mpr h)
      · exact h2 h
      · exact absurd h3 (Nat.not_le.mpr h)
    show execSqDoorbell fn page ring value s = _
    rw [execSqDoorbell, hown]
    exact next_congr (by rw [htail]; exact if_neg hgood)
  case bad =>
    show execSqDoorbell fn page ring value s = _
    rw [execSqDoorbell, hown]
    exact next_congr (by rw [htail]; exact if_pos ((doorbellBad_iff hh ht).mpr h))
  case on =>
    intro he hb h1 h2 h3 h4 h5
    have hsize : field value 4 0 = value.toNat % 32 := by rw [field_eq]; simp
    have hcq : field value 11 8 = value.toNat / 2 ^ 8 % 16 := field_eq ..
    show execSqEnable fn page ring value s = _
    have hq : (sqAt s page ring).enable = false := he
    have hok : (bit value 5 && sizeOk (value.toNat % 32) && (cqAt s page (value.toNat / 2 ^ 8 % 16)).enable &&
        sizeOk (cqAt s page (value.toNat / 2 ^ 8 % 16)).log2n) = true := by
      simp [-Nat.reducePow, sizeOk, bit_eq, hb, h1, h2, h3, h4, h5]
    simp only [execSqEnable, hown, hq, hsize, hcq, Bool.not_true, Bool.false_eq_true, if_false]
    rw [if_pos hok]
    rfl
  case off =>
    intro he hb
    have hq : (sqAt s page ring).enable = true := he
    show execSqEnable fn page ring value s = _
    simp only [execSqEnable, hown, hq, bit_eq, hb, Bool.not_true, Bool.false_eq_true, if_false, if_true]
    rfl
  case cq =>
    intro he hb h1 h2 h3
    have hq : (cqAt s page ring).enable = false := he
    have hsize : field value 4 0 = value.toNat % 32 := by rw [field_eq]; simp
    have hvec : field value 11 6 = value.toNat / 2 ^ 6 % 64 := field_eq ..
    have hok : (bit value 5 && sizeOk (value.toNat % 32)) = true := by simp [sizeOk, bit_eq, hb, h1, h2]
    show execCqEnable fn page ring value s = _
    simp only [execCqEnable, hown, hq, hsize, hvec, Bool.not_true, Bool.false_eq_true, if_false]
    rw [if_pos hok, if_pos h3]
    rfl
  case resume =>
    have hgo : (ownsPage s fn page ring && bit value 0 && (sqAt s page ring).st == .stopped) = true := by
      rw [hown, bit_eq, hb, show (sqAt s page ring).st = .stopped from hst]; rfl
    exact if_pos hgo
  case head =>
    show execCqHeadWrite fn page ring value s = _
    rw [execCqHeadWrite, hown, htail]
    rfl
  case sync =>
    subst hr
    have hgo : (ownsPage s fn page 0 && decide (k < 256)) = true := by rw [hown, decide_eq_true hk]; rfl
    exact (if_pos hgo).trans (next_congr (changeSync_of_no_wait hno ..))

/- The end of a command, whole (R153 to R155). -/

/-- The ports, the colonies and the fault collector may differ; the rest is as it was. -/
def OnlyBeside (s t : State) : Prop := ∃ p c f, t = { s with ports := p, cols := c, flt := f }

theorem onlyBeside_trans {s t u : State} (h : OnlyBeside s t) (h' : OnlyBeside t u) : OnlyBeside s u := by
  obtain ⟨p, c, f, rfl⟩ := h
  obtain ⟨p', c', f', rfl⟩ := h'
  exact ⟨p', c', f', rfl⟩

theorem onlyBeside_foldl {α : Type} (f : State → α → State) (hf : ∀ t x, OnlyBeside t (f t x)) (l : List α) (s : State) :
    OnlyBeside s (l.foldl f s) := by
  induction l generalizing s with
  | nil => exact ⟨_, _, _, rfl⟩
  | cons x l ih => exact onlyBeside_trans (hf s x) (ih (f s x))

theorem endReqs_eq (s : State) (id : Nat) : OnlyBeside s (endReqs s id) := by
  have hwait : OnlyBeside s ((s.ports.filter (fun e => e.2.want.any (fun w => w.2.2 == id))).foldl
      (fun t e => leaveWaiters t (664 + e.1)) s) := onlyBeside_foldl _ (fun _ _ => ⟨_, _, _, rfl⟩) _ _
  have hports (t : State) (p : Tbl Port) : OnlyBeside t { t with ports := p } := ⟨_, _, _, rfl⟩
  exact onlyBeside_trans hwait (onlyBeside_trans (hports _ _)
    (onlyBeside_foldl (fun t (r : FabReq) => inflightDec t r.colony r.instar) (fun _ _ => ⟨_, _, _, rfl⟩) _ _))

/-- What a command's end leaves of it (R154, R155). -/
def endedCmd (s : State) (c : Cmd) (status detail result : Nat) : Cmd :=
  { (if status = 0 then c else c.discard) with
    phase := .done, status := status, detail := detail, result := result, engines := [], fin := s.hub.finished }

/-- The end of a command touches its entry, the order of ends, and what `OnlyBeside` names. -/
def EndsAs (s t : State) (id : Nat) (k : Cmd) : Prop :=
  OnlyBeside { s with hub := { s.hub with finished := s.hub.finished + 1 }, cmds := tset s.cmds id k } t

theorem tset_tset {α : Type} (t : Tbl α) (n : Nat) (x y : α) : tset (tset t n x) n y = tset t n y := by
  induction t with
  | nil => simp [tset]
  | cons e r ih =>
    obtain ⟨k, v⟩ := e
    simp only [tset]
    split
    · simp [tset]
    · split
      · simp [tset]
      · next h1 h2 => simp [tset, h1, h2, ih]

theorem endOne_endsAs {s : State} {id : Nat} {c : Cmd} (status detail result : Nat) (hc : cmdAt s id = some c)
    (hfin : c.finished = false) (he : ∀ e, e < 16 → (engineAt s e).cmd ≠ some id) :
    EndsAs s (endOne s id status detail result) id (endedCmd s c status detail result) := by
  have hidle : freeEngines (endReqs s id) id = endReqs s id := freeEngines_of_idle (by simpa [engineAt] using he)
  simp only [endOne, hc, hfin, hidle, Bool.false_eq_true, if_false]
  rw [stampFin_eq (cmdAt_setCmd_same ..)]
  obtain ⟨f, hf⟩ := closeCmdRec_eq (setCmd (modHub (setCmd (endReqs s id) id _) _) id _) c
  rw [hf]
  obtain ⟨p, l, g, hr⟩ := endReqs_eq s id
  rw [hr]
  refine ⟨p, l, f, ?_⟩
  simp only [setCmd, modHub, tset_tset]
  rfl

theorem endCmd_endsAs {s : State} {id : Nat} {c : Cmd} (status detail result : Nat) (hc : cmdAt s id = some c)
    (hfin : c.finished = false) (ha : Alone s id c) :
    EndsAs s (endCmd s id status detail result) id (endedCmd s c status detail result) := by
  obtain ⟨hclaim, hengines⟩ := ha
  have hend : endCmd s id status detail result = endOne s id status detail result := by simp [endCmd, hc, hfin, hclaim]
  exact hend ▸ endOne_endsAs status detail result hc hfin hengines

theorem ends_of_endsAs {s t : State} {id status detail result : Nat} {c : Cmd} (h : EndsAs s t id (endedCmd s c status detail result)) :
    Ends s t id status detail result := by
  obtain ⟨p, l, f, rfl⟩ := h
  exact ⟨⟨_, tfind_tset_same .., rfl, rfl, rfl, rfl⟩, fun j hj => tfind_tset_other _ _ hj, rfl, rfl⟩

theorem endsAs_setCmd {s t : State} {id : Nat} {c k : Cmd} (h : EndsAs (setCmd s id c) t id k) : EndsAs s t id k := by
  obtain ⟨p, l, f, rfl⟩ := h
  exact ⟨p, l, f, by simp only [setCmd, tset_tset]⟩

/-- A command carried out directly completes (R153). -/
theorem completeOk_endsAs {s : State} {id : Nat} {c : Cmd} (result : Nat) (hc : cmdAt s id = some c)
    (hfin : c.finished = false) (ha : Alone s id c) :
    EndsAs s (completeOk s id result) id (endedCmd s { c with attempts := 1 } 0 0 result) := by
  rw [completeOk, modCmd_some _ hc]
  exact endsAs_setCmd (endCmd_endsAs 0 0 result (cmdAt_setCmd_same ..) hfin ha)

theorem completeOk_ends {s : State} {id : Nat} {c : Cmd} (result : Nat) (hc : cmdAt s id = some c)
    (hfin : c.finished = false) (ha : Alone s id c) : Ends s (completeOk s id result) id 0 0 result :=
  ends_of_endsAs (completeOk_endsAs result hc hfin ha)

/-- A command that is refused, or ended where it waits (R153). -/
theorem refuseCmd_ends {s : State} {id : Nat} {c : Cmd} (status detail result : Nat) (hc : cmdAt s id = some c)
    (hfin : c.finished = false) (ha : Alone s id c) : Ends s (refuseCmd s id status detail result) id status detail result := by
  rw [refuseCmd, modCmd_some _ hc]
  exact ends_of_endsAs (endsAs_setCmd (endCmd_endsAs status detail result (cmdAt_setCmd_same ..) hfin ha))

/- Queue control (R143, R157, R158). -/

theorem direct_body {s : State} {id op : Nat} {c : Cmd} (hc : cmdAt s id = some c) (hop : c.op = op) (hs : canStart s id c = true)
    (body : Cmd → State) : direct s id op body = body c := by
  simp only [direct, hc]
  exact if_pos ⟨hop, hs⟩

theorem directOrWaiting_body {s : State} {id op : Nat} {c : Cmd} (hc : cmdAt s id = some c) (hop : c.op = op)
    (hs : canStart s id c = true) (body : Cmd → State) : directOrWaiting s id op body = body c := by
  simp only [directOrWaiting, hc]
  exact if_pos ⟨hop, .inl hs⟩

theorem phase_of_canStart {s : State} {id : Nat} {c : Cmd} (h : canStart s id c = true) : c.phase = .fetched := by
  simp only [canStart, Bool.and_eq_true, beq_iff_eq] at h
  exact h.1.1.2
theorem serving_of_canStart {s : State} {id : Nat} {c : Cmd} (h : canStart s id c = true) : serving s = true := by
  simp only [canStart, Bool.and_eq_true] at h
  exact h.1.1.1
theorem unfinished_of_canStart {s : State} {id : Nat} {c : Cmd} (h : canStart s id c = true) : c.finished = false := by
  rw [Cmd.finished, phase_of_canStart h]

/-- A command of the queue itself waits, with one attempt (R153). -/
theorem waitIn_waits {s : State} {id : Nat} {c : Cmd} (hc : cmdAt s id = some c) (ha : c.attempted = false) :
    cmdAt (waitIn s id) id = some { c with phase := .started, attempts := max 1 c.attempts } := by
  rw [waitIn, modCmd_some _ hc, cmdAt_setCmd_same]
  simp [Cmd.asStarted, ha]

/-- Settles O27: each command's body where it may start. -/
theorem queueControlCommands : Obligations.QueueControlCommands := by
  intro s id c hc ha n x v met
  refine ⟨fun hs => ?_, fun hop hph hb hs => ?timeout⟩
  case timeout =>
    have hx : exec (.waitTimeout id) s = .next (refuseCmd s id 0x0C 0 0) := by
      show execWaitTimeout id s = _
      simp only [execWaitTimeout, hc]
      exact next_congr (if_pos ⟨hop, hph, hb, hs⟩)
    exact ⟨_, hx, refuseCmd_ends 0x0C 0 0 hc (by rw [Cmd.finished, hph]) ha⟩
  have hfin := unfinished_of_canStart hs
  have hmet : waitHolds c (syncAt s c.page (c.byte 16 2)) = met := rfl
  refine ⟨fun hop => ⟨_, next_congr (direct_body hc hop hs _), completeOk_ends 0 hc hfin ha⟩, fun hop hrec => ?done, fun hop hrec => ?waits,
    fun hop hb hrec hno => ?signal, fun hop hm => ?holds, fun hop hm => ?fails⟩
  case done =>
    have hnone : ¬s.cmds.any (fun e => inScope id c e && !e.2.recorded) = true := by
      simp only [List.any_eq_true, Bool.and_eq_true, Bool.not_eq_true']
      rintro ⟨e, he, hin, hno⟩
      exact absurd (hrec e he hin) (by rw [hno]; decide)
    exact ⟨_, next_congr ((directOrWaiting_body hc hop hs _).trans (if_neg hnone)), completeOk_ends 0 hc hfin ha⟩
  case waits =>
    have hsome : s.cmds.any (fun e => inScope id c e && !e.2.recorded) = true := by
      obtain ⟨e, he, hin, hno⟩ := hrec
      exact List.any_eq_true.mpr ⟨e, he, by rw [hin, hno]; rfl⟩
    exact ⟨_, next_congr ((directOrWaiting_body hc hop hs _).trans (if_pos hsome)),
      waitIn_waits hc (by rw [Cmd.attempted, hop]; rfl)⟩
  case signal =>
    intro w
    have hnone : ¬s.cmds.any (fun e => earlierOnRing id c e && !e.2.recorded) = true := by
      simp only [List.any_eq_true, Bool.and_eq_true, Bool.not_eq_true']
      rintro ⟨e, he, hin, hno⟩
      exact absurd (hrec e he hin) (by rw [hno]; decide)
    have hw : signalled s c = w := by
      unfold signalled
      simp only [w]
      split
      · rfl
      · simp [v, x, n, BitVec.ofNat_add]
    have hbody := direct_body hc hop hs (fun c =>
      if s.cmds.any (fun e => earlierOnRing id c e && !e.2.recorded) then s
      else if c.byte 32 8 ≠ 0 ∧ !c.isHost 32 then
        reserved s id c (fun t =>
          match vaRead t c.colony (lineBase (c.addr 32)) 64 .write with
          | .error e => vaFault t id e
          | .ok line => modCmd (shadowWrite (noteRead t c (lineBase (c.addr 32)) 64 .write) id (lineBase (c.addr 32)) line) id (fun x => { x with phase := .ended }))
      else
        let v := signalled s c
        let s1 := changeSync s c.page (c.byte 16 2) v
        let s2 := if c.byte 32 8 = 0 then s1 else hostOut s1 c.page c.colony (c.addr 32) (leBytes 8 v.toNat)
        completeOk s2 id v.toNat)
    refine ⟨completeOk (setSync s c.page n w) id w.toNat, next_congr (hbody.trans ?_), ?_, ?_⟩
    · rw [if_neg hnone, if_neg fun h => h.1 hb]
      dsimp only
      rw [if_pos hb, hw, changeSync_of_no_wait hno]
    · obtain ⟨p, l, f, he⟩ := completeOk_endsAs (s := setSync s c.page n w) w.toNat hc hfin ha
      rw [he]
      exact syncAt_setSync_same s c.page n w
    · exact completeOk_ends (s := setSync s c.page n w) w.toNat hc hfin ha
  case holds =>
    exact ⟨_, next_congr ((direct_body hc hop hs _).trans (if_pos (hmet.trans hm))), completeOk_ends v.toNat hc hfin ha⟩
  case fails =>
    exact ⟨_, next_congr ((direct_body hc hop hs _).trans (if_neg (by rw [hmet, hm]; decide))),
      waitIn_waits hc (by rw [Cmd.attempted, hop]; rfl)⟩

end Sys2Proof.Machine
end
section
/-! PROOFS. COMMIT and ABANDON, and completion records (R132, R145, R153, R154, R159, R160). -/

namespace Sys2Proof.Machine

/-- A command takes its target (R159). -/
theorem claimTarget_claims {s : State} {id h : Nat} {c x : Cmd} (hc : cmdAt s id = some c) (hx : cmdAt s h = some x) (hne : h ≠ id)
    (ha : c.attempted = false) :
    claimTarget s id h = setCmd (setCmd s id { c with phase := .started, attempts := max 1 c.attempts, target := some h }) h
      { x with claimedBy := some id } := by
  have hw : waitIn s id = setCmd s id { c with phase := .started, attempts := max 1 c.attempts } := by
    rw [waitIn, modCmd_some _ hc]
    simp [Cmd.asStarted, ha]
  have h1 : modCmd (waitIn s id) id (fun c => { c with target := some h }) =
      setCmd s id { c with phase := .started, attempts := max 1 c.attempts, target := some h } := by
    rw [hw, modCmd_some _ (cmdAt_setCmd_same ..)]
    exact congrArg (fun l => ({ s with cmds := l } : State)) (tset_tset ..)
  rw [claimTarget, h1, modCmd_some _ ((cmdAt_setCmd_other s _ hne).trans hx)]

/-- What an ABANDON leaves of a held LAUNCH (R159): its HELD record stands, or is still to be written. -/
def abandoned (x : Cmd) : Cmd := { x.discard with phase := if x.recorded then .written else .done }

theorem abandoned_settled {x : Cmd} (h : x.status = 0) : (abandoned x).unsettled = false := by
  simp [abandoned, Cmd.unsettled, Cmd.discard, h]

theorem discardHeld_cmds {s : State} {h : Nat} {x : Cmd} (hx : cmdAt s h = some x) (hst : x.status = 0) :
    discardHeld s h = { s with cmds :=
      if x.recorded = true ∧ (abandoned x).returning = [] then tdel (tset s.cmds h (abandoned x)) h else tset s.cmds h (abandoned x) } := by
  have hgo : ((abandoned x).phase == .written && (abandoned x).returning.isEmpty && !(abandoned x).unsettled) = true ↔
      x.recorded = true ∧ (abandoned x).returning = [] := by
    rw [abandoned_settled hst, abandoned]
    cases x.recorded <;> simp
  have hleave : discardHeld s h = leaveTracker (setCmd s h (abandoned x)) h := by rw [discardHeld, modCmd_some _ hx]; rfl
  rw [hleave, leaveTracker, cmdAt_setCmd_same]
  by_cases hr : x.recorded = true ∧ (abandoned x).returning = []
  · rw [if_pos hr]; exact if_pos (hgo.mpr hr)
  · rw [if_neg hr]; exact if_neg (mt hgo.mp hr)

/-- Settles O28: the target chosen decides, by its row. -/
theorem commitAndAbandon : Obligations.CommitAndAbandon := by
  intro s id h c x hc ha hs
  have hfin := unfinished_of_canStart hs
  have hcommit (hop : c.op = 0x11) := directOrWaiting_body (s := s) hc hop hs
  have habandon (hop : c.op = 0x12) := directOrWaiting_body (s := s) hc hop hs
  refine ⟨fun hop ht hne hx hph hcol => ?commit, fun hop ht hne hx hph hcol hst => ?abandon, fun row hrow ht hcol => ?other,
    fun hop ht => ?nocommit, fun hop ht => ?noabandon⟩
  case commit =>
    have hrow : commitRow x = .acts := by rw [commitRow, hph]
    have hexec : exec (.commit id) s = .next (modCmd (claimTarget s id h) h (fun y => { y with phase := .ended })) := by
      show execCommit id s = _
      simp only [execCommit, hcommit hop, ht, hcol, hrow, bne_self_eq_false, Bool.false_eq_true, if_false]
    rw [claimTarget_claims hc hx hne (by rw [Cmd.attempted, hop]; rfl), modCmd_some _ (cmdAt_setCmd_same ..)] at hexec
    refine ⟨_, { c with phase := .started, attempts := max 1 c.attempts, target := some h }, { x with phase := .ended, claimedBy := some id },
      hexec, ?_, rfl, rfl, cmdAt_setCmd_same .., rfl, rfl⟩
    rw [cmdAt_setCmd_other _ _ (Ne.symm hne), cmdAt_setCmd_other _ _ (Ne.symm hne), cmdAt_setCmd_same]
  case abandon =>
    intro given
    have hrow : abandonRow x = .acts := by rw [abandonRow, hph]
    have hexec : exec (.abandon id) s = .next (completeOk (discardHeld s h) id 0) := by
      show execAbandon id s = _
      simp only [execAbandon, habandon hop, ht, hcol, hrow, hph, bne_self_eq_false, Bool.false_eq_true, if_false, if_true]
    have hd := discardHeld_cmds hx hst
    have hgiven : (abandoned x).returning = given := rfl
    rw [hgiven] at hd
    have hc' : cmdAt (discardHeld s h) id = some c := by
      rw [hd]
      show tfind (ite _ _ _) id = _
      split
      · rw [tfind_tdel_other _ (Ne.symm hne), tfind_tset_other _ _ (Ne.symm hne)]; exact hc
      · rw [tfind_tset_other _ _ (Ne.symm hne)]; exact hc
    have ha' : Alone (discardHeld s h) id c := ⟨ha.1, fun e he => by rw [hd]; exact ha.2 e he⟩
    obtain ⟨⟨k, hk, hdone, hstatus, _⟩, hothers, _, hhbm⟩ := completeOk_ends 0 hc' hfin ha'
    refine ⟨_, k, hexec, hk, hdone, hstatus, hhbm.trans (by rw [hd]), fun hrec hg => ?_, fun hrec => ?_⟩
    · rw [hothers h hne, hd, if_pos ⟨hrec, hg⟩]
      exact tfind_tdel_same ..
    · refine ⟨abandoned x, ?_, rfl, rfl, rfl, rfl⟩
      rw [hothers h hne, hd, if_neg fun hr => hrec.elim (fun h0 => by simp [h0] at hr) (fun h0 => h0 hr.2)]
      exact tfind_tset_same ..
  case other =>
    have hne : (x.colony != c.colony) = true := bne_iff_ne.mpr hcol
    refine ⟨_, fun hop => ?_, fun hop => ?_, refuseCmd_ends 0x0A 3 0 hc hfin ha⟩
    · obtain ⟨rfl, _⟩ | ⟨_, hop'⟩ := hrow
      · show execCommit id s = _
        simp only [execCommit, hcommit hop, ht, hne, if_true]
      · rw [hop] at hop'; cases hop'
    · obtain ⟨_, hop'⟩ | ⟨rfl, _⟩ := hrow
      · rw [hop] at hop'; cases hop'
      · show execAbandon id s = _
        simp only [execAbandon, habandon hop, ht, hne, if_true]
  case nocommit =>
    refine ⟨_, ?_, refuseCmd_ends 0x0B 0 0 hc hfin ha⟩
    show execCommit id s = _
    simp only [execCommit, hcommit hop, ht]
  case noabandon =>
    refine ⟨_, ?_, refuseCmd_ends 0x0B 0 0 hc hfin ha⟩
    show execAbandon id s = _
    simp only [execAbandon, habandon hop, ht]

/- Completion records (R132, R153, R154, R160). -/

theorem acctAt_modAcct_same (s : State) (c : Nat) (f : Acct → Acct) : acctAt (modAcct s c f) c = f (acctAt s c) := by
  simp [acctAt, modAcct, modHub]

theorem records_hostOut (s : State) (page colony addr : Nat) (data : List Byte) :
    (acctAt (hostOut s page colony addr data) colony).records = (acctAt s colony).records := by
  rw [hostOut, acctAt_modAcct_same]
  rfl

/-- An interrupt touches the MSI-X state and what leaves the device (R481). -/
theorem raiseMsix_eq (s : State) (fn : Fn) (v : Nat) :
    ∃ l p, raiseMsix s fn v = { s with out := s.out ++ l, pcie := p } := by
  have hpend (p : Pcie) : ∃ l q, ({ s with pcie := p } : State) = { s with out := s.out ++ l, pcie := q } :=
    ⟨[], p, by rw [List.append_nil]⟩
  have hcases (silent now : Bool) (m : MsiX) :
      ∃ l p, (if silent then s else if now then emit s (.msix fn v) else setMsix s fn m) = { s with out := s.out ++ l, pcie := p } := by
    cases silent with
    | true => exact hpend _
    | false =>
      cases now with
      | true => exact ⟨[_], _, rfl⟩
      | false => exact hpend _
  exact hcases _ _ _

/-- The command after its record (R159, R160). -/
theorem afterRecord_writes {s : State} {id : Nat} {c : Cmd} (hc : cmdAt s id = some c) :
    ∃ l, afterRecord s id = { s with cmds := l } ∧ (∀ j, j ≠ id → tfind l j = cmdAt s j) ∧
      (c.phase = .done → c.unsettled = false → c.returning = [] → tfind l id = none) ∧
      (c.phase = .done → c.unsettled = true → ∃ k, tfind l id = some k ∧ k.recorded = true ∧ k.status = c.status) := by
  simp only [afterRecord, hc]
  split
  · next hph => exact ⟨_, rfl, fun j hj => tfind_tset_other _ _ hj, fun h => absurd h hph, fun h => absurd h hph⟩
  · split
    · next hu =>
      exact ⟨_, rfl, fun j hj => tfind_tset_other _ _ hj, fun _ h => absurd hu (by rw [h]; decide),
        fun _ _ => ⟨_, tfind_tset_same .., rfl, rfl⟩⟩
    · next hu =>
      split
      · exact ⟨_, rfl, fun j hj => tfind_tdel_other _ hj, fun _ _ _ => tfind_tdel_same .., fun _ h => absurd h hu⟩
      · next hr =>
        exact ⟨_, rfl, fun j hj => tfind_tset_other _ _ hj, fun _ _ h => absurd (List.isEmpty_iff.mpr h) hr, fun _ h => absurd h hu⟩

/-- The record's bytes on their way to the host, with the ring's tail and the counters moved on (R132, R153, R191). -/
def recordSent (s : State) (c : Cmd) : State :=
  let sq := sqAt s c.page c.ring
  let q := cqAt s c.page sq.cq
  let s1 := hostOut s c.page c.colony (q.base * 4096 + 32 * q.tail) (recordBytes c sq.head q.phase (tget 1 s.hub.cseq c.page))
  let s2 := setCq s1 c.page sq.cq { q with
    tail := (q.tail + 1) % ringSlots q.log2n, phase := if q.tail + 1 = ringSlots q.log2n then !q.phase else q.phase }
  let s3 := modHub s2 (fun h => { h with cseq := tset h.cseq c.page (wrapAdd 32 (tget 1 s.hub.cseq c.page) 1) })
  modAcct s3 c.colony (fun a => { a with records := wrapAdd 64 a.records 1 })

/-- The interrupt and the stop of the ring change what leaves the device, the MSI-X state and the rings besides. -/
theorem sendRecord_sends (s : State) (id : Nat) (c : Cmd) :
    ∃ rest p sqs, sendRecord s id c = afterRecord { recordSent s c with
      out := (recordSent s c).out ++ rest, pcie := p, hub := { (recordSent s c).hub with sqs := sqs } } id := by
  have hmsix (b : Bool) (fn : Fn) (v : Nat) : ∃ l p, (if b then raiseMsix (recordSent s c) fn v else recordSent s c) =
      { recordSent s c with out := (recordSent s c).out ++ l, pcie := p } := by
    cases b with
    | true => exact raiseMsix_eq ..
    | false => exact ⟨[], _, by rw [List.append_nil]; rfl⟩
  have hstop (b : Bool) (t : State) (r : SqRing) : ∃ sqs, (if b then setSq t c.page c.ring r else t) =
      { t with hub := { t.hub with sqs := sqs } } := by
    cases b with
    | true => exact ⟨_, rfl⟩
    | false => exact ⟨_, rfl⟩
  let sq := sqAt s c.page c.ring
  let q := cqAt s c.page sq.cq
  obtain ⟨l, p, hm⟩ := hmsix (q.irqAll || c.irq || c.status != 0) (pageOwner s c.page) q.vec
  obtain ⟨sqs, hs⟩ := hstop (sq.errStop && c.status != 0 && sq.st == .running)
    { recordSent s c with out := (recordSent s c).out ++ l, pcie := p } { sq with st := .stopped }
  refine ⟨l, p, sqs, ?_⟩
  rw [← hm] at hs
  show afterRecord _ id = _
  exact congrArg (afterRecord · id) (hs.trans (by rw [hm]))

/-- Settles O29: the record goes to the host, then the command leaves its entry. -/
theorem completionRecordsAreWritten : Obligations.CompletionRecordsAreWritten := by
  intro s id c hc hs hdue sq q n hbehind hen hroom
  have hexec : exec (.completionRecordWrite id) s = .next (sendRecord s id c) := by
    show execCompletionRecordWrite id s = _
    simp only [execCompletionRecordWrite, hc]
    have hgo : (!serving s || !c.due || recordBehind s id c (sqAt s c.page c.ring).cq) = false := by rw [hs, hdue, hbehind]; rfl
    rw [hgo, show (cqAt s c.page (sqAt s c.page c.ring).cq).enable = true from hen]
    exact if_neg hroom
  obtain ⟨rest, p, sqs, hsend⟩ := sendRecord_sends s id c
  obtain ⟨l, hafter, hothers, hleaves, hstays⟩ := afterRecord_writes (s := { recordSent s c with
    out := (recordSent s c).out ++ rest, pcie := p, hub := { (recordSent s c).hub with sqs := sqs } }) (id := id) hc
  have hcount : (acctAt (recordSent s c) c.colony).records = ((acctAt s c.colony).records + 1) % 2 ^ 64 :=
    (congrArg Acct.records (acctAt_modAcct_same ..)).trans
      (congrArg (fun k => (k + 1) % 2 ^ 64) (records_hostOut s c.page c.colony _ _))
  refine ⟨_, rest, hexec, ?_, ?_, ?_, ?_, ?_, ?_, ?_, ?_, ?_⟩
  all_goals rw [hsend, hafter]
  · exact List.append_assoc ..
  · exact tget_tset_same ..
  · exact tget_tset_same ..
  · exact hcount
  · exact hleaves
  · exact hstays
  · exact hothers
  · rfl
  · rfl

end Sys2Proof.Machine
end
section
/-! PROOFS. PACKET_FETCH (R134, R137, R138, R141, R157, R159, R160, R191). -/

namespace Sys2Proof.Machine

/-- A search that passes over an entry's number sees the same in the table with that entry set. -/
theorem find?_tset {α : Type} {p : Nat × α → Bool} {n : Nat} (hp : ∀ y, p (n, y) = false) (t : Tbl α) (x : α) :
    (tset t n x).find? p = t.find? p := by
  induction t with
  | nil => simp [tset, hp]
  | cons e r ih =>
    obtain ⟨k, v⟩ := e
    rw [tset]
    split
    · rw [List.find?_cons, hp]
    · split
      · next hk => subst hk; rw [List.find?_cons, List.find?_cons, hp, hp]
      · rw [List.find?_cons, List.find?_cons, ih]

/-- A fetch moves the order of fetching on (R137). -/
theorem noteFetch_eq (s : State) (page ring : Nat) : ∃ o v p r,
    noteFetch s page ring = modHub s (fun h => { h with urgOrder := o, visit := v, lastPage := p, lastRing := r }) := by
  unfold noteFetch
  split
  · split
    · exact ⟨_, _, _, _, rfl⟩
    · exact ⟨s.hub.urgOrder, s.hub.visit, s.hub.lastPage, s.hub.lastRing, rfl⟩
  · split
    · exact ⟨_, _, _, _, rfl⟩
    · exact ⟨_, _, _, _, rfl⟩

/-- The command that a packet without a descriptor becomes. -/
def fetchedCmd (s : State) (page ring : Nat) (raw : List Byte) : Cmd :=
  { page := page, ring := ring, pkt := raw, colony := actsFor page raw, urgent := (sqAt s page ring).urgent }

theorem newCmd_eq {s : State} {page ring : Nat} {raw : List Byte} (ind : Option (List Byte)) (h : indLen (fetchedCmd s page ring raw) = 0) :
    newCmd s page ring raw ind = (fetchedCmd s page ring raw, true) := if_pos h

/-- The state in which a fetched packet is looked at: the ring's head has moved on and the 64 bytes are counted. -/
def Taken (s : State) (page ring colony : Nat) (t : State) : Prop :=
  (∃ h, t = { s with hub := h }) ∧
  sqAt t page ring = { sqAt s page ring with head := ((sqAt s page ring).head + 1) % 2 ^ (sqAt s page ring).log2n } ∧
  (acctAt t colony).hostIn = ((acctAt s colony).hostIn + 64) % 2 ^ 64 ∧ ∀ e, engineAt t e = engineAt s e

theorem packet_taken {s : State} {page ring : Nat} {raw : List Byte} (ind : Option (List Byte)) (h : indLen (fetchedCmd s page ring raw) = 0) :
    let r := sqAt s page ring
    let s0 := noteFetch (setSq s page ring { r with head := (r.head + 1) % ringSlots r.log2n }) page ring
    let t := countFetch s0 (newCmd s0 page ring raw ind).1
    Taken s page ring (actsFor page raw) t ∧ newCmd t page ring raw ind = (fetchedCmd s page ring raw, true) := by
  intro r s0 t
  obtain ⟨o, v, p, l, h0⟩ := noteFetch_eq (setSq s page ring { r with head := (r.head + 1) % ringSlots r.log2n }) page ring
  have hs0 : s0 = _ := h0
  have hsq : sqAt s0 page ring = { r with head := (r.head + 1) % ringSlots r.log2n } := by rw [hs0]; exact sqAt_setSq_same ..
  have hcmd (u : State) (hu : sqAt u page ring = sqAt s0 page ring) : newCmd u page ring raw ind = (fetchedCmd s page ring raw, true) := by
    have hf : fetchedCmd u page ring raw = fetchedCmd s page ring raw := by rw [fetchedCmd, hu, hsq]; rfl
    rw [newCmd_eq ind (hf ▸ h), hf]
  have ht : t = modAcct s0 (actsFor page raw) (fun a => { a with hostIn := wrapAdd 64 a.hostIn 64 }) := by
    show countFetch s0 (newCmd s0 page ring raw ind).1 = _
    rw [hcmd s0 rfl, countFetch, h, ite_self, if_pos (.inl rfl)]
    rfl
  refine ⟨⟨?_, ?_, ?_, fun e => ?_⟩, hcmd t (by rw [ht]; rfl)⟩
  · rw [ht, hs0]; exact ⟨_, rfl⟩
  · rw [ht]; exact hsq
  · rw [ht, acctAt_modAcct_same, hs0]; rfl
  · rw [ht, hs0]; rfl

/-- A COMMIT, ABANDON or SAMPLE finds the same target once it stands in the tracker itself. -/
theorem targetAtFetch_congr {s t : State} {id : Nat} {x : Cmd} (h : t.cmds = tset s.cmds id x) (c : Cmd) :
    targetAtFetch t id c = targetAtFetch s id c := by
  have htaken : takenElsewhere t id = takenElsewhere s id := by
    funext y
    rw [takenElsewhere, takenElsewhere]
    refine congrArg (Option.any · y.takenBy) (funext fun k => ?_)
    by_cases hk : k = id
    · simp [hk]
    · rw [cmdAt, h, tfind_tset_other _ _ hk]; rfl
  have hrow (row : Cmd → Eligible) : targetFor t id c row = targetFor s id c row := by
    rw [targetFor, targetFor, h, htaken, find?_tset (fun y => by simp)]
  have hsample : sampleFor t id c = sampleFor s id c := by
    rw [sampleFor, sampleFor, h, find?_tset (fun y => by simp)]
  rw [targetAtFetch, targetAtFetch, hrow, hrow, hsample]

theorem targetAtFetch_ne {s : State} {id h : Nat} {c x : Cmd} (ht : targetAtFetch s id c = some (h, x)) : h ≠ id := by
  have hfor (row : Cmd → Eligible) (hr : targetFor s id c row = some (h, x)) : h ≠ id := by
    have hp := List.find?_some hr
    simp only [Bool.and_eq_true, bne_iff_ne] at hp
    exact hp.1.1.1.1.1.1.1
  have hsample (hr : sampleFor s id c = some (h, x)) : h ≠ id := by
    have hp := List.find?_some hr
    simp only [Bool.and_eq_true, bne_iff_ne] at hp
    exact hp.1.1.1.1
  unfold targetAtFetch at ht
  split at ht
  · exact hfor _ ht
  · split at ht
    · exact hfor _ ht
    · split at ht
      · exact hsample ht
      · cases ht

/-- The command with the output regions known at its fetch (R144). -/
def fetchedWhole (s : State) (page ring : Nat) (raw : List Byte) : Cmd :=
  { fetchedCmd s page ring raw with regions := fetchRegions (fetchedCmd s page ring raw) }

/-- A command takes its place in the tracker (R157, R160). -/
def entered (t : State) (id : Nat) (x : Cmd) : State := { t with cmds := tset t.cmds id x, nextCmd := id + 1 }

theorem cmdAt_entered_same (t : State) (id : Nat) (x : Cmd) : cmdAt (entered t id x) id = some x := tfind_tset_same ..
theorem cmdAt_entered_other (t : State) {id j : Nat} (x : Cmd) (h : j ≠ id) : cmdAt (entered t id x) j = cmdAt t j := tfind_tset_other _ _ h

/-- Only a COPY under a live session is sealed (R404). -/
theorem sealAtFetch_unsealed {s : State} {id : Nat} {c : Cmd} (hc : cmdAt s id = some c) (h : (colAt s c.colony).sealSess = none) :
    sealAtFetch s id = s := by
  simp only [sealAtFetch, hc, h]

/-- Taking a target marks that command alone, and none where there is none to take (R159). -/
theorem takeAtFetch_takes (u : State) (id : Nat) (c : Cmd) :
    (∃ l, takeAtFetch u id c = { u with cmds := l }) ∧ cmdAt (takeAtFetch u id c) id = cmdAt u id ∧
    (targetAtFetch u id c = none ∨ c.op = 0x71 → takeAtFetch u id c = u) ∧
    ∀ h x, c.op ≠ 0x71 → targetAtFetch u id c = some (h, x) → cmdAt u h = some x →
      cmdAt (takeAtFetch u id c) h = some { x with takenBy := some id } ∧ ∀ j, j ≠ h → cmdAt (takeAtFetch u id c) j = cmdAt u j := by
  unfold takeAtFetch
  split
  · next hop => exact ⟨⟨_, rfl⟩, rfl, fun _ => rfl, fun _ _ h => absurd hop h⟩
  · next hop =>
    split
    · next k y hk =>
      refine ⟨?_, ?_, fun h => (h.elim (fun h => by rw [hk] at h; cases h) (absurd · hop)), fun h x _ ht hx => ?_⟩
      · unfold modCmd
        split
        · exact ⟨_, rfl⟩
        · exact ⟨_, rfl⟩
      · unfold modCmd
        split
        · exact cmdAt_setCmd_other _ _ (Ne.symm (targetAtFetch_ne hk))
        · rfl
      · obtain ⟨rfl, rfl⟩ : k = h ∧ y = x := by rw [hk] at ht; cases ht; exact ⟨rfl, rfl⟩
        rw [modCmd_some _ hx]
        exact ⟨cmdAt_setCmd_same .., fun j hj => cmdAt_setCmd_other _ _ hj⟩
    · next hk => exact ⟨⟨_, rfl⟩, rfl, fun _ => rfl, fun _ _ _ h => by rw [hk] at h; cases h⟩

/-- A fetchable packet whose turn it is, whole and without a descriptor, is looked at in the state that took it. -/
theorem packetFetch_takes {s : State} {page ring : Nat} {raw : List Byte} (ind : Option (List Byte)) (hs : serving s = true) (hp : page ≤ 64)
    (hr : ring < 16) (hrem : s.boot.removed = false) (hturn : fetchTurn s page ring = true) (hl : raw.length = 64)
    (hf : fetchable s page ring (sqAt s page ring) raw = true) (hi : indLen (fetchedCmd s page ring raw) = 0) :
    ∃ t, Taken s page ring (actsFor page raw) t ∧
      let c := fetchedCmd s page ring raw
      (opcodes.contains c.op = false →
        exec (.packetFetch page ring (some raw) ind) s = .next (endCmd (entered t s.nextCmd { c with dying := true }) s.nextCmd 0x0A 0 0)) ∧
      (validate c true = none → c.defer = false → (colAt s c.colony).sealSess = none →
        wrongColony (fetchedWhole s page ring raw) (targetAtFetch s s.nextCmd (fetchedWhole s page ring raw)) = false →
        exec (.packetFetch page ring (some raw) ind) s =
          .next (takeAtFetch (entered t s.nextCmd (fetchedWhole s page ring raw)) s.nextCmd (fetchedWhole s page ring raw))) := by
  obtain ⟨htaken, hcmd⟩ := packet_taken ind hi
  refine ⟨_, htaken, ?_⟩
  obtain ⟨⟨h, ht⟩, hsq, hin, heng⟩ := htaken
  intro c
  have hx : exec (.packetFetch page ring (some raw) ind) s = execPacketFetch page ring (some raw) ind s := rfl
  have hgo : (!serving s || decide (64 < page) || decide (16 ≤ ring) || s.boot.removed) = false := by
    simp [hs, hrem, Nat.not_lt.mpr hp, Nat.not_le.mpr hr]
  have hfetch : (!fetchable s page ring (sqAt s page ring) raw || !fetchTurn s page ring) = false := by rw [hf, hturn]; rfl
  rw [hx]
  simp only [execPacketFetch, hgo, padTo_of_length hl, hfetch, hcmd, Bool.false_eq_true, if_false]
  generalize countFetch _ _ = t at *
  have hid : t.nextCmd = s.nextCmd := by rw [ht]
  have hcol (n : Nat) : colAt t n = colAt s n := by rw [ht]; rfl
  have htgt (x : Cmd) : targetAtFetch t s.nextCmd x = targetAtFetch s s.nextCmd x := by rw [ht]; rfl
  refine ⟨fun hop => ?_, fun hv hd hseal hw => ?_⟩
  · have hv : validate c true = some (0x0A, 0) := by rw [validate, hop]; rfl
    rw [hv]
    dsimp only
    rw [hid]
    exact next_congr (if_neg (show ¬(0x0A : Nat) = 0x04 by decide))
  · have hunsealed := sealAtFetch_unsealed (cmdAt_entered_same t s.nextCmd (fetchedWhole s page ring raw)) ((congrArg _ (hcol _)).trans hseal)
    have hd' : Cmd.defer (fetchedWhole s page ring raw) = false := hd
    rw [hv]
    dsimp only
    rw [hid, htgt]
    refine (if_neg (Bool.eq_false_iff.mp hw)).trans ((if_neg ?_).trans ?_)
    · simp only [show Cmd.defer { fetchedCmd s page ring raw with regions := fetchRegions (fetchedCmd s page ring raw) } = false from hd, Bool.false_and, Bool.false_eq_true, not_false_eq_true]
    · exact next_congr (congrArg (takeAtFetch · s.nextCmd (fetchedWhole s page ring raw)) hunsealed)

/-- Settles O26: the packet is looked at in the state that took it. -/
theorem packetFetchFillsTheTracker : Obligations.PacketFetchFillsTheTracker := by
  intro s page ring raw ind r hs hp hr hrem hturn
  refine ⟨fun hf => ?stop, fun hl hf => ⟨fun hv hi hd hseal hw => ?fetch, fun hi hop he => ?unknown⟩⟩
  case stop =>
    have hgo : (!serving s || decide (64 < page) || decide (16 ≤ ring) || s.boot.removed) = false := by
      simp [hs, hrem, Nat.not_lt.mpr hp, Nat.not_le.mpr hr]
    refine ⟨logAer (setSq s page ring { r with st := .stopped, fetcherr := true }) 0, ?_, sqAt_setSq_same .., rfl⟩
    show execPacketFetch page ring none ind s = _
    have hf' : fetchable s page ring (sqAt s page ring) [] = true := hf
    simp only [execPacketFetch, hgo, hf', hturn, Bool.and_self, Bool.false_eq_true, if_false, if_true]
    rfl
  case unknown =>
    obtain ⟨t, ⟨⟨h, ht⟩, _, _, heng⟩, hunknown, _⟩ := packetFetch_takes ind hs hp hr hrem hturn hl hf hi
    have hend := endCmd_endsAs (s := entered t s.nextCmd { fetchedCmd s page ring raw with dying := true })
      0x0A 0 0 (tfind_tset_same ..) rfl ⟨rfl, fun e he' => ne_of_eq_of_ne (congrArg CopyEngine.cmd (heng e)) (he e he')⟩
    obtain ⟨⟨k, hk, hdone, hstatus, hdetail, _⟩, _, hcores, hhbm⟩ := ends_of_endsAs hend
    obtain ⟨p, l, f, hend⟩ := hend
    refine ⟨_, k, hunknown hop, ?_, hk, hdone, hstatus, hdetail, hcores.trans ?_, hhbm.trans ?_⟩
    · rw [hend]; rfl
    · rw [ht]; rfl
    · rw [ht]; rfl
  case fetch =>
    obtain ⟨t, ⟨⟨h, ht⟩, hsq, hin, _⟩, _, hfetch⟩ := packetFetch_takes ind hs hp hr hrem hturn hl hf hi
    have hcmds : (entered t s.nextCmd (fetchedWhole s page ring raw)).cmds = tset s.cmds s.nextCmd (fetchedWhole s page ring raw) := by rw [ht]; rfl
    have htgt := targetAtFetch_congr hcmds (fetchedWhole s page ring raw)
    have hold (j : Nat) (hj : j ≠ s.nextCmd) : cmdAt (entered t s.nextCmd (fetchedWhole s page ring raw)) j = cmdAt s j := by
      rw [cmdAt_entered_other _ _ hj, ht]; rfl
    obtain ⟨⟨l, htake⟩, hself, hnone, hsome⟩ := takeAtFetch_takes (entered t s.nextCmd (fetchedWhole s page ring raw)) s.nextCmd
      (fetchedWhole s page ring raw)
    rw [htgt] at hnone hsome
    refine ⟨_, hfetch hv hd hseal hw, ?_, ?_, hself.trans (cmdAt_entered_same ..), ?_, fun h x hop hx hc => ?_, fun h j hj => ?_, ?_, ?_⟩
    · rw [htake]; exact hsq
    · rw [htake]; rfl
    · rw [htake]; exact hin
    · obtain ⟨htaken, hrest⟩ := hsome h x hop hx ((hold h (targetAtFetch_ne hx)).trans hc)
      exact ⟨htaken, fun j hj hjh => (hrest j hjh).trans (hold j hj)⟩
    · rw [hnone h]; exact hold j hj
    · rw [htake, ht]; rfl
    · rw [htake, ht]; rfl

end Sys2Proof.Machine
end
section
/-! PROOFS. The end of an attempt, its commit and its publish (R34, R51, R164, R170, R173, R176, R190, R191). -/

namespace Sys2Proof.Machine

theorem noteOverrun_eq (s : State) (id : Nat) : ∃ l m, noteOverrun s id = { s with cols := l, cmds := m } := by
  unfold noteOverrun
  split
  · exact ⟨_, _, rfl⟩
  · split
    · exact ⟨_, _, rfl⟩
    · exact ⟨_, _, rfl⟩

theorem settleTurn_hub (s : State) (n : Nat) : (settleTurn s n).hub = s.hub := by
  unfold settleTurn; repeat' split
  all_goals rfl

theorem acctAt_setCmd (s : State) (id n : Nat) (c : Cmd) : acctAt (setCmd s id c) n = acctAt s n := rfl

/-- An attempt that ends is charged to its colony (R190, R191). -/
theorem chargeAttempt_charges {s : State} {id : Nat} {c : Cmd} (hc : cmdAt s id = some c) :
    let t := chargeAttempt (noteOverrun s id) id true
    (∃ o, cmdAt t id = some { c with turnOver := o, attemptNs := 0, use := {}, coreNs := c.coreNs + c.attemptNs }) ∧
    (acctAt t c.colony).coreNs = ((acctAt s c.colony).coreNs + c.attemptNs) % 2 ^ 64 ∧ t.cores = s.cores ∧ t.hbm = s.hbm := by
  obtain ⟨o, ho⟩ := cmdAt_noteOverrun hc
  obtain ⟨l, m, hn⟩ := noteOverrun_eq s id
  intro t
  have ht : t = setCmd (modAcct (noteOverrun s id) c.colony (fun a => a.plus { c.use with coreNs := c.attemptNs })) id
      { c with turnOver := o, attemptNs := 0, use := {}, coreNs := c.coreNs + c.attemptNs } := by
    simp only [t, chargeAttempt, ho, if_true]
  refine ⟨⟨o, ht ▸ cmdAt_setCmd_same ..⟩, ?_, ?_, ?_⟩
  · rw [ht, acctAt_setCmd, acctAt_modAcct_same, hn]; rfl
  · rw [ht, hn]; rfl
  · rw [ht, hn]; rfl

/-- Settles O31: a core's return touches its core and its command; the attempt's end charges it and then holds or commits. -/
theorem attemptsEnd : Obligations.AttemptsEnd := by
  intro s id c hc
  refine ⟨fun n hn hfatal hst hended htags hleg => ?back, fun hs hop hph hrun hclaim => ?charged⟩
  case back =>
    intro k
    have hgo : (s.flt.fatal || (coreAt s n).st != .running || !(coreAt s n).ended || (coreAt s n).tags.any (fun t => t.write)) = false := by
      simpa [hfatal, hst, hended] using htags
    refine ⟨setCmd (setCore s n { foldFlags (foldFlags k false) true with st := .bound, cmd := none, ended := false, stall := .none }) id
      { c with
        low := c.low || (foldFlags (foldFlags k false) true).lowSpill, high := c.high || (foldFlags (foldFlags k false) true).highSpill
        attemptNs := c.attemptNs + nsSince s c.startTick }, _, ?_, ?_, ?_, cmdAt_setCmd_same .., ?_, ?_, rfl, ?_, rfl⟩
    · show execCoreReturnBound n s = _
      simp only [execCoreReturnBound, hn, hc, hgo, hleg, Bool.false_eq_true, if_false]
      rfl
    · exact congrArg Core.st (coreAt_setCore_same s n _)
    · exact congrArg Core.cmd (coreAt_setCore_same s n _)
    · show (c.low || (k.lowSpill || k.acc0.low || k.acc1.low)) = _
      simp only [Bool.or_assoc]
    · show (c.high || (k.highSpill || k.acc0.high || k.acc1.high)) = _
      simp only [Bool.or_assoc]
    · exact fun m hm => coreAt_setCore_other s _ hm
  case charged =>
    obtain ⟨⟨o, hd⟩, hns, hcores, hhbm⟩ := chargeAttempt_charges hc
    have hgo : (!serving s || !c.isLaunch || c.phase != .running || !(runningCores s id c).isEmpty) = false := by
      simp [hs, hph, hrun, Cmd.isLaunch, hop]
    have hab : abandonAtEnd (chargeAttempt (noteOverrun s id) id true) id c = none := by rw [abandonAtEnd, hclaim]
    have hexec (u : State) (hu : chargeAttempt (noteOverrun s id) id true = u) : exec (.attemptEnd id) s =
        .next (settleTurn (if c.defer then stampFin (modCmd u id (fun x => { x with phase := .held, held := true })) id
          else modCmd u id (fun x => { x with phase := .ended })) c.colony) := by
      subst hu
      show execAttemptEnd id s = _
      simp only [execAttemptEnd, hc, hgo, hab, Bool.false_eq_true, if_false]
    generalize chargeAttempt (noteOverrun s id) id true = u at hd hns hcores hhbm hexec
    have hx := hexec u rfl
    cases hdefer : c.defer with
    | true =>
      rw [hdefer, if_pos rfl, modCmd_some _ hd, stampFin_eq (cmdAt_setCmd_same ..)] at hx
      exact ⟨_, _, hx, (cmdAt_settleTurn ..).trans (cmdAt_setCmd_same ..), rfl, (Bool.or_true _).symm, rfl,
        by rw [acctAt, settleTurn_hub]; exact hns, (settleTurn_cores ..).trans hcores, (settleTurn_hbm ..).trans hhbm⟩
    | false =>
      rw [hdefer, if_neg Bool.false_ne_true, modCmd_some _ hd] at hx
      exact ⟨_, _, hx, (cmdAt_settleTurn ..).trans (cmdAt_setCmd_same ..), rfl, (Bool.or_false _).symm, rfl,
        by rw [acctAt, settleTurn_hub]; exact hns, (settleTurn_cores ..).trans hcores, (settleTurn_hbm ..).trans hhbm⟩

/- Merging the unwritten lines (R170 step 1). -/

/-- What copying lines of a page leaves: the cores, the hub's own state, and every command but for its written lines (R168). -/
def Merges (s t : State) : Prop :=
  t.cores = s.cores ∧ t.hub = s.hub ∧ ∀ id k, cmdAt s id = some k → ∃ l, cmdAt t id = some { k with shadows := l }

theorem merges_refl (s : State) : Merges s s := ⟨rfl, rfl, fun _ k h => ⟨k.shadows, h⟩⟩
theorem merges_trans {s t u : State} (h : Merges s t) (h' : Merges t u) : Merges s u := by
  obtain ⟨hc, hh, hk⟩ := h
  obtain ⟨hc', hh', hk'⟩ := h'
  refine ⟨hc'.trans hc, hh'.trans hh, fun id k h => ?_⟩
  obtain ⟨l, hl⟩ := hk id k h
  obtain ⟨l', hl'⟩ := hk' id _ hl
  exact ⟨l', hl'⟩
theorem merges_modChan (s : State) (n : Nat) (f : Channel → Channel) : Merges s (modChan s n f) := ⟨rfl, rfl, fun _ k h => ⟨k.shadows, h⟩⟩

theorem merges_writeLine (s : State) (fa : Nat) (data : List Byte) : Merges s (writeLine s fa data) := by
  refine ⟨cores_writeLine .., hub_writeLine .., fun id k h => ⟨(markShadows (lineBase fa) k).shadows, ?_⟩⟩
  unfold writeLine
  extract_lets ch off corrupt s1 s2 s3
  have h3 : cmdAt s3 id = some k := by
    simp only [s3]
    split
    · exact h
    · exact h
  rw [cmdAt_markWritten, h3]
  rfl

theorem merges_homeWrite (s : State) {cls : Nat} (hcls : cls ≠ 0) (ch off : Nat) (data : List Byte) : Merges s (homeWrite s cls ch off data) := by
  have htouch (t : State) : Merges t (sliceTouch t cls ch off true) := by
    obtain ⟨f, -, e⟩ := sliceTouch_eq t cls ch off true
    rw [e, if_neg hcls]
    exact merges_modChan ..
  have h1 := merges_trans (merges_writeLine s (frameAddr ch off) data) (htouch _)
  unfold homeWrite
  dsimp only
  split
  · exact merges_trans h1 (merges_modChan ..)
  · exact h1

theorem length_padTo (n : Nat) (bs : List Byte) : (padTo n bs).length = n := by simp [padTo, zeros]

/-- One unwritten line copied from the committed page. -/
def mergeLine (col : Colony) (cls : Nat) (sh : Shadow) (t : State) (i : Nat) : State :=
  let a := sh.addr (sh.dpa + 64 * i)
  let b := frameOf col (sh.dpa + 64 * i)
  homeWrite (countMerge (countMerge t (channelOf b)) (channelOf a)) cls (channelOf a) (chanOff a) (coherentData t b)

theorem mergePage_eq (s : State) (col : Colony) (cls : Nat) (sh : Shadow) :
    mergePage s col cls sh = (unwritten sh).foldl (mergeLine col cls sh) s := rfl

theorem merges_mergeLine (s : State) (col : Colony) {cls : Nat} (hcls : cls ≠ 0) (sh : Shadow) (i : Nat) :
    Merges s (mergeLine col cls sh s i) :=
  merges_trans (merges_trans (merges_modChan ..) (merges_modChan ..)) (merges_homeWrite _ hcls ..)

theorem hbm_mergeLine (s : State) (col : Colony) (cls : Nat) {sh : Shadow} {i : Nat} (h : sh.addr (sh.dpa + 64 * i) % 64 = 0) :
    (mergeLine col cls sh s i).hbm =
      mwrite s.hbm (keyOf (sh.addr (sh.dpa + 64 * i))) (padTo 64 (coherentData s (frameOf col (sh.dpa + 64 * i)))) := by
  rw [mergeLine, hbm_homeWrite, frameAddr_channelOf_chanOff]
  rw [show lineBase (sh.addr (sh.dpa + 64 * i)) = sh.addr (sh.dpa + 64 * i) by rw [lineBase]; omega]
  rfl

theorem merges_foldl {α : Type} (f : State → α → State) (hf : ∀ t x, Merges t (f t x)) (l : List α) (s : State) : Merges s (l.foldl f s) := by
  induction l generalizing s with
  | nil => exact merges_refl s
  | cons x l ih => exact merges_trans (hf s x) (ih (f s x))

theorem mget_foldl {α : Type} (f : State → α → State) {a : Nat} {l : List α} (hf : ∀ t, ∀ x ∈ l, mget (f t x).hbm a = mget t.hbm a) (s : State) :
    mget (l.foldl f s).hbm a = mget s.hbm a := by
  induction l generalizing s with
  | nil => rfl
  | cons x l ih =>
    rw [List.foldl_cons, ih fun t y hy => hf t y (List.mem_cons_of_mem _ hy)]
    exact hf s x (List.mem_cons_self ..)

theorem mget_mergeLine (s : State) (col : Colony) (cls : Nat) {sh : Shadow} {i a : Nat} (h : sh.addr (sh.dpa + 64 * i) % 64 = 0)
    (ha : ¬(keyOf (sh.addr (sh.dpa + 64 * i)) ≤ a ∧ a < keyOf (sh.addr (sh.dpa + 64 * i)) + 64)) :
    mget (mergeLine col cls sh s i).hbm a = mget s.hbm a := by
  rw [hbm_mergeLine s col cls h]
  exact mget_mwrite_other _ _ _ (by rw [length_padTo]; omega)

/- The exchange of a page's frames (R170 step 4, R293). -/

/-- What the end of a command leaves of a colony: all but who is stalled and what is counted in flight (R197, R303). -/
def Colony.settled (c : Colony) : Colony :=
  { c with stalled := [], cur := { c.cur with inflight := 0 }, old := { c.old with inflight := 0 } }

theorem tget_map {α β : Type} (f : α → β) (d : α) (t : Tbl α) (n : Nat) : tget (f d) (t.map (fun e => (e.1, f e.2))) n = f (tget d t n) := by
  induction t with
  | nil => rfl
  | cons e r ih =>
    simp only [List.map_cons, tget]
    split
    · rfl
    · exact ih

theorem settled_leaveWaiters (s : State) (agent n : Nat) : (colAt (leaveWaiters s agent) n).settled = (colAt s n).settled := by
  have h := congrArg Colony.settled (tget_map (fun c : Colony => { c with stalled := c.stalled.filter (fun a => a != agent) }) {} s.cols n)
  exact h

theorem settled_inflightDec (s : State) (colony instar n : Nat) : (colAt (inflightDec s colony instar) n).settled = (colAt s n).settled := by
  by_cases h : n = colony
  · subst h
    rw [inflightDec, colAt_modCol_same]
    split <;> rfl
  · exact congrArg Colony.settled (colAt_setCol_other s _ h)

theorem settled_endReqs (s : State) (id n : Nat) : (colAt (endReqs s id) n).settled = (colAt s n).settled := by
  refine (foldl_keeps (fun t => (colAt t n).settled) (fun t (r : FabReq) => inflightDec t r.colony r.instar)
    (fun t r => settled_inflightDec t r.colony r.instar n) _ _).trans ?_
  exact foldl_keeps (fun t => (colAt t n).settled) (fun t (e : Nat × Port) => leaveWaiters t (664 + e.1))
    (fun t e => settled_leaveWaiters t _ n) _ _

theorem settled_endOne {s : State} {id : Nat} {c : Cmd} (status detail result : Nat) (hc : cmdAt s id = some c)
    (hfin : c.finished = false) (he : ∀ e, e < 16 → (engineAt s e).cmd ≠ some id) (n : Nat) :
    (colAt (endOne s id status detail result) n).settled = (colAt s n).settled := by
  have hidle : freeEngines (endReqs s id) id = endReqs s id := freeEngines_of_idle (by simpa [engineAt] using he)
  simp only [endOne, hc, hfin, hidle, Bool.false_eq_true, if_false]
  rw [stampFin_eq (cmdAt_setCmd_same ..)]
  obtain ⟨f, hf⟩ := closeCmdRec_eq (setCmd (modHub (setCmd (endReqs s id) id _) _) id _) c
  rw [hf]
  exact settled_endReqs s id n

/-- The frames behind a page's parts after its exchange (R170 step 4). -/
theorem tfind_exchanged (t : Tbl Nat) (a b k n : Nat) :
    tfind ((List.range k).foldl (fun t i => tset t (a + i) (b + i)) t) n = if a ≤ n ∧ n < a + k then some (b + (n - a)) else tfind t n := by
  induction k with
  | zero => rw [if_neg (by omega)]; rfl
  | succ k ih =>
    rw [List.range_succ, List.foldl_append, List.foldl_cons, List.foldl_nil]
    by_cases hn : n = a + k
    · subst hn
      rw [tfind_tset_same, if_pos (by omega), Nat.add_sub_cancel_left]
    · rw [tfind_tset_other _ _ hn, ih]
      by_cases h : a ≤ n ∧ n < a + k
      · rw [if_pos h, if_pos (by omega)]
      · rw [if_neg h, if_neg (by omega)]

theorem onChannel_eq (home a : Nat) :
    onChannel home a = a / 2 ^ 14 * 2 ^ 14 + (channelOf home % 16 ^^^ rowFold (a / 2 ^ 14)) * 1024 + a % 1024 := by
  simp only [onChannel, nbits, rowFold, Nat.shiftRight_eq_div_pow, Nat.xor_assoc]
  have h : a / 2 ^ 14 / 16 % 16 = a / 2 ^ 18 % 16 := by omega
  rw [h]
  rfl

theorem onChannel_row (home a : Nat) : onChannel home a / 2 ^ 14 = a / 2 ^ 14 := by
  have := xor_rowFold_lt (Nat.mod_lt (channelOf home) (show 0 < 16 by decide)) (a / 2 ^ 14)
  rw [onChannel_eq]; omega

/-- A page stays on its channels (R170; log entry 94). -/
theorem channelOf_onChannel (home a : Nat) : channelOf (onChannel home a) % 16 = channelOf home % 16 := by
  have hlt := xor_rowFold_lt (Nat.mod_lt (channelOf home) (show 0 < 16 by decide)) (a / 2 ^ 14)
  have hgran : onChannel home a / 2 ^ 10 % 16 = channelOf home % 16 ^^^ rowFold (a / 2 ^ 14) := by rw [onChannel_eq]; omega
  rw [channelOf_eq, onChannel_row, hgran, Nat.xor_xor_cancel_right]
  omega

theorem cmdAt_forgetPage (s : State) (colony dpa size id : Nat) : cmdAt (forgetPage s colony dpa size) id = cmdAt s id := rfl
theorem colAt_forgetPage (s : State) (colony dpa size n : Nat) : colAt (forgetPage s colony dpa size) n = colAt s n := rfl
theorem hbm_forgetPage (s : State) (colony dpa size : Nat) : (forgetPage s colony dpa size).hbm = s.hbm := rfl
theorem engineCmd_filterTcs (s : State) (keep : TcEntry → Bool) (n : Nat) : (engineAt (filterTcs s keep) n).cmd = (engineAt s n).cmd := by
  have h := congrArg CopyEngine.cmd (tget_map (fun e : CopyEngine => { e with tc := e.tc.filter keep }) {} s.hub.engines n)
  exact h
theorem engineCmd_forgetPage (s : State) (colony dpa size n : Nat) : (engineAt (forgetPage s colony dpa size) n).cmd = (engineAt s n).cmd :=
  engineCmd_filterTcs ..

theorem colAt_setCmd (s : State) (id n : Nat) (c : Cmd) : colAt (setCmd s id c) n = colAt s n := rfl

/-- What a publish's exchange makes of one page where no cache and no directory names a line of it. -/
theorem exchange_one {s : State} {id : Nat} {c : Cmd} {sh : Shadow} (hc : cmdAt s id = some c) (hshadow : c.shadows = [sh])
    (hdir : ∀ e ∈ s.chans, e.2.dir = []) (hlines : allLines s = []) :
    ∃ k, cmdAt (exchangeAll s id) id = some k ∧ k.shadows = [] ∧ k.held = c.held ∧ k.phase = c.phase ∧ k.result = c.result ∧
      (exchangeAll s id).hbm = s.hbm ∧ (∀ e, (engineAt (exchangeAll s id) e).cmd = (engineAt s e).cmd) ∧
      ∀ n, tfind (colAt (exchangeAll s id) c.colony).frames n =
        if sh.dpa / 65536 ≤ n ∧ n < sh.dpa / 65536 + sh.size / 65536 then some (sh.frame / 65536 + (n - sh.dpa / 65536))
        else tfind (colAt s c.colony).frames n := by
  have hrecall (f : Frames) : recallFrame s f.start f.size = s := by
    have hnamed : s.chans.flatMap (fun e => e.2.dir.map (fun d => (e.1, d.offset))) = [] :=
      List.flatMap_eq_nil_iff.mpr fun e he => by rw [hdir e he]; rfl
    simp only [recallFrame, hnamed, hlines, List.map_nil, List.append_nil, List.foldl_nil]
  have hfold (l : List Frames) : l.foldl (fun t f => recallFrame t f.start f.size) s = s := List.foldl_fixed' hrecall l
  have hall : exchangeAll s id = modCmd (exchange s id c.colony sh) id (fun x =>
      { x with returning := x.returning ++ x.reserve.map (fun f => ⟨f, x.attempts, none⟩), reserve := [], shadows := [] }) := by
    simp only [exchangeAll, hc, hshadow, List.foldl_cons, List.foldl_nil]
  have hone : exchange s id c.colony sh = modCmd (modCol (forgetPage s c.colony sh.dpa sh.size) c.colony (fun x =>
      { x with frames := (List.range (sh.size / 65536)).foldl (fun t i => tset t (sh.dpa / 65536 + i) (sh.frame / 65536 + i)) x.frames })) id
      (fun x => { x with returning := x.returning ++ (joinRuns (oldFrames (colAt s c.colony) sh)).map (fun f => ⟨f, x.attempts, some s.hub.finished⟩) }) := by
    simp only [exchange, hfold]
  have hput (f : Colony → Colony) : cmdAt (modCol (forgetPage s c.colony sh.dpa sh.size) c.colony f) id = some c := hc
  rw [hall, hone, modCmd_some _ (hput _), modCmd_some _ (cmdAt_setCmd_same ..)]
  refine ⟨_, cmdAt_setCmd_same .., rfl, rfl, rfl, rfl, hbm_forgetPage s c.colony sh.dpa sh.size,
    fun e => engineCmd_forgetPage s c.colony sh.dpa sh.size e, fun n => ?_⟩
  rw [colAt_setCmd, colAt_setCmd, colAt_modCol_same]
  exact tfind_exchanged (colAt s c.colony).frames ..

theorem leaveTracker_leaves {s : State} {id : Nat} {c : Cmd} (hc : cmdAt s id = some c) (hph : c.phase = .written) (hr : c.returning = [])
    (hun : c.unsettled = false) : leaveTracker s id = { s with cmds := tdel s.cmds id } := by
  simp only [leaveTracker, hc, hph, hr, hun]
  rfl
theorem leaveTracker_stays {s : State} {id : Nat} {c : Cmd} (hc : cmdAt s id = some c) (hr : c.returning ≠ []) : leaveTracker s id = s := by
  have hne : c.returning.isEmpty = false := List.isEmpty_eq_false_iff.mpr hr
  simp only [leaveTracker, hc, hne, Bool.and_false, Bool.false_and, Bool.false_eq_true, if_false]

theorem pool_giveBack_one {s : State} {colony : Nat} {f : Frames} (h : holdsSet (colAt s colony).cur (setOf f.start) = true) :
    (colAt (giveBack s colony [f]) colony).pool = joinRuns (insertRun (colAt s colony).pool { f with colony := 0 }) := by
  rw [giveBack, colAt_modCol_same]
  exact congrArg Colony.pool (if_pos h)

/-- The frames that nothing waits for go back to the pool (R165, R170 step 6, R176). -/
theorem shadowFrameReturn_gives {s : State} {id : Nat} {c : Cmd} (hc : cmdAt s id = some c) (hs : serving s = true)
    (h : (c.returning.partition (landed s id c.colony)).1 ≠ []) :
    exec (.shadowFrameReturn id) s = .next (leaveTracker (setCmd (giveBack s c.colony
        ((c.returning.partition (landed s id c.colony)).1.map (fun g => g.frame))) id
      { c with returning := (c.returning.partition (landed s id c.colony)).2 }) id) := by
  have hgo : (!serving s || (c.returning.partition (landed s id c.colony)).1.isEmpty) = false := by simpa [hs] using h
  show execShadowFrameReturn id s = _
  simp only [execShadowFrameReturn, hc, hgo, Bool.false_eq_true, if_false]

/-- Settles O32: the merge is a walk over the unwritten lines; the publish exchanges a page's frames; then the frames return. -/
theorem commitsPublishShadowFrames : Obligations.CommitsPublishShadowFrames := by
  intro s id c hc hs
  refine ⟨fun report tagOk hph hall => ?nothing, fun report hph hprob hrep hsome haddr => ?merge,
    fun sh hph hheld hring hop hop' ha hsh hsize hdpa hframe hdir hlines => ?publish, fun hph hne hun hl => ?returned, fun hl hl' => ?partly⟩
  case nothing =>
    have hgo : (!serving s || c.phase != .ended) = false := by rw [hs, hph]; rfl
    have hprob : mergeProblem s c = none := by
      simp only [mergeProblem, List.findSome?_eq_none_iff]
      intro sh hsh i hi
      rw [hall sh hsh] at hi
      cases hi
    have hfirst : firstMerged c = none := by
      simp only [firstMerged, List.findSome?_eq_none_iff]
      intro sh hsh
      rw [hall sh hsh]
      rfl
    refine ⟨_, ?_, rfl⟩
    show execCommitMergeCopy id report tagOk s = _
    simp only [execCommitMergeCopy, hc, hgo, hprob, hfirst, Bool.false_eq_true, if_false]
    rw [modCmd_some _ hc]
  case merge =>
    have hgo : (!serving s || c.phase != .ended) = false := by rw [hs, hph]; rfl
    obtain ⟨dpa, hfirst⟩ : ∃ dpa, firstMerged c = some dpa := by
      obtain ⟨sh, hsh, hun⟩ := hsome
      refine Option.ne_none_iff_exists'.mp fun hnone => hun ?_
      have := List.findSome?_eq_none_iff.mp hnone sh hsh
      rwa [Option.map_eq_none_iff, List.head?_eq_none_iff] at this
    let merged := c.shadows.foldl (fun t sh => mergePage t (colAt s c.colony) 8 sh) s
    let counted := modAcct merged c.colony (fun a => { a with hbmRd := wrapAdd 64 a.hbmRd (mergeCount c), hbmWr := wrapAdd 64 a.hbmWr (mergeCount c) })
    have hm : Merges s merged := merges_foldl _ (fun t sh => merges_foldl _ (fun u i => merges_mergeLine u _ (by decide) sh i) _ t) _ s
    obtain ⟨hcores, hhub, hcmds⟩ := hm
    obtain ⟨l, hk⟩ := hcmds id c hc
    have hacct : acctAt merged c.colony = acctAt s c.colony := by rw [acctAt, hhub]; rfl
    have hexec : exec (.commitMergeCopy id report true) s = .next (modCmd counted id (fun x => { x with phase := .merged })) := by
      show execCommitMergeCopy id report true s = _
      simp only [execCommitMergeCopy, hc, hgo, hprob, hfirst, Bool.not_true, Bool.false_eq_true, if_false]
      exact if_neg hrep
    rw [modCmd_some (s := counted) _ hk] at hexec
    refine ⟨_, _, hexec, cmdAt_setCmd_same .., rfl, hcores, ?_, ?_, fun a ha => ?_, fun sh i hsh hi hwf => ?_⟩
    · rw [acctAt_setCmd, acctAt_modAcct_same, hacct]; rfl
    · rw [acctAt_setCmd, acctAt_modAcct_same, hacct]; rfl
    · refine mget_foldl (fun t sh => mergePage t (colAt s c.colony) 8 sh) (fun t sh hsh => ?_) s
      exact mget_foldl _ (fun u i hi => mget_mergeLine u _ 8 (haddr sh hsh i hi).2 (ha sh hsh i hi)) t
    · have hsh' : sh ∈ c.shadows := by rw [hsh]; exact List.mem_singleton_self ..
      have hi' : i ∈ unwritten sh := by rw [hi]; exact List.mem_singleton_self ..
      have hone : merged = mergeLine (colAt s c.colony) 8 sh s i := by
        simp only [merged, hsh, mergePage_eq, hi, List.foldl_cons, List.foldl_nil]
      show mread merged.hbm _ 64 = _
      rw [hone, hbm_mergeLine s _ 8 (haddr sh hsh' i hi').2]
      have := mread_mwrite (keyOf (sh.addr (sh.dpa + 64 * i))) (padTo 64 (coherentData s (frameOf (colAt s c.colony) (sh.dpa + 64 * i)))) hwf
      rwa [length_padTo] at this
  case publish =>
    have hgo : (!serving s || c.phase != .merged || !ringSettled s id c) = false := by rw [hs, hph, hring]; rfl
    have hlost : acceptLost s c = false := by rw [acceptLost, beq_eq_false_iff_ne.mpr hop']; rfl
    obtain ⟨k, hk, hkshadow, hkheld, hkphase, hkresult, hhbm, heng, hframes⟩ := exchange_one hc hsh hdir hlines
    generalize hu : exchangeAll s id = u at hk hhbm heng hframes
    have hexec : exec (.publish id) s = .next (endOne u id 0 0 k.result) := by
      show execPublish id s = _
      simp only [execPublish, hc, hgo, hlost, if_neg hop, if_neg hop', hu, Bool.false_eq_true, if_false]
      rw [endPublish, hk]
      simp only [hkheld, hheld, Bool.false_eq_true, if_false]
    have hfin : k.finished = false := by rw [Cmd.finished, hkphase, hph]
    have he : ∀ e, e < 16 → (engineAt u e).cmd ≠ some id := fun e he => by rw [heng]; exact ha.2 e he
    have hfr : (colAt (endOne u id 0 0 k.result) c.colony).frames = (colAt u c.colony).frames := by
      have := congrArg Colony.frames (settled_endOne 0 0 k.result hk hfin he c.colony)
      exact this
    obtain ⟨p, l, f, hend⟩ := endOne_endsAs 0 0 k.result hk hfin he
    refine ⟨_, endedCmd u k 0 0 k.result, hexec, ?_, rfl, rfl, hkshadow, fun x hx => ⟨?_, ?_, channelOf_onChannel ..⟩, fun a ha => ?_, ?_⟩
    · rw [hend]; exact tfind_tset_same ..
    · have hin : sh.dpa / 65536 ≤ (sh.dpa + x) / 65536 ∧ (sh.dpa + x) / 65536 < sh.dpa / 65536 + sh.size / 65536 := by omega
      have hpart : (sh.frame / 65536 + ((sh.dpa + x) / 65536 - sh.dpa / 65536)) * 65536 + (sh.dpa + x) % 65536 = sh.frame + (sh.dpa + x - sh.dpa) := by
        omega
      simp only [frameOf, hfr, hframes, if_pos hin, hpart, Shadow.addr]
    · rw [Shadow.addr, onChannel_row, Nat.add_sub_cancel_left]
    · have hout : ¬(sh.dpa / 65536 ≤ a / 65536 ∧ a / 65536 < sh.dpa / 65536 + sh.size / 65536) := by omega
      simp only [frameOf, hfr, hframes, if_neg hout]
    · rw [hend]; exact hhbm
  case returned =>
    have hlast : c.returning.partition (landed s id c.colony) = (c.returning, []) := by
      rw [List.partition_eq_filter_filter, List.filter_eq_self.mpr hl, List.filter_eq_nil_iff.mpr (by simpa using hl)]
    have hexec := shadowFrameReturn_gives hc hs (by rw [hlast]; exact hne)
    rw [hlast, leaveTracker_leaves (c := { c with returning := [] }) (cmdAt_setCmd_same ..) hph rfl hun] at hexec
    refine ⟨_, hexec, tfind_tdel_same .., rfl, fun g hg hset => ?_⟩
    show (colAt (giveBack s c.colony (c.returning.map (fun g => g.frame))) c.colony).pool = _
    rw [hg]
    exact pool_giveBack_one hset
  case partly =>
    obtain ⟨g, hg, hyes⟩ := hl
    obtain ⟨g', hg', hno⟩ := hl'
    have hnow : (c.returning.partition (landed s id c.colony)).1 ≠ [] := by
      rw [List.partition_eq_filter_filter]
      exact List.ne_nil_of_mem (List.mem_filter.mpr ⟨hg, hyes⟩)
    have hlater : (c.returning.partition (landed s id c.colony)).2 = c.returning.filter (fun g => !landed s id c.colony g) := by
      rw [List.partition_eq_filter_filter]; rfl
    have hexec := shadowFrameReturn_gives hc hs hnow
    rw [hlater, leaveTracker_stays (cmdAt_setCmd_same ..) (List.ne_nil_of_mem (List.mem_filter.mpr ⟨hg', by simp [hno]⟩))] at hexec
    exact ⟨_, _, hexec, cmdAt_setCmd_same .., rfl, rfl⟩

end Sys2Proof.Machine
end
section
/-! PROOFS. The channels and the mesh (R191, R225, R232 to R243, R256). -/

namespace Sys2Proof.Machine

/- A fault's record (R410 to R413). -/

/-- Only the collector, the interrupts and what leaves the device differ. -/
def OnlyReports (s t : State) : Prop := ∃ f p l, t = { s with flt := f, pcie := p, out := s.out ++ l }

theorem onlyReports_flt (s : State) (f : Faults) : OnlyReports s { s with flt := f } := ⟨f, s.pcie, [], by rw [List.append_nil]⟩
theorem onlyReports_trans {s t u : State} (h : OnlyReports s t) (h' : OnlyReports t u) : OnlyReports s u := by
  obtain ⟨f, p, l, rfl⟩ := h
  obtain ⟨f', p', l', rfl⟩ := h'
  exact ⟨f', p', l ++ l', by rw [List.append_assoc]⟩
theorem onlyReports_raiseMsix (s : State) (fn : Fn) (v : Nat) : OnlyReports s (raiseMsix s fn v) := by
  obtain ⟨l, p, h⟩ := raiseMsix_eq s fn v
  exact ⟨s.flt, p, l, h⟩
theorem onlyReports_faultIrq (s : State) (severity : Nat) : OnlyReports s (faultIrq s severity) := by
  unfold faultIrq
  repeat' split
  · exact onlyReports_flt s s.flt
  · exact onlyReports_raiseMsix ..
  · exact onlyReports_flt s s.flt
  · exact onlyReports_raiseMsix ..
  · exact onlyReports_flt s s.flt

theorem onlyReports_recordFault (s : State) (r : FaultRec) : OnlyReports s (recordFault s r).1 := by
  unfold recordFault
  split
  · unfold mergeInto
    dsimp only
    split
    · exact onlyReports_flt s s.flt
    · split
      · exact onlyReports_trans (onlyReports_flt s _) (onlyReports_faultIrq ..)
      · exact onlyReports_flt s _
  · split
    · exact onlyReports_trans (onlyReports_flt s _) (onlyReports_faultIrq ..)
    · exact onlyReports_trans (onlyReports_flt s _) (onlyReports_faultIrq ..)

theorem onlyReports_closeRec (s : State) (i : Option Nat) : OnlyReports s (closeRec s i) := by
  unfold closeRec modRec
  repeat' split
  · exact onlyReports_flt s _
  · exact onlyReports_flt s s.flt
  · exact onlyReports_flt s s.flt

/-- An uncorrectable error that no command meets: the channel's counts, and a record (R236, R415). -/
theorem lineRecord_uncorrectable (s : State) (ch colony dpa rank : Nat) (word : Word) (injected : Bool) :
    ∃ n, OnlyReports (setChan { s with free := n } ch { chanAt s ch with ue := satInc 16 (chanAt s ch).ue, ueFaults := (chanAt s ch).ueFaults + 1 })
      (lineRecord s ch colony dpa none rank word .uncorrectable injected).1 := by
  refine ⟨s.free + 1, ?_⟩
  unfold lineRecord
  dsimp only
  exact onlyReports_recordFault ..

/-- An unreadable line that no command reads is recorded, and its record closed (R410, R415). -/
def lineReported (s : State) (ch colony dpa : Nat) (injected : Bool) : State :=
  closeRec (lineRecord s ch colony dpa none 0 0 .uncorrectable injected).1 (lineRecord s ch colony dpa none 0 0 .uncorrectable injected).2

theorem lineReported_reports (s : State) (ch colony dpa : Nat) (injected : Bool) :
    ∃ n, OnlyReports (setChan { s with free := n } ch { chanAt s ch with ue := satInc 16 (chanAt s ch).ue, ueFaults := (chanAt s ch).ueFaults + 1 })
      (lineReported s ch colony dpa injected) := by
  obtain ⟨n, h⟩ := lineRecord_uncorrectable s ch colony dpa 0 0 injected
  exact ⟨n, onlyReports_trans h (onlyReports_closeRec ..)⟩

/- What a channel's queues and tag cache leave of it (R231, R232, R234, R244). -/

/-- The counts and lists of a channel's errors (R236, R237, R245). -/
def Channel.health (c : Channel) : Nat × Nat × Nat × List Nat × List Nat × List Nat × List Nat :=
  (c.ce, c.retryOk, c.ue, c.remapQueue, c.heldRows, c.badLines, c.badTags)

theorem health_forwardBuf (c : Channel) : (forwardBuf c).health = c.health :=
  foldl_keeps Channel.health _ (fun x r => by split <;> rfl) _ c

theorem forwardBuf_idle {c : Channel} (h : c.buf = []) : forwardBuf c = c := by rw [forwardBuf, h]; rfl

theorem health_touchTag (c : Channel) (off : Nat) (write : Bool) : (touchTag c off write).health = c.health := by simp only [touchTag, Channel.health]
theorem queue_touchTag (c : Channel) (off : Nat) (write : Bool) : (touchTag c off write).queue = c.queue := by simp only [touchTag]
theorem buf_touchTag (c : Channel) (off : Nat) (write : Bool) : (touchTag c off write).buf = c.buf := by simp only [touchTag]

theorem health_retireLine (c : Channel) (off : Nat) : (retireLine c off).health = c.health := by
  unfold retireLine
  split
  · exact health_forwardBuf _
  · rfl

theorem queue_retireLine {c : Channel} {off : Nat} {r : MemReq} (hb : c.buf = []) (hr : c.queue.find? (fun x => x.offset == off) = some r) :
    (retireLine c off).queue = c.queue.erase r := by
  rw [retireLine, hr]
  exact congrArg Channel.queue (forwardBuf_idle (by rw [hb]; rfl))

/-- The bytes of a transaction at a channel, for its class or as maintenance. -/
def bytesCounted (ticks bytes : Nat) (cmd : Option Cmd) (c : Channel) : Channel :=
  match cmd with
  | some k =>
    let c1 := { c with clsBytes := tset c.clsBytes k.cls (wrapAdd 64 (tget 0 c.clsBytes k.cls) bytes) }
    if k.cls = 0 then countUrgent c1 ticks else c1
  | none => { c with maint := wrapAdd 64 c.maint bytes }

theorem countBytes_eq (s : State) (ch bytes : Nat) (cmd : Option Cmd) : countBytes s ch bytes cmd = modChan s ch (bytesCounted s.ticks bytes cmd) := by
  unfold countBytes bytesCounted
  cases cmd <;> rfl

theorem bytesCounted_keeps {α : Type} (view : Channel → α) (hm : ∀ c n, view { c with maint := n } = view c)
    (hc : ∀ c l, view { c with clsBytes := l } = view c)
    (hu : ∀ c t, view (countUrgent c t) = view c) (ticks bytes : Nat) (cmd : Option Cmd) (c : Channel) :
    view (bytesCounted ticks bytes cmd c) = view c := by
  unfold bytesCounted
  cases cmd with
  | none => exact hm ..
  | some k =>
    dsimp only
    split
    · exact (hu ..).trans (hc ..)
    · exact hc ..

theorem chanAt_modChan_other (s : State) {n m : Nat} (f : Channel → Channel) (h : m ≠ n) : chanAt (modChan s n f) m = chanAt s m :=
  chanAt_setChan_other s _ h

theorem countFor_eq (s : State) (id colony : Nat) (f : Acct → Acct) :
    ∃ l h, countFor s id colony f = { s with cmds := l, hub := h } ∧ ∀ j, j ≠ id → tfind l j = cmdAt s j := by
  unfold countFor
  split
  · split
    · exact ⟨_, _, rfl, fun j hj => tfind_tset_other _ _ hj⟩
    · exact ⟨_, _, rfl, fun _ _ => rfl⟩
  · exact ⟨_, _, rfl, fun _ _ => rfl⟩

/- HBM_WRITE and HBM_READ (R235, R236). -/

theorem chanAt_writeLine_other (s : State) (fa : Nat) (data : List Byte) {m : Nat} (h : m ≠ channelOf fa) :
    chanAt (writeLine s fa data) m = chanAt s m := by
  unfold writeLine
  extract_lets ch off corrupt s1 s2 s3
  have h2 : chanAt s2 m = chanAt s m := chanAt_modChan_other s1 _ h
  show chanAt s3 m = _
  simp only [s3]
  split
  · exact (chanAt_modChan_other _ _ h).trans h2
  · exact h2

/-- A line written is readable again at its home; only its tag may be wrong (R236, R432). -/
theorem chanAt_writeLine_home (s : State) (fa : Nat) (data : List Byte) :
    ∃ l, chanAt (writeLine s fa data) (channelOf fa) = { clearBad (chanAt s (channelOf fa)) (chanOff (lineBase fa)) with badTags := l } := by
  unfold writeLine
  extract_lets ch off corrupt s1 s2 s3
  have h2 : chanAt s2 ch = clearBad (chanAt s ch) off := chanAt_modChan_same s1 _ _
  show ∃ l, chanAt s3 ch = _
  simp only [s3]
  split
  · exact ⟨_, (chanAt_modChan_same ..).trans (congrArg (fun c : Channel => { c with badTags := insertNew c.badTags off }) h2)⟩
  · exact ⟨_, h2⟩

theorem badLines_clearBad (c : Channel) (off : Nat) : off ∉ (clearBad c off).badLines := by
  unfold clearBad
  dsimp only
  split <;> simp
theorem clsBytes_clearBad (c : Channel) (off : Nat) : (clearBad c off).clsBytes = c.clsBytes := by
  unfold clearBad
  dsimp only
  split <;> rfl

theorem clsBytes_bytesCounted (ticks bytes : Nat) (k : Cmd) (c : Channel) :
    tget 0 (bytesCounted ticks bytes (some k) c).clsBytes k.cls = (tget 0 c.clsBytes k.cls + bytes) % 2 ^ 64 := by
  unfold bytesCounted
  dsimp only
  split <;> exact tget_tset_same ..

theorem home_of_line {ch off : Nat} (h : lineWf off = true) :
    channelOf (frameAddr ch off) = ch ∧ lineBase (frameAddr ch off) = frameAddr ch off ∧ chanOff (frameAddr ch off) = off := by
  simp only [lineWf, Bool.and_eq_true, decide_eq_true_eq] at h
  obtain ⟨h64, hlt⟩ := h
  have hoff : off < 2 ^ 31 := by omega
  exact ⟨channelOf_frameAddr ch hoff, lineBase_frameAddr ch h64, chanOff_frameAddr ch hoff⟩

/-- The state in which HBM_WRITE has stored its line, before it counts it for its command. -/
def lineStored (s : State) (ch off : Nat) (data : List Byte) (cmd : Option Cmd) : State :=
  modChan (writeLine (countBytes s ch 64 cmd) (frameAddr ch off) data) ch (fun x =>
    let c := touchTag x off true
    { c with lines := c.lines.map (fun l => if l.offset = off then { l with dirty := false } else l) })

theorem lineStored_stores {s : State} {ch off : Nat} {data : List Byte} (cmd : Option Cmd) (hw : lineWf off = true) (hl : data.length = 64) :
    let t := lineStored s ch off data cmd
    (Memory.wf s.hbm = true → mread t.hbm (hbmKey ch off) 64 = data) ∧
    (∀ a, ¬(hbmKey ch off ≤ a ∧ a < hbmKey ch off + 64) → mget t.hbm a = mget s.hbm a) ∧
    off ∉ (chanAt t ch).badLines ∧ (∀ m, m ≠ ch → chanAt t m = chanAt s m) ∧ t.cores = s.cores ∧ t.hub = s.hub ∧
    (∀ i, cmdAt t i = (cmdAt s i).map (markShadows (frameAddr ch off))) ∧
    ∀ k, cmd = some k → tget 0 (chanAt t ch).clsBytes k.cls = (tget 0 (chanAt s ch).clsBytes k.cls + 64) % 2 ^ 64 := by
  intro t
  obtain ⟨hch, hline, hoff⟩ := home_of_line (ch := ch) hw
  have hhbm : t.hbm = mwrite s.hbm (hbmKey ch off) data := by
    refine (hbm_writeLine (countBytes s ch 64 cmd) (frameAddr ch off) data).trans ?_
    rw [key_frameAddr hw, padTo_of_length hl]
    rfl
  obtain ⟨l, hhome⟩ := chanAt_writeLine_home (countBytes s ch 64 cmd) (frameAddr ch off) data
  rw [hch, hline, hoff, countBytes_eq, chanAt_modChan_same] at hhome
  have ht : chanAt t ch = _ := chanAt_modChan_same ..
  rw [countBytes_eq, hhome] at ht
  refine ⟨fun hwf => ?_, fun a ha => ?_, ?_, fun m hm => ?_, ?_, ?_, fun i => ?_, fun k hk => ?_⟩
  · rw [hhbm, ← hl]; exact mread_mwrite _ _ hwf
  · rw [hhbm]; exact mget_mwrite_other _ _ _ (by omega)
  · rw [ht]; exact badLines_clearBad (bytesCounted s.ticks 64 cmd (chanAt s ch)) off
  · refine (chanAt_modChan_other _ _ hm).trans ((chanAt_writeLine_other _ _ _ (by rwa [hch])).trans ?_)
    rw [countBytes_eq]
    exact chanAt_modChan_other _ _ hm
  · exact cores_writeLine ..
  · exact hub_writeLine ..
  · show cmdAt (writeLine _ _ _) i = _
    unfold writeLine
    extract_lets c o corrupt s1 s2 s3
    have h3 : cmdAt s3 i = cmdAt s i := by
      simp only [s3]
      split <;> rfl
    rw [cmdAt_markWritten, h3, hline]
  · subst hk
    rw [ht]
    refine Eq.trans ?_ (clsBytes_bytesCounted s.ticks 64 k (chanAt s ch))
    exact congrArg (fun l => tget 0 l k.cls) (clsBytes_clearBad _ off)

theorem hbmWrite_stores {s : State} {ch off : Nat} (data : List Byte) (cmd : Nat) (hs : serving s = true) (hw : lineWf off = true)
    (hm : (chanAt s ch).mode ≠ .fenced) (hr : (chanAt s ch).retraining = false) (h8 : s.flt.armed.contains (8, ch) = false) :
    exec (.hbmWrite ch off data cmd) s = .next ((cmdAt s cmd).elim (lineStored s ch off data none) fun x =>
      countFor (lineStored s ch off data (some x)) cmd x.colony (fun a => { a with hbmWr := wrapAdd 64 a.hbmWr 1 })) := by
  simp only [lineWf, Bool.and_eq_true, decide_eq_true_eq] at hw
  have hgo : (!serving s || (chanAt s ch).mode == .fenced || (chanAt s ch).retraining || armed s 8 ch || decide (0x76000000 ≤ off) || off % 64 != 0) = false := by
    simp [hs, hm, hr, armed, hw.1, Nat.not_le.mpr hw.2]
    simpa using h8
  show execHbmWrite ch off data cmd s = _
  simp only [execHbmWrite, hgo, Bool.false_eq_true, if_false]
  cases cmdAt s cmd <;> rfl

theorem health_bytesCounted (ticks bytes : Nat) (cmd : Option Cmd) (c : Channel) : (bytesCounted ticks bytes cmd c).health = c.health :=
  bytesCounted_keeps Channel.health (fun _ _ => rfl) (fun _ _ => rfl) (fun _ _ => rfl) ..

/-- HBM_READ's transaction leaves the channel's queue (R232, R234). -/
def lineTaken (s : State) (ch off : Nat) (cmd : Option Cmd) : State :=
  modChan (countBytes s ch 64 cmd) ch (fun x => retireLine (touchTag x off false) off)

/-- The state in which HBM_READ has counted its transaction, before it looks at the reports. -/
def lineCounted (s : State) (ch off cmd : Nat) : State :=
  match cmdAt s cmd with
  | some x => countFor (lineTaken s ch off (cmdAt s cmd)) cmd x.colony (fun a => { a with hbmRd := wrapAdd 64 a.hbmRd 1 })
  | none => lineTaken s ch off (cmdAt s cmd)

theorem lineTaken_eq (s : State) (ch off : Nat) (cmd : Option Cmd) : ∃ c, lineTaken s ch off cmd = { s with chans := c } := by
  rw [lineTaken, countBytes_eq]
  exact ⟨_, rfl⟩

theorem lineCounted_eq (s : State) (ch off cmd : Nat) :
    ∃ l h, lineCounted s ch off cmd = { lineTaken s ch off (cmdAt s cmd) with cmds := l, hub := h } ∧ (∀ j, j ≠ cmd → tfind l j = cmdAt s j) ∧
      (cmdAt s cmd = none → l = s.cmds) := by
  obtain ⟨c, hc⟩ := lineTaken_eq s ch off (cmdAt s cmd)
  unfold lineCounted
  rw [hc]
  split
  · next x hx =>
    obtain ⟨l, h, he, hl⟩ := countFor_eq { s with chans := c } cmd x.colony (fun a => { a with hbmRd := wrapAdd 64 a.hbmRd 1 })
    exact ⟨l, h, he, hl, fun hn => by rw [hx] at hn; cases hn⟩
  · exact ⟨s.cmds, s.hub, rfl, fun _ _ => rfl, fun _ => rfl⟩

theorem armed_lineCounted (s : State) (ch off cmd k n : Nat) : armed (lineCounted s ch off cmd) k n = armed s k n := by
  obtain ⟨l, h, he, -⟩ := lineCounted_eq s ch off cmd
  obtain ⟨c, hc⟩ := lineTaken_eq s ch off (cmdAt s cmd)
  rw [he, hc]
  rfl

theorem lineCounted_counts (s : State) (ch off cmd : Nat) :
    let t := disarm (lineCounted s ch off cmd) 3 ch
    (∃ l h c f, t = { s with cmds := l, hub := h, chans := c, flt := { s.flt with armed := f } }) ∧ (∀ j, j ≠ cmd → cmdAt t j = cmdAt s j) ∧
    (cmdAt s cmd = none → t.cmds = s.cmds) ∧ (∀ m, m ≠ ch → chanAt t m = chanAt s m) ∧ (chanAt t ch).health = (chanAt s ch).health ∧
    ∀ r, (chanAt s ch).buf = [] → (chanAt s ch).queue.find? (fun x => x.offset == off) = some r → (chanAt t ch).queue = (chanAt s ch).queue.erase r := by
  intro t
  let s1 := lineTaken s ch off (cmdAt s cmd)
  have h1 : chanAt s1 ch = retireLine (touchTag (bytesCounted s.ticks 64 (cmdAt s cmd) (chanAt s ch)) off false) off := by
    simp only [s1, lineTaken]
    rw [chanAt_modChan_same, countBytes_eq, chanAt_modChan_same]
  have hother (m : Nat) (hm : m ≠ ch) : chanAt s1 m = chanAt s m := by
    refine (chanAt_modChan_other _ _ hm).trans ?_
    rw [countBytes_eq]
    exact chanAt_modChan_other _ _ hm
  obtain ⟨l, h, he, hcmds, hnone⟩ := lineCounted_eq s ch off cmd
  obtain ⟨cs, hcs⟩ := lineTaken_eq s ch off (cmdAt s cmd)
  have ht : t = disarm { s1 with cmds := l, hub := h } 3 ch := congrArg (disarm · 3 ch) he
  have hchan (m : Nat) : chanAt t m = chanAt s1 m := by rw [ht]; rfl
  refine ⟨⟨l, h, cs, s.flt.armed.filter (fun x => x != (3, ch)), ?_⟩, fun j hj => ?_, fun hn => ?_, fun m hm => (hchan m).trans (hother m hm), ?_,
    fun r hb hr => ?_⟩
  · rw [ht]; simp only [s1, hcs]; rfl
  · rw [ht]; exact hcmds j hj
  · rw [ht]; exact hnone hn
  · rw [hchan, h1, health_retireLine, health_touchTag, health_bytesCounted]
  · rw [hchan, h1]
    have hbuf : (bytesCounted s.ticks 64 (cmdAt s cmd) (chanAt s ch)).buf = (chanAt s ch).buf :=
      bytesCounted_keeps Channel.buf (fun _ _ => rfl) (fun _ _ => rfl) (fun _ _ => rfl) ..
    have hqueue : (bytesCounted s.ticks 64 (cmdAt s cmd) (chanAt s ch)).queue = (chanAt s ch).queue :=
      bytesCounted_keeps Channel.queue (fun _ _ => rfl) (fun _ _ => rfl) (fun _ _ => rfl) ..
    rw [queue_retireLine (by rw [buf_touchTag, hbuf, hb]) (by rw [queue_touchTag, hqueue, hr]), queue_touchTag, hqueue]

theorem hbmRead_go {s : State} {ch off : Nat} (hs : serving s = true) (hw : lineWf off = true)
    (hm : (chanAt s ch).mode ≠ .fenced) (hr : (chanAt s ch).retraining = false) (h8 : s.flt.armed.contains (8, ch) = false) :
    (!serving s || (chanAt s ch).mode == .fenced || (chanAt s ch).retraining || armed s 8 ch || decide (0x76000000 ≤ off) || off % 64 != 0) = false := by
  simp only [lineWf, Bool.and_eq_true, decide_eq_true_eq] at hw
  have h8' : armed s 8 ch = false := h8
  simp [hs, hm, hr, h8', hw.1, Nat.not_le.mpr hw.2]

/-- What the first report leaves of a channel where the line can be read in the end (R236, R237). -/
def afterReport (first : EccReport) (off : Nat) (c : Channel) : Channel :=
  match first with
  | .clean => c
  | .corrected => countCorrected c (rowOf off)
  | .uncorrected => queueRow { c with retryOk := satInc 16 c.retryOk } (rowOf off)

theorem hbmRead_reads {s : State} {ch off : Nat} (cmd : Nat) {first second : EccReport} (hs : serving s = true) (hw : lineWf off = true)
    (hm : (chanAt s ch).mode ≠ .fenced) (hr : (chanAt s ch).retraining = false) (h8 : s.flt.armed.contains (8, ch) = false)
    (h3 : s.flt.armed.contains (3, ch) = false) (hl : off ∉ (chanAt s ch).badLines) (ht : off ∉ (chanAt s ch).badTags)
    (hu : ¬(first = .uncorrected ∧ second = .uncorrected)) :
    exec (.hbmRead ch off cmd first second true) s = .next (if first = .clean then disarm (lineCounted s ch off cmd) 3 ch
      else modChan (disarm (lineCounted s ch off cmd) 3 ch) ch (afterReport first off)) := by
  have harm : ¬armed (lineCounted s ch off cmd) 3 ch = true := by rw [armed_lineCounted]; exact Bool.eq_false_iff.mp h3
  have hbad : ¬((chanAt s ch).badLines.contains off || (first == .uncorrected && second == .uncorrected)) = true := by
    simpa [hl] using hu
  have htag : ¬((chanAt s ch).badTags.contains off || !true) = true := by simpa using ht
  show execHbmRead ch off cmd first second true s = _
  simp only [execHbmRead, hbmRead_go hs hw hm hr h8, Bool.false_eq_true, if_false]
  refine (if_neg harm).trans ((if_neg hbad).trans ((if_neg htag).trans ?_))
  cases first <;> rfl

/-- What the first report leaves of the counts and of the rows (R236, R237). -/
theorem afterReport_counts (first : EccReport) (off : Nat) (c : Channel) :
    (afterReport first off c).ce = (if first = .corrected then satInc 16 c.ce else c.ce) ∧
    (afterReport first off c).retryOk = (if first = .uncorrected then satInc 16 c.retryOk else c.retryOk) ∧
    (afterReport first off c).ue = c.ue ∧ (afterReport first off c).queue = c.queue ∧
    (first = .uncorrected → rowOf off ∈ (afterReport first off c).remapQueue ∨ rowOf off ∈ (afterReport first off c).heldRows) := by
  have hrow (d : Channel) (row : Nat) : (queueRow d row).ce = d.ce ∧ (queueRow d row).retryOk = d.retryOk ∧ (queueRow d row).ue = d.ue ∧
      (queueRow d row).queue = d.queue ∧ (row ∈ (queueRow d row).remapQueue ∨ row ∈ (queueRow d row).heldRows) := by
    unfold queueRow
    split
    · next h => exact ⟨rfl, rfl, rfl, rfl, .inr (List.contains_iff_mem.mp h)⟩
    · exact ⟨rfl, rfl, rfl, rfl, .inl (mem_insertNew_self ..)⟩
  cases first with
  | clean => exact ⟨rfl, rfl, rfl, rfl, fun h => by cases h⟩
  | corrected =>
    simp only [afterReport, countCorrected]
    split
    · obtain ⟨h1, h2, h3, h4, -⟩ := hrow { c with
        ce := satInc 16 c.ce, rowCe := tset c.rowCe (rowOf off) (tget 0 c.rowCe (rowOf off) + 1) } (rowOf off)
      exact ⟨h1, h2, h3, h4, fun h => by cases h⟩
    · exact ⟨rfl, rfl, rfl, rfl, fun h => by cases h⟩
  | uncorrected =>
    obtain ⟨h1, h2, h3, h4, h5⟩ := hrow { c with retryOk := satInc 16 c.retryOk } (rowOf off)
    exact ⟨h1, h2, h3, h4, fun _ => h5⟩

/-- A line reported twice is held, with a record (R236). -/
theorem hbmRead_holds {s : State} {ch off cmd : Nat} (tagOk : Bool) (hs : serving s = true) (hw : lineWf off = true)
    (hm : (chanAt s ch).mode ≠ .fenced) (hr : (chanAt s ch).retraining = false) (h8 : s.flt.armed.contains (8, ch) = false)
    (h3 : s.flt.armed.contains (3, ch) = false) (hk : cmdAt s cmd = none) :
    ∃ dpa injected, exec (.hbmRead ch off cmd .uncorrected .uncorrected tagOk) s =
      .next (lineReported (modChan (disarm (lineCounted s ch off cmd) 3 ch) ch (fun x => holdLine x off)) ch (chanAt s ch).colony dpa injected) := by
  have hcount : lineCounted s ch off cmd = lineTaken s ch off none := by simp only [lineCounted, hk]
  have harm : ¬armed (lineTaken s ch off none) 3 ch = true := by rw [← hcount, armed_lineCounted]; exact Bool.eq_false_iff.mp h3
  have hbad : ((chanAt s ch).badLines.contains off || (EccReport.uncorrected == .uncorrected && EccReport.uncorrected == .uncorrected)) = true := Bool.or_true _
  refine ⟨dpaOf (lineTaken s ch off none) (chanAt s ch).colony (frameAddr ch off), armed (lineTaken s ch off none) 3 ch, ?_⟩
  show execHbmRead ch off cmd .uncorrected .uncorrected tagOk s = _
  simp only [execHbmRead, hbmRead_go hs hw hm hr h8, hk, hcount, Bool.false_eq_true, if_false]
  refine (if_neg harm).trans ((if_pos hbad).trans ?_)
  rw [lineReported]
  rfl

/-- Settles O33: the line's bytes and the channel's counts, each through its own step of the access. -/
theorem channelLineAccess : Obligations.ChannelLineAccess := by
  intro s ch off cmd hs _ hw hm hr h8
  refine ⟨fun data hl => ?write, fun h3 => ⟨fun first second hbad htag hrep => ?read, fun hnone tagOk => ?held⟩⟩
  case write =>
    obtain ⟨hread, hmem, hbad, hchan, hcores, hhub, hcmds, hbytes⟩ := lineStored_stores (s := s) (ch := ch) (cmdAt s cmd) hw hl
    have hexec := hbmWrite_stores data cmd hs hw hm hr h8
    cases hk : cmdAt s cmd with
    | none =>
      rw [hk] at hexec hread hmem hbad hchan hcores
      exact ⟨_, hexec, hread, hmem, hbad, hchan, hcores, fun k h => by cases h⟩
    | some x =>
      rw [hk] at hexec hread hmem hbad hchan hcores hhub hcmds hbytes
      simp only [Option.elim] at hexec
      generalize lineStored s ch off data (some x) = u at hexec hread hmem hbad hchan hcores hhub hcmds hbytes
      have hx : cmdAt u cmd = some (markShadows (frameAddr ch off) x) := by rw [hcmds, hk]; rfl
      obtain ⟨l, h, he, -⟩ := countFor_eq u cmd x.colony (fun a => { a with hbmWr := wrapAdd 64 a.hbmWr 1 })
      refine ⟨_, hexec, ?_, ?_, ?_, ?_, ?_, fun k hk' => ⟨fun hph => ?_, fun hph => ?_, ?_⟩⟩
      · rw [he]; exact hread
      · rw [he]; exact hmem
      · rw [he]; exact hbad
      · rw [he]; exact hchan
      · rw [he]; exact hcores
      · cases hk'
        have hph' : ¬(markShadows (frameAddr ch off) x).phase = .running := hph
        simp only [countFor, hx, if_neg hph']
        rw [acctAt_modAcct_same, acctAt, hhub]
        rfl
      · cases hk'
        have hph' : (markShadows (frameAddr ch off) x).phase = .running := hph
        simp only [countFor, hx, if_pos hph']
        exact ⟨_, cmdAt_setCmd_same .., rfl⟩
      · cases hk'
        rw [he]; exact hbytes x rfl
  case read =>
    obtain ⟨⟨l, h, c, f, ht⟩, hcmds, hnone, hchan, hhealth, hqueue⟩ := lineCounted_counts s ch off cmd
    have hexec := hbmRead_reads cmd hs hw hm hr h8 h3 hbad htag hrep
    simp only [Channel.health, Prod.mk.injEq] at hhealth
    obtain ⟨hce, hretry, hue, hremap, hheld, -, -⟩ := hhealth
    obtain ⟨ace, aretry, aue, aqueue, arow⟩ := afterReport_counts first off (chanAt (disarm (lineCounted s ch off cmd) 3 ch) ch)
    generalize disarm (lineCounted s ch off cmd) 3 ch = u at *
    have hu : ∃ t, exec (.hbmRead ch off cmd first second true) s = .next t ∧ (∃ d, t = { u with chans := d }) ∧
        chanAt t ch = afterReport first off (chanAt u ch) ∧ ∀ m, m ≠ ch → chanAt t m = chanAt u m := by
      refine ⟨_, hexec, ?_⟩
      split
      · next hf => subst hf; exact ⟨⟨_, rfl⟩, rfl, fun _ _ => rfl⟩
      · exact ⟨⟨_, rfl⟩, chanAt_modChan_same .., fun m hm => chanAt_modChan_other _ _ hm⟩
    obtain ⟨t, hexec, ⟨d, hd⟩, hhome, hother⟩ := hu
    refine ⟨t, hexec, ?_, ?_, fun hn => ?_, fun j hj => ?_, fun r hb hr => ?_, ?_, fun m hm => (hother m hm).trans (hchan m hm), ?_, ?_, ?_, ?_⟩
    · rw [hd, ht]
    · rw [hd, ht]
    · rw [hd]; exact hnone hn
    · rw [hd]; exact hcmds j hj
    · rw [hhome, aqueue]; exact hqueue r hb hr
    · rw [hd, ht]
    · rw [hhome, ace, hce]
    · rw [hhome, aretry, hretry]
    · rw [hhome, aue, hue]
    · rw [hhome]; exact arow
  case held =>
    obtain ⟨⟨l, h, c, f, ht⟩, hcmds, hcm, hchan, hhealth, -⟩ := lineCounted_counts s ch off cmd
    simp only [Channel.health, Prod.mk.injEq] at hhealth
    obtain ⟨-, -, hue, -⟩ := hhealth
    obtain ⟨dpa, injected, hexec⟩ := hbmRead_holds tagOk hs hw hm hr h8 h3 hnone
    generalize disarm (lineCounted s ch off cmd) 3 ch = u at *
    obtain ⟨n, p, q, o, hend⟩ := lineReported_reports (modChan u ch (fun x => holdLine x off)) ch (chanAt s ch).colony dpa injected
    have hline : chanAt (modChan u ch (fun x => holdLine x off)) ch = holdLine (chanAt u ch) off := chanAt_modChan_same ..
    have hhome : chanAt (lineReported (modChan u ch (fun x => holdLine x off)) ch (chanAt s ch).colony dpa injected) ch =
        { holdLine (chanAt u ch) off with ue := satInc 16 (chanAt u ch).ue, ueFaults := (chanAt u ch).ueFaults + 1 } := by
      rw [hend, hline]
      exact chanAt_setChan_same ..
    refine ⟨_, hexec, ?_, ?_, ?_, ?_, ?_, ?_⟩
    · rw [hend, ht]; rfl
    · rw [hhome]; exact mem_insertNew_self ..
    · rw [hhome]; exact mem_insertNew_self ..
    · rw [hhome, hue]
    · rw [hend, ht]; rfl
    · rw [hend]; exact hcm hnone

end Sys2Proof.Machine
end
section
/-! PROOFS. Maintenance of a channel (R225, R237, R238, R240 to R243, R256). -/

namespace Sys2Proof.Machine

/- What waits for no fenced unit goes on as it was (R212, R213). -/

theorem foldl_fixed_of_mem {σ α : Type} {f : σ → α → σ} {s : σ} {l : List α} (h : ∀ x ∈ l, f s x = s) : l.foldl f s = s := by
  induction l with
  | nil => rfl
  | cons x l ih =>
    rw [List.foldl_cons, h x (List.mem_cons_self ..)]
    exact ih fun y hy => h y (List.mem_cons_of_mem _ hy)

theorem colSt_of_noTeardown {s : State} (h : NoTeardown s) (n : Nat) : (colAt s n).st ≠ .resetting ∧ (colAt s n).st ≠ .teardown := by
  obtain hd | ⟨e, he, hn⟩ := tget_mem {} s.cols n
  · rw [colAt, hd]; exact ⟨by decide, by decide⟩
  · rw [colAt, ← hn]; exact h e he

theorem colonyStep_idle {s : State} (h : NoTeardown s) (n : Nat) : colonyStep s n = s := by
  obtain ⟨h1, h2⟩ := colSt_of_noTeardown h n
  cases h : (colAt s n).st with
  | resetting => exact absurd h h1
  | teardown => exact absurd h h2
  | _ => simp only [colonyStep, h]

theorem afterFence_idle {s : State} (h : NoTeardown s) : afterFence s = s := by
  have htorn : tornFenced s = s := foldl_fixed_of_mem fun e he => by
    rw [if_neg]
    simp [(h e he).2]
  rw [afterFence, htorn]
  exact foldl_fixed_of_mem fun e _ => by
    simp only [colonyProgress, colonyStep_idle h]

theorem noTeardown_congr {s t : State} (h : t.cols = s.cols) (hs : NoTeardown s) : NoTeardown t := fun e he => hs e (h ▸ he)

theorem onlyChan_modChan (s : State) (n : Nat) (f : Channel → Channel) : OnlyChan s (modChan s n f) n := onlyChan_setChan ..

/-- A view that does not look at the collector and the interrupts sees the same after a report. -/
theorem onlyReports_view {α : Type} (view : State → α) (hv : ∀ s f p o, view { s with flt := f, pcie := p, out := o } = view s) {s t : State}
    (h : OnlyReports s t) : view t = view s := by
  obtain ⟨f, p, l, rfl⟩ := h
  exact hv ..

/-- A channel that is fenced: its own state, the command that waits for it, and the records that name it (R410, R417). -/
theorem fenceUnit_channel {s : State} {ch : Nat} (status : Nat) (i : Option Nat) (hm : (chanAt s ch).mode ≠ .fenced) :
    ∃ l f c, fenceUnit s (.channel ch) status i = { s with cmds := l, flt := f, chans := tset s.chans ch c } ∧
      c.mode = .fenced ∧ c.retraining = false ∧ c.calBusy = false := by
  have hclaim : ∃ l c, fenceChannel s ch = { s with cmds := l, chans := tset s.chans ch c } ∧
      c.mode = .fenced ∧ c.retraining = false ∧ c.calBusy = false := by
    have hgo : ((chanAt s ch).mode == .fenced) = false := by simpa using hm
    simp only [fenceChannel, hgo, Bool.false_eq_true, if_false, noteTransitFence]
    split
    · unfold modCmd
      split
      · exact ⟨_, _, rfl, rfl, rfl, rfl⟩
      · exact ⟨_, _, rfl, rfl, rfl, rfl⟩
    · exact ⟨_, _, rfl, rfl, rfl, rfl⟩
  obtain ⟨l, c, hf, hmode, hret, hcal⟩ := hclaim
  have hrec : ∃ f, fenceUnit s (.channel ch) status i = { fenceChannel s ch with flt := f } := by
    cases i with
    | none => exact ⟨_, rfl⟩
    | some k =>
      simp only [fenceUnit, modRec]
      split
      · exact ⟨_, rfl⟩
      · exact ⟨_, rfl⟩
  obtain ⟨f, hf'⟩ := hrec
  exact ⟨l, f, c, by rw [hf', hf], hmode, hret, hcal⟩

/-- A FENCE fault of a channel (R409, R410, R414). -/
theorem fenceFault_channel {s : State} {ch : Nat} (cause colony status : Nat) (hm : (chanAt s ch).mode ≠ .fenced) :
    ∃ l f p o c, fenceFault s cause (.channel ch) colony status = { s with cmds := l, flt := f, pcie := p, out := o, chans := tset s.chans ch c } ∧
      c.mode = .fenced ∧ c.retraining = false ∧ c.calBusy = false := by
  unfold fenceFault
  dsimp only
  generalize nameUnit s _ _ = r
  obtain ⟨f, p, o, hr⟩ := onlyReports_recordFault s r
  generalize (recordFault s r).2 = i
  rw [hr]
  obtain ⟨l, g, c, hf, hc⟩ := fenceUnit_channel (s := { s with flt := f, pcie := p, out := s.out ++ o }) status i hm
  exact ⟨l, g, p, s.out ++ o, c, hf, hc⟩

/-- R242's rate after a slot, and what a slot leaves of the channel. -/
theorem nextRate_next (c : Channel) (want : Nat) :
    (nextRate c want).slots = c.slots ∧ (nextRate c want).margin = c.margin ∧ (nextRate c want).calBusy = c.calBusy ∧
    (c.calRate ≤ want → (nextRate c want).calRate = want) ∧ (want < c.calRate → c.calRate - 1 ≤ (nextRate c want).calRate) := by
  unfold nextRate
  split
  · next h => exact ⟨rfl, rfl, rfl, fun _ => rfl, fun h' => absurd h (by omega)⟩
  · next h =>
    split
    · exact ⟨rfl, rfl, rfl, fun h' => absurd h' h, fun _ => Nat.le_refl _⟩
    · exact ⟨rfl, rfl, rfl, fun h' => absurd h' h, fun _ => Nat.sub_le _ _⟩

/-- A row read by the scrub, before its report is looked at (R240). -/
def rowScrubbed (s : State) (ch row : Nat) : State := modChan (countBytes s ch rowSize none) ch (fun x => newPeriod x row)

theorem chanAt_rowScrubbed (s : State) (ch row : Nat) :
    chanAt (rowScrubbed s ch row) ch = newPeriod { chanAt s ch with maint := ((chanAt s ch).maint + 2176) % 2 ^ 64 } row := by
  rw [rowScrubbed, chanAt_modChan_same, countBytes_eq, chanAt_modChan_same]
  rfl

theorem hbm_rowScrubbed (s : State) (ch row : Nat) : (rowScrubbed s ch row).hbm = s.hbm := by
  rw [rowScrubbed, countBytes_eq]; rfl

theorem rowScrubbed_counts (s : State) (ch row : Nat) :
    OnlyChan s (rowScrubbed s ch row) ch ∧ (chanAt (rowScrubbed s ch row) ch).ce = (chanAt s ch).ce ∧
    (chanAt (rowScrubbed s ch row) ch).ue = (chanAt s ch).ue ∧
    (chanAt (rowScrubbed s ch row) ch).maint = ((chanAt s ch).maint + 2176) % 2 ^ 64 := by
  have hperiod (c : Channel) : (newPeriod c row).ce = c.ce ∧ (newPeriod c row).ue = c.ue ∧ (newPeriod c row).maint = c.maint := by
    unfold newPeriod
    split <;> exact ⟨rfl, rfl, rfl⟩
  obtain ⟨h1, h2, h3⟩ := hperiod { chanAt s ch with maint := ((chanAt s ch).maint + 2176) % 2 ^ 64 }
  refine ⟨⟨?_, fun m hm => ?_⟩, ?_, ?_, ?_⟩
  · rw [rowScrubbed, countBytes_eq]; rfl
  · rw [rowScrubbed, countBytes_eq, chanAt_modChan_other _ _ hm, chanAt_modChan_other _ _ hm]
  · rw [chanAt_rowScrubbed, h1]
  · rw [chanAt_rowScrubbed, h2]
  · rw [chanAt_rowScrubbed, h3]

theorem onlyChan_trans {s t u : State} {n : Nat} (h : OnlyChan s t n) (h' : OnlyChan t u n) : OnlyChan s u n := by
  obtain ⟨hs, hm⟩ := h
  obtain ⟨hs', hm'⟩ := h'
  refine ⟨?_, fun m hmn => (hm' m hmn).trans (hm m hmn)⟩
  rw [← hs, ← hs']

/-- A line corrected by the scrub is counted and written back (R236, R240). -/
theorem scrubCorrected_counts (s : State) (ch row : Nat) :
    let t := modChan (countBytes s ch 64 none) ch (fun x => countCorrected x row)
    OnlyChan s t ch ∧ (chanAt t ch).ce = satInc 16 (chanAt s ch).ce ∧ (chanAt t ch).maint = ((chanAt s ch).maint + 64) % 2 ^ 64 := by
  intro t
  have hcount (c : Channel) : (countCorrected c row).ce = satInc 16 c.ce ∧ (countCorrected c row).maint = c.maint := by
    unfold countCorrected queueRow
    dsimp only
    repeat' split
    · exact ⟨rfl, rfl⟩
    · exact ⟨rfl, rfl⟩
    · exact ⟨rfl, rfl⟩
  have ht : chanAt t ch = countCorrected { chanAt s ch with maint := ((chanAt s ch).maint + 64) % 2 ^ 64 } row := by
    dsimp only [t]
    rw [chanAt_modChan_same, countBytes_eq, chanAt_modChan_same]
    rfl
  obtain ⟨h1, h2⟩ := hcount { chanAt s ch with maint := ((chanAt s ch).maint + 64) % 2 ^ 64 }
  refine ⟨⟨?_, fun m hm => ?_⟩, by rw [ht, h1], by rw [ht, h2]⟩
  · dsimp only [t]; rw [countBytes_eq]; rfl
  · dsimp only [t]; rw [countBytes_eq, chanAt_modChan_other _ _ hm, chanAt_modChan_other _ _ hm]

/-- Settles O34: each command changes its own channel, a retrain that fails fences it. -/
theorem channelMaintenance : Obligations.ChannelMaintenance := by
  intro s ch hs hpow _ hm c
  have hbusy : (c.mode == .fenced) = false := by rw [show c.mode = .inService from hm]; rfl
  have hreset : s.boot.inReset = false := by
    simp only [serving, Bool.and_eq_true, Bool.not_eq_true'] at hs
    exact hs.1.2
  refine ⟨fun bank temp => ?refresh, fun margin slope marginOk tracking hcal hset hurg => ?slot, fun hret hno pass => ?retrain,
    fun row rest hret hq => ?remap, fun row line hret hline hw => ?scrub, fun die replays hd hr => ?replay, ?limit⟩
  case refresh =>
    have hgo : (!s.boot.powered || s.boot.inReset || (chanAt s ch).mode == .fenced) = false := by rw [hpow, hreset]; exact hbusy
    refine ⟨_, if_neg (Bool.eq_false_iff.mp hgo), onlyChan_modChan .., ?_, ?_⟩
    · rw [chanAt_modChan_same]
      dsimp only
      split <;> rfl
    · rw [chanAt_modChan_same]
      intro late
      by_cases hlate : refreshHeld c bank = true ∧ late < Config.refreshAllowance
      · rw [if_pos hlate, if_pos (by rw [Bool.and_eq_true, decide_eq_true_eq]; exact hlate)]
        exact ⟨tget_tset_same .., rfl⟩
      · rw [if_neg hlate, if_neg fun h => hlate (by rwa [Bool.and_eq_true, decide_eq_true_eq] at h)]
        exact ⟨tget_tset_same .., tget_tset_same ..⟩
  case slot =>
    intro want
    have hgo : (!serving s || (chanAt s ch).mode == .fenced || (chanAt s ch).calBusy || setBusy s ch || (chanAt s ch).urgentFirst) = false := by
      rw [hs, hset]
      simp only [c] at hbusy hcal hurg
      rw [hbusy, hcal, hurg]
      rfl
    have hrate : rateFor slope tracking = want := by
      unfold rateFor
      simp only [want]
      cases tracking <;> simp
    let c1 := nextRate { c with slots := wrapAdd 16 c.slots 1, margin := margin % 256 } want
    have hexec : exec (.calibrationSlot ch margin slope marginOk tracking) s = .next (setChan s ch
        (if marginOk then slotEnds c1 else { c1 with retraining := true, calBusy := true, retrains := satInc 8 c1.retrains })) := by
      show execCalibrationSlot ch margin slope marginOk tracking s = _
      simp only [execCalibrationSlot, hgo, hrate, Bool.false_eq_true, if_false]
      rfl
    obtain ⟨h1, h2, h3, h4, h5⟩ := nextRate_next { c with slots := wrapAdd 16 c.slots 1, margin := margin % 256 } want
    refine ⟨_, hexec, onlyChan_setChan .., ?_⟩
    rw [chanAt_setChan_same]
    cases marginOk with
    | true => exact ⟨h1, h2, h4, h5, h3.trans hcal, fun h => by cases h⟩
    | false => exact ⟨h1, h2, h4, h5, rfl, fun _ => rfl⟩
  case retrain =>
    have hgo : (!serving s || !(chanAt s ch).retraining) = false := by rw [hs]; simpa using hret
    cases pass with
    | true =>
      refine ⟨_, if_neg (Bool.eq_false_iff.mp hgo), ?_, ?_, ?_, rfl, rfl⟩
      all_goals rw [if_pos rfl, chanAt_setChan_same]
      · rfl
      · rfl
      · exact hm
    | false =>
      let s1 := setChan s ch (slotEnds { chanAt s ch with retraining := false, calBusy := false })
      have hmode : (chanAt s1 ch).mode ≠ .fenced := by
        dsimp only [s1]
        rw [chanAt_setChan_same]
        exact fun h => by rw [show (chanAt s ch).mode = .inService from hm] at h; cases h
      obtain ⟨l, f, p, o, d, hf, h1, h2, h3⟩ := fenceFault_channel 0x20 (chanAt s ch).colony 0x09 hmode
      have hexec : exec (.retrainDone ch false) s = .next (afterFence (fenceFault s1 0x20 (.channel ch) (chanAt s ch).colony 0x09)) :=
        if_neg (Bool.eq_false_iff.mp hgo)
      rw [hf] at hexec
      refine ⟨_, hexec.trans (next_congr (afterFence_idle (noTeardown_congr (s := s) rfl hno))), ?_, ?_, ?_, rfl, rfl⟩
      all_goals rw [chanAt, tget_tset_same]
      · exact h2
      · exact h3
      · exact h1
  case remap =>
    have hret' : (chanAt s ch).retraining = false := hret
    have hq' : (chanAt s ch).remapQueue = row :: rest := hq
    have hgo : (!serving s || (chanAt s ch).mode == .fenced || (chanAt s ch).retraining) = false := by rw [hs, hret']; simpa using hbusy
    have hexec : exec (.remapCopy ch) s = execRemapCopy ch s := rfl
    by_cases hspare : c.spareNext < 16384
    · have hspare' : (chanAt s ch).spareNext < spareRows := hspare
      simp only [execRemapCopy, hq', hgo, if_pos hspare', Bool.false_eq_true, if_false] at hexec
      refine ⟨_, hexec, ?_, rfl, rfl, fun _ => ⟨onlyChan_setChan .., ?_, ?_, fun r hr => ?_⟩, fun h => absurd hspare (Nat.not_lt.mpr h)⟩
      all_goals rw [chanAt_setChan_same]
      · exact tfind_tset_same ..
      · exact tfind_tset_other _ _ hr
    · have hspare' : ¬(chanAt s ch).spareNext < spareRows := hspare
      simp only [execRemapCopy, hq', hgo, if_neg hspare', Bool.false_eq_true, if_false] at hexec
      have hrep : OnlyReports (setChan s ch { chanAt s ch with remapQueue := rest, sparesReported := true })
          (if (chanAt s ch).sparesReported then setChan s ch { chanAt s ch with remapQueue := rest, sparesReported := true } else
          (recordFault (setChan s ch { chanAt s ch with remapQueue := rest, sparesReported := true }) (blankRec 0x30 0 (.channel ch) (chanAt s ch).colony)).1) := by
        split
        · exact onlyReports_flt _ _
        · exact onlyReports_recordFault ..
      have hchan := (onlyReports_view (chanAt · ch) (fun _ _ _ _ => rfl) hrep).trans (chanAt_setChan_same ..)
      dsimp only at hchan
      refine ⟨_, hexec, ?_, (onlyReports_view State.hbm (fun _ _ _ _ => rfl) hrep).trans rfl,
        (onlyReports_view State.cores (fun _ _ _ _ => rfl) hrep).trans rfl, fun h => absurd h hspare, fun _ => ⟨?_, ?_⟩⟩
      all_goals rw [hchan]
  case scrub =>
    have hret' : (chanAt s ch).retraining = false := hret
    have hoff : ¬0x76000000 ≤ 2048 * row + 64 * line := by
      simp only [lineWf, Bool.and_eq_true, decide_eq_true_eq] at hw
      exact Nat.not_le.mpr hw.2
    have hgo : (!serving s || (chanAt s ch).mode != .inService || (chanAt s ch).retraining || decide (0x76000000 ≤ 2048 * row + 64 * line) || decide (32 ≤ line)) = false := by
      rw [hs, hret', show (chanAt s ch).mode = .inService from hm, decide_eq_false hoff, decide_eq_false (Nat.not_le.mpr hline)]
      rfl
    have hx (report : EccReport) : exec (.patrolScrub ch row line report) s = execPatrolScrub ch row line report s := rfl
    obtain ⟨hone, hce, hue, hmaint⟩ := rowScrubbed_counts s ch row
    have hclean {report : EccReport} (h : 2048 * row + 64 * line ∉ (chanAt s ch).badLines) :
        (if (chanAt s ch).badLines.contains (2048 * row + 64 * line) then EccReport.uncorrected else report) = report :=
      if_neg (mt List.contains_iff_mem.mp h)
    refine ⟨fun hbad => ?clean, fun hbad => ?corrected, fun report hbad => ?uncorrected⟩
    case clean =>
      have hexec := hx .clean
      simp only [execPatrolScrub, hgo, hclean hbad, Bool.false_eq_true, if_false] at hexec
      exact ⟨_, hexec, hone, hce, hmaint⟩
    case corrected =>
      have hexec := hx .corrected
      simp only [execPatrolScrub, hgo, hclean hbad, Bool.false_eq_true, if_false] at hexec
      obtain ⟨h1, h2, h3⟩ := scrubCorrected_counts (rowScrubbed s ch row) ch row
      exact ⟨_, hexec, onlyChan_trans hone h1, h2.trans (by rw [hce]), h3.trans (by rw [hmaint, Nat.mod_add_mod, Nat.add_assoc])⟩
    case uncorrected =>
      have hexec := hx report
      have hrep : (if (chanAt s ch).badLines.contains (2048 * row + 64 * line) then EccReport.uncorrected else report) = .uncorrected := by
        obtain rfl | h := hbad
        · exact ite_self _
        · exact if_pos (List.contains_iff_mem.mpr h)
      simp only [execPatrolScrub, hgo, hrep, Bool.false_eq_true, if_false] at hexec
      have hchan : chanAt (modChan (rowScrubbed s ch row) ch (fun x => { holdLine x (2048 * row + 64 * line) with scrubRows := insertNew x.scrubRows row })) ch =
          { holdLine (chanAt (rowScrubbed s ch row) ch) (2048 * row + 64 * line) with scrubRows := insertNew (chanAt (rowScrubbed s ch row) ch).scrubRows row } :=
        chanAt_modChan_same ..
      obtain ⟨n, hend⟩ := lineReported_reports (modChan (rowScrubbed s ch row) ch
        (fun x => { holdLine x (2048 * row + 64 * line) with scrubRows := insertNew x.scrubRows row })) ch (chanAt s ch).colony
        (dpaOf (rowScrubbed s ch row) (chanAt s ch).colony (frameAddr ch (2048 * row + 64 * line))) false
      have hhome := onlyReports_view (chanAt · ch) (fun _ _ _ _ => rfl) hend
      dsimp only at hhome
      rw [chanAt_setChan_same, hchan] at hhome
      refine ⟨lineReported _ ch (chanAt s ch).colony _ false, hexec, ?_, ?_, ?_, ?_⟩
      · exact (onlyReports_view State.hbm (fun _ _ _ _ => rfl) hend).trans (hbm_rowScrubbed s ch row)
      · exact (congrArg Channel.ue hhome).trans (congrArg (satInc 16) hue)
      · exact (congrArg Channel.scrubRows hhome).symm ▸ mem_insertNew_self ..
      · exact (congrArg Channel.badLines hhome).symm ▸ mem_insertNew_self ..
  case replay =>
    have hgo : (!serving s || s.flt.quar.contains die) = false := by simpa [hs] using hd
    refine ⟨modMesh s die (fun m => { m with replays := satAdd 32 m.replays replays }), ?_, ?_, rfl⟩
    · show execMeshFlitReplay die replays s = _
      simp only [execMeshFlitReplay, hgo, if_pos hr, Bool.false_eq_true, if_false]
    · rw [meshAt_modMesh_same]
  case limit =>
    have hgo : (!serving s || (chanAt s ch).mode == .fenced) = false := by rw [hs]; exact hbusy
    have h := onlyReports_recordFault (modChan s ch (fun c => { c with limit := true })) (blankRec 0x31 0 (.channel ch) (chanAt s ch).colony)
    refine ⟨_, if_neg (Bool.eq_false_iff.mp hgo), ?_, (onlyReports_view State.hbm (fun _ _ _ _ => rfl) h).trans rfl,
      (onlyReports_view State.cmds (fun _ _ _ _ => rfl) h).trans rfl, fun m hm => ?_⟩
    · rw [onlyReports_view (chanAt · ch) (fun _ _ _ _ => rfl) h, chanAt_modChan_same]
    · rw [onlyReports_view (chanAt · m) (fun _ _ _ _ => rfl) h, chanAt_modChan_other _ _ hm]

end Sys2Proof.Machine
end

section
/-! PROOFS. Kills and their ends (R33 to R38, R179, R182). -/

namespace Sys2Proof.Machine

/-- A killed core of number 640 in its wipe. The agent of that number is control core 0, whose cache shares a line that a non-coherent
write waits for. -/
def killed640 : State :=
  { boot := servingBoot, cores := [(640, { st := .killed, wipeBusy := true, pend1 := 0x3F, pend2 := 0x3F })]
    chans := [(0, { dir := [{ offset := 0, st := .invalidating, acks := [640], pendAgent := 0, pendKind := .ncw, pendData := [1] }] })]
    hub := { ctrlLines := [(0, [{ channel := 0, offset := 0, mode := .shared, data := [] }])] } }

/-- Refutes O36: the statement does not say `n < 640`; the agents from 640 on are the control cores, whose lines leave with the wipe,
and a write that waited for one of them then reaches HBM. -/
theorem not_killsComplete : ¬ Obligations.KillsComplete := by
  intro h
  obtain ⟨hnone, -⟩ := h killed640 640 (by decide) (by unfold NoTeardown; decide) (by decide) (by decide) (by decide) (by decide)
    (by decide) (by decide) (by decide) (by decide)
  obtain ⟨t, hx, hwiped, -⟩ := hnone (by decide)
  obtain ⟨-, -, -, -, -, -, -, -, -, -, -, hbm⟩ := hwiped
  have written : exec (.killComplete 640 true) killed640 = .next t → t.hbm ≠ killed640.hbm := by
    intro e
    cases e
    decide
  exact written hx hbm

end Sys2Proof.Machine
end

section
/-! PROOFS. Movement commands (R146, R165, R169). -/

namespace Sys2Proof.Machine

/-- Copy engines taken for a command (R169). -/
def engagedFor (s : State) (id : Nat) (es : List Nat) : State :=
  es.foldl (fun t e => modEngine t e (fun x => { x with cmd := some id, want := none })) s

theorem engineAt_modEngine_ne (s : State) {n m : Nat} (f : CopyEngine → CopyEngine) (h : m ≠ n) :
    engineAt (modEngine s n f) m = engineAt s m := tget_tset_other (d := ({} : CopyEngine)) s.hub.engines _ h

/-- Taking engines changes nothing but the engines taken. -/
theorem engagedFor_engages (s : State) (id : Nat) (es : List Nat) :
    (∃ x, engagedFor s id es = { s with hub := { s.hub with engines := x } }) ∧
    (∀ e ∈ es, (engineAt (engagedFor s id es) e).cmd = some id) ∧ (∀ e, e ∉ es → engineAt (engagedFor s id es) e = engineAt s e) := by
  induction es generalizing s with
  | nil => exact ⟨⟨_, rfl⟩, by simp, fun _ _ => rfl⟩
  | cons n es ih =>
    obtain ⟨⟨x, hx⟩, hin, hout⟩ := ih (modEngine s n (fun x => { x with cmd := some id, want := none }))
    refine ⟨⟨x, hx⟩, fun e he => ?_, fun e he => ?_⟩
    · by_cases hr : e ∈ es
      · exact hin e hr
      · obtain rfl : e = n := by simpa [hr] using he
        exact (congrArg CopyEngine.cmd (hout e hr)).trans (by rw [engineAt_modEngine_same])
    · rw [List.mem_cons, not_or] at he
      exact (hout e he.2).trans (engineAt_modEngine_ne _ _ he.1)

/-- A movement command's attempt that begins (R164, R169). -/
def moving (s : State) (c : Cmd) (fs : List Frames) : Cmd :=
  { c with phase := .running, reserve := fs, engines := (idleEngines s).take 4, moved := 0, buffer := [], attempts := c.attempts + 1
           startTick := s.ticks, attemptNs := 0, use := {}, cls := copyClass s c }

/-- A movement command that begins: its reserve and its engines are taken (R165, R169). -/
def movementBegun (s : State) (id : Nat) (c : Cmd) (fs : List Frames) (col : Colony) : State :=
  engagedFor (setCmd (setCol s c.colony col) id (moving s c fs)) id ((idleEngines s).take 4)

theorem startMove_begins {s : State} {id : Nat} {c : Cmd} {fs : List Frames} {col : Colony} (hcon : conflicted s id c = false)
    (hidle : idleEngines s ≠ []) (hres : reserveOf (colAt s c.colony) (needOf (touchedPages (colAt s c.colony) c.regions)) = .taken fs col) :
    startMove s id c = movementBegun s id c fs col := by
  have hes : ((idleEngines s).take 4).isEmpty = false := by
    cases h : idleEngines s with
    | nil => exact absurd h hidle
    | cons e es => rfl
  simp only [startMove, hcon, hres, hes, Bool.false_eq_true, if_false]
  rfl

/-- What a movement command has when it begins. -/
theorem movementBegun_starts (s : State) (id : Nat) (c : Cmd) (fs : List Frames) (col : Colony) :
    let es := (idleEngines s).take 4
    let t := movementBegun s id c fs col
    (∃ k, cmdAt t id = some k ∧ k.phase = .running ∧ k.reserve = fs ∧ k.engines = es ∧ k.moved = 0 ∧ k.attempts = c.attempts + 1 ∧ k.iv = c.iv) ∧
    (∀ e ∈ es, (engineAt t e).cmd = some id) ∧ (∀ e, e ∉ es → engineAt t e = engineAt s e) ∧
    (colAt t c.colony).pool = col.pool ∧ (∀ j, j ≠ id → cmdAt t j = cmdAt s j) ∧ t.cores = s.cores ∧ t.hbm = s.hbm ∧ t.sec = s.sec := by
  intro es t
  obtain ⟨⟨x, hx⟩, hin, hout⟩ := engagedFor_engages (setCmd (setCol s c.colony col) id (moving s c fs)) id es
  have ht : t = _ := hx
  refine ⟨⟨moving s c fs, ?_, rfl, rfl, rfl, rfl, rfl, rfl⟩, hin, hout, ?_, fun j hj => ?_, ?_, ?_, ?_⟩
  all_goals rw [ht]
  · exact tfind_tset_same ..
  · exact congrArg Colony.pool (tget_tset_same ..)
  · exact tfind_tset_other _ _ hj
  · rfl
  · rfl
  · rfl

/-- Settles O38. -/
theorem movementsStart : Obligations.MovementsStart := by
  intro s id c fs col hc hstart hcon hidle hres es starts
  have begins (iv : Nat) : startMove s id { c with iv := iv } = movementBegun s id { c with iv := iv } fs col :=
    startMove_begins (c := { c with iv := iv }) hcon hidle hres
  have started (iv : Nat) : starts (movementBegun s id { c with iv := iv } fs col) ∧
      ∃ k, cmdAt (movementBegun s id { c with iv := iv } fs col) id = some k ∧ k.iv = iv ∧ k.phase = .running := by
    obtain ⟨⟨k, hk, hphase, hreserve, hengines, hmoved, hattempts, hiv⟩, hin, hout, hpool, hother, hcores, hhbm, -⟩ :=
      movementBegun_starts s id { c with iv := iv } fs col
    exact ⟨⟨⟨k, hk, hphase, hreserve, hengines, hmoved, hattempts⟩, List.length_take_le .., hin, hout, hpool, hother, hcores, hhbm⟩, k, hk, hiv, hphase⟩
  refine ⟨fun hop => ⟨_, next_congr ((direct_body hc hop hstart _).trans (begins c.iv)), (started c.iv).1⟩,
    fun hop => ⟨_, next_congr ((direct_body hc hop hstart _).trans (begins c.iv)), (started c.iv).1⟩,
    fun hop hlife hslot => ?_, fun iv hop hslot hfirst hstores => ?_⟩
  · obtain ⟨hst, k, hk, hiv, -⟩ := started (c.byte 48 12)
    refine ⟨_, next_congr ((direct_body hc hop hstart _).trans ?_), hst, k, hk, hiv⟩
    rw [if_neg hlife, if_neg (by rw [hslot]; decide)]
    exact begins _
  · obtain ⟨hst, k, hk, hiv, hphase⟩ := started (iv % 2 ^ 96)
    have hsec : slotAt (movementBegun s id { c with iv := iv % 2 ^ 96 } fs col) c.slot = slotAt s c.slot := by
      obtain ⟨-, -, -, -, -, -, -, hsec⟩ := movementBegun_starts s id { c with iv := iv % 2 ^ 96 } fs col
      rw [slotAt, hsec]; rfl
    have hrun : c.attempts = 0 ∧ (cmdAt (movementBegun s id { c with iv := iv % 2 ^ 96 } fs col) id).any (fun x => x.phase == .running) = true := by
      rw [hk]; exact ⟨hfirst, by simp [hphase]⟩
    refine ⟨modSlot (movementBegun s id { c with iv := iv % 2 ^ 96 } fs col) c.slot (fun k => { k with stores := k.stores + 1 }),
      next_congr ((direct_body hc hop hstart _).trans ?_), hst, ?_, k, hk, hiv⟩
    · have hroom : ¬(decide (c.attempts = 0) && decide (2 ^ 32 ≤ (slotAt s c.slot).stores)) = true := by
        rw [decide_eq_false (Nat.not_le.mpr hstores), Bool.and_false]
        exact Bool.false_ne_true
      rw [if_neg (by rw [hslot]; decide), if_neg hroom, if_pos hfirst, begins]
      exact if_pos hrun
    · rw [slotAt, modSlot, tget_tset_same, hsec]

end Sys2Proof.Machine
end

section
/-! PROOFS. Register writes of the host (R11, R12, R478, R479). -/

namespace Sys2Proof.Machine

/-- A register file's offset holds its element (R11). -/
theorem elemAt_elem {base stride count i : Nat} (hi : i < count) (hs : 0 < stride) : elemAt (base + stride * i) base stride count = some i := by
  have h : base ≤ base + stride * i ∧ base + stride * i < base + stride * count ∧ (base + stride * i - base) % stride = 0 :=
    ⟨Nat.le_add_right .., Nat.add_lt_add_left (Nat.mul_lt_mul_of_pos_left hi hs) _, by simp⟩
  rw [elemAt, if_pos h, Nat.add_sub_cancel_left, Nat.mul_div_cancel_left _ hs]

theorem ranged_eq (new lo hi old : Nat) : ranged new lo hi old = if lo ≤ new ∧ new ≤ hi then new else old := rfl

/-- An access of the PF to its BAR0 reaches the registers. -/
theorem pf_supported {s : State} {off : Nat} (hf : fnLive s .pf = true) (ho : off < 0x100000) : unsupported s .pf 0 off = false := by
  have hd3 : s.pcie.d3.contains (fnIndex .pf) = false := by
    simp only [fnLive, Bool.and_eq_true, Bool.not_eq_true'] at hf
    exact hf.1.2
  simp only [unsupported, hd3, ho, decide_true, beq_self_eq_true, Bool.and_true, Bool.true_or, Bool.not_true, Bool.or_false, Bool.and_false]

/-- A whole write to a register of the PF in service goes to its block (R478). -/
theorem registerWrite_writes {s : State} {off : Nat} {v : Word} (hs : serving s = true) (hf : fnLive s .pf = true) (ho : off < 0x100000)
    (ha : off % 8 = 0) : exec (.registerWrite .pf 0 off v 8) s = .next (blockWrite off v s) := by
  have hw : wholeWrite off 8 = true := by simp [wholeWrite, ha]
  have hp : pfWrites s = true := by rw [pfWrites, hs, hf]; rfl
  show execRegisterWrite .pf 0 off v 8 s = _
  simp only [execRegisterWrite, pf_supported hf ho, hw, hp, Bool.not_true, Bool.false_eq_true, if_false, if_true]

theorem limitOf_trkLim_same (s : State) (c n : Nat) : limitOf (modHub s (fun h => { h with trkLim := tset h.trkLim c n })) c = n := tget_tset_same ..
theorem limitOf_trkLim_other (s : State) {c d : Nat} (n : Nat) (h : d ≠ c) :
    limitOf (modHub s (fun h => { h with trkLim := tset h.trkLim c n })) d = limitOf s d := tget_tset_other (d := 256) s.hub.trkLim _ h

/-- Settles O57. -/
theorem registerWrites : Obligations.RegisterWrites := by
  intro s v hs hf writes f
  have hfield (hi lo : Nat) (h : lo ≤ hi) : field v hi lo = f hi lo := by
    rw [field_eq]
    show _ = v.toNat / 2 ^ lo % 2 ^ (hi - lo + 1)
    rw [show hi + 1 - lo = hi - lo + 1 by omega]
  have writes_block {off : Nat} {t : State} (ho : off < 0x100000) (ha : off % 8 = 0) (ht : blockWrite off v s = t) : writes off t :=
    (registerWrite_writes hs hf ho ha).trans (next_congr ht)
  refine ⟨fun off size ho hbad => ?partly, ?npLimit, fun c hc => ?trkLim, fun p hp => ?bond, fun i hi => ?route, fun n hn => ?err, ?faults⟩
  case partly =>
    have hw : wholeWrite off size = false := by simpa [wholeWrite, imp_iff_not_or] using hbad
    show execRegisterWrite .pf 0 off v size s = _
    simp only [execRegisterWrite, pf_supported hf ho, hw, Bool.not_false, Bool.false_eq_true, if_false, if_true]
  case npLimit =>
    refine ⟨_, writes_block (by decide) (by decide) rfl, rfl, ?_⟩
    show { s.hub with npLimit := ranged (field v 10 0) 1 2000 s.hub.npLimit } = _
    rw [ranged_eq, hfield 10 0 (by decide)]
  case trkLim =>
    have hwrite : blockWrite (0x1000 + 8 * c) v s = modHub s (fun h => { h with trkLim := tset h.trkLim c (ranged (field v 11 0) 1 3840 (limitOf s c)) }) := by
      rw [blockWrite, if_pos (by omega), hubWrite, elemAt_elem hc (by decide)]
    refine ⟨_, writes_block (by omega) (by omega) hwrite, rfl, ?_, fun d hd => limitOf_trkLim_other s _ hd⟩
    rw [limitOf_trkLim_same, ranged_eq, hfield 11 0 (by decide)]
  case bond =>
    have hwrite : blockWrite (0x40000 + 0x100 * p + 0x38) v s = modPort s p (fun q => { q with bond := ranged (field v 3 0) 0 8 q.bond }) := by
      rw [blockWrite, if_neg (by omega), if_neg (by omega), if_neg (by omega), if_neg (by omega), if_neg (by omega), if_neg (by omega),
        if_neg (by omega), if_neg (by omega), if_neg (by omega), if_pos (by omega), zltWrite, if_pos (by omega),
        show (0x40000 + 0x100 * p + 0x38 - 0x40000) / 0x100 = p by omega, show (0x40000 + 0x100 * p + 0x38 - 0x40000) % 0x100 = 0x38 by omega]
      rfl
    refine ⟨_, writes_block (by omega) (by omega) hwrite, ⟨rfl, fun m hm => tget_tset_other (d := ({} : Port)) s.ports _ hm⟩, ?_⟩
    rw [portAt_modPort_same, ranged_eq, hfield 3 0 (by decide)]
    simp only [Nat.zero_le, true_and]
  case route =>
    have hwrite : blockWrite (0x38000 + 8 * i) v s = { s with fab := { s.fab with routes := tset s.fab.routes i v } } := by
      have hdata : elemAt (0x38000 + 8 * i - 0x30000) 0x020 8 4 = none := if_neg (by omega)
      have hroute : elemAt (0x38000 + 8 * i - 0x30000) 0x8000 8 4096 = some i := by
        rw [show 0x38000 + 8 * i - 0x30000 = 0x8000 + 8 * i by omega]
        exact elemAt_elem hi (by decide)
      rw [blockWrite, if_neg (by omega), if_neg (by omega), if_neg (by omega), if_neg (by omega), if_neg (by omega), if_neg (by omega),
        if_neg (by omega), if_neg (by omega), if_pos (by omega), fabWrite]
      simp only [hdata, hroute]
    exact ⟨_, writes_block (by omega) (by omega) hwrite, rfl, tget_tset_same .., fun j hj => tget_tset_other (d := (0 : Word)) s.fab.routes _ hj⟩
  case err =>
    have hwrite : blockWrite (0x60000 + 0x100 * n + 0x18) v s = modCore s n (fun c => { c with err := c.err &&& ~~~(v.setWidth 8) }) := by
      rw [blockWrite, if_neg (by omega), if_neg (by omega), if_neg (by omega), if_neg (by omega), if_neg (by omega), if_neg (by omega),
        if_neg (by omega), if_neg (by omega), if_neg (by omega), if_neg (by omega), if_neg (by omega), if_pos (by omega), coreWrite,
        show (0x60000 + 0x100 * n + 0x18 - 0x60000) / 0x100 = n by omega, show (0x60000 + 0x100 * n + 0x18 - 0x60000) % 0x100 = 0x18 by omega]
      rfl
    exact ⟨_, writes_block (by omega) (by omega) hwrite, ⟨rfl, fun m hm => coreAt_modCore_other s _ hm⟩, coreAt_modCore_same ..⟩
  case faults =>
    refine ⟨_, writes_block (by decide) (by decide) rfl, rfl, rfl, hfield 6 1 (by decide), rfl, ?_, ?_⟩
    · show ranged (field v 14 8) 1 100 s.flt.winMs = _
      rw [ranged_eq, hfield 14 8 (by decide)]
    · show ranged (field v 25 16) 1 1000 s.flt.hangWin = _
      rw [ranged_eq, hfield 25 16 (by decide)]

end Sys2Proof.Machine
end

section
/-! PROOFS. SAMPLE into a frame that another command holds (R151, R165, R168). -/

namespace Sys2Proof.Machine

/- A line written at its home is marked in every command whose shadow frames hold it (R168). -/

theorem cmdAt_homeWrite (s : State) (cls ch off : Nat) (data : List Byte) (j : Nat) :
    cmdAt (homeWrite s cls ch off data) j = (cmdAt s j).map (markShadows (lineBase (frameAddr ch off))) := by
  have hwrite : cmdAt (writeLine s (frameAddr ch off) data) j = (cmdAt s j).map (markShadows (lineBase (frameAddr ch off))) := by
    unfold writeLine
    dsimp only
    rw [cmdAt_markWritten]
    split <;> rfl
  have htouch : cmdAt (sliceTouch (writeLine s (frameAddr ch off) data) cls ch off true) j =
      (cmdAt s j).map (markShadows (lineBase (frameAddr ch off))) := by
    obtain ⟨f, -, e⟩ := sliceTouch_eq (writeLine s (frameAddr ch off) data) cls ch off true
    rw [e]
    split <;> exact hwrite
  unfold homeWrite
  dsimp only
  split <;> exact htouch

theorem cmdAt_ncWriteLine (s : State) (cls fa : Nat) (data : List Byte) (j : Nat) :
    ∃ a, cmdAt (ncWriteLine s cls fa data) j = (cmdAt s j).map (markShadows a) := ⟨_, cmdAt_homeWrite ..⟩

/-- Command `j` has a shadow frame with a written line. -/
def HasWritten (s : State) (j : Nat) : Prop := ∃ k, cmdAt s j = some k ∧ k.shadows.any (fun sh => !sh.lines.isEmpty) = true

theorem insertSorted_ne_nil (l : List Nat) (x : Nat) : (insertSorted l x).isEmpty = false := by
  cases l with
  | nil => rfl
  | cons y l =>
    simp only [insertSorted]
    repeat' split
    all_goals rfl

theorem hasWritten_markShadows {k : Cmd} (a : Nat) (h : k.shadows.any (fun sh => !sh.lines.isEmpty) = true) :
    (markShadows a k).shadows.any (fun sh => !sh.lines.isEmpty) = true := by
  obtain ⟨sh, hsh, hl⟩ := List.any_eq_true.mp h
  refine List.any_eq_true.mpr ⟨_, List.mem_map_of_mem hsh, ?_⟩
  split
  · rw [insertSorted_ne_nil]; rfl
  · exact hl

theorem hasWritten_shadowWrite {s : State} {id j : Nat} (va : Nat) (data : List Byte) (hj : j ≠ id) (h : HasWritten s j) :
    HasWritten (shadowWrite s id va data) j := by
  have written {t : State} (cls fa : Nat) (ht : cmdAt t j = cmdAt s j) : HasWritten (ncWriteLine t cls fa data) j := by
    obtain ⟨k, hk, hw⟩ := h
    obtain ⟨a, ha⟩ := cmdAt_ncWriteLine t cls fa data j
    exact ⟨markShadows a k, by rw [ha, ht, hk]; rfl, hasWritten_markShadows a hw⟩
  unfold shadowWrite
  repeat' split
  · exact h
  · next hb =>
    refine written _ _ ?_
    unfold bindShadow at hb
    repeat' split at hb
    · cases hb
    · cases hb; rfl
    · cases hb
    · cases hb; exact cmdAt_setCmd_other _ _ hj
  · exact h
  · exact h

theorem hasWritten_shadowWriteAll {s : State} {id j : Nat} (va n : Nat) (data : List Byte) (hj : j ≠ id) (h : HasWritten s j) :
    HasWritten (shadowWriteAll s id va n data) j := by
  induction n generalizing s va data with
  | zero => exact h
  | succ n ih => exact ih _ _ (hasWritten_shadowWrite va _ hj h)

/-- A SAMPLE of command 1 into the page at 0. -/
def sampling : Cmd := { page := 1, ring := 0, pkt := 0x71 :: zeros 63, colony := 1, phase := .fetched, target := some 1 }

/-- The running LAUNCH of core 0 that SAMPLE looks at, with a shadow frame. -/
def sampledLaunch : Cmd := { launchOn 0 with shadows := [{ dpa := 0x20000, size := 65536, frame := 0x10000 }] }

/-- A colony of one page, whose pool holds that frame too. -/
def sampledState : State :=
  { boot := servingBoot
    cmds := [(0, sampling), (1, sampledLaunch)]
    cols := [(1, { st := .active, cur := { valid := true, channels := List.range 16 }, pool := [⟨0, 0x10000, 65536⟩], ptes := [⟨0, 0, 0, true, true, false⟩] })] }

/-- The body of a command whose output pages take frames (R165). -/
theorem reserved_body {s : State} {id : Nat} {c : Cmd} {fs : List Frames} {col : Colony} (hd : destOk s c = true) (hcon : conflicted s id c = false)
    (hres : reserveOf (colAt s c.colony) (needOf (touchedPages (colAt s c.colony) c.regions)) = .taken fs col) (body : State → State) :
    reserved s id c body = body (modCmd (setCol s c.colony col) id (fun x => { x with reserve := fs, attempts := max 1 x.attempts })) := by
  simp only [reserved, hd, hcon, hres, Bool.not_true, Bool.false_eq_true, if_false]

/-- SAMPLE's state once its frames are taken, and its first line (R151, R165). -/
def samplingState (s : State) (id : Nat) (c : Cmd) (fs : List Frames) (col : Colony) (x : Cmd) : State :=
  modCmd (setCol (setCmd s id { c with regions := [(c.byte 24 8, 65536 * x.cores.length)] }) c.colony col) id
    (fun x => { x with reserve := fs, attempts := max 1 x.attempts })

def firstSampleLine (u : State) (id : Nat) (c x : Cmd) : State :=
  shadowWrite u id (c.byte 24 8) (padTo 64 ((x.cores.flatMap (fun n => coreSample u n x.samples)).take 64))

/-- What the first line of a SAMPLE marks stays marked. -/
theorem hasWritten_sampleInto {s : State} {id j : Nat} {c x : Cmd} {fs : List Frames} {col : Colony}
    (hd : destOk (setCmd s id { c with regions := [(c.byte 24 8, 65536 * x.cores.length)] }) { c with regions := [(c.byte 24 8, 65536 * x.cores.length)] } = true)
    (hcon : conflicted (setCmd s id { c with regions := [(c.byte 24 8, 65536 * x.cores.length)] }) id
      { c with regions := [(c.byte 24 8, 65536 * x.cores.length)] } = false)
    (hres : reserveOf (colAt s c.colony) (needOf (touchedPages (colAt s c.colony) [(c.byte 24 8, 65536 * x.cores.length)])) = .taken fs col)
    (hx : x.cores ≠ []) (hj : j ≠ id) (h : HasWritten (firstSampleLine (samplingState s id c fs col x) id c x) j) :
    HasWritten (sampleInto s id c x) j := by
  obtain ⟨m, hm⟩ : ∃ m, 1024 * x.cores.length = m + 1 := Nat.exists_eq_add_one.mpr (by have := List.length_pos_of_ne_nil hx; omega)
  have hwrites := hasWritten_shadowWriteAll (c.byte 24 8 + 64) m
    ((x.cores.flatMap (fun n => coreSample (samplingState s id c fs col x) n x.samples)).drop 64) hj h
  unfold sampleInto
  dsimp only
  rw [reserved_body hd hcon hres, hm]
  obtain ⟨k, hk, hw⟩ := hwrites
  refine ⟨k, ?_, hw⟩
  rw [modCmd]
  split
  · exact (cmdAt_setCmd_other _ _ hj).trans hk
  · exact hk

theorem sample_running {s : State} {id k : Nat} {c x : Cmd} (hc : cmdAt s id = some c) (hop : c.op = 0x71) (hs : canStart s id c = true)
    (hx : sampleTarget s id c = some (k, x)) (hcol : x.colony = c.colony) (hl : x.isLaunch = true) (hph : x.phase = .running) :
    exec (.sample id) s = .next (sampleInto s id c x) := by
  refine (congrArg Host.Outcome.next (directOrWaiting_body hc hop hs _)).trans ?_
  simp only [hx, hcol, hl, hph, bne_self_eq_false, Bool.not_true, Bool.false_eq_true, if_false]

theorem sample_writes : ∃ u, exec (.sample 0) sampledState = .next u ∧ HasWritten u 1 :=
  ⟨_, sample_running (c := sampling) (x := sampledLaunch) rfl (by decide) (by decide) rfl rfl rfl rfl,
    hasWritten_sampleInto (s := sampledState) (id := 0) (c := sampling) (x := sampledLaunch) (fs := [⟨0, 0x10000, 65536⟩])
      (col := { colAt sampledState 1 with pool := [] }) (by decide) (by decide) (by rfl) (by decide) (by decide) ⟨_, rfl, by decide⟩⟩

set_option maxRecDepth 20000 in
/-- Refutes O50: the pool may hold a frame that another command has as a shadow frame; SAMPLE's lines are then marked in it. -/
theorem not_faultCommands : ¬ Obligations.FaultCommands := by
  intro h
  obtain ⟨hcmd, -⟩ := h sampledState
  obtain ⟨-, -, hsample, -⟩ := hcmd 0 sampling (by decide) (by decide) (by unfold Alone; decide)
  obtain ⟨t, y, hx, -, -, -, hother, -⟩ := hsample 1 _ _ _ (by decide) (show _ = some (1, _) from rfl) (by decide) (by decide) (by decide)
    (by decide) (by decide) (show _ = Reserve.taken _ _ from rfl)
  obtain ⟨u, hu, k, hk, hw⟩ := sample_writes
  obtain rfl : t = u := by rw [hx] at hu; exact Host.Outcome.next.inj hu
  have hsame : cmdAt sampledState 1 = some k := (hother 1 (by decide)).symm.trans hk
  have hclean : (cmdAt sampledState 1).any (fun k => k.shadows.any (fun sh => !sh.lines.isEmpty)) = false := by decide
  rw [hsame] at hclean
  exact Bool.false_ne_true (hclean.symm.trans hw)

end Sys2Proof.Machine
end

section
/-! PROOFS. Failed flits of a port with many lanes (R312, R313, R328). -/

namespace Sys2Proof.Machine

/-- An ACTIVE port with 1,024 receiving lanes: the flits 8 places apart on a lane have the same SEQ. -/
def manyLanes : State := { boot := servingBoot, ports := [(0, { st := .active, rxLanes := List.replicate 1024 0 })] }

/-- An uncorrectable codeword. -/
def spoiltFlit : FlitIn := { slot := 0, bytes := [], corrected := 0, uncorrectable := true, along := 0, signal := false, link := [] }

set_option maxRecDepth 20000 in
/-- Refutes O54: the statement does not bound the receiving lanes; with 1,024 of them two of the ten failures fall on one SEQ. -/
theorem not_linkFlits : ¬ Obligations.LinkFlits := by
  intro h
  obtain ⟨hflit, -⟩ := h manyLanes 0 (by decide) (by decide) (by decide) (by decide) (by decide)
  obtain ⟨-, hspoilt, -⟩ := hflit spoiltFlit (by decide) (by decide) (by decide) (by decide)
  obtain ⟨t, hx, -, hcounted, -⟩ := hspoilt rfl (by decide)
  have twice : exec (.flitReceive 0 spoiltFlit) manyLanes = .next t → tget 0 (portAt t 0).fails 0 = 2 := by
    intro e
    cases e
    decide
  have once : tget 0 (portAt t 0).fails 0 = 1 := hcounted 0 (by decide)
  exact absurd (once.symm.trans (twice hx)) (by decide)

end Sys2Proof.Machine
end

section
/-! PROOFS. A compaction into a frame that a command holds (R168, R295). -/

namespace Sys2Proof.Machine

/-- No cache and no directory holds a line. -/
def NoLineHeld (s : State) : Prop := allLines s = [] ∧ ∀ e ∈ s.chans, e.2.dir = []

theorem dir_of_mem {s : State} (h : ∀ e ∈ s.chans, e.2.dir = []) (n : Nat) : (chanAt s n).dir = [] := by
  have hget (t : Tbl Channel) (h : ∀ e ∈ t, e.2.dir = []) : (tget {} t n).dir = [] := by
    induction t with
    | nil => rfl
    | cons y t ih =>
      simp only [tget]
      split
      · exact h y List.mem_cons_self
      · exact ih fun e he => h e (List.mem_cons_of_mem y he)
  exact hget s.chans h

theorem noDir_modChan {s : State} {f : Channel → Channel} (hf : ∀ c, (f c).dir = c.dir) (h : ∀ e ∈ s.chans, e.2.dir = []) (n : Nat) :
    ∀ e ∈ (modChan s n f).chans, e.2.dir = [] := by
  intro e he
  rcases mem_tset he with rfl | he
  · exact (hf _).trans (dir_of_mem h n)
  · exact h e he

theorem noDir_writeLine {s : State} (h : ∀ e ∈ s.chans, e.2.dir = []) (fa : Nat) (data : List Byte) :
    ∀ e ∈ (writeLine s fa data).chans, e.2.dir = [] := by
  have hclear := noDir_modChan (s := { s with hbm := mwrite s.hbm (hbmKey (channelOf fa) (chanOff (lineBase fa))) (padTo 64 data) })
    (f := fun c => clearBad c (chanOff (lineBase fa))) (fun _ => by unfold clearBad; dsimp only; split <;> rfl) h (channelOf fa)
  unfold writeLine
  dsimp only
  split
  · exact noDir_modChan (s := disarm (modChan { s with hbm := mwrite s.hbm (hbmKey (channelOf fa) (chanOff (lineBase fa))) (padTo 64 data) }
      (channelOf fa) (fun c => clearBad c (chanOff (lineBase fa)))) 4 (channelOf fa))
      (f := fun c => { c with badTags := insertNew c.badTags (chanOff (lineBase fa)) }) (fun _ => rfl) hclear _
  · exact hclear

theorem noDir_homeWrite {s : State} (h : ∀ e ∈ s.chans, e.2.dir = []) (cls ch off : Nat) (data : List Byte) :
    ∀ e ∈ (homeWrite s cls ch off data).chans, e.2.dir = [] := by
  have htouch : ∀ e ∈ (sliceTouch (writeLine s (frameAddr ch off) data) cls ch off true).chans, e.2.dir = [] := by
    obtain ⟨f, hf, e⟩ := sliceTouch_eq (writeLine s (frameAddr ch off) data) cls ch off true
    rw [e]
    refine noDir_modChan (fun c => (hf c).1) ?_ ch
    split <;> exact noDir_writeLine h _ data
  unfold homeWrite
  dsimp only
  split
  · exact noDir_modChan (f := fun c => sliceDrop c off) (fun _ => rfl) htouch ch
  · exact htouch

theorem noLineHeld_homeWrite {s : State} (h : NoLineHeld s) (cls ch off : Nat) (data : List Byte) : NoLineHeld (homeWrite s cls ch off data) := by
  obtain ⟨hlines, hdir⟩ := h
  have hc := caches_homeWrite s cls ch off data
  simp only [caches, Prod.mk.injEq] at hc
  obtain ⟨hcores, hctrl, hengines⟩ := hc
  exact ⟨by rw [← hlines]; simp only [allLines, hcores, hctrl, hengines], noDir_homeWrite hdir cls ch off data⟩

theorem recallFrame_noLineHeld {s : State} (h : NoLineHeld s) (frame size : Nat) : recallFrame s frame size = s := by
  obtain ⟨hlines, hdir⟩ := h
  have hnamed : s.chans.flatMap (fun e => e.2.dir.map (fun d => (e.1, d.offset))) = [] :=
    List.flatMap_eq_nil_iff.mpr fun e he => by rw [hdir e he]; rfl
  simp only [recallFrame, hnamed, hlines, List.map_nil, List.append_nil, List.foldl_nil]

theorem hasWritten_homeWrite {s : State} {j : Nat} (h : HasWritten s j) (cls ch off : Nat) (data : List Byte) :
    HasWritten (homeWrite s cls ch off data) j := by
  obtain ⟨k, hk, hw⟩ := h
  exact ⟨_, by rw [cmdAt_homeWrite, hk]; rfl, hasWritten_markShadows _ hw⟩

theorem hasWritten_first {s : State} {j : Nat} {k : Cmd} {sh : Shadow} (hk : cmdAt s j = some k) (hsh : sh ∈ k.shadows)
    {cls ch off : Nat} (hl : sh.holds (lineBase (frameAddr ch off)) = true) (data : List Byte) : HasWritten (homeWrite s cls ch off data) j := by
  refine ⟨_, by rw [cmdAt_homeWrite, hk]; rfl, List.any_eq_true.mpr ⟨_, List.mem_map_of_mem hsh, ?_⟩⟩
  rw [if_pos hl, insertSorted_ne_nil]
  rfl

/-- The lines of a page written at their homes, one after the other (R295). -/
def writePage (s : State) (place : Nat → Nat × Nat × List Byte) (n : Nat) : State :=
  (List.range n).foldl (fun t i => homeWrite t 8 (place i).1 (place i).2.1 (place i).2.2) s

theorem writePage_keeps {s : State} {j : Nat} {place : Nat → Nat × Nat × List Byte} {n : Nat} (h : NoLineHeld s) (hn : 0 < n)
    (hw : HasWritten (homeWrite s 8 (place 0).1 (place 0).2.1 (place 0).2.2) j) :
    NoLineHeld (writePage s place n) ∧ HasWritten (writePage s place n) j := by
  obtain ⟨n, rfl⟩ := Nat.exists_eq_succ_of_ne_zero hn.ne'
  have hfold (l : List Nat) : ∀ t, NoLineHeld t ∧ HasWritten t j →
      NoLineHeld (l.foldl (fun t i => homeWrite t 8 (place i).1 (place i).2.1 (place i).2.2) t) ∧
      HasWritten (l.foldl (fun t i => homeWrite t 8 (place i).1 (place i).2.1 (place i).2.2) t) j := by
    induction l with
    | nil => exact fun t ht => ht
    | cons i l ih => exact fun t ⟨hq, hw⟩ => ih _ ⟨noLineHeld_homeWrite hq .., hasWritten_homeWrite hw ..⟩
  unfold writePage
  rw [List.range_succ_eq_map, List.foldl_cons]
  exact hfold _ _ ⟨noLineHeld_homeWrite h .., hw⟩

/-- Where a compaction writes a line of the page, and what it writes there (R295). -/
def movedLine (s : State) (colony dpa a i : Nat) : Nat × Nat × List Byte :=
  let fa := ({ dpa := dpa, size := movedSize (colAt s colony) dpa, frame := a } : Shadow).addr (dpa + 64 * i)
  (channelOf fa, chanOff fa, coherentData s (frameOf (colAt s colony) (dpa + 64 * i)))

/-- A compaction without the frame that leaves the pool. -/
def carved (s : State) (colony dpa a : Nat) : State :=
  setCol s colony { colAt s colony with pool := carve (colAt s colony).pool a (movedSize (colAt s colony) dpa) }

theorem cmdAt_moveFrame {s : State} {colony dpa a : Nat} (j : Nat)
    (h : NoLineHeld (writePage (carved s colony dpa a) (movedLine s colony dpa a) (movedSize (colAt s colony) dpa / 64))) :
    cmdAt (moveFrame s colony dpa a) j =
      cmdAt (writePage (carved s colony dpa a) (movedLine s colony dpa a) (movedSize (colAt s colony) dpa / 64)) j := by
  have hrecall := List.foldl_fixed' (f := fun t (f : Frames) => recallFrame t f.start f.size) (fun f => recallFrame_noLineHeld h f.start f.size)
    (joinRuns (oldFrames (colAt s colony) { dpa := dpa, size := movedSize (colAt s colony) dpa, frame := a }))
  have hcmd := congrArg (fun t => cmdAt t j) hrecall
  exact hcmd

/-- A compaction marks the first line of its new frame in the shadow frame that holds it. -/
theorem hasWritten_moveFrame {s : State} {colony dpa a j : Nat} {k : Cmd} {sh : Shadow} (h : NoLineHeld s) (hk : cmdAt s j = some k)
    (hsh : sh ∈ k.shadows) (hn : 64 ≤ movedSize (colAt s colony) dpa)
    (hl : sh.holds (lineBase (frameAddr (movedLine s colony dpa a 0).1 (movedLine s colony dpa a 0).2.1)) = true) :
    HasWritten (moveFrame s colony dpa a) j := by
  have hfirst : HasWritten (homeWrite (carved s colony dpa a) 8 (movedLine s colony dpa a 0).1 (movedLine s colony dpa a 0).2.1
      (movedLine s colony dpa a 0).2.2) j := hasWritten_first (s := carved s colony dpa a) hk hsh hl _
  obtain ⟨hq, hw⟩ := writePage_keeps (s := carved s colony dpa a) h (Nat.div_pos hn (by decide)) hfirst
  rw [HasWritten, cmdAt_moveFrame j hq]
  exact hw

/-- The colony of `compact` with a LAUNCH whose shadow frame is the pool's frame. -/
def compactShadowed : State :=
  { boot := servingBoot
    cmds := [(0, { page := 1, ring := 0, pkt := 0x21 :: zeros 63, colony := 1, regions := [(0x200000, 64)] }), (1, { launchOn 0 with shadows := [{ dpa := 0x200000, size := 65536, frame := 0x700200000 }] })]
    cols := [(1, { st := .active, cur := { valid := true, channels := List.range 16 }, ptes := [⟨0x20000, 0, 0x20000, true, true, false⟩, ⟨0x200000, 1, 0x200000, true, true, false⟩]
                   pool := [⟨0, 0x700000000, 0x20000⟩, ⟨0, 0x700030000, 0x1D0000⟩, ⟨0, 0x700200000, 0x10000⟩]
                   frames := [(2, 0x70002)] })] }

set_option maxRecDepth 20000 in
theorem compactTo_compactShadowed : compactTo compactShadowed 1 0x20000 = some 0x700200000 := by decide

theorem compaction_of_compactTo {s : State} {colony dpa a : Nat} (hs : serving s = true) (h1 : 1 ≤ colony) (h64 : colony ≤ 64)
    (ha : compactTo s colony dpa = some a) : exec (.compaction colony dpa) s = .next (moveFrame s colony dpa a) := by
  show execCompaction colony dpa s = _
  have h0 : decide (colony = 0) = false := decide_eq_false (by omega)
  have h65 : decide (64 < colony) = false := decide_eq_false (by omega)
  simp only [execCompaction, hs, h0, h65, ha, Bool.not_true, Bool.or_false, Bool.false_eq_true, if_false]

set_option maxRecDepth 20000 in
/-- Refutes O47: the pool's frame that a compaction takes may be another command's shadow frame, in which the page's lines are then
marked. -/
theorem not_mappingsChange : ¬ Obligations.MappingsChange := by
  intro h
  obtain ⟨-, -, -, -, -, hcompact⟩ := h compactShadowed 0 _ rfl (by decide)
  obtain ⟨t, ht, -, -, -, hcmds⟩ := hcompact 0x20000 0x700200000 (by decide) (by decide) compactTo_compactShadowed
  have hmoved := compaction_of_compactTo (s := compactShadowed) (by decide) (by decide) (by decide) compactTo_compactShadowed
  obtain rfl : t = moveFrame compactShadowed 1 0x20000 0x700200000 := by rw [ht] at hmoved; exact Host.Outcome.next.inj hmoved
  obtain ⟨k, hk, hw⟩ := hasWritten_moveFrame (s := compactShadowed) (colony := 1) (dpa := 0x20000) (a := 0x700200000) (j := 1)
    ⟨by decide, by decide⟩ rfl (List.mem_singleton.mpr rfl) (by decide) (by decide)
  have hsame : cmdAt compactShadowed 1 = some k := by rw [← hk, cmdAt, cmdAt, hcmds]
  have hclean : (cmdAt compactShadowed 1).any (fun k => k.shadows.any (fun sh => !sh.lines.isEmpty)) = false := by decide
  rw [hsame] at hclean
  exact Bool.false_ne_true (hclean.symm.trans hw)

end Sys2Proof.Machine
end

section
/-! PROOFS. The timeout of a message whose command has its HELD record (R153, R346, R363). -/

namespace Sys2Proof.Machine

/-- An OFFER that waits for its acknowledgement, its command marked HELD. -/
def heldOffer : State :=
  { boot := servingBoot
    fab := { faddr := 1, unacked := [⟨0, 0x10, 2, 1, 0, 0, [], some 0, false, false⟩] }
    cmds := [(0, { page := 1, ring := 0, pkt := 0x34 :: zeros 63, colony := 1, phase := .started, held := true })] }

/-- The status of command 0 after a step. -/
def statusAfter (r : Res) : Option Nat :=
  match r with
  | .next t => (cmdAt t 0).map (fun k => k.status)
  | _ => none

theorem statusAfter_heldOffer : statusAfter (exec (.fabricTimeout 0 4096 0) heldOffer) = some 0 := by decide

/-- Refutes O46: a command that the state marks HELD ends with its HELD record's status when its message times out. -/
theorem not_fabricMessages : ¬ Obligations.FabricMessages := by
  intro h
  obtain ⟨-, -, -, -, htimeout⟩ := h heldOffer 0 { dst := 0, src := 0, ttl := 0, scol := 0, instar := 0, job := 0, mseq := 0 } (by unfold NoTeardown; decide)
  obtain ⟨t, k, ht, hk, -, hstatus⟩ := htimeout 4096 0 _ 0 _ (by decide) (by decide) rfl (.inl rfl) rfl rfl rfl rfl (by decide)
  have hzero := statusAfter_heldOffer
  rw [ht] at hzero
  simp only [statusAfter, hk, Option.map_some, hstatus, Option.some.injEq] at hzero
  exact absurd hzero (by decide)

end Sys2Proof.Machine
end

section
/-! PROOFS. An access through a translation cache's entry that does not permit it walks the tables again (R30, R299, R301). -/

namespace Sys2Proof.Machine

/-- A colony of one page at 0, readable and writable. -/
def pageColony : Colony := { st := .active, cur := { valid := true, channels := [0] }, ptes := [⟨0, 0, 0, true, true, false⟩] }

/-- A translation cache's entry of that page without permissions. -/
def barredEntry : TcEntry := ⟨1, 0, 0, 0, 0, false, false, false⟩

/-- Core 0 at an LDG of address 0, whose line its data cache holds. -/
def barredLdg : State :=
  { boot := servingBoot
    cmds := [(0, launchOn 0)]
    cols := [(1, pageColony)]
    cores := [(0, { st := .running, cmd := some 0, colony := 1, im := [BitVec.ofNat 64 (0x50 * 2 ^ 56)], tc := [barredEntry]
                    dc := [⟨0, 0, .exclusive, zeros 64⟩] })] }

set_option maxRecDepth 20000 in
/-- Refutes O11: an LDG whose cached translation does not permit the read walks the tables, which the walker of its die counts. -/
theorem not_globalAccessThroughTheDataCache : ¬ Obligations.GlobalAccessThroughTheDataCache := by
  intro h
  obtain ⟨-, haccess⟩ := h barredLdg 0 0 (BitVec.ofNat 64 (0x50 * 2 ^ 56)) _ {} (by unfold Issues; decide) rfl rfl
  obtain ⟨hldg, -⟩ := haccess (by decide) (by decide) rfl rfl (by decide)
  obtain ⟨t, ht, ⟨honly, -⟩, -⟩ := hldg 0 ⟨0, 0, 0, true, true, false⟩ ⟨0, 0, .exclusive, zeros 64⟩ (by decide) (by decide) (by decide)
  have hwalks : exec (.ldg 0 (BitVec.ofNat 64 (0x50 * 2 ^ 56)) {}) barredLdg = .next t → (meshAt t 0).walks = 1 := by
    intro e
    cases e
    decide
  have hsame : meshAt { t with cores := barredLdg.cores } 0 = meshAt barredLdg 0 := congrArg (fun u => meshAt u 0) honly
  have hone : (meshAt { t with cores := barredLdg.cores } 0).walks = 1 := hwalks ht
  rw [hsame] at hone
  exact absurd hone (by decide)

/-- A DMA descriptor of one line, read from address 0. -/
def lineDesc : DmaDesc :=
  { id := 0, group := 0, toHbm := false, list := false, va := 0, spo := 0, lspo := 0, lines := 1, rows := 1, hstride := 0, sstride := 0
    offset := 0, word := 0, index := 0 }

/-- Core 0 with that descriptor, its colony's class without an entry of a request buffer (R231, R256). -/
def barredDma : State :=
  { boot := servingBoot
    hub := { regMode := true, outLim := 0 }
    cmds := [(0, { launchOn 0 with cls := 1 })]
    cols := [(1, pageColony)]
    cores := [(0, { st := .running, cmd := some 0, colony := 1, tc := [barredEntry], dq := [lineDesc] })] }

set_option maxRecDepth 20000 in
/-- Refutes O18: a DMA line that stalls without an entry has still walked the tables where its cached translation does not permit it. -/
theorem not_dmaLinesAndTags : ¬ Obligations.DmaLinesAndTags := by
  intro h
  obtain ⟨hissue, -⟩ := h
  obtain ⟨hread, -⟩ := hissue barredDma 0 0 _ lineDesc 0 0 0 ⟨0, 0, 0, true, true, false⟩ {} (by decide) rfl rfl (by decide) (by decide)
    (by decide) (by decide) rfl rfl rfl rfl (by unfold NoSpInjection; decide) (by decide) (by decide) (by decide) (by decide)
  obtain ⟨hstall, -⟩ := hread rfl (by decide)
  have hwalks : exec (.dmaLineIssue 0 {}) barredDma = .next barredDma → (meshAt barredDma 0).walks = 1 := by
    intro e
    rw [← Host.Outcome.next.inj e]
    decide
  exact absurd (hwalks (hstall (by decide))) (by decide)

end Sys2Proof.Machine
end

section
/-! PROOFS. What a port's transmissions leave (R324, R326, R327, R346 to R348). -/

namespace Sys2Proof.Machine

/-- A port without its transmitter. -/
def Port.quiet (p : Port) : Port :=
  { p with linkQueue := [], txQueue := [], sent := [], txSeq := 0, replayBuf := [], credits := [], keyFlits := 0, packets := 0
           arb := {}, arbCls := [], urgTx := (0, 0), urgRx := (0, 0), urgPeak := 0, urgOver := 0 }

/-- The state without what a transmission changes: the transmitters, the output, the bonds' next BSEQ and an injected CRC error. -/
def still (s : State) : State × (Nat → Port) :=
  ({ s with ports := [], out := [], zlt := { s.zlt with bseqs := [] }
            flt := { s.flt with armed := s.flt.armed.filter (fun x => x.1 != 5) } }, fun n => (portAt s n).quiet)

theorem still_setPort {s : State} {n : Nat} {p : Port} (h : p.quiet = (portAt s n).quiet) : still (setPort s n p) = still s := by
  refine Prod.ext rfl (funext fun m => ?_)
  show (portAt (setPort s n p) m).quiet = (portAt s m).quiet
  by_cases hm : m = n
  · subst hm; rw [portAt_setPort_same, h]
  · rw [portAt_setPort_other s p hm]

theorem still_modPort {s : State} {n : Nat} {f : Port → Port} (h : ∀ p, (f p).quiet = p.quiet) : still (modPort s n f) = still s :=
  still_setPort (h _)

@[simp] theorem still_emit (s : State) (o : Out) : still (emit s o) = still s := rfl

@[simp] theorem still_emitFlit (n : Nat) (s : State) (f : Flit) : still (emitFlit n s f) = still s := by
  unfold emitFlit
  dsimp only
  split
  · refine Prod.ext ?_ rfl
    have harmed : (s.flt.armed.filter (fun x => x != (5, n))).filter (fun x => x.1 != 5) = s.flt.armed.filter (fun x => x.1 != 5) := by
      rw [List.filter_filter]
      refine List.filter_congr fun x _ => ?_
      by_cases hx : x = (5, n)
      · subst hx; rfl
      · simp [hx]
    simp only [still, emit, harmed]
  · rfl

@[simp] theorem still_emitFlits (n : Nat) (l : List Flit) (s : State) : still (l.foldl (emitFlit n) s) = still s :=
  foldl_keeps still _ (fun t f => still_emitFlit n t f) l s

theorem ports_emitFlit (n : Nat) (s : State) (f : Flit) : (emitFlit n s f).ports = s.ports := by
  unfold emitFlit; dsimp only; split <;> rfl

theorem ports_emitFlits (n : Nat) (l : List Flit) (s : State) : (l.foldl (emitFlit n) s).ports = s.ports :=
  foldl_keeps State.ports _ (fun t f => ports_emitFlit n t f) l s

theorem portAt_emitFlits (n : Nat) (l : List Flit) (s : State) (m : Nat) : portAt (l.foldl (emitFlit n) s) m = portAt s m := by
  rw [portAt, ports_emitFlits, portAt]

@[simp] theorem still_startPacket (s : State) (n : Nat) (k : TxPacket) : still (startPacket s n k) = still s := by
  unfold startPacket
  simp only [still_emitFlits, still_emit]
  refine still_setPort ?_
  split <;> rfl

@[simp] theorem still_startLink (s : State) (n kind : Nat) (body : List Nat) : still (startLink s n kind body) = still s := by
  unfold startLink
  simp only [still_emitFlit, still_emit]
  exact still_setPort rfl

@[simp] theorem still_pumpLinks (n : Nat) (l : List (Nat × List Nat)) (s : State) : still (pumpLinks n l s) = still s := by
  induction l generalizing s with
  | nil => exact still_modPort fun _ => rfl
  | cons x l ih =>
    simp only [pumpLinks]
    split
    · exact (ih _).trans (still_startLink ..)
    · exact still_modPort fun _ => rfl

theorem still_pumpLane (n vl : Nat) (l : List TxPacket) (s : State) : still (pumpLane n vl l s).1 = still s := by
  induction l generalizing s with
  | nil => rfl
  | cons k l ih =>
    simp only [pumpLane]
    split
    · exact ih s
    · split
      · exact (ih _).trans (still_startPacket ..)
      · rfl

@[simp] theorem still_pumpVl (s : State) (n vl : Nat) : still (pumpVl s n vl) = still s :=
  (still_modPort (f := fun p => { p with txQueue := (pumpLane n vl (portAt s n).txQueue s).2 }) fun _ => rfl).trans (still_pumpLane n vl _ s)

/-- The packet that the round robin picks leaves the queue; only the transmitter changes. -/
theorem pickShared_eq {s : State} {n : Nat} {x : TxPacket} {p : Port} (h : pickShared s n = some (x, p)) :
    x ∈ (portAt s n).txQueue ∧ ∃ a b, p = { portAt s n with txQueue := (portAt s n).txQueue.erase x, arb := a, arbCls := b } := by
  unfold pickShared at h
  dsimp only at h
  split at h
  · exact absurd h nofun
  · split at h
    · exact absurd h nofun
    · split at h
      · next hk _ =>
        obtain ⟨rfl, rfl⟩ := Prod.mk.inj (Option.some.inj h)
        obtain ⟨w, -, hw⟩ := Option.bind_eq_some_iff.mp hk
        exact ⟨List.mem_of_mem_filter (List.mem_of_find?_eq_some hw), _, _, rfl⟩
      · exact absurd h nofun

@[simp] theorem still_pumpShared (n k : Nat) (s : State) : still (pumpShared n k s) = still s := by
  induction k generalizing s with
  | zero => rfl
  | succ k ih =>
    simp only [pumpShared]
    split
    · rfl
    · next hx =>
      obtain ⟨-, a, b, rfl⟩ := pickShared_eq hx
      split
      · exact (ih _).trans ((still_startPacket ..).trans (still_setPort rfl))
      · rfl

@[simp] theorem still_pump (s : State) (n : Nat) : still (pump s n) = still s := by
  simp only [pump, still_pumpVl, still_pumpShared, still_pumpLinks]

@[simp] theorem still_queuePacket (s : State) (n cls : Nat) (bulk transit : Bool) (flits : Nat) (out : Out) :
    still (queuePacket s n cls bulk transit flits out) = still s := by
  unfold queuePacket
  simp only [still_pump]
  refine Eq.trans (still_modPort ?_) ?_
  · exact fun _ => rfl
  · split <;> rfl

@[simp] theorem still_putMsg (s : State) (mtype : Nat) (h : CtlHeader) (body : List Nat) : still (putMsg s mtype h body) = still s := by
  unfold putMsg
  split
  · rfl
  · exact still_queuePacket ..
  · rfl

/-- The fabric's state once a control message is out (R346, R348). -/
def Fabric.afterMsg (f : Fabric) (mtype dst scol instar job : Nat) (body : List Nat) (cmd : Option Nat) : Fabric :=
  if f.faddr = 0 then f
  else { f with
    mseq := wrapAdd 32 f.mseq 1
    unacked := if ackedType mtype then f.unacked ++ [⟨f.mseq, mtype, dst, scol, instar, job, body, cmd, false, false⟩] else f.unacked }

theorem still_sendMsg (s : State) (mtype dst scol instar job : Nat) (body : List Nat) (cmd : Option Nat) :
    still (sendMsg s mtype dst scol instar job body cmd) = still { s with fab := s.fab.afterMsg mtype dst scol instar job body cmd } := by
  unfold sendMsg Fabric.afterMsg
  dsimp only
  split
  · rfl
  · exact still_putMsg ..

@[simp] theorem still_putPacket (s : State) (n cls kind : Nat) (h : FabHeader) (data : List Byte) :
    still (putPacket s n cls kind h data) = still s := by
  unfold putPacket
  split
  · rfl
  · exact still_queuePacket ..

/- What stands in a state that a transmission has left behind. -/

section
variable {s t : State} (h : still t = still s)
include h

theorem fab_of_still : t.fab = s.fab := congrArg (fun v => State.fab v.1) h
theorem cmds_of_still : t.cmds = s.cmds := congrArg (fun v => State.cmds v.1) h
theorem cores_of_still : t.cores = s.cores := congrArg (fun v => State.cores v.1) h
theorem cols_of_still : t.cols = s.cols := congrArg (fun v => State.cols v.1) h
theorem hbm_of_still : t.hbm = s.hbm := congrArg (fun v => State.hbm v.1) h
theorem chans_of_still : t.chans = s.chans := congrArg (fun v => State.chans v.1) h
theorem hub_of_still : t.hub = s.hub := congrArg (fun v => State.hub v.1) h
theorem quiet_of_still (n : Nat) : (portAt t n).quiet = (portAt s n).quiet := congrArg (fun v => v.2 n) h
theorem recs_of_still : t.flt.recs = s.flt.recs := congrArg (fun v => v.1.flt.recs) h
theorem armed_of_still {k : Nat} (hk : k ≠ 5) (n : Nat) : armed t k n = armed s k n := by
  have hl := congrArg (fun v => v.1.flt.armed) h
  have hfilter (u : State) : armed u k n = (u.flt.armed.filter (fun x => x.1 != 5)).contains (k, n) := by
    simp [armed, hk]
  rw [hfilter t, hfilter s]
  exact congrArg (fun l : List (Nat × Nat) => l.contains (k, n)) hl

end

/- A packet that joins a port's queue waits there or has started. -/

/-- The packet waits at the port, or has been sent by it. -/
def AtPort (s : State) (n : Nat) (k : TxPacket) : Prop := k ∈ (portAt s n).txQueue ∨ ∃ l, { k with last := l } ∈ (portAt s n).sent

theorem portAt_startPacket (s : State) (n : Nat) (k : TxPacket) :
    (portAt (startPacket s n k) n).txQueue = (portAt s n).txQueue ∧
    ∃ l, (portAt (startPacket s n k) n).sent = (portAt s n).sent ++ [{ k with last := l }] := by
  unfold startPacket
  dsimp only
  rw [portAt_emitFlits]
  show (portAt (setPort s n _) n).txQueue = _ ∧ ∃ l, (portAt (setPort s n _) n).sent = _
  rw [portAt_setPort_same]
  split
  · exact ⟨rfl, _, rfl⟩
  · exact ⟨rfl, _, rfl⟩

theorem atPort_startPacket {s : State} {n : Nat} {k x : TxPacket} (h : AtPort s n k) : AtPort (startPacket s n x) n k := by
  obtain ⟨hq, l, hs⟩ := portAt_startPacket s n x
  rw [AtPort, hq, hs]
  exact h.imp_right fun ⟨l, hl⟩ => ⟨l, List.mem_append_left _ hl⟩

theorem sent_startPacket (s : State) (n : Nat) (k : TxPacket) : ∃ l, { k with last := l } ∈ (portAt (startPacket s n k) n).sent := by
  obtain ⟨-, l, hs⟩ := portAt_startPacket s n k
  exact ⟨l, by rw [hs]; exact List.mem_append_right _ (List.mem_singleton.mpr rfl)⟩

/-- What was sent stays sent, and every packet of the list waits still or has started. -/
theorem pumpLane_keeps (n vl : Nat) (l : List TxPacket) (s : State) :
    (∀ k, k ∈ (portAt s n).sent → k ∈ (portAt (pumpLane n vl l s).1 n).sent) ∧
    ∀ k ∈ l, k ∈ (pumpLane n vl l s).2 ∨ ∃ q, { k with last := q } ∈ (portAt (pumpLane n vl l s).1 n).sent := by
  induction l generalizing s with
  | nil => exact ⟨fun _ hk => hk, nofun⟩
  | cons x l ih =>
    simp only [pumpLane]
    split
    · obtain ⟨hsent, hl⟩ := ih s
      refine ⟨hsent, fun k hk => ?_⟩
      rcases List.mem_cons.mp hk with rfl | hk
      · exact .inl List.mem_cons_self
      · exact (hl k hk).imp_left (List.mem_cons_of_mem x)
    · split
      · obtain ⟨hsent, hl⟩ := ih (startPacket s n x)
        obtain ⟨-, q, hs⟩ := portAt_startPacket s n x
        refine ⟨fun k hk => hsent k (by rw [hs]; exact List.mem_append_left _ hk), fun k hk => ?_⟩
        rcases List.mem_cons.mp hk with rfl | hk
        · exact .inr ⟨q, hsent _ (by rw [hs]; exact List.mem_append_right _ (List.mem_singleton.mpr rfl))⟩
        · exact hl k hk
      · exact ⟨fun _ hk => hk, fun k hk => .inl hk⟩

theorem atPort_pumpVl {s : State} {n : Nat} {k : TxPacket} (vl : Nat) (h : AtPort s n k) : AtPort (pumpVl s n vl) n k := by
  obtain ⟨hsent, hl⟩ := pumpLane_keeps n vl (portAt s n).txQueue s
  have hport : portAt (pumpVl s n vl) n =
      { portAt (pumpLane n vl (portAt s n).txQueue s).1 n with txQueue := (pumpLane n vl (portAt s n).txQueue s).2 } := portAt_modPort_same ..
  rw [AtPort, hport]
  exact h.elim (hl k) fun ⟨q, hq⟩ => .inr ⟨q, hsent _ hq⟩

theorem atPort_pumpShared {n m : Nat} {k : TxPacket} {s : State} (h : AtPort s n k) : AtPort (pumpShared n m s) n k := by
  induction m generalizing s with
  | zero => exact h
  | succ m ih =>
    simp only [pumpShared]
    split
    · exact h
    · next x p hx =>
      obtain ⟨-, a, b, rfl⟩ := pickShared_eq hx
      split
      · refine ih ?_
        by_cases hk : k = x
        · subst hk; exact .inr (sent_startPacket ..)
        · refine atPort_startPacket ?_
          rw [AtPort, portAt_setPort_same]
          exact h.imp_left fun hq => (List.mem_erase_of_ne hk).mpr hq
      · exact h

theorem atPort_startLink {s : State} {n : Nat} {k : TxPacket} (kind : Nat) (body : List Nat) (h : AtPort s n k) :
    AtPort (startLink s n kind body) n k := by
  unfold startLink
  dsimp only
  rw [AtPort, portAt, ports_emitFlit]
  show k ∈ (portAt (setPort s n _) n).txQueue ∨ ∃ l, _ ∈ (portAt (setPort s n _) n).sent
  rw [portAt_setPort_same]
  exact h

theorem atPort_pumpLinks {n : Nat} {k : TxPacket} (l : List (Nat × List Nat)) {s : State} (h : AtPort s n k) : AtPort (pumpLinks n l s) n k := by
  induction l generalizing s with
  | nil => rw [AtPort, pumpLinks, portAt_modPort_same]; exact h
  | cons x l ih =>
    simp only [pumpLinks]
    split
    · exact ih (atPort_startLink x.1 x.2 h)
    · rw [AtPort, portAt_modPort_same]; exact h

theorem atPort_pump {s : State} {n : Nat} {k : TxPacket} (h : AtPort s n k) : AtPort (pump s n) n k :=
  atPort_pumpVl 2 (atPort_pumpShared (atPort_pumpVl 0 (atPort_pumpLinks _ h)))

/-- A packet put at a port waits there or has started (R326). -/
theorem atPort_queuePacket (s : State) (n cls : Nat) (bulk transit : Bool) (flits : Nat) (out : Out) :
    ∃ b, AtPort (queuePacket s n cls bulk transit flits out) n
      { vl := if bulk then laneOf cls else 0, cls := cls, flits := flits, bseq := b, transit := transit, out := out } := by
  unfold queuePacket
  refine ⟨if bulk then tget 0 s.zlt.bseqs (bondKey s n) else 0, atPort_pump (.inl ?_)⟩
  rw [portAt_modPort_same]
  exact List.mem_append_right _ (List.mem_singleton.mpr rfl)

end Sys2Proof.Machine
end

section
/-! PROOFS. Fabric address, windows and transit (R341, R343 to R345, R350 to R354, R370). -/

namespace Sys2Proof.Machine

/- Table entries changed one by one, where the number decides too. -/

theorem tfind_mapIf {α : Type} (p : Nat → α → Bool) (f : α → α) (t : Tbl α) (i : Nat) :
    tfind (t.map (fun e => if p e.1 e.2 then (e.1, f e.2) else e)) i = (tfind t i).map (fun w => if p i w then f w else w) := by
  induction t with
  | nil => rfl
  | cons e r ih =>
    obtain ⟨k, v⟩ := e
    by_cases hk : k = i
    · subst hk
      by_cases hp : p k v = true
      · simp [tfind, hp]
      · simp [tfind, hp]
    · by_cases hp : p k v = true
      · simpa [tfind, hp, hk] using ih
      · simpa [tfind, hp, hk] using ih

theorem mem_tset_self {α : Type} (t : Tbl α) (n : Nat) (x : α) : (n, x) ∈ tset t n x := by
  induction t with
  | nil => exact List.mem_singleton.mpr rfl
  | cons e r ih =>
    simp only [tset]
    split
    · exact List.mem_cons_self
    · split
      · exact List.mem_cons_self
      · exact List.mem_cons_of_mem e ih

theorem pfWrites_of {s : State} (hs : serving s = true) (hlive : fnLive s .pf = true) : pfWrites s = true := by
  rw [pfWrites, hs, hlive]; rfl

/- FAB.ID (R341). -/

theorem fabricAddress_written {s : State} (hpf : pfWrites s = true) (value : Word) (h0 : s.fab.faddr = 0) (hv : value.toNat % 2 ^ 24 ≠ 0xFFFFFF) :
    exec (.fabricAddressWrite value) s = .next { s with fab := { s.fab with faddr := value.toNat % 2 ^ 24 } } := by
  have hfield : field value 23 0 = value.toNat % 2 ^ 24 := by rw [field_eq]; simp
  show execFabricAddressWrite value s = _
  simp only [execFabricAddressWrite, hpf, h0, hfield, beq_self_eq_true, bne_iff_ne.mpr hv, Bool.and_self, if_true]

theorem fabricAddress_kept {s : State} (value : Word) (h : s.fab.faddr ≠ 0) : exec (.fabricAddressWrite value) s = .next s := by
  show execFabricAddressWrite value s = _
  simp only [execFabricAddressWrite, beq_eq_false_iff_ne.mpr h, Bool.and_false, Bool.false_and, Bool.false_eq_true, if_false]

/- FAB.WCMD (R350, R353, R354, R370). -/

theorem windowWrite_rejected {s : State} (hpf : pfWrites s = true)
    (h : (∃ w, tfind s.fab.windows s.fab.wsel = some w ∧ w.valid = true) ∨ windowOk (wdataBytes s) = false) :
    exec .windowWrite s = .next { s with fab := { s.fab with wReject := true } } := by
  show execWindowWrite s = _
  simp only [execWindowWrite, hpf, Bool.not_true, Bool.false_eq_true, if_false]
  refine if_pos ?_
  rcases h with ⟨w, hw, hv⟩ | hok
  · simp [hw, hv]
  · rw [hok]; simp

theorem windows_needPeer (s : State) (colony faddr : Nat) : (needPeer s colony faddr).fab = s.fab := by
  unfold needPeer; split <;> rfl

/-- The colony whose peer set gains the source of a window (R353). -/
def windowHost (s : State) (w : Window) : State := if w.valid then needPeer s w.colony w.sfaddr else s

theorem fab_windowHost (s : State) (w : Window) : (windowHost s w).fab = s.fab := by
  unfold windowHost
  split
  · exact windows_needPeer ..
  · rfl

theorem windowWrite_written {s : State} (hpf : pfWrites s = true) (hfree : tfind s.fab.windows s.fab.wsel = none)
    (hok : windowOk (wdataBytes s) = true) :
    ∃ t, exec .windowWrite s = .next t ∧ t.fab.windows = tset s.fab.windows s.fab.wsel (windowOf (wdataBytes s)) := by
  have hexec : exec .windowWrite s = .next { windowHost s (windowOf (wdataBytes s)) with fab := { (windowHost s (windowOf (wdataBytes s))).fab with
      windows := tset (windowHost s (windowOf (wdataBytes s))).fab.windows (windowHost s (windowOf (wdataBytes s))).fab.wsel (windowOf (wdataBytes s)) } } := by
    show execWindowWrite s = _
    simp only [execWindowWrite, hpf, hfree, hok, Bool.not_true, Bool.or_self, Bool.false_eq_true, if_false]
    rfl
  refine ⟨_, hexec, ?_⟩
  show tset _ _ _ = _
  rw [fab_windowHost]

theorem peerSet_of_window {t : State} {i : Nat} {w : Window} (h : (i, w) ∈ t.fab.windows) (hv : w.valid = true) :
    (w.sfaddr, w.job) ∈ peerSet t w.colony :=
  List.mem_append_right _ (List.mem_map.mpr ⟨(i, w), List.mem_filter.mpr ⟨h, by simp [hv]⟩, rfl⟩)

theorem leNat_lt (l : List Byte) : leNat l < 256 ^ l.length := by
  induction l with
  | nil => exact Nat.one_pos
  | cons b l ih =>
    simp only [leNat, List.length_cons, Nat.pow_succ]
    have hb := b.isLt
    omega

theorem bytesAt_lt (l : List Byte) (off len : Nat) : bytesAt l off len < 256 ^ len :=
  (leNat_lt _).trans_le (Nat.pow_le_pow_right (by decide) (List.length_take_le ..))

/-- The 4 words of FAB.WDATA that show an entry. -/
def windowWords (w : Window) : Tbl Word := (List.range 4).map (fun k => (k, BitVec.ofNat 64 (bytesAt (windowBytes w) (8 * k) 8)))

theorem windowWords_toNat (w : Window) {k : Nat} (hk : k < 4) : (tget (0 : Word) (windowWords w) k).toNat = bytesAt (windowBytes w) (8 * k) 8 := by
  have hget : tget (0 : Word) (windowWords w) k = BitVec.ofNat 64 (bytesAt (windowBytes w) (8 * k) 8) := by interval_cases k <;> rfl
  exact hget ▸ (BitVec.toNat_ofNat ..).trans (Nat.mod_eq_of_lt (bytesAt_lt (windowBytes w) (8 * k) 8))

theorem windowRead_shows {s : State} (hpf : pfWrites s = true) {w : Window} (hw : tfind s.fab.windows s.fab.wsel = some w) :
    exec .windowRead s = .next { s with fab := { s.fab with wdata := windowWords w } } := by
  show execWindowRead s = _
  simp only [execWindowRead, hpf, hw, Bool.not_true, Bool.false_eq_true, if_false]
  rfl

theorem windowRevoke_revokes {s : State} (hpf : pfWrites s = true) :
    exec .windowRevoke s = .next (revokeWhere s (fun i _ => i == s.fab.wsel)) := next_congr (if_pos hpf)

theorem tfind_revokeWhere (s : State) (p : Nat → Window → Bool) (i : Nat) :
    tfind (revokeWhere s p).fab.windows i =
      (tfind s.fab.windows i).map (fun w => if p i w then { w with valid := false, revoking := false } else w) :=
  tfind_mapIf p (fun w => { w with valid := false, revoking := false }) s.fab.windows i

/- REVOKE and RETIRE (R346, R349, R354). -/

theorem once_first {s : State} {port : Nat} {m : CtlHeader} (ha : arrives s port m.dst m.src = true) (hn : answered s m.src m.mseq = none)
    (again : Nat → State) (act : State → State) : once s port m again act = act s := by
  simp only [once, ha, hn, Bool.not_true, Bool.false_eq_true, if_false]

/-- The fabric's state once a message is remembered and acknowledged (R348, R349). -/
def ackedFab (s : State) (m : CtlHeader) (status : Nat) : Fabric :=
  (remember s m.src m.mseq 5 status).fab.afterMsg 5 m.src 0 0 m.job [m.mseq, status] none

theorem still_acked (s : State) (m : CtlHeader) (status : Nat) : still (acked s m status) = still { s with fab := ackedFab s m status } :=
  still_sendMsg ..

theorem windows_acked (s : State) (m : CtlHeader) (status : Nat) : (acked s m status).fab.windows = s.fab.windows := by
  have hfab : (acked s m status).fab = ackedFab s m status := fab_of_still (still_acked s m status)
  rw [hfab, ackedFab, Fabric.afterMsg]
  split <;> rfl

theorem cmds_acked (s : State) (m : CtlHeader) (status : Nat) : (acked s m status).cmds = s.cmds :=
  (cmds_of_still (still_acked s m status) :)

theorem revoke_acts {s : State} {port : Nat} {m : CtlHeader} (ha : arrives s port m.dst m.src = true) (hn : answered s m.src m.mseq = none) :
    exec (.revoke port m) s = .next (acked (revokeWhere s (fun _ w => w.sfaddr == m.src && w.scol == m.scol)) m 0) :=
  next_congr (once_first ha hn ..)

/-- A retired mark moves on where the entry's sender, colony and boot are the message's (R354). -/
def retireWhere (s : State) (m : CtlHeader) (value boottag : Nat) : State :=
  { s with fab := { s.fab with windows := s.fab.windows.map (fun e =>
      if e.2.sfaddr == m.src && e.2.scol == m.scol && e.2.sboot == boottag then (e.1, retireMark e.2 value) else e) } }

theorem instarRetire_acts {s : State} {port : Nat} {m : CtlHeader} (ha : arrives s port m.dst m.src = true) (hn : answered s m.src m.mseq = none)
    (value boottag : Nat) : exec (.instarRetire port m value boottag) s = .next (acked (retireWhere s m value boottag) m 0) :=
  next_congr (once_first ha hn ..)

theorem tfind_retireWhere (s : State) (m : CtlHeader) (value boottag i : Nat) :
    tfind (retireWhere s m value boottag).fab.windows i = (tfind s.fab.windows i).map (fun w =>
      if w.sfaddr == m.src && w.scol == m.scol && w.sboot == boottag then retireMark w value else w) :=
  tfind_mapIf (fun _ (w : Window) => w.sfaddr == m.src && w.scol == m.scol && w.sboot == boottag) (fun w => retireMark w value) s.fab.windows i

/- Transit (R343 to R345). -/

theorem transitForward_eq {s : State} {inPort dst src job ttl : Nat} {p : Transit} (hs : serving s = true) (hp : inPort < 16)
    (hst : (portAt s inPort).st = .active) (hf : s.fab.faddr ≠ 0) (hpath : transitPath p = (dst, src, job, ttl)) (hd : dst ≠ s.fab.faddr) :
    exec (.transitForward inPort p) s = (match transitArrives s inPort p with
      | none => .next s
      | some s1 =>
        if ttl ≤ 1 then .next { s1 with fab := { s1.fab with dropTtl := satInc 16 s1.fab.dropTtl } }
        else match route s1 0 (transitLane p) src dst job with
          | .port n => .next (forward s1 n p)
          | _ => .next { s1 with fab := { s1.fab with dropNoRoute := satInc 16 s1.fab.dropNoRoute } }) := by
  show execTransitForward inPort p s = _
  simp only [execTransitForward, hpath]
  refine if_neg ?_
  simp [hs, hst, hf, hd, Nat.not_le.mpr hp]

theorem forward_waits (s : State) (n : Nat) (p : Transit) : ∃ k, (k ∈ (portAt (forward s n p) n).txQueue ∨ k ∈ (portAt (forward s n p) n).sent) ∧
    k.vl = transitLane p ∧ k.transit = true ∧
    (∀ cls kind h data, p = .bulk cls kind h data → k.cls = cls ∧ k.out = .packet n kind { h with ttl := h.ttl - 1 } data) ∧
    (∀ mtype h body, p = .control mtype h body → k.out = .message n mtype { h with ttl := h.ttl - 1 } body) := by
  cases p with
  | bulk cls kind h data =>
    obtain ⟨b, hq | ⟨l, hl⟩⟩ := atPort_queuePacket s n cls true true (1 + dataFlits (if kind = 3 then 0 else data.length / 64))
      (.packet n kind { h with ttl := h.ttl - 1 } data)
    · exact ⟨_, .inl hq, rfl, rfl, by rintro _ _ _ _ ⟨⟩; exact ⟨rfl, rfl⟩, nofun⟩
    · exact ⟨_, .inr hl, rfl, rfl, by rintro _ _ _ _ ⟨⟩; exact ⟨rfl, rfl⟩, nofun⟩
  | control mtype h body =>
    obtain ⟨b, hq | ⟨l, hl⟩⟩ := atPort_queuePacket s n 0 false true 1 (.message n mtype { h with ttl := h.ttl - 1 } body)
    · exact ⟨_, .inl hq, rfl, rfl, nofun, by rintro _ _ _ ⟨⟩; rfl⟩
    · exact ⟨_, .inr hl, rfl, rfl, nofun, by rintro _ _ _ ⟨⟩; rfl⟩

theorem still_forward (s : State) (n : Nat) (p : Transit) : still (forward s n p) = still s := by
  cases p <;> exact still_queuePacket ..

theorem transitArrives_eq {s s1 : State} {n : Nat} {p : Transit} (h : transitArrives s n p = some s1) :
    s1.fab = s.fab ∧ s1.cmds = s.cmds ∧ s1.hbm = s.hbm := by
  cases p with
  | bulk cls kind hd data =>
    simp only [transitArrives] at h
    split at h
    · exact absurd h nofun
    · rw [← Option.some.inj h, noteDelivered]
      split <;> exact ⟨rfl, rfl, rfl⟩
  | control mtype hd body =>
    rw [← Option.some.inj h]
    exact ⟨rfl, rfl, rfl⟩

theorem transit_acts {s : State} {inPort dst src job ttl : Nat} {p : Transit} (hs : serving s = true) (hp : inPort < 16)
    (hst : (portAt s inPort).st = .active) (hf : s.fab.faddr ≠ 0) (hpath : transitPath p = (dst, src, job, ttl)) (hd : dst ≠ s.fab.faddr) :
    (transitArrives s inPort p = none → exec (.transitForward inPort p) s = .next s) ∧
    (∀ s1, transitArrives s inPort p = some s1 →
      (ttl ≤ 1 → ∃ t, exec (.transitForward inPort p) s = .next t ∧ t = { s1 with fab := { s1.fab with dropTtl := satInc 16 s.fab.dropTtl } }) ∧
      (1 < ttl → (∀ n, route s1 0 (transitLane p) src dst job ≠ .port n) →
        ∃ t, exec (.transitForward inPort p) s = .next t ∧ t = { s1 with fab := { s1.fab with dropNoRoute := satInc 16 s.fab.dropNoRoute } }) ∧
      (∀ n, 1 < ttl → route s1 0 (transitLane p) src dst job = .port n →
        ∃ t k, exec (.transitForward inPort p) s = .next t ∧ (k ∈ (portAt t n).txQueue ∨ k ∈ (portAt t n).sent) ∧
          k.vl = transitLane p ∧ k.transit = true ∧
          (∀ cls kind h data, p = .bulk cls kind h data → k.cls = cls ∧ k.out = .packet n kind { h with ttl := ttl - 1 } data) ∧
          (∀ mtype h body, p = .control mtype h body → k.out = .message n mtype { h with ttl := ttl - 1 } body) ∧
          t.fab = s.fab ∧ t.cmds = s.cmds ∧ t.hbm = s.hbm)) := by
  have hexec := transitForward_eq hs hp hst hf hpath hd
  refine ⟨fun hn => by rw [hexec, hn], fun s1 h1 => ⟨fun hl => ?_, fun hl hr => ?_, fun n hl hr => ?_⟩⟩
  · obtain ⟨hfab, -⟩ := transitArrives_eq h1
    exact ⟨_, by rw [hexec, h1]; exact if_pos hl, by rw [hfab]⟩
  · obtain ⟨hfab, -⟩ := transitArrives_eq h1
    refine ⟨_, ?_, by rw [← hfab]⟩
    rw [hexec, h1]
    refine (if_neg (Nat.not_le.mpr hl)).trans ?_
    cases h : route s1 0 (transitLane p) src dst job with
    | port n => exact absurd h (hr n)
    | here => rfl
    | noEntry => rfl
    | fenced => rfl
    | down => rfl
  · obtain ⟨k, hk, hvl, htr, hb, hc⟩ := forward_waits s1 n p
    obtain ⟨hfab, hcmds, hhbm⟩ := transitArrives_eq h1
    refine ⟨forward s1 n p, k, ?_, hk, hvl, htr, ?_, ?_, (fab_of_still (still_forward s1 n p)).trans hfab,
      (cmds_of_still (still_forward s1 n p)).trans hcmds, (hbm_of_still (still_forward s1 n p)).trans hhbm⟩
    · rw [hexec, h1]
      simp only [if_neg (Nat.not_le.mpr hl), hr]
    · rintro cls kind h data rfl
      obtain ⟨-, -, -, rfl⟩ : h.dst = dst ∧ h.src = src ∧ h.job = job ∧ h.ttl = ttl := by simpa [transitPath] using hpath
      exact hb cls kind h data rfl
    · rintro mtype h body rfl
      obtain ⟨-, -, -, rfl⟩ : h.dst = dst ∧ h.src = src ∧ h.job = job ∧ h.ttl = ttl := by simpa [transitPath] using hpath
      exact hc mtype h body rfl

/-- Settles O45: each command's own equation, with `still` for what a transmission leaves. -/
theorem fabricTablesAndTransit : Obligations.FabricTablesAndTransit := by
  unfold Obligations.FabricTablesAndTransit
  intro s hs
  refine ⟨fun hlive => ?_, fun port m ha hn => ⟨?_, fun value boottag => ?_⟩, fun inPort p hp hst hf dst src job ttl hpath hd =>
    transit_acts hs hp hst hf hpath hd⟩
  · have hpf := pfWrites_of hs hlive
    refine ⟨fun value h0 hv => ⟨_, fabricAddress_written hpf value h0 hv, rfl⟩, fun value h => fabricAddress_kept value h,
      fun hfree => ⟨fun hok => ?_, fun hbad => ⟨_, windowWrite_rejected hpf (.inr hbad), rfl⟩⟩,
      fun w hw => ⟨fun hv => ⟨_, windowWrite_rejected hpf (.inl ⟨w, hw, hv⟩), rfl⟩,
        ⟨_, windowRead_shows hpf hw, rfl, fun k hk => windowWords_toNat w hk⟩, ?_⟩⟩
    · obtain ⟨t, ht, hwin⟩ := windowWrite_written hpf hfree hok
      refine ⟨t, ht, by rw [hwin, tfind_tset_same], fun i hi => by rw [hwin, tfind_tset_other _ _ hi], fun hv => ?_⟩
      exact peerSet_of_window (by rw [hwin]; exact mem_tset_self ..) hv
    · refine ⟨_, { w with valid := false, revoking := false }, windowRevoke_revokes hpf, ?_, rfl, fun i hi => ?_⟩
      · rw [tfind_revokeWhere, hw]
        simp
      · rw [tfind_revokeWhere]
        simp [hi]
  · refine ⟨_, revoke_acts ha hn, cmds_acked .., fun i => ?_⟩
    rw [windows_acked, tfind_revokeWhere]
    simp only [Bool.and_eq_true, beq_iff_eq]
  · refine ⟨_, instarRetire_acts ha hn value boottag, cmds_acked .., fun i => ?_⟩
    rw [windows_acked, tfind_retireWhere]
    refine congrArg (Option.map · _) (funext fun w => ?_)
    by_cases h : w.sfaddr = m.src ∧ w.scol = m.scol ∧ w.sboot = boottag
    · obtain ⟨h1, h2, h3⟩ := h
      simp [h1, h2, h3, retireMark]
    · rw [if_neg (by simpa [and_assoc] using h), if_neg (fun ⟨h1, h2, h3, _⟩ => h ⟨h1, h2, h3⟩)]

end Sys2Proof.Machine
end
section
/-! PROOFS. The handoff commands (R147, R365 to R367). -/

namespace Sys2Proof.Machine

theorem colonyProgress_idle {s : State} (h : NoTeardown s) (n : Nat) : colonyProgress s n = s := by
  simp only [colonyProgress, colonyStep_idle h]

theorem settleColonies_idle {s : State} (h : NoTeardown s) : settleColonies s = s := by
  unfold settleColonies
  generalize s.cols = l
  induction l with
  | nil => rfl
  | cons e l ih => rw [List.foldl_cons, colonyProgress_idle h, ih]

/- The peer set (R353). -/

theorem onlyCols_needPeer (s : State) (colony faddr : Nat) : { needPeer s colony faddr with cols := s.cols } = s := by
  unfold needPeer; split <;> rfl

theorem onlyCols_addPeer (s : State) (colony faddr job : Nat) : { addPeer s colony faddr job with cols := s.cols } = s := by
  have h := onlyCols_needPeer s colony faddr
  unfold addPeer
  dsimp only
  split
  · exact h
  · exact h

@[simp] theorem cmds_addPeer (s : State) (colony faddr job : Nat) : (addPeer s colony faddr job).cmds = s.cmds :=
  (congrArg State.cmds (onlyCols_addPeer s colony faddr job) :)
@[simp] theorem fab_addPeer (s : State) (colony faddr job : Nat) : (addPeer s colony faddr job).fab = s.fab :=
  (congrArg State.fab (onlyCols_addPeer s colony faddr job) :)
@[simp] theorem cores_addPeer (s : State) (colony faddr job : Nat) : (addPeer s colony faddr job).cores = s.cores :=
  (congrArg State.cores (onlyCols_addPeer s colony faddr job) :)
@[simp] theorem hbm_addPeer (s : State) (colony faddr job : Nat) : (addPeer s colony faddr job).hbm = s.hbm :=
  (congrArg State.hbm (onlyCols_addPeer s colony faddr job) :)

/-- A peer stands in its colony's set, or the colony takes every peer. -/
theorem peer_of_addPeer (s : State) (colony faddr job : Nat) :
    (faddr, job) ∈ peerSet (addPeer s colony faddr job) colony ∨ (colAt (addPeer s colony faddr job) colony).peersAll = true := by
  unfold addPeer
  dsimp only
  split
  · next h =>
    rcases Bool.or_eq_true _ _ ▸ h with hin | hfull
    · exact .inl (List.contains_iff_mem.mp hin)
    · unfold needPeer at hfull ⊢
      split
      · next hroom =>
        rw [if_pos hroom] at hfull
        simp only [Bool.and_eq_true, Bool.not_eq_true', decide_eq_true_eq] at hfull
        rw [hfull.1, Bool.false_or, decide_eq_true_eq] at hroom
        exact absurd hfull.2 (Nat.not_le.mpr hroom)
      · exact .inr (by rw [colAt_modCol_same])
  · refine .inl (List.mem_append_left _ ?_)
    rw [colAt_modCol_same]
    exact List.mem_append_right _ (List.mem_singleton.mpr rfl)

/- Messages of a command (R346, R348). -/

theorem faddr_of_peerRoute {s : State} {c : Cmd} (h : peerRoute s c = none) : s.fab.faddr ≠ 0 := by
  intro h0
  simp [peerRoute, h0] at h

/-- A message to the command's peer stands among the unacknowledged ones, and only the fabric's state and the transmitters change. -/
theorem handoffMsg_asks {s : State} (c : Cmd) {mtype id : Nat} (body : List Nat) (h0 : s.fab.faddr ≠ 0) (ht : ackedType mtype = true) :
    let t := handoffMsg s c mtype body (some id)
    (∃ x ∈ t.fab.unacked, x.mtype = mtype ∧ x.dst = c.hPeer ∧ x.scol = c.colony ∧ x.job = c.job ∧ x.body = body ∧ x.cmd = some id) ∧
    t.fab.handoffs = s.fab.handoffs ∧ t.fab.windows = s.fab.windows ∧ t.cmds = s.cmds ∧ t.cols = s.cols ∧ t.cores = s.cores ∧ t.hbm = s.hbm := by
  intro t
  have hstill := still_sendMsg s mtype c.hPeer c.colony (stampOf s c.colony) c.job body (some id)
  have hfab : t.fab = _ := fab_of_still hstill
  simp only [Fabric.afterMsg, h0, ht, if_true, if_false] at hfab
  refine ⟨?_, by rw [hfab], by rw [hfab], (cmds_of_still hstill).trans rfl, (cols_of_still hstill).trans rfl,
    (cores_of_still hstill).trans rfl, (hbm_of_still hstill).trans rfl⟩
  rw [hfab]
  exact ⟨_, List.mem_append_right _ (List.mem_singleton.mpr rfl), rfl, rfl, rfl, rfl, rfl, rfl⟩

theorem handoffRow_body {s : State} {id phase : Nat} {c : Cmd} (hc : cmdAt s id = some c) (hop : c.op = 0x34) (hs : canStart s id c = true)
    (hj : jobAborted s c = false) (hph : c.hPhase = phase) (body : Cmd → State) : handoffRow s id phase body = body c := by
  refine (directOrWaiting_body hc hop hs _).trans ?_
  rw [if_neg (not_not_intro hph), hj, if_neg Bool.false_ne_true]

theorem waitIn_attempted {s : State} {id : Nat} {c : Cmd} (hc : cmdAt s id = some c) (hop : c.op = 0x34) :
    waitIn s id = setCmd s id { c with phase := .started } := by
  rw [waitIn, modCmd_some _ hc]
  simp [Cmd.asStarted, Cmd.attempted, hop]

theorem chargeAttempt_eq {s : State} {id : Nat} {c : Cmd} (hc : cmdAt s id = some c) :
    chargeAttempt s id true = setCmd (modAcct s c.colony (fun a => a.plus { c.use with coreNs := c.attemptNs })) id
      { c with attemptNs := 0, use := {}, coreNs := c.coreNs + c.attemptNs } := by
  simp only [chargeAttempt, hc, if_true]

theorem finishAccept_ends {s : State} {id : Nat} {c : Cmd} (hc : cmdAt s id = some c) (hop : c.op = 0x34) (hrun : c.phase = .running)
    (hm : c.stateLen ≤ c.moved) :
    ∃ k, cmdAt (finishAccept s id) id = some k ∧ k.phase = .ended ∧ k.attempts = c.attempts ∧
      (finishAccept s id).cols = s.cols ∧ (finishAccept s id).fab = s.fab ∧ (finishAccept s id).hbm = s.hbm := by
  simp only [finishAccept, hc]
  rw [if_pos ⟨hrun, hop, hm⟩]
  rw [chargeAttempt_eq hc, modCmd_some _ (cmdAt_setCmd_same ..)]
  exact ⟨_, cmdAt_setCmd_same .., rfl, rfl, rfl, rfl, rfl⟩

/-- With every read sent and its data here the ACCEPT's attempt ends (R366). -/
theorem acceptProgress_ends {s : State} {id : Nat} {c : Cmd} (hc : cmdAt s id = some c) (hst : c.stateLen ≤ 64 * c.stage) :
    acceptProgress s id = finishAccept s id := by
  have hsent : sendReads id (localEngine s c) (c.stateLen / 64 + 1) s = s := by
    show (match cmdAt s id with
      | none => s
      | some c => if c.phase ≠ .running ∨ c.stateLen ≤ 64 * c.stage then s else _) = s
    simp only [hc]
    rw [if_pos (.inr hst)]
  simp only [acceptProgress, hc, hsent]

/-- The command of an ACCEPT whose first attempt begins (R165, R366). -/
def Cmd.accepting (c : Cmd) (s : State) (fs : List Frames) : Cmd :=
  { c with phase := .running, reserve := fs, moved := 0, stage := 0, attempts := c.attempts + 1, startTick := s.ticks, attemptNs := 0
           cls := portClass s c }

/-- An ACCEPT of an empty state ends its attempt where it begins it. -/
theorem startAccept_ends {s : State} {id i : Nat} {h : Handoff} {c : Cmd} {fs : List Frames} {col : Colony} (hop : c.op = 0x34)
    (hph : c.phase = .fetched) (hs0 : c.stateLen = 0) (hcf : conflicted s id c = false)
    (htaken : reserveOf (colAt s c.colony) (needOf (touchedPages (colAt s c.colony) c.regions)) = .taken fs col) :
    ∃ k g, cmdAt (startAccept s id i h c) id = some k ∧ k.phase = .ended ∧ k.attempts = c.attempts + 1 ∧
      tfind (startAccept s id i h c).fab.handoffs i = some g ∧ g.st = .accepting ∧ g.cmd = some id ∧ (startAccept s id i h c).hbm = s.hbm := by
  let g : Handoff := { h with st := .accepting, timer := c.hTimer, cmd := some id }
  let s0 := setCmd (setCol s c.colony col) id (c.accepting s fs)
  have hstart : startAccept s id i h c = acceptProgress (setHandoff (addPeer s0 c.colony c.hPeer c.job) i g) id := by
    unfold startAccept
    simp only [hcf, htaken, hph]
    rfl
  have hcmds : (addPeer s0 c.colony c.hPeer c.job).cmds = s0.cmds := cmds_addPeer ..
  have hhbm0 : (addPeer s0 c.colony c.hPeer c.job).hbm = s.hbm := hbm_addPeer s0 ..
  generalize addPeer s0 c.colony c.hPeer c.job = s1 at hstart hcmds hhbm0
  have hc2 : cmdAt (setHandoff s1 i g) id = some (c.accepting s fs) :=
    (congrArg (fun l => tfind l id) hcmds).trans (cmdAt_setCmd_same ..)
  have hlen : (c.accepting s fs).stateLen = 0 := hs0
  obtain ⟨k, hk, hended, hatt, -, hfab, hhbm⟩ := finishAccept_ends hc2 hop rfl (by rw [hlen]; exact Nat.zero_le _)
  rw [hstart, acceptProgress_ends hc2 (by rw [hlen]; exact Nat.zero_le _)]
  refine ⟨k, g, hk, hended, hatt, ?_, rfl, rfl, ?_⟩
  · rw [hfab]
    exact tfind_tset_same ..
  · exact hhbm.trans hhbm0

/-- An ACCEPT that is not running yet takes its turn among the commands that may start. -/
theorem accept_starts {s : State} {id : Nat} {c : Cmd} (hc : cmdAt s id = some c) (hrun : c.phase ≠ .running) :
    exec (.handoffAccept id) s = .next (handoffRow s id 2 (fun c =>
      match cmdHandoff s c with
      | none => waitIn s id
      | some (i, h) =>
        if h.st = .declined then refuseCmd s id 0x0B 0 0
        else if h.st = .offerSeen ∨ (h.st = .accepting ∧ h.cmd = some id) then
          (if h.len ≠ c.stateLen then refuseCmd s id 0x0B 0 0 else startAccept s id i h c)
        else waitIn s id)) := by
  show execHandoffAccept id s = _
  simp only [execHandoffAccept, hc]
  exact if_neg fun h => hrun h.2.2

/-- Settles O43: each phase's body at a command that may start, and the two commands that find it waiting. -/
theorem handoffCommands : Obligations.HandoffCommands := by
  intro s id c hc hop waits asks
  refine ⟨fun hs hj => ⟨fun i w e hph hnone hfree hwin hroute => ?offer, fun hph hnone => ?waits, fun i h hph hsome hseen => ⟨fun hlen ha => ?otherLength,
    fun fs col hl0 hs0 hcf htaken => ?accepts⟩, fun i h hph hsome hacc hroute => ?release, fun hph hroute => ?audit⟩,
    fun hserv hnt hph hrun hst hm => ?ends, fun hserv ha hph h2 => ?timeout⟩
  case offer =>
    let s1 := setHandoff s i { colony := c.colony, job := c.job, hseq := c.hseq, peer := c.hPeer, peerColony := c.hPeerColony, st := .offered
                               timer := c.hTimer, window := w, offset := c.stateVa - e.base, len := c.stateLen, cmd := some id }
    have hcmds : (addPeer s1 c.colony c.hPeer c.job).cmds = s.cmds := cmds_addPeer ..
    have hfab : (addPeer s1 c.colony c.hPeer c.job).fab = s1.fab := fab_addPeer ..
    have hwait := waitIn_attempted ((congrArg (fun l => tfind l id) hcmds).trans hc) hop
    have hx : exec (.handoffOffer id) s = .next (handoffMsg (waitIn (addPeer s1 c.colony c.hPeer c.job) id) c 0x10
        [c.hseq, w, c.hPeerColony, c.stateVa - e.base, c.stateLen] (some id)) := by
      refine next_congr ((handoffRow_body hc hop hs hj hph _).trans ?_)
      rw [if_neg (by rw [phase_of_canStart hs]; decide), hnone, hfree, hwin, hroute]
      rfl
    rw [hwait] at hx
    obtain ⟨hasks, hhand, hwins, hcs, hcols, hcores, hhbm⟩ := handoffMsg_asks (s := setCmd (addPeer s1 c.colony c.hPeer c.job) id { c with phase := .started })
      (id := id) c [c.hseq, w, c.hPeerColony, c.stateVa - e.base, c.stateLen]
      (show (addPeer s1 c.colony c.hPeer c.job).fab.faddr ≠ 0 from hfab ▸ faddr_of_peerRoute hroute) (mtype := 0x10) rfl
    refine ⟨_, hx, ⟨{ c with phase := .started }, ?_, rfl⟩, ?_, fun j hne => ?_, fun j hne => ?_, ?_, hasks, ?_, ?_⟩
    · rw [cmdAt, hcs]; exact cmdAt_setCmd_same ..
    · rw [hhand]
      show tfind (addPeer s1 c.colony c.hPeer c.job).fab.handoffs i = _
      rw [hfab]
      exact tfind_tset_same ..
    · rw [hhand]
      show tfind (addPeer s1 c.colony c.hPeer c.job).fab.handoffs j = _
      rw [hfab]
      exact tfind_tset_other _ _ hne
    · rw [cmdAt, hcs]
      exact (cmdAt_setCmd_other _ _ hne).trans (congrArg (fun l => tfind l j) hcmds)
    · refine (peer_of_addPeer s1 c.colony c.hPeer c.job).imp (fun h => ?_) (fun h => ?_)
      · rwa [peerSet, windowPeers, colAt, hcols, hwins]
      · rwa [colAt, hcols]
    · exact hhbm.trans (hbm_addPeer s1 ..)
    · exact hcores.trans (cores_addPeer s1 ..)
  case waits =>
    have hx : exec (.handoffAccept id) s = .next (waitIn s id) := by
      rw [accept_starts hc (by rw [phase_of_canStart hs]; decide)]
      refine next_congr ((handoffRow_body hc hop hs hj hph _).trans ?_)
      rw [hnone]
    rw [waitIn_attempted hc hop] at hx
    exact ⟨_, hx, ⟨_, cmdAt_setCmd_same .., rfl⟩, rfl, rfl⟩
  case otherLength =>
    refine ⟨_, ?_, refuseCmd_ends 0x0B 0 0 hc (unfinished_of_canStart hs) ha⟩
    rw [accept_starts hc (by rw [phase_of_canStart hs]; decide)]
    refine next_congr ((handoffRow_body hc hop hs hj hph _).trans ?_)
    simp only [hsome, hseen, true_or, if_true]
    rw [if_neg (by decide), if_pos hlen]
  case accepts =>
    obtain ⟨k, g, hk, hended, hatt, hg, hst, hcmd, hhbm⟩ := startAccept_ends (i := i) (h := h) hop (phase_of_canStart hs) hs0 hcf htaken
    refine ⟨_, k, g, ?_, hk, hended, hatt, hg, hst, hcmd, hhbm⟩
    rw [accept_starts hc (by rw [phase_of_canStart hs]; decide)]
    refine next_congr ((handoffRow_body hc hop hs hj hph _).trans ?_)
    simp only [hsome, hseen, true_or, if_true]
    rw [if_neg (by decide), if_neg (by rw [hl0, hs0]; decide)]
  case release =>
    let g : Handoff := { h with st := .releasing, cmd := some id, timer := c.hTimer }
    have hx : exec (.handoffRelease id) s = .next (handoffMsg (setHandoff (waitIn s id) i g) c 0x12 [c.hseq, c.hPeerColony] (some id)) := by
      refine next_congr ((handoffRow_body hc hop hs hj hph _).trans ?_)
      simp only [hsome, hacc, if_true, hroute]
      rfl
    rw [waitIn_attempted hc hop] at hx
    obtain ⟨hasks, hhand, -, hcs, -, -, hhbm⟩ := handoffMsg_asks (s := setHandoff (setCmd s id { c with phase := .started }) i g)
      (id := id) c [c.hseq, c.hPeerColony] (faddr_of_peerRoute hroute) (mtype := 0x12) rfl
    refine ⟨_, g, hx, ⟨{ c with phase := .started }, ?_, rfl⟩, ?_, rfl, rfl, hasks, hhbm⟩
    · rw [cmdAt, hcs]; exact cmdAt_setCmd_same ..
    · rw [hhand]; exact tfind_tset_same ..
  case audit =>
    have hx : exec (.handoffAudit id) s = .next (handoffMsg (waitIn s id) c 0x13
        [c.hseq, (localState s c.colony c.job c.hseq c.hPeer c.hPeerColony).code, 0] (some id)) := by
      refine next_congr ((handoffRow_body hc hop hs hj hph _).trans ?_)
      rw [if_neg (by rw [phase_of_canStart hs]; decide), hroute]
    rw [waitIn_attempted hc hop] at hx
    obtain ⟨hasks, hhand, -, hcs, -, -, hhbm⟩ := handoffMsg_asks (s := setCmd s id { c with phase := .started })
      (id := id) c [c.hseq, (localState s c.colony c.job c.hseq c.hPeer c.hPeerColony).code, 0] (faddr_of_peerRoute hroute) (mtype := 0x13) rfl
    refine ⟨_, hx, ⟨{ c with phase := .started }, ?_, rfl⟩, hhand, hhbm, hasks⟩
    rw [cmdAt, hcs]; exact cmdAt_setCmd_same ..
  case ends =>
    obtain ⟨k, hk, hended, -, hcols, -, hhbm⟩ := finishAccept_ends hc hop hrun hm
    have hx : exec (.handoffAccept id) s = .next (finishAccept s id) := by
      show execHandoffAccept id s = _
      simp only [execHandoffAccept, hc]
      rw [if_pos ⟨hop, hph, hrun⟩, if_pos hserv, acceptProgress_ends hc hst,
        settleColonies_idle (noTeardown_congr hcols hnt)]
    exact ⟨_, k, hx, hk, hended, hhbm⟩
  case timeout =>
    refine ⟨_, ?_, refuseCmd_ends 0x0C 0 0 hc (by rw [Cmd.finished, hph]) ha⟩
    show execHandoffWaitTimeout id s = _
    simp only [execHandoffWaitTimeout, hc]
    rw [if_pos]
    simp [hserv, hop, hph, h2]

end Sys2Proof.Machine
end
section
/-! PROOFS. The collective commands (R356 to R358, R361). -/

namespace Sys2Proof.Machine

/- Frames taken from a colony's pool leave the rest of the colony (R165). -/

theorem takeFrame_keeps {c x : Colony} {set size a : Nat} (h : takeFrame c set size = some (a, x)) : { x with pool := c.pool } = c := by
  unfold takeFrame at h
  split at h
  · obtain ⟨-, rfl⟩ := Prod.mk.inj (Option.some.inj h); rfl
  · exact absurd h nofun

theorem takeFrames_keeps {need : List (Nat × Nat)} {c x : Colony} {fs : List Frames} (h : takeFrames c need = some (fs, x)) :
    { x with pool := c.pool } = c := by
  induction need generalizing c x fs with
  | nil => obtain ⟨-, rfl⟩ := Prod.mk.inj (Option.some.inj h); rfl
  | cons e r ih =>
    obtain ⟨set, size⟩ := e
    unfold takeFrames at h
    split at h
    · exact absurd h nofun
    · next ht =>
      split at h
      · exact absurd h nofun
      · next hr =>
        obtain ⟨-, rfl⟩ := Prod.mk.inj (Option.some.inj h)
        exact (congrArg (fun y : Colony => { y with pool := c.pool }) (ih hr)).trans (takeFrame_keeps ht)

theorem takeScratch_keeps {k : Nat} {c x : Colony} {fs : List Frames} (h : takeScratch c k = some (fs, x)) : { x with pool := c.pool } = c := by
  induction k generalizing c x fs with
  | zero => obtain ⟨-, rfl⟩ := Prod.mk.inj (Option.some.inj h); rfl
  | succ k ih =>
    unfold takeScratch at h
    split at h
    · exact absurd h nofun
    · next ht =>
      split at h
      · exact absurd h nofun
      · next hr =>
        obtain ⟨-, rfl⟩ := Prod.mk.inj (Option.some.inj h)
        obtain ⟨z, -, hz⟩ := List.exists_of_findSome?_eq_some ht
        exact (congrArg (fun y : Colony => { y with pool := c.pool }) (ih hr)).trans (takeFrame_keeps hz)

theorem waits_or_never {fs : List Frames} {x : Colony} (p : Prop) [Decidable p] : (if p then Reserve.wait else .never) ≠ .taken fs x := by
  split <;> nofun

theorem collectiveReserve_keeps {c x : Colony} {k : Cmd} {fs : List Frames} (h : collectiveReserve c k = .taken fs x) :
    { x with pool := c.pool } = c := by
  unfold collectiveReserve at h
  dsimp only at h
  cases hf : takeFrames c (needOf (touchedPages c k.regions)) with
  | none =>
    rw [hf] at h
    exact absurd h (waits_or_never _)
  | some e =>
    obtain ⟨fs1, c1⟩ := e
    rw [hf] at h
    dsimp only at h
    cases hs : takeScratch c1 (if k.op = 48 then (32 * k.cCount + 65535) / 65536 else 0) with
    | none =>
      rw [hs] at h
      exact absurd h (waits_or_never _)
    | some g =>
      obtain ⟨gs, c2⟩ := g
      rw [hs] at h
      obtain ⟨-, rfl⟩ := Reserve.taken.inj h
      exact (congrArg (fun y : Colony => { y with pool := c.pool }) (takeScratch_keeps hs)).trans (takeFrames_keeps hf)

/- An engine that is not halted stays so where the stalled agents of the colonies do. -/

theorem agentHalted_setCol {s : State} {n a : Nat} {c : Colony} (hc : c.stalled = (colAt s n).stalled) (h : agentHalted s a = false) :
    agentHalted (setCol s n c) a = false := by
  simp only [agentHalted, Bool.or_eq_false_iff, List.any_eq_false] at h ⊢
  refine ⟨h.1, fun e he => ?_⟩
  rcases mem_tset he with rfl | he
  · show ¬c.stalled.contains a = true
    rw [hc, colAt]
    rcases tget_mem {} s.cols n with hd | ⟨x, hx, hxe⟩
    · rw [hd]; exact Bool.false_ne_true
    · rw [← hxe]; exact h.2 x hx
  · exact h.2 e he

theorem engineHalted_setCol {s : State} {n : Nat} {c : Colony} (hc : c.stalled = (colAt s n).stalled) {e : Option Nat}
    (h : engineHalted s e = false) : engineHalted (setCol s n c) e = false := by
  cases e with
  | none => rfl
  | some m =>
    simp only [engineHalted, Option.any_some, Bool.or_eq_false_iff] at h ⊢
    obtain ⟨⟨hh, hw⟩, ha⟩ := h
    exact ⟨⟨agentHalted_setCol hc hh, hw⟩, ha⟩

/-- A colony without its peer set. -/
def Colony.noPeers (c : Colony) : Colony := { c with peers := [], peersAll := false }

/-- What the peers of a plan leave of the state: all but the peer sets of the colony. -/
structure PeersOnly (s t : State) (n : Nat) : Prop where
  rest : { t with cols := s.cols } = s
  colony : (colAt t n).noPeers = (colAt s n).noPeers
  halted : ∀ e, engineHalted s e = false → engineHalted t e = false

theorem PeersOnly.refl (s : State) (n : Nat) : PeersOnly s s n := ⟨rfl, rfl, fun _ h => h⟩

theorem PeersOnly.trans {s t u : State} {n : Nat} (h : PeersOnly s t n) (g : PeersOnly t u n) : PeersOnly s u n :=
  ⟨(congrArg (fun v : State => { v with cols := s.cols }) g.rest).trans h.rest, g.colony.trans h.colony, fun e he => g.halted e (h.halted e he)⟩

theorem peersOnly_modCol (s : State) (n : Nat) {f : Colony → Colony} (hf : ∀ c, (f c).noPeers = c.noPeers) : PeersOnly s (modCol s n f) n :=
  ⟨rfl, by rw [colAt_modCol_same, hf], fun _ h => engineHalted_setCol (c := f (colAt s n)) (congrArg Colony.stalled (hf (colAt s n)) :) h⟩

theorem peersOnly_needPeer (s : State) (n faddr : Nat) : PeersOnly s (needPeer s n faddr) n := by
  unfold needPeer
  split
  · exact .refl s n
  · exact peersOnly_modCol s n fun _ => rfl

theorem peersOnly_addPeer (s : State) (n faddr job : Nat) : PeersOnly s (addPeer s n faddr job) n := by
  unfold addPeer
  dsimp only
  split
  · exact peersOnly_needPeer s n faddr
  · exact (peersOnly_needPeer s n faddr).trans (peersOnly_modCol _ n fun _ => rfl)

/-- The peers that a plan's steps name join the colony's set (R353). -/
def addPeers (n job : Nat) (plan : List PlanStep) (s : State) : State :=
  plan.foldl (fun t p => if p.op = 1 ∨ p.op = 2 ∨ p.op = 5 then addPeer t n p.peer job else t) s

theorem peersOnly_addPeers (n job : Nat) (plan : List PlanStep) (s : State) : PeersOnly s (addPeers n job plan s) n := by
  induction plan generalizing s with
  | nil => exact .refl s n
  | cons p l ih =>
    refine PeersOnly.trans ?_ (ih _)
    dsimp only
    split
    · exact peersOnly_addPeer ..
    · exact .refl s n

/- A plan that waits for its peers (R356, R357, R360). -/

/-- A step with nothing of its own to do. -/
def PlanStep.idle (p : PlanStep) : Prop := p.done = true ∨ p.op = 3 ∨ (p.op = 6 ∧ p.bars < p.nsrc)

theorem runStep_at {s : State} {id i : Nat} {c : Cmd} (eng : Option Nat) (hc : cmdAt s id = some c) (h : ∀ p, c.plan[i]? = some p → p.idle) :
    runStep id eng s i = s := by
  unfold runStep
  simp only [hc]
  split
  · rfl
  · next p hp =>
    split
    · rfl
    · next hgo =>
      simp only [not_or] at hgo
      rcases h p hp with hd | h3 | ⟨h6, hb⟩
      · exact absurd hd hgo.2.1
      · exact absurd h3 hgo.2.2
      · simp only [h6]
        split
        · rfl
        · exact if_neg (Nat.not_le.mpr hb)

theorem runStep_idle {s : State} {id : Nat} {c : Cmd} (eng : Option Nat) (i : Nat) (hc : cmdAt s id = some c) (h : ∀ p ∈ c.plan, p.idle) :
    runStep id eng s i = s :=
  runStep_at eng hc fun p hp => h p (List.mem_of_getElem? hp)

theorem runSteps_idle {s : State} {id : Nat} {c : Cmd} (eng : Option Nat) (hc : cmdAt s id = some c) (h : ∀ p ∈ c.plan, p.idle) (l : List Nat) :
    l.foldl (runStep id eng) s = s :=
  foldl_fixed_of_mem fun i _ => runStep_idle eng i hc h

theorem Waiting.idle {plan : List PlanStep} (h : Waiting plan) : ∀ p ∈ plan, p.idle := fun p hp =>
  (h.1 p hp).imp_right (Or.imp_left And.left)

theorem settleExpects_waiting {plan : List PlanStep} (h : Waiting plan) : settleExpects plan = plan := by
  refine (List.map_congr_left fun p hp => ?_).trans (List.map_id plan)
  rcases h.1 p hp with hd | ⟨h3, k, hk, hgot⟩ | ⟨h6, -⟩
  · split
    · cases p; simp_all
    · rfl
  · rw [if_neg]; rfl
    simp only [h3, beq_self_eq_true, Bool.true_and, List.all_eq_true, List.mem_range, beq_iff_eq, not_forall]
    exact ⟨k, hk, hgot⟩
  · rw [if_neg]; rfl
    simp [h6]

theorem finishCollective_waiting {s : State} {id : Nat} {c : Cmd} (hc : cmdAt s id = some c) (h : Waiting c.plan) :
    finishCollective s id = s := by
  obtain ⟨p, hp, hd⟩ := h.2
  simp only [finishCollective, hc]
  refine if_neg fun hall => ?_
  rw [List.all_eq_true.mp hall.2.1 p hp] at hd
  exact Bool.noConfusion hd

theorem sumSource_idle {s : State} {id : Nat} {c : Cmd} (eng : Option Nat) (k : Nat) (hc : cmdAt s id = some c) (h : c.cCount ≤ c.moved) :
    sumSource id eng k s = s := by
  cases k with
  | zero => rfl
  | succ k =>
    unfold sumSource
    simp only [hc]
    exact if_pos (.inr h)

/-- A running collective after what it does first: nothing, or the sum of its own SRC (R358). -/
theorem progress_of {s s1 : State} {id : Nat} {c c1 : Cmd} (hc : cmdAt s id = some c) (hrun : c.phase = .running) (hcol : c.isCollective = true)
    (hh : engineHalted s (localEngine s c) = false)
    (hs1 : (if c.op = 0x30 then sumSource id (localEngine s c) (c.cCount / 4 + 1) s else s) = s1)
    (hc1 : cmdAt s1 id = some c1) (hm : c.op = 0x30 → c.cCount ≤ c1.moved) (hidle : ∀ p ∈ c1.plan, p.idle) :
    progress s id = finishCollective s1 id := by
  unfold progress
  simp only [hc, hrun, hcol, hh, hs1, hc1, Option.any_some, runSteps_idle _ hc1 hidle]
  simp only [ne_eq, not_true_eq_false, Bool.not_true, Bool.false_eq_true, or_self, if_false, decide_eq_true_eq]
  exact if_neg fun h => Nat.not_lt.mpr (hm h.1) h.2

theorem progress_idle {s : State} {id : Nat} {c : Cmd} (hc : cmdAt s id = some c) (hrun : c.phase = .running) (hcol : c.isCollective = true)
    (hh : engineHalted s (localEngine s c) = false) (hm : c.op = 0x30 → c.cCount ≤ c.moved) (hidle : ∀ p ∈ c.plan, p.idle) :
    progress s id = finishCollective s id := by
  refine progress_of hc hrun hcol hh ?_ hc hm hidle
  split
  · next h => exact sumSource_idle _ _ hc (hm h)
  · rfl

/- The start (R356, R358, R361). -/

/-- The command of a collective whose attempt begins, with its regions, its plan and its reserve. -/
def Cmd.collecting (c : Cmd) (s : State) (regions : List (Nat × Nat)) (members : Nat) (plan : List PlanStep) (fs : List Frames) : Cmd :=
  { c with
    regions := regions, plan := plan, members := members, phase := .running, reserve := fs, attempts := c.attempts + 1, startTick := s.ticks
    attemptNs := 0, use := {}, moved := 0, scratch := [], high := false, cls := portClass s c }

/-- The state in which a collective's attempt begins: its reserve taken, its peers and its CSEQ noted. -/
def collecting (s : State) (id : Nat) (c k : Cmd) (col : Colony) (plan : List PlanStep) : State :=
  modCol (addPeers c.colony c.job plan (setCmd (setCol s c.colony col) id k)) c.colony
    (fun x => { x with jobSeq := tset x.jobSeq c.job (max (tget 0 x.jobSeq c.job) c.cseqNo) })

/-- The regions of a collective: a GATHER's whole buffer, else the packet's (R165). -/
def collectiveRegions (c : Cmd) (members : Nat) : List (Nat × Nat) := if c.op = 0x31 then [(c.cDst, c.cLen * members)] else c.regions

theorem beginCollective_begins {s : State} {id members : Nat} {c : Cmd} {plan : List PlanStep} {fs : List Frames} {col : Colony}
    (hw : Waiting plan)
    (hcf : conflicted s id { c with regions := collectiveRegions c members, plan := plan, members := members } = false)
    (hres : collectiveReserve (colAt s c.colony) { c with regions := collectiveRegions c members, plan := plan, members := members } = .taken fs col) :
    beginCollective s id c members plan = progress (collecting s id c (c.collecting s (collectiveRegions c members) members plan fs) col plan) id := by
  rw [collectiveRegions] at hcf hres
  unfold beginCollective
  simp only [settleExpects_waiting hw, hcf, hres]
  rfl

/-- An attempt has begun: its command, its CSEQ (R359), and no memory or core changed. -/
structure BegunAt (s t : State) (id : Nat) (c k : Cmd) (col : Colony) : Prop where
  cmd : cmdAt t id = some k
  seq : tget 0 (colAt t c.colony).jobSeq c.job = max (tget 0 col.jobSeq c.job) c.cseqNo
  hbm : t.hbm = s.hbm
  cores : t.cores = s.cores

theorem collecting_begun (s : State) (id : Nat) (c k : Cmd) (col : Colony) (plan : List PlanStep) :
    BegunAt s (collecting s id c k col plan) id c k col := by
  have hp := peersOnly_addPeers c.colony c.job plan (setCmd (setCol s c.colony col) id k)
  have hcmds := congrArg State.cmds hp.rest
  have hhbm := congrArg State.hbm hp.rest
  have hcores := congrArg State.cores hp.rest
  have hseq := congrArg Colony.jobSeq hp.colony
  refine ⟨?_, ?_, hhbm, hcores⟩
  · exact (congrArg (fun l => tfind l id) hcmds).trans (cmdAt_setCmd_same ..)
  · rw [collecting, colAt_modCol_same]
    show tget 0 (tset _ _ (max (tget 0 (colAt _ _).jobSeq _) _)) _ = _
    rw [tget_tset_same]
    refine congrArg (fun l => max (tget 0 l c.job) c.cseqNo) (hseq.trans ?_)
    exact (congrArg Colony.jobSeq (colAt_setCol_same s c.colony col) :)

/-- The engines and the colony's units stand as they did (R299). -/
theorem collecting_engines {s : State} {id : Nat} {c k : Cmd} {col : Colony} (plan : List PlanStep) (hcol : { col with pool := (colAt s c.colony).pool } = colAt s c.colony) :
    (collecting s id c k col plan).ports = s.ports ∧ (colAt (collecting s id c k col plan) c.colony).cur = (colAt s c.colony).cur ∧
    ∀ e, engineHalted s e = false → engineHalted (collecting s id c k col plan) e = false := by
  have hp := peersOnly_addPeers c.colony c.job plan (setCmd (setCol s c.colony col) id k)
  have hcur : (colAt (addPeers c.colony c.job plan (setCmd (setCol s c.colony col) id k)) c.colony).cur = col.cur :=
    (congrArg Colony.cur hp.colony :).trans (congrArg Colony.cur (colAt_setCol_same s c.colony col) :)
  refine ⟨(congrArg State.ports hp.rest :), ?_, fun e he => ?_⟩
  · rw [collecting, colAt_modCol_same]
    exact hcur.trans (congrArg Colony.cur hcol :)
  · refine engineHalted_setCol (n := c.colony) ?_ (hp.halted e ?_)
    · rfl
    exact engineHalted_setCol (c := col) (congrArg Colony.stalled hcol :) he

theorem collectiveRow_starts {s : State} {id op : Nat} {c : Cmd} (hc : cmdAt s id = some c) (hop : c.op = op) (hs : canStart s id c = true) :
    collectiveRow s id op = startCollective s id c := by
  simp only [collectiveRow, hc]
  rw [if_neg (not_not_intro hop), if_pos hs]

theorem collectiveRow_goesOn {s : State} {id op : Nat} {c : Cmd} (hc : cmdAt s id = some c) (hop : c.op = op) (hserv : serving s = true)
    (hrun : c.phase = .running) : collectiveRow s id op = progress s id := by
  have hs : ¬canStart s id c = true := fun h => absurd ((phase_of_canStart h).symm.trans hrun) nofun
  simp only [collectiveRow, hc]
  rw [if_neg (not_not_intro hop), if_neg hs, if_pos ⟨hserv, hrun⟩]

/-- The four collective commands by their opcodes. -/
def collectiveRows (id : Nat) : List (Nat × Instr) := [(0x30, .reduce id), (0x31, .gather id), (0x32, .scatter id), (0x33, .barrier id)]

/-- The rows of the four collective commands run the row of their opcode. -/
theorem exec_collective {s : State} {id : Nat} {r : Nat × Instr}
    (hr : r ∈ collectiveRows id) :
    exec r.2 s = .next (collectiveRow s id r.1) := by
  simp only [collectiveRows, List.mem_cons, List.not_mem_nil, or_false] at hr
  rcases hr with rfl | rfl | rfl | rfl <;> rfl

theorem isCollective_of_row {id : Nat} {c : Cmd} {r : Nat × Instr}
    (hr : r ∈ collectiveRows id) (hop : r.1 = c.op) :
    c.isCollective = true := by
  simp only [collectiveRows, List.mem_cons, List.not_mem_nil, or_false] at hr
  rw [Cmd.isCollective, ← hop]
  rcases hr with rfl | rfl | rfl | rfl <;> rfl

/-- The plan as it stands in memory is legal or not; a legal one begins the attempt (R356). -/
theorem startCollective_eq {s : State} {id : Nat} {c : Cmd} {hd body : List Byte} (hj : jobAborted s c = false) (hva : c.planVa % 64 = 0)
    (hhd : vaRead s c.colony c.planVa 16 .read = .ok hd) (hok : planHeadOk hd = true)
    (hbody : vaRead s c.colony (c.planVa + 16) (32 * bytesAt hd 6 2) .read = .ok body) :
    startCollective s id c =
      if !(planSteps (bytesAt hd 6 2) body).all (stepOk c (bytesAt hd 8 2)) then refuseCmd s id 0x0A 0 0
      else beginCollective (noteRead s c c.planVa (16 + 32 * bytesAt hd 6 2) .read) id c (bytesAt hd 8 2)
        ((planSteps (bytesAt hd 6 2) body).map stepOf) := by
  simp only [startCollective, hj, hhd, hok, hbody]
  rw [if_neg Bool.false_ne_true, if_neg (not_not_intro hva)]
  rfl

/- The port engine's own reads (R165, R299). -/

theorem agentTc_port (s : State) (n : Nat) : agentTc s (664 + n) = (portAt s n).tc := by
  rw [agentTc, if_neg (by omega), if_neg (by omega), if_neg (by omega), Nat.add_sub_cancel_left]

theorem rewalk_permitted {s : State} {agent cls colony va : Nat} {acc : Access} {y : TcEntry}
    (hy : tcHit (agentTc s agent) colony (stampOf s colony) va = some y) (hp : permits y.r y.w y.i acc = true) :
    rewalk s agent cls colony va acc = s := by
  simp only [rewalk, hy, hp, if_true]

/-- A missed translation is asked for, and the engine waits (R299). -/
theorem reach_misses {s : State} {id n va : Nat} {c : Cmd} {acc : Access} (hva : va < 2 ^ 48) (hh : engineHalted s (some n) = false)
    (hm : tcHit (portAt s n).tc c.colony (stampOf s c.colony) va = none) :
    reach s id c (some n) va acc = .stop (modPort s n (fun p => { p with want := some (va, acc == .write, id) })) := by
  have hlook : tcLook (colAt s c.colony) (portAt s n).tc c.colony (colAt s c.colony).cur.instar va acc = .miss 0 := by
    rw [stampOf] at hm
    rw [tcLook, if_neg (Nat.not_le.mpr hva), hm]
  simp only [reach, hh, hlook, Bool.false_eq_true, if_false]

/-- A translation that permits the access gives the page (R296, R299). -/
theorem reach_hits {s : State} {id n va dpa : Nat} {c : Cmd} {acc : Access} {p : Pte} {y : TcEntry} (hh : engineHalted s (some n) = false)
    (hy : tcHit (portAt s n).tc c.colony (stampOf s c.colony) va = some y) (hperm : permits y.r y.w y.i acc = true)
    (hlook : tcLook (colAt s c.colony) (portAt s n).tc c.colony (stampOf s c.colony) va acc = .ok dpa p) :
    reach s id c (some n) va acc = .at_ s dpa p := by
  have hre : rewalk s (664 + n) c.cls c.colony va acc = s := rewalk_permitted (by rw [agentTc_port]; exact hy) hperm
  rw [stampOf] at hlook
  simp only [reach, hh, hlook, hre, Bool.false_eq_true, if_false]

/-- A line that the engine can read: the slice sees it, and its bytes come as the coherent domain has them. -/
theorem engineLine_reads {s : State} {id n va dpa : Nat} {c : Cmd} {p : Pte} {y : TcEntry} (hc : cmdAt s id = some c)
    (hh : engineHalted s (some n) = false) (hy : tcHit (portAt s n).tc c.colony (stampOf s c.colony) va = some y) (hr : y.r = true)
    (hlook : tcLook (colAt s c.colony) (portAt s n).tc c.colony (stampOf s c.colony) va .read = .ok dpa p)
    (hown : ownCheck (colAt s c.colony) (stampOf s c.colony) (channelOf (readAddr s (colAt s c.colony) (some c) dpa)) = .pass)
    (hblk : reachBlocked s c (some n) (readAddr s (colAt s c.colony) (some c) dpa) false = false)
    (hchk : checkRead s (readAddr s (colAt s c.colony) (some c) dpa) = (s, none)) :
    engineLine s id c (some n) va =
      let fa := readAddr s (colAt s c.colony) (some c) dpa
      .data (sliceTouch s c.cls (channelOf fa) (chanOff (lineBase fa)) false) (coherentData s fa) := by
  rw [stampOf] at hown
  simp only [engineLine, reach_hits hh hy (acc := .read) hr hlook, hc, hown, hblk, hchk, Bool.false_eq_true, if_false]
  rfl

/-- A collective with only peers to await stands still. -/
theorem progress_waits {s : State} {id : Nat} {c : Cmd} (hc : cmdAt s id = some c) (hop : c.op ≠ 0x30) (hw : Waiting c.plan) :
    progress s id = s := by
  by_cases hrun : c.phase = .running ∧ c.isCollective = true
  · cases hh : engineHalted s (localEngine s c) with
    | true => simp [progress, hc, hh]
    | false => rw [progress_idle hc hrun.1 hrun.2 hh (absurd · hop) hw.idle, finishCollective_waiting hc hw]
  · simp only [progress, hc]
    refine if_pos ?_
    simpa [or_iff_not_imp_left] using hrun

/-- A REDUCE whose SRC has no translation asks for it first (R299, R358). -/
theorem progress_asks {s : State} {id n : Nat} {c : Cmd} (hc : cmdAt s id = some c) (hrun : c.phase = .running) (hop : c.op = 0x30)
    (hn : localEngine s c = some n) (hh : engineHalted s (some n) = false) (hm : c.moved = 0) (hpos : 0 < c.cCount) (hva : c.cSrc < 2 ^ 48)
    (hmiss : tcHit (portAt s n).tc c.colony (stampOf s c.colony) c.cSrc = none) :
    progress s id = modPort s n (fun p => { p with want := some (c.cSrc, false, id) }) := by
  have hline : engineLine s id c (some n) c.cSrc = .stop (modPort s n (fun p => { p with want := some (c.cSrc, false, id) })) := by
    simp only [engineLine, reach_misses hva hh hmiss]
    rfl
  have hsum : sumSource id (some n) (c.cCount / 4 + 1) s = modPort s n (fun p => { p with want := some (c.cSrc, false, id) }) := by
    rw [sumSource]
    simp only [hc, hrun, hm, Nat.mul_zero, Nat.add_zero, hline]
    exact if_neg fun h => h.elim (fun h => h rfl) (Nat.not_le.mpr hpos)
  have hc1 : cmdAt (modPort s n (fun p => { p with want := some (c.cSrc, false, id) })) id = some c := hc
  have hcol : c.isCollective = true := by rw [Cmd.isCollective, hop]; rfl
  simp only [progress, hc, hrun, hcol, hn, hh, hop, hsum, hc1, hm, hpos, if_true, Option.any_some, decide_true, and_self, ne_eq, not_true_eq_false,
    Bool.not_true, Bool.false_eq_true, or_self, if_false]

/-- A legal plan with only peers to await runs (R356, R361); a REDUCE asks for the translation of its SRC first (R358). -/
theorem collective_begins {s : State} {id : Nat} {c : Cmd} {hd body : List Byte} {fs : List Frames} {col : Colony} (hc : cmdAt s id = some c)
    (hs : canStart s id c = true) (hj : jobAborted s c = false) (hva : c.planVa % 64 = 0)
    (hhd : vaRead s c.colony c.planVa 16 .read = .ok hd) (hok : planHeadOk hd = true)
    (hbody : vaRead s c.colony (c.planVa + 16) (32 * bytesAt hd 6 2) .read = .ok body) :
    let raw := planSteps (bytesAt hd 6 2) body
    let plan := raw.map stepOf
    let regions := collectiveRegions c (bytesAt hd 8 2)
    let c1 := { c with regions := regions, plan := plan, members := bytesAt hd 8 2 }
    raw.all (stepOk c (bytesAt hd 8 2)) = true → Waiting plan →
      conflicted (noteRead s c c.planVa (16 + 32 * bytesAt hd 6 2) .read) id c1 = false →
      collectiveReserve (colAt s c.colony) c1 = .taken fs col →
      let begun (t : State) (k : Cmd) : Prop :=
        cmdAt t id = some k ∧ k.phase = .running ∧ k.plan = plan ∧ k.members = bytesAt hd 8 2 ∧ k.reserve = fs ∧
        k.attempts = c.attempts + 1 ∧ tget 0 (colAt t c.colony).jobSeq c.job = max (tget 0 col.jobSeq c.job) c.cseqNo ∧
        t.hbm = s.hbm ∧ t.cores = s.cores
      (c.op ≠ 0x30 → ∀ r ∈ collectiveRows id, r.1 = c.op → ∃ t k, exec r.2 s = .next t ∧ begun t k) ∧
      ∀ n, c.op = 0x30 → 0 < c.cCount → c.cSrc < 2 ^ 48 → localEngine s c = some n → engineHalted s (some n) = false →
        tcHit (portAt s n).tc c.colony (stampOf s c.colony) c.cSrc = none →
        ∃ t k, exec (.reduce id) s = .next t ∧ begun t k ∧ k.moved = 0 ∧ k.scratch = [] ∧ (portAt t n).want = some (c.cSrc, false, id) := by
  intro raw plan regions c1 hall hw hcf hres begun
  let sN := noteRead s c c.planVa (16 + 32 * bytesAt hd 6 2) .read
  let k := c.collecting sN regions (bytesAt hd 8 2) plan fs
  let t := collecting sN id c k col plan
  have hcolN : colAt sN c.colony = colAt s c.colony := noteRead_keeps (fun u => colAt u c.colony) (fun _ => rfl) ..
  rw [← hcolN] at hres
  have hbegins (r) (hr : r ∈ collectiveRows id) (hop : r.1 = c.op) : exec r.2 s = .next (progress t id) := by
    rw [exec_collective hr, collectiveRow_starts hc hop.symm hs, startCollective_eq hj hva hhd hok hbody]
    refine next_congr ((if_neg ?_).trans (beginCollective_begins hw hcf hres))
    rw [hall]; decide
  obtain ⟨hcmd, hseq, hhbm, hcores⟩ := collecting_begun sN id c k col plan
  have hbm0 : sN.hbm = s.hbm := noteRead_keeps State.hbm (fun _ => rfl) ..
  have hcores0 : sN.cores = s.cores := noteRead_keeps State.cores (fun _ => rfl) ..
  refine ⟨fun hne r hr hop => ?_, fun n hop hpos hsrc hn hh hmiss => ?_⟩
  · refine ⟨t, k, ?_, hcmd, rfl, rfl, rfl, rfl, rfl, hseq, hhbm.trans hbm0, hcores.trans hcores0⟩
    rw [hbegins r hr hop, progress_waits hcmd hne hw]
  · obtain ⟨hports, hcur, hhalt⟩ := collecting_engines (s := sN) (id := id) (k := k) plan (collectiveReserve_keeps hres)
    have hportsN : sN.ports = s.ports := noteRead_keeps State.ports (fun _ => rfl) ..
    have hport (m : Nat) : portAt t m = portAt s m := congrArg (fun l => tget ({} : Port) l m) (hports.trans hportsN)
    have hcurT : (colAt t c.colony).cur = (colAt s c.colony).cur := hcur.trans (congrArg Colony.cur hcolN)
    have hhN : engineHalted sN (some n) = false := (noteRead_keeps (fun u => engineHalted u (some n)) (fun _ => rfl) ..).trans hh
    have hnT : localEngine t k = some n := by
      show (colAt t c.colony).cur.ports.find? _ = _
      rw [hcurT]
      simp only [hport]
      exact hn
    refine ⟨modPort t n (fun p => { p with want := some (c.cSrc, false, id) }), k, ?_,
      ⟨hcmd, rfl, rfl, rfl, rfl, rfl, hseq, hhbm.trans hbm0, hcores.trans hcores0⟩, rfl, rfl, ?_⟩
    · have hasks := progress_asks (s := t) hcmd rfl hop hnT (hhalt _ hhN) rfl hpos hsrc (by
        show tcHit (portAt t n).tc c.colony (colAt t c.colony).cur.instar c.cSrc = none
        rw [hport, hcurT]; exact hmiss)
      exact (hbegins (0x30, .reduce id) List.mem_cons_self hop.symm).trans (next_congr hasks)
    · rw [portAt_modPort_same]

/-- Settles O40: a plan that only waits starts and stops at once; a REDUCE first adds its own partials. -/
theorem collectivesRun : Obligations.CollectivesRun := by
  intro s id c hc rows
  refine ⟨?plan, ?sums,
    fun hserv hrun hdone hsum hh r hr hop => ?ends⟩
  case plan =>
    intro hd body fs col hs hj hva hhd hok hbody raw plan regions c1
    refine ⟨fun hall hw hcf hres => collective_begins hc hs hj hva hhd hok hbody hall hw hcf hres, fun hbad ha r hr hop => ?_⟩
    refine ⟨_, ?_, refuseCmd_ends 0x0A 0 0 hc (unfinished_of_canStart hs) ha⟩
    rw [exec_collective hr, collectiveRow_starts hc hop.symm hs, startCollective_eq hj hva hhd hok hbody]
    refine next_congr (if_pos ?_)
    rw [hbad]; rfl
  case sums =>
    intro n y dpa p hserv hop hrun hw hlt hle hn hh hy hyr hlook fa hown hblk hchk
    let t := setCmd (sliceTouch s c.cls (channelOf fa) (chanOff (lineBase fa)) false) id
      { c with scratch := addScratch c.scratch c.moved (widesOf 4 (coherentData s fa)), moved := c.moved + 4 }
    have hview {α : Type} (view : State → α) (hv : ∀ u, view (apartFromWalks u) = view u) :
        view (sliceTouch s c.cls (channelOf fa) (chanOff (lineBase fa)) false) = view s := by
      rw [← hv, apartFromWalks_sliceTouch, hv]
    have hc1 : cmdAt (sliceTouch s c.cls (channelOf fa) (chanOff (lineBase fa)) false) id = some c := (hview (fun u => cmdAt u id) fun _ => rfl).trans hc
    have hct : cmdAt t id = some { c with scratch := addScratch c.scratch c.moved (widesOf 4 (coherentData s fa)), moved := c.moved + 4 } :=
      cmdAt_setCmd_same ..
    have hsum : sumSource id (some n) (c.cCount / 4 + 1) s = t := by
      rw [sumSource]
      simp only [hc, engineLine_reads hc hh hy hyr hlook hown hblk hchk]
      rw [if_neg (by simp [hrun, hlt]), modCmd_some _ hc1]
      exact sumSource_idle _ _ hct hle
    refine ⟨t, ?_, hview State.hbm fun _ => rfl, hview State.cores fun _ => rfl, fun j hj => ?_, hct⟩
    · have hprog : progress s id = finishCollective t id := by
        refine progress_of hc hrun (by rw [Cmd.isCollective, hop]; rfl) (hn ▸ hh) ?_ hct (fun _ => hle) hw.idle
        rw [if_pos hop, hn, hsum]
      show Host.Outcome.next (collectiveRow s id 0x30) = _
      rw [collectiveRow_goesOn hc hop hserv hrun, hprog, finishCollective_waiting hct hw]
    · exact (cmdAt_setCmd_other _ _ hj).trans (hview (fun u => cmdAt u j) fun _ => rfl)
  case ends =>
    have hall : c.plan.all (fun p => p.done) = true := List.all_eq_true.mpr hdone
    have hprog := progress_idle hc hrun (isCollective_of_row hr hop) hh hsum fun p hp => .inl (hdone p hp)
    have hfin : finishCollective s id = setCmd (chargeAttempt s id true) id { c with
        attemptNs := 0, use := {}, coreNs := c.coreNs + c.attemptNs, phase := .ended, scratch := []
        result := if c.op = 0x30 then c.cCount else if c.op = 0x33 then 0 else c.moved } := by
      simp only [finishCollective, hc]
      rw [if_pos ⟨hrun, hall, (Classical.em (c.op = 0x30)).symm.imp_right hsum⟩, modCmd_some _ (chargeAttempt_eq hc ▸ cmdAt_setCmd_same ..)]
    have hx := exec_collective (s := s) hr
    rw [collectiveRow_goesOn hc hop.symm hserv hrun, hprog, hfin] at hx
    refine ⟨_, _, hx, cmdAt_setCmd_same .., rfl, rfl, rfl, fun j hj => ?_, ?_, ?_⟩
    · rw [cmdAt_setCmd_other _ _ hj, chargeAttempt_eq hc, cmdAt_setCmd_other _ _ hj]; rfl
    · rw [chargeAttempt_eq hc]; rfl
    · rw [chargeAttempt_eq hc]; rfl

end Sys2Proof.Machine
end
section
/-! PROOFS. What a port engine's write of one line leaves (R165, R168, R231, R272). -/

namespace Sys2Proof.Machine

/- A walk touches no more of a slice than its lines and their counts (R229). -/

/-- A channel without its slice's lines and counts. -/
def Channel.apartSlice (c : Channel) : Channel := { c with hit := 0, miss := 0, clock := 0, lines := [], bitmapCache := [] }

/-- The channels without their slices' lines and counts. -/
def slices (s : State) (m : Nat) : Channel := (chanAt s m).apartSlice

theorem slices_modChan (s : State) (n : Nat) {f : Channel → Channel} (h : ∀ c, (f c).apartSlice = c.apartSlice) :
    slices (modChan s n f) = slices s := by
  funext m
  by_cases hm : m = n
  · subst hm; rw [slices, chanAt_modChan_same, h, slices]
  · rw [slices, modChan, chanAt_setChan_other _ _ hm, slices]

theorem apartSlice_touched (c : Channel) (block : Nat) (b : Bool) : (if b then noteBitmap c block else c).apartSlice = c.apartSlice := by
  cases b <;> simp [noteBitmap, Channel.apartSlice]

@[simp] theorem slices_sliceTouch (s : State) (cls ch off : Nat) (dirty : Bool) : slices (sliceTouch s cls ch off dirty) = slices s := by
  have hurg : slices (if cls = 0 then modHub s (fun h => { h with urgSeen := true }) else s) = slices s := by split <;> rfl
  unfold sliceTouch
  refine (slices_modChan _ ch fun c => ?_).trans hurg
  dsimp only
  split <;> exact apartSlice_touched c _ _

@[simp] theorem slices_fillTc (s : State) (agent : Nat) (e : TcEntry) : slices (fillTc s agent e) = slices s := by
  unfold fillTc setTc
  repeat' split
  all_goals rfl

@[simp] theorem slices_readEntry (cls : Nat) (c : Colony) (va : Nat) (s : State) (level : Nat) : slices (readEntry cls c va s level) = slices s := by
  unfold readEntry; split <;> simp

@[simp] theorem slices_walkTables (s : State) (die cls colony va : Nat) : slices (walkTables s die cls colony va) = slices s :=
  foldl_keeps slices _ (fun t l => slices_readEntry _ _ _ t l) _ _

@[simp] theorem slices_walkFor (s : State) (agent cls colony va : Nat) : slices (walkFor s agent cls colony va).1 = slices s := by
  simp only [walkFor]
  split <;> simp

@[simp] theorem slices_rewalk (s : State) (agent cls colony va : Nat) (acc : Access) : slices (rewalk s agent cls colony va acc) = slices s := by
  simp only [rewalk]
  repeat' split
  all_goals simp [show ∀ n f, slices (modMesh s n f) = slices s from fun _ _ => rfl]

theorem slices_noteWalk (s : State) (agent cls colony va : Nat) (acc : Access) : slices (noteWalk s agent cls colony va acc) = slices s := by
  have hw := slices_walkFor (rewalk s agent cls colony va acc) agent cls colony va
  have hr := slices_rewalk s agent cls colony va acc
  simp only [noteWalk]
  split
  · exact hr
  · split
    · next heq => rw [heq] at hw; exact (slices_fillTc ..).trans (hw.trans hr)
    · next heq => rw [heq] at hw; exact hw.trans hr

/- Whether a line's request may go out (R231, R232, R272) does not look at the slices' lines. -/

/-- A state of one channel without its slice's lines. -/
def oneChannel (s : State) (ch : Nat) : State := { apartFromWalks s with chans := [(ch, slices s ch)] }

theorem chanAt_oneChannel (s : State) (ch : Nat) : chanAt (oneChannel s ch) ch = (chanAt s ch).apartSlice := by
  simp [chanAt, oneChannel, tget, slices]

theorem creditFor_oneChannel (s : State) (ch master cls : Nat) : creditFor (oneChannel s ch) ch master cls = creditFor s ch master cls := by
  unfold creditFor
  rw [chanAt_oneChannel]
  rfl

theorem ncBlocked_oneChannel (s : State) (ch off : Nat) (write : Bool) : ncBlocked (oneChannel s ch) ch off write = ncBlocked s ch off write := by
  unfold ncBlocked
  rw [chanAt_oneChannel]
  rfl

theorem oneChannel_noteWalk (s : State) {agent : Nat} (cls colony va : Nat) (acc : Access) (h : 640 ≤ agent ∧ agent < 648) (ch : Nat) :
    oneChannel (noteWalk s agent cls colony va acc) ch = oneChannel s ch := by
  rw [oneChannel, slices_noteWalk, apartFromWalks_noteWalk s cls colony va acc h, oneChannel]

/-- What does not look at the traces of walks sees the same after one of Bonor's walks. -/
theorem noteWalk_keeps {α : Type} (view : State → α) (hv : ∀ t, view (apartFromWalks t) = view t) (s : State) (cls colony va : Nat) (acc : Access) :
    view (noteWalk s (bonorAgent s) cls colony va acc) = view s := by
  rw [← hv, apartFromWalks_noteWalk s cls colony va acc (bonorAgent_range s), hv]

/- A line put at its home (R168, R272). -/

theorem lineBase_of_aligned {a : Nat} (h : a % 64 = 0) : lineBase a = a := by rw [lineBase]; omega

theorem hbm_ncWriteLine (s : State) (cls : Nat) {fa : Nat} (data : List Byte) (h : fa % 64 = 0) :
    (ncWriteLine s cls fa data).hbm = mwrite s.hbm (keyOf fa) (padTo 64 data) := by
  rw [ncWriteLine, hbm_homeWrite, lineBase_of_aligned h, frameAddr_channelOf_chanOff, lineBase_of_aligned h]
  rfl

theorem ports_homeWrite (s : State) (cls ch off : Nat) (data : List Byte) : (homeWrite s cls ch off data).ports = s.ports ∧
    (homeWrite s cls ch off data).cols = s.cols := by
  have hwrite : (writeLine s (frameAddr ch off) data).ports = s.ports ∧ (writeLine s (frameAddr ch off) data).cols = s.cols := by
    unfold writeLine; dsimp only; split <;> exact ⟨rfl, rfl⟩
  have htouch : (sliceTouch (writeLine s (frameAddr ch off) data) cls ch off true).ports = s.ports ∧
      (sliceTouch (writeLine s (frameAddr ch off) data) cls ch off true).cols = s.cols := by
    obtain ⟨f, -, e⟩ := sliceTouch_eq (writeLine s (frameAddr ch off) data) cls ch off true
    rw [e]
    split <;> exact hwrite
  unfold homeWrite; dsimp only; split <;> exact htouch

theorem padTo_length {n : Nat} {bs : List Byte} (h : bs.length = n) : padTo n bs = bs := by
  rw [padTo, ← h, List.take_left]

/-- What a line of 64 bytes put at its home changes (R168): the bytes of its home, and the marks of the shadow frames that hold it. -/
structure LinePut (s t : State) (fa : Nat) (bs : List Byte) : Prop where
  read : Memory.wf s.hbm = true → mread t.hbm (keyOf fa) 64 = bs
  frame : ∀ a, ¬(keyOf fa ≤ a ∧ a < keyOf fa + 64) → mget t.hbm a = mget s.hbm a
  marks : ∃ a, ∀ j, cmdAt t j = (cmdAt s j).map (markShadows a)
  ports : t.ports = s.ports
  cols : t.cols = s.cols

theorem linePut_ncWriteLine (s : State) (cls : Nat) {fa : Nat} {bs : List Byte} (h : fa % 64 = 0) (hbs : bs.length = 64) :
    LinePut s (ncWriteLine s cls fa bs) fa bs := by
  have hhbm := hbm_ncWriteLine s cls bs h
  rw [padTo_length hbs] at hhbm
  refine ⟨fun hwf => ?_, fun a ha => ?_, ⟨_, fun j => cmdAt_homeWrite ..⟩, (ports_homeWrite ..).1, (ports_homeWrite ..).2⟩
  · rw [hhbm, ← hbs]; exact mread_mwrite _ _ hwf
  · rw [hhbm]; exact mget_mwrite_other _ _ _ (by omega)

/-- Bonor's core writes a line of an output whose shadow frame is bound and whose request may go out (R165, R231). -/
theorem engineLinePut_lands {s : State} {id va dpa : Nat} {c k : Cmd} {bs : List Byte} {p : Pte} {sh : Shadow} (hc : cmdAt s id = some k)
    (hva : va % 64 = 0) (hbs : bs.length = 64) (hwalk : walk (colAt s c.colony) va .write = .ok dpa p)
    (hown : ownCheck (colAt s c.colony) (colAt s c.colony).cur.instar (channelOf dpa) = .pass) (hp : shadowFor k p.dpa = some sh)
    (hd : shadowFor k dpa = some sh) (hmode : (chanAt s (channelOf (sh.addr dpa))).mode ≠ .fenced)
    (hwait : arrivalWaits s c.colony c.cls (some k) none true va 64 = false) :
    engineLinePut s id c none va bs =
      .data (ncWriteLine (noteWalk s (bonorAgent s) c.cls c.colony va .write) c.cls (sh.addr dpa) bs) [] := by
  have hview {α : Type} (view : State → α) (hv : ∀ t, view (apartFromWalks t) = view t) :=
    noteWalk_keeps view hv s c.cls c.colony va .write
  have hone := oneChannel_noteWalk s c.cls c.colony va .write (bonorAgent_range s)
  have hcol : colAt (noteWalk s (bonorAgent s) c.cls c.colony va .write) c.colony = colAt s c.colony := hview (fun t => colAt t c.colony) fun _ => rfl
  have hct : cmdAt (noteWalk s (bonorAgent s) c.cls c.colony va .write) id = some k := (hview (fun t => cmdAt t id) fun _ => rfl).trans hc
  have hagent : bonorAgent (noteWalk s (bonorAgent s) c.cls c.colony va .write) = bonorAgent s := hview bonorAgent fun _ => rfl
  have hmodeT : ((chanAt (noteWalk s (bonorAgent s) c.cls c.colony va .write) (channelOf (sh.addr dpa))).mode == .fenced) = false := by
    have hm := congrArg Channel.mode (congrFun (slices_noteWalk s (bonorAgent s) c.cls c.colony va .write) (channelOf (sh.addr dpa)))
    exact beq_false_of_ne fun h => hmode (hm.symm.trans h)
  have hblk : reachBlocked (noteWalk s (bonorAgent s) c.cls c.colony va .write) c none (sh.addr dpa) true = false := by
    have hs : reachBlocked s c none (sh.addr dpa) true = false := by
      have hone : (va % 64 + 64 + 63) / 64 = 1 := by omega
      simpa [arrivalWaits, hone, lineBase_of_aligned hva, hwalk, hd, reachBlocked, reachAgent] using hwait
    rw [reachBlocked, ← ncBlocked_oneChannel, ← creditFor_oneChannel, hone, reachAgent, Option.elim_none, hagent,
      ncBlocked_oneChannel, creditFor_oneChannel]
    exact hs
  have hreach : reach s id c none va .write = .at_ (noteWalk s (bonorAgent s) c.cls c.colony va .write) dpa p := by
    simp only [reach, hwalk]
  have hbind : bindShadow (noteWalk s (bonorAgent s) c.cls c.colony va .write) id p =
      some (sh, noteWalk s (bonorAgent s) c.cls c.colony va .write) := by
    simp only [bindShadow, hct, hp]
  simp only [engineLinePut, lineBase_of_aligned hva, hreach, hown, hbind, hmodeT, hblk, Bool.false_eq_true, if_false]
  have hover (old : List Byte) : overlay (va % 64) bs old = bs := by
    rw [hva, overlay, List.take_zero, List.nil_append, List.take_append_of_le_length hbs.ge, List.take_of_length_le hbs.le]
  rw [hover]

theorem enginePut_lands {s : State} {id va dpa : Nat} {c k : Cmd} {bs : List Byte} {p : Pte} {sh : Shadow} (n : Nat) (hc : cmdAt s id = some k)
    (hva : va % 64 = 0) (hbs : bs.length = 64) (hwalk : walk (colAt s c.colony) va .write = .ok dpa p)
    (hown : ownCheck (colAt s c.colony) (colAt s c.colony).cur.instar (channelOf dpa) = .pass) (hp : shadowFor k p.dpa = some sh)
    (hd : shadowFor k dpa = some sh) (hfa : sh.addr dpa % 64 = 0) (hmode : (chanAt s (channelOf (sh.addr dpa))).mode ≠ .fenced)
    (hwait : arrivalWaits s c.colony c.cls (some k) none true va 64 = false) :
    ∃ t, enginePut id c none (n + 2) va bs s = .data t [] ∧ LinePut s t (sh.addr dpa) bs := by
  have hline := engineLinePut_lands hc hva hbs hwalk hown hp hd hmode hwait
  have hview {α : Type} (view : State → α) (hv : ∀ t, view (apartFromWalks t) = view t) := noteWalk_keeps view hv s c.cls c.colony va .write
  have hput := linePut_ncWriteLine (noteWalk s (bonorAgent s) c.cls c.colony va .write) c.cls hfa hbs
  have hhbm := hview State.hbm fun _ => rfl
  obtain ⟨a, ha⟩ := hput.marks
  refine ⟨_, ?_, fun hwf => hput.read (hhbm ▸ hwf), fun x hx => (hput.frame x hx).trans (congrArg (mget · x) hhbm), ⟨a, fun j => ?_⟩,
    hput.ports.trans (hview State.ports fun _ => rfl), hput.cols.trans (hview State.cols fun _ => rfl)⟩
  · have htake : bs.take (64 - va % 64) = bs := by rw [hva]; exact List.take_of_length_le hbs.le
    have hdrop : bs.drop (64 - va % 64) = [] := by rw [hva]; exact List.drop_of_length_le hbs.le
    have hne : bs.isEmpty = false := by cases bs with
      | nil => exact absurd hbs (by decide)
      | cons b l => rfl
    rw [enginePut, hne, if_neg Bool.false_ne_true]
    simp only [htake, hdrop, hline]
    rfl
  · rw [ha, hview (fun t => cmdAt t j) fun _ => rfl]

end Sys2Proof.Machine
end

section
/-! PROOFS. Arrivals at a running collective (R352, R357 to R360). -/

namespace Sys2Proof.Machine

@[simp] theorem still_replyPacket (s : State) (h : FabHeader) (kind status cls : Nat) (data : List Byte) :
    still (replyPacket s h kind status cls data) = still s := by
  unfold replyPacket
  dsimp only
  split
  · exact still_putPacket ..
  · exact still_putPacket ..
  · rfl

/-- A state with other delivered BSEQ (R335). -/
def withDelivered (s : State) (d : Tbl (List Nat)) : State := { s with zlt := { s.zlt with delivered := d } }

theorem noteDelivered_eq (s : State) (port bseq : Nat) : ∃ d, noteDelivered s port bseq = withDelivered s d := by
  unfold noteDelivered
  split
  · exact ⟨s.zlt.delivered, rfl⟩
  · exact ⟨_, rfl⟩

theorem bulkArrives_new {s : State} {port : Nat} {h : FabHeader} (ha : arrives s port h.dst h.src = true) (hr : repeated s port h.bseq = false) :
    ∃ d, bulkArrives s port h = some (withDelivered s d) := by
  obtain ⟨d, hd⟩ := noteDelivered_eq s port h.bseq
  exact ⟨d, by rw [bulkArrives, ha, hr, ← hd]; rfl⟩

/-- The window's check looks at the windows, and leaves what passes as it was. -/
theorem windowCheck_passes {s t : State} {src scol instar job boottag widx : Nat} {perm : Window → Bool} {w : Window}
    (h : windowCheck s src scol instar job boottag widx perm = (s, .ok w)) (hf : t.fab = s.fab) :
    windowCheck t src scol instar job boottag widx perm = (t, .ok w) := by
  unfold windowCheck at h ⊢
  rw [hf]
  dsimp only at h ⊢
  split at h
  · exact nomatch (Prod.mk.inj h).2
  · next x hx =>
    split at h
    · exact nomatch (Prod.mk.inj h).2
    · next h1 =>
      split at h
      · exact nomatch (Prod.mk.inj h).2
      · next h2 =>
        split at h
        · exact nomatch (Prod.mk.inj h).2
        · next h3 =>
          obtain rfl := Except.ok.inj (Prod.mk.inj h).2
          simp only [h1, h2, h3]
          rfl

/-- The collective that an arrival finds runs in the colony for the job and CSEQ. -/
theorem of_runningCollective {s : State} {colony job cseq id : Nat} {c : Cmd} (h : runningCollective s colony job cseq = some (id, c)) :
    c.isCollective = true ∧ c.phase = .running ∧ c.colony = colony := by
  have hp := List.find?_some h
  simp only [Bool.and_eq_true, beq_iff_eq] at hp
  obtain ⟨⟨⟨⟨hcoll, hrun⟩, hcol⟩, -⟩, -⟩ := hp
  exact ⟨hcoll, hrun, hcol⟩

theorem targetProblem_line {s : State} {colony va dpa : Nat} {acc : Access} {p : Pte} (hva : va % 64 = 0)
    (hwalk : walk (colAt s colony) va acc = .ok dpa p) : targetProblem s colony acc va 64 = none := by
  have hone : (va % 64 + 64 + 63) / 64 = 1 := by omega
  simp [targetProblem, hone, lineBase_of_aligned hva, hwalk]

/- A step of a plan that changes (R357, R360). -/

theorem findIdx?_some {α : Type} {P : α → Bool} {l : List α} {i : Nat} {x : α} (h : findIdx? P l = some (i, x)) : l[i]? = some x ∧ P x = true := by
  induction l generalizing i with
  | nil => exact nomatch h
  | cons y l ih =>
    rw [findIdx?] at h
    split at h
    · next hy => obtain ⟨rfl, rfl⟩ := Prod.mk.inj (Option.some.inj h); exact ⟨rfl, hy⟩
    · obtain ⟨⟨j, z⟩, hj, he⟩ := Option.map_eq_some_iff.mp h
      obtain ⟨rfl, rfl⟩ := Prod.mk.inj he
      exact ih hj

/-- A plan with step `i` changed. -/
def changeStep (i : Nat) (f : PlanStep → PlanStep) (plan : List PlanStep) : List PlanStep :=
  (enumNat plan).map (fun e => if e.1 = i then f e.2 else e.2)

theorem modStep_eq {s : State} {id : Nat} {c : Cmd} (i : Nat) (f : PlanStep → PlanStep) (hc : cmdAt s id = some c) :
    modStep s id i f = setCmd s id { c with plan := changeStep i f c.plan } := modCmd_some _ hc

theorem getElem?_changeStep (i : Nat) (f : PlanStep → PlanStep) (plan : List PlanStep) (j : Nat) :
    (changeStep i f plan)[j]? = (plan[j]?).map (fun q => if j = i then f q else q) := by
  by_cases hj : j < plan.length
  · simp [changeStep, enumNat, hj]
  · simp [changeStep, enumNat, hj]

/-- A list of steps that contains the only one to act acts once. -/
theorem foldl_once {σ : Type} {f : σ → Nat → σ} {u v : σ} {i : Nat} {l : List Nat} (hi : i ∈ l) (hu : ∀ j, j ≠ i → f u j = u) (hiv : f u i = v)
    (hv : ∀ j, f v j = v) : l.foldl f u = v := by
  induction l with
  | nil => exact absurd hi List.not_mem_nil
  | cons j l ih =>
    rw [List.foldl_cons]
    by_cases hj : j = i
    · rw [hj, hiv]; exact foldl_fixed_of_mem fun k _ => hv k
    · rw [hu j hj]; exact ih ((List.mem_cons.mp hi).resolve_left (Ne.symm hj))

theorem engineHalted_of_still {s t : State} (h : still t = still s) (e : Option Nat) : engineHalted t e = engineHalted s e := by
  have hagent (a : Nat) : agentHalted t a = agentHalted s a := by
    simp only [agentHalted, agentWaits, recs_of_still h, cols_of_still h]
  have hwant (n : Nat) : (portAt t n).want = (portAt s n).want := (congrArg Port.want (quiet_of_still h n) :)
  simp only [engineHalted, hagent, hwant, armed_of_still h (show 11 ≠ 5 by decide)]

theorem localEngine_of_still {s t : State} (h : still t = still s) (c : Cmd) : localEngine t c = localEngine s c := by
  have hst (n : Nat) : (portAt t n).st = (portAt s n).st := (congrArg Port.st (quiet_of_still h n) :)
  have hcol : colAt t c.colony = colAt s c.colony := congrArg (fun l => tget ({} : Colony) l c.colony) (cols_of_still h)
  simp only [localEngine, hcol, hst]

/-- A barrier message counts at the first WAIT_BAR, is acknowledged, and the collective goes on (R349, R360). -/
theorem barrierMessage_counts {s : State} {port id i cseq window boottag : Nat} {m : CtlHeader} {w : Window} {c : Cmd} {p : PlanStep}
    (ha : arrives s port m.dst m.src = true) (hn : answered s m.src m.mseq = none)
    (hw : windowCheck s m.src m.scol m.instar m.job boottag window (fun x => x.bar) = (s, .ok w)) (hserved : windowServed s w = true)
    (hrun : runningCollective s w.colony m.job cseq = some (id, c)) (hc : cmdAt s id = some c)
    (hfind : findIdx? (fun q => q.op == 6 && !q.done && decide (q.bars < q.nsrc)) c.plan = some (i, p)) :
    exec (.barrierMessage port m cseq window boottag) s =
      .next (progress (acked (setCmd s id { c with plan := changeStep i (fun q => { q with bars := q.bars + 1 }) c.plan }) m 0) id) := by
  refine next_congr ((once_first ha hn ..).trans ?_)
  simp only [hw, hserved, hrun, hfind, Bool.not_true, Bool.false_eq_true, if_false, modStep_eq _ _ hc]

/-- The last barrier message awaited ends the step, and with it the attempt (R360, R361). -/
theorem progress_lastBarrier {s : State} {id i : Nat} {c : Cmd} {p : PlanStep} (hc : cmdAt s id = some c) (hop : c.op = 0x33)
    (hph : c.phase = .running) (hh : engineHalted s (localEngine s c) = false) (hp : c.plan[i]? = some p) (h6 : p.op = 6) (hnd : p.done = false)
    (hbars : p.nsrc ≤ p.bars) (hothers : ∀ j q, j ≠ i → c.plan[j]? = some q → q.done = true) :
    ∃ k, cmdAt (progress s id) id = some k ∧ k.phase = .ended ∧ k.result = 0 ∧ (progress s id).hbm = s.hbm := by
  let k : Cmd := { c with plan := changeStep i (fun q => { q with done := true }) c.plan }
  have hat (j : Nat) : k.plan[j]? = (c.plan[j]?).map (fun q => if j = i then { q with done := true } else q) :=
    getElem?_changeStep i (fun q => { q with done := true }) c.plan j
  have hdone (j : Nat) (q : PlanStep) (hq : k.plan[j]? = some q) : q.done = true := by
    rw [hat] at hq
    obtain ⟨q', hq', rfl⟩ := Option.map_eq_some_iff.mp hq
    by_cases hj : j = i
    · rw [if_pos hj]
    · rw [if_neg hj]; exact hothers j q' hj hq'
  have hready : stepReady c.op c.plan i p = true := by
    refine List.all_eq_true.mpr fun q hq => ?_
    obtain ⟨j, hj⟩ := List.mem_iff_getElem?.mp hq
    rw [List.getElem?_take] at hj
    split at hj
    · next hlt => rw [hothers j q (Nat.ne_of_lt hlt) hj]; rfl
    · exact nomatch hj
  have hstep : runStep id (localEngine s c) s i = setCmd s id k := by
    unfold runStep
    simp only [hc, hp, hready, h6, hph, hnd]
    simp only [ne_eq, not_true_eq_false, Bool.false_eq_true, Nat.reduceEqDiff, or_self, if_false, Bool.not_true, if_pos hbars]
    exact modStep_eq i _ hc
  have hck : cmdAt (setCmd s id k) id = some k := cmdAt_setCmd_same ..
  have hsteps : (List.range c.plan.length).foldl (runStep id (localEngine s c)) s = setCmd s id k := by
    refine foldl_once (i := i) (List.mem_range.mpr (List.getElem?_eq_some_iff.mp hp).1) (fun j hj => runStep_at _ hc fun q hq => ?_) hstep
      (fun j => runStep_at _ hck fun q hq => .inl (hdone j q hq))
    exact .inl (hothers j q hj hq)
  have hcoll : c.isCollective = true := by rw [Cmd.isCollective, hop]; rfl
  have hne : (c.op = 0x30) = False := by rw [hop]; decide
  have hprog : progress s id = finishCollective (setCmd s id k) id := by
    simp only [progress, hc, hph, hcoll, hh, hne, hsteps, false_and, if_false, ne_eq, not_true_eq_false, Bool.not_true, Bool.false_eq_true, or_self]
  have hall : k.plan.all (fun p => p.done) = true := List.all_eq_true.mpr fun q hq => by
    obtain ⟨j, hj⟩ := List.mem_iff_getElem?.mp hq
    exact hdone j q hj
  rw [hprog]
  simp only [finishCollective, hck]
  rw [if_pos ⟨hph, hall, .inl (by rw [show k.op = c.op from rfl, hop]; decide)⟩, chargeAttempt_eq hck, modCmd_some _ (cmdAt_setCmd_same ..)]
  refine ⟨_, cmdAt_setCmd_same .., rfl, ?_, rfl⟩
  show (if c.op = 0x30 then _ else if c.op = 0x33 then 0 else _) = 0
  rw [hop]; rfl

/-- Settles O41: an arrival lands or counts where the window's checks pass, and the collective then goes as far as it can. -/
theorem collectiveArrivals : Obligations.CollectiveArrivals := by
  intro s port id c w hserved
  refine ⟨fun h payload hrep => ?again, fun h payload ha hrep hrun hc => ⟨?write, ?add, ?outside⟩, fun m cseq window boottag i p ha hn hw hrun hc hfind => ⟨?counts, ?ends⟩⟩
  case again =>
    have hnone : bulkArrives s port h = none := by simp [bulkArrives, hrep]
    refine ⟨?_, ?_⟩
    · show execWritePacket port h payload s = _
      simp only [execWritePacket, hnone]
    · show execAddPacket port h payload s = _
      simp only [execAddPacket, hnone]
  case write =>
    intro plan dpa p sh hwin hop hlen hva hlt hin hfinal hcount hwait hwalk hp hd hown h40 hfa hmode harr
    obtain ⟨hcoll, hph, hcol⟩ := of_runningCollective hrun
    obtain ⟨d, hb⟩ := bulkArrives_new ha hrep
    have hw0 := windowCheck_passes (t := (withDelivered s d)) hwin rfl
    have hsize : c.unitBytes = 64 := by rw [Cmd.unitBytes, hop]; rfl
    have hne : (c.op = 0x30) = False := by rw [hop]; decide
    obtain ⟨t, ht, hput⟩ := enginePut_lands (s := (withDelivered s d)) (id := id) (c := { c with cls := w.cls })
      (bs := payload) 1 hc hva hlen (hcol ▸ hwalk) (hcol ▸ hown) hp hd hfa hmode (hcol ▸ harr)
    obtain ⟨a, hmarks⟩ := hput.marks
    have hct : cmdAt t id = some (markShadows a c) := (hmarks id).trans (congrArg (Option.map (markShadows a)) hc)
    let k : Cmd := { markShadows a c with plan := plan, moved := c.moved + 64 }
    have hstill := still_replyPacket (setCmd t id k) h 5 0 w.cls []
    have hck : cmdAt (replyPacket (setCmd t id k) h 5 0 w.cls []) id = some k :=
      (congrArg (fun l => tfind l id) (cmds_of_still hstill)).trans (cmdAt_setCmd_same ..)
    have hx : exec (.writePacket port h payload) s = .next (replyPacket (setCmd t id k) h 5 0 w.cls []) := by
      show execWritePacket port h payload s = _
      have hserved0 : windowServed (withDelivered s d) w = true := hserved
      have hrun0 : runningCollective (withDelivered s d) w.colony h.job h.cseq = some (id, c) := hrun
      have htgt : targetProblem (withDelivered s d) w.colony .write (c.cDst + h.offset * 64) 64 = none :=
        targetProblem_line (hsize ▸ hva) (hsize ▸ hwalk)
      have harr0 : arrivalWaits (withDelivered s d) w.colony w.cls (some c) none true (c.cDst + h.offset * 64) 64 = false :=
        hsize ▸ harr
      have hin0 : inWindow w (c.cDst + h.offset * 64) 64 = true := hsize ▸ hin
      have ht0 : enginePut id { c with cls := w.cls } none 3 (c.cDst + h.offset * 64) payload (withDelivered s d) = .data t [] :=
        hsize ▸ ht
      have hgo : ¬((1 : Nat) = 0 ∨ c.op = 0x33 ∨ finalAgainst c.plan false h.offset 1 = true) := by rw [hop, hfinal]; decide
      simp only [execWritePacket, hb, hw0, hrun0, hne, if_false, hlen, hsize, Nat.div_self (show 0 < 64 by decide), Nat.one_mul, hin0, hserved0,
        Bool.not_true, Bool.false_eq_true, hgo, hcount, htgt, harr0, Nat.reduceAdd, List.take_of_length_le hlen.le, ht0]
      rw [modCmd_some _ hct, settleExpects_waiting hwait]
      exact next_congr (progress_waits hck (by show c.op ≠ 0x30; rw [hop]; decide) hwait)
    refine ⟨_, k, hx, hck, hph, rfl, rfl, fun hwf => ?_, fun x hx => ?_⟩
    · rw [hbm_of_still hstill]; exact hput.read hwf
    · rw [hbm_of_still hstill]; exact hput.frame x hx
  case add =>
    intro plan n hwin hop hlen hn0 hm hanchor hin hfinal hcount hwait htgt
    obtain ⟨d, hb⟩ := bulkArrives_new ha hrep
    have hw0 := windowCheck_passes (t := (withDelivered s d)) hwin rfl
    let k : Cmd := { c with plan := plan, scratch := addScratch c.scratch h.offset (widesOf n payload) }
    let t := setCmd (withDelivered s d) id k
    have hstill := still_replyPacket t h 5 0 w.cls []
    have hck : cmdAt (replyPacket t h 5 0 w.cls []) id = some k :=
      (congrArg (fun l => tfind l id) (cmds_of_still hstill)).trans (cmdAt_setCmd_same ..)
    obtain ⟨hcoll, hph, hcol⟩ := of_runningCollective hrun
    have hprog : progress (replyPacket t h 5 0 w.cls []) id = replyPacket t h 5 0 w.cls [] := by
      cases hh : engineHalted (replyPacket t h 5 0 w.cls []) (localEngine (replyPacket t h 5 0 w.cls []) k) with
      | true => simp [progress, hck, hh]
      | false => rw [progress_idle hck hph hcoll hh (fun _ => hm) hwait.idle, finishCollective_waiting hck hwait]
    have hx : exec (.addPacket port h payload) s = .next (replyPacket t h 5 0 w.cls []) := by
      show execAddPacket port h payload s = _
      have hserved0 : windowServed (withDelivered s d) w = true := hserved
      have hrun0 : runningCollective (withDelivered s d) w.colony h.job h.cseq = some (id, c) := hrun
      have htgt0 : targetProblem (withDelivered s d) w.colony .write (c.cDst + h.offset * c.unitBytes) (n * c.unitBytes) = none := htgt
      have hc0 : cmdAt (withDelivered s d) id = some c := hc
      have hunits : payload.length / 16 = n := by rw [hlen]; exact Nat.mul_div_cancel_left n (by decide)
      have hgo : ¬(n = 0 ∨ c.op ≠ 0x30 ∨ h.anchor ≠ c.cAnchor ∨ finalAgainst c.plan true h.offset n = true) := by
        simp [hop, hanchor, hfinal, Nat.pos_iff_ne_zero.mp hn0]
      simp only [execAddPacket, hb, hw0, hrun0, hunits, hin, hserved0, Bool.not_true, Bool.false_eq_true, if_false, hgo, hcount, htgt0]
      rw [modCmd_some _ hc0, settleExpects_waiting hwait]
      exact next_congr hprog
    exact ⟨_, hx, (hbm_of_still hstill :), hck⟩
  case outside =>
    intro hwin hop hlen hout
    obtain ⟨d, hb⟩ := bulkArrives_new ha hrep
    have hw0 := windowCheck_passes (t := (withDelivered s d)) hwin rfl
    have hstill := still_replyPacket (withDelivered s d) h 6 0x04 w.cls []
    have hx : exec (.writePacket port h payload) s = .next (refusePacket (withDelivered s d) h 0x04 w.cls) := by
      show execWritePacket port h payload s = _
      have hrun0 : runningCollective (withDelivered s d) w.colony h.job h.cseq = some (id, c) := hrun
      have hsize : c.unitBytes = 64 := by rw [Cmd.unitBytes, hop]; rfl
      have hne : (c.op = 0x30) = False := by rw [hop]; decide
      have hout0 : inWindow w (c.cDst + h.offset * 64) 64 = false := hsize ▸ hout
      simp only [execWritePacket, hb, hw0, hrun0, hne, if_false, hlen, hsize, Nat.div_self (show 0 < 64 by decide), Nat.one_mul, hout0,
        Bool.not_false, if_true]
    exact ⟨_, hx, (cmds_of_still hstill :), (hbm_of_still hstill :)⟩
  case counts =>
    intro hlt hwait hno3 hop
    obtain ⟨hp, hpi⟩ := findIdx?_some hfind
    simp only [Bool.and_eq_true, beq_iff_eq, Bool.not_eq_true', decide_eq_true_eq] at hpi
    obtain ⟨⟨h6, hnd⟩, -⟩ := hpi
    obtain ⟨-, hph, -⟩ := of_runningCollective hrun
    let plan := changeStep i (fun q => { q with bars := q.bars + 1 }) c.plan
    have hstill := still_acked (setCmd s id { c with plan := plan }) m 0
    have hck : cmdAt (acked (setCmd s id { c with plan := plan }) m 0) id = some { c with plan := plan } :=
      (congrArg (fun l => tfind l id) (cmds_of_still hstill)).trans (cmdAt_setCmd_same ..)
    have hat (j : Nat) : plan[j]? = (c.plan[j]?).map (fun q => if j = i then { q with bars := q.bars + 1 } else q) := getElem?_changeStep ..
    have hpi : plan[i]? = some { p with bars := p.bars + 1 } := by rw [hat, hp]; simp
    have hwait' : Waiting plan := by
      refine ⟨fun q hq => ?_, _, List.mem_of_getElem? hpi, hnd⟩
      obtain ⟨j, hj⟩ := List.mem_iff_getElem?.mp hq
      by_cases hji : j = i
      · subst hji
        obtain rfl := Option.some.inj (hpi.symm.trans hj)
        exact .inr (.inr ⟨h6, hlt⟩)
      · rw [hat] at hj
        simp only [hji, if_false, Option.map_id_fun', id_eq] at hj
        exact hwait.1 q (List.mem_of_getElem? hj)
    have hx := barrierMessage_counts ha hn hw hserved hrun hc hfind
    rw [progress_waits hck (by show c.op ≠ 0x30; rw [hop]; decide) hwait'] at hx
    refine ⟨_, _, hx, hck, hph, ?_, fun j hj => ?_, (hbm_of_still hstill :)⟩
    · show (plan[i]?).map _ = _
      rw [hpi]; rfl
    · show plan[j]? = _
      rw [hat]; simp [hj]
  case ends =>
    intro heq hop hh hothers
    obtain ⟨hp, hpi⟩ := findIdx?_some hfind
    simp only [Bool.and_eq_true, beq_iff_eq, Bool.not_eq_true', decide_eq_true_eq] at hpi
    obtain ⟨⟨h6, hnd⟩, -⟩ := hpi
    obtain ⟨-, hph, -⟩ := of_runningCollective hrun
    let k : Cmd := { c with plan := changeStep i (fun q => { q with bars := q.bars + 1 }) c.plan }
    have hstill := still_acked (setCmd s id k) m 0
    have hck : cmdAt (acked (setCmd s id k) m 0) id = some k :=
      (congrArg (fun l => tfind l id) (cmds_of_still hstill)).trans (cmdAt_setCmd_same ..)
    have hat (j : Nat) : k.plan[j]? = (c.plan[j]?).map (fun q => if j = i then { q with bars := q.bars + 1 } else q) :=
      getElem?_changeStep i (fun q => { q with bars := q.bars + 1 }) c.plan j
    have hpk : k.plan[i]? = some { p with bars := p.bars + 1 } := by rw [hat, hp]; simp
    have hhk : engineHalted (acked (setCmd s id k) m 0) (localEngine (acked (setCmd s id k) m 0) k) = false := by
      rw [engineHalted_of_still hstill, localEngine_of_still hstill]; exact hh
    obtain ⟨k', hk', hended, hres, hhbm⟩ := progress_lastBarrier hck hop hph hhk hpk h6 hnd heq.ge (fun j q hj hq => by
      rw [hat] at hq
      obtain ⟨q', hq', rfl⟩ := Option.map_eq_some_iff.mp hq
      rw [if_neg hj]; exact hothers j q' hj hq')
    exact ⟨_, k', barrierMessage_counts ha hn hw hserved hrun hc hfind, hk', hended, hres, hhbm.trans (hbm_of_still hstill :)⟩

end Sys2Proof.Machine
end
section
/-! PROOFS. Handoff messages (R347, R352, R365 to R367). -/

namespace Sys2Proof.Machine

/- What an acknowledgement and an answer leave (R346 to R349). -/

theorem answered_of_still {s t : State} (h : still t = still s) (src mseq : Nat) : answered t src mseq = answered s src mseq := by
  have hticks : t.ticks = s.ticks := congrArg (fun v => State.ticks v.1) h
  simp only [answered, fabricTimeout, hticks, fab_of_still h]
  rfl

theorem answered_afterMsg (s : State) (mtype dst scol instar job : Nat) (body : List Nat) (cmd : Option Nat) (src mseq : Nat) :
    answered { s with fab := s.fab.afterMsg mtype dst scol instar job body cmd } src mseq = answered s src mseq := by
  unfold Fabric.afterMsg
  split <;> rfl

theorem answered_remember (s : State) (src mseq rtype value : Nat) : answered (remember s src mseq rtype value) src mseq = some (rtype, value) := by
  simp [answered, remember]

/-- A message remembered and acknowledged: its answer stands, and the tables and the tracker stay. -/
theorem acked_leaves (s : State) (m : CtlHeader) (status : Nat) :
    answered (acked s m status) m.src m.mseq = some (5, status) ∧ (acked s m status).fab.handoffs = s.fab.handoffs ∧
    (acked s m status).cmds = s.cmds ∧ (acked s m status).hbm = s.hbm := by
  have hstill := still_acked s m status
  refine ⟨?_, ?_, (cmds_of_still hstill :), (hbm_of_still hstill :)⟩
  · rw [answered_of_still hstill]
    exact (answered_afterMsg (remember s m.src m.mseq 5 status) ..).trans (answered_remember ..)
  · rw [fab_of_still hstill]
    show ((remember s m.src m.mseq 5 status).fab.afterMsg ..).handoffs = _
    unfold Fabric.afterMsg
    split <;> rfl

/-- A message sent leaves the answers given, the records and the tracker. -/
theorem sendMsg_leaves (s : State) (mtype dst scol instar job : Nat) (body : List Nat) (cmd : Option Nat) :
    let t := sendMsg s mtype dst scol instar job body cmd
    (∀ src mseq, answered t src mseq = answered s src mseq) ∧ t.fab.handoffs = s.fab.handoffs ∧ t.cmds = s.cmds := by
  have hstill := still_sendMsg s mtype dst scol instar job body cmd
  refine ⟨fun src mseq => (answered_of_still hstill ..).trans (answered_afterMsg ..), ?_, (cmds_of_still hstill :)⟩
  rw [fab_of_still hstill]
  show (s.fab.afterMsg ..).handoffs = _
  unfold Fabric.afterMsg
  split <;> rfl

/-- OFFER (R365): the record stands OFFER_SEEN. -/
theorem offer_recorded {s : State} {port hseq window rcol offset len i : Nat} {m : CtlHeader} (ha : arrives s port m.dst m.src = true)
    (hn : answered s m.src m.mseq = none) (hcol : colonyWf rcol = true) (hst : (colAt s rcol).st = .active)
    (hnone : findHandoff s rcol m.job hseq m.src m.scol = none) (hfree : freeHandoff s = some i) :
    exec (.offer port m hseq window rcol offset len) s = .next (acked (setHandoff s i
      { colony := rcol, job := m.job, hseq := hseq, peer := m.src, peerColony := m.scol, st := .offerSeen, timer := 5000
        window := window, offset := offset, len := len }) m 0) := by
  refine next_congr ((once_first ha hn ..).trans ?_)
  simp only [hcol, hst, hnone, hfree, Bool.not_true, bne_self_eq_false, Bool.or_self, Bool.false_eq_true, if_false, Option.isSome_none]

/-- The answer to an audit leaves the records (R367). -/
theorem auditAnswer_leaves (s : State) (m : CtlHeader) (hseq : Nat) (found : Option (Nat × Handoff)) :
    let t := match found with
      | some (_, h) => sendAuditR s m hseq h.colony h.st.code
      | none => sendAuditR s m hseq 0 0
    (∀ src mseq, answered t src mseq = answered s src mseq) ∧ t.fab.handoffs = s.fab.handoffs ∧ t.cmds = s.cmds := by
  cases found with
  | some e => exact sendMsg_leaves ..
  | none => exact sendMsg_leaves ..

theorem auditState_kept {st : HState} {asker : Nat} (h : asker ≠ 5) : auditState st asker false = st := by
  simp [auditState, h]

theorem auditState_declined {st : HState} (asker : Nat) (h : st = .offerSeen ∨ st = .accepting) : auditState st asker true = .declined := by
  rcases h with rfl | rfl <;> rfl

/-- AUDIT_Q of a record: withdrawn or kept, acknowledged and answered (R348, R367). -/
theorem auditQ_answers {s : State} {port hseq state i : Nat} {m : CtlHeader} {h : Handoff} (withdraw : Bool) (ha : arrives s port m.dst m.src = true)
    (hn : answered s m.src m.mseq = none) (hh : handoffOf s m.job hseq m.src m.scol = some (i, h)) :
    ∃ t, exec (.auditQ port m hseq state withdraw) s = .next t ∧ tfind t.fab.handoffs i = some { h with st := auditState h.st state withdraw } ∧
      answered t m.src m.mseq = some (5, 0) ∧ t.cmds = s.cmds := by
  obtain ⟨hans, hhand, hcmds, -⟩ := acked_leaves (setHandoff s i { h with st := auditState h.st state withdraw }) m 0
  obtain ⟨hans', hhand', hcmds'⟩ := auditAnswer_leaves (acked (setHandoff s i { h with st := auditState h.st state withdraw }) m 0) m hseq
    (handoffOf (acked (setHandoff s i { h with st := auditState h.st state withdraw }) m 0) m.job hseq m.src m.scol)
  refine ⟨_, ?_, ?_, (hans' ..).trans hans, hcmds'.trans hcmds⟩
  · show execAuditQ port m hseq state withdraw s = _
    simp only [execAuditQ, hn, Option.isSome_none, Bool.false_eq_true, if_false]
    refine next_congr ((once_first ha hn ..).trans ?_)
    simp only [hh] <;> rfl
  · rw [hhand', hhand]
    exact tfind_tset_same ..

/- AUDIT_R (R348, R367). -/

theorem fab_of_endsAs {s t : State} {id : Nat} {k : Cmd} (h : EndsAs s t id k) : t.fab = s.fab := by
  obtain ⟨p, l, f, rfl⟩ := h
  rfl

/-- An answer that finds no record completes its AUDIT with the peer's state (R367). -/
theorem auditR_withoutRecord {s : State} {port hseq id : Nat} {m : CtlHeader} {x : OutMsg} {c : Cmd} (state : Nat)
    (ha : arrives s port m.dst m.src = true) (hx : auditOf s m hseq = some x) (hid : x.cmd = some id) (hc : cmdAt s id = some c)
    (hst : c.phase = .started) (hnone : auditedRecord (dropUnacked s x.mseq) x m hseq = none) :
    exec (.auditR port m hseq state) s = .next (completeOk (dropUnacked s x.mseq) id (256 * state)) := by
  have hc1 : cmdAt (dropUnacked s x.mseq) id = some c := hc
  show execAuditR port m hseq state s = _
  simp only [execAuditR, ha, hx, hid, hnone, hc1, hst, Option.any_some, beq_self_eq_true, Bool.not_true, Bool.false_eq_true, if_false]
  simp only [HState.code, HState.owns, Bool.or_self, b2n, Nat.mul_zero, Nat.zero_add, Nat.add_zero, Bool.false_eq_true, if_false]

/-- An OFFERED record whose peer has it ACCEPTED is ACCEPTED_SEEN, and its AUDIT completes (R367). -/
theorem auditR_accepted {s : State} {port hseq id i : Nat} {m : CtlHeader} {x : OutMsg} {c : Cmd} {h : Handoff}
    (ha : arrives s port m.dst m.src = true) (hx : auditOf s m hseq = some x) (hid : x.cmd = some id) (hc : cmdAt s id = some c)
    (hst : c.phase = .started) (hrec : auditedRecord (dropUnacked s x.mseq) x m hseq = some (i, h)) (hoff : h.st = .offered) :
    exec (.auditR port m hseq 4) s =
      .next (completeOk (setHandoff (dropUnacked s x.mseq) i { h with st := .acceptedSeen }) id (5 + 256 * 4)) := by
  have hc1 : cmdAt (setHandoff (dropUnacked s x.mseq) i { h with st := .acceptedSeen }) id = some c := hc
  have hres (timed : Bool) : resolve (dropUnacked s x.mseq) i h (hstateOf 4) timed =
      setHandoff (dropUnacked s x.mseq) i { h with st := .acceptedSeen } := by
    simp only [resolve, hoff, hstateOf]
  have hfind : tfind (setHandoff (dropUnacked s x.mseq) i { h with st := .acceptedSeen }).fab.handoffs i = some { h with st := .acceptedSeen } :=
    tfind_tset_same ..
  have hsel (timed : Bool) : (if (x.body.getD 2 0 == 1) = true ∧ h.st = .offered ∧ hstateOf 4 = .none then dropHandoff (dropUnacked s x.mseq) i
      else resolve (dropUnacked s x.mseq) i h (hstateOf 4) timed) = setHandoff (dropUnacked s x.mseq) i { h with st := .acceptedSeen } :=
    (if_neg fun hw => nomatch hw.2.2).trans (hres timed)
  show execAuditR port m hseq 4 s = _
  simp only [execAuditR, ha, hx, hid, hrec, hsel, hfind, hc1, hst, Option.any_some, beq_self_eq_true, Bool.not_true,
    Bool.false_eq_true, if_false, Option.map_some, Option.getD_some]
  rw [hoff]
  rfl

/- READ (R347, R352, R365): the port engine's own reads. -/

/-- A state without what a port engine's walks and reads leave their traces in. -/
def apartFromPorts (s : State) : State := { apartFromWalks s with ports := [] }

theorem apartFromPorts_fillTc (s : State) {agent : Nat} (e : TcEntry) (h : 664 ≤ agent) : apartFromPorts (fillTc s agent e) = apartFromPorts s := by
  rw [fillTc, setTc, if_neg (by omega), if_neg (by omega), if_neg (by omega)]
  rfl

theorem apartFromPorts_congr {s t : State} (h : apartFromWalks t = apartFromWalks s) : apartFromPorts t = apartFromPorts s :=
  congrArg (fun u : State => { u with ports := [] }) h

theorem apartFromPorts_rewalk (s : State) {agent : Nat} (cls colony va : Nat) (acc : Access) (h : 664 ≤ agent) :
    apartFromPorts (rewalk s agent cls colony va acc) = apartFromPorts s := by
  have hwalked (die : Nat) (f : Mesh → Mesh) : apartFromPorts (walkTables (modMesh s die f) die cls colony va) = apartFromPorts s :=
    apartFromPorts_congr ((apartFromWalks_walkTables ..).trans rfl)
  simp only [rewalk]
  repeat' split
  · rfl
  · rfl
  · exact (apartFromPorts_fillTc _ _ h).trans (hwalked ..)
  · exact hwalked ..

theorem apartFromPorts_noteWalk (s : State) {agent : Nat} (cls colony va : Nat) (acc : Access) (h : 664 ≤ agent) :
    apartFromPorts (noteWalk s agent cls colony va acc) = apartFromPorts s := by
  have hw := apartFromPorts_congr (apartFromWalks_walkFor (rewalk s agent cls colony va acc) agent cls colony va)
  have hr := apartFromPorts_rewalk s cls colony va acc h
  simp only [noteWalk]
  split
  · exact hr
  · split
    · next heq => rw [heq] at hw; exact (apartFromPorts_fillTc _ _ h).trans (hw.trans hr)
    · next heq => rw [heq] at hw; exact hw.trans hr

theorem apartFromPorts_noteLines {agent : Nat} (cls colony : Nat) (acc : Access) (h : 664 ≤ agent) (k : Nat) :
    ∀ (s : State) (va : Nat), apartFromPorts (noteLines agent cls colony acc s va k) = apartFromPorts s := by
  induction k with
  | zero => exact fun _ _ => rfl
  | succ k ih =>
    intro s va
    rw [noteLines, ih]
    split
    · exact (apartFromPorts_congr (apartFromWalks_sliceTouch ..)).trans (apartFromPorts_noteWalk s cls colony va acc h)
    · exact apartFromPorts_noteWalk s cls colony va acc h

/-- A reply to this device itself goes out at once (R344). -/
theorem replyPacket_here {s : State} {h : FabHeader} {kind status cls : Nat} {data : List Byte} (hs : h.src = s.fab.faddr) :
    ∃ r, (replyPacket s h kind status cls data).out = s.out ++ [.packet 16 kind r data] ∧ r.dst = h.src ∧ r.tag = h.tag := by
  refine ⟨{ h with dst := h.src, src := s.fab.faddr, ttl := s.fab.diameter, status := status, high := false, boottag := s.fab.bootTag }, ?_, rfl, rfl⟩
  simp only [replyPacket, route, hs, if_true, putPacket]
  rfl

theorem vaLines_withDelivered (s : State) (b : Tbl (List Nat)) (colony : Nat) (acc : Access) (k : Nat) :
    ∀ va, vaLines (withDelivered s b) colony acc va k = vaLines s colony acc va k := by
  induction k with
  | zero => exact fun _ => rfl
  | succ k ih =>
    intro va
    have hline : vaLine (withDelivered s b) colony va acc = vaLine s colony va acc := rfl
    rw [vaLines, vaLines, ih, hline]

theorem badLine_withDelivered (s : State) (b : Tbl (List Nat)) (colony k : Nat) :
    ∀ va, badLine (withDelivered s b) colony va k = badLine s colony va k := by
  induction k with
  | zero => exact fun _ => rfl
  | succ k ih => intro va; rw [badLine, badLine, ih, vaLines_withDelivered]

/-- A legal read is answered with the lines as they stand (R352, R365). -/
theorem readPacket_answers {s : State} {port lines : Nat} {h : FabHeader} {w : Window} {d : List Byte} (ha : arrives s port h.dst h.src = true)
    (hrep : repeated s port h.bseq = false)
    (hwin : windowCheck s h.src h.scol h.instar h.job h.boottag h.window (fun x => x.rd) = (s, .ok w)) (hserved : windowServed s w = true)
    (hl : lines ≠ 0) (hoff : h.offset % 64 = 0) (hin : inWindow w (w.base + h.offset) (64 * lines) = true)
    (hrec : (findHandoff s w.colony h.job h.cseq h.src h.scol).any (fun e => e.2.st == .offered) = true)
    (htgt : targetProblem s w.colony .read (w.base + h.offset) (64 * lines) = none) (hbad : badLine s w.colony (w.base + h.offset) lines = none)
    (hd : vaLines s w.colony .read (w.base + h.offset) lines = .ok d)
    (hwait : arrivalWaits s w.colony w.cls none (some (port % 16)) false (w.base + h.offset) (64 * lines) = false) :
    ∃ b u, apartFromPorts u = apartFromPorts (withDelivered s b) ∧
      exec (.readPacket port h lines) s = .next (countOut (replyPacket u h 4 0 w.cls d) w.colony port d.length) := by
  obtain ⟨b, hb⟩ := bulkArrives_new ha hrep
  have hw0 := windowCheck_passes (t := withDelivered s b) hwin rfl
  refine ⟨b, noteLines (664 + port % 16) w.cls w.colony .read (withDelivered s b) (w.base + h.offset) lines,
    apartFromPorts_noteLines _ _ _ (Nat.le_add_right ..) _ _ _, ?_⟩
  have hserved0 : windowServed (withDelivered s b) w = true := hserved
  have hrec0 : (findHandoff (withDelivered s b) w.colony h.job h.cseq h.src h.scol).any (fun e => e.2.st == .offered) = true := hrec
  have htgt0 : targetProblem (withDelivered s b) w.colony .read (w.base + h.offset) (64 * lines) = none := htgt
  have hbad0 : badLine (withDelivered s b) w.colony (w.base + h.offset) lines = none := (badLine_withDelivered ..).trans hbad
  have hd0 : vaLines (withDelivered s b) w.colony .read (w.base + h.offset) lines = .ok d := (vaLines_withDelivered ..).trans hd
  have hwait0 : arrivalWaits (withDelivered s b) w.colony w.cls none (some (port % 16)) false (w.base + h.offset) (64 * lines) = false := hwait
  show execReadPacket port h lines s = _
  simp only [execReadPacket, hb, hw0, hl, hoff, hin, hserved0, hrec0, htgt0, hwait0, hbad0, hd0, Bool.not_true, Bool.false_eq_true, ne_eq,
    not_true_eq_false, or_self, if_false]

/- READ_DATA (R347, R365, R366). -/

/-- A colony apart from the count of its requests in flight. -/
def Colony.apartInflight (c : Colony) : Colony :=
  { c with cur := { c.cur with inflight := 0 }, old := { c.old with inflight := 0 } }

/-- A request that ends leaves all but its port's list and its colony's count (R347). -/
structure ReqFreed (s t : State) (e tag : Nat) : Prop where
  rest : { t with ports := s.ports, cols := s.cols } = s
  reqs : ∀ x ∈ (portAt t e).reqs, x.tag ≠ tag
  colony : ∀ n, (colAt t n).apartInflight = (colAt s n).apartInflight
  noTeardown : NoTeardown s → NoTeardown t

theorem apartInflight_dec (c : Colony) (instar : Nat) :
    (if c.cur.instar = instar || c.old.merged then { c with cur := { c.cur with inflight := c.cur.inflight - 1 } }
      else { c with old := { c.old with inflight := c.old.inflight - 1 } }).apartInflight = c.apartInflight := by
  split <;> rfl

theorem noTeardown_setCol {s : State} {n : Nat} {c : Colony} (hc : c.st = (colAt s n).st) (h : NoTeardown s) : NoTeardown (setCol s n c) := by
  intro e he
  rcases mem_tset he with rfl | he
  · show c.st ≠ _ ∧ c.st ≠ _
    rw [hc]; exact colSt_of_noTeardown h n
  · exact h e he

theorem freeReq_freed (s : State) (e : Nat) (r : FabReq) : ReqFreed s (freeReq s e r) e r.tag := by
  let s1 := modPort s e (fun p => { p with reqs := p.reqs.filter (fun x => x.tag != r.tag) })
  have hfree : freeReq s e r = inflightDec s1 r.colony r.instar := rfl
  refine ⟨rfl, fun x hx => ?_, fun n => ?_, fun h => ?_⟩
  · have hx1 : x ∈ (portAt s1 e).reqs := hx
    rw [portAt_modPort_same] at hx1
    have := (List.mem_filter.mp hx1).2
    simpa using this
  · rw [hfree, inflightDec]
    by_cases hn : n = r.colony
    · subst hn; rw [colAt_modCol_same, apartInflight_dec]; rfl
    · rw [modCol, colAt_setCol_other _ _ hn]; rfl
  · rw [hfree, inflightDec, modCol]
    refine noTeardown_setCol ?_ h
    exact (congrArg Colony.st (apartInflight_dec (colAt s1 r.colony) r.instar) :)

/-- An ACCEPT whose data have come ends its attempt, any other goes on (R366). -/
theorem finishAccept_goesOn {s : State} {id : Nat} {c : Cmd} (hc : cmdAt s id = some c) (hop : c.op = 0x34) (hrun : c.phase = .running) :
    ∃ k, cmdAt (finishAccept s id) id = some k ∧ k.moved = c.moved ∧ k.phase = (if c.stateLen ≤ c.moved then .ended else .running) ∧
      (finishAccept s id).cols = s.cols ∧ (finishAccept s id).hbm = s.hbm ∧ (finishAccept s id).ports = s.ports := by
  simp only [finishAccept, hc]
  by_cases hm : c.stateLen ≤ c.moved
  · rw [if_pos ⟨hrun, hop, hm⟩, chargeAttempt_eq hc, modCmd_some _ (cmdAt_setCmd_same ..), if_pos hm]
    exact ⟨_, cmdAt_setCmd_same .., rfl, rfl, rfl, rfl, rfl⟩
  · rw [if_neg fun h => hm h.2.2, if_neg hm]
    exact ⟨c, hc, rfl, hrun, rfl, rfl, rfl⟩

theorem arrivalWaits_line {s t : State} {colony cls va dpa : Nat} {c : Cmd} {p : Pte} {sh : Shadow} (hva : va % 64 = 0)
    (hs : walk (colAt s colony) va .write = .ok dpa p) (ht : walk (colAt t colony) va .write = .ok dpa p) (hd : shadowFor c dpa = some sh)
    (hnc : ∀ ch off, ncBlocked t ch off true = ncBlocked s ch off true)
    (hcr : ∀ ch, creditFor t ch (reachAgent t none) cls = creditFor s ch (reachAgent s none) cls) :
    arrivalWaits t colony cls (some c) none true va 64 = arrivalWaits s colony cls (some c) none true va 64 := by
  have hone : (va % 64 + 64 + 63) / 64 = 1 := by omega
  simp [arrivalWaits, hone, lineBase_of_aligned hva, hs, ht, hd, hnc, hcr]

/-- READ_DATA's line lands in the ACCEPT's output, its request is free, and the attempt ends with the last (R366). -/
theorem readData_lands {s : State} {port dpa : Nat} {h : FabHeader} {r : FabReq} {c : Cmd} {payload : List Byte} {p : Pte} {sh : Shadow}
    (ha : arrives s port h.dst h.src = true) (hrep : repeated s port h.bseq = false) (hr : requestOf s h = some r) (hkind : r.kind = .read)
    (hc : cmdAt s r.cmd = some c) (hph : c.phase = .running) (hop : c.op = 0x34) (hnt : NoTeardown s) (hunits : r.units = 1)
    (hlen : payload.length = 64) (hva : (c.stateVa + 64 * r.unit) % 64 = 0) (hstage : c.stateLen ≤ 64 * c.stage)
    (hwalk : walk (colAt s c.colony) (c.stateVa + 64 * r.unit) .write = .ok dpa p) (hp : shadowFor c p.dpa = some sh) (hd : shadowFor c dpa = some sh)
    (hwait : arrivalWaits s c.colony c.cls (some c) none true (c.stateVa + 64 * r.unit) 64 = false)
    (hown : ownCheck (colAt s c.colony) (colAt s c.colony).cur.instar (channelOf dpa) = .pass)
    (hfa : sh.addr dpa % 64 = 0) (hmode : (chanAt s (channelOf (sh.addr dpa))).mode ≠ .fenced) :
    ∃ t k, exec (.readData port h payload) s = .next t ∧ cmdAt t r.cmd = some k ∧ k.moved = c.moved + 64 ∧
      k.phase = (if c.stateLen ≤ c.moved + 64 then .ended else .running) ∧
      (Memory.wf s.hbm = true → mread t.hbm (keyOf (sh.addr dpa)) 64 = payload) ∧
      (∀ a, ¬ (keyOf (sh.addr dpa) ≤ a ∧ a < keyOf (sh.addr dpa) + 64) → mget t.hbm a = mget s.hbm a) ∧
      ∀ x ∈ (portAt t h.tagPort).reqs, x.tag ≠ h.tag := by
  obtain ⟨b, hb⟩ := bulkArrives_new ha hrep
  have htag : r.tag = h.tag := by
    have := List.find?_some hr
    simp only [Bool.and_eq_true, beq_iff_eq] at this
    exact this.1
  obtain ⟨hrest, hreqs, hcolony, hntF⟩ := freeReq_freed (withDelivered s b) h.tagPort r
  have hcol : (colAt (freeReq (withDelivered s b) h.tagPort r) c.colony).apartInflight = (colAt s c.colony).apartInflight := hcolony c.colony
  have hwalk1 : walk (colAt (freeReq (withDelivered s b) h.tagPort r) c.colony) (c.stateVa + 64 * r.unit) .write = .ok dpa p :=
    (congrArg (fun x : Colony => walk x (c.stateVa + 64 * r.unit) .write) hcol).trans hwalk
  have hown1 : ownCheck (colAt (freeReq (withDelivered s b) h.tagPort r) c.colony)
      (colAt (freeReq (withDelivered s b) h.tagPort r) c.colony).cur.instar (channelOf dpa) = .pass :=
    (congrArg (fun x : Colony => ownCheck x x.cur.instar (channelOf dpa)) hcol).trans hown
  have hwait1 : arrivalWaits (freeReq (withDelivered s b) h.tagPort r) c.colony c.cls (some c) none true (c.stateVa + 64 * r.unit) 64 = false :=
    (arrivalWaits_line (s := s) hva hwalk hwalk1 hd (fun _ _ => rfl) fun _ => rfl).trans hwait
  obtain ⟨t, ht, hput⟩ := enginePut_lands (id := r.cmd) 0 (show cmdAt (freeReq (withDelivered s b) h.tagPort r) r.cmd = some c from hc)
    hva hlen hwalk1 hown1 hp hd hfa hmode hwait1
  obtain ⟨a, hmarks⟩ := hput.marks
  have hct : cmdAt t r.cmd = some (markShadows a c) := (hmarks r.cmd).trans (congrArg (Option.map (markShadows a)) hc)
  let k : Cmd := { markShadows a c with moved := c.moved + 64 }
  obtain ⟨k', hk', hmoved, hphase, hcols, hhbm, hports⟩ := finishAccept_goesOn (s := setCmd t r.cmd k) (cmdAt_setCmd_same ..) hop hph
  have hx : exec (.readData port h payload) s = .next (finishAccept (setCmd t r.cmd k) r.cmd) := by
    show execReadData port h payload s = _
    have hr0 : requestOf (withDelivered s b) h = some r := hr
    have hc0 : cmdAt (withDelivered s b) r.cmd = some c := hc
    have hprog : acceptProgress (setCmd t r.cmd k) r.cmd = finishAccept (setCmd t r.cmd k) r.cmd :=
      acceptProgress_ends (cmdAt_setCmd_same t r.cmd k) hstage
    simp only [execReadData, hb, hr0, hc0, hkind, hunits, Nat.mul_one, hwait, ne_eq, not_true_eq_false, Bool.false_eq_true, if_false,
      padTo_length hlen, ht, Nat.reduceAdd]
    rw [modCmd_some _ hct]
    exact next_congr ((congrArg settleColonies hprog).trans (settleColonies_idle (noTeardown_congr (hcols.trans hput.cols) (hntF hnt))))
  refine ⟨_, k', hx, hk', hmoved, hphase, fun hwf => ?_, fun x hx => ?_, fun x hx => ?_⟩
  · rw [hhbm]; exact hput.read hwf
  · rw [hhbm]; exact hput.frame x hx
  · rw [portAt, hports] at hx
    exact htag ▸ hreqs x (by rw [portAt, ← hput.ports]; exact hx)

/-- Settles O44: each message's record and answer, the two reads of the state, and the record's timer and expiry. -/
theorem handoffMessages : Obligations.HandoffMessages := by
  intro s port
  refine ⟨fun m hseq ha => ⟨fun hn => ⟨?offer, ?accept, ?release, ?audit⟩, ?answered⟩, fun h ha hrep => ⟨?read, ?data⟩, fun i h hs hi => ⟨?timer, ?expiry⟩⟩
  case offer =>
    intro window rcol offset len i hwf hst hnone hfree
    obtain ⟨hans, hhand, hcmds, hhbm⟩ := acked_leaves (setHandoff s i { colony := rcol, job := m.job, hseq := hseq, peer := m.src, peerColony := m.scol
                                                                        st := .offerSeen, timer := 5000, window := window, offset := offset, len := len }) m 0
    exact ⟨_, _, offer_recorded ha hn hwf hst hnone hfree, (congrArg (tfind · i) hhand).trans (tfind_tset_same ..), rfl, rfl, rfl, rfl, rfl, rfl, rfl,
      rfl, rfl, hans, hcmds, hhbm⟩
  case accept =>
    intro rcol i h hh hoff
    obtain ⟨hans, hhand, hcmds, -⟩ := acked_leaves (setHandoff s i { h with st := .acceptedSeen }) m 0
    refine ⟨_, next_congr ((once_first ha hn ..).trans ?_), (congrArg (tfind · i) hhand).trans (tfind_tset_same ..), hans, hcmds⟩
    simp only [hh, hoff, if_true]
  case release =>
    intro rcol i h hh hacc
    obtain ⟨hans, hhand, hcmds, -⟩ := acked_leaves (dropHandoff s i) m 0
    refine ⟨_, next_congr ((once_first ha hn ..).trans ?_), (congrArg (tfind · i) hhand).trans (tfind_tdel_same ..), hans, hcmds⟩
    simp only [hh, hacc, if_true]
  case audit =>
    intro state withdraw i h hh
    obtain ⟨t, hx, hrec, hans, hcmds⟩ := auditQ_answers (state := state) withdraw ha hn hh
    refine ⟨t, _, hx, hrec, ?_, ?_, hans, hcmds⟩
    · rintro rfl hst
      exact auditState_declined state hst
    · rintro rfl hne
      rw [auditState_kept hne]
  case answered =>
    intro x id c hx hid hc hst hal
    have hfin : c.finished = false := by rw [Cmd.finished, hst]
    refine ⟨fun state hnone => ?_, fun i h hrec hoff => ?_⟩
    · have hends := completeOk_endsAs (s := dropUnacked s x.mseq) (256 * state) hc hfin hal
      refine ⟨_, auditR_withoutRecord state ha hx hid hc hst hnone, (ends_of_endsAs hends :), fun y hy => ?_⟩
      rw [fab_of_endsAs hends] at hy
      simpa using (List.mem_filter.mp hy).2
    · have hends := completeOk_endsAs (s := setHandoff (dropUnacked s x.mseq) i { h with st := .acceptedSeen }) (5 + 256 * 4) hc hfin hal
      refine ⟨_, auditR_accepted ha hx hid hc hst hrec hoff, ?_, (ends_of_endsAs hends :)⟩
      rw [fab_of_endsAs hends]
      exact tfind_tset_same ..
  case read =>
    intro w lines d hwin hserved hl hoff hin hrec htgt hbad hd hwait
    obtain ⟨b, u, hu, hx⟩ := readPacket_answers ha hrep hwin hserved hl hoff hin hrec htgt hbad hd hwait
    have hstill := still_replyPacket u h 4 0 w.cls d
    have hacct : acctAt (replyPacket u h 4 0 w.cls d) w.colony = acctAt s w.colony :=
      congrArg (fun l => tget ({} : Acct) l w.colony) ((congrArg Hub.acct (hub_of_still hstill)).trans (congrArg (fun v : State => v.hub.acct) hu :))
    refine ⟨_, hx, (cmds_of_still hstill).trans (congrArg State.cmds hu :), (hbm_of_still hstill).trans (congrArg State.hbm hu :),
      (fab_of_still hstill).trans (congrArg State.fab hu :), fun hport => ?_, fun hsrc => ?_⟩
    · rw [countOut, acctAt_modAcct_same, hacct, addFab, if_neg (Nat.not_le.mpr hport)]
      rfl
    · have hfab : u.fab = s.fab := (congrArg State.fab hu :)
      obtain ⟨r, hout, hdst, htag⟩ := replyPacket_here (s := u) (kind := 4) (status := 0) (cls := w.cls) (data := d) (hsrc.trans (congrArg Fabric.faddr hfab.symm))
      have hout0 : u.out = s.out := (congrArg State.out hu :)
      exact ⟨r, hout0 ▸ hout, hdst, htag⟩
  case data =>
    intro r c payload dpa p sh hr hkind hc hph hop hnt hunits hlen hva hstage hwalk hp hd hwait hown h40 hfa hmode
    exact readData_lands ha hrep hr hkind hc hph hop hnt hunits hlen hva hstage hwalk hp hd hwait hown hfa hmode
  case timer =>
    intro hnd hnr h0
    let s1 : State := { s with fab := { s.fab with hoffTimers := wrapAdd 32 s.fab.hoffTimers 1 } }
    have hstill := still_sendMsg s1 0x13 h.peer h.colony (stampOf s1 h.colony) h.job [h.hseq, h.st.code, 0] none
    have hfab := fab_of_still hstill
    have hx : exec (.handoffTimer i) s = .next (sendMsg s1 0x13 h.peer h.colony (stampOf s1 h.colony) h.job [h.hseq, h.st.code, 0] none) := by
      show execHandoffTimer i s = _
      simp only [execHandoffTimer, hs, hi, hnd, hnr, or_self, Bool.not_true, Bool.false_eq_true, if_false]
      rfl
    have hf : s1.fab.faddr ≠ 0 := h0
    simp only [Fabric.afterMsg, if_neg hf] at hfab
    refine ⟨_, hx, ?_, ?_, (cmds_of_still hstill :), ?_⟩
    · rw [hfab]; rfl
    · rw [hfab]
    · rw [hfab]
      exact ⟨_, List.mem_append_right _ (List.mem_singleton.mpr rfl), rfl, rfl, rfl, rfl, rfl⟩
  case expiry =>
    intro hdec
    refine ⟨dropHandoff s i, ?_, tfind_tdel_same .., rfl⟩
    show execDeclinedExpiry i s = _
    simp only [execDeclinedExpiry, hi, hs, hdec, and_self, if_true]

end Sys2Proof.Machine
end
section
/-! PROOFS. FP32 magnitudes and lanes (R42, R43, R64, R115, R118). -/

namespace Sys2Proof.Machine

/- A finite magnitude encoding rounds to itself. -/

theorem rne_zero (m : Nat) : rne m 0 = m := by simp [rne]

theorem roundMag_subnormal {a : Nat} (h : a < 2 ^ 23) : roundMag fp32 a fp32.base = a := by
  rw [roundMag]
  split
  · next h0 => exact h0.symm
  · next h0 =>
    have hlog : Nat.log2 a < 23 := (Nat.log2_lt h0).mpr h
    have ht : max fp32.base ((Nat.log2 a : Int) + fp32.base - (fp32.m : Int)) = fp32.base := max_eq_left (by show _ ≤ (-149 : Int); simp only [fp32]; omega)
    simp only [ht, sub_self, rne_zero]
    simp

theorem roundMag_normal {E r : Nat} (hE : E ≠ 0) (hr : r < 2 ^ 23) :
    roundMag fp32 (2 ^ 23 + r) (fp32.base + (E : Int) - 1) = E * 2 ^ 23 + r := by
  have hlog : Nat.log2 (2 ^ 23 + r) = 23 := by
    rw [Nat.log2_eq_iff (by omega)]
    omega
  have ht : max fp32.base ((Nat.log2 (2 ^ 23 + r) : Int) + (fp32.base + (E : Int) - 1) - (fp32.m : Int)) = fp32.base + (E : Int) - 1 := by
    rw [hlog]
    simp only [fp32]
    omega
  rw [roundMag, if_neg (by omega)]
  simp only [ht, sub_self, rne_zero]
  simp only [fp32]
  omega

/-- The value of an FP32 encoding that is not a NaN: an infinity, or the finite magnitude that it encodes (R42). -/
theorem valOf_cases (x : Lane) : valOf x = .nan ∨ (x.toNat % 2 ^ 31 = 0x7F800000 ∧ valOf x = .inf (x.toNat.testBit 31)) ∨
    (x.toNat % 2 ^ 31 ≤ fp32.top ∧ ∃ d : Dy, valOf x = .fin d ∧ d.neg = x.toNat.testBit 31 ∧ roundMag fp32 d.m d.e = x.toNat % 2 ^ 31) := by
  by_cases hnan : 0x7F800001 ≤ x.toNat % 2 ^ 31
  · left
    simp only [valOf, decodeFp, fp32, hnan, decide_true, if_true]
  · right
    by_cases hinf : 0x7F800000 = x.toNat % 2 ^ 31
    · left
      simp only [valOf, decodeFp, fp32, hinf.symm]
      simp
    · right
      have htop : x.toNat % 2 ^ 31 ≤ fp32.top := by simp only [fp32]; omega
      refine ⟨htop, ?_⟩
      by_cases hE : x.toNat % 2 ^ 31 / 2 ^ 23 = 0
      · have hsub : x.toNat % 2 ^ 31 < 2 ^ 23 := by omega
        refine ⟨⟨x.toNat.testBit 31, x.toNat % 2 ^ 31, fp32.base⟩, ?_, rfl, roundMag_subnormal hsub⟩
        simp only [valOf, decodeFp, fp32, hnan, hinf, hE, decide_false, if_true, Bool.false_eq_true, if_false]
      · refine ⟨⟨x.toNat.testBit 31, 2 ^ 23 + x.toNat % 2 ^ 31 % 2 ^ 23, fp32.base + ((x.toNat % 2 ^ 31 / 2 ^ 23 : Nat) : Int) - 1⟩, ?_, rfl, ?_⟩
        · simp only [valOf, decodeFp, fp32, hnan, hinf, hE, decide_false, Bool.false_eq_true, if_false]
        · exact (roundMag_normal hE (Nat.mod_lt _ (by decide))).trans (by omega)

theorem roundFp32_of_magnitude {d : Dy} {a : Nat} (h : roundMag fp32 d.m d.e = a) (ha : a ≤ fp32.top) :
    roundFp32 d = BitVec.ofNat 32 (if d.neg then a + 2 ^ 31 else a) := by
  simp only [roundFp32, h, ha, if_true, withSign]
  rfl

/-- VABS clears the sign of all but a NaN (R115). -/
theorem fabs_eq (x : Lane) : fabs x = if isNan x then 0x7FC00000 else BitVec.ofNat 32 (x.toNat % 2 ^ 31) := by
  rcases valOf_cases x with h | ⟨ha, h⟩ | ⟨ha, d, h, -, hm⟩
  · simp only [fabs, isNan, h]; rfl
  · simp only [fabs, isNan, h, ha]; rfl
  · simp only [fabs, isNan, h, valAbs, encFp32]
    rw [roundFp32_of_magnitude (d := { d with neg := false }) hm ha]
    simp

/-- The top bit of a 32-bit number flipped. -/
theorem xor_topBit {n : Nat} (h : n < 2 ^ 32) : n ^^^ 2 ^ 31 = if n.testBit 31 then n % 2 ^ 31 else n % 2 ^ 31 + 2 ^ 31 := by
  have ha : n % 2 ^ 31 < 2 ^ 31 := Nat.mod_lt _ (by decide)
  refine Nat.eq_of_testBit_eq fun j => ?_
  rw [Nat.testBit_xor, Nat.testBit_two_pow]
  rcases Nat.lt_trichotomy j 31 with hj | rfl | hj
  · have hlow : (n % 2 ^ 31).testBit j = n.testBit j := by rw [Nat.testBit_mod_two_pow, decide_eq_true hj]; rfl
    rw [decide_eq_false (by omega), Bool.xor_false]
    split
    · exact hlow.symm
    · rw [Nat.add_comm, Nat.testBit_two_pow_add_gt hj, hlow]
  · have hlow : (n % 2 ^ 31).testBit 31 = false := Nat.testBit_lt_two_pow ha
    cases hn : n.testBit 31 with
    | true => rw [if_pos rfl, hlow]; rfl
    | false => rw [if_neg Bool.false_ne_true, Nat.add_comm, Nat.testBit_two_pow_add_eq, hlow]; rfl
  · have hpow : 2 ^ 32 ≤ 2 ^ j := Nat.pow_le_pow_right (by decide) hj
    rw [Nat.testBit_lt_two_pow (h.trans_le hpow), decide_eq_false (by omega)]
    symm
    split <;> exact Nat.testBit_lt_two_pow (by omega)

/-- VNEG flips the sign of all but a NaN (R115). -/
theorem fneg_eq (x : Lane) : fneg x = if isNan x then 0x7FC00000 else x ^^^ 0x80000000 := by
  have hflip : x ^^^ 0x80000000 = BitVec.ofNat 32 (if x.toNat.testBit 31 then x.toNat % 2 ^ 31 else x.toNat % 2 ^ 31 + 2 ^ 31) := by
    rw [← xor_topBit x.isLt]
    exact BitVec.eq_of_toNat_eq (by simp)
  rcases valOf_cases x with h | ⟨ha, h⟩ | ⟨ha, d, h, hn, hm⟩
  · simp only [fneg, isNan, h]; rfl
  · simp only [fneg, isNan, h, hflip, ha, valNeg, encFp32]
    cases x.toNat.testBit 31 <;> rfl
  · simp only [fneg, isNan, h, valNeg, encFp32, hflip]
    rw [roundFp32_of_magnitude (d := { d with neg := !d.neg }) hm ha]
    simp only [hn]
    cases x.toNat.testBit 31 <;> simp

/- Lists of lanes. -/

theorem length_mapLanes_le (f : Lane → Lane → Lane → Lane) (a b c : List Lane) : (mapLanes f a b c).length ≤ a.length := by
  induction a generalizing b c with
  | nil => exact Nat.le_refl 0
  | cons x a ih =>
    match b, c with
    | [], _ => exact Nat.zero_le _
    | _ :: _, [] => exact Nat.zero_le _
    | _ :: b, _ :: c => exact Nat.succ_le_succ (ih b c)

theorem getElem?_mapLanes {f : Lane → Lane → Lane → Lane} {a b d : List Lane} {i : Nat} {x y z : Lane} (ha : a[i]? = some x) (hb : b[i]? = some y)
    (hd : d[i]? = some z) : (mapLanes f a b d)[i]? = some (f x y z) := by
  induction a generalizing b d i with
  | nil => simp at ha
  | cons u a ih =>
    match b, d with
    | [], _ => simp at hb
    | _ :: _, [] => simp at hd
    | v :: b, w :: d =>
      cases i with
      | zero => simp_all [mapLanes]
      | succ i => exact ih (by simpa using ha) (by simpa using hb) (by simpa using hd)

theorem length_vreg (c : Core) (n : Nat) : (vreg c n).length = 256 := by simp [vreg]

theorem getElem?_vreg (c : Core) (n : Nat) {i : Nat} (hi : i < 256) : (vreg c n)[i]? = some (vlane c n i) := by simp [vreg, hi]

theorem length_srcB (c : Core) (q : QInstr) : (srcB c q).length = 256 := by
  unfold srcB
  split
  · exact List.length_replicate
  · exact length_vreg ..

theorem getElem?_srcB (c : Core) (q : QInstr) {i : Nat} (hi : i < 256) :
    (srcB c q)[i]? = some (if fBS q.word then q.y.setWidth 32 else vlane c (fB q.word) i) := by
  unfold srcB
  split
  · rw [List.getElem?_replicate, if_pos hi]
    exact congrArg some (BitVec.eq_of_toNat_eq (by simp))
  · exact getElem?_vreg _ _ hi

theorem length_packLanes (per bits k : Nat) (l : List Nat) : (packLanes per bits k l).length = k := by
  induction k generalizing l with
  | zero => rfl
  | succ k ih => simp [packLanes, ih]

/-- Codes packed by Horner's rule are the sum of their places. -/
theorem foldr_places (bits : Nat) (l : List Nat) :
    l.foldr (fun c acc => c + 2 ^ bits * acc) 0 = ((List.range l.length).map (fun k => (l[k]?).getD 0 * 2 ^ (bits * k))).sum := by
  induction l with
  | nil => rfl
  | cons x l ih =>
    rw [List.foldr_cons, ih, List.length_cons, List.range_succ_eq_map, List.map_cons, List.sum_cons, List.map_map, ← List.sum_map_mul_left]
    refine congrArg₂ (· + ·) (by simp) (congrArg List.sum (List.map_congr_left fun k _ => ?_))
    show 2 ^ bits * ((l[k]?).getD 0 * 2 ^ (bits * k)) = (((x :: l)[k + 1]?).getD 0) * 2 ^ (bits * (k + 1))
    rw [List.getElem?_cons_succ, Nat.mul_succ, Nat.pow_add]
    ring

theorem getElem?_packLanes (per bits : Nat) {k j : Nat} (l : List Nat) (hj : j < k) :
    (packLanes per bits k l)[j]? =
      some (BitVec.ofNat 32 (((l.drop (per * j)).take per).foldr (fun c acc => c + 2 ^ bits * acc) 0)) := by
  induction k generalizing j l with
  | zero => exact absurd hj (Nat.not_lt_zero j)
  | succ k ih =>
    cases j with
    | zero => simp [packLanes]
    | succ j =>
      rw [packLanes, List.getElem?_cons_succ, ih _ (Nat.lt_of_succ_lt_succ hj), List.drop_drop, Nat.mul_succ, Nat.add_comm]

/- The parts that VCVT converts (R118). -/

theorem cvtQs_parts : ∀ code < 64, 0 < cvtQs code → cvtQs code = 32 / narrowBits code ∧ (narrowBits code = 8 ∨ narrowBits code = 16 ∨ narrowBits code = 32) := by
  decide

theorem cvt_part {sub : Nat} (h : subOk 0xD8 sub = true) : sub / 64 < 32 / narrowBits (sub % 64) ∧
    (narrowBits (sub % 64) = 8 ∨ narrowBits (sub % 64) = 16 ∨ narrowBits (sub % 64) = 32) := by
  have hlt : sub / 64 < cvtQs (sub % 64) := by simpa [subOk] using h
  obtain ⟨heq, hbits⟩ := cvtQs_parts (sub % 64) (Nat.mod_lt _ (by decide)) (Nat.zero_lt_of_lt hlt)
  exact ⟨heq ▸ hlt, hbits⟩

theorem cvtLanes_fits {c : Core} {w : Word} (h : subOk 0xD8 (fSub w) = true) : (cvtLanes c w).1 + (cvtLanes c w).2.length ≤ 256 := by
  obtain ⟨hq, hbits⟩ := cvt_part h
  unfold cvtLanes
  dsimp only
  split
  · rw [length_packLanes]
    rcases hbits with hb | hb | hb <;> rw [hb] at hq ⊢ <;> omega
  · simp

theorem length_reduced (x : Lane) : (reduced x).length = 256 := by rw [reduced, List.length_cons, List.length_replicate]

theorem vecResult_fits {c : Core} {q : QInstr} (h : opOf q.word = 0xD8 → subOk 0xD8 (fSub q.word) = true) :
    (vecResult c q).1 + (vecResult c q).2.length ≤ 256 := by
  unfold vecResult
  dsimp only
  split
  · next hop => exact cvtLanes_fits (h hop)
  · repeat' split
    · rw [Nat.zero_add, length_reduced]
    · rw [Nat.zero_add, length_reduced]
    · rw [List.length_map, length_srcB]
    · rw [Nat.zero_add]
      exact (length_mapLanes_le ..).trans (length_vreg ..).le

end Sys2Proof.Machine
end

section
/-! PROOFS. The elements of a tile (R48, R49). -/

namespace Sys2Proof.Machine

section
variable {α : Type} (d : α)

theorem tget_absent {t : Tbl α} {k : Nat} (h : ∀ e ∈ t, e.1 ≠ k) : tget d t k = d := by
  induction t with
  | nil => rfl
  | cons e t ih =>
    rw [tget, if_neg (h e List.mem_cons_self)]
    exact ih fun x hx => h x (List.mem_cons_of_mem _ hx)

/-- A table after another whose numbers differ is read where the first has no entry. -/
theorem tget_append_absent {a b : Tbl α} {k : Nat} (h : ∀ e ∈ a, e.1 ≠ k) : tget d (a ++ b) k = tget d b k := by
  induction a with
  | nil => rfl
  | cons e a ih =>
    rw [List.cons_append, tget, if_neg (h e List.mem_cons_self)]
    exact ih fun x hx => h x (List.mem_cons_of_mem _ hx)

theorem tget_append_left {a b : Tbl α} {k : Nat} (h : ∀ e ∈ b, e.1 ≠ k) : tget d (a ++ b) k = tget d a k := by
  induction a with
  | nil => exact tget_absent d h
  | cons e a ih =>
    rw [List.cons_append, tget, tget, ih]

end

theorem sublist_of_eq {β : Type} {a b : List β} (h : a = b) : a.Sublist b := h ▸ .refl a

/-- An element's entry divides a tile's table (R48). -/
theorem splitKey_divides (t : Tbl Elem) (k : Nat) :
    (∀ e ∈ (splitKey t k).1, e.1 < k) ∧
    ((t = (splitKey t k).1 ++ (splitKey t k).2.2 ∧ (splitKey t k).2.1 = {}) ∨ t = (splitKey t k).1 ++ (k, (splitKey t k).2.1) :: (splitKey t k).2.2) ∧
    (Rising t → ∀ e ∈ (splitKey t k).2.2, k < e.1) := by
  induction t with
  | nil => exact ⟨nofun, .inl ⟨rfl, rfl⟩, fun _ => nofun⟩
  | cons e t ih =>
    obtain ⟨n, v⟩ := e
    rw [splitKey]
    split
    · next hlt =>
      refine ⟨nofun, .inl ⟨rfl, rfl⟩, fun hr x hx => ?_⟩
      rcases List.mem_cons.mp hx with rfl | hx
      · exact hlt
      · exact hlt.trans ((List.pairwise_cons.mp hr).1 x hx)
    · split
      · next heq =>
        subst heq
        exact ⟨nofun, .inr rfl, fun hr x hx => (List.pairwise_cons.mp hr).1 x hx⟩
      · next h1 h2 =>
        obtain ⟨hpre, hsplit, hpost⟩ := ih
        refine ⟨fun x hx => ?_, ?_, fun hr => hpost (List.pairwise_cons.mp hr).2⟩
        · rcases List.mem_cons.mp hx with rfl | hx
          · show n < k; omega
          · exact hpre x hx
        · exact hsplit.imp (fun h => ⟨congrArg ((n, v) :: ·) h.1, h.2⟩) (congrArg ((n, v) :: ·))

theorem updElems_above (f : Nat → Elem → Elem × Bool × Bool) {k : Nat} {t : Tbl Elem} {ks : List Nat} (ht : ∀ e ∈ t, k < e.1)
    (hks : ∀ x ∈ ks, k < x) : ∀ e ∈ (updElems f t ks).1, k < e.1 := by
  induction ks generalizing t with
  | nil => exact ht
  | cons m ks ih =>
    obtain ⟨-, hsplit, -⟩ := splitKey_divides t m
    have hsub : ∀ e, e ∈ (splitKey t m).1 ∨ e ∈ (splitKey t m).2.2 → k < e.1 := fun e he => ht e (by
      rcases hsplit with ⟨h, -⟩ | h
      · rw [h]; exact List.mem_append.mpr he
      · rw [h]; exact List.mem_append.mpr (he.imp_right (List.mem_cons_of_mem _)))
    have hrest := ih (fun e he => hsub e (.inr he)) fun x hx => hks x (List.mem_cons_of_mem _ hx)
    intro e he
    simp only [updElems] at he
    rcases List.mem_append.mp he with he | he
    · exact hsub e (.inl he)
    · split at he
      · exact hrest e he
      · rcases List.mem_cons.mp he with rfl | he
        · exact hks m List.mem_cons_self
        · exact hrest e he

/-- The elements after a change of rising numbers: each of those changed once, every other as it was. -/
theorem updElems_reads (f : Nat → Elem → Elem × Bool × Bool) {t : Tbl Elem} {ks : List Nat} (ht : Rising t) (hks : ks.Pairwise (· < ·)) (j : Nat) :
    tget {} (updElems f t ks).1 j = if j ∈ ks then (f j (tget {} t j)).1 else tget {} t j := by
  induction ks generalizing t with
  | nil => simp [updElems]
  | cons k ks ih =>
    obtain ⟨hpre, hsplit, hpost⟩ := splitKey_divides t k
    have hpost := hpost ht
    obtain ⟨habove, hks⟩ := List.pairwise_cons.mp hks
    have hrising : Rising (splitKey t k).2.2 := ht.sublist (by
      rcases hsplit with ⟨h, -⟩ | h
      · exact (List.sublist_append_right _ _).trans (sublist_of_eq h.symm)
      · exact ((List.sublist_cons_self _ _).trans (List.sublist_append_right _ _)).trans (sublist_of_eq h.symm))
    have hrest := updElems_above f hpost habove
    have hres : (updElems f t (k :: ks)).1 = (splitKey t k).1 ++
        (if (f k (splitKey t k).2.1).1 = {} then (updElems f (splitKey t k).2.2 ks).1
          else (k, (f k (splitKey t k).2.1).1) :: (updElems f (splitKey t k).2.2 ks).1) := rfl
    rw [hres]
    rcases Nat.lt_trichotomy j k with hlt | rfl | hgt
    · have hnot : j ∉ k :: ks := by
        rw [List.mem_cons, not_or]
        exact ⟨hlt.ne, fun h => absurd (habove j h) (by omega)⟩
      have hread : tget {} t j = tget {} (splitKey t k).1 j := by
        rcases hsplit with ⟨h, -⟩ | h
        · conv_lhs => rw [h]
          exact tget_append_left _ fun e he => (hlt.trans (hpost e he)).ne'
        · conv_lhs => rw [h]
          refine tget_append_left _ fun e he => ?_
          rcases List.mem_cons.mp he with rfl | he
          · exact hlt.ne'
          · exact (hlt.trans (hpost e he)).ne'
      rw [if_neg hnot, hread]
      refine tget_append_left _ fun e he => ?_
      split at he
      · exact (hlt.trans (hrest e he)).ne'
      · rcases List.mem_cons.mp he with rfl | he
        · exact hlt.ne'
        · exact (hlt.trans (hrest e he)).ne'
    · have hread : tget {} t j = (splitKey t j).2.1 := by
        rcases hsplit with ⟨h, hv⟩ | h
        · conv_lhs => rw [h]
          rw [tget_append_absent _ fun e he => (hpre e he).ne, tget_absent _ fun e he => (hpost e he).ne', hv]
        · conv_lhs => rw [h]
          rw [tget_append_absent _ fun e he => (hpre e he).ne, tget, if_pos rfl]
      rw [if_pos List.mem_cons_self, hread, tget_append_absent _ fun e he => (hpre e he).ne]
      split
      · next hx => rw [hx]; exact tget_absent _ fun e he => (hrest e he).ne'
      · rw [tget, if_pos rfl]
    · have hmem : j ∈ k :: ks ↔ j ∈ ks := by rw [List.mem_cons]; exact or_iff_right hgt.ne'
      have hread : tget {} t j = tget {} (splitKey t k).2.2 j := by
        rcases hsplit with ⟨h, -⟩ | h
        · conv_lhs => rw [h]
          exact tget_append_absent _ fun e he => ((hpre e he).trans hgt).ne
        · conv_lhs => rw [h]
          rw [tget_append_absent _ fun e he => ((hpre e he).trans hgt).ne, tget, if_neg hgt.ne]
      rw [if_congr hmem rfl rfl, hread, ← ih hrising hks, tget_append_absent _ fun e he => ((hpre e he).trans hgt).ne]
      split
      · rfl
      · rw [tget, if_neg hgt.ne]

theorem pairwise_range (n : Nat) : (List.range n).Pairwise (· < ·) := List.pairwise_lt_range

end Sys2Proof.Machine
end

section
/-! PROOFS. VECTOR_DISPATCH (R92, R114 to R121). -/

namespace Sys2Proof.Machine

/-- The core after a vector instruction that writes lanes of its own register alone. -/
def writesLanes (c : Core) (q : QInstr) (rest : List QInstr) : Core :=
  { c with vq := rest, vregs := setLanes c.vregs (256 * fD q.word + (vecResult c q).1) (vecResult c q).2 }

theorem vectorDispatch_writes {s : State} {n id : Nat} {cmd : Cmd} {q : QInstr} {rest : List QInstr} (e : Sram) (hrun : running s (coreAt s n) = true)
    (hid : (coreAt s n).cmd = some id) (hc : cmdAt s id = some cmd) (hq : (coreAt s n).vq = q :: rest) (hacc : opOf q.word ≠ 0xDC)
    (hwpf : opOf q.word ≠ 0xDD) : exec (.vectorDispatch n e) s = .next (setCore s n (writesLanes (coreAt s n) q rest)) := by
  have hcmd : coreCmd s (coreAt s n) = some cmd := by rw [coreCmd, hid]; exact hc
  show execVectorDispatch n e s = _
  simp only [execVectorDispatch, hcmd, hq, hrun, hacc, hwpf, if_false, Bool.not_true, Bool.false_eq_true]
  rfl

theorem vlane_writesLanes_other {c : Core} {q : QInstr} {rest : List QInstr} {r i : Nat} (h : opOf q.word = 0xD8 → subOk 0xD8 (fSub q.word) = true)
    (hi : i < 256) (hout : r ≠ fD q.word ∨ i < (vecResult c q).1 ∨ (vecResult c q).1 + (vecResult c q).2.length ≤ i) :
    vlane (writesLanes c q rest) r i = vlane c r i := by
  have hfits := vecResult_fits (c := c) h
  refine tget_setLanes_out _ _ _ ?_
  rcases hout with hr | hout
  · rcases Nat.lt_or_gt_of_ne hr with hlt | hgt <;> omega
  · by_cases hr : r = fD q.word
    · subst hr; omega
    · rcases Nat.lt_or_gt_of_ne hr with hlt | hgt <;> omega

theorem vlane_writesLanes_in {c : Core} {q : QInstr} {rest : List QInstr} {i : Nat} {x : Lane} (h : (vecResult c q).2[i]? = some x) :
    vlane (writesLanes c q rest) (fD q.word) ((vecResult c q).1 + i) = x := by
  show tget 0 (setLanes _ _ _) _ = _
  rw [← Nat.add_assoc]
  exact tget_setLanes_in _ _ h

/-- The lane `i` of source B (R114). -/
def srcLane (c : Core) (q : QInstr) (i : Nat) : Lane := if fBS q.word then q.y.setWidth 32 else vlane c (fB q.word) i

/-- A lane-wise operation's lane (R115). -/
theorem lanewise_lane {c : Core} {q : QInstr} {rest : List QInstr} {i : Nat} (op : Nat) (hop : opOf q.word = op) (hi : i < 256) (h1 : op ≠ 0xD8)
    (h2 : op ≠ 0xDA) (h3 : op ≠ 0xDB) (h4 : op ≠ 0xDE) :
    vlane (writesLanes c q rest) (fD q.word) i =
      laneOp op (fSub q.word) (vlane c (fA q.word) i) (srcLane c q i) (vlane c (fC q.word) i) := by
  have hres : vecResult c q = (0, mapLanes (laneOp op (fSub q.word)) (vreg c (fA q.word)) (srcB c q) (vreg c (fC q.word))) := by
    simp only [vecResult, hop, h1, h2, h3, h4, if_false]
  have hlane := vlane_writesLanes_in (c := c) (q := q) (rest := rest) (i := i) (by
    rw [hres]; exact getElem?_mapLanes (getElem?_vreg _ _ hi) (getElem?_srcB _ _ hi) (getElem?_vreg _ _ hi))
  rwa [hres, Nat.zero_add] at hlane

/-- A reduction's lane: the reduced value in lane 0, 0 elsewhere (R119). -/
theorem reduced_lane {c : Core} {q : QInstr} {rest : List QInstr} {i : Nat} {x : Lane} (hres : vecResult c q = (0, reduced x)) (hi : i < 256) :
    vlane (writesLanes c q rest) (fD q.word) i = if i = 0 then x else 0 := by
  have hlane := vlane_writesLanes_in (c := c) (q := q) (rest := rest) (i := i) (x := if i = 0 then x else 0) (by
    rw [hres]
    cases i with
    | zero => rfl
    | succ i => rw [reduced, List.getElem?_cons_succ, List.getElem?_replicate, if_pos (by omega)]; rfl)
  rwa [hres, Nat.zero_add] at hlane

/-- VPERM's lane (R115). -/
theorem permuted_lane {c : Core} {q : QInstr} {rest : List QInstr} {i : Nat} (hop : opOf q.word = 0xDE) (hi : i < 256) :
    vlane (writesLanes c q rest) (fD q.word) i = vlane c (fA q.word) ((srcLane c q i).toNat % 256) := by
  have hres : vecResult c q = (0, (srcB c q).map (fun i => vlane c (fA q.word) (i.toNat % 256))) := by
    simp only [vecResult, hop]; rfl
  have hlane := vlane_writesLanes_in (c := c) (q := q) (rest := rest) (i := i) (by
    rw [hres, List.getElem?_map, getElem?_srcB _ _ hi]; rfl)
  rwa [hres, Nat.zero_add] at hlane

/-- A widened lane (R118). -/
theorem widened_lane {c : Core} {q : QInstr} {rest : List QInstr} {i : Nat} (hop : opOf q.word = 0xD8) (hw : 0x10 ≤ fSub q.word % 64) (hi : i < 256) :
    let bits := narrowBits (fSub q.word % 64)
    vlane (writesLanes c q rest) (fD q.word) i = widen (fSub q.word % 64)
      ((vlane c (fA q.word) (256 / (32 / bits) * (fSub q.word / 64) + i / (32 / bits))).toNat / 2 ^ (bits * (i % (32 / bits))) % 2 ^ bits) := by
  intro bits
  have hres : vecResult c q = (0, (List.range 256).map (fun i => widen (fSub q.word % 64)
      (((vlane c (fA q.word) (256 / (32 / bits) * (fSub q.word / 64) + i / (32 / bits))).toNat >>> (bits * (i % (32 / bits)))) % 2 ^ bits))) := by
    simp only [vecResult, hop, if_true, cvtLanes, if_neg (Nat.not_lt.mpr hw)]
    rfl
  have hlane := vlane_writesLanes_in (c := c) (q := q) (rest := rest) (i := i) (by
    rw [hres, List.getElem?_map, List.getElem?_range hi]; rfl)
  rw [hres, Nat.zero_add] at hlane
  rw [hlane]
  dsimp only
  rw [Nat.shiftRight_eq_div_pow]

/-- A narrowed lane: the codes of its part packed in order (R118). -/
theorem narrowed_lane {c : Core} {q : QInstr} {rest : List QInstr} {j : Nat} (hop : opOf q.word = 0xD8)
    (hn : fSub q.word % 64 < 0x10) :
    let bits := narrowBits (fSub q.word % 64)
    let per := 32 / bits
    (vecResult c q).1 = 256 / per * (fSub q.word / 64) ∧ (vecResult c q).2.length = 256 / per ∧
    (j < 256 / per → vlane (writesLanes c q rest) (fD q.word) (256 / per * (fSub q.word / 64) + j) =
      BitVec.ofNat 32 (((List.range per).map (fun k => narrowCode (fSub q.word % 64) (vlane c (fA q.word) (per * j + k)) * 2 ^ (bits * k))).sum)) := by
  intro bits per
  have hres : vecResult c q = (256 / per * (fSub q.word / 64), packLanes per bits (256 / per) ((vreg c (fA q.word)).map (narrowCode (fSub q.word % 64)))) := by
    simp only [vecResult, hop, if_true, cvtLanes, if_pos hn]
    rfl
  refine ⟨by rw [hres], by rw [hres]; exact length_packLanes .., fun hj => ?_⟩
  have hlane := vlane_writesLanes_in (c := c) (q := q) (rest := rest) (i := j) (by rw [hres]; exact getElem?_packLanes per bits _ hj)
  rw [hres] at hlane
  have hpj : per * j + per ≤ 256 := by
    have := Nat.mul_div_le 256 per
    calc per * j + per = per * (j + 1) := (Nat.mul_succ ..).symm
      _ ≤ per * (256 / per) := Nat.mul_le_mul_left per hj
      _ ≤ 256 := this
  have hlen : ((((vreg c (fA q.word)).map (narrowCode (fSub q.word % 64))).drop (per * j)).take per).length = per := by
    rw [List.length_take, List.length_drop, List.length_map, length_vreg]
    omega
  rw [hlane, foldr_places, hlen]
  refine congrArg (fun l => BitVec.ofNat 32 (List.sum l)) (List.map_congr_left fun k hk => ?_)
  have hk := List.mem_range.mp hk
  rw [List.getElem?_take_of_lt hk, List.getElem?_drop, List.getElem?_map, getElem?_vreg _ _ (by omega)]
  rfl

/- VACC and VWPF (R120). -/

/-- A VACC whose tile and row are legal adds its lanes (R120). -/
theorem vacc_adds {s : State} {n id : Nat} {cmd : Cmd} {q : QInstr} {rest : List QInstr} {e : Sram} (hrun : running s (coreAt s n) = true)
    (hid : (coreAt s n).cmd = some id) (hc : cmdAt s id = some cmd) (hq : (coreAt s n).vq = q :: rest) (hop : opOf q.word = 0xDC) :
    ((∃ m ∈ (coreAt s n).mq, fT m.word = bit q.word 0 ∧ m.order < q.order) → exec (.vectorDispatch n e) s = .next s) ∧
    ((∀ m ∈ (coreAt s n).mq, fT m.word = bit q.word 0 → q.order ≤ m.order) →
      exec (.vectorDispatch n e) s = if e.acc = .uncorrected then .next (accFault s n q) else .next (runVacc s n cmd q)) := by
  have hcmd : coreCmd s (coreAt s n) = some cmd := by rw [coreCmd, hid]; exact hc
  have hx : exec (.vectorDispatch n e) s =
      if (coreAt s n).mq.any (fun m => fT m.word == bit q.word 0 && decide (m.order < q.order)) then .next s
      else if e.acc = .uncorrected then .next (accFault s n q) else .next (runVacc s n cmd q) := by
    show execVectorDispatch n e s = _
    simp only [execVectorDispatch, hcmd, hq, hrun, hop, if_true, Bool.not_true, Bool.false_eq_true, if_false]
  refine ⟨fun ⟨m, hm, ht, hlt⟩ => hx.trans (if_pos ?_), fun hall => hx.trans (if_neg ?_)⟩
  · exact List.any_eq_true.mpr ⟨m, hm, by simp [ht, hlt]⟩
  · rw [List.any_eq_true]
    rintro ⟨m, hm, hp⟩
    simp only [Bool.and_eq_true, beq_iff_eq, decide_eq_true_eq] at hp
    exact absurd (hall m hm hp.1) (by omega)

/-- A VACC changes the elements of its two rows, and their flags (R120). -/
theorem vaccTile_eq (t : Tile) (r : Nat) (lanes : List Lane) : ∃ lo hi, vaccTile t r lanes = { t with
    elems := (updElems (fun k e => addTerm t.anchor e (valOf ((lanes[k - 128 * r]?).getD 0))) t.elems ((List.range 256).map (fun i => 128 * r + i))).1
    low := lo, high := hi } := by
  unfold vaccTile
  dsimp only
  exact ⟨_, _, rfl⟩

theorem vaccTile_reads {t : Tile} {r : Nat} (c : Core) (a : Nat) (ht : Rising t.elems) (k : Nat) :
    tget {} (vaccTile t r (vreg c a)).elems k = if 128 * r ≤ k ∧ k < 128 * r + 256
      then (addTerm t.anchor (tget {} t.elems k) (valOf (vlane c a (k - 128 * r)))).1 else tget {} t.elems k := by
  have hks : ((List.range 256).map (fun i => 128 * r + i)).Pairwise (· < ·) :=
    List.pairwise_map.mpr ((pairwise_range 256).imp fun h => Nat.add_lt_add_left h _)
  have hmem : k ∈ (List.range 256).map (fun i => 128 * r + i) ↔ 128 * r ≤ k ∧ k < 128 * r + 256 := by
    simp only [List.mem_map, List.mem_range]
    exact ⟨fun ⟨i, hi, h⟩ => by omega, fun ⟨h1, h2⟩ => ⟨k - 128 * r, by omega, by omega⟩⟩
  obtain ⟨lo, hi, heq⟩ := vaccTile_eq t r (vreg c a)
  rw [heq]
  dsimp only
  rw [updElems_reads _ ht hks, if_congr hmem rfl rfl]
  split
  · next hk => rw [getElem?_vreg _ _ (by omega)]; rfl
  · rfl

/-- The lanes of a VWPF (R58, R120). -/
def wpfLanes (c : Core) (q : QInstr) : List Lane :=
  (List.range 256).map (fun i => BitVec.ofNat 32 (writeOut fp32
    (wideVal ((q.y.setWidth 10).toInt) (BitVec.ofNat 128 (leNat (mread c.sp (spOperand q.x + 16 * i) 16))))))

theorem length_wpfLanes (c : Core) (q : QInstr) : (wpfLanes c q).length = 256 := by rw [wpfLanes, List.length_map, List.length_range]

theorem getElem?_wpfLanes (c : Core) (q : QInstr) {i : Nat} (hi : i < 256) : (wpfLanes c q)[i]? = some (BitVec.ofNat 32 (writeOut fp32
    (wideVal ((q.y.setWidth 10).toInt) (BitVec.ofNat 128 (leNat (mread c.sp (spOperand q.x + 16 * i) 16)))))) := by
  rw [wpfLanes, List.getElem?_map, List.getElem?_range hi]
  rfl

/-- A VWPF whose operand lies aligned in the scratchpad rounds its 256 wide partials (R120). -/
theorem vwpf_rounds {s : State} {n id : Nat} {cmd : Cmd} {q : QInstr} {rest : List QInstr} {e : Sram} (hrun : running s (coreAt s n) = true)
    (hid : (coreAt s n).cmd = some id) (hc : cmdAt s id = some cmd) (hq : (coreAt s n).vq = q :: rest) (hop : opOf q.word = 0xDD)
    (hinj : NoSpInjection s n) (he : e.sp = .clean) (hal : spOperand q.x % 64 = 0) (hin : spOperand q.x + 4096 ≤ 0x180000) :
    exec (.vectorDispatch n e) s = .next (setCore s n { setVreg (coreAt s n) (fD q.word) (wpfLanes (coreAt s n) q) with vq := rest }) := by
  have hcmd : coreCmd s (coreAt s n) = some cmd := by rw [coreCmd, hid]; exact hc
  have hrange : allInside (spReads q ++ spWrites q) = true := by
    simp only [spReads, spWrites, hop]
    simpa [allInside, spInside, spTop] using hin
  have haligned : aligned64 (offsetsOf q) = true := by
    simp only [offsetsOf, hop]
    simpa [aligned64] using hal
  show execVectorDispatch n e s = _
  simp only [execVectorDispatch, hcmd, hq, hrun, hop, Bool.not_true, Bool.false_eq_true, if_false, Nat.reduceEqDiff, if_true, runVwpf,
    checkedOffsets, hrange, haligned, he, spRead_clean hinj, sext_ten, wideAt, setVreg, popVector, List.drop_one, List.tail_cons, wpfLanes]

theorem setTile_vq (c : Core) (b : Bool) (x : Tile) : (setTile c b x).vq = c.vq := by cases b <;> rfl

/-- A VACC of a legal row writes two rows of its tile and leaves the other tile (R120). -/
theorem runVacc_writes {s : State} {n : Nat} {cmd : Cmd} {q : QInstr} {rest : List QInstr} (hq : (coreAt s n).vq = q :: rest)
    (hleg : cmd.legacy = false) (heven : q.y.toNat % 2 = 0) (hle : q.y.toNat ≤ 126) :
    let c := coreAt s n
    runVacc s n cmd q = setCore s n { setTile c (bit q.word 0) (vaccTile (tile c (bit q.word 0)) q.y.toNat (vreg c (fA q.word))) with vq := rest } := by
  intro c
  have hgo : (cmd.legacy || q.y.toNat % 2 != 0 || decide (126 < q.y.toNat)) = false := by simp [hleg, heven, hle]
  simp only [runVacc, hgo, Bool.false_eq_true, if_false]
  rw [popVector, setTile_vq, hq]
  rfl

theorem setTile_eq (c : Core) (b : Bool) (x : Tile) (l : List QInstr) :
    { setTile c b x with vq := l } = { c with vq := l, acc0 := (setTile c b x).acc0, acc1 := (setTile c b x).acc1 } := by
  cases b <;> rfl

theorem tile_setTile_same (c : Core) (b : Bool) (x : Tile) (l : List QInstr) : tile { setTile c b x with vq := l } b = x := by
  cases b <;> rfl

theorem tile_setTile_other (c : Core) (b : Bool) (x : Tile) (l : List QInstr) : tile { setTile c b x with vq := l } (!b) = tile c (!b) := by
  cases b <;> rfl

/-- The register `d` of `c` takes the lanes `l`, whose lane `i` is `f i`; nothing else of the core changes but its queue. -/
theorem setVreg_lanes (c : Core) {d : Nat} {l : List Lane} {f : Nat → Lane} (rest : List QInstr) (hlen : l.length = 256)
    (hget : ∀ i, i < 256 → l[i]? = some (f i)) :
    { setVreg c d l with vq := rest } = { c with vq := rest, vregs := { setVreg c d l with vq := rest }.vregs } ∧
      (∀ r i, r ≠ d → i < 256 → vlane { setVreg c d l with vq := rest } r i = vlane c r i) ∧
      ∀ i, i < 256 → vlane { setVreg c d l with vq := rest } d i = f i :=
  ⟨rfl, fun _ _ hr hi => vlane_setVreg_other c hlen hr hi, fun _ hi => vlane_setVreg_same c d (hget _ hi)⟩

/-- Settles O17: the head of the vector queue acts on its register or its tile, and each lane takes its operation's value. -/
theorem vectorDispatchIsLanewise : Obligations.VectorDispatchIsLanewise := by
  intro s n id cmd q rest e c w op hrun hid hc hq a b cc
  refine ⟨fun hacc hwpf hcvt => ?lanes, fun hop => ?vacc, fun hop hinj he hal hin => ?vwpf⟩
  case lanes =>
    refine ⟨_, vectorDispatch_writes e hrun hid hc hq hacc hwpf, onlyCore_setCore .., ?_⟩
    rw [coreAt_setCore_same]
    refine ⟨rfl, fun r i hr hi => vlane_writesLanes_other hcvt hi (.inl hr), ?_⟩
    intro bits per first
    refine ⟨fun hop hn => ⟨fun j hj => (narrowed_lane hop hn).2.2 hj, fun i hi hout => ?_⟩, fun i hi => ?_⟩
    · obtain ⟨hfirst, hlen, -⟩ := narrowed_lane (c := c) (rest := rest) (j := 0) hop hn
      refine vlane_writesLanes_other hcvt hi (.inr ?_)
      rw [hfirst, hlen]
      exact (Nat.lt_or_ge i first).imp_right fun h1 => Nat.le_of_not_lt fun h2 => hout ⟨h1, h2⟩
    · intro d
      have hlane (o : Nat) (ho : op = o) (h1 : o ≠ 0xD8) (h2 : o ≠ 0xDA) (h3 : o ≠ 0xDB) (h4 : o ≠ 0xDE) :
          d = laneOp o (fSub w) (a i) (b i) (cc i) := lanewise_lane o ho hi h1 h2 h3 h4
      refine ⟨fun h => hlane _ h (by decide) (by decide) (by decide) (by decide), fun h => hlane _ h (by decide) (by decide) (by decide) (by decide),
        fun h => hlane _ h (by decide) (by decide) (by decide) (by decide), fun h => hlane _ h (by decide) (by decide) (by decide) (by decide),
        fun h => hlane _ h (by decide) (by decide) (by decide) (by decide), fun h => hlane _ h (by decide) (by decide) (by decide) (by decide),
        fun h => (hlane _ h (by decide) (by decide) (by decide) (by decide)).trans (fabs_eq _),
        fun h => (hlane _ h (by decide) (by decide) (by decide) (by decide)).trans (fneg_eq _),
        fun h => hlane _ h (by decide) (by decide) (by decide) (by decide),
        fun h => (hlane _ h (by decide) (by decide) (by decide) (by decide)).trans ?sel,
        fun h => (congrArg BitVec.toNat (hlane _ h (by decide) (by decide) (by decide) (by decide))).trans ?add,
        fun h => hlane _ h (by decide) (by decide) (by decide) (by decide), fun h => hlane _ h (by decide) (by decide) (by decide) (by decide),
        fun h => hlane _ h (by decide) (by decide) (by decide) (by decide),
        fun h => (congrArg BitVec.toNat (hlane _ h (by decide) (by decide) (by decide) (by decide))).trans ?shl,
        fun h => (congrArg BitVec.toNat (hlane _ h (by decide) (by decide) (by decide) (by decide))).trans ?shr,
        fun h => hlane _ h (by decide) (by decide) (by decide) (by decide),
        fun h hw => widened_lane h hw hi,
        fun h => reduced_lane ?_ hi, fun h => reduced_lane ?_ hi, fun h => permuted_lane h hi⟩
      case sel =>
        show (if cc i != 0 then a i else b i) = if cc i = 0 then b i else a i
        by_cases h0 : cc i = 0
        · rw [h0]; rfl
        · rw [if_neg h0, if_pos (bne_iff_ne.mpr h0)]
      case add => exact BitVec.toNat_add ..
      case shl =>
        show (a i <<< (fSub w % 32)).toNat = _
        rw [BitVec.toNat_shiftLeft, Nat.shiftLeft_eq]
      case shr =>
        show (a i >>> (fSub w % 32)).toNat = _
        rw [BitVec.toNat_ushiftRight, Nat.shiftRight_eq_div_pow]
      · have hop : opOf q.word = 0xDA := h
        simp only [vecResult, hop]; rfl
      · have hop : opOf q.word = 0xDB := h
        simp only [vecResult, hop]; rfl
  case vacc =>
    obtain ⟨hwait, hgo⟩ := vacc_adds (e := e) hrun hid hc hq hop
    refine ⟨hwait, fun hall => ⟨fun hu => (hgo hall).trans (if_pos hu), fun hu hbad => ((hgo hall).trans (if_neg hu)).trans (next_congr (if_pos ?_)),
      fun hu hleg heven hle => ?_⟩⟩
    · rcases hbad with h | h | h <;> simp [h]
    · have hx := ((hgo hall).trans (if_neg hu)).trans (next_congr (runVacc_writes hq hleg heven hle))
      refine ⟨_, hx, onlyCore_setCore .., ?_⟩
      rw [coreAt_setCore_same]
      refine ⟨?_, tile_setTile_other .., ?_⟩
      · exact setTile_eq ..
      · rw [tile_setTile_same]
        obtain ⟨lo, hi, heq⟩ := vaccTile_eq (tile c (bit q.word 0)) q.y.toNat (vreg c (fA q.word))
        exact ⟨by rw [heq], by rw [heq], fun hr k => vaccTile_reads c (fA q.word) hr k⟩
  case vwpf =>
    refine ⟨_, vwpf_rounds hrun hid hc hq hop hinj he hal hin, onlyCore_setCore .., ?_⟩
    rw [coreAt_setCore_same]
    exact setVreg_lanes (coreAt s n) rest (length_wpfLanes ..) fun i hi => getElem?_wpfLanes _ q hi

end Sys2Proof.Machine
end
section

/-!
PROOFS. What the matrix engine runs (R105 to R112).
-/

namespace Sys2Proof.Machine

/- Ranges stored one after another (R107, R108). -/

/-- The ranges `bytes m a` at `addr a`, stored one after another. -/
def storeEach {α : Type} (addr : α → Nat) (bytes : List Host.Cell → α → List Byte) (l : List α) (m : List Host.Cell) : List Host.Cell :=
  l.foldl (fun m a => mwrite m (addr a) (bytes m a)) m

theorem storeEach_nil {α : Type} (addr : α → Nat) (bytes : List Host.Cell → α → List Byte) (m : List Host.Cell) : storeEach addr bytes [] m = m := rfl

theorem storeEach_cons {α : Type} (addr : α → Nat) (bytes : List Host.Cell → α → List Byte) (a : α) (l : List α) (m : List Host.Cell) :
    storeEach addr bytes (a :: l) m = storeEach addr bytes l (mwrite m (addr a) (bytes m a)) := rfl

theorem wf_storeEach {α : Type} (addr : α → Nat) (bytes : List Host.Cell → α → List Byte) (l : List α) {m : List Host.Cell}
    (h : Memory.wf m = true) : Memory.wf (storeEach addr bytes l m) = true := by
  induction l generalizing m with
  | nil => exact h
  | cons a l ih => exact ih (wf_mwrite _ _ h)

theorem mget_storeEach_other {α : Type} {addr : α → Nat} {bytes : List Host.Cell → α → List Byte} {l : List α} {x : Nat} (m : List Host.Cell)
    (h : ∀ a ∈ l, ∀ m, x < addr a ∨ addr a + (bytes m a).length ≤ x) : mget (storeEach addr bytes l m) x = mget m x := by
  induction l generalizing m with
  | nil => rfl
  | cons a l ih =>
    rw [storeEach_cons, ih _ fun b hb => h b (List.mem_cons_of_mem a hb), mget_mwrite_other _ _ _ (h a List.mem_cons_self m)]

/-- A range of a row no later row reaches reads back. -/
theorem mread_storeEach {base pitch len : Nat} {bytes : Nat → List Byte} {k n : Nat} (hlen : ∀ i, (bytes i).length = len) (hpitch : len ≤ pitch)
    {m : List Host.Cell} (h : Memory.wf m = true) (hk : k < n) :
    mread (storeEach (fun i => base + i * pitch) (fun _ i => bytes i) (List.range n) m) (base + k * pitch) len = bytes k := by
  induction n with
  | zero => exact absurd hk (Nat.not_lt_zero k)
  | succ n ih =>
    have hstep : storeEach (fun i => base + i * pitch) (fun _ i => bytes i) (List.range (n + 1)) m =
        mwrite (storeEach (fun i => base + i * pitch) (fun _ i => bytes i) (List.range n) m) (base + n * pitch) (bytes n) := by
      rw [storeEach, List.range_succ, List.foldl_append]
      rfl
    rw [hstep]
    rcases Nat.lt_succ_iff_lt_or_eq.mp hk with hlt | rfl
    · have hrow : k * pitch + pitch ≤ n * pitch := by
        rw [← Nat.succ_mul]
        exact Nat.mul_le_mul_right pitch hlt
      rw [mread_congr _ _ fun x h1 h2 => mget_mwrite_other _ _ _ (.inl (by omega))]
      exact ih hlt
    · conv_lhs => rw [← hlen k]
      exact mread_mwrite _ _ (wf_storeEach _ _ _ h)

theorem getElem?_mread (m : List Host.Cell) (a : Nat) {n i : Nat} (hi : i < n) : (mread m a n)[i]? = some (mget m (a + i)) := by
  induction n generalizing a i with
  | zero => exact absurd hi (Nat.not_lt_zero i)
  | succ n ih =>
    cases i with
    | zero => rfl
    | succ i => rw [mread, List.getElem?_cons_succ, ih (a + 1) (by omega), show a + 1 + i = a + (i + 1) by omega]

/-- Bytes of equal rows lie one row after another. -/
theorem length_flatMap_rows {α β : Type} {f : α → List β} {b : Nat} (hf : ∀ x, (f x).length = b) (l : List α) :
    (l.flatMap f).length = l.length * b := by
  induction l with
  | nil => simp
  | cons x l ih => rw [List.flatMap_cons, List.length_append, hf, ih, List.length_cons, Nat.succ_mul, Nat.add_comm]

/-- Codes packed in `bits` bits each. -/
theorem length_packCodes (bits : Nat) (codes : List Nat) : (packCodes bits codes).length = (bits * codes.length + 7) / 8 := leBytes_length ..

/-- ACC.EXP's bytes: 16 of each element (R106). -/
def wideBytes (t : Tile) : List Byte := (List.range 16384).flatMap (fun k => leBytes 16 (elemWide (tget {} t.elems k)).toNat)

theorem length_wideBytes (t : Tile) : (wideBytes t).length = 262144 := by
  rw [wideBytes, length_flatMap_rows (fun _ => leBytes_length 16 _), List.length_range]

/-- Element `k` of the bytes of ACC.EXP. -/
theorem wideBytes_element (t : Tile) {k : Nat} (hk : k < 16384) :
    ((wideBytes t).drop (16 * k)).take 16 = leBytes 16 (elemWide (tget {} t.elems k)).toNat := by
  rw [wideBytes, take_drop_flatMap (fun _ => leBytes_length 16 _), List.getElem?_range hk]
  rfl

/- The core a matrix instruction leaves. -/

theorem setTile_mq (c : Core) (b : Bool) (x : Tile) : (setTile c b x).mq = c.mq := by cases b <;> rfl

/-- The core whose tile `b` is `x` and whose scratchpad is `m`, the head of the matrix queue taken. -/
def takesTile (c : Core) (b : Bool) (x : Tile) (m : List Host.Cell) (rest : List QInstr) : Core := { setTile c b x with sp := m, mq := rest }

/-- The tile, and nothing else of the core but the queue and the scratchpad. -/
theorem takesTile_changes (c : Core) (b : Bool) (x : Tile) (m : List Host.Cell) (rest : List QInstr) :
    takesTile c b x m rest = { c with mq := rest, sp := m, acc0 := (takesTile c b x m rest).acc0, acc1 := (takesTile c b x m rest).acc1 } := by
  cases b <;> rfl

theorem takesTile_own (c : Core) (b : Bool) (x : Tile) (rest : List QInstr) :
    takesTile c b x c.sp rest =
      { c with mq := rest, acc0 := (takesTile c b x c.sp rest).acc0, acc1 := (takesTile c b x c.sp rest).acc1 } := by
  cases b <;> rfl

@[simp] theorem tile_takesTile_same (c : Core) (b : Bool) (x : Tile) (m : List Host.Cell) (rest : List QInstr) :
    tile (takesTile c b x m rest) b = x := by cases b <;> rfl

@[simp] theorem tile_takesTile_other (c : Core) (b : Bool) (x : Tile) (m : List Host.Cell) (rest : List QInstr) :
    tile (takesTile c b x m rest) (!b) = tile c (!b) := by cases b <;> rfl

@[simp] theorem sp_takesTile (c : Core) (b : Bool) (x : Tile) (m : List Host.Cell) (rest : List QInstr) : (takesTile c b x m rest).sp = m := rfl

theorem popMatrix_setTile {c : Core} {q : QInstr} {rest : List QInstr} (b : Bool) (x : Tile) (hq : c.mq = q :: rest) :
    popMatrix (setTile c b x) = takesTile c b x c.sp rest := by
  rw [popMatrix, setTile_mq, hq]
  cases b <;> rfl

theorem popMatrix_setTile_sp {c : Core} {q : QInstr} {rest : List QInstr} (b : Bool) (x : Tile) (m : List Host.Cell) (hq : c.mq = q :: rest) :
    popMatrix { setTile c b x with sp := m } = takesTile c b x m rest := by
  rw [popMatrix, setTile_mq, hq]
  rfl

/- MATRIX_DISPATCH (R111, R121). -/

/-- Operands that lie in the scratchpad at aligned offsets let an instruction run (R98). -/
theorem checkedOffsets_runs {s : State} {n : Nat} {q : QInstr} (body : State → State) (hin : ∀ r ∈ spReads q ++ spWrites q, r.1 + r.2 ≤ 0x180000)
    (hal : ∀ a ∈ offsetsOf q, a % 64 = 0) : checkedOffsets s n q body = body s := by
  have hrange : allInside (spReads q ++ spWrites q) = true :=
    List.all_eq_true.mpr fun r hr => decide_eq_true (hin r hr)
  have haligned : aligned64 (offsetsOf q) = true := List.all_eq_true.mpr fun a ha => beq_iff_eq.mpr (hal a ha)
  rw [checkedOffsets, hrange, haligned]
  rfl

/-- What MATRIX_DISPATCH runs (R111, R121). -/
def runMatrix (s : State) (n : Nat) (cmd : Cmd) (q : QInstr) (e : EccReport) : State :=
  if opOf q.word = 0xA0 then runMm s n cmd q e
  else if opOf q.word = 0xA4 then runAccRaw s n cmd q e
  else if opOf q.word = 0xA9 then runAccExp s n cmd q
  else runAccWr s n cmd q

/-- MATRIX_DISPATCH waits for an earlier VACC on its tile; else the head of the queue runs, or its tile's error ends the command (R28, R121). -/
theorem matrixDispatch_runs {s : State} {n id : Nat} {cmd : Cmd} {q : QInstr} {rest : List QInstr} (e : Sram)
    (hrun : running s (coreAt s n) = true) (hid : (coreAt s n).cmd = some id) (hc : cmdAt s id = some cmd) (hq : (coreAt s n).mq = q :: rest) :
    ((∃ v ∈ (coreAt s n).vq, vaccOn (fT q.word) v = true ∧ v.order < q.order) → exec (.matrixDispatch n e) s = .next s) ∧
    ((∀ v ∈ (coreAt s n).vq, vaccOn (fT q.word) v = true → q.order ≤ v.order) →
      exec (.matrixDispatch n e) s = .next (if e.acc = .uncorrected then accFault s n q else runMatrix s n cmd q e.sp)) := by
  have hcmd : coreCmd s (coreAt s n) = some cmd := by rw [coreCmd, hid]; exact hc
  have hx : exec (.matrixDispatch n e) s =
      if (coreAt s n).vq.any (fun v => vaccOn (fT q.word) v && decide (v.order < q.order)) then .next s
      else if e.acc = .uncorrected then .next (accFault s n q) else .next (runMatrix s n cmd q e.sp) := by
    show execMatrixDispatch n e s = _
    simp only [execMatrixDispatch, hcmd, hq, hrun, Bool.not_true, Bool.false_eq_true, if_false]
    rfl
  refine ⟨fun ⟨v, hv, ht, hlt⟩ => hx.trans (if_pos ?_), fun hall => (hx.trans (if_neg ?_)).trans (apply_ite _ _ _ _).symm⟩
  · exact List.any_eq_true.mpr ⟨v, hv, by simp [ht, hlt]⟩
  · rw [List.any_eq_true]
    rintro ⟨v, hv, hp⟩
    simp only [Bool.and_eq_true, decide_eq_true_eq] at hp
    exact absurd (hall v hv hp.1) (by omega)

/-- The tile with the wide partials at `x` added to the elements `ks` (R106). -/
def rawTile (sp : List Host.Cell) (x : Nat) (ks : List Nat) (t : Tile) : Tile :=
  { t with elems := (updElems (fun k e => (addWide e (BitVec.ofNat 128 (leNat (mread sp (x + 16 * k) 16))), false, false)) t.elems ks).1 }

theorem rawTile_changes (sp : List Host.Cell) (x : Nat) (ks : List Nat) (t : Tile) : rawTile sp x ks t = { t with elems := (rawTile sp x ks t).elems } := rfl

theorem rawTile_reads (sp : List Host.Cell) (x : Nat) {t : Tile} {ks : List Nat} (ht : Rising t.elems) (hks : ks.Pairwise (· < ·)) {k : Nat}
    (hk : k ∈ ks) : tget {} (rawTile sp x ks t).elems k = addWide (tget {} t.elems k) (BitVec.ofNat 128 (leNat (mread sp (x + 16 * k) 16))) := by
  rw [rawTile]
  dsimp only
  rw [updElems_reads _ ht hks, if_pos hk]

section runs
variable {s : State} {n : Nat} {cmd : Cmd} {q : QInstr} {rest : List QInstr} (hq : (coreAt s n).mq = q :: rest)
  (hin : ∀ r ∈ spReads q ++ spWrites q, r.1 + r.2 ≤ 0x180000) (hal : ∀ a ∈ offsetsOf q, a % 64 = 0)
include hq hin hal

/-- An MM of a legal form adds its panels' products to its tile (R105, R110). -/
theorem runMm_adds (hinj : NoSpInjection s n)
    (hscaled : cmd.legacy = false → (tile (coreAt s n) (fT q.word)).mode = 2 → is16 (fFA q.word) = false ∧ is16 (fFB q.word) = false)
    (hsparse : fSP q.word = true → ∀ b l, b < fKB q.word + 1 → l < 128 →
      metaOk (sparseMeta (coreAt s n).sp (fFB q.word) (spOperand q.y + b * blockBytes (fFB q.word) true) l) = true) :
    let c := coreAt s n
    let nb := fKB q.word + 1
    runMm s n cmd q .clean = setCore s n (takesTile c (fT q.word) (mmTile cmd.legacy (tile c (fT q.word))
      (panel c.sp (fFA q.word) (spOperand q.x) (spOperand q.z) (fSCA q.word) false nb)
      (panel c.sp (fFB q.word) (spOperand q.y) (spOperand q.u) (fSCB q.word) (fSP q.word) nb)) c.sp rest) := by
  intro c nb
  have hform : (!cmd.legacy && (tile (coreAt s n) (fT q.word)).mode == 2 && (is16 (fFA q.word) || is16 (fFB q.word))) = false := by
    cases hl : cmd.legacy
    · by_cases hm : (tile (coreAt s n) (fT q.word)).mode = 2
      · obtain ⟨h1, h2⟩ := hscaled hl hm
        rw [h1, h2, Bool.or_self, Bool.and_false]
      · rw [beq_false_of_ne hm, Bool.and_false, Bool.false_and]
    · rfl
  have hmeta : (fSP q.word && !((List.range (fKB q.word + 1)).all (fun b => (List.range 128).all (fun l =>
      metaOk (sparseMeta (coreAt s n).sp (fFB q.word) (spOperand q.y + b * blockBytes (fFB q.word) true) l))))) = false := by
    cases hsp : fSP q.word
    · rfl
    · rw [Bool.true_and, Bool.not_eq_false']
      exact List.all_eq_true.mpr fun b hb => List.all_eq_true.mpr fun l hl => hsparse hsp b l (List.mem_range.mp hb) (List.mem_range.mp hl)
  rw [runMm]
  simp only [hform, Bool.false_eq_true, if_false]
  rw [checkedOffsets_runs _ hin hal, spRead_clean hinj]
  simp only [Bool.not_true, Bool.false_eq_true, if_false, hmeta]
  rw [popMatrix_setTile _ _ hq]

/-- An ACC.RAW adds its wide partials (R61, R106). -/
theorem runAccRaw_adds (hinj : NoSpInjection s n) (hl : cmd.legacy = false) : runAccRaw s n cmd q .clean = setCore s n
    (takesTile (coreAt s n) (fT q.word) (rawTile (coreAt s n).sp (spOperand q.x) (List.range 16384) (tile (coreAt s n) (fT q.word))) (coreAt s n).sp rest) := by
  rw [runAccRaw]
  simp only [hl, Bool.false_eq_true, if_false]
  rw [checkedOffsets_runs _ hin hal, spRead_clean hinj]
  simp only [Bool.not_true, Bool.false_eq_true, if_false]
  rw [popMatrix_setTile _ _ hq]
  rfl

/-- An ACC.EXP stores its tile's elements (R106). -/
theorem runAccExp_stores (hl : cmd.legacy = false) :
    let t := tile (coreAt s n) (fT q.word)
    runAccExp s n cmd q = setCore s n (takesTile (coreAt s n) (fT q.word) { t with high := t.high || t.elems.any (fun p => elemHigh p.2) }
      (mwrite (coreAt s n).sp (spOperand q.x) (wideBytes t)) rest) := by
  intro t
  rw [runAccExp]
  simp only [hl, Bool.false_eq_true, if_false]
  rw [checkedOffsets_runs _ hin hal, popMatrix_setTile_sp _ _ _ hq]
  rfl

/-- The scratchpad an ACC.WR leaves (R107, R108). -/
def writtenOut (legacy : Bool) (t : Tile) (q : QInstr) (sp : List Host.Cell) : List Host.Cell :=
  let m := if fLAY q.word = 0 then storeRows legacy t q.word (spOperand q.x) (spOperand q.y) sp else storeBlocked legacy t q.word (spOperand q.x) sp
  if scaledOut q.word then storeScales legacy t q.word (spOperand q.z) m else m

/-- An ACC.WR of a legal pitch stores its elements' codes (R107, R108). -/
theorem runAccWr_stores (hpitch : fLAY q.word = 0 → spOperand q.y % 64 = 0 ∧ roundUp (rowBytes q.word) 64 ≤ spOperand q.y) :
    let t := tile (coreAt s n) (fT q.word)
    runAccWr s n cmd q = setCore s n (takesTile (coreAt s n) (fT q.word) { t with high := t.high || (!cmd.legacy && wrHigh t q.word) }
      (writtenOut cmd.legacy t q (coreAt s n).sp) rest) := by
  intro t
  have hform : ¬ ((decide (fLAY q.word = 0) && (spOperand q.y % 64 != 0 || decide (spOperand q.y < roundUp (rowBytes q.word) 64))) = true) := by
    simp only [Bool.and_eq_true, Bool.or_eq_true, decide_eq_true_eq, bne_iff_ne]
    rintro ⟨h0, h | h⟩
    · exact h (hpitch h0).1
    · exact absurd (hpitch h0).2 (by omega)
  rw [runAccWr]
  simp only [if_neg hform]
  rw [checkedOffsets_runs _ hin hal, popMatrix_setTile_sp _ _ _ hq]
  rfl

end runs

/- The bytes of ACC.WR (R107, R108). -/

theorem nbits_lt (n hi lo : Nat) : nbits n hi lo < 2 ^ (hi + 1 - lo) := Nat.mod_lt _ (Nat.two_pow_pos _)

theorem fNR_lt (w : Word) : fNR w < 128 := nbits_lt ..
theorem fNC_lt (w : Word) : fNC w < 128 := nbits_lt ..

theorem outBits_even (fo : Nat) : outBits fo = 4 ∧ fo = 5 ∨ outBits fo % 8 = 0 := by
  unfold outBits
  grind

/-- The last code of a row of 4-bit codes keeps the byte's upper half (log entry 88). -/
def rowRest (w : Word) (x pitch : Nat) (m : List Host.Cell) (i : Nat) : List Nat :=
  if outBits (fFO w) = 4 && (fNC w + 1) % 2 = 1 then [(mget m (x + i * pitch + (fNC w + 1) / 2)).toNat / 16] else []

theorem storeRows_each (legacy : Bool) (t : Tile) (w : Word) (x pitch : Nat) (m : List Host.Cell) :
    storeRows legacy t w x pitch m = storeEach (fun i => x + i * pitch) (fun m i => packCodes (outBits (fFO w))
      ((List.range (fNC w + 1)).map (wrCode legacy t w i) ++ rowRest w x pitch m i)) (List.range (fNR w + 1)) m := rfl

/-- The codes of a row fill its bytes, whether or not a half byte is left over. -/
theorem length_rowCodes (legacy : Bool) (t : Tile) (w : Word) (x pitch : Nat) (m : List Host.Cell) (i : Nat) :
    (packCodes (outBits (fFO w)) ((List.range (fNC w + 1)).map (wrCode legacy t w i) ++ rowRest w x pitch m i)).length = rowBytes w := by
  rw [length_packCodes, List.length_append, List.length_map, List.length_range, rowBytes, rowRest]
  rcases outBits_even (fFO w) with ⟨h, -⟩ | h
  · by_cases hodd : (fNC w + 1) % 2 = 1
    · simp only [h, hodd, decide_true, Bool.and_self, if_true, List.length_singleton]
      omega
    · simp only [h, hodd, decide_false, Bool.and_false, Bool.false_eq_true, if_false, List.length_nil]
      omega
  · rw [if_neg (by simp only [Bool.and_eq_true, decide_eq_true_eq]; rintro ⟨h4, -⟩; rw [h4] at h; omega), List.length_nil, Nat.add_zero, Nat.mul_comm]

/-- Outside its rows ACC.WR leaves the scratchpad as it was. -/
theorem mget_storeRows_other (legacy : Bool) (t : Tile) {w : Word} {x pitch a : Nat} (m : List Host.Cell)
    (h : ¬ ∃ i, i ≤ fNR w ∧ x + i * pitch ≤ a ∧ a < x + i * pitch + rowBytes w) : mget (storeRows legacy t w x pitch m) a = mget m a := by
  rw [storeRows_each]
  refine mget_storeEach_other m fun i hi m => ?_
  rw [length_rowCodes]
  by_contra hc
  exact h ⟨i, Nat.le_of_lt_succ (List.mem_range.mp hi), by omega, by omega⟩

/-- An unscaled row holds the codes of its elements. -/
theorem mread_storeRows (legacy : Bool) (t : Tile) {w : Word} {x pitch i : Nat} {m : List Host.Cell} (hm : Memory.wf m = true)
    (hs : scaledOut w = false) (hpitch : rowBytes w ≤ pitch) (hi : i ≤ fNR w) :
    mread (storeRows legacy t w x pitch m) (x + i * pitch) (rowBytes w) =
      packCodes (outBits (fFO w)) ((List.range (fNC w + 1)).map (fun j => outCode (fFO w) (outVal legacy t i j))) := by
  have hfo : fFO w ≠ 5 := fun h => by rw [scaledOut, h] at hs; exact absurd hs (by decide)
  have hbits : outBits (fFO w) ≠ 4 := fun h => by
    rcases outBits_even (fFO w) with ⟨-, h5⟩ | h8
    · exact hfo h5
    · omega
  have hrest (m : List Host.Cell) (k : Nat) : rowRest w x pitch m k = [] := by rw [rowRest, decide_eq_false hbits]; rfl
  have hcode (k : Nat) : wrCode legacy t w k = fun j => outCode (fFO w) (outVal legacy t k j) := by
    funext j
    rw [wrCode, hs]
    rfl
  have hrow := mread_storeEach (base := x) (bytes := fun i => packCodes (outBits (fFO w)) ((List.range (fNC w + 1)).map (wrCode legacy t w i)))
    (fun k => by rw [← length_rowCodes legacy t w x pitch m k, hrest, List.append_nil]) hpitch hm (Nat.lt_succ_of_le hi)
  simp only [hcode] at hrow
  rw [storeRows_each]
  simp only [hrest, List.append_nil, hcode]
  exact hrow

theorem mget_storeBlocked_other (legacy : Bool) (t : Tile) {w : Word} {x a : Nat} (m : List Host.Cell)
    (h : ¬ (x ≤ a ∧ a < x + 2048 * outBits (fFO w))) : mget (storeBlocked legacy t w x m) a = mget m a := by
  rw [storeBlocked]
  refine mget_mwrite_other _ _ _ ?_
  have hlane (b l : Nat) : (packCodes (outBits (fFO w)) ((List.range 32).map (fun e =>
      if fLAY w = 1 then wrCode legacy t w l (32 * b + e) else wrCode legacy t w (32 * b + e) l))).length = 4 * outBits (fFO w) := by
    rw [length_packCodes, List.length_map, List.length_range]
    omega
  rw [length_flatMap_rows (fun b => length_flatMap_rows (hlane b) _), List.length_range, List.length_range]
  omega

/-- The scale codes of group `g` (R59, R108). -/
def groupCodes (legacy : Bool) (t : Tile) (w : Word) (g : Nat) : List Byte :=
  (List.range (if alongRow w then fNR w + 1 else fNC w + 1)).map (fun l => BitVec.ofNat 8 (scaleCode (groupScale (fFO w)
    (groupOf legacy t (alongRow w) (if alongRow w then l else 32 * g) (if alongRow w then 32 * g else l)))))

theorem length_groupCodes (legacy : Bool) (t : Tile) (w : Word) (g : Nat) :
    (groupCodes legacy t w g).length = if alongRow w then fNR w + 1 else fNC w + 1 := by rw [groupCodes, List.length_map, List.length_range]

theorem storeScales_each (legacy : Bool) (t : Tile) (w : Word) (z : Nat) (m : List Host.Cell) :
    storeScales legacy t w z m = storeEach (fun g => z + g * 128) (fun _ g => groupCodes legacy t w g)
      (List.range ((if alongRow w then fNC w + 1 else fNR w + 1) / 32)) m := by
  have haddr : (fun g => z + g * 128) = fun g => z + 128 * g := funext fun g => by rw [Nat.mul_comm]
  rw [haddr]
  rfl

theorem mget_storeScales_other (legacy : Bool) (t : Tile) {w : Word} {z a : Nat} (m : List Host.Cell)
    (h : ¬ ∃ g l, g < (if alongRow w then fNC w + 1 else fNR w + 1) / 32 ∧ l < (if alongRow w then fNR w + 1 else fNC w + 1) ∧ a = z + 128 * g + l) :
    mget (storeScales legacy t w z m) a = mget m a := by
  rw [storeScales_each]
  refine mget_storeEach_other m fun g hg m => ?_
  rw [length_groupCodes]
  by_contra hc
  exact h ⟨g, a - (z + 128 * g), List.mem_range.mp hg, by omega, by omega⟩

/-- Each group's scale codes stand at its 128 bytes. -/
theorem mget_storeScales (legacy : Bool) (t : Tile) {w : Word} {z g l : Nat} {m : List Host.Cell} (hm : Memory.wf m = true)
    (hg : g < (if alongRow w then fNC w + 1 else fNR w + 1) / 32) (hl : l < if alongRow w then fNR w + 1 else fNC w + 1) :
    mget (storeScales legacy t w z m) (z + 128 * g + l) = BitVec.ofNat 8 (scaleCode (groupScale (fFO w)
      (groupOf legacy t (alongRow w) (if alongRow w then l else 32 * g) (if alongRow w then 32 * g else l)))) := by
  have hlen : (if alongRow w then fNR w + 1 else fNC w + 1) ≤ 128 := by
    have h1 := fNR_lt w
    have h2 := fNC_lt w
    split <;> omega
  have hrow := mread_storeEach (base := z) (length_groupCodes legacy t w) hlen hm hg
  rw [← storeScales_each, Nat.mul_comm g] at hrow
  have hcell := congrArg (fun b => b[l]?) hrow
  simp only [getElem?_mread _ _ hl] at hcell
  rw [groupCodes, List.getElem?_map, List.getElem?_range hl] at hcell
  exact Option.some.inj hcell

theorem wf_storeRows (legacy : Bool) (t : Tile) (w : Word) (x pitch : Nat) {m : List Host.Cell} (h : Memory.wf m = true) :
    Memory.wf (storeRows legacy t w x pitch m) = true := by
  rw [storeRows_each]
  exact wf_storeEach _ _ _ h

theorem wf_storeBlocked (legacy : Bool) (t : Tile) (w : Word) (x : Nat) {m : List Host.Cell} (h : Memory.wf m = true) :
    Memory.wf (storeBlocked legacy t w x m) = true := wf_mwrite _ _ h

theorem le_roundUp (n : Nat) {m : Nat} (hm : 0 < m) : n ≤ roundUp n m := by
  rw [roundUp]
  have := Nat.div_add_mod (n + (m - 1)) m
  have := Nat.mod_lt (n + (m - 1)) hm
  rw [Nat.mul_comm]
  omega

section writtenOut
variable (legacy : Bool) (t : Tile) {q : QInstr} {m : List Host.Cell}

/-- The scratchpad of ACC.WR before its scale codes. -/
def codesOut (legacy : Bool) (t : Tile) (q : QInstr) (sp : List Host.Cell) : List Host.Cell :=
  if fLAY q.word = 0 then storeRows legacy t q.word (spOperand q.x) (spOperand q.y) sp else storeBlocked legacy t q.word (spOperand q.x) sp

theorem writtenOut_eq (m : List Host.Cell) : writtenOut legacy t q m =
    if scaledOut q.word then storeScales legacy t q.word (spOperand q.z) (codesOut legacy t q m) else codesOut legacy t q m := rfl

theorem wf_codesOut (h : Memory.wf m = true) : Memory.wf (codesOut legacy t q m) = true := by
  unfold codesOut
  split
  · exact wf_storeRows _ _ _ _ _ h
  · exact wf_storeBlocked _ _ _ _ h

theorem mget_codesOut_other {a : Nat} (m : List Host.Cell)
    (hrows : fLAY q.word = 0 → ¬ ∃ i, i ≤ fNR q.word ∧ spOperand q.x + i * spOperand q.y ≤ a ∧ a < spOperand q.x + i * spOperand q.y + rowBytes q.word)
    (hblock : fLAY q.word ≠ 0 → ¬ (spOperand q.x ≤ a ∧ a < spOperand q.x + 2048 * outBits (fFO q.word))) :
    mget (codesOut legacy t q m) a = mget m a := by
  unfold codesOut
  split
  · next h => exact mget_storeRows_other _ _ _ (hrows h)
  · next h => exact mget_storeBlocked_other _ _ _ (hblock h)

end writtenOut

/-- Settles O16: the head of the matrix queue acts on its tile or stores it, element by element, and leaves the rest. -/
theorem matrixDispatchRunsMm : Obligations.MatrixDispatchRunsMm := by
  intro s n id cmd q rest e c w nb old x y z hrun hid hc hq
  obtain ⟨hwait, hruns⟩ := matrixDispatch_runs e hrun hid hc hq
  refine ⟨hwait, fun hall he => (hruns hall).trans (next_congr (if_pos he)), fun hall hne hinj hsp hin hal => ?_⟩
  have hx : exec (.matrixDispatch n e) s = .next (runMatrix s n cmd q .clean) := by
    rw [← hsp]
    exact (hruns hall).trans (next_congr (if_neg hne))
  refine ⟨fun hop hscaled hsparse => ?mm, fun hop hl => ?raw, fun hop hl => ?exp, fun hop hpitch => ?wr⟩
  case mm =>
    intro pa pb
    have hrun : runMatrix s n cmd q .clean = _ := (if_pos hop).trans (runMm_adds hq hin hal hinj hscaled hsparse)
    refine ⟨_, hx.trans (next_congr hrun), onlyCore_setCore .., ?_⟩
    rw [coreAt_setCore_same]
    exact ⟨tile_takesTile_same .., takesTile_own .., tile_takesTile_other ..⟩
  case raw =>
    have hrun : runMatrix s n cmd q .clean = _ :=
      (if_neg (by rw [hop]; decide)).trans ((if_pos hop).trans (runAccRaw_adds hq hin hal hinj hl))
    refine ⟨_, hx.trans (next_congr hrun), onlyCore_setCore .., ?_⟩
    rw [coreAt_setCore_same, tile_takesTile_same]
    refine ⟨takesTile_own .., tile_takesTile_other .., rawTile_changes .., fun ht k hk => ?_⟩
    exact rawTile_reads _ _ ht (pairwise_range _) (List.mem_range.mpr hk)
  case exp =>
    have hrun : runMatrix s n cmd q .clean = _ :=
      (if_neg (by rw [hop]; decide)).trans ((if_neg (by rw [hop]; decide)).trans ((if_pos hop).trans (runAccExp_stores hq hin hal hl)))
    refine ⟨_, hx.trans (next_congr hrun), onlyCore_setCore .., ?_⟩
    rw [coreAt_setCore_same, sp_takesTile]
    refine ⟨takesTile_changes .., tile_takesTile_other .., tile_takesTile_same .., fun a ha => mget_mwrite_other _ _ _ ?_, fun hwf k hk => ?_⟩
    · rw [length_wideBytes]
      omega
    · rw [mread_mwrite_part _ _ _ _ hwf (by rw [length_wideBytes]; omega), wideBytes_element _ hk, leNat_leBytes]
      exact Nat.mod_eq_of_lt (BitVec.isLt _)
  case wr =>
    intro lanes groups stored
    have hrun : runMatrix s n cmd q .clean = _ :=
      (if_neg (by rw [hop]; decide)).trans ((if_neg (by rw [hop]; decide)).trans ((if_neg (by rw [hop]; decide)).trans (runAccWr_stores hq hin hal hpitch)))
    refine ⟨_, hx.trans (next_congr hrun), onlyCore_setCore .., ?_⟩
    rw [coreAt_setCore_same, sp_takesTile]
    refine ⟨takesTile_changes .., tile_takesTile_other .., tile_takesTile_same .., fun a ha => ?_, fun hwf => ⟨fun h0 hs i hi => ?_, fun hs g l hg hl => ?_⟩⟩
    · have hcodes := mget_codesOut_other cmd.legacy old c.sp (fun h0 h => ha (.inl ⟨h0, h⟩)) fun h0 h => ha (.inr (.inl ⟨h0, h⟩))
      rw [writtenOut_eq]
      split
      · next hs =>
        rw [mget_storeScales_other _ _ _ fun ⟨g, l, hg, hl, heq⟩ => ha (.inr (.inr ⟨hs, g, l, hg, hl, heq⟩))]
        exact hcodes
      · exact hcodes
    · rw [writtenOut_eq, if_neg (by rw [hs]; decide), codesOut, if_pos h0]
      exact mread_storeRows _ _ hwf hs ((le_roundUp _ (by decide)).trans (hpitch h0).2) hi
    · rw [writtenOut_eq, if_pos hs]
      exact mget_storeScales _ _ (wf_codesOut _ _ hwf) hg hl

end Sys2Proof.Machine
end
section
/-! PROOFS. TEARDOWN beside a composition command (R149, R202, R213). -/

namespace Sys2Proof.Machine

/-- An UNBIND with ALL = 1 of colony 2. -/
def unbindAll : Cmd := { page := 0, ring := 0, pkt := 0x51 :: zeros 15 ++ [2, 1] ++ zeros 46, colony := 0 }

/-- A colony without units, and a REBIND of it in progress that the table holds under the number of the UNBIND. -/
def unbindBeside : State :=
  { boot := servingBoot, cols := [(2, { st := .active, cur := { valid := true } })]
    cmds := [(0, unbindAll), (0, { unbindAll with phase := .started, stage := 1, pkt := 0x52 :: zeros 15 ++ [2, 1] ++ zeros 46 })] }

set_option maxRecDepth 4000 in
/-- Refutes O48: the statement excludes other composition commands by their number only; a second entry under the number of the UNBIND
itself, a REBIND of the colony, is ended by the teardown, which gives the UNBIND the status 0x0E. -/
theorem not_coloniesRecompose : ¬ Obligations.ColoniesRecompose := by
  intro h
  obtain ⟨hstart, -⟩ := h unbindBeside (by decide) (by unfold NoTeardown; decide)
  obtain ⟨-, -, hteardown⟩ := hstart 0 unbindAll (by decide) (by decide) (by decide) (by decide)
  have halone : Alone unbindBeside 0 unbindAll := by unfold Alone; decide
  obtain ⟨t, k, hx, -, -, hk, -, hstatus, -⟩ := hteardown _ rfl (by decide) (by decide) halone (by decide)
    (by decide) (by decide) (by decide) (by decide) (by decide) (by decide) (by decide) (by decide) (by decide) (by decide) (by decide) (by decide)
  have ends : exec (.teardown 0) unbindBeside = .next t → (cmdAt t 0).map (fun k => k.status) = some 0x0E := by
    intro e
    cases e
    decide
  rw [hk, Option.map_some, hstatus] at ends
  exact absurd (ends hx) (by decide)

end Sys2Proof.Machine
end
section
/-! PROOFS. The management port (R376, R388, R405, R486 to R492). -/

namespace Sys2Proof.Machine

/- Events and signatures of the device (R339, R384). -/

/-- An event takes a number, and may leave as a record and an interrupt (R339). -/
theorem zltEvent_eq (s : State) (event n detail : Nat) : ∃ z p l,
    zltEvent s event n detail = { s with zlt := z, pcie := p, out := s.out ++ l } ∧ z.evSeq = (s.zlt.evSeq + 1) % 2 ^ 32 := by
  unfold zltEvent
  dsimp only
  split
  · exact ⟨_, s.pcie, [], by rw [List.append_nil], rfl⟩
  · split
    · exact ⟨_, s.pcie, [], by rw [List.append_nil], rfl⟩
    · obtain ⟨l, p, h⟩ := raiseMsix_eq { emit s (.hostWrite .pf (s.zlt.evBase * 4096 + 32 * s.zlt.evTail) (eventBytes s.zlt (portAt s n) event n detail)) with
        zlt := { s.zlt with evSeq := wrapAdd 32 s.zlt.evSeq 1, evTail := (s.zlt.evTail + 1) % 2 ^ s.zlt.evLog2n
                            evPhase := if s.zlt.evTail + 1 = 2 ^ s.zlt.evLog2n then !s.zlt.evPhase else s.zlt.evPhase } } .pf s.zlt.evVec
      rw [h]
      exact ⟨_, p, _ :: l, by rw [List.append_cons]; rfl, rfl⟩

/-- The device's security state once a signature is drawn (R379, R384). -/
def Security.signed (z : Security) : Security :=
  if z.lmsLeft = 0 then z
  else { z with lmsLeft := z.lmsLeft - 1, lmsSigned := wrapAdd 32 z.lmsSigned 1, lmsSpent := z.lmsSpent || z.lmsLeft - 1 == 0 }

theorem lmsLeft_signed (z : Security) : z.signed.lmsLeft = z.lmsLeft - 1 := by
  unfold Security.signed
  split
  · omega
  · rfl

theorem lmsSigned_signed (z : Security) : z.signed.lmsSigned = if z.lmsLeft = 0 then z.lmsSigned else (z.lmsSigned + 1) % 2 ^ 32 := by
  unfold Security.signed
  split <;> rfl

theorem signDevice_eq (s : State) : ∃ z p l, (signDevice s).1 = { s with sec := s.sec.signed, zlt := z, pcie := p, out := s.out ++ l } ∧
    (signDevice s).2 = decide (s.sec.lmsLeft ≠ 0) ∧ (s.sec.lmsLeft ≠ 1 → l = []) := by
  unfold signDevice Security.signed
  by_cases h0 : s.sec.lmsLeft = 0
  · simp only [if_pos h0]
    exact ⟨s.zlt, s.pcie, [], by rw [List.append_nil], by simp [h0], fun _ => rfl⟩
  · simp only [if_neg h0]
    have hsome : decide (s.sec.lmsLeft ≠ 0) = true := decide_eq_true h0
    rw [hsome]
    by_cases h1 : s.sec.lmsLeft - 1 = 0
    · simp only [if_pos h1]
      obtain ⟨z, p, l, h, -⟩ := zltEvent_eq { s with sec := { s.sec with lmsLeft := s.sec.lmsLeft - 1, lmsSigned := wrapAdd 32 s.sec.lmsSigned 1, lmsSpent := s.sec.lmsSpent || s.sec.lmsLeft - 1 == 0 } } 9 0 0
      exact ⟨z, p, l, h, trivial, fun hne => absurd (by omega) hne⟩
    · simp only [if_neg h1]
      exact ⟨s.zlt, s.pcie, [], by rw [List.append_nil], trivial, fun _ => rfl⟩

theorem length_signatureBlock (hss : Bool) (body : List Byte) : (signatureBlock hss body).length = if hss then 3384 else 100 := by
  cases hss <;> simp only [signatureBlock, List.length_append, leBytes_length, zeros, List.length_replicate, if_true, Bool.false_eq_true, if_false, List.length_nil]

/-- An attestation spends one signature, and its bytes are the evidence and its signature block (R390). -/
theorem attestation_eq (s : State) (scope colony : Nat) (nonce : List Byte) : ∃ z p l,
    (attestation s scope colony nonce).1 = { s with sec := s.sec.signed, zlt := z, pcie := p, out := s.out ++ l } ∧ (s.sec.lmsLeft ≠ 1 → l = []) ∧
    (attestation s scope colony nonce).2 = evidence (attestation s scope colony nonce).1 scope colony nonce (decide (s.sec.lmsLeft ≠ 0)) ++
      signatureBlock (decide (s.sec.lmsLeft ≠ 0)) (evidence (attestation s scope colony nonce).1 scope colony nonce (decide (s.sec.lmsLeft ≠ 0))) ∧
    (attestation s scope colony nonce).2.length = if s.sec.lmsLeft = 0 then 612 else 3896 := by
  obtain ⟨z, p, l, hs, hhss, hl⟩ := signDevice_eq s
  have hbytes : (attestation s scope colony nonce).2 = evidence (signDevice s).1 scope colony nonce (signDevice s).2 ++
      signatureBlock (signDevice s).2 (evidence (signDevice s).1 scope colony nonce (signDevice s).2) := rfl
  have hstate : (attestation s scope colony nonce).1 = (signDevice s).1 := rfl
  refine ⟨z, p, l, hstate.trans hs, hl, by rw [hbytes, hhss, hstate], ?_⟩
  rw [hbytes, List.length_append, length_signatureBlock, hhss]
  have hev (t : State) (b : Bool) : (evidence t scope colony nonce b).length = 512 := length_padTo ..
  rw [hev]
  by_cases h0 : s.sec.lmsLeft = 0 <;> simp [h0]

/- Sessions (R487, R488). -/

theorem id_of_findSession {s : State} {n : Nat} {x : Session} (h : findSession s n = some x) : x.id = n :=
  beq_iff_eq.mp (List.find?_some h :)

theorem findSession_setSession {s : State} {n : Nat} {x y : Session} (hx : findSession s n = some x) (hy : y.id = n) :
    findSession (setSession s y) n = some y := by
  have hsame : ((fun z : Session => z.id == n) ∘ fun z => if z.id = y.id then y else z) = fun z => z.id == n := by
    funext z
    simp only [Function.comp]
    split
    · next h => rw [h]
    · rfl
  show List.find? _ (s.mgt.sessions.map _) = _
  rw [List.find?_map, hsame]
  show Option.map _ (findSession s n) = _
  rw [hx, Option.map_some, if_pos ((id_of_findSession hx).trans hy.symm)]

/-- The session has answered: the response has left sealed, and it is kept (R487). -/
def Answers (s t : State) (x : Session) (h : MgmtHeader) (ty status : Nat) (body : List Byte) : Prop :=
  (∃ ev, t.out = ev ++ [.mgmt h.session h.req status body (mgDatagrams (some x.txKey) ty h.session x.txSeq h.req status body)] ∧ s.out <+: ev) ∧
  ∃ y, findSession t h.session = some y ∧ y.cache = ((h.req, ty, status, body) :: x.cache).take 16

/-- The sessions and what leaves the device are all that differs. -/
def OnlyReply (u t : State) : Prop := ∃ ss l, t = { u with mgt := { u.mgt with sessions := ss }, out := l }

/-- A response within a session (R487). -/
theorem sessionReply_answers {s u : State} {x z : Session} {h : MgmtHeader} (hz : findSession u h.session = some z) (hkey : z.txKey = x.txKey)
    (hseq : z.txSeq = x.txSeq) (hcache : z.cache = x.cache) (hout : s.out <+: u.out) (ty status : Nat) (body : List Byte) :
    let t := sessionReply u h.session ty h.req status body
    Answers s t x h ty status body ∧ OnlyReply u t ∧ ∃ y, findSession t h.session = some y ∧ y.pushes = z.pushes := by
  intro t
  have hid := id_of_findSession hz
  have ht : t = sealedReply u { z with cache := ((h.req, ty, status, body) :: z.cache).take 16 } ty h.req status body := by
    show sessionReply u h.session ty h.req status body = _
    rw [sessionReply, hz]
  have hfind := findSession_setSession (y := { z with
    cache := ((h.req, ty, status, body) :: z.cache).take 16
    txSeq := z.txSeq + (mgDatagrams (some z.txKey) ty z.id z.txSeq h.req status body).length }) hz hid
  rw [ht]
  refine ⟨⟨⟨u.out, ?_, hout⟩, ⟨_, hfind, by rw [← hcache]⟩⟩, ⟨_, _, rfl⟩, ⟨_, hfind, rfl⟩⟩
  rw [← hkey, ← hseq, ← hid]
  rfl

/-- The state in which a new sealed message is served: its SEQ is taken (R488). -/
def servedFrom (s : State) (x : Session) (h : MgmtHeader) : State := setSession s (acceptSeq x h.seq)

theorem findSession_servedFrom {s : State} {x : Session} {h : MgmtHeader} (hx : findSession s h.session = some x) :
    findSession (servedFrom s x h) h.session = some (acceptSeq x h.seq) := findSession_setSession hx (id_of_findSession (x := x) hx)

/-- What a message does that leaves the sessions alone. -/
theorem sessions_stand {s u : State} {x : Session} {h : MgmtHeader} (hx : findSession s h.session = some x)
    (hu : u.mgt.sessions = (servedFrom s x h).mgt.sessions) : findSession u h.session = some (acceptSeq x h.seq) := by
  rw [findSession, hu]
  exact findSession_servedFrom hx

/-- A new sealed message of a live session is served and answered (R487, R488). -/
structure NewMessage (s : State) (x : Session) (h : MgmtHeader) : Prop where
  up : mgmtUp s = true
  session : findSession s h.session = some x
  live : x.live = true
  seq : seqOk x h = true
  new : x.cache.find? (fun e => e.1 == h.req) = none

theorem inSession_serves {s : State} {x : Session} {h : MgmtHeader} (hm : NewMessage s x h) {ty : Nat} {act : State → Served} {u : State} {status : Nat}
    {body : List Byte} (ha : act (servedFrom s x h) = (u, status, body)) : inSession s ty h act = sessionReply u h.session ty h.req status body := by
  have ha : act (setSession s (acceptSeq x h.seq)) = (u, status, body) := ha
  unfold inSession
  simp only [hm.up, hm.session, hm.live, hm.seq, hm.new, Bool.not_true, Bool.or_self, Bool.false_eq_true, if_false, ha, id_of_findSession hm.session]

/-- A row that serves a message in its session (R487). -/
theorem inSession_next {i : Instr} {s : State} {x : Session} {h : MgmtHeader} {ty : Nat} {act : State → Served} {u : State} {status : Nat}
    {body : List Byte} (hx : exec i s = .next (inSession s ty h act)) (hm : NewMessage s x h) (ha : act (servedFrom s x h) = (u, status, body))
    (hu : u.mgt.sessions = (servedFrom s x h).mgt.sessions) (hout : s.out <+: u.out) :
    ∃ t, exec i s = .next t ∧ Answers s t x h ty status body ∧ OnlyReply u t := by
  obtain ⟨hans, honly, -⟩ := sessionReply_answers (x := x) (s := s) (sessions_stand hm.session hu) rfl rfl rfl hout ty status body
  exact ⟨_, hx.trans (next_congr (inSession_serves hm ha)), hans, honly⟩

/-- A sealed message is served while no DEVICE fault is present, the device is not retired, and its state permits it (R489). -/
structure Permits (s : State) (x : Session) (h : MgmtHeader) (permitted : State → Bool) : Prop extends NewMessage s x h where
  sound : s.flt.fatal = false
  inUse : lifecycle s ≠ 4
  permitted : permitted (servedFrom s x h) = true

theorem sealed_serves {s : State} {x : Session} {h : MgmtHeader} {permitted : State → Bool} (hp : Permits s x h permitted) {act : State → Served}
    {u : State} {status : Nat} {body : List Byte} (ha : act (servedFrom s x h) = (u, status, body)) (ty : Nat) :
    sealed s ty h permitted act = sessionReply u h.session ty h.req status body := by
  refine inSession_serves hp.toNewMessage (Eq.trans (if_neg ?_) ha)
  have hf : (servedFrom s x h).flt.fatal = false := hp.sound
  have hl : (lifecycle (servedFrom s x h) == 4) = false := beq_false_of_ne hp.inUse
  rw [hf, hl, hp.permitted]
  decide

theorem sealed_next {i : Instr} {s : State} {x : Session} {h : MgmtHeader} {ty : Nat} {permitted : State → Bool} {act : State → Served} {u : State}
    {status : Nat} {body : List Byte} (hx : exec i s = .next (sealed s ty h permitted act)) (hp : Permits s x h permitted)
    (ha : act (servedFrom s x h) = (u, status, body)) (hu : u.mgt.sessions = (servedFrom s x h).mgt.sessions) (hout : s.out <+: u.out) :
    ∃ t, exec i s = .next t ∧ Answers s t x h ty status body ∧ OnlyReply u t := by
  obtain ⟨hans, honly, -⟩ := sessionReply_answers (x := x) (s := s) (sessions_stand hp.session hu) rfl rfl rfl hout ty status body
  exact ⟨_, hx.trans (next_congr (sealed_serves hp ha ty)), hans, honly⟩

/- The messages (R376, R388, R405, R489 to R492). -/

/-- What a message leaves has all that left the device before it. -/
theorem out_prefix_servedFrom (s : State) (x : Session) (h : MgmtHeader) (l : List Out) : s.out <+: (servedFrom s x h).out ++ l := List.prefix_append ..

/-- A notice to the host (R492). -/
theorem notice_eq (s : State) (kind delay : Nat) : ∃ p l, notice s kind delay =
    { s with mgt := { s.mgt with noticeKind := kind, noticeDelay := delay, nseq := wrapAdd 32 s.mgt.nseq 1 }, pcie := p, out := s.out ++ l } := by
  unfold notice
  dsimp only
  split
  · obtain ⟨l, p, h⟩ := raiseMsix_eq { s with mgt := { s.mgt with noticeKind := kind, noticeDelay := delay, nseq := wrapAdd 32 s.mgt.nseq 1 } } .pf s.mgt.vec
    exact ⟨p, l, h⟩
  · exact ⟨s.pcie, [], by rw [List.append_nil]⟩

theorem notice_leaves (s : State) (kind delay : Nat) :
    (notice s kind delay).mgt.sessions = s.mgt.sessions ∧ s.out <+: (notice s kind delay).out ∧ (notice s kind delay).pwr = s.pwr ∧
      (notice s kind delay).mgt.noticeKind = kind := by
  obtain ⟨p, l, h⟩ := notice_eq s kind delay
  rw [h]
  exact ⟨rfl, List.prefix_append .., rfl, rfl⟩

/-- A delayed action is accepted (R490). -/
theorem schedule_accepts {s : State} {ms : Nat} (a : MgmtAction) (kind : Nat) (hp : s.mgt.pending = none) (hms : ms ≤ 10000) :
    ∃ t, schedule s a kind ms = (t, mgOk, []) ∧ t.mgt.pending = some a ∧ t.mgt.noticeKind = kind ∧ t.mgt.noticeDelay = ms ∧ t.sec = s.sec ∧
      t.mgt.sessions = s.mgt.sessions ∧ s.out <+: t.out := by
  simp only [schedule, hp, Option.isSome_none, Bool.false_eq_true, if_false, if_neg (Nat.not_lt.mpr hms)]
  obtain ⟨p, l, hn⟩ := notice_eq { s with mgt := { s.mgt with pending := some a } } kind ms
  rw [hn]
  exact ⟨_, rfl, rfl, rfl, rfl, rfl, rfl, List.prefix_append ..⟩

/-- A fuse write that reads back, or whose row has a spare, takes (R375). -/
theorem burn_takes {s : State} {ok : Bool} (h : ok = true ∨ 0 < s.sec.spareRows) : ∃ n, burn s ok = ({ s with sec := { s.sec with spareRows := n } }, true) := by
  unfold burn
  split
  · exact ⟨s.sec.spareRows, rfl⟩
  · next hno =>
    rw [if_pos (h.resolve_left hno)]
    exact ⟨_, rfl⟩

/-- The SVN of the image in the fuses, with what is left of the spare rows (R388). -/
def svnAdvanced (s : State) (n : Nat) : State := { s with sec := { s.sec with spareRows := n, fuseSvn := s.sec.imageSvn } }

/-- A session after SUBSCRIBE (R489). -/
def subscribed (x : Session) (h : MgmtHeader) : Session := { acceptSeq x h.seq with pushes := 600 }

section sealed
variable {s : State} {x : Session} {h : MgmtHeader}

theorem faultHistory_answers (hm : NewMessage s x h) (from_ : Nat) {count : Nat} (hl : lifecycle s ≠ 4) (h1 : 1 ≤ count) (h512 : count ≤ 512) :
    ∃ t, exec (.faultHistory h from_ count) s = .next t ∧
      Answers s t x h 0x50 0 ((historyRecs s from_ count).flatMap recBytes ++ historyRows s) ∧ t.flt = s.flt := by
  have hl : lifecycle (servedFrom s x h) ≠ 4 := hl
  obtain ⟨t, hx, hans, ss, l, rfl⟩ := inSession_next (i := .faultHistory h from_ count) rfl hm
    ((if_neg hl).trans (if_neg (by omega))) rfl (List.prefix_refl _)
  exact ⟨_, hx, hans, rfl⟩

theorem getTelemetry_answers (hp : Permits s x h inService) {n : Nat} (h1 : 1 ≤ n) (h60 : n ≤ 60) : ∃ t, exec (.getTelemetry h n) s = .next t ∧
    Answers s t x h 0x41 0 ((s.pwr.telemetry.take n).reverse.flatMap telemetryBytes) ∧ t.pwr = s.pwr := by
  obtain ⟨t, hx, hans, ss, l, rfl⟩ := sealed_next (i := .getTelemetry h n) rfl hp (if_neg (by omega)) rfl (List.prefix_refl _)
  exact ⟨_, hx, hans, rfl⟩

theorem subscribe_answers (hp : Permits s x h inService) : ∃ t y, exec (.subscribe h) s = .next t ∧ Answers s t x h 0x42 0 [] ∧
    findSession t h.session = some y ∧ y.pushes = 600 := by
  have hfind := findSession_servedFrom (h := h) hp.session
  have hz : findSession (setSession (servedFrom s x h) (subscribed x h)) h.session = some (subscribed x h) :=
    findSession_setSession hfind (id_of_findSession hp.session :)
  obtain ⟨hans, -, y, hy, hpush⟩ := sessionReply_answers (s := s) (x := x) hz rfl rfl rfl (List.prefix_refl _) 0x42 mgOk []
  have hx : exec (.subscribe h) s = .next (sessionReply (setSession (servedFrom s x h) (subscribed x h)) h.session 0x42 h.req mgOk []) :=
    next_congr (sealed_serves hp (by simp only [hfind]; rfl) 0x42)
  exact ⟨_, y, hx, hans, hy, hpush⟩

theorem setPowerCap_answers (hp : Permits s x h inService) (cap : Nat) : ∃ t, exec (.setPowerCap h cap) s = .next t ∧
    if cap < 200 ∨ 400 < cap then Answers s t x h 0x40 4 [] ∧ t.pwr = s.pwr
    else Answers s t x h 0x40 0 (leBytes 2 cap) ∧ t.pwr = { s.pwr with cap := cap } ∧ t.mgt.noticeKind = 3 := by
  by_cases hbad : cap < 200 ∨ 400 < cap
  · obtain ⟨t, hx, hans, ss, l, rfl⟩ := sealed_next (i := .setPowerCap h cap) rfl hp (if_pos hbad) rfl (List.prefix_refl _)
    refine ⟨_, hx, ?_⟩
    rw [if_pos hbad]
    exact ⟨hans, rfl⟩
  · obtain ⟨hses, hout, hpwr, hkind⟩ := notice_leaves { servedFrom s x h with pwr := { (servedFrom s x h).pwr with cap := cap } } 3 0
    obtain ⟨t, hx, hans, ss, l, rfl⟩ := sealed_next (i := .setPowerCap h cap) rfl hp (if_neg hbad) hses hout
    refine ⟨_, hx, ?_⟩
    rw [if_neg hbad]
    exact ⟨hans, hpwr, hkind⟩

theorem advanceSvn_answers (hp : Permits s x h inService) {burnOk : Bool} (hlt : s.sec.fuseSvn < s.sec.imageSvn)
    (hb : burnOk = true ∨ 0 < s.sec.spareRows) : ∃ t, exec (.advanceSvn h burnOk) s = .next t ∧ Answers s t x h 0x24 0 (leBytes 1 s.sec.imageSvn) ∧
      t.sec.fuseSvn = s.sec.imageSvn := by
  obtain ⟨n, hburn⟩ := burn_takes (s := servedFrom s x h) hb
  have hlt : ¬ (servedFrom s x h).sec.imageSvn ≤ (servedFrom s x h).sec.fuseSvn := Nat.not_le.mpr hlt
  obtain ⟨t, hx, hans, ss, l, rfl⟩ := sealed_next (i := .advanceSvn h burnOk) (u := svnAdvanced (servedFrom s x h) n) rfl hp
    ((if_neg hlt).trans (by rw [hburn]; rfl)) rfl (List.prefix_refl _)
  exact ⟨_, hx, hans, rfl⟩

theorem mgmtAttest_answers (hp : Permits s x h (fun t => lifecycle t == 2 || lifecycle t == 3)) (nonce : Nat) (htree : treeReady s = true) :
    ∃ t body, exec (.mgmtAttest h nonce) s = .next t ∧ Answers s t x h 0x30 0 body ∧ body.length = (if s.sec.lmsLeft = 0 then 612 else 3896) ∧
      t.sec.lmsLeft = s.sec.lmsLeft - 1 := by
  obtain ⟨z, p, o, hstate, -, -, hlen⟩ := attestation_eq (servedFrom s x h) 0 0 (leBytes 32 nonce)
  obtain ⟨t, hx, hans, ss, l, rfl⟩ := sealed_next (i := .mgmtAttest h nonce) (u := (attestation (servedFrom s x h) 0 0 (leBytes 32 nonce)).1)
    (body := (attestation (servedFrom s x h) 0 0 (leBytes 32 nonce)).2) (if_neg (by simp only [htree, Bool.not_true, Bool.false_eq_true, not_false_eq_true])) hp rfl (by rw [hstate])
    (by rw [hstate]; exact out_prefix_servedFrom ..)
  refine ⟨_, _, hx, hans, hlen, ?_⟩
  rw [hstate]
  exact lmsLeft_signed s.sec

theorem setFwPolicy_answers (hp : Permits s x h beforeReady) {sources floor : Nat} (h1 : 1 ≤ sources) (h3 : sources ≤ 3) (hfl : floor ≤ 64) :
    let p := BitVec.ofNat 2 sources
    ∃ t, exec (.setFwPolicy h sources floor) s = .next t ∧
      if p &&& s.mgt.policySrc = p ∧ s.mgt.policyFloor ≤ floor then Answers s t x h 0x20 0 [] ∧ t.mgt.policySrc = p ∧ t.mgt.policyFloor = floor
      else Answers s t x h 0x20 3 [] ∧ t.mgt.policySrc = s.mgt.policySrc ∧ t.mgt.policyFloor = s.mgt.policyFloor := by
  intro p
  have hrange : ¬ (sources = 0 ∨ 3 < sources ∨ 64 < floor) := by omega
  by_cases hok : p &&& s.mgt.policySrc = p ∧ s.mgt.policyFloor ≤ floor
  · have hno : ¬ (p &&& (servedFrom s x h).mgt.policySrc ≠ p ∨ floor < (servedFrom s x h).mgt.policyFloor) := by
      rintro (hne | hlt)
      · exact hne hok.1
      · exact absurd hok.2 (Nat.not_le.mpr hlt)
    obtain ⟨t, hx, hans, ss, l, rfl⟩ := sealed_next (i := .setFwPolicy h sources floor) rfl hp ((if_neg hrange).trans (if_neg hno)) rfl (List.prefix_refl _)
    refine ⟨_, hx, ?_⟩
    rw [if_pos hok]
    exact ⟨hans, rfl, rfl⟩
  · have hbad : p &&& (servedFrom s x h).mgt.policySrc ≠ p ∨ floor < (servedFrom s x h).mgt.policyFloor := by
      by_cases hp : p &&& s.mgt.policySrc = p
      · exact .inr (Nat.not_le.mp fun hle => hok ⟨hp, hle⟩)
      · exact .inl hp
    obtain ⟨t, hx, hans, ss, l, rfl⟩ := sealed_next (i := .setFwPolicy h sources floor) rfl hp ((if_neg hrange).trans (if_pos hbad)) rfl (List.prefix_refl _)
    refine ⟨_, hx, ?_⟩
    rw [if_neg hok]
    exact ⟨hans, rfl, rfl⟩

theorem bundleBegin_answers (hp : Permits s x h waiting) {len : Nat} (hlen : bundleLenOk len = true) : ∃ t, exec (.bundleBegin h len) s = .next t ∧
    Answers s t x h 0x21 0 [] ∧ t.mgt.upload = some len ∧ t.mgt.staging = [] := by
  obtain ⟨t, hx, hans, ss, l, rfl⟩ := sealed_next (i := .bundleBegin h len) rfl hp (if_neg (by rw [hlen]; decide)) rfl (List.prefix_refl _)
  exact ⟨_, hx, hans, rfl, rfl⟩

theorem bundleData_answers (hp : Permits s x h waiting) {len off : Nat} {data : List Byte} (hup : s.mgt.upload = some len) (hoff : off % 64 = 0)
    (hdata : data.length ≤ 61440) (hin : off + data.length ≤ len) (hwf : Memory.wf s.mgt.staging = true) :
    ∃ t, exec (.bundleData h off data) s = .next t ∧ Answers s t x h 0x22 0 [] ∧ mread t.mgt.staging off data.length = data ∧
      ∀ a, ¬ (off ≤ a ∧ a < off + data.length) → mget t.mgt.staging a = mget s.mgt.staging a := by
  have hup : (servedFrom s x h).mgt.upload = some len := hup
  have hok : ¬ (off % 64 ≠ 0 ∨ 61440 < data.length ∨ len < off + data.length) := by omega
  obtain ⟨t, hx, hans, ss, l, rfl⟩ := sealed_next (i := .bundleData h off data) (u := { servedFrom s x h with mgt := { (servedFrom s x h).mgt with
    staging := mwrite s.mgt.staging off data } }) rfl hp (by simp only [hup, if_neg hok]; rfl) rfl (List.prefix_refl _)
  exact ⟨_, hx, hans, mread_mwrite _ _ hwf, fun a ha => mget_mwrite_other _ _ _ (by omega)⟩

/-- A state at the end of an upload: its notice, and no upload (R492). -/
def uploadEnded (s : State) : State := notice { s with mgt := { s.mgt with upload := none } } 4 0

theorem uploadEnded_eq (s : State) : ∃ p l n, uploadEnded s =
    { s with mgt := { s.mgt with upload := none, noticeKind := 4, noticeDelay := 0, nseq := n }, pcie := p, out := s.out ++ l } := by
  obtain ⟨p, l, h⟩ := notice_eq { s with mgt := { s.mgt with upload := none } } 4 0
  exact ⟨p, l, _, h⟩

theorem tryStart_stage (s : State) : ∃ g, tryStart s = { s with boot := { s.boot with stage := g } } ∧
    (s.boot.stage = .ready → g = .ready ∨ g = .start) := by
  unfold tryStart
  split
  · exact ⟨_, rfl, fun _ => .inr rfl⟩
  · exact ⟨_, rfl, fun h => .inl h⟩

/-- A bundle refused: its code is kept (R466, R468). -/
theorem takeBundle_refused {s : State} {b : Bundle} {len source code : Nat} (h : bundleRefusal s b len source = some code) :
    ∃ t, takeBundle s b len source = (t, some code) ∧ t.boot.stage = s.boot.stage ∧ t.boot.refuse = code ∧ t.sec = s.sec ∧ t.mgt = s.mgt ∧ t.out = s.out := by
  simp only [takeBundle, h]
  exact ⟨_, rfl, rfl, rfl, rfl, rfl, rfl⟩

/-- A bundle accepted: the boot goes on with what it brings (R466, R468). -/
theorem takeBundle_accepted {s : State} {b : Bundle} {len source : Nat} (h : bundleRefusal s b len source = none) :
    ∃ t, takeBundle s b len source = (t, none) ∧ (t.boot.stage = .ready ∨ t.boot.stage = .start) ∧
      t.sec.imageSvn = imageSvn (sectionBytes (padTo len b.bytes) 4) ∧ t.sec.measurement = measurementOf (sectionBytes (padTo len b.bytes) 4) ∧
      t.mgt = s.mgt ∧ t.out = s.out := by
  simp only [takeBundle, h]
  obtain ⟨g, hg, hstage⟩ := tryStart_stage { s with
      boot := { s.boot with
        bundles := satInc 8 s.boot.bundles, waitUs := waitSoFar s, waitFrom := s.ticks, stage := .ready
        ppr := repairsOf (sectionBytes (padTo len b.bytes) 1), pprRun := false, chain := sectionBytes (padTo len b.bytes) 2
        pcal := sectionBytes (padTo len b.bytes) 3, image := sectionBytes (padTo len b.bytes) 4 }
      sec := { s.sec with
        measurement := measurementOf (sectionBytes (padTo len b.bytes) 4), imageSvn := imageSvn (sectionBytes (padTo len b.bytes) 4) }
      pwr := { s.pwr with vmin := pcalVmin (sectionBytes (padTo len b.bytes) 3) } }
  rw [hg]
  exact ⟨_, rfl, hstage rfl, rfl, rfl, rfl, rfl⟩

theorem bundleEnd_answers (hp : Permits s x h waiting) {b : Bundle} {len : Nat} (hup : s.mgt.upload = some len) :
    let got : Bundle := { b with readable := true, bytes := mread s.mgt.staging 0 len }
    ∃ t, exec (.bundleEnd h b) s = .next t ∧ t.mgt.upload = none ∧
      (∀ code, bundleRefusal s got len 1 = some code → Answers s t x h 0x23 1 (leBytes 1 code) ∧ t.boot.stage = .waitBundle ∧ t.boot.refuse = code ∧ t.sec = s.sec) ∧
      (bundleRefusal s got len 1 = none → Answers s t x h 0x23 0 [] ∧ (t.boot.stage = .ready ∨ t.boot.stage = .start) ∧
        t.sec.imageSvn = imageSvn (sectionBytes (padTo len got.bytes) 4) ∧ t.sec.measurement = measurementOf (sectionBytes (padTo len got.bytes) 4)) := by
  intro got
  have hup : (servedFrom s x h).mgt.upload = some len := hup
  obtain ⟨p, o, n, hn⟩ := uploadEnded_eq (servedFrom s x h)
  have hsame : bundleRefusal (uploadEnded (servedFrom s x h)) got len 1 = bundleRefusal s got len 1 := by
    rw [hn]
    rfl
  have hup' : (uploadEnded (servedFrom s x h)).mgt.upload = none := by rw [hn]
  have hses : (uploadEnded (servedFrom s x h)).mgt.sessions = (servedFrom s x h).mgt.sessions := by rw [hn]
  have hsec : (uploadEnded (servedFrom s x h)).sec = s.sec := by
    rw [hn]
    rfl
  have hstage : (uploadEnded (servedFrom s x h)).boot.stage = .waitBundle := by
    rw [hn]
    exact beq_iff_eq.mp hp.permitted
  have hout : s.out <+: (uploadEnded (servedFrom s x h)).out := by
    rw [hn]
    exact out_prefix_servedFrom ..
  cases hr : bundleRefusal s got len 1 with
  | some code =>
    obtain ⟨v, htake, hst, hcode, hv, hm, ho⟩ := takeBundle_refused (hsame.trans hr)
    obtain ⟨t, hx, hans, ss, l, rfl⟩ := sealed_next (i := .bundleEnd h b) (u := v) rfl hp
      (by simp only [hup]; exact congrArg (fun r : State × Option Nat => match r with
        | (t1, none) => (t1, mgOk, [])
        | (t1, some code) => (t1, mgRefused, leBytes 1 code)) htake) ((congrArg Mgmt.sessions hm :).trans hses) (ho ▸ hout)
    refine ⟨_, hx, (congrArg Mgmt.upload hm :).trans hup', fun code' hc => ?_, nofun⟩
    cases hc
    exact ⟨hans, hst.trans hstage, hcode, hv.trans hsec⟩
  | none =>
    obtain ⟨v, htake, hst, hsvn, hmeas, hm, ho⟩ := takeBundle_accepted (hsame.trans hr)
    obtain ⟨t, hx, hans, ss, l, rfl⟩ := sealed_next (i := .bundleEnd h b) (u := v) rfl hp
      (by simp only [hup]; exact congrArg (fun r : State × Option Nat => match r with
        | (t1, none) => (t1, mgOk, [])
        | (t1, some code) => (t1, mgRefused, leBytes 1 code)) htake) ((congrArg Mgmt.sessions hm :).trans hses) (ho ▸ hout)
    exact ⟨_, hx, (congrArg Mgmt.upload hm :).trans hup', nofun, fun _ => ⟨hans, hst, hsvn, hmeas⟩⟩

/-- A delayed action waits: its notice, and nothing done yet (R490, R492). -/
def Waits (s : State) (x : Session) (h : MgmtHeader) (ms : Nat) (i : Instr) (ty : Nat) (a : MgmtAction) (kind : Nat) : Prop :=
  ∃ t, exec i s = .next t ∧ Answers s t x h ty 0 [] ∧ t.mgt.pending = some a ∧ t.mgt.noticeKind = kind ∧ t.mgt.noticeDelay = ms ∧ t.sec = s.sec

theorem delayed_waits {i : Instr} {ty : Nat} {permitted : State → Bool} {act : State → Served} (hx : exec i s = .next (sealed s ty h permitted act))
    (hp : Permits s x h permitted) {a : MgmtAction} {kind ms : Nat} (ha : act (servedFrom s x h) = schedule (servedFrom s x h) a kind ms)
    (hnone : s.mgt.pending = none) (hms : ms ≤ 10000) : Waits s x h ms i ty a kind := by
  obtain ⟨u, hu, hpend, hkind, hdelay, hsec, hses, hout⟩ := schedule_accepts (s := servedFrom s x h) a kind hnone hms
  obtain ⟨t, hx, hans, ss, l, rfl⟩ := sealed_next hx hp (ha.trans hu) hses hout
  exact ⟨_, hx, hans, hpend, hkind, hdelay, hsec⟩

theorem delayed_actions_wait (hp : ∀ p : State → Bool, p (servedFrom s x h) = true → Permits s x h p) {ms : Nat} (hnone : s.mgt.pending = none)
    (hms : ms ≤ 10000) :
    Waits s x h ms (.mgmtReset h ms) 0x60 .reset 1 ∧ Waits s x h ms (.retire h ms) 0x72 .retire 2 ∧
    (lifecycle s = 2 → Waits s x h ms (.transition h ms) 0x70 .transition 2) ∧
    ∀ root, lifecycle s = 3 → s.sec.lcSteps ≠ 9 → s.sec.mgmtRoots.length < 4 → Waits s x h ms (.handover h ms root) 0x71 (.handover root) 2 := by
  refine ⟨delayed_waits rfl (hp (fun _ => true) rfl) rfl hnone hms, delayed_waits rfl (hp (fun _ => true) rfl) rfl hnone hms,
    fun h2 => delayed_waits rfl (hp (fun t => lifecycle t == 2) (beq_iff_eq.mpr h2)) rfl hnone hms, fun root h3 h9 h4 => ?_⟩
  have hroom : ¬ ((servedFrom s x h).sec.lcSteps = 9 ∨ 4 ≤ (servedFrom s x h).sec.mgmtRoots.length) := by
    rintro (h | h)
    · exact h9 h
    · exact absurd h4 (Nat.not_lt.mpr h)
  exact delayed_waits rfl (hp (fun t => lifecycle t == 3) (beq_iff_eq.mpr h3)) (if_neg hroom) hnone hms

end sealed

/- The handshake (R405, R488). -/

/-- An open response has left (R487). -/
def Opens (s t : State) (h : MgmtHeader) (ty status : Nat) (body : List Byte) : Prop :=
  ∃ ev, t.out = ev ++ [.mgmt h.session h.req status body (mgDatagrams none ty h.session 1 h.req status body)] ∧ s.out <+: ev

theorem openMsg_next {s : State} (hup : mgmtUp s = true) {h : MgmtHeader} (h0 : h.session = 0) {ty : Nat} {act : State → Served} {u : State} {status : Nat}
    {body : List Byte} (ha : act s = (u, status, body)) : openMsg s ty h act = reply u ty 0 h.req status body := by
  simp only [openMsg, h0, hup, if_true, ha]

theorem opens_reply {s u : State} {h : MgmtHeader} (hout : s.out <+: u.out) (ty status : Nat) (body : List Byte) :
    Opens s (reply u ty h.session h.req status body) h ty status body := ⟨u.out, rfl, hout⟩

/-- The session that HELLO_A opens: its nonce and its key pair are free values (R405). -/
def helloSession (s : State) (nonce peerKey : Nat) : Session :=
  let k := (drawFree s).1
  { id := s.mgt.nextSession, live := false, nonceA := nonce % 2 ^ 256, nonceD := (drawFree (drawFree s).2).1 % 2 ^ 256, peerKey := peerKey % 2 ^ 776
    ecdhPriv := k % 2 ^ 384, ecdhPub := Config.digest 20 (leBytes 48 (k % 2 ^ 384)) % 2 ^ 776 }

theorem helloA_answers {s : State} (hup : mgmtUp s = true) (h : MgmtHeader) (nonce peerKey : Nat) :
    let h0 := { h with session := 0 }
    let live := s.mgt.sessions.filter (fun x => x.live)
    let owned := lifecycle s = 2 ∨ lifecycle s = 3
    (¬ owned → ∃ t, exec (.helloA h nonce peerKey) s = .next t ∧ Opens s t h0 2 3 [] ∧ t.mgt = s.mgt) ∧
    (owned → 2 ≤ live.length → ∃ t, exec (.helloA h nonce peerKey) s = .next t ∧ Opens s t h0 2 2 [] ∧ t.mgt = s.mgt) ∧
    (owned → s.mgt.handshakeWait = 0 → live.length < 2 → ∃ t y, exec (.helloA h nonce peerKey) s = .next t ∧
      Opens s t h0 2 0 (leBytes 8 y.id ++ leBytes 32 y.nonceD ++ leBytes 97 y.ecdhPub) ∧ t.mgt.sessions = s.mgt.sessions ++ [y] ∧
      y.id = s.mgt.nextSession ∧ y.live = false ∧ y.nonceA = nonce % 2 ^ 256 ∧ y.peerKey = peerKey % 2 ^ 776 ∧ t.mgt.handshakeWait = 50000) := by
  intro h0 live owned
  refine ⟨fun hno => ?_, fun ho h2 => ?_, fun ho hw hlt => ?_⟩
  · have hno : lifecycle s ≠ 2 ∧ lifecycle s ≠ 3 := not_or.mp hno
    exact ⟨_, next_congr (openMsg_next hup rfl (if_pos hno)), opens_reply (h := h0) (List.prefix_refl _) .., rfl⟩
  · have ho : ¬ (lifecycle s ≠ 2 ∧ lifecycle s ≠ 3) := fun hn => ho.elim hn.1 hn.2
    exact ⟨_, next_congr (openMsg_next hup rfl ((if_neg ho).trans (if_pos (.inr h2)))), opens_reply (h := h0) (List.prefix_refl _) .., rfl⟩
  · have ho : ¬ (lifecycle s ≠ 2 ∧ lifecycle s ≠ 3) := fun hn => ho.elim hn.1 hn.2
    have hgo : ¬ (0 < s.mgt.handshakeWait ∨ 2 ≤ (s.mgt.sessions.filter (fun x => x.live)).length) := by
      rintro (h | h)
      · omega
      · exact absurd hlt (Nat.not_lt.mpr h)
    exact ⟨_, helloSession s nonce peerKey, next_congr (openMsg_next hup rfl ((if_neg ho).trans (if_neg hgo))),
      opens_reply (h := h0) (List.prefix_refl _) .., rfl, rfl, rfl, rfl, rfl, rfl⟩

theorem findSession_dropped (s : State) (n : Nat) :
    findSession { s with mgt := { s.mgt with sessions := s.mgt.sessions.filter (fun y => y.id != n) } } n = none := by
  refine List.find?_eq_none.mpr fun y hy => ?_
  have := (List.mem_filter.mp hy).2
  simp only [bne_iff_ne, beq_iff_eq] at this ⊢
  exact this

theorem authA_answers {s : State} (hup : mgmtUp s = true) {h : MgmtHeader} {x : Session} {chainOk sigOk : Bool} (hx : findSession s h.session = some x)
    (hlive : x.live = false) (htree : treeReady s = true) (ho : lifecycle s = 2 ∨ lifecycle s = 3) :
    ((chainOk && sigOk) = false → ∃ t, exec (.authA h chainOk sigOk) s = .next t ∧ Opens s t h 4 5 [] ∧ findSession t h.session = none) ∧
    ((chainOk && sigOk) = true → (s.mgt.sessions.filter (fun x => x.live)).length < 2 → ∃ t, exec (.authA h chainOk sigOk) s = .next t ∧
      Opens s t h 4 0 (s.boot.chain ++ signatureBlock (signDevice s).2 (mgTranscript x)) ∧
      findSession t h.session = some { x with live := true, rxKey := mgKey x 0, txKey := mgKey x 1 } ∧ t.sec.lmsLeft = s.sec.lmsLeft - 1) := by
  have hid := id_of_findSession hx
  have ho : ¬ (lifecycle s ≠ 2 ∧ lifecycle s ≠ 3) := fun hn => ho.elim hn.1 hn.2
  refine ⟨fun hbad => ?_, fun hok hlt => ?_⟩
  · have hbad : (!chainOk || !sigOk) = true := by rw [← Bool.not_and, hbad]; rfl
    have he : exec (.authA h chainOk sigOk) s =
        .next (reply { s with mgt := { s.mgt with sessions := s.mgt.sessions.filter (fun y => y.id != h.session) } } 4 h.session h.req mgAuth []) := by
      show execAuthA h chainOk sigOk s = _
      simp only [execAuthA, hx, hup, hlive, htree, Bool.not_true, Bool.or_self, Bool.false_eq_true, if_false, if_neg ho, if_pos hbad, hid]
    exact ⟨_, he, opens_reply (List.prefix_refl _) .., findSession_dropped s h.session⟩
  · obtain ⟨hc, hs⟩ := Bool.and_eq_true_iff.mp hok
    obtain ⟨z, p, l, hsign, -, -⟩ := signDevice_eq s
    have he : exec (.authA h chainOk sigOk) s = .next (reply (setSession (signDevice s).1 { x with live := true, rxKey := mgKey x 0, txKey := mgKey x 1 })
        4 h.session h.req mgOk ((signDevice s).1.boot.chain ++ signatureBlock (signDevice s).2 (mgTranscript x))) := by
      show execAuthA h chainOk sigOk s = _
      simp only [execAuthA, hx, hup, hlive, htree, hc, hs, Bool.not_true, Bool.or_self, Bool.false_eq_true, if_false, if_neg ho, hid, if_neg (Nat.not_le.mpr hlt)]
    have hfind : findSession (signDevice s).1 h.session = some x := by rw [hsign]; exact hx
    have hset := findSession_setSession (y := { x with live := true, rxKey := mgKey x 0, txKey := mgKey x 1 }) hfind hid
    refine ⟨_, he, ?_, hset, ?_⟩
    · rw [hsign]
      exact opens_reply (List.prefix_append ..) ..
    · rw [hsign]
      exact lmsLeft_signed s.sec

theorem queryState_answers {s : State} (hup : mgmtUp s = true) {h : MgmtHeader} (h0 : h.session = 0) : ∃ t, exec (.queryState h) s = .next t ∧
    Opens s t h 0x10 0 (leBytes 1 (lifecycle s) ++ leBytes 1 s.sec.lcSteps ++ leBytes 1 s.boot.stage.code ++ leBytes 3 s.fab.faddr ++
      leBytes 48 s.sec.idhash ++ leBytes 2 s.sec.boots ++ leBytes 8 (fltStatus s)) ∧ { t with out := s.out } = s := by
  refine ⟨_, next_congr (openMsg_next hup h0 rfl), ⟨s.out, ?_, List.prefix_refl _⟩, rfl⟩
  rw [h0]
  rfl

theorem telemetryPush_sends {s : State} (hup : mgmtUp s = true) {n : Nat} {x : Session} (hx : findSession s n = some x) (hlive : x.live = true)
    (hpush : 0 < x.pushes) (hserv : inService s = true) (hf : s.flt.fatal = false) :
    ∃ t y, exec (.telemetryPush n) s = .next t ∧
      (let body := (s.pwr.telemetry.take 1).flatMap telemetryBytes
       t.out = s.out ++ [.mgmt n 0 0 body (mgDatagrams (some x.txKey) 0x42 n x.txSeq 0 0 body)]) ∧ findSession t n = some y ∧ y.pushes = x.pushes - 1 := by
  have hid := id_of_findSession hx
  have hp : (x.pushes == 0) = false := beq_false_of_ne (by omega)
  have he : exec (.telemetryPush n) s = .next (sealedReply s { x with pushes := x.pushes - 1 } 0x42 0 mgOk ((s.pwr.telemetry.take 1).flatMap telemetryBytes)) := by
    show execTelemetryPush n s = _
    simp only [execTelemetryPush, hx, hup, hlive, hp, hserv, hf, Bool.not_true, Bool.or_self, Bool.false_eq_true, if_false]
  refine ⟨_, _, he, ?_, findSession_setSession hx hid, rfl⟩
  rw [← hid]
  rfl

theorem sessionExpiry_drops (s : State) (n : Nat) : ∃ t, exec (.mgmtSessionExpiry n) s = .next t ∧ findSession t n = none ∧
    (∀ m, m ≠ n → findSession t m = findSession s m) ∧ { t with mgt := s.mgt } = s := by
  refine ⟨_, rfl, findSession_dropped s n, fun m hm => ?_, rfl⟩
  show (s.mgt.sessions.filter _).find? _ = s.mgt.sessions.find? _
  rw [List.find?_filter]
  refine congrArg (fun p => List.find? p s.mgt.sessions) (funext fun y => ?_)
  by_cases hy : y.id = m
  · simp [hy, hm]
  · simp [hy]

/- Lifecycle (R376, R490, R491). -/

theorem bootStart_keeps (s : State) : ∃ p b k, bootStart s = { s with pwr := p, boot := b, ticks := k } := by
  unfold bootStart
  split
  · exact ⟨s.pwr, s.boot, s.ticks, rfl⟩
  · exact ⟨_, _, _, rfl⟩

/-- What a device reset leaves of a state whose boot follows (R459). -/
theorem resetAndBoot_keeps (s : State) : ∃ p b k, resetAndBoot s = { resetEntry s with pwr := p, boot := b, ticks := k } := bootStart_keeps _

theorem lcToken_acts {s : State} (hup : mgmtUp s = true) {h : MgmtHeader} {k : Token} {secret : BitVec 256} {z : Security} (h0 : h.session = 0)
    (hf : s.flt.fatal = false) (hl : lifecycle s ≤ 1) (hp : s.mgt.pending = none) (h1 : 1 ≤ k.kind) (h3 : k.kind ≤ 3) (hsig : k.sigOk = true)
    (hburn : k.burnOk = true) (hid : k.idhash = (if lifecycle s = 0 then 0 else s.sec.idhash)) (hboots : k.boots = s.sec.boots)
    (hz : tokenFuses s k secret = some z) :
    ∃ t, exec (.lcToken h k secret) s = .next t ∧ t.out = s.out ++ [.mgmt 0 h.req 0 [] (mgDatagrams none 0x11 0 1 h.req 0 [])] ∧
      t.sec.lcSteps = (if k.kind = 3 then 16 else k.kind) ∧ t.cores = [] ∧ t.cmds = [] ∧ t.hbm = [] := by
  have hburned : burn s true = (s, true) := rfl
  have hpend : (s.flt.fatal || decide (1 < lifecycle s) || s.mgt.pending.isSome) = false := by
    rw [hf, hp, decide_eq_false (Nat.not_lt.mpr hl)]
    rfl
  have hmatch : (!k.sigOk || k.idhash != (if lifecycle s = 0 then 0 else s.sec.idhash) || k.boots != s.sec.boots) = false := by
    rw [hsig, ← hid, hboots]
    simp
  have he : exec (.lcToken h k secret) s = .next (resetAndBoot { reply s 0x11 0 h.req mgOk [] with sec := { z with spareRows := s.sec.spareRows } }) := by
    show execLcToken h k secret s = _
    simp only [execLcToken, hup, h0, bne_self_eq_false, Bool.not_true, Bool.or_self, Bool.false_eq_true, if_false, hpend,
      if_neg (show ¬ (k.kind = 0 ∨ 3 < k.kind) by omega), hmatch, hz, hburn, hburned]
  have hsteps : z.lcSteps = if k.kind = 3 then 16 else k.kind := by
    unfold tokenFuses at hz
    dsimp only at hz
    split at hz
    · next hk => cases hz; rw [hk.1]; rfl
    · split at hz
      · next hk => cases hz; rw [hk.1]; rfl
      · split at hz
        · next hk => cases hz; rw [if_pos hk]; rfl
        · cases hz
  obtain ⟨p, b, n, hreset⟩ := resetAndBoot_keeps { reply s 0x11 0 h.req mgOk [] with sec := { z with spareRows := s.sec.spareRows } }
  refine ⟨_, he, ?_⟩
  rw [hreset]
  exact ⟨rfl, hsteps, rfl, rfl, rfl⟩

theorem delayExpiry_acts {s : State} (hup : mgmtUp s = true) {a : MgmtAction} (ha : s.mgt.pending = some a) (hf : s.flt.fatal = false) :
    ∃ t, exec (.mgmtDelayExpiry true) s = .next t ∧ t.sec.lcSteps = (lifecycled s.sec a).lcSteps ∧ t.sec.mgmtRoots = (lifecycled s.sec a).mgmtRoots ∧
      t.sec.secret = (lifecycled s.sec a).secret ∧ t.sec.boots = s.sec.boots ∧ t.cores = [] ∧ t.cmds = [] ∧ t.hbm = [] ∧ t.mgt = {} := by
  have hgo : (s.flt.fatal || !mgmtUp s) = false := by rw [hf, hup]; rfl
  have hburned (u : State) : burn u true = (u, true) := rfl
  have he : exec (.mgmtDelayExpiry true) s = .next (resetAndBoot { s with mgt := { s.mgt with pending := none }, sec := lifecycled s.sec a }) := by
    show execMgmtDelayExpiry true s = _
    have hup : mgmtUp { s with mgt := { s.mgt with pending := none } } = mgmtUp s := rfl
    simp only [execMgmtDelayExpiry, ha, hgo, Bool.false_eq_true, if_false]
    split
    · next hr => rw [hr]; rfl
    · rfl
  have hboots : (lifecycled s.sec a).boots = s.sec.boots := by cases a <;> rfl
  obtain ⟨p, b, n, hreset⟩ := resetAndBoot_keeps { s with mgt := { s.mgt with pending := none }, sec := lifecycled s.sec a }
  refine ⟨_, he, ?_⟩
  rw [hreset]
  exact ⟨rfl, rfl, rfl, hboots, rfl, rfl, rfl, rfl⟩

theorem neighborDiscovery_answers {s : State} (hup : mgmtUp s = true) (p : Option Nat) : ∃ t, exec (.neighborDiscovery (some (linkLocal s)) p) s = .next t ∧
    t.out = s.out ++ [.net 1 (leBytes 16 (linkLocal s) ++ leBytes 6 (macAddr s))] ∧
    ∀ k, p = some k → t.mgt.addrs = insertNew s.mgt.addrs (k % 2 ^ 64 * 2 ^ 64 + interfaceId s) := by
  have he (u : State) (hu : linkLocal u = linkLocal s) (hx : exec (.neighborDiscovery (some (linkLocal s)) p) s =
      .next (if linkLocal s = linkLocal u ∨ u.mgt.addrs.contains (linkLocal s) then emit u (.net 1 (leBytes 16 (linkLocal s) ++ leBytes 6 (macAddr u))) else u)) :
      exec (.neighborDiscovery (some (linkLocal s)) p) s = .next (emit u (.net 1 (leBytes 16 (linkLocal s) ++ leBytes 6 (macAddr u)))) :=
    hx.trans (next_congr (if_pos (.inl hu.symm)))
  cases p with
  | none => exact ⟨_, he s rfl (if_neg (by rw [hup]; decide)), rfl, nofun⟩
  | some k =>
    refine ⟨_, he { s with mgt := { s.mgt with addrs := insertNew s.mgt.addrs (k % 2 ^ 64 * 2 ^ 64 + interfaceId s) } } rfl (if_neg (by rw [hup]; decide)), rfl,
      fun k' hk => ?_⟩
    cases hk
    rfl

/-- Settles O56: the handshake, the messages of a live session, and the delayed and lifecycle actions. -/
theorem management : Obligations.Management := by
  intro s hup live owned opens
  refine ⟨fun h nonce peerKey => helloA_answers hup h nonce peerKey, fun h x chainOk sigOk hx hlive htree ho => authA_answers hup hx hlive htree ho,
    fun h h0 => queryState_answers hup h0, fun h x hx hlive hseq hnew => ?session,
    fun n x hx hlive hpush hserv hf => telemetryPush_sends hup hx hlive hpush hserv hf, sessionExpiry_drops s,
    fun h k secret z h0 hf hl hp h1 h3 hsig hburn hid hboots hz => lcToken_acts hup h0 hf hl hp h1 h3 hsig hburn hid hboots hz,
    fun a ha hf => delayExpiry_acts hup ha hf, neighborDiscovery_answers hup, fun data => ?echo, fun q => ?pause⟩
  case echo => exact ⟨_, next_congr (if_pos hup), rfl, rfl⟩
  case pause => exact ⟨_, next_congr (if_pos hup), rfl, rfl⟩
  case session =>
    intro answers
    have hm : NewMessage s x h := ⟨hup, hx, hlive, hseq, hnew⟩
    refine ⟨fun from_ count hl h1 h512 => faultHistory_answers hm from_ hl h1 h512, fun hf hl => ?_⟩
    have hp (p : State → Bool) (h : p (servedFrom s x h) = true) : Permits s x _ p := ⟨hm, hf, hl, h⟩
    refine ⟨fun hserv => ?inService, fun nonce ho htree => mgmtAttest_answers (hp _ ?owned) nonce htree,
      fun sources floor hb h1 h3 hfl => setFwPolicy_answers (hp _ hb) h1 h3 hfl, fun hw => ?bundle,
      fun ms hnone hms => delayed_actions_wait hp hnone hms⟩
    case inService =>
      have hp := hp inService hserv
      refine ⟨fun n h1 h60 => ?_, ?_, fun cap => ?_, fun burnOk hlt hb => ?_⟩
      · exact getTelemetry_answers hp h1 h60
      · exact subscribe_answers hp
      · exact setPowerCap_answers hp cap
      · exact advanceSvn_answers hp hlt hb
    case owned =>
      have ho : lifecycle (servedFrom s x h) = 2 ∨ lifecycle (servedFrom s x h) = 3 := ho
      simpa using ho
    case bundle =>
      have hp := hp waiting hw
      exact ⟨fun len hlen => bundleBegin_answers hp hlen, fun len off data hu hoff hdata hin hwf => bundleData_answers hp hu hoff hdata hin hwf,
        fun b len hu => bundleEnd_answers hp hu⟩
end Sys2Proof.Machine
end
section
/-! PROOFS. Attestation, the key vault and sealed sessions (R389 to R396, R403). -/

namespace Sys2Proof.Machine

/- The bytes of a report. -/

theorem slice_append {a b : List Byte} {o k : Nat} (h : o + k ≤ a.length) : ((a ++ b).drop o).take k = (a.drop o).take k := by
  rw [List.drop_append_of_le_length (by omega), List.take_append_of_le_length (by rw [List.length_drop]; omega)]

theorem slice_padTo {bs : List Byte} {o k n : Nat} (h : o + k ≤ bs.length) (hn : o + k ≤ n) : ((padTo n bs).drop o).take k = (bs.drop o).take k := by
  rw [padTo, List.drop_take, List.take_take, min_eq_left (by omega), slice_append h]

theorem slice_padTo_append {a b : List Byte} {o k n : Nat} (h : o + k ≤ a.length) (hn : a.length ≤ n) :
    ((padTo n (a ++ b)).drop o).take k = (a.drop o).take k := by
  rw [slice_padTo (by rw [List.length_append]; omega) (by omega), slice_append h]

/-- A record written field by field splits at each of its fields. -/
theorem flatten_split {fs : List (List Byte)} {i : Nat} {x : List Byte} (hx : fs[i]? = some x) :
    fs.flatten = (fs.take i).flatten ++ (x ++ (fs.drop (i + 1)).flatten) := by
  obtain ⟨hi, hx⟩ := List.getElem?_eq_some_iff.mp hx
  conv_lhs => rw [← List.take_append_drop i fs, List.flatten_append, List.drop_eq_getElem_cons hi, hx, List.flatten_cons]

theorem bytesAt_field {d x : List Byte} {o k v : Nat} (h : (d.drop o).take k = x) (hx : x = leBytes k v) (hv : v < 256 ^ k) : bytesAt d o k = v := by
  rw [bytesAt, h, hx, leNat_leBytes, Nat.mod_eq_of_lt hv]

/-- The fields of the evidence, in order (R390). -/
def evidenceFields (s : State) (scope colony : Nat) (nonce : List Byte) (hss : Bool) : List (List Byte) :=
  let z := s.sec
  let c := colAt s colony
  let col (n : Nat) : Nat := if scope = 1 then n else 0
  [leBytes 4 0x56454245, leBytes 2 1, leBytes 1 scope,
    leBytes 1 (b2n hss + 2 * b2n z.lmsExhausted + 4 * b2n z.lmsSpent + 8 * b2n s.flt.pctlEn + 16 * b2n (scope == 1 && c.sealSess.isSome)),
    leBytes 1 (lifecycle s), leBytes 1 z.lcSteps, leBytes 1 z.fuseSvn, leBytes 1 z.imageSvn, leBytes 2 z.boots, leBytes 2 z.lmsLeft,
    leBytes 48 z.idhash, leBytes 48 Config.romId, leBytes 48 z.measurement, leBytes 48 (z.ownerRoot.getD 0), leBytes 48 (mgmtRoot s),
    padTo 32 nonce, leBytes 97 z.kaPub, leBytes 2 (policyBits s), zeros 1, leBytes 3 s.fab.faddr, zeros 1,
    leBytes 1 (col colony), leBytes 1 (col c.tenant), leBytes 1 (col c.cur.instar), leBytes 1 (col c.keySlot),
    leBytes 16 (col (slotAt s c.keySlot).keyid), if scope = 1 then sha384 (mapEntryBytes c c.cur (inflightCur s colony)) else zeros 48]

theorem evidence_eq (s : State) (scope colony : Nat) (nonce : List Byte) (hss : Bool) :
    evidence s scope colony nonce hss = padTo 512 (evidenceFields s scope colony nonce hss).flatten := by
  simp only [evidence, evidenceFields, List.flatten_cons, List.flatten_nil, List.append_nil, List.append_assoc]

/-- A field of the evidence, in the report that it begins. -/
theorem evidence_field {s : State} {scope colony : Nat} {nonce x sig : List Byte} {hss : Bool} {i o k n : Nat}
    (hx : (evidenceFields s scope colony nonce hss)[i]? = some x)
    (ho : (((evidenceFields s scope colony nonce hss).take i).map List.length).sum = o) (hk : x.length = k) (hok : o + k ≤ 512) (hn : 512 ≤ n) :
    ((padTo n (evidence s scope colony nonce hss ++ sig)).drop o).take k = x := by
  have hlen : (evidence s scope colony nonce hss).length = 512 := length_padTo ..
  have ho : ((evidenceFields s scope colony nonce hss).take i).flatten.length = o := by rw [List.length_flatten, ho]
  have hfit : o + k ≤ (evidenceFields s scope colony nonce hss).flatten.length := by
    rw [flatten_split hx, List.length_append, List.length_append]
    omega
  rw [slice_padTo_append (by omega) (by omega), evidence_eq, slice_padTo hfit hok, flatten_split hx,
    List.drop_left' ho, List.take_left' hk]

theorem lifecycle_lt (s : State) : lifecycle s < 256 := by
  unfold lifecycle
  dsimp only
  repeat' split
  all_goals omega

/- A report that leaves for the host (R153). -/

/-- What may differ before a report leaves: security, events, free values, the colonies, and what left the device. -/
def Prepared (s t : State) : Prop := ∃ z e p l f c h, t = { s with sec := z, zlt := e, pcie := p, out := l, free := f, cols := c, hub := { s.hub with acct := h } }

theorem endCmd_alone {s : State} {id : Nat} {c : Cmd} (status detail result : Nat) (hc : cmdAt s id = some c) (hfin : c.finished = false)
    (hclaim : c.claimedBy = none) : endCmd s id status detail result = endOne s id status detail result := by
  simp only [endCmd, hc, hfin, hclaim, Bool.false_eq_true, if_false]

theorem settled_completeOk {s : State} {id : Nat} {c : Cmd} (result : Nat) (hc : cmdAt s id = some c) (hfin : c.finished = false) (ha : Alone s id c)
    (n : Nat) : (colAt (completeOk s id result) n).settled = (colAt s n).settled := by
  obtain ⟨hclaim, heng⟩ := ha
  rw [completeOk, modCmd_some _ hc, endCmd_alone (c := { c with attempts := 1 }) 0 0 result (cmdAt_setCmd_same ..) hfin hclaim]
  exact settled_endOne (c := { c with attempts := 1 }) 0 0 result (cmdAt_setCmd_same ..) hfin heng n

theorem report_ends {s u : State} {id off : Nat} {c : Cmd} (hc : cmdAt s id = some c) (hph : c.phase = .fetched) (ha : Alone s id c) (hu : Prepared s u)
    (hhost : c.isHost off = true) (data : List Byte) (result : Nat) :
    ∃ t, orWait s id (writeReport u id c off data result) = t ∧
      EndsAs (hostOut u c.page c.colony (c.addr off) data) t id (endedCmd u { c with attempts := 1 } 0 0 result) ∧ Ends s t id 0 0 result ∧
      ∀ n, (colAt t n).settled = (colAt u n).settled := by
  obtain ⟨z, e, p, l, f, cs, h, rfl⟩ := hu
  have hfin : c.finished = false := by rw [Cmd.finished, hph]
  obtain ⟨hclaim, heng⟩ := ha
  have hend := completeOk_endsAs (s := hostOut { s with sec := z, zlt := e, pcie := p, out := l, free := f, cols := cs, hub := { s.hub with acct := h } } c.page
    c.colony (c.addr off) data) result hc hfin ⟨hclaim, heng⟩
  obtain ⟨⟨k, hk, hdone, hstat⟩, hother, hcores, hhbm⟩ := ends_of_endsAs hend
  refine ⟨_, ?_, hend, ⟨⟨k, hk, hdone, hstat⟩, hother, hcores, hhbm⟩, settled_completeOk result hc hfin ⟨hclaim, heng⟩⟩
  rw [writeReport, if_pos hhost, orWait, hc, hk]
  exact if_neg (by rw [hdone, hph]; exact fun h => nomatch h.1)

/-- A report as it left: the write to the host, and before it at most the event of a spent tree (R384). -/
def Reports (s t : State) (c : Cmd) (off : Nat) (d : List Byte) : Prop :=
  ∃ ev, t.out = ev ++ [.hostWrite (pageOwner s c.page) (c.addr off) d] ∧ (s.sec.lmsLeft ≠ 1 → ev = s.out)

/-- One signature of the lower tree is spent (R384). -/
def Signs (s t : State) : Prop := t.sec.lmsLeft = s.sec.lmsLeft - 1 ∧
  t.sec.lmsSigned = (if s.sec.lmsLeft = 0 then s.sec.lmsSigned else (s.sec.lmsSigned + 1) % 2 ^ 32)

theorem signs_of_sec {s t : State} (h : t.sec = s.sec.signed) : Signs s t := by
  rw [Signs, h]
  exact ⟨lmsLeft_signed _, lmsSigned_signed _⟩

/-- ATTEST (R389, R390, R403). -/
theorem attest_reports {s : State} {id : Nat} {c : Cmd} (hc : cmdAt s id = some c) (hs : canStart s id c = true) (ha : Alone s id c) (hop : c.op = 0x60)
    (hhost : c.isHost 24 = true) (htree : treeReady s = true) (hleft : s.sec.lmsLeft < 2 ^ 16) (hpkt : c.pkt.length = 64) :
    ∃ t d, exec (.attest id) s = .next t ∧ Ends s t id 0 0 (if s.sec.lmsLeft = 0 then 612 else 3896) ∧ Reports s t c 24 d ∧ Signs s t ∧
      d.length = 4096 ∧ bytesAt d 0 4 = 0x56454245 ∧ bytesAt d 8 1 = lifecycle s ∧ bytesAt d 14 2 = t.sec.lmsLeft ∧
      (d.drop 256).take 32 = (c.pkt.drop 32).take 32 := by
  generalize hscope : (if c.page = 0 then c.byte 16 1 % 2 else 1) = scope
  generalize hnonce : (c.pkt.drop 32).take 32 = nonce
  have hnlen : nonce.length = 32 := by rw [← hnonce, List.length_take, List.length_drop, hpkt]; rfl
  generalize hatt : attestation s scope c.colony nonce = r
  obtain ⟨z, p, l, hstate, hout, hbytes, hlen⟩ := attestation_eq s scope c.colony nonce
  rw [hatt] at hstate hbytes hlen
  obtain ⟨t, hwait, ⟨pp, cc, ff, heq⟩, hends, -⟩ := report_ends hc (phase_of_canStart hs) ha ⟨s.sec.signed, z, p, _, s.free, s.cols, s.hub.acct, hstate⟩ hhost
    (padTo 4096 r.2) r.2.length
  have hx : exec (.attest id) s = .next t := by
    refine next_congr ((direct_body hc hop hs _).trans ((if_neg ?_).trans ?_))
    · simp only [htree, Bool.not_true, Bool.false_eq_true, not_false_eq_true]
    · simp only [hscope, hnonce, hatt]
      exact hwait
  have hsec : r.1.sec = s.sec.signed := by rw [hstate]
  have hlc : lifecycle r.1 = lifecycle s := by
    rw [hstate]
    unfold lifecycle Security.signed
    dsimp only
    split <;> rfl
  have htsec : t.sec = s.sec.signed := (congrArg State.sec heq).trans hsec
  refine ⟨t, padTo 4096 r.2, hx, hlen ▸ hends, ⟨s.out ++ l, ?_, fun h1 => by rw [hout h1, List.append_nil]⟩, signs_of_sec htsec, length_padTo .., ?_⟩
  · refine (congrArg State.out heq).trans ?_
    rw [hstate]
    rfl
  · rw [hbytes, htsec]
    refine ⟨bytesAt_field (evidence_field (i := 0) rfl rfl (leBytes_length ..) (by omega) (by omega)) rfl (by norm_num),
      bytesAt_field (evidence_field (i := 4) rfl (by simp [evidenceFields]) (leBytes_length ..) (by omega) (by omega)) (by rw [hlc]) (lifecycle_lt s),
      bytesAt_field (evidence_field (i := 9) rfl (by simp [evidenceFields]) (leBytes_length ..) (by omega) (by omega)) (by rw [hsec]) ?_,
      (evidence_field (i := 15) rfl (by simp [evidenceFields]) (length_padTo ..) (by omega) (by omega)).trans (padTo_length hnlen)⟩
    rw [lmsLeft_signed]
    omega

/- Sealed sessions (R403). -/

/-- A colony with the session that a host's blob begins, under the value drawn (R403). -/
def Colony.sealed (x : Colony) (draw : Nat) (blob : List Byte) : Colony :=
  { x with
    sealSess := some (0, 1), sealKey := BitVec.ofNat 256 (Config.digest 15 (leBytes 32 draw ++ blob))
    sealKeyOut := BitVec.ofNat 256 (Config.digest 16 (leBytes 32 draw ++ blob)) }

theorem pageOwner_setCol_sealed (s : State) (n draw page : Nat) (blob : List Byte) :
    pageOwner (setCol s n ((colAt s n).sealed draw blob)) page = pageOwner s page := by
  have hvf : (colAt (setCol s n ((colAt s n).sealed draw blob)) page).vf = (colAt s page).vf := by
    by_cases h : page = n
    · rw [h, colAt_setCol_same]
      rfl
    · rw [colAt_setCol_other _ _ h]
  simp only [pageOwner, hvf]

theorem length_deviceBlob (s : State) (colony pub : Nat) : (deviceBlob s colony pub).length = 160 := by
  simp only [deviceBlob, List.length_append, leBytes_length, zeros, List.length_replicate]

theorem bytesAt_deviceBlob (s : State) (colony pub : Nat) (r : List Byte) : bytesAt (padTo 3544 (deviceBlob s colony pub ++ r)) 0 4 = 0x44534245 := by
  refine bytesAt_field (v := 0x44534245) ((slice_padTo_append ?_ ?_).trans ?_) rfl (by norm_num)
  · rw [length_deviceBlob]; omega
  · rw [length_deviceBlob]; omega
  · simp only [deviceBlob, List.append_assoc, List.drop_zero]
    exact List.take_left' (leBytes_length ..)

/-- The device after the read of a blob of `n` bytes: the colony's bytes from the host (R190). -/
def blobRead (s : State) (colony n : Nat) : State := modAcct s colony (fun a => { a with hostIn := wrapAdd 64 a.hostIn n })

theorem srcRead_host {s : State} {c : Cmd} {off len : Nat} {blob : List Byte} (h : c.isHost off = true) (hl : blob.length = len) :
    srcRead s c off len (some blob) = .ok (blobRead s c.colony len, blob) := by
  simp only [srcRead, h, if_true, padTo_of_length hl, blobRead]

/-- SEAL_SESSION (R403). -/
theorem sealSession_reports {s : State} {id : Nat} {c : Cmd} (hc : cmdAt s id = some c) (hs : canStart s id c = true) (ha : Alone s id c) (hop : c.op = 0x63)
    {blob : List Byte} (hsrc : c.isHost 24 = true) (hdst : c.isHost 32 = true) (htree : treeReady s = true) (hlen : blob.length = 160)
    (hblob : hostBlobOk blob = true) :
    ∃ t d, exec (.sealSession id (some blob)) s = .next t ∧ Ends s t id 0 0 0 ∧ Reports s t c 32 d ∧ Signs s t ∧ d.length = 3544 ∧
      bytesAt d 0 4 = 0x44534245 ∧ (colAt t c.colony).settled = ((colAt s c.colony).sealed (drawFree s).1 blob).settled ∧ t.free = s.free + 1 := by
  generalize hread : blobRead s c.colony 160 = s0
  obtain ⟨acct, rfl⟩ : ∃ a, s0 = { s with hub := { s.hub with acct := a } } := ⟨_, hread.symm⟩
  generalize hdraw : drawFree { s with hub := { s.hub with acct := acct } } = r
  obtain ⟨hr, hs1⟩ : r.1 = (drawFree s).1 ∧ r.2 = { s with hub := { s.hub with acct := acct }, free := s.free + 1 } := by
    rw [← hdraw]
    exact ⟨rfl, rfl⟩
  generalize hsign : signDevice r.2 = g
  obtain ⟨z, p, l, hg, -, hout⟩ := signDevice_eq r.2
  rw [hsign, hs1] at hg
  rw [hs1] at hout
  generalize hd : padTo 3544 (deviceBlob g.1 c.colony (Config.digest 14 (leBytes 32 r.1)) ++
    signatureBlock g.2 (blob ++ deviceBlob g.1 c.colony (Config.digest 14 (leBytes 32 r.1)))) = d
  obtain ⟨t, hwait, ⟨pp, cc, ff, heq⟩, hends, hcols⟩ := report_ends (s := { s with hub := { s.hub with acct := acct } })
    (u := setCol g.1 c.colony ((colAt g.1 c.colony).sealed r.1 blob)) hc (phase_of_canStart hs) ha
    ⟨s.sec.signed, z, p, _, s.free + 1, _, acct, by rw [hg]; rfl⟩ hdst d 0
  have hx : exec (.sealSession id (some blob)) s = .next t := by
    refine next_congr ((direct_body hc hop hs _).trans ((if_neg ?_).trans ?_))
    · simp only [htree, Bool.not_true, Bool.false_eq_true, not_false_eq_true]
    · simp only [srcRead_host hsrc hlen, hread, hblob, Bool.not_true, Bool.false_eq_true, if_false, hdraw, hsign, hd]
      exact hwait
  refine ⟨t, d, hx, hends, ⟨s.out ++ l, ?_, fun h1 => by rw [hout h1, List.append_nil]⟩, signs_of_sec ((congrArg State.sec heq).trans ?_), ?_, ?_, ?_,
    (congrArg State.free heq).trans ?_⟩
  · have howner : pageOwner (setCol g.1 c.colony ((colAt g.1 c.colony).sealed r.1 blob)) c.page = pageOwner s c.page := by
      rw [pageOwner_setCol_sealed, hg]
      rfl
    have hgout : g.1.out = s.out ++ l := by rw [hg]
    refine (congrArg State.out heq).trans ?_
    show g.1.out ++ [Out.hostWrite (pageOwner (setCol g.1 c.colony ((colAt g.1 c.colony).sealed r.1 blob)) c.page) (c.addr 32) d] = _
    rw [howner, hgout]
  · show g.1.sec = _
    rw [hg]
  · rw [← hd]
    exact length_padTo ..
  · rw [← hd]
    exact bytesAt_deviceBlob ..
  · rw [hcols, colAt_setCol_same, hr, hg]
    rfl
  · show g.1.free = _
    rw [hg]

/- The key vault (R391 to R396). -/

theorem find?_tset_of_none {α : Type} {t : Tbl α} {n : Nat} {x : α} {p : Nat × α → Bool} (ht : t.find? p = none) (hx : p (n, x) = true) :
    (tset t n x).find? p = some (n, x) := by
  induction t with
  | nil => simp [tset, hx]
  | cons e r ih =>
    obtain ⟨k, v⟩ := e
    obtain ⟨hv, hr⟩ : p (k, v) = false ∧ r.find? p = none := by
      rw [List.find?_cons] at ht
      split at ht
      · cases ht
      · next hv => exact ⟨hv, ht⟩
    simp only [tset]
    split
    · simp [hx]
    · split
      · simp [hx]
      · simp [hv, ih hr]

theorem loadingSlot_modSlot {s : State} {id n : Nat} {f : Slot → Slot} (h : loadingSlot s id = none) (hst : (f (slotAt s n)).st = .loading)
    (hcmd : (f (slotAt s n)).cmd = some id) : loadingSlot (modSlot s n f) id = some n := by
  have hnone : s.sec.slots.find? (fun e => e.2.st == .loading && e.2.cmd == some id) = none := Option.map_eq_none_iff.mp h
  have hfind := find?_tset_of_none (n := n) (x := f (slotAt s n)) hnone (by simp [hst, hcmd])
  exact congrArg (Option.map (fun e => e.1)) hfind

/-- Nothing runs under the slot: no colony's memory key, no sealed transfer (R395). -/
structure Unused (s : State) (n : Nat) : Prop where
  cols : ∀ e ∈ s.cols, e.2.keySlot ≠ n
  cmds : ∀ e ∈ s.cmds, (e.2.op = 0x22 ∨ e.2.op = 0x23) → e.2.slot ≠ n

theorem retireUsers_unused {s : State} {n : Nat} (h : Unused s n) : ∃ q, retireUsers s n = { s with sec := { s.sec with squashed := q } } := by
  have hcols : s.cols.foldl (fun t e => if (colAt t e.1).keySlot = n ∧ (colAt t e.1).st ≠ .free ∧ (colAt t e.1).st ≠ .teardown
      then startTeardown t e.1 none else t) s = s := foldl_fixed_of_mem fun e _ => by
    refine if_neg fun hbad => ?_
    obtain hd | ⟨x, hx, hcol⟩ := tget_mem {} s.cols e.1
    · exact hbad.2.1 (congrArg Colony.st hd)
    · exact h.cols x hx ((congrArg Colony.keySlot hcol).trans hbad.1)
  have hcmds : s.cmds.foldl (fun t e => match cmdAt t e.1 with
      | some c => if (c.op = 0x22 ∨ c.op = 0x23) ∧ c.slot = n ∧ (c.phase = .running ∨ c.phase = .killing) then abortCmd t e.1 0x0B else t
      | none => t) s = s := foldl_fixed_of_mem fun e _ => by
    split
    · next c hc => exact if_neg fun hbad => h.cmds _ (mem_of_tfind hc) hbad.1 hbad.2.1
    · rfl
  unfold retireUsers
  dsimp only
  split
  · exact ⟨_, congrArg (fun t : State => { t with sec := { t.sec with squashed := satAdd 32 t.sec.squashed (slotInflight s n - slotInflight t n) } }) hcols⟩
  · exact ⟨_, congrArg (fun t : State => { t with sec := { t.sec with squashed := satAdd 32 t.sec.squashed (slotInflight s n - slotInflight t n) } }) hcmds⟩

theorem refuseCmd_endsAs {s : State} {id : Nat} {c : Cmd} (status detail result : Nat) (hc : cmdAt s id = some c) (hfin : c.finished = false)
    (ha : Alone s id c) : EndsAs s (refuseCmd s id status detail result) id (endedCmd s c.asStarted status detail result) := by
  rw [refuseCmd, modCmd_some _ hc]
  exact endsAs_setCmd (endCmd_endsAs status detail result (cmdAt_setCmd_same ..) hfin ha)

theorem sec_of_endsAs {s t : State} {id : Nat} {k : Cmd} (h : EndsAs s t id k) : t.sec = s.sec := by
  obtain ⟨p, l, f, rfl⟩ := h
  rfl

/-- The slot that a blob is being loaded into (R392, R393). -/
def Slot.loading (k : Slot) (id : Nat) (c : Cmd) (blob : List Byte) (key : BitVec 256) (wrapped ok : Bool) : Slot :=
  { k with
    st := .loading, kind := c.keyKind, tenant := c.keyTenant, key := key, keyid := bytesAt blob 16 16, stores := 0, cmd := some id, wrapped := wrapped
    wrapOk := ok }

theorem slotAt_of_sec {t : State} {z : Security} (h : t.sec = z) (n : Nat) : slotAt t n = tget {} z.slots n := by rw [← h]; rfl

theorem slotAt_modSlot_other (s : State) {n m : Nat} (f : Slot → Slot) (h : m ≠ n) : slotAt (modSlot s n f) m = slotAt s m := tget_tset_other _ _ _ h

section load
variable {s : State} {id : Nat} {c : Cmd} {blob : List Byte} (hc : cmdAt s id = some c) (hs : canStart s id c = true) (hop : c.op = 0x61)
  (hhost : c.isHost 24 = true) (hlen : blob.length = c.byte 32 2) (hnone : loadingSlot s id = none)
include hc hs hop hhost hlen hnone

theorem keyLoad_badBlob (ha : Alone s id c) (hblob : blobOk c blob = false) :
    ∃ t, exec (.keyLoad id (some blob)) s = .next t ∧ Ends s t id 0x0A 0 0 ∧ t.sec = s.sec := by
  have hx : exec (.keyLoad id (some blob)) s = .next (refuseCmd (blobRead s c.colony (c.byte 32 2)) id 0x0A 0 0) := by
    show execKeyLoad id (some blob) s = _
    simp only [execKeyLoad, hnone]
    refine next_congr ((direct_body hc hop hs _).trans ?_)
    simp only [srcRead_host hhost hlen, hblob, Bool.not_false, if_true]
  have hend := refuseCmd_endsAs (s := blobRead s c.colony (c.byte 32 2)) 0x0A 0 0 hc (unfinished_of_canStart hs) ha
  obtain ⟨h1, h2, h3, h4⟩ := ends_of_endsAs hend
  exact ⟨_, hx, ⟨h1, h2, h3, h4⟩, (sec_of_endsAs hend).trans rfl⟩

theorem keyLoad_refused (ha : Alone s id c) (hblob : blobOk c blob = true) (hok : keyLoadOk s c blob = false) :
    ∃ t, exec (.keyLoad id (some blob)) s = .next t ∧ Ends s t id 0x0B 0 0 ∧ t.sec = s.sec := by
  have hok : keyLoadOk (blobRead s c.colony (c.byte 32 2)) c blob = false := hok
  have hx : exec (.keyLoad id (some blob)) s = .next (refuseCmd (blobRead s c.colony (c.byte 32 2)) id 0x0B 0 0) := by
    show execKeyLoad id (some blob) s = _
    simp only [execKeyLoad, hnone]
    refine next_congr ((direct_body hc hop hs _).trans ?_)
    simp only [srcRead_host hhost hlen, hblob, Bool.not_true, Bool.false_eq_true, if_false]
    exact if_pos (by rw [hok]; rfl)
  have hend := refuseCmd_endsAs (s := blobRead s c.colony (c.byte 32 2)) 0x0B 0 0 hc (unfinished_of_canStart hs) ha
  obtain ⟨h1, h2, h3, h4⟩ := ends_of_endsAs hend
  exact ⟨_, hx, ⟨h1, h2, h3, h4⟩, (sec_of_endsAs hend).trans rfl⟩

/-- A KEY_LOAD accepted: its slot is LOADING, under the unwrapped key or a fresh one (R393). -/
theorem keyLoad_loads (hblob : blobOk c blob = true) (hok : keyLoadOk s c blob = true) :
    let n := c.keySlotNo
    let wrapped := decide (bytesAt blob 6 1 = 1)
    ∃ t k, exec (.keyLoad id (some blob)) s = .next t ∧ cmdAt t id = some k ∧ k.phase = .started ∧ k.finished = false ∧ loadingSlot t id = some n ∧
      slotAt t n = (slotAt s n).loading id c blob (if wrapped then (unwrap s blob).1 else BitVec.ofNat 256 (drawFree s).1) wrapped
        (wrapped && (unwrap s blob).2) ∧
      (∀ m, m ≠ n → slotAt t m = slotAt s m) ∧ t.cores = s.cores ∧ t.hbm = s.hbm := by
  intro n wrapped
  have hok : keyLoadOk (blobRead s c.colony (c.byte 32 2)) c blob = true := hok
  generalize hkey : (if wrapped then (unwrap s blob).1 else BitVec.ofNat 256 (drawFree s).1) = key
  obtain ⟨f, hx⟩ : ∃ f, exec (.keyLoad id (some blob)) s = .next (modSlot (waitIn { blobRead s c.colony (c.byte 32 2) with free := f } id) n
      (fun k => k.loading id c blob key wrapped (wrapped && (unwrap s blob).2))) := by
    show ∃ f, execKeyLoad id (some blob) s = _
    simp only [execKeyLoad, hnone]
    rw [direct_body hc hop hs]
    simp only [srcRead_host hhost hlen, hblob, Bool.not_true, Bool.false_eq_true, if_false]
    rw [if_neg (by rw [hok]; decide)]
    by_cases hw : bytesAt blob 6 1 = 1
    · have hwt : wrapped = true := decide_eq_true hw
      rw [hwt, if_pos rfl] at hkey
      simp only [beq_iff_eq.mpr hw, if_true, hwt, Bool.true_and, ← hkey]
      exact ⟨s.free, rfl⟩
    · have hwf : wrapped = false := decide_eq_false hw
      rw [hwf, if_neg Bool.false_ne_true] at hkey
      simp only [beq_eq_false_iff_ne.mpr hw, Bool.false_eq_true, if_false, hwf, Bool.false_and, ← hkey]
      exact ⟨s.free + 1, rfl⟩
  have hwait : waitIn { blobRead s c.colony (c.byte 32 2) with free := f } id =
      setCmd { blobRead s c.colony (c.byte 32 2) with free := f } id { c.asStarted with phase := .started } := modCmd_some _ hc
  rw [hwait] at hx
  exact ⟨_, _, hx, cmdAt_setCmd_same .., rfl, rfl, loadingSlot_modSlot hnone rfl rfl, slotAt_modSlot_same .., fun m hm => slotAt_modSlot_other _ _ hm, rfl, rfl⟩

end load

/-- The second event of a KEY_LOAD whose blob holds (R392). -/
theorem keyLoad_completes {s : State} {n id : Nat} {c : Cmd} (blob : Option (List Byte)) (hserv : serving s = true) (hload : loadingSlot s id = some n)
    (hc : cmdAt s id = some c) (hfin : c.finished = false) (ha : Alone s id c) (hok : (slotAt s n).wrapped = true → (slotAt s n).wrapOk = true) :
    ∃ t, exec (.keyLoad id blob) s = .next t ∧ Ends s t id 0 0 0 ∧
      slotAt t n = { slotAt s n with st := .active, cmd := none, wrapped := false, wrapOk := false } ∧ ∀ m, m ≠ n → slotAt t m = slotAt s m := by
  have hgood : ((slotAt s n).wrapped && !(slotAt s n).wrapOk) = false := by
    cases hw : (slotAt s n).wrapped with
    | true => rw [hok hw]; rfl
    | false => rfl
  obtain ⟨z, hu⟩ : ∃ z, modSlot s n (fun k => { k with st := .active, cmd := none, wrapped := false, wrapOk := false }) = { s with sec := z } := ⟨_, rfl⟩
  have hsame : tget {} z.slots n = { slotAt s n with st := .active, cmd := none, wrapped := false, wrapOk := false } :=
    (congrArg (slotAt · n) hu).symm.trans (slotAt_modSlot_same ..)
  have hother (m : Nat) (hm : m ≠ n) : tget {} z.slots m = slotAt s m := (congrArg (slotAt · m) hu).symm.trans (slotAt_modSlot_other _ _ hm)
  have hx : exec (.keyLoad id blob) s = .next (completeOk { s with sec := z } id 0) := by
    show execKeyLoad id blob s = _
    simp only [execKeyLoad, hload]
    refine next_congr ((if_pos hserv).trans ?_)
    simp only [endLoad, hgood, hc, Option.any_some, hfin, Bool.not_false, Bool.false_eq_true, if_false, if_true, hu]
  have hend := completeOk_endsAs (s := { s with sec := z }) 0 hc hfin ha
  obtain ⟨h1, h2, h3, h4⟩ := ends_of_endsAs hend
  have hsec := sec_of_endsAs hend
  exact ⟨_, hx, ⟨h1, h2, h3, h4⟩, (slotAt_of_sec hsec n).trans hsame,
    fun m hm => (slotAt_of_sec hsec m).trans (hother m hm)⟩

/-- The second event of a KEY_LOAD whose tag fails: the slot is EMPTY again (R392, R415). -/
theorem keyLoad_fails {s : State} {n id : Nat} {c : Cmd} (blob : Option (List Byte)) (hserv : serving s = true) (hload : loadingSlot s id = some n)
    (hc : cmdAt s id = some c) (hfin : c.finished = false) (ha : Alone s id c) (hw : (slotAt s n).wrapped = true) (hbad : (slotAt s n).wrapOk = false)
    (hjob : c.job = 0) :
    ∃ t k, exec (.keyLoad id blob) s = .next t ∧ cmdAt t id = some k ∧ k.phase = .done ∧ k.status = 0x05 ∧
      slotAt t n = { assign := (slotAt s n).assign } ∧ ∀ m, m ≠ n → slotAt t m = slotAt s m := by
  obtain ⟨z, hu⟩ : ∃ z, modSlot s n emptySlot = { s with sec := z } := ⟨_, rfl⟩
  have hsame : tget {} z.slots n = { assign := (slotAt s n).assign } := (congrArg (slotAt · n) hu).symm.trans (slotAt_modSlot_same ..)
  have hother (m : Nat) (hm : m ≠ n) : tget {} z.slots m = slotAt s m := (congrArg (slotAt · m) hu).symm.trans (slotAt_modSlot_other _ _ hm)
  have hx : exec (.keyLoad id blob) s = .next (bonorFault { s with sec := z } id 0x04 0x05 0) := by
    show execKeyLoad id blob s = _
    simp only [execKeyLoad, hload]
    refine next_congr ((if_pos hserv).trans ?_)
    simp only [endLoad, hw, hbad, hc, Option.any_some, hfin, Bool.not_false, Bool.and_self, if_true, hu]
  obtain ⟨r, hfault⟩ : ∃ r, bonorFault { s with sec := z } id 0x04 0x05 0 =
      endCmd (modCmd (recordFault { s with sec := z } r).1 id (fun x => { x with faultId := (recordFault { s with sec := z } r).2 })) id 0x05 0 0 := by
    have hc' : cmdAt { s with sec := z } id = some c := hc
    simp only [bonorFault, hc', raiseAbort, hjob, if_true]
    exact ⟨_, rfl⟩
  obtain ⟨g, p, l, hrec⟩ := onlyReports_recordFault { s with sec := z } r
  generalize (recordFault { s with sec := z } r).2 = i at hfault
  rw [hrec, modCmd_some _ (show cmdAt { s with sec := z, flt := g, pcie := p, out := s.out ++ l } id = some c from hc)] at hfault
  have hend := endCmd_endsAs (s := setCmd { s with sec := z, flt := g, pcie := p, out := s.out ++ l } id { c with faultId := i })
    (c := { c with faultId := i }) 0x05 0 0 (cmdAt_setCmd_same ..) hfin ha
  obtain ⟨⟨k, hk, hdone, hstat, -⟩, -⟩ := ends_of_endsAs hend
  have hsec := sec_of_endsAs hend
  rw [← hfault] at hk hsec
  exact ⟨_, k, hx, hk, hdone, hstat, (slotAt_of_sec hsec n).trans hsame,
    fun m hm => (slotAt_of_sec hsec m).trans (hother m hm)⟩

/-- KEY_RETIRE of a slot that nothing uses (R395). -/
theorem keyRetire_retires {s : State} {id : Nat} {c : Cmd} (hno : NoTeardown s) (hc : cmdAt s id = some c) (hs : canStart s id c = true) (hop : c.op = 0x62)
    (hst : (slotAt s c.keySlotNo).st = .active) (hkind : (slotAt s c.keySlotNo).kind = c.keyKind)
    (hvf : vfSlotOk s c (slotAt s c.keySlotNo).kind (slotAt s c.keySlotNo).tenant = true) (hfree : Unused s c.keySlotNo) :
    ∃ t k, exec (.keyRetire id) s = .next t ∧ slotAt t c.keySlotNo = { slotAt s c.keySlotNo with st := .retiring, cmd := some id } ∧
      (∀ m, m ≠ c.keySlotNo → slotAt t m = slotAt s m) ∧ cmdAt t id = some k ∧ k.phase = .started ∧
      (∀ j, j ≠ id → cmdAt t j = cmdAt s j) ∧ t.cores = s.cores ∧ t.hbm = s.hbm := by
  have hgood : ((slotAt s c.keySlotNo).st != .active || (slotAt s c.keySlotNo).kind != c.keyKind ||
      !vfSlotOk s c (slotAt s c.keySlotNo).kind (slotAt s c.keySlotNo).tenant) = false := by
    rw [hvf, hst, hkind]
    simp
  obtain ⟨cmds, hcmds⟩ : ∃ l, l = tset s.cmds id { c.asStarted with phase := .started } := ⟨_, rfl⟩
  have hwait : waitIn s id = { s with cmds := cmds } := by
    rw [hcmds]
    exact modCmd_some _ hc
  generalize hu : modSlot { s with cmds := cmds } c.keySlotNo (fun x => { x with st := .retiring, cmd := some id }) = u
  obtain ⟨z, rfl⟩ : ∃ z, u = { s with cmds := cmds, sec := z } := ⟨_, hu.symm⟩
  have hsame : tget {} z.slots c.keySlotNo = { slotAt s c.keySlotNo with st := .retiring, cmd := some id } :=
    (congrArg (slotAt · c.keySlotNo) hu).symm.trans (slotAt_modSlot_same ..)
  have hother (m : Nat) (hm : m ≠ c.keySlotNo) : tget {} z.slots m = slotAt s m :=
    (congrArg (slotAt · m) hu).symm.trans (slotAt_modSlot_other _ _ hm)
  have hunused : Unused { s with cmds := cmds, sec := z } c.keySlotNo := by
    refine ⟨hfree.cols, fun e he hseal => ?_⟩
    have he : e ∈ cmds := he
    rw [hcmds] at he
    rcases mem_tset he with rfl | he
    · have hop' : c.op = 0x22 ∨ c.op = 0x23 := hseal
      omega
    · exact hfree.cmds e he hseal
  obtain ⟨q, hret⟩ := retireUsers_unused hunused
  have hx : exec (.keyRetire id) s = .next { s with cmds := cmds, sec := { z with squashed := q } } := by
    refine next_congr ((direct_body hc hop hs _).trans ?_)
    simp only [hgood, hwait, hu, hret, Bool.false_eq_true, if_false]
    exact settleColonies_idle (noTeardown_congr (s := s) rfl hno)
  refine ⟨_, { c.asStarted with phase := .started }, hx, hsame, hother, ?_, rfl, fun j hj => ?_, rfl, rfl⟩
  · rw [hcmds]
    exact tfind_tset_same ..
  · rw [hcmds]
    exact tfind_tset_other _ _ hj

theorem keyRetire_refused {s : State} {id : Nat} {c : Cmd} (hc : cmdAt s id = some c) (hs : canStart s id c = true) (ha : Alone s id c) (hop : c.op = 0x62)
    (hst : (slotAt s c.keySlotNo).st ≠ .active) : ∃ t, exec (.keyRetire id) s = .next t ∧ Ends s t id 0x0B 0 0 ∧ t.sec = s.sec := by
  have hend := refuseCmd_endsAs 0x0B 0 0 hc (unfinished_of_canStart hs) ha
  refine ⟨_, next_congr ((direct_body hc hop hs _).trans (if_pos ?_)), ends_of_endsAs hend, sec_of_endsAs hend⟩
  simp only [bne_iff_ne.mpr hst, Bool.true_or]

/-- The zeroise of a retiring slot completes its KEY_RETIRE (R395). -/
theorem keyZeroise_completes {s : State} {n id : Nat} {c : Cmd} (hserv : serving s = true) (hst : (slotAt s n).st = .retiring)
    (hin : slotInflight s n = 0) (hcmd : (slotAt s n).cmd = some id) (hc : cmdAt s id = some c) (hfin : c.finished = false) (ha : Alone s id c) :
    ∃ t, exec (.keyZeroise n) s = .next t ∧ Ends s t id 0 0 0 ∧ slotAt t n = { assign := (slotAt s n).assign } ∧ ∀ m, m ≠ n → slotAt t m = slotAt s m := by
  obtain ⟨z, hu⟩ : ∃ z, modSlot s n emptySlot = { s with sec := z } := ⟨_, rfl⟩
  have hsame : tget {} z.slots n = { assign := (slotAt s n).assign } := (congrArg (slotAt · n) hu).symm.trans (slotAt_modSlot_same ..)
  have hother (m : Nat) (hm : m ≠ n) : tget {} z.slots m = slotAt s m := (congrArg (slotAt · m) hu).symm.trans (slotAt_modSlot_other _ _ hm)
  have hx : exec (.keyZeroise n) s = .next (completeOk { s with sec := z } id 0) := by
    refine (if_neg ?_).trans (next_congr ?_)
    · simp only [hserv, hst, hin]; decide
    · simp only [hcmd, hu]
  have hend := completeOk_endsAs (s := { s with sec := z }) 0 hc hfin ha
  obtain ⟨h1, h2, h3, h4⟩ := ends_of_endsAs hend
  have hsec := sec_of_endsAs hend
  exact ⟨_, hx, ⟨h1, h2, h3, h4⟩, (slotAt_of_sec hsec n).trans hsame,
    fun m hm => (slotAt_of_sec hsec m).trans (hother m hm)⟩

theorem unused_congr {s t : State} {n : Nat} (hcols : t.cols = s.cols) (hcmds : t.cmds = s.cmds) (h : Unused s n) : Unused t n :=
  ⟨fun e he => h.cols e (hcols ▸ he), fun e he => h.cmds e (hcmds ▸ he)⟩

/-- A slot's failure is recorded, and the slot fails (R391, R415). -/
theorem fenceFault_slot (s : State) (cause n : Nat) : ∃ g p l, fenceFault s cause (.slot n) 0 0 =
    { s with sec := (failSlot s n).sec, flt := g, pcie := p, out := l } := by
  unfold fenceFault
  dsimp only
  generalize nameUnit s _ _ = r
  obtain ⟨g, p, l, hrec⟩ := onlyReports_recordFault s r
  generalize (recordFault s r).2 = i
  rw [hrec]
  cases i with
  | none => exact ⟨_, _, _, rfl⟩
  | some i =>
    unfold fenceUnit modRec
    dsimp only
    split <;> exact ⟨_, _, _, rfl⟩

/-- A slot that fails its check: a spare takes over, or the slot is FAILED (R391). -/
theorem keySlotCheckFail_acts {s : State} {n : Nat} (hno : NoTeardown s) (hclk : clocked s = true) (hn : n < 128) (hst : (slotAt s n).st ≠ .failed) :
    (0 < s.sec.spares → ∃ t, exec (.keySlotCheckFail n) s = .next t ∧ t.sec = { s.sec with spares := s.sec.spares - 1 } ∧
      t.cmds = s.cmds ∧ t.cols = s.cols) ∧
    (s.sec.spares = 0 → Unused s n → (slotAt s n).cmd = none →
      ∃ t, exec (.keySlotCheckFail n) s = .next t ∧ slotAt t n = { slotAt s n with st := .failed, key := 0 } ∧
        (∀ m, m ≠ n → slotAt t m = slotAt s m) ∧ t.cmds = s.cmds ∧ t.hbm = s.hbm) := by
  have hgo : ¬ (!clocked s || decide (128 ≤ n) || (slotAt s n).st == .failed) = true := by
    rw [hclk, decide_eq_false (by omega), beq_eq_false_iff_ne.mpr hst]
    decide
  refine ⟨fun hspare => ?_, fun hspare hfree hcmd => ?_⟩
  · obtain ⟨g, p, l, hrep⟩ := onlyReports_recordFault { s with sec := { s.sec with spares := s.sec.spares - 1 } } (blankRec 0x24 0 (.slot n) 0)
    exact ⟨_, (if_neg hgo).trans (if_pos hspare), (congrArg State.sec hrep :), (congrArg State.cmds hrep :), (congrArg State.cols hrep :)⟩
  · obtain ⟨g, p, l, hz⟩ := fenceFault_slot s 0x24 n
    generalize hfail : (failSlot s n).sec = z at hz
    have hsame : tget {} z.slots n = { slotAt s n with st := .failed, key := 0 } :=
      (slotAt_of_sec hfail n).symm.trans (slotAt_modSlot_same s n _)
    have hother (m : Nat) (hm : m ≠ n) : tget {} z.slots m = slotAt s m :=
      (slotAt_of_sec hfail m).symm.trans (slotAt_modSlot_other s _ hm)
    obtain ⟨q, hret⟩ := retireUsers_unused (unused_congr (s := s) (t := { s with sec := z, flt := g, pcie := p, out := l }) rfl rfl hfree)
    obtain ⟨q', hq⟩ : ∃ q, (if (slotAt s n).st = .active then retireUsers { s with sec := z, flt := g, pcie := p, out := l } n
        else { s with sec := z, flt := g, pcie := p, out := l }) = { s with sec := { z with squashed := q }, flt := g, pcie := p, out := l } := by
      split
      · exact ⟨q, hret⟩
      · exact ⟨z.squashed, rfl⟩
    have hx : exec (.keySlotCheckFail n) s = .next { s with sec := { z with squashed := q' }, flt := g, pcie := p, out := l } := by
      refine (if_neg hgo).trans ((if_neg (by omega)).trans (next_congr ?_))
      simp only [hcmd, hz, hq]
      exact settleColonies_idle (noTeardown_congr (s := s) rfl hno)
    exact ⟨_, hx, hsame, hother, rfl, rfl⟩

/-- Settles O49: each command where it may start, and each event of the vault. -/
theorem keysAndEvidence : Obligations.KeysAndEvidence := by
  intro s hno free reports signs
  refine ⟨fun id c hc hs ha => ?_, fun n id c blob hserv hload hc hfin ha => ?_, fun n id c hserv hst hin hcmd hc hfin ha =>
    keyZeroise_completes hserv hst hin hcmd hc hfin ha, fun n hclk hn hst => ?_⟩
  · intro n
    refine ⟨fun hop hhost htree hleft hpkt => attest_reports hc hs ha hop hhost htree hleft hpkt, fun blob hop hhost hlen hnone => ?_,
      fun hop hst hkind hvf hfree => keyRetire_retires hno hc hs hop hst hkind hvf ⟨hfree.1, hfree.2⟩, fun hop hst => keyRetire_refused hc hs ha hop hst,
      fun blob hop hsrc hdst htree hlen hblob => ?_⟩
    · exact ⟨keyLoad_badBlob hc hs hop hhost hlen hnone ha, keyLoad_refused hc hs hop hhost hlen hnone ha, keyLoad_loads hc hs hop hhost hlen hnone⟩
    · obtain ⟨t, d, hx, hends, hrep, hsign, hdlen, hmagic, hcol, hf⟩ := sealSession_reports hc hs ha hop hsrc hdst htree hlen hblob
      exact ⟨t, d, hx, hends, hrep, hsign, hdlen, hmagic, (congrArg Colony.sealSess hcol :), (congrArg Colony.sealKey hcol :),
        (congrArg Colony.sealKeyOut hcol :), hf⟩
  · exact ⟨fun hok => keyLoad_completes blob hserv hload hc hfin ha hok, fun hw hbad hjob => keyLoad_fails blob hserv hload hc hfin ha hw hbad hjob⟩
  · obtain ⟨hspare, hfail⟩ := keySlotCheckFail_acts hno hclk hn hst
    exact ⟨hspare, fun h0 hfree hcmd => hfail h0 ⟨hfree.1, hfree.2⟩ hcmd⟩

end Sys2Proof.Machine
end
section
/-! PROOFS. What the coherent domain's own traffic leaves of the device (R272 to R282). -/

namespace Sys2Proof.Machine

/- The caches, the directories, HBM, the armed injections and the written-line bits of shadow frames move; nothing else does. -/

/-- The device but for its cached lines, its directories and HBM: each core without its data cache, each channel's mode, each
command without its shadow frames, and the rest. -/
def offLine (s : State) : State × (Nat → Core) × (Nat → ChanMode) × (Nat → Option Cmd) :=
  ({ s with
      free := 0, cores := [], cmds := [], chans := [], hbm := [], flt := { s.flt with armed := [] }
      hub := { s.hub with ctrlLines := [], engines := [], urgSeen := false } },
    fun m => { coreAt s m with dc := [] }, fun ch => (chanAt s ch).mode, fun i => (cmdAt s i).map Cmd.withoutShadows)

@[simp] theorem mode_dirPut (c : Channel) (e : DirEntry) : (dirPut c e).mode = c.mode := rfl
@[simp] theorem mode_dirDel (c : Channel) (off : Nat) : (dirDel c off).mode = c.mode := rfl
@[simp] theorem mode_noteBitmap (c : Channel) (block : Nat) : (noteBitmap c block).mode = c.mode := by
  have h (l : List Nat) : ({ c with bitmapCache := l } : Channel).mode = c.mode := rfl
  exact h _
@[simp] theorem mode_sliceDrop (c : Channel) (off : Nat) : (sliceDrop c off).mode = c.mode := rfl
@[simp] theorem mode_clearBad (c : Channel) (off : Nat) : (clearBad c off).mode = c.mode := by
  unfold clearBad
  dsimp only
  split <;> rfl
@[simp] theorem mode_promote (c : Channel) : (promote c).mode = c.mode := by
  unfold promote
  split
  · rfl
  · dsimp only
    split <;> rfl

theorem offLine_setChan {s : State} {n : Nat} {c : Channel} (h : c.mode = (chanAt s n).mode) : offLine (setChan s n c) = offLine s := by
  refine Prod.ext rfl (Prod.ext rfl (Prod.ext (funext fun ch => ?_) rfl))
  show (chanAt (setChan s n c) ch).mode = (chanAt s ch).mode
  by_cases hch : ch = n
  · rw [hch, chanAt_setChan_same, h]
  · rw [chanAt_setChan_other _ _ hch]

/-- A change of a channel that leaves its mode. -/
def KeepsMode (f : Channel → Channel) : Prop := ∀ c, (f c).mode = c.mode

@[simp] theorem keepsMode_iff (f : Channel → Channel) : KeepsMode f ↔ ∀ c, (f c).mode = c.mode := Iff.rfl

@[simp] theorem offLine_modChan {s : State} {n : Nat} {f : Channel → Channel} (h : KeepsMode f) : offLine (modChan s n f) = offLine s :=
  offLine_setChan (h _)

@[simp] theorem offLine_drawFree (s : State) : offLine (drawFree s).2 = offLine s := rfl
@[simp] theorem offLine_unNack (s : State) (agent ch off : Nat) : offLine (unNack s agent ch off) = offLine s := offLine_modChan fun _ => rfl
@[simp] theorem offLine_nack (s : State) (agent ch off : Nat) (kind : ReqKind) (data : List Byte) : offLine (nack s agent ch off kind data) = offLine s :=
  offLine_modChan fun _ => rfl

@[simp] theorem offLine_setCache (s : State) (agent : Nat) (l : List CacheLine) : offLine (setCache s agent l) = offLine s := by
  unfold setCache
  split
  · refine Prod.ext rfl (Prod.ext (funext fun m => ?_) rfl)
    show { coreAt (modCore s agent fun c => { c with dc := l }) m with dc := [] } = { coreAt s m with dc := [] }
    by_cases h : m = agent
    · rw [h, coreAt_modCore_same]
    · rw [coreAt_modCore_other s _ h]
  · split <;> rfl

@[simp] theorem offLine_markWritten (s : State) (fa : Nat) : offLine (markWritten s fa) = offLine s := by
  refine Prod.ext rfl (Prod.ext rfl (Prod.ext rfl (funext fun i => ?_)))
  show (cmdAt (markWritten s fa) i).map Cmd.withoutShadows = _
  rw [cmdAt_markWritten, Option.map_map]
  rfl

@[simp] theorem offLine_writeLine (s : State) (fa : Nat) (data : List Byte) : offLine (writeLine s fa data) = offLine s := by
  have hclear : offLine (modChan { s with hbm := mwrite s.hbm (hbmKey (channelOf fa) (chanOff (lineBase fa))) (padTo 64 data) } (channelOf fa)
      (fun c => clearBad c (chanOff (lineBase fa)))) = offLine s := offLine_modChan fun _ => mode_clearBad ..
  simp only [writeLine, offLine_markWritten]
  split
  · refine (offLine_modChan fun _ => ?_).trans ((?_ : _ = _).trans hclear) <;> rfl
  · exact hclear

@[simp] theorem offLine_sliceTouch (s : State) (cls ch off : Nat) (dirty : Bool) : offLine (sliceTouch s cls ch off dirty) = offLine s := by
  unfold sliceTouch
  dsimp only
  refine (offLine_modChan fun c => ?_).trans ?_
  · split
    · simp only [apply_ite Channel.mode, mode_noteBitmap, ite_self]
    · simp only [apply_ite Channel.mode, mode_noteBitmap, ite_self]
  · split <;> rfl

@[simp] theorem offLine_homeWrite (s : State) (cls ch off : Nat) (data : List Byte) : offLine (homeWrite s cls ch off data) = offLine s := by
  simp only [homeWrite]
  split <;> simp

@[simp] theorem offLine_evictLine (s : State) (agent : Nat) (v : CacheLine) : offLine (evictLine s agent v) = offLine s := by
  simp only [evictLine]
  repeat' split
  all_goals simp

@[simp] theorem offLine_fillCache (s : State) (agent ch off : Nat) (mode : CacheMode) (data : List Byte) :
    offLine (fillCache s agent ch off mode data) = offLine s := by
  simp only [fillCache, offLine_setCache]
  repeat' split
  all_goals simp

@[simp] theorem offLine_grantHome (s : State) (agent ch off : Nat) (e : DirEntry) (mode : CacheMode) :
    offLine (grantHome s agent ch off e mode) = offLine s := by
  simp only [grantHome]
  repeat' split
  all_goals simp

@[simp] theorem offLine_grantOwned (s : State) (agent ch off : Nat) (kind : ReqKind) : offLine (grantOwned s agent ch off kind) = offLine s := by
  simp only [grantOwned]
  split <;> simp

@[simp] theorem offLine_serveNcr (s : State) (agent ch off : Nat) : offLine (serveNcr s agent ch off) = offLine s := by simp [serveNcr]

@[simp] theorem offLine_serveUncached (s : State) (agent ch off : Nat) (kind : ReqKind) (data : List Byte) :
    offLine (serveUncached s agent ch off kind data) = offLine s := by
  cases kind <;> simp [serveUncached]

@[simp] theorem offLine_beginRecall (s : State) (ch : Nat) (e : DirEntry) : offLine (beginRecall s ch e) = offLine s := by
  simp only [beginRecall]
  repeat' split
  all_goals simp

@[simp] theorem offLine_dirServe (s : State) (agent ch off : Nat) (kind : ReqKind) (data : List Byte) :
    offLine (dirServe s agent ch off kind data) = offLine s := by
  simp only [dirServe]
  repeat' split
  all_goals simp

@[simp] theorem offLine_dirRequest (s : State) (agent ch off : Nat) (kind : ReqKind) (data : List Byte) :
    offLine (dirRequest s agent ch off kind data) = offLine s := by
  simp only [dirRequest]
  split <;> simp

@[simp] theorem offLine_serveOne (ch : Nat) (s : State) (n : Nacked) : offLine (serveOne ch s n) = offLine s := by
  simp only [serveOne]
  repeat' split
  all_goals simp

@[simp] theorem offLine_serveReserved (s : State) (ch : Nat) : offLine (serveReserved s ch) = offLine s :=
  foldl_keeps offLine _ (fun t x => offLine_serveOne ch t x) _ _

@[simp] theorem offLine_endInvalidating (s : State) (ch : Nat) (e : DirEntry) : offLine (endInvalidating s ch e) = offLine s := by
  simp only [endInvalidating, offLine_serveReserved]
  repeat' split
  all_goals simp

@[simp] theorem offLine_leaveShared (s : State) (ch : Nat) (e : DirEntry) : offLine (leaveShared s ch e) = offLine s :=
  offLine_modChan fun c => by split <;> rfl

@[simp] theorem offLine_endForwarding (s : State) (ch : Nat) (e : DirEntry) (dirty : List Byte) : offLine (endForwarding s ch e dirty) = offLine s := by
  simp only [endForwarding, offLine_serveReserved]
  repeat' split
  all_goals simp

@[simp] theorem offLine_endRecall (s : State) (ch : Nat) (e : DirEntry) : offLine (endRecall s ch e) = offLine s := by
  simp only [endRecall, offLine_serveReserved]
  split <;> simp

@[simp] theorem offLine_ackFrom (s : State) (ch off agent : Nat) : offLine (ackFrom s ch off agent) = offLine s := by
  simp only [ackFrom]
  repeat' split
  all_goals simp

@[simp] theorem offLine_dropLine (s : State) (agent ch off : Nat) : offLine (dropLine s agent ch off) = offLine s := by
  simp only [dropLine]
  repeat' split
  all_goals simp

@[simp] theorem offLine_invalidateLine (s : State) (agent ch off : Nat) : offLine (invalidateLine s agent ch off) = offLine s := by
  simp only [invalidateLine]
  repeat' split
  all_goals simp

theorem mode_tget_map {f : Channel → Channel} (h : ∀ c, (f c).mode = c.mode) (t : Tbl Channel) (n : Nat) :
    (tget {} (t.map (fun e => (e.1, f e.2))) n).mode = (tget {} t n).mode := by
  induction t with
  | nil => rfl
  | cons e r ih =>
    simp only [List.map_cons, tget]
    split
    · exact h _
    · exact ih

@[simp] theorem offLine_cancelRequests (s : State) (agent : Nat) : offLine (cancelRequests s agent) = offLine s := by
  refine Prod.ext rfl (Prod.ext rfl (Prod.ext (funext fun ch => ?_) rfl))
  exact mode_tget_map (f := fun c => { c with
    nacked := c.nacked.filter (fun n => n.agent != agent)
    dir := c.dir.map (fun d => if d.st.transient && d.pendAgent == agent then { d with pendAgent := 1023, pendStamp := {} } else d) })
    (fun _ => rfl) s.chans ch

@[simp] theorem offLine_killCache (s : State) (agent : Nat) : offLine (killCache s agent) = offLine s := by
  simp only [killCache, offLine_setCache, eachLine]
  refine (foldl_keeps offLine _ (fun t l => ?_) _ _).trans (offLine_cancelRequests s agent)
  split <;> simp

/- The sweeps of a fenced agent (R280). -/

@[simp] theorem offLine_sweepChannel (agent : Nat) (s : State) (ch : Nat) : offLine (sweepChannel agent s ch) = offLine s := by
  unfold sweepChannel
  dsimp only
  refine (foldl_keeps offLine _ (fun t e => ?_) _ _).trans (offLine_setChan rfl)
  repeat' split
  all_goals simp

/-- The account of a sweep (R283). -/
def swept (s : State) (agent : Nat) : State :=
  modHub s (fun h => { h with sextonAgent := agent, sextonLost := (lostLines s agent).length % 2 ^ 16, sextonSweeps := satInc 16 h.sextonSweeps })

theorem offLine_sexton (s : State) (agent : Nat) : offLine (sexton s agent) = offLine (swept s agent) := by
  have hsweep : offLine (setCache ((s.chans.map (fun e => e.1)).foldl (sweepChannel agent) s) agent []) = offLine s :=
    (offLine_setCache ..).trans (foldl_keeps offLine _ (fun t ch => offLine_sweepChannel agent t ch) _ _)
  unfold sexton swept
  dsimp only
  generalize setCache _ agent [] = t at hsweep ⊢
  obtain ⟨hst, hrest⟩ := Prod.mk.inj hsweep
  refine Prod.ext ?_ hrest
  exact congrArg (fun v : State => modHub v (fun h => { h with
    sextonAgent := agent, sextonLost := (lostLines s agent).length % 2 ^ 16, sextonSweeps := satInc 16 h.sextonSweeps })) hst

/- Lines of the diagnostic area (R422). -/

@[simp] theorem offLine_diagLine (s : State) (colony va : Nat) (data : List Byte) : offLine (diagLine s colony va data) = offLine s := by
  unfold diagLine
  dsimp only
  split
  · exact offLine_dirRequest ..
  · rfl

@[simp] theorem offLine_diagLines (colony : Nat) (k : Nat) (s : State) (va : Nat) (data : List Byte) :
    offLine (diagLines s colony va k data) = offLine s := by
  induction k generalizing s va data with
  | zero => rfl
  | succ k ih => exact (ih ..).trans (offLine_diagLine ..)

end Sys2Proof.Machine
end
section
/-! PROOFS. What a kill, an abort or a fence leaves of the rest of the device (R155, R156, R175, R336, R363, R417). -/

namespace Sys2Proof.Machine

/- What stays: the fenced cores, the channels' modes, the ports but for their queues and requests, the fault records but for
those of a command, and every part of State that no command's end touches. -/

/-- Whether a core is fenced, and whether a spare tile may take its place (R35). -/
def Core.fence (c : Core) : Option Bool := if c.st = .fenced then some c.replacePending else none

/-- A port without its transmitter and its requests. -/
def Port.steady (p : Port) : Port := { p.quiet with heldTags := [], want := none, reqs := [], drain := [] }

/-- A record without its waiters and what a sweep adds to it; the state of a record of severity COMMAND follows its command (R410). -/
def FaultRec.steady (r : FaultRec) : FaultRec :=
  { r with waiters := [], diag := 0, lost := 0, addr := 0, addrKind := 0, st := if r.severity = 1 then .closed else r.st }

/-- What a colony is: its state, the function that drives it, and how far its reset or teardown has come. -/
def Colony.kind (c : Colony) : ColState × Nat × SeqStage × List Nat := (c.st, c.vf, c.stage, c.awaiting)

/-- What a command's end does not touch. -/
def frame (s : State) : State × (Nat → Option Bool) × (Nat → ChanMode) × (Nat → Port) × (Nat → Option FaultRec) :=
  ({ s with
      free := 0, out := [], cores := [], signals := [], cmds := [], cols := [], chans := [], hbm := [], ports := [], fab := {}
      zlt := { s.zlt with bseqs := [] }, flt := { s.flt with recs := [], armed := [] }
      hub := { s.hub with acct := [], engines := [], ctrlLines := [], finished := 0, urgSeen := false, sextonAgent := 0, sextonLost := 0, sextonSweeps := 0 } },
    fun m => (coreAt s m).fence, fun ch => (chanAt s ch).mode, fun n => (portAt s n).steady, fun i => (tfind s.flt.recs i).map FaultRec.steady)

/-- Work stops: the frame stays, no colony goes into reset or teardown, what is done stays done, and the fabric and the groups
aborted are as they were. -/
structure Stops (s t : State) : Prop where
  frame : frame t = frame s
  calm : NoTeardown s → NoTeardown t
  done : ∀ i k, cmdAt s i = some k → k.phase = .done → ∃ k', cmdAt t i = some k' ∧ k'.phase = .done ∧ k'.status = k.status
  fab : t.fab = s.fab
  aborted : ∀ n, (colAt t n).aborted = (colAt s n).aborted
  kind : ∀ n, (colAt t n).kind = (colAt s n).kind

theorem Stops.refl (s : State) : Stops s s := ⟨rfl, id, fun _ k hk hd => ⟨k, hk, hd, rfl⟩, rfl, fun _ => rfl, fun _ => rfl⟩

theorem Stops.trans {s t u : State} (h : Stops s t) (h' : Stops t u) : Stops s u := by
  refine ⟨h'.frame.trans h.frame, fun hs => h'.calm (h.calm hs), fun i k hk hd => ?_, h'.fab.trans h.fab, fun n => (h'.aborted n).trans (h.aborted n),
    fun n => (h'.kind n).trans (h.kind n)⟩
  obtain ⟨k', hk', hd', hst⟩ := h.done i k hk hd
  obtain ⟨k'', hk'', hd'', hst'⟩ := h'.done i k' hk' hd'
  exact ⟨k'', hk'', hd'', hst'.trans hst⟩

theorem stops_foldl {α : Type} {f : State → α → State} (hf : ∀ t x, Stops t (f t x)) (l : List α) (s : State) : Stops s (l.foldl f s) := by
  induction l generalizing s with
  | nil => exact Stops.refl s
  | cons x l ih => exact (hf s x).trans (ih _)

/-- Where neither the commands nor the colonies change, the frame says it all. -/
theorem stops_of_frame {s t : State} (h : frame t = frame s) (hcols : t.cols = s.cols) (hcmds : t.cmds = s.cmds) (hfab : t.fab = s.fab) : Stops s t := by
  refine ⟨h, noTeardown_congr hcols, fun i k hk hd => ⟨k, ?_, hd, rfl⟩, hfab, fun n => ?_, fun n => ?_⟩
  · rw [cmdAt, hcmds]
    exact hk
  · rw [colAt, hcols, colAt]
  · rw [colAt, hcols, colAt]

/- A command's own entry. -/

theorem stops_setCmd {s : State} {id : Nat} {k : Cmd} (h : ∀ c, cmdAt s id = some c → c.phase = .done → k.phase = .done ∧ k.status = c.status) :
    Stops s (setCmd s id k) := by
  refine ⟨rfl, fun hs => hs, fun i c hc hd => ?_, rfl, fun _ => rfl, fun _ => rfl⟩
  by_cases hi : i = id
  · subst hi
    obtain ⟨hk, hst⟩ := h c hc hd
    exact ⟨k, cmdAt_setCmd_same .., hk, hst⟩
  · exact ⟨c, (cmdAt_setCmd_other _ _ hi).trans hc, hd, rfl⟩

theorem stops_modCmd {s : State} {id : Nat} {f : Cmd → Cmd} (h : ∀ c, (f c).phase = c.phase ∧ (f c).status = c.status) : Stops s (modCmd s id f) := by
  unfold modCmd
  split
  · next c hc =>
    refine stops_setCmd fun c' hc' hd => ?_
    obtain rfl : c = c' := Option.some.inj (hc.symm.trans hc')
    exact ⟨(h c).1.trans hd, (h c).2⟩
  · exact Stops.refl s

/- A colony's counts, and who is stalled (R197, R303). -/

theorem stops_modCol {s : State} {n : Nat} {f : Colony → Colony} (h : ∀ c, (f c).kind = c.kind ∧ (f c).aborted = c.aborted) : Stops s (modCol s n f) := by
  refine ⟨rfl, noTeardown_setCol (congrArg Prod.fst (h _).1), fun i k hk hd => ⟨k, hk, hd, rfl⟩, rfl, fun m => ?_, fun m => ?_⟩
  · by_cases hm : m = n
    · rw [hm, colAt_modCol_same, (h _).2]
    · exact congrArg Colony.aborted (colAt_setCol_other s _ hm)
  · by_cases hm : m = n
    · rw [hm, colAt_modCol_same, (h _).1]
    · exact congrArg Colony.kind (colAt_setCol_other s _ hm)

theorem stops_inflightDec (s : State) (colony instar : Nat) : Stops s (inflightDec s colony instar) :=
  stops_modCol fun c => by split <;> exact ⟨rfl, rfl⟩

theorem stops_finishReqs (s : State) (l : List FabReq) : Stops s (finishReqs s l) := stops_foldl (fun t _ => stops_inflightDec t _ _) l s

/-- A record without some of its waiters (R301). -/
def FaultRec.unwaited (agent : Nat) (r : FaultRec) : FaultRec :=
  if r.xlt && r.st == .opened then { r with waiters := r.waiters.filter (fun a => a != agent) } else r

theorem steady_unwaited (agent : Nat) (r : FaultRec) : (r.unwaited agent).steady = r.steady := by
  unfold FaultRec.unwaited
  split <;> rfl

theorem stops_leaveWaiters (s : State) (agent : Nat) : Stops s (leaveWaiters s agent) := by
  have hrecs : (leaveWaiters s agent).flt.recs = s.flt.recs.map (fun e => (e.1, e.2.unwaited agent)) :=
    List.map_congr_left fun e _ => by
      unfold FaultRec.unwaited
      split <;> rfl
  refine ⟨Prod.ext rfl (Prod.ext rfl (Prod.ext rfl (Prod.ext rfl (funext fun i => ?_)))), fun hs e he => ?_, fun i k hk hd => ⟨k, hk, hd, rfl⟩, rfl, fun n => ?_, fun n => ?_⟩
  · show (tfind (leaveWaiters s agent).flt.recs i).map FaultRec.steady = _
    rw [hrecs, tfind_map, Option.map_map]
    exact congrArg (fun f => (tfind s.flt.recs i).map f) (funext (steady_unwaited agent))
  · obtain ⟨x, hx, rfl⟩ := List.mem_map.mp he
    exact hs x hx
  · have h := congrArg Colony.aborted (tget_map (fun c : Colony => { c with stalled := c.stalled.filter (fun a => a != agent) }) {} s.cols n)
    exact h
  · have h := congrArg Colony.kind (tget_map (fun c : Colony => { c with stalled := c.stalled.filter (fun a => a != agent) }) {} s.cols n)
    exact h

/-- A port whose requests for a command have ended (R175). -/
def Port.without (id : Nat) (p : Port) : Port :=
  { p with
    heldTags := p.heldTags ++ (p.reqs.filter (fun r => r.cmd == id)).map (fun r => r.tag)
    want := p.want.filter (fun w => w.2.2 != id), reqs := p.reqs.filter (fun r => r.cmd != id) }

theorem stops_mapPorts {f : Port → Port} (h0 : f {} = {}) (h : ∀ p, (f p).steady = p.steady) (s : State) :
    Stops s { s with ports := s.ports.map (fun e => (e.1, f e.2)) } := by
  refine stops_of_frame (Prod.ext rfl (Prod.ext rfl (Prod.ext rfl (Prod.ext (funext fun n => ?_) rfl)))) rfl rfl rfl
  have hport := tget_map f {} s.ports n
  rw [h0] at hport
  exact (congrArg Port.steady hport).trans (h _)

theorem stops_endReqs (s : State) (id : Nat) : Stops s (endReqs s id) := by
  have hwait : Stops s ((s.ports.filter (fun e => e.2.want.any (fun w => w.2.2 == id))).foldl (fun t e => leaveWaiters t (664 + e.1)) s) :=
    stops_foldl (fun t _ => stops_leaveWaiters t _) _ _
  exact hwait.trans ((stops_mapPorts (f := Port.without id) rfl (fun _ => rfl) _).trans (stops_finishReqs ..))

/- The caches of the agents that leave, and their directories (R36, R175). -/

theorem stops_of_offLine {s t : State} (h : offLine t = offLine s) : Stops s t := by
  have hports : t.ports = s.ports := congrArg (fun v => v.1.ports) h
  have hrecs : t.flt.recs = s.flt.recs := congrArg (fun v => v.1.flt.recs) h
  have hcols : t.cols = s.cols := congrArg (fun v => v.1.cols) h
  refine ⟨?_, noTeardown_congr hcols, fun i k hk hd => ?_, congrArg (fun v => v.1.fab) h, fun n => by rw [colAt, hcols, colAt],
    fun n => by rw [colAt, hcols, colAt]⟩
  · refine Prod.ext ?_ (Prod.ext ?_ (Prod.ext (congrArg (fun v => v.2.2.1) h) (Prod.ext ?_ ?_)))
    · exact congrArg (fun v => (frame v.1).1) h
    · funext m
      exact congrArg (fun v => (v.2.1 m).fence) h
    · funext n
      show (tget {} t.ports n).steady = _
      rw [hports]
      rfl
    · funext i
      show (tfind t.flt.recs i).map FaultRec.steady = _
      rw [hrecs]
      rfl
  · have hi : (cmdAt t i).map Cmd.withoutShadows = (cmdAt s i).map Cmd.withoutShadows := congrArg (fun v => v.2.2.2 i) h
    rw [hk, Option.map_some] at hi
    obtain ⟨k', hk', heq⟩ := Option.map_eq_some_iff.mp hi
    exact ⟨k', hk', (congrArg Cmd.phase heq :).trans hd, (congrArg Cmd.status heq :)⟩

theorem stops_modEngine (s : State) (n : Nat) (f : CopyEngine → CopyEngine) : Stops s (modEngine s n f) := stops_of_frame rfl rfl rfl rfl

theorem stops_freeEngines (s : State) (id : Nat) : Stops s (freeEngines s id) := by
  refine stops_foldl (fun t e => ?_) _ _
  split
  · exact (stops_of_offLine (offLine_killCache ..)).trans ((stops_leaveWaiters ..).trans (stops_modEngine ..))
  · exact Stops.refl t

theorem stops_setCore {s : State} {n : Nat} {c : Core} (h : c.fence = (coreAt s n).fence) : Stops s (setCore s n c) := by
  refine stops_of_frame (Prod.ext rfl (Prod.ext (funext fun m => ?_) rfl)) rfl rfl rfl
  show (coreAt (setCore s n c) m).fence = _
  by_cases hm : m = n
  · rw [hm, coreAt_setCore_same, h]
    rfl
  · rw [coreAt_setCore_other _ _ hm]
    rfl

theorem fence_of_frame {s t : State} (h : frame t = frame s) (m : Nat) : (coreAt t m).fence = (coreAt s m).fence := congrArg (fun v => v.2.1 m) h

theorem fence_eq_none (c : Core) : c.fence = none ↔ c.st ≠ .fenced := by
  unfold Core.fence
  split <;> simp_all

theorem stops_coreKill {s : State} {n : Nat} (h : (coreAt s n).st ≠ .fenced) : Stops s (coreKill s n) := by
  have hleave : Stops s (leaveWaiters (killCache s n) n) := (stops_of_offLine (offLine_killCache ..)).trans (stops_leaveWaiters ..)
  refine hleave.trans (stops_setCore ?_)
  rw [fence_of_frame hleave.frame, (fence_eq_none _).mpr h]
  exact (fence_eq_none _).mpr fun hst => nomatch hst

theorem stops_killCores {l : List Nat} {s : State} (h : ∀ n ∈ l, (coreAt s n).st ≠ .fenced) : Stops s (l.foldl coreKill s) := by
  induction l generalizing s with
  | nil => exact Stops.refl s
  | cons n l ih =>
    have hkill := stops_coreKill (h n (List.mem_cons_self ..))
    refine hkill.trans (ih fun m hm => ?_)
    rw [← fence_eq_none, fence_of_frame hkill.frame, fence_eq_none]
    exact h m (List.mem_cons_of_mem _ hm)

/- A command's end (R154, R155). -/

theorem stops_modHub_acct (s : State) (c : Nat) (f : Acct → Acct) : Stops s (modAcct s c f) := stops_of_frame rfl rfl rfl rfl
theorem stops_finished (s : State) : Stops s (modHub s (fun h => { h with finished := h.finished + 1 })) := stops_of_frame rfl rfl rfl rfl

theorem stops_modRec {s : State} {i : Nat} {f : FaultRec → FaultRec} (h : ∀ r, (f r).steady = r.steady) : Stops s (modRec s i f) := by
  unfold modRec
  split
  · next r hr =>
    refine stops_of_frame (Prod.ext rfl (Prod.ext rfl (Prod.ext rfl (Prod.ext rfl (funext fun j => ?_))))) rfl rfl rfl
    show (tfind (tset s.flt.recs i (f r)) j).map FaultRec.steady = (tfind s.flt.recs j).map FaultRec.steady
    by_cases hj : j = i
    · rw [hj, tfind_tset_same, hr, Option.map_some, Option.map_some, h]
    · rw [tfind_tset_other _ _ hj]
  · exact Stops.refl s

theorem stops_closeCmdRec (s : State) (c : Cmd) : Stops s (closeCmdRec s c) := by
  unfold closeCmdRec
  split
  · refine stops_modRec fun r => ?_
    split
    · next h =>
      simp only [Bool.and_eq_true, beq_iff_eq] at h
      simp [FaultRec.steady, h.1.2]
    · rfl
  · exact Stops.refl s

theorem phase_of_attempts {s t : State} {id : Nat} {c k : Cmd} (h : attempts t = attempts s) (hc : cmdAt s id = some c) (hk : cmdAt t id = some k) :
    k.phase = c.phase := by
  obtain ⟨k', hk', hphase, -⟩ := cmdAt_of_attempts (congrArg Prod.snd h) hc
  rw [Option.some.inj (hk.symm.trans hk'), hphase]

theorem stops_stampFin (s : State) (id : Nat) : Stops s (stampFin s id) := (stops_finished s).trans (stops_modCmd fun _ => ⟨rfl, rfl⟩)

theorem stops_endOne (s : State) (id status detail result : Nat) : Stops s (endOne s id status detail result) := by
  unfold endOne
  split
  · exact Stops.refl s
  · next c hc =>
    split
    · exact Stops.refl s
    · next hfin =>
      have hgone : attempts (freeEngines (endReqs s id) id) = attempts s := (attempts_freeEngines ..).trans (attempts_endReqs ..)
      have hend (k : Cmd) : Stops s (setCmd (freeEngines (endReqs s id) id) id k) :=
        ((stops_endReqs s id).trans (stops_freeEngines ..)).trans (stops_setCmd fun c' hc' hd => by
          rw [phase_of_attempts hgone hc hc'] at hd
          exact absurd (by rw [Cmd.finished, hd]) hfin)
      exact ((hend _).trans (stops_stampFin ..)).trans (stops_closeCmdRec ..)

theorem stops_startedOnce (s : State) (id : Nat) : Stops s (modCmd s id (fun x => { x with attempts := 1 })) := stops_modCmd fun _ => ⟨rfl, rfl⟩
theorem stops_unclaimed (s : State) (id : Nat) : Stops s (modCmd s id (fun x => { x with claimedBy := none })) := stops_modCmd fun _ => ⟨rfl, rfl⟩

theorem stops_endCmd (s : State) (id status detail result : Nat) : Stops s (endCmd s id status detail result) := by
  unfold endCmd
  dsimp only
  split
  · exact Stops.refl s
  · have hone : Stops s (endOne s id status detail result) := stops_endOne ..
    split
    · exact Stops.refl s
    · split
      · exact hone
      · split
        · exact hone
        · split
          · exact hone.trans ((stops_startedOnce ..).trans (stops_endOne ..))
          · exact hone.trans ((stops_unclaimed ..).trans ((stops_startedOnce ..).trans (stops_endOne ..)))

theorem stops_leaveTracker {s : State} {id : Nat} : Stops s (leaveTracker s id) := by
  unfold leaveTracker
  split
  · next c hc =>
    split
    · next h =>
      simp only [Bool.and_eq_true, beq_iff_eq] at h
      refine ⟨rfl, fun hs => hs, fun i k hk hd => ⟨k, ?_, hd, rfl⟩, rfl, fun _ => rfl, fun _ => rfl⟩
      have hi : i ≠ id := fun hi => by
        rw [hi, hc] at hk
        rw [← Option.some.inj hk, h.1.1] at hd
        exact nomatch hd
      exact (tfind_tdel_other _ hi).trans hk
    · exact Stops.refl s
  · exact Stops.refl s

theorem stops_failHeld {s : State} {id : Nat} {c : Cmd} (hc : cmdAt s id = some c) (hd : c.phase ≠ .done) (status : Nat) :
    Stops s (failHeld s id status) := by
  have hset (k : Cmd) : Stops s (setCmd s id k) := stops_setCmd fun c' hc' hd' => absurd (Option.some.inj (hc.symm.trans hc') ▸ hd') hd
  simp only [failHeld, hc]
  split
  · exact (hset _).trans (stops_leaveTracker.trans ((stops_startedOnce ..).trans (stops_endOne ..)))
  · exact (hset _).trans stops_leaveTracker

/- The kill of an attempt (R175). -/

theorem stops_finishKill {s : State} {id : Nat} {c : Cmd} (hc : cmdAt s id = some c) (hd : c.phase ≠ .done) : Stops s (finishKill s id) := by
  have hset (k : Cmd) : Stops s (setCmd s id k) := stops_setCmd fun c' hc' hd' => absurd (Option.some.inj (hc.symm.trans hc') ▸ hd') hd
  simp only [finishKill, hc]
  split
  · exact (hset _).trans (stops_endCmd ..)
  · exact (hset _).trans (stops_closeCmdRec ..)

theorem stops_overrun (s : State) (n : Nat) (g : Colony → Tbl Nat) : Stops s (modCol s n (fun x => { x with overrun := g x })) :=
  stops_modCol fun _ => ⟨rfl, rfl⟩

theorem stops_noteOverrun (s : State) (id : Nat) : Stops s (noteOverrun s id) := by
  unfold noteOverrun
  split
  · exact Stops.refl s
  · next c hc =>
    split
    · refine (stops_overrun ..).trans (stops_setCmd fun c' hc' hd => ?_)
      obtain rfl : c = c' := Option.some.inj (hc.symm.trans hc')
      exact ⟨hd, rfl⟩
    · exact Stops.refl s

theorem stops_chargeAttempt (s : State) (id : Nat) (toColony : Bool) : Stops s (chargeAttempt s id toColony) := by
  unfold chargeAttempt
  split
  · exact Stops.refl s
  · next c hc =>
    refine (stops_modHub_acct s _ _).trans (stops_setCmd fun c' hc' hd => ?_)
    obtain rfl : c = c' := Option.some.inj (hc.symm.trans hc')
    exact ⟨hd, rfl⟩

theorem stops_signals (s : State) (l : List SignalMsg) : Stops s { s with signals := l } := stops_of_frame rfl rfl rfl rfl

/-- The attempt that a kill begins with: its cores named, what follows noted, its time charged (R175, R190). -/
def killing (s : State) (id : Nat) (c : Cmd) (after : Option Nat) (toColony : Bool) : State :=
  chargeAttempt (noteOverrun (setCmd { s with signals := s.signals.filter (fun m => m.cmd != id) } id
    { c with attemptNs := c.attemptNs + (runningCores s id c).length * nsSince s c.startTick, phase := .killing, killing := runningCores s id c
             after := after, engines := [] }) id) id toColony

theorem killAttempt_eq {s : State} {id : Nat} {c : Cmd} (after : Option Nat) (toColony : Bool) (hc : cmdAt s id = some c) :
    killAttempt s id after toColony =
      let t := endReqs (freeEngines ((runningCores s id c).foldl coreKill (killing s id c after toColony)) id) id
      if (runningCores s id c).isEmpty then finishKill t id else t := by
  simp only [killAttempt, hc, killing]

theorem cmdAt_killing (s : State) (id : Nat) (c : Cmd) (after : Option Nat) (toColony : Bool) :
    ∃ k, cmdAt (killing s id c after toColony) id = some k ∧ k.phase = .killing ∧ k.killing = runningCores s id c ∧ k.after = after := by
  obtain ⟨t, ht⟩ := cmdAt_noteOverrun (cmdAt_setCmd_same { s with signals := s.signals.filter (fun m => m.cmd != id) } id
    { c with attemptNs := c.attemptNs + (runningCores s id c).length * nsSince s c.startTick, phase := .killing, killing := runningCores s id c
             after := after, engines := [] })
  obtain ⟨k, hk⟩ := cmdAt_chargeAttempt toColony ht
  exact ⟨_, hk, rfl, rfl, rfl⟩

theorem stops_killing {s : State} {id : Nat} {c : Cmd} (after : Option Nat) (toColony : Bool) (hc : cmdAt s id = some c) (hd : c.phase ≠ .done) :
    Stops s (killing s id c after toColony) := by
  have hset (k : Cmd) : Stops { s with signals := s.signals.filter (fun m => m.cmd != id) }
      (setCmd { s with signals := s.signals.filter (fun m => m.cmd != id) } id k) :=
    stops_setCmd fun c' hc' hd' => absurd (Option.some.inj (hc.symm.trans hc') ▸ hd') hd
  exact (stops_signals s _).trans ((hset _).trans ((stops_noteOverrun ..).trans (stops_chargeAttempt ..)))

theorem mem_runningCores {s : State} {id n : Nat} {c : Cmd} (h : n ∈ runningCores s id c) : n ∈ c.cores ∧ (coreAt s n).st = .running ∧ (coreAt s n).cmd = some id := by
  obtain ⟨hmem, h⟩ := List.mem_filter.mp h
  simp only [Bool.and_eq_true, beq_iff_eq] at h
  exact ⟨hmem, h⟩

theorem attempts_killCores_cmds (l : List Nat) (s : State) : (attempts (l.foldl coreKill s)).2 = (attempts s).2 :=
  foldl_keeps (fun t => (attempts t).2) coreKill attempts_coreKill_cmds l s

/-- What a kill leaves of the attempt once its cores, engines and requests have stopped (R175). -/
theorem cmdAt_stopped (s : State) (id : Nat) (c : Cmd) (after : Option Nat) (toColony : Bool) :
    ∃ k, cmdAt (endReqs (freeEngines ((runningCores s id c).foldl coreKill (killing s id c after toColony)) id) id) id = some k ∧
      k.phase = .killing ∧ k.killing = runningCores s id c ∧ k.after = after := by
  obtain ⟨k, hk, hphase, hkilling, hafter⟩ := cmdAt_killing s id c after toColony
  have hcmds := (congrArg Prod.snd ((attempts_endReqs (freeEngines ((runningCores s id c).foldl coreKill (killing s id c after toColony)) id) id).trans
    (attempts_freeEngines ..))).trans (attempts_killCores_cmds (runningCores s id c) (killing s id c after toColony))
  obtain ⟨k', hk', hp, hl, ha⟩ := cmdAt_of_attempts hcmds hk
  exact ⟨k', hk', hp.trans hphase, hl.trans hkilling, ha.trans hafter⟩

theorem stops_killAttempt {s : State} {id : Nat} {c : Cmd} (after : Option Nat) (toColony : Bool) (hc : cmdAt s id = some c) (hd : c.phase ≠ .done) :
    Stops s (killAttempt s id after toColony) := by
  have hbegin := stops_killing after toColony hc hd
  have hcores := stops_killCores (l := runningCores s id c) (s := killing s id c after toColony) fun n hn => by
    rw [← fence_eq_none, fence_of_frame hbegin.frame, fence_eq_none, (mem_runningCores hn).2.1]
    exact fun h => nomatch h
  have hstop := ((hbegin.trans hcores).trans (stops_freeEngines _ id)).trans (stops_endReqs _ id)
  rw [killAttempt_eq after toColony hc]
  dsimp only
  split
  · obtain ⟨k, hk, hphase, -⟩ := cmdAt_stopped s id c after toColony
    exact hstop.trans (stops_finishKill hk (by rw [hphase]; exact fun h => nomatch h))
  · exact hstop

theorem stops_abortCmd (s : State) (id status : Nat) : Stops s (abortCmd s id status) := by
  unfold abortCmd
  split
  · exact Stops.refl s
  · next c hc =>
    have hset {k : Cmd} (hd : c.phase ≠ .done) : Stops s (setCmd s id k) :=
      stops_setCmd fun c' hc' hd' => absurd (Option.some.inj (hc.symm.trans hc') ▸ hd') hd
    split
    · exact Stops.refl s
    · exact Stops.refl s
    · exact Stops.refl s
    · next h => exact stops_killAttempt _ _ hc (by rw [h]; exact fun h => nomatch h)
    · next h => exact hset (by rw [h]; exact fun h => nomatch h)
    · next h _ _ _ _ =>
      split
      · exact stops_failHeld hc h status
      · exact stops_endCmd ..

theorem stops_endJob (s : State) (cols : List Nat) (job except : Nat) (faultId : Option Nat) : Stops s (endJob s cols job except faultId) := by
  refine stops_foldl (fun t e => ?_) _ _
  split
  · exact Stops.refl t
  · next c hc =>
    split
    · refine Stops.trans (stops_setCmd fun c' hc' hd => ?_) (stops_abortCmd ..)
      obtain rfl : c = c' := Option.some.inj (hc.symm.trans hc')
      exact ⟨hd, rfl⟩
    · exact Stops.refl t

end Sys2Proof.Machine
end
section
/-! PROOFS. What an abort and a fence leave of the rest of the device (R336, R363, R364, R417, R422). -/

namespace Sys2Proof.Machine

/-- The frame stays, and no colony goes into reset or teardown. -/
structure Leaves (s t : State) : Prop where
  frame : frame t = frame s
  calm : NoTeardown s → NoTeardown t
  kind : ∀ n, (colAt t n).kind = (colAt s n).kind

theorem Leaves.refl (s : State) : Leaves s s := ⟨rfl, id, fun _ => rfl⟩
theorem Leaves.trans {s t u : State} (h : Leaves s t) (h' : Leaves t u) : Leaves s u := 
  ⟨h'.frame.trans h.frame, fun hs => h'.calm (h.calm hs), fun n => (h'.kind n).trans (h.kind n)⟩
theorem Stops.leaves {s t : State} (h : Stops s t) : Leaves s t := ⟨h.frame, h.calm, h.kind⟩

theorem leaves_foldl {α : Type} {f : State → α → State} (hf : ∀ t x, Leaves t (f t x)) (l : List α) (s : State) : Leaves s (l.foldl f s) := by
  induction l generalizing s with
  | nil => exact Leaves.refl s
  | cons x l ih => exact (hf s x).trans (ih _)

theorem leaves_modCol {s : State} {n : Nat} {f : Colony → Colony} (h : ∀ c, (f c).kind = c.kind ∧ (f c).aborted = c.aborted) : Leaves s (modCol s n f) :=
  (stops_modCol h).leaves
theorem leaves_modRec {s : State} {i : Nat} {f : FaultRec → FaultRec} (h : ∀ r, (f r).steady = r.steady) : Leaves s (modRec s i f) :=
  (stops_modRec h).leaves

theorem leaves_cmds (s : State) (l : Tbl Cmd) : Leaves s { s with cmds := l } := ⟨rfl, id, fun _ => rfl⟩

theorem leaves_setCmd (s : State) (id : Nat) (c : Cmd) : Leaves s (setCmd s id c) := leaves_cmds ..
theorem leaves_modCmd (s : State) (id : Nat) (f : Cmd → Cmd) : Leaves s (modCmd s id f) := by
  unfold modCmd
  split
  · exact leaves_setCmd ..
  · exact Leaves.refl s

theorem leaves_of_still {s t : State} (h : still t = still s) : Leaves s t := by
  refine ⟨Prod.ext ?_ (Prod.ext ?_ (Prod.ext ?_ (Prod.ext ?_ ?_))), noTeardown_congr (cols_of_still h), fun n => ?_⟩
  · exact congrArg (fun v => (frame v.1).1) h
  · exact congrArg (fun v => (frame v.1).2.1) h
  · exact congrArg (fun v => (frame v.1).2.2.1) h
  · funext n
    exact congrArg (fun p : Port => { p with heldTags := [], want := none, reqs := [], drain := [] }) (quiet_of_still h n)
  · exact congrArg (fun v => (frame v.1).2.2.2.2) h
  · rw [colAt, cols_of_still h, colAt]

theorem leaves_sendMsg (s : State) (mtype dst scol instar job : Nat) (body : List Nat) (cmd : Option Nat) :
    Leaves s (sendMsg s mtype dst scol instar job body cmd) := by
  have h := leaves_of_still (still_sendMsg s mtype dst scol instar job body cmd)
  exact ⟨h.frame, h.calm, h.kind⟩

/- Peer aborts (R363, R364). -/

/-- A group's abort is marked, and its peers are told (R363). -/
def abortTold (s : State) (colony job status : Nat) : State :=
  (peersFor s colony job).foldl (fun t d => sendMsg t 2 d 0 0 job [s.fab.aseq, status, s.fab.faddr] none)
    (modCol { s with fab := { s.fab with aseq := wrapAdd 32 s.fab.aseq 1, raised := wrapAdd 32 s.fab.raised 1 } } colony
      (fun x => { x with aborted := insertNew x.aborted job }))

theorem raiseAbort_eq (s : State) {colony job : Nat} (status except : Nat) (faultId : Option Nat) (h : job ≠ 0) :
    raiseAbort s colony job status except faultId =
      endJob (abortTold s colony job status)
        (sortNat (colony :: (s.cols.filter (fun e => (peerSet s e.1).any (fun p => p.2 == job))).map (fun e => e.1))) job except faultId := by
  simp only [raiseAbort, if_neg h, abortTold]

theorem raised_afterMsg (f : Fabric) (mtype dst scol instar job : Nat) (body : List Nat) (cmd : Option Nat) :
    (f.afterMsg mtype dst scol instar job body cmd).raised = f.raised := by
  unfold Fabric.afterMsg
  split <;> rfl

theorem abortTold_leaves (s : State) (colony job status : Nat) :
    Leaves s (abortTold s colony job status) ∧ (abortTold s colony job status).cmds = s.cmds ∧
      (abortTold s colony job status).fab.raised = (s.fab.raised + 1) % 2 ^ 32 ∧
      job ∈ (colAt (abortTold s colony job status) colony).aborted := by
  generalize hu : modCol { s with fab := { s.fab with aseq := wrapAdd 32 s.fab.aseq 1, raised := wrapAdd 32 s.fab.raised 1 } } colony
    (fun x => { x with aborted := insertNew x.aborted job }) = u
  have hmark : Leaves s u := by
    rw [← hu]
    refine ⟨rfl, fun h => noTeardown_setCol (s := { s with fab := { s.fab with aseq := wrapAdd 32 s.fab.aseq 1, raised := wrapAdd 32 s.fab.raised 1 } }) rfl h,
      fun m => ?_⟩
    by_cases hm : m = colony
    · rw [hm, colAt_modCol_same]
      rfl
    · exact congrArg Colony.kind (colAt_setCol_other _ _ hm)
  have htold : abortTold s colony job status =
      (peersFor s colony job).foldl (fun t d => sendMsg t 2 d 0 0 job [s.fab.aseq, status, s.fab.faddr] none) u := by rw [← hu]; rfl
  have hkeep {α : Type} (view : State → α) (hview : ∀ t d, view (sendMsg t 2 d 0 0 job [s.fab.aseq, status, s.fab.faddr] none) = view t) :
      view (abortTold s colony job status) = view u := by
    rw [htold]
    exact foldl_keeps view _ hview _ _
  refine ⟨?_, ?_, ?_, ?_⟩
  · rw [htold]
    exact hmark.trans (leaves_foldl (fun t d => leaves_sendMsg ..) _ _)
  · refine (hkeep State.cmds fun t d => (cmds_of_still (still_sendMsg t ..)).trans rfl).trans ?_
    rw [← hu]
    rfl
  · refine (hkeep (fun t => t.fab.raised) fun t d => ?_).trans ?_
    · exact (congrArg Fabric.raised (fab_of_still (still_sendMsg t ..))).trans (raised_afterMsg ..)
    · rw [← hu]
      rfl
  · rw [hkeep (fun t => (colAt t colony).aborted) fun t d => ?_, ← hu, colAt_modCol_same]
    · exact mem_insertNew_self ..
    · exact congrArg (fun c : Tbl Colony => (tget {} c colony).aborted) (cols_of_still (still_sendMsg t ..))

theorem leaves_raiseAbort (s : State) (colony job status except : Nat) (faultId : Option Nat) : Leaves s (raiseAbort s colony job status except faultId) := by
  by_cases h : job = 0
  · rw [raiseAbort, if_pos h]
    exact Leaves.refl s
  · rw [raiseAbort_eq s status except faultId h]
    exact (abortTold_leaves ..).1.trans (stops_endJob ..).leaves

/-- A group's abort leaves what is done, is counted, and marks the group (R363, R364, R370). -/
theorem raiseAbort_marks (s : State) {colony job : Nat} (status except : Nat) (faultId : Option Nat) (h : job ≠ 0) :
    let t := raiseAbort s colony job status except faultId
    (∀ i k, cmdAt s i = some k → k.phase = .done → ∃ k', cmdAt t i = some k' ∧ k'.phase = .done ∧ k'.status = k.status) ∧
      t.fab.raised = (s.fab.raised + 1) % 2 ^ 32 ∧ job ∈ (colAt t colony).aborted := by
  obtain ⟨-, hcmds, hraised, hmark⟩ := abortTold_leaves s colony job status
  have hend := stops_endJob (abortTold s colony job status)
    (sortNat (colony :: (s.cols.filter (fun e => (peerSet s e.1).any (fun p => p.2 == job))).map (fun e => e.1))) job except faultId
  rw [raiseAbort_eq s status except faultId h]
  refine ⟨fun i k hk hd => hend.done i k ?_ hd, (congrArg Fabric.raised hend.fab).trans hraised, by rw [hend.aborted]; exact hmark⟩
  rw [cmdAt, hcmds]
  exact hk

/- A command meets a fault (R156). -/

theorem leaves_killAttempt_setCmd {s : State} {id : Nat} {k : Cmd} (after : Option Nat) (toColony : Bool) (h : k.phase ≠ .done) :
    Leaves s (killAttempt (setCmd s id k) id after toColony) :=
  (leaves_setCmd s id k).trans (stops_killAttempt after toColony (cmdAt_setCmd_same ..) h).leaves

theorem leaves_finishKill_setCmd {s : State} {id : Nat} {k : Cmd} (h : k.phase ≠ .done) : Leaves s (finishKill (setCmd s id k) id) :=
  (leaves_setCmd s id k).trans (stops_finishKill (cmdAt_setCmd_same ..) h).leaves

theorem leaves_faultCmd (s : State) (id status : Nat) (rec : Option Nat) (rerunnable : Bool) : Leaves s (faultCmd s id status rec rerunnable) := by
  unfold faultCmd
  split
  · exact Leaves.refl s
  · next c hc =>
    dsimp only
    have habort {t u : State} (h : Leaves s t) (hu : u = if c.job = 0 then t else raiseAbort t c.colony c.job status id rec) : Leaves s u := by
      rw [hu]
      split
      · exact h
      · exact h.trans (leaves_raiseAbort ..)
    split
    · exact Leaves.refl s
    · next hfin =>
      have hdone : c.phase ≠ .done := fun h => hfin (by rw [Cmd.finished, h])
      refine habort ?_ rfl
      split
      · split
        · exact (leaves_setCmd ..).trans (leaves_modCmd ..)
        · exact leaves_killAttempt_setCmd _ _ hdone
      · split
        · exact (leaves_setCmd ..).trans (leaves_finishKill_setCmd hdone)
        · exact (leaves_setCmd ..).trans (stops_endCmd ..).leaves

/- The diagnostic area, and what a sweep leaves to a record (R280, R422). -/

theorem leaves_of_offLine {s t : State} (h : offLine t = offLine s) : Leaves s t := (stops_of_offLine h).leaves

theorem leaves_diagWrite (s : State) (colony : Nat) (rec : Option Nat) (kind rank core : Nat) (offsets : List Nat) (data : List Byte) :
    Leaves s (diagWrite s colony rec kind rank core offsets data) := by
  unfold diagWrite
  split
  · exact Leaves.refl s
  · split
    · exact Leaves.refl s
    · dsimp only
      split
      · exact Leaves.refl s
      · have hslot (t : State) (a b : Nat) : Leaves t (modCol t colony (fun x => { x with diagSlot := a, diagDir := b })) :=
          leaves_modCol fun _ => ⟨rfl, rfl⟩
        refine Leaves.trans (Leaves.trans ?_ (hslot ..)) (leaves_modRec fun _ => rfl)
        exact leaves_of_offLine ((offLine_diagLine ..).trans (offLine_diagLines ..))

theorem leaves_noteLost (s : State) (colony : Nat) (rec : Option Nat) (rank core : Nat) (lost : List Nat) :
    Leaves s (noteLost s colony rec rank core lost) := by
  unfold noteLost
  split
  · exact Leaves.refl s
  · split
    · exact Leaves.refl s
    · refine Leaves.trans ?_ (leaves_diagWrite ..)
      exact leaves_modRec fun _ => rfl

theorem leaves_noteTransitFence (s : State) (claim : Option Nat) (u : UnitRef) : Leaves s (noteTransitFence s claim u) := by
  unfold noteTransitFence
  split
  · exact leaves_modCmd ..
  · exact Leaves.refl s

theorem leaves_sexton (s : State) (agent : Nat) : Leaves s (sexton s agent) := by
  have h := leaves_of_offLine (offLine_sexton s agent)
  exact ⟨h.frame, h.calm, h.kind⟩

/- The requests of a port that has gone (R336, R369). -/

theorem leaves_endPortCmds (s : State) (n status : Nat) (rec : Option Nat) : Leaves s (endPortCmds s n status rec) := by
  refine leaves_foldl (fun t id => ?_) _ _
  split
  · split
    · exact Leaves.refl t
    · exact (leaves_setCmd ..).trans ((stops_abortCmd ..).leaves.trans (leaves_raiseAbort ..))
  · exact Leaves.refl t

theorem leaves_setPort {s : State} {n : Nat} {p : Port} (h : p.steady = (portAt s n).steady) : Leaves s (setPort s n p) := by
  refine ⟨Prod.ext rfl (Prod.ext rfl (Prod.ext rfl (Prod.ext (funext fun m => ?_) rfl))), fun hs => hs, fun _ => rfl⟩
  show (portAt (setPort s n p) m).steady = (portAt s m).steady
  by_cases hm : m = n
  · rw [hm, portAt_setPort_same, h]
  · rw [portAt_setPort_other _ _ hm]

theorem leaves_modPort {s : State} {n : Nat} {f : Port → Port} (h : ∀ p, (f p).steady = p.steady) : Leaves s (modPort s n f) := leaves_setPort (h _)

theorem leaves_countStale (s : State) (colony : Nat) : Leaves s (countStale s colony) := leaves_modCol fun _ => ⟨rfl, rfl⟩

theorem leaves_squashDrain (s : State) (n : Nat) (p : FabReq → Bool) : Leaves s (squashDrain s n p) := by
  unfold squashDrain
  dsimp only
  refine Leaves.trans ?_ ((stops_finishReqs ..).leaves.trans (leaves_foldl (fun t (r : FabReq) => leaves_countStale t r.colony) _ _))
  exact leaves_modPort fun _ => rfl

theorem leaves_closeReqs (s : State) (n status : Nat) (rec : Option Nat) (bonded : Bool) : Leaves s (closeReqs s n status rec bonded) := by
  unfold closeReqs
  split
  · exact leaves_squashDrain ..
  · have hend := leaves_endPortCmds s n status rec
    have hsquash := leaves_squashDrain (finishReqs (endPortCmds s n status rec) (portAt (endPortCmds s n status rec) n).reqs) n (fun _ => true)
    exact (hend.trans ((stops_finishReqs ..).leaves.trans hsquash)).trans (leaves_modPort fun _ => rfl)

theorem leaves_pump (s : State) (n : Nat) : Leaves s (pump s n) := leaves_of_still (still_pump ..)

theorem leaves_queueTx (s : State) (n : Nat) (k : TxPacket) : Leaves s (modPort s n (fun q => { q with txQueue := q.txQueue ++ [k] })) :=
  leaves_modPort fun _ => rfl

theorem leaves_resendBond (s : State) (n : Nat) : Leaves s (resendBond s n) := by
  unfold resendBond
  dsimp only
  split
  · exact Leaves.refl s
  · refine Leaves.trans (t := modPort s n (fun q => { q with sent := [], txQueue := [] })) (leaves_modPort fun _ => rfl) (leaves_foldl (fun t k => ?_) ..)
    split
    · exact (leaves_queueTx ..).trans (leaves_pump ..)
    · exact Leaves.refl t

/- A core's fence (R34, R280, R417). -/

/-- A core as its fence leaves it (R34). -/
def Core.asFenced (c : Core) : Core :=
  { c with
    st := .fenced, replacePending := true, wipeBusy := false, mq := [], vq := [], dq := [], groups := [], tc := []
    stall := .none, want := none, dmaWant := none, cmd := none, ended := false, transit := false, colony := if c.transit then 0 else c.colony, claim := none }

theorem leaves_setCore_congr {s t : State} (h : Leaves s t) (n : Nat) (c : Core) : Leaves (setCore s n c) (setCore t n c) := by
  refine ⟨Prod.ext (congrArg Prod.fst h.frame :) (Prod.ext (funext fun m => ?_) ((congrArg (fun v => v.2.2) h.frame :))), h.calm, h.kind⟩
  show (coreAt (setCore t n c) m).fence = (coreAt (setCore s n c) m).fence
  by_cases hm : m = n
  · rw [hm, coreAt_setCore_same, coreAt_setCore_same]
  · rw [coreAt_setCore_other _ _ hm, coreAt_setCore_other _ _ hm]
    exact fence_of_frame h.frame m

theorem fenceCore_leaves {s : State} {n : Nat} (status : Nat) (rec : Option Nat) (h : (coreAt s n).st ≠ .fenced) :
    Leaves (setCore s n (coreAt s n).asFenced) (fenceCore s n status rec) := by
  have hgo : ¬ ((coreAt s n).st == .fenced) = true := by simpa using h
  unfold fenceCore
  dsimp only
  rw [if_neg hgo]
  refine Leaves.trans ?_ (leaves_foldl (fun t e => ?_) _ _)
  · refine Leaves.trans (t := setCore (leaveWaiters (match (coreAt s n).cmd with
      | some id => if (coreAt s n).st = .running then modCmd s id (fun k => { k with attemptNs := k.attemptNs + nsSince s k.startTick }) else s
      | none => s) n) n (coreAt s n).asFenced) ?_ ?_
    · refine leaves_setCore_congr (Leaves.trans ?_ (stops_leaveWaiters ..).leaves) ..
      repeat' split
      · exact leaves_modCmd ..
      · exact Leaves.refl s
      · exact Leaves.refl s
    · have hfault (t : State) (cmd : Option Nat) : Leaves t (match cmd with
          | some id => faultCmd t id status rec true
          | none => t) := by
        split
        · exact leaves_faultCmd ..
        · exact Leaves.refl t
      exact (leaves_sexton _ n).trans ((leaves_noteLost ..).trans ((leaves_noteTransitFence ..).trans (hfault ..)))
  · split
    · next k hk =>
      split
      · next hkill =>
        simp only [Bool.and_eq_true, decide_eq_true_eq] at hkill
        split
        · exact leaves_finishKill_setCmd (by rw [hkill.1]; exact fun h => nomatch h)
        · exact leaves_setCmd ..
      · exact Leaves.refl t
    · exact Leaves.refl t

end Sys2Proof.Machine
end
section
/-! PROOFS. Limits, turns, unanswering cores and fences kill attempts (R36, R179, R182, R276, R280). -/

namespace Sys2Proof.Machine

/- A kill where no agent caches a line (R36, R175). -/

theorem allLines_eq_nil {s : State} : allLines s = [] ↔
    (∀ e ∈ s.cores, e.2.dc = []) ∧ (∀ e ∈ s.hub.ctrlLines, e.2 = []) ∧ ∀ e ∈ s.hub.engines, e.2.lines = [] := by
  simp only [allLines, List.append_eq_nil_iff, List.flatMap_eq_nil_iff, and_assoc]

theorem engine_lines_eq_nil {s : State} (h : allLines s = []) (n : Nat) : (engineAt s n).lines = [] := by
  obtain hd | ⟨e, he, hc⟩ := tget_mem {} s.hub.engines n
  · exact congrArg CopyEngine.lines hd
  · exact (congrArg CopyEngine.lines hc).symm.trans ((allLines_eq_nil.mp h).2.2 e he)

theorem cacheOf_eq_nil {s : State} (h : allLines s = []) (agent : Nat) : cacheOf s agent = [] := by
  obtain ⟨hcores, hctrl, -⟩ := allLines_eq_nil.mp h
  unfold cacheOf
  split
  · obtain hd | ⟨e, he, hc⟩ := tget_mem {} s.cores agent
    · exact congrArg Core.dc hd
    · exact (congrArg Core.dc hc).symm.trans (hcores e he)
  · split
    · obtain hd | ⟨e, he, hc⟩ := tget_mem [] s.hub.ctrlLines (agent - 640)
      · exact hd
      · exact hc.symm.trans (hctrl e he)
    · exact engine_lines_eq_nil h _

/-- Commands, HBM and every core stay, and no line is cached. -/
structure Beside (s t : State) : Prop where
  cmds : t.cmds = s.cmds
  hbm : t.hbm = s.hbm
  core : ∀ m, coreAt t m = coreAt s m
  lines : allLines t = []

theorem Beside.trans {s t u : State} (h : Beside s t) (h' : Beside t u) : Beside s u :=
  ⟨h'.cmds.trans h.cmds, h'.hbm.trans h.hbm, fun m => (h'.core m).trans (h.core m), h'.lines⟩

theorem beside_refl {s : State} (h : allLines s = []) : Beside s s := ⟨rfl, rfl, fun _ => rfl, h⟩

theorem beside_foldl {α : Type} {f : State → α → State} (hf : ∀ t x, allLines t = [] → Beside t (f t x)) (l : List α) {s : State}
    (h : allLines s = []) : Beside s (l.foldl f s) := by
  induction l generalizing s with
  | nil => exact beside_refl h
  | cons x l ih => exact (hf s x h).trans (ih (hf s x h).lines)

theorem beside_setCache {s : State} (h : allLines s = []) (agent : Nat) : Beside s (setCache s agent []) := by
  have hempty := cacheOf_eq_nil h agent
  obtain ⟨hcores, hctrl, hengines⟩ := allLines_eq_nil.mp h
  unfold setCache
  unfold cacheOf at hempty
  split
  · next hn =>
    rw [if_pos hn] at hempty
    refine ⟨rfl, rfl, fun m => ?_, allLines_eq_nil.mpr ⟨fun e he => ?_, hctrl, hengines⟩⟩
    · by_cases hm : m = agent
      · rw [hm, coreAt_modCore_same]
        exact (congrArg (fun l => { coreAt s agent with dc := l }) hempty.symm :)
      · exact coreAt_modCore_other _ _ hm
    · rcases mem_tset he with rfl | he
      · rfl
      · exact hcores e he
  · split
    · refine ⟨rfl, rfl, fun _ => rfl, allLines_eq_nil.mpr ⟨hcores, fun e he => ?_, hengines⟩⟩
      rcases mem_tset he with rfl | he
      · rfl
      · exact hctrl e he
    · refine ⟨rfl, rfl, fun _ => rfl, allLines_eq_nil.mpr ⟨hcores, hctrl, fun e he => ?_⟩⟩
      rcases mem_tset he with rfl | he
      · rfl
      · exact hengines e he

theorem beside_killCache {s : State} (h : allLines s = []) (agent : Nat) : Beside s (killCache s agent) := by
  have hempty : cacheOf (cancelRequests s agent) agent = [] := cacheOf_eq_nil h agent
  have hkill : killCache s agent = setCache (cancelRequests s agent) agent [] := by
    simp only [killCache, eachLine, hempty, List.foldl_nil]
  rw [hkill]
  obtain ⟨hcmds, hhbm, hcore, hlines⟩ := beside_setCache (s := cancelRequests s agent) h agent
  exact ⟨hcmds, hhbm, hcore, hlines⟩

theorem beside_freeEngines {s : State} (h : allLines s = []) (id : Nat) : Beside s (freeEngines s id) := by
  refine beside_foldl (fun t e ht => ?_) _ h
  split
  · obtain ⟨hcmds, hhbm, hcore, hlines⟩ := beside_killCache ht (648 + e)
    obtain ⟨hcores, hctrl, hengines⟩ := allLines_eq_nil.mp hlines
    refine ⟨hcmds, hhbm, hcore, allLines_eq_nil.mpr ⟨hcores, hctrl, fun x hx => ?_⟩⟩
    rcases mem_tset hx with rfl | hx
    · exact engine_lines_eq_nil hlines e
    · exact hengines x hx
  · exact beside_refl ht

theorem beside_endReqs {s : State} (h : allLines s = []) (id : Nat) : Beside s (endReqs s id) := by
  obtain ⟨p, c, f, hr⟩ := endReqs_eq s id
  rw [hr]
  exact ⟨rfl, rfl, fun _ => rfl, h⟩

/-- A core that is being killed (R36). -/
def Core.Killed (c : Core) : Prop := c.st = .killed ∧ c.wipeBusy = true ∧ c.mq = [] ∧ c.vq = [] ∧ c.dq = [] ∧ c.cmd = none

theorem dc_advanceEpoch (c : Core) : (advanceEpoch c).dc = c.dc := by
  unfold advanceEpoch
  dsimp only
  split <;> rfl

theorem core_dc_eq_nil {s : State} (h : allLines s = []) (n : Nat) : (coreAt s n).dc = [] := by
  obtain hd | ⟨e, he, hc⟩ := tget_mem {} s.cores n
  · exact congrArg Core.dc hd
  · exact (congrArg Core.dc hc).symm.trans ((allLines_eq_nil.mp h).1 e he)

theorem coreKill_bare {s : State} (h : allLines s = []) (n : Nat) :
    (coreKill s n).cmds = s.cmds ∧ (coreKill s n).hbm = s.hbm ∧ allLines (coreKill s n) = [] ∧ (coreAt (coreKill s n) n).Killed ∧
      ∀ m, m ≠ n → coreAt (coreKill s n) m = coreAt s m := by
  obtain ⟨hcmds, hhbm, hcore, hlines⟩ := beside_killCache h n
  have hlines' : allLines (leaveWaiters (killCache s n) n) = [] := hlines
  obtain ⟨hcores, hctrl, hengines⟩ := allLines_eq_nil.mp hlines'
  refine ⟨hcmds, hhbm, allLines_eq_nil.mpr ⟨fun e he => ?_, hctrl, hengines⟩, ?_, fun m hm => (coreAt_modCore_other _ _ hm).trans (hcore m)⟩
  · rcases mem_tset he with rfl | he
    · exact (dc_advanceEpoch _).trans (core_dc_eq_nil hlines' n)
    · exact hcores e he
  · rw [coreKill, coreAt_modCore_same]
    exact ⟨rfl, rfl, rfl, rfl, rfl, rfl⟩

theorem killCores_bare {l : List Nat} {s : State} (h : allLines s = []) :
    (l.foldl coreKill s).cmds = s.cmds ∧ (l.foldl coreKill s).hbm = s.hbm ∧ allLines (l.foldl coreKill s) = [] ∧
      (∀ m ∈ l, (coreAt (l.foldl coreKill s) m).Killed) ∧ ∀ m, m ∉ l → coreAt (l.foldl coreKill s) m = coreAt s m := by
  induction l generalizing s with
  | nil => exact ⟨rfl, rfl, h, nofun, fun _ _ => rfl⟩
  | cons n l ih =>
    obtain ⟨hcmds, hhbm, hlines, hkilled, hother⟩ := coreKill_bare h n
    obtain ⟨hcmds', hhbm', hlines', hkilled', hother'⟩ := ih hlines
    refine ⟨hcmds'.trans hcmds, hhbm'.trans hhbm, hlines', fun m hm => ?_, fun m hm => ?_⟩
    · by_cases hml : m ∈ l
      · exact hkilled' m hml
      · rw [List.foldl_cons, hother' m hml, (List.mem_cons.mp hm).resolve_right hml]
        exact hkilled
    · obtain ⟨hne, hml⟩ := not_or.mp (mt List.mem_cons.mpr hm)
      exact (hother' m hml).trans (hother m hne)

theorem killing_beside (s : State) (id : Nat) (c : Cmd) (after : Option Nat) (toColony : Bool) :
    (killing s id c after toColony).hbm = s.hbm ∧ (killing s id c after toColony).cores = s.cores ∧
      (killing s id c after toColony).hub.ctrlLines = s.hub.ctrlLines ∧ (killing s id c after toColony).hub.engines = s.hub.engines ∧
      (∀ j, j ≠ id → cmdAt (killing s id c after toColony) j = cmdAt s j) ∧
      ∃ k, cmdAt (killing s id c after toColony) id = some k ∧ k.phase = .killing ∧ k.killing = runningCores s id c ∧ k.after = after ∧
        k.turnKills = c.turnKills ∧ k.faultRuns = c.faultRuns := by
  generalize hk : { c with attemptNs := c.attemptNs + (runningCores s id c).length * nsSince s c.startTick, phase := .killing
                           killing := runningCores s id c, after := after, engines := [] } = k
  have hset : killing s id c after toColony =
      chargeAttempt (noteOverrun (setCmd { s with signals := s.signals.filter (fun m => m.cmd != id) } id k) id) id toColony := by
    rw [← hk]
    rfl
  rw [hset]
  have hover (t : State) (hc : cmdAt t id = some k) : ∃ cols l, noteOverrun t id = { t with cols := cols, cmds := l } ∧ (∀ j, j ≠ id → tfind l j = cmdAt t j) ∧
      ∃ o, tfind l id = some { k with turnOver := o } := by
    simp only [noteOverrun, hc]
    split
    · exact ⟨_, _, rfl, fun j hj => tfind_tset_other _ _ hj, none, tfind_tset_same ..⟩
    · exact ⟨t.cols, t.cmds, rfl, fun _ _ => rfl, k.turnOver, hc⟩
  obtain ⟨cols, l, hn, hother, o, hsame⟩ := hover _ (cmdAt_setCmd_same { s with signals := s.signals.filter (fun m => m.cmd != id) } id k)
  rw [hn]
  have hc' : cmdAt { setCmd { s with signals := s.signals.filter (fun m => m.cmd != id) } id k with cols := cols, cmds := l } id =
      some { k with turnOver := o } := hsame
  simp only [chargeAttempt, hc']
  subst hk
  exact ⟨rfl, rfl, rfl, rfl, fun j hj => (tfind_tset_other _ _ hj).trans ((hother j hj).trans (tfind_tset_other _ _ hj)), _, tfind_tset_same .., rfl, rfl, rfl, rfl,
    rfl⟩

/-- What a kill does where no line is cached (R36, R175). -/
structure Kills (s t : State) (id : Nat) (c : Cmd) (after : Option Nat) : Prop where
  cmd : ∃ k, cmdAt t id = some k ∧ k.phase = .killing ∧ k.killing = runningCores s id c ∧ k.after = after ∧ k.turnKills = c.turnKills
  other : ∀ j, j ≠ id → cmdAt t j = cmdAt s j
  killed : ∀ m ∈ runningCores s id c, (coreAt t m).Killed
  core : ∀ m, m ∉ runningCores s id c → coreAt t m = coreAt s m
  hbm : t.hbm = s.hbm

theorem killAttempt_kills {s : State} {id : Nat} {c : Cmd} (after : Option Nat) (toColony : Bool) (hl : allLines s = []) (hc : cmdAt s id = some c)
    (hrun : runningCores s id c ≠ []) : Kills s (killAttempt s id after toColony) id c after := by
  obtain ⟨hhbm, hcores, hctrl, hengines, hother, k, hk, hphase, hkilling, hafter, hturn, -⟩ := killing_beside s id c after toColony
  have hl0 : allLines (killing s id c after toColony) = [] := by
    simp only [allLines, hcores, hctrl, hengines]
    exact hl
  obtain ⟨hcmds1, hhbm1, hl1, hkilled1, hcore1⟩ := killCores_bare (l := runningCores s id c) hl0
  obtain ⟨hcmds2, hhbm2, hcore2, hl2⟩ := beside_freeEngines hl1 id
  obtain ⟨hcmds3, hhbm3, hcore3, -⟩ := beside_endReqs hl2 id
  rw [killAttempt_eq after toColony hc]
  dsimp only
  rw [if_neg (by simpa using hrun)]
  have hcmds := (hcmds3.trans hcmds2).trans hcmds1
  refine ⟨⟨k, ?_, hphase, hkilling, hafter, hturn⟩, fun j hj => ?_, fun m hm => ?_, fun m hm => ?_, ((hhbm3.trans hhbm2).trans hhbm1).trans hhbm⟩
  · rw [cmdAt, hcmds]
    exact hk
  · rw [cmdAt, hcmds]
    exact hother j hj
  · rw [hcore3, hcore2]
    exact hkilled1 m hm
  · rw [hcore3, hcore2, hcore1 m hm, coreAt, hcores]
    rfl

/- The end of a turn (R182). -/

theorem runningCores_setCmd (s : State) (id : Nat) (k c : Cmd) (h : c.cores = k.cores) (i : Nat) : runningCores (setCmd s id k) i c = runningCores s i k := by
  unfold runningCores
  rw [h]
  rfl

/-- The attempt of a turn that ends, killed for its rerun. -/
def turnKilled (s : State) (id : Nat) (c : Cmd) : State :=
  killAttempt (setCmd s id { c with turnKills := c.turnKills + 1 }) id (if c.hostRerun then some 1 else none) false

theorem turnKilled_kills {s : State} {id : Nat} {c : Cmd} (hl : allLines s = []) (hrun : runningCores s id c ≠ []) :
    Kills s (turnKilled s id c) id { c with turnKills := c.turnKills + 1 } (if c.hostRerun then some 1 else none) := by
  obtain ⟨hcmd, hother, hkilled, hcore, hhbm⟩ := killAttempt_kills (s := setCmd s id { c with turnKills := c.turnKills + 1 }) (if c.hostRerun then some 1 else none)
    false hl (cmdAt_setCmd_same ..) hrun
  exact ⟨hcmd, fun j hj => (hother j hj).trans (cmdAt_setCmd_other _ _ hj), hkilled, hcore, hhbm⟩

theorem foldl_switches {σ : Type} {f : σ → Nat × Cmd → σ} {s t : σ} {id : Nat} {l : Tbl Cmd} (hother : ∀ e ∈ l, e.1 ≠ id → f s e = s)
    (hsame : ∀ e ∈ l, e.1 = id → f s e = t) (hstay : ∀ e ∈ l, f t e = t) (hmem : ∃ e ∈ l, e.1 = id) : l.foldl f s = t := by
  induction l with
  | nil => obtain ⟨e, he, -⟩ := hmem; cases he
  | cons x l ih =>
    have hin {e : Nat × Cmd} (he : e ∈ l) : e ∈ x :: l := List.mem_cons_of_mem _ he
    rw [List.foldl_cons]
    by_cases hx : x.1 = id
    · rw [hsame x (List.mem_cons_self ..) hx]
      exact foldl_fixed_of_mem fun e he => hstay e (hin he)
    · rw [hother x (List.mem_cons_self ..) hx]
      refine ih (fun e he => hother e (hin he)) (fun e he => hsame e (hin he)) (fun e he => hstay e (hin he)) ?_
      obtain ⟨e, he, hid⟩ := hmem
      exact ⟨e, (List.mem_cons.mp he).resolve_left fun h => hx (h ▸ hid), hid⟩

/-- The end of a turn whose ring holds one running LAUNCH. -/
theorem endTurn_kills {s : State} {id colony : Nat} {c : Cmd} (hl : allLines s = []) (hc : cmdAt s id = some c) (hcol : c.colony = colony)
    (hop : c.op = 0x10) (hurg : c.urgent = false) (hph : c.phase = .running) (hnp : c.nonPreempt = false) (htk : c.turnKills < 2)
    (hrun : runningCores s id c ≠ [])
    (hring : ∀ e ∈ s.cmds, e.1 ≠ id → e.2.colony = colony → e.2.phase = .running → ringOf e.2 ≠ ringOf c) :
    endTurn s colony (ringOf c) = turnKilled s id c := by
  obtain ⟨⟨k, hk, hkph, -⟩, hother, -⟩ := turnKilled_kills hl hrun
  have hskip (k' : Cmd) (j : Nat) (hj : j ≠ id) (hkj : cmdAt s j = some k') :
      ¬ (k'.colony = colony ∧ k'.isLaunch ∧ k'.urgent = false ∧ ringOf k' = ringOf c ∧ k'.phase = .running) := fun ⟨h1, _, _, h2, h3⟩ =>
    hring (j, k') (mem_of_tfind hkj) hj h1 h3 h2
  refine foldl_switches (id := id) (fun e he hid => ?_) (fun e he hid => ?_) (fun e he => ?_) ⟨(id, c), mem_of_tfind hc, rfl⟩
  · cases hce : cmdAt s e.1 with
    | none => rfl
    | some k' => exact if_neg (hskip k' e.1 hid hce)
  · have htake : c.colony = colony ∧ c.isLaunch ∧ c.urgent = false ∧ ringOf c = ringOf c ∧ c.phase = .running :=
      ⟨hcol, by rw [Cmd.isLaunch, hop]; rfl, hurg, rfl, hph⟩
    have hce : cmdAt s e.1 = some c := by rw [hid]; exact hc
    rw [hce]
    refine (if_pos htake).trans ?_
    rw [hid, hnp, if_neg Bool.false_ne_true, if_pos htk]
    rw [preempt, cmdAt_setCmd_same]
    rfl
  · by_cases hid : e.1 = id
    · simp only [hid, hk]
      exact if_neg fun h => by rw [hkph] at h; exact nomatch h.2.2.2.2
    · rw [hother e.1 hid]
      cases hce : cmdAt s e.1 with
      | none => rfl
      | some k' => exact if_neg (hskip k' e.1 hid hce)

theorem nextTurn_keeps {α : Type} (view : State → α) (hview : ∀ t n f, view (modCol t n f) = view t) (s : State) (colony : Nat) (l : List Nat) :
    view (nextTurn s colony l) = view s := by
  induction l generalizing s with
  | nil => exact hview ..
  | cons r rs ih =>
    simp only [nextTurn]
    split
    · exact hview ..
    · exact (ih _).trans (hview ..)

/- A fault's record where no live one names its unit (R410, R411). -/

/-- A record as the collector takes it. -/
def FaultRec.taken (s : State) (r : FaultRec) : FaultRec :=
  { r with fseq := nextFseq s.flt.last, st := firstState r.severity, ticks := s.ticks, gnat := perturbed s, instar := (colAt s r.colony).cur.instar }

theorem flt_faultIrq (s : State) (severity : Nat) : (faultIrq s severity).flt = s.flt := by
  have hraise : (raiseMsix s .pf s.flt.vec).flt = s.flt := by
    obtain ⟨l, p, h⟩ := raiseMsix_eq s .pf s.flt.vec
    rw [h]
  unfold faultIrq
  repeat' split
  · rfl
  · exact hraise
  · rfl
  · exact hraise
  · rfl

theorem recordFault_takes {s : State} {r : FaultRec} {i : Nat} (hm : mergeTarget s.flt.recs r = none) (he : recEntry s.flt.recs = some i) :
    (recordFault s r).2 = some i ∧ (recordFault s r).1.flt = { s.flt with recs := tset s.flt.recs i (r.taken s), last := nextFseq s.flt.last } := by
  simp only [recordFault, hm, he, flt_faultIrq]
  exact ⟨trivial, rfl⟩

/-- What a frame keeps of a record whose state does not follow its command's. -/
theorem rec_of_frame {s t : State} {i : Nat} {r : FaultRec} (h : frame t = frame s) (hr : tfind s.flt.recs i = some r) (hsev : r.severity ≠ 1) :
    ∃ r', tfind t.flt.recs i = some r' ∧ r'.cause = r.cause ∧ r'.severity = r.severity ∧ r'.unit = r.unit ∧ r'.st = r.st ∧ r'.xlt = r.xlt := by
  have hmap : (tfind t.flt.recs i).map FaultRec.steady = some r.steady := by
    have hi := congrFun (congrArg (fun v => v.2.2.2.2) h) i
    exact Eq.trans hi (congrArg (Option.map FaultRec.steady) hr)
  obtain ⟨r', hr', heq⟩ := Option.map_eq_some_iff.mp hmap
  have hsev' : r'.severity = r.severity := (congrArg FaultRec.severity heq :)
  have hst : (if r'.severity = 1 then RecState.closed else r'.st) = (if r.severity = 1 then RecState.closed else r.st) := (congrArg FaultRec.st heq :)
  rw [hsev', if_neg hsev, if_neg hsev] at hst
  exact ⟨r', hr', (congrArg FaultRec.cause heq :), hsev', (congrArg FaultRec.unit heq :), hst, (congrArg FaultRec.xlt heq :)⟩

theorem recEntry_nil : recEntry [] = some 0 := by
  have h : (List.range 512).find? (fun i => match tfind ([] : Tbl FaultRec) i with | none => true | some r => r.st == .free) = some 0 := by
    rw [List.find?_range_eq_some]
    exact ⟨rfl, List.mem_range.mpr (by decide), fun j hj => absurd hj (Nat.not_lt_zero j)⟩
  unfold recEntry
  split
  · next i hi => exact hi.symm.trans h
  · next hn => exact nomatch hn.symm.trans h

/- A core's fence, where nothing waits for the core (R34, R280). -/

/-- What a sweep counts, and the commands without their shadow frames. -/
def counted (s : State) : Nat × Nat × (Nat → Option Cmd) := (s.hub.sextonAgent, s.hub.sextonSweeps, fun i => (cmdAt s i).map Cmd.withoutShadows)

theorem counted_of_offLine {s t : State} (h : offLine t = offLine s) : counted t = counted s :=
  Prod.ext (congrArg (fun v => v.1.hub.sextonAgent) h) (Prod.ext (congrArg (fun v => v.1.hub.sextonSweeps) h) (congrArg (fun v => v.2.2.2) h))

/-- What neither the coherent domain's traffic, nor the collector, nor a colony's place in its diagnostic area tells. -/
structure Aside {α : Type} (view : State → α) : Prop where
  domain : ∀ s t, offLine t = offLine s → view t = view s
  collector : ∀ s f, view { s with flt := f } = view s
  slot : ∀ s n a b, view (modCol s n (fun x => { x with diagSlot := a, diagDir := b })) = view s

theorem Aside.modRec {α : Type} {view : State → α} (h : Aside view) (s : State) (i : Nat) (f : FaultRec → FaultRec) : view (modRec s i f) = view s := by
  unfold Machine.modRec
  split
  · exact h.collector ..
  · rfl

theorem Aside.diagWrite {α : Type} {view : State → α} (h : Aside view) (s : State) (colony : Nat) (rec : Option Nat) (kind rank core : Nat)
    (offsets : List Nat) (data : List Byte) : view (diagWrite s colony rec kind rank core offsets data) = view s := by
  unfold Machine.diagWrite
  split
  · rfl
  · split
    · rfl
    · dsimp only
      split
      · rfl
      · rw [h.modRec, h.slot]
        exact h.domain _ _ ((offLine_diagLine ..).trans (offLine_diagLines ..))

theorem Aside.noteLost {α : Type} {view : State → α} (h : Aside view) (s : State) (colony : Nat) (rec : Option Nat) (rank core : Nat) (lost : List Nat) :
    view (noteLost s colony rec rank core lost) = view s := by
  unfold Machine.noteLost
  split
  · rfl
  · split
    · rfl
    · rw [h.diagWrite, h.modRec]

theorem aside_counted : Aside counted := ⟨fun _ _ h => counted_of_offLine h, fun _ _ => rfl, fun _ _ _ _ => rfl⟩

theorem cmd_of_shadowless {s t : State} {id : Nat} {k : Cmd} (h : (cmdAt t id).map Cmd.withoutShadows = (cmdAt s id).map Cmd.withoutShadows)
    (hk : cmdAt s id = some k) : ∃ k', cmdAt t id = some k' ∧ k'.withoutShadows = k.withoutShadows := by
  rw [hk, Option.map_some] at h
  exact Option.map_eq_some_iff.mp h

/-- The fence of a core that runs nothing and that no kill awaits: its directories are swept. -/
theorem fenceCore_swept {s : State} {n : Nat} (status : Nat) (rec : Option Nat) (h : (coreAt s n).st ≠ .fenced) (hcmd : (coreAt s n).cmd = none)
    (hclaim : (coreAt s n).claim = none) (hkill : ∀ e ∈ s.cmds, e.2.phase = .killing → n ∉ e.2.killing) :
    (fenceCore s n status rec).hub.sextonAgent = n ∧ (fenceCore s n status rec).hub.sextonSweeps = satInc 16 s.hub.sextonSweeps := by
  have hgo : ((coreAt s n).st == .fenced) = false := by simpa using h
  have hbegin : counted (setCore (leaveWaiters s n) n (coreAt s n).asFenced) = counted s := rfl
  have hswept : counted (sexton (setCore (leaveWaiters s n) n (coreAt s n).asFenced) n) = (n, satInc 16 s.hub.sextonSweeps, (counted s).2.2) :=
    (counted_of_offLine (offLine_sexton _ n)).trans rfl
  unfold fenceCore
  simp only [hgo, hcmd, hclaim, noteTransitFence, Bool.false_eq_true, if_false]
  generalize hu : noteLost _ _ _ _ _ _ = u
  have hcount : counted u = (n, satInc 16 s.hub.sextonSweeps, (counted s).2.2) := by
    rw [← hu, aside_counted.noteLost]
    exact hswept
  rw [foldl_fixed_of_mem fun e he => ?_]
  · exact ⟨congrArg Prod.fst hcount, congrArg (fun v => v.2.1) hcount⟩
  · split
    · next k hk =>
      rw [if_neg]
      simp only [Bool.and_eq_true, decide_eq_true_eq, List.contains_iff_mem]
      rintro ⟨hph, hmem⟩
      have hfind : (cmdAt u e.1).map Cmd.withoutShadows = (cmdAt s e.1).map Cmd.withoutShadows := congrFun (congrArg (fun v => v.2.2) hcount) e.1
      obtain ⟨k', hk', heq⟩ := cmd_of_shadowless hfind.symm hk
      exact hkill (e.1, k') (mem_of_tfind hk') ((congrArg Cmd.phase heq :).trans hph) ((congrArg Cmd.killing heq :) ▸ hmem)
    · rfl

theorem fence_asFenced (c : Core) : c.asFenced.fence = some true := rfl

theorem fenced_of_fence {c : Core} (h : c.fence = some true) : c.st = .fenced ∧ c.replacePending = true := by
  unfold Core.fence at h
  split at h
  · next hst => exact ⟨hst, Option.some.inj h⟩
  · exact nomatch h

/-- Settles O37: one kill, whoever asks for it; the turn's end, and the fence of a core with its sweep. -/
theorem attemptsAreKilled : Obligations.AttemptsAreKilled := by
  unfold Obligations.AttemptsAreKilled
  intro s hserv hl
  dsimp only
  have hkills {t : State} {id : Nat} {c : Cmd} {after : Option Nat} (h : Kills s t id c after) :
      (∃ k, cmdAt t id = some k ∧ k.phase = .killing ∧ k.killing = runningCores s id c ∧ k.after = after) ∧
      (∀ m ∈ runningCores s id c, (coreAt t m).Killed) ∧ (∀ m, m ∉ runningCores s id c → coreAt t m = coreAt s m) ∧ t.hbm = s.hbm := by
    obtain ⟨⟨k, hk, hph, hki, haf, -⟩, -, hkilled, hcore, hhbm⟩ := h
    exact ⟨⟨k, hk, hph, hki, haf⟩, hkilled, hcore, hhbm⟩
  refine ⟨fun id c hc hnp hph hrun => ?limit, fun id c colony h1 h64 hc hcol hop hurg hph hnp htk hrun hsl hturn hring => ?turn,
    fun colony h1 h64 hsl => ?alone, fun n ch off e hn hno hrecs hreset hst hcmd hmode he hinv hmem => ?silent,
    fun n hn hpf hno hst hcmd hclaim hkill => ?fence⟩
  case limit =>
    refine ⟨killAttempt s id (some 0x0C) true, ?_, hkills (killAttempt_kills _ _ hl hc hrun)⟩
    show execNplimitReached id s = _
    simp only [execNplimitReached, hc, hserv, npRunning, hnp, hph]
    rfl
  case turn =>
    have hkill := turnKilled_kills hl hrun
    have hend := endTurn_kills hl hc hcol hop hurg hph hnp htk hrun hring
    have hnext {α : Type} (view : State → α) (hview : ∀ t n f, view (modCol t n f) = view t) :
        view (nextTurn (turnKilled s id c) colony (ringsAfter (activeRings s colony) (ringOf c))) = view (turnKilled s id c) := nextTurn_keeps view hview ..
    have hcmds := hnext State.cmds fun _ _ _ => rfl
    have hcores := hnext State.cores fun _ _ _ => rfl
    refine ⟨nextTurn (turnKilled s id c) colony (ringsAfter (activeRings s colony) (ringOf c)), ?_, ?_⟩
    · show execTimeSliceEnd colony s = _
      have hgo : (!serving s || decide (colony = 0) || decide (64 < colony)) = false := by
        simp only [hserv, Bool.not_true, Bool.false_or, Bool.or_eq_false_iff, decide_eq_false_iff_not]
        omega
      simp only [execTimeSliceEnd, hgo, hsl, hturn, hend, Bool.not_true, Bool.false_eq_true, if_false]
    · obtain ⟨⟨k, hk, hph', hki, haf, htk'⟩, -, hkilled, hcore, hhbm⟩ := hkill
      simp only [cmdAt, coreAt, hcmds, hcores]
      refine ⟨⟨⟨k, hk, hph', hki, haf⟩, hkilled, hcore, (hnext State.hbm fun _ _ _ => rfl).trans hhbm⟩, fun k' hk' => ?_⟩
      rw [Option.some.inj (hk'.symm.trans hk)]
      exact htk'
  case alone =>
    refine ⟨modCol s colony (fun c => { c with turn := none }), ?_, ?_, rfl, rfl⟩
    · show execTimeSliceEnd colony s = _
      have hgo : (!serving s || decide (colony = 0) || decide (64 < colony)) = false := by
        simp only [hserv, Bool.not_true, Bool.false_or, Bool.or_eq_false_iff, decide_eq_false_iff_not]
        omega
      simp only [execTimeSliceEnd, hgo, hsl, Bool.not_false, Bool.false_eq_true, if_false, if_true]
    · rw [colAt_modCol_same]
  case silent =>
    let r : FaultRec := { blankRec 0x10 3 (.core n) (coreAt s n).colony with status := 0, rank := 0, addr := (coreAt s n).pc, addrKind := 4 }
    obtain ⟨-, hflt⟩ := recordFault_takes (s := s) (r := r) (i := 0) (by rw [hrecs]; rfl) (by rw [hrecs]; exact recEntry_nil)
    have hrep := onlyReports_recordFault s r
    have hview {α : Type} (view : State → α) (hv : ∀ s f p o, view { s with flt := f, pcie := p, out := o } = view s) :
        view (recordFault s r).1 = view s := onlyReports_view view hv hrep
    have hcore : coreAt (recordFault s r).1 n = coreAt s n := hview (fun t => coreAt t n) fun _ _ _ _ => rfl
    obtain ⟨hcmds, -, -, ⟨hkst, hkwipe, -⟩, -⟩ := coreKill_bare ((hview allLines fun _ _ _ _ => rfl).trans hl) n
    have hstop := stops_coreKill (s := (recordFault s r).1) (n := n) (by rw [hcore, hst]; exact fun h => nomatch h)
    have htaken : tfind (recordFault s r).1.flt.recs 0 = some (r.taken s) := by rw [hflt, tfind_tset_same]
    obtain ⟨r', hr', hcause, hsev, hunit, hrst, -⟩ := rec_of_frame hstop.frame htaken (show (3 : Nat) ≠ 1 by decide)
    refine ⟨coreKill (recordFault s r).1 n, r', ?_, hkst, hkwipe, hr', hcause, hsev, hrst, hunit,
      hcmds.trans (hview State.cmds fun _ _ _ _ => rfl)⟩
    show execAgentUnresponsive n ch off s = _
    have hwaits : (dirFind (chanAt s ch) off).any (fun e => e.st.transient && e.acks.contains n) = true := by
      rw [he, Option.any_some, hinv, Bool.and_eq_true, List.contains_iff_mem]
      exact ⟨rfl, hmem⟩
    have hopen : domainOpen s n ch = true := by
      have hmode' : ((chanAt s ch).mode != .fenced) = true := by simpa using hmode
      have hlive : agentFenced s n = false := by
        simp only [agentFenced, if_pos hn, hst]
        rfl
      simp only [domainOpen, hserv, hlive, hmode', Bool.and_false, Bool.not_false, Bool.and_self]
    have hquiet : resetting s (agentUnit n) = false := by
      rw [resetting, hrecs, hreset]
      rfl
    simp only [execAgentUnresponsive, hopen, hwaits, hquiet, Bool.not_true, Bool.or_false, Bool.false_eq_true, if_false, if_pos hn]
    refine next_congr ?_
    have hcolumn : resetCore s n 0x10 false = coreKill (recordFault s r).1 n := by
      simp only [resetCore, hcmd, if_pos hst]
      rfl
    rw [hcolumn]
    exact settleColonies_idle (hstop.calm (noTeardown_congr (hview State.cols fun _ _ _ _ => rfl) hno))
  case fence =>
    let r : FaultRec := { blankRec 0x40 4 (.core n) (coreAt s n).colony with status := 0x09 }
    generalize hq : recordFault s r = q
    have hrep : OnlyReports s q.1 := hq ▸ onlyReports_recordFault s r
    have hview {α : Type} (view : State → α) (hv : ∀ s f p o, view { s with flt := f, pcie := p, out := o } = view s) : view q.1 = view s :=
      onlyReports_view view hv hrep
    have hcore : coreAt q.1 n = coreAt s n := hview (fun t => coreAt t n) fun _ _ _ _ => rfl
    have hlive : (coreAt q.1 n).st ≠ .fenced := by rw [hcore]; exact hst
    have hleaves := fenceCore_leaves 0x09 q.2 hlive
    have hcalm : NoTeardown (fenceCore q.1 n 0x09 q.2) := hleaves.calm (noTeardown_congr (hview State.cols fun _ _ _ _ => rfl) hno)
    obtain ⟨hagent, hsweeps⟩ := fenceCore_swept 0x09 q.2 hlive (by rw [hcore]; exact hcmd) (by rw [hcore]; exact hclaim)
      (by rw [hview State.cmds fun _ _ _ _ => rfl]; exact hkill)
    obtain ⟨f, hf⟩ : ∃ f, fenceFault s 0x40 (.core n) (coreAt s n).colony 0x09 = { fenceCore q.1 n 0x09 q.2 with flt := f } := by
      have hunit : fenceFault s 0x40 (.core n) (coreAt s n).colony 0x09 = fenceUnit q.1 (.core n) 0x09 q.2 := by
        simp only [fenceFault, nameUnit, hcmd]
        rw [show recordFault s _ = q from hq]
      rw [hunit]
      simp only [fenceUnit, fencedRecs, modRec]
      split
      · split
        · exact ⟨_, rfl⟩
        · exact ⟨_, rfl⟩
      · exact ⟨_, rfl⟩
    have hfence : (coreAt (fenceCore q.1 n 0x09 q.2) n).fence = some true := by
      rw [fence_of_frame hleaves.frame, coreAt_setCore_same]
      rfl
    obtain ⟨hfst, hfpend⟩ := fenced_of_fence hfence
    refine ⟨{ fenceCore q.1 n 0x09 q.2 with flt := f }, ?_, hfst, hfpend, hagent, ?_⟩
    · show execCoreFence n s = _
      have hgo : (!fnLive s .pf || !serving s || decide (640 ≤ n) || (coreAt s n).st == .fenced) = false := by
        have h1 : ((coreAt s n).st == .fenced) = false := by simpa using hst
        have h2 : decide (640 ≤ n) = false := decide_eq_false (by omega)
        rw [hpf, hserv, h1, h2]
        rfl
      simp only [execCoreFence, hgo, Bool.false_eq_true, if_false]
      rw [hf]
      exact next_congr (afterFence_idle (s := { fenceCore q.1 n 0x09 q.2 with flt := f }) hcalm)
    · rw [hview (fun t => t.hub) fun _ _ _ _ => rfl] at hsweeps
      exact hsweeps

end Sys2Proof.Machine
end
section
/-! PROOFS. Hangs, resets, reaction windows and the device stop (R200, R410 to R412, R416 to R421, R425). -/

namespace Sys2Proof.Machine

/- A fault that meets no live record takes one of its own (R410 to R412). -/

theorem mergeTarget_idle {recs : Tbl FaultRec} {r : FaultRec} (hidle : ∀ e ∈ recs, e.2.st.live = false) (hsev : r.severity ≠ 0) :
    mergeTarget recs r = none := by
  refine foldl_fixed_of_mem fun e he => if_neg ?_
  have hs : (r.severity == 0) = false := by simpa using hsev
  simp only [merges, hidle e he, hs, Bool.false_and, Bool.or_false, Bool.and_false, Bool.false_eq_true, not_false_eq_true]

theorem recordFault_idle {s : State} {r : FaultRec} {i : Nat} (hidle : ∀ e ∈ s.flt.recs, e.2.st.live = false) (he : recEntry s.flt.recs = some i)
    (hsev : r.severity ≠ 0) : (recordFault s r).2 = some i ∧ tfind (recordFault s r).1.flt.recs i = some (r.taken s) := by
  obtain ⟨hi, hflt⟩ := recordFault_takes (mergeTarget_idle hidle hsev) he
  exact ⟨hi, by rw [hflt, tfind_tset_same]⟩

theorem leaves_onlyReports_cols {s t : State} (h : OnlyReports s t) (hs : NoTeardown s) : NoTeardown t :=
  noTeardown_congr (onlyReports_view State.cols (fun _ _ _ _ => rfl) h) hs

theorem nameCmd_keeps (s : State) (r : FaultRec) (id : Nat) :
    (nameCmd s r id).cause = r.cause ∧ (nameCmd s r id).severity = r.severity ∧ (nameCmd s r id).unit = r.unit ∧ (nameCmd s r id).xlt = r.xlt := by
  unfold nameCmd
  split <;> exact ⟨rfl, rfl, rfl, rfl⟩

/- The records of a unit that is fenced (R410, R417). -/

/-- The record of a fence and those that name its unit become FENCED. -/
def fencedFor (s : State) (rec : Option Nat) (u : UnitRef) : State :=
  fencedRecs (match rec with
    | some i => modRec s i (fun r => if r.st.live && !r.xlt then { r with st := .fenced } else r)
    | none => s) u

theorem fencedFor_eq (s : State) (rec : Option Nat) (u : UnitRef) : fencedFor s rec u = { s with flt := { s.flt with recs := (fencedFor s rec u).flt.recs } } := by
  unfold fencedFor fencedRecs modRec
  split
  · split <;> rfl
  · rfl

/-- A record as the fence of a unit leaves it. -/
def FaultRec.fencedWith (u : UnitRef) (r : FaultRec) : FaultRec := if r.unit == u && r.st.live && !r.xlt then { r with st := .fenced } else r

theorem fencedFor_rec {s : State} {i : Nat} {r : FaultRec} (u : UnitRef) (hr : tfind s.flt.recs i = some r) (hlive : r.st.live = true) (hx : r.xlt = false) :
    tfind (fencedFor s (some i) u).flt.recs i = some { r with st := .fenced } := by
  have hmap (l : Tbl FaultRec) : (fencedRecs { s with flt := { s.flt with recs := l } } u).flt.recs = l.map (fun e => (e.1, e.2.fencedWith u)) :=
    List.map_congr_left fun e _ => by
      unfold FaultRec.fencedWith
      split <;> rfl
  have hgo : (r.st.live && !r.xlt) = true := by rw [hlive, hx]; rfl
  simp only [fencedFor, modRec, hr, hgo, if_true]
  rw [hmap, tfind_map, tfind_tset_same, Option.map_some, FaultRec.fencedWith, if_neg]
  simp [RecState.live]

/-- What a fence leaves of a record that is being handled. -/
theorem fencedFor_keeps {t : State} {i : Nat} {r r' : FaultRec} (u : UnitRef) (hr : tfind t.flt.recs i = some r') (hcause : r'.cause = r.cause)
    (hsev : r'.severity = r.severity) (hunit : r'.unit = r.unit) (hst : r'.st = r.st) (hx : r'.xlt = r.xlt) (hlive : r.st.live = true) (hr0 : r.xlt = false) :
    ∃ q, tfind (fencedFor t (some i) u).flt.recs i = some q ∧ q.cause = r.cause ∧ q.severity = r.severity ∧ q.unit = r.unit ∧ q.st = .fenced :=
  ⟨_, fencedFor_rec u hr (by rw [hst]; exact hlive) (by rw [hx]; exact hr0), hcause, hsev, hunit, rfl⟩

/- A hung core (R419, R420). -/

/-- The state and the command of every core, and every command without its shadow frames. -/
def crew (s : State) : (Nat → CoreState × Option Nat) × (Nat → Option Cmd) :=
  (fun m => ((coreAt s m).st, (coreAt s m).cmd), fun i => (cmdAt s i).map Cmd.withoutShadows)

theorem crew_of_offLine {s t : State} (h : offLine t = offLine s) : crew t = crew s :=
  Prod.ext (funext fun m => congrArg (fun v => ((v.2.1 m).st, (v.2.1 m).cmd)) h) (congrArg (fun v => v.2.2.2) h)

theorem aside_crew : Aside crew := ⟨fun _ _ h => crew_of_offLine h, fun _ _ => rfl, fun _ _ _ _ => rfl⟩

theorem runningCores_of_crew {s t : State} (h : crew t = crew s) (id : Nat) {c k : Cmd} (hc : k.cores = c.cores) : runningCores t id k = runningCores s id c := by
  unfold runningCores
  rw [hc]
  refine List.filter_congr fun m _ => ?_
  have hm := congrFun (congrArg Prod.fst h) m
  have hst : (coreAt t m).st = (coreAt s m).st := (congrArg Prod.fst hm :)
  have hcmd : (coreAt t m).cmd = (coreAt s m).cmd := (congrArg Prod.snd hm :)
  rw [hst, hcmd]

theorem st_coreKill (s : State) (n m : Nat) : (coreAt (coreKill s n) m).st = if m = n then .killed else (coreAt s m).st := by
  split
  · next h => rw [h]; exact coreAt_coreKill_st ..
  · next h =>
    rw [coreKill, coreAt_modCore_other _ _ h]
    exact congrFun (congrArg Prod.fst ((attempts_leaveWaiters (killCache s n) n).trans (attempts_killCache s n))) m

theorem st_killCores (l : List Nat) (s : State) {m : Nat} (h : m ∈ l ∨ (coreAt s m).st = .killed) : (coreAt (l.foldl coreKill s) m).st = .killed := by
  induction l generalizing s with
  | nil => exact h.resolve_left (List.not_mem_nil)
  | cons n l ih =>
    refine ih (coreKill s n) ?_
    rw [st_coreKill]
    split
    · exact .inr rfl
    · next hne =>
      refine h.imp_left fun hm => ?_
      exact (List.mem_cons.mp hm).resolve_left hne

theorem st_of_attempts {s t : State} (h : attempts t = attempts s) (m : Nat) : (coreAt t m).st = (coreAt s m).st := congrFun (congrArg Prod.fst h) m
theorem shadowless_of_attempts {s t : State} (h : (attempts t).2 = (attempts s).2) (i : Nat) :
    (cmdAt t i).map Cmd.withoutShadows = (cmdAt s i).map Cmd.withoutShadows := congrFun h i

theorem killAttempt_running {s : State} {id : Nat} {c : Cmd} (after : Option Nat) (toColony : Bool) (hc : cmdAt s id = some c)
    (hrun : runningCores s id c ≠ []) : killAttempt s id after toColony =
      endReqs (freeEngines ((runningCores s id c).foldl coreKill (killing s id c after toColony)) id) id := by
  have hsome : (runningCores s id c).isEmpty = false := by simpa using hrun
  rw [killAttempt_eq after toColony hc, hsome]
  rfl

/-- What a kill leaves of its command and its cores while some core of it runs (R175). -/
theorem killAttempt_kills_running {s : State} {id : Nat} {c : Cmd} (after : Option Nat) (toColony : Bool) (hc : cmdAt s id = some c)
    (hrun : runningCores s id c ≠ []) :
    (∀ m ∈ runningCores s id c, (coreAt (killAttempt s id after toColony) m).st = .killed) ∧
      ∃ k, cmdAt (killAttempt s id after toColony) id = some k ∧ k.phase = .killing ∧ k.after = after ∧ k.faultRuns = c.faultRuns := by
  obtain ⟨-, -, -, -, -, k, hk, hphase, -, hafter, -, hruns⟩ := killing_beside s id c after toColony
  rw [killAttempt_running after toColony hc hrun]
  generalize killing s id c after toColony = v at hk ⊢
  have hcmds : (attempts ((runningCores s id c).foldl coreKill v)).2 = (attempts v).2 := attempts_killCores_cmds ..
  have hkilled (m : Nat) (hm : m ∈ runningCores s id c) : (coreAt ((runningCores s id c).foldl coreKill v) m).st = .killed := st_killCores _ _ (.inl hm)
  generalize (runningCores s id c).foldl coreKill v = u at hcmds hkilled ⊢
  have hstop : attempts (endReqs (freeEngines u id) id) = attempts u := (attempts_endReqs ..).trans (attempts_freeEngines ..)
  refine ⟨fun m hm => (st_of_attempts hstop m).trans (hkilled m hm), ?_⟩
  obtain ⟨k', hk', heq⟩ := cmd_of_shadowless (shadowless_of_attempts ((congrArg Prod.snd hstop).trans hcmds) id) hk
  exact ⟨k', hk', (congrArg Cmd.phase heq :).trans hphase, (congrArg Cmd.after heq :).trans hafter, (congrArg Cmd.faultRuns heq :).trans hruns⟩

/-- A fault that reruns the running attempt of a command outside job groups (R156). -/
theorem faultCmd_reruns {s : State} {id status : Nat} {rec : Option Nat} {c : Cmd} (hc : cmdAt s id = some c) (hph : c.phase = .running)
    (hjob : c.job = 0) (hrun : runningCores s id c ≠ []) :
    (∀ m ∈ runningCores s id c, (coreAt (faultCmd s id status rec true) m).st = .killed) ∧
      ∃ k, cmdAt (faultCmd s id status rec true) id = some k ∧ k.phase = .killing ∧ k.faultRuns = c.faultRuns + 1 ∧
        k.after = (if c.faultRuns + 1 < 3 then none else some status) := by
  have hfin : c.finished = false := by rw [Cmd.finished, hph]
  generalize hagain : (true && (c.job == 0) && decide (c.faultRuns + 1 < 3)) = again
  generalize hk1 : { c with faultId := if rec.isSome then rec else c.faultId, faultRuns := c.faultRuns + 1, recovered := c.recovered || again } = k1
  have hfault : faultCmd s id status rec true = killAttempt (setCmd s id k1) id (if again then none else some status) (status = 8 || !again) := by
    rw [← hk1, ← hagain]
    unfold faultCmd
    rw [hc]
    simp only [hfin, hph, Bool.false_eq_true, if_false, if_true, reduceCtorEq]
    exact if_pos hjob
  have hrun1 : runningCores (setCmd s id k1) id k1 = runningCores s id c := by
    rw [← hk1]
    rfl
  obtain ⟨hkilled, k, hk, hphase, hafter, hruns⟩ := killAttempt_kills_running (if again then none else some status) (status = 8 || !again)
    (cmdAt_setCmd_same s id k1) (by rw [hrun1]; exact hrun)
  rw [hfault]
  rw [hrun1] at hkilled
  refine ⟨hkilled, k, hk, hphase, ?_, ?_⟩
  · rw [hruns, ← hk1]
  · rw [hafter, ← hagain, hjob]
    simp only [beq_self_eq_true, Bool.and_self, Bool.true_and, decide_eq_true_eq]

/-- A core's reset ends its command's attempt and leaves its record RESETTING (R156, R420). -/
theorem resetCore_kills {s : State} {n id cause : Nat} {c : Cmd} (injected : Bool) (hn : (coreAt s n).cmd = some id) (hc : cmdAt s id = some c)
    (hph : c.phase = .running) (hjob : c.job = 0) (hmem : n ∈ runningCores s id c) :
    let t := resetCore s n cause injected
    (NoTeardown s → NoTeardown t) ∧ (coreAt t n).st = .killed ∧
      ((∀ e ∈ s.flt.recs, e.2.st.live = false) → ∀ i, recEntry s.flt.recs = some i →
        ∃ r, tfind t.flt.recs i = some r ∧ r.cause = cause ∧ r.severity = 3 ∧ r.unit = .core n ∧ r.st = .resetting) ∧
      ∃ k, cmdAt t id = some k ∧ k.phase = .killing ∧ k.faultRuns = c.faultRuns + 1 ∧ k.after = (if c.faultRuns + 1 < 3 then none else some 0x08) := by
  dsimp only
  obtain ⟨hcause, hsev, hunit, hx⟩ := nameCmd_keeps s { blankRec cause 3 (.core n) (coreAt s n).colony with
    status := 0x08, rank := (coreAt s n).rank, addr := (coreAt s n).pc, addrKind := 4, injected := injected } id
  simp only [resetCore, hn]
  generalize hr : nameCmd s _ id = r at hcause hsev hunit hx ⊢
  generalize hq : recordFault s r = q
  generalize hoffs : (cmdAt q.1 id).elim [] (fun x => x.samples) = offs
  generalize hu : diagWrite q.1 (coreAt s n).colony q.2 1 (coreAt s n).rank n offs (coreSample q.1 n offs) = u
  have hrep : OnlyReports s q.1 := hq ▸ onlyReports_recordFault s r
  have hcrew : crew u = crew s := by
    rw [← hu, aside_crew.diagWrite]
    exact onlyReports_view crew (fun _ _ _ _ => rfl) hrep
  have hleaves : Leaves q.1 (faultCmd u id 0x08 q.2 true) := by
    rw [← hu]
    exact (leaves_diagWrite ..).trans (leaves_faultCmd ..)
  obtain ⟨k, hk, heq⟩ := cmd_of_shadowless (congrFun (congrArg Prod.snd hcrew) id) hc
  have hcores : k.cores = c.cores := (congrArg Cmd.cores heq :)
  have hruns : k.faultRuns = c.faultRuns := (congrArg Cmd.faultRuns heq :)
  have hrun := runningCores_of_crew hcrew id hcores
  obtain ⟨hkilled, hcmd⟩ := faultCmd_reruns (status := 0x08) (rec := q.2) hk ((congrArg Cmd.phase heq :).trans hph) ((congrArg Cmd.job heq :).trans hjob)
    (by rw [hrun]; exact List.ne_nil_of_mem hmem)
  rw [hruns] at hcmd
  refine ⟨fun hno => hleaves.calm (leaves_onlyReports_cols hrep hno), hkilled n (by rw [hrun]; exact hmem), fun hidle i he => ?_, hcmd⟩
  have hsev0 : r.severity = 3 := hsev
  obtain ⟨-, htaken⟩ := recordFault_idle (r := r) hidle he (by rw [hsev0]; decide)
  rw [hq] at htaken
  obtain ⟨r', hr', hc', hs', hu', hst', -⟩ := rec_of_frame hleaves.frame htaken (show r.severity ≠ 1 by rw [hsev0]; decide)
  have hfirst : (r.taken s).st = .resetting := by
    show firstState r.severity = .resetting
    rw [hsev0]
    rfl
  exact ⟨r', hr', hc'.trans hcause, hs'.trans hsev, hu'.trans hunit, hst'.trans hfirst⟩

/- A channel is fenced (R211, R417). -/

/-- A channel as its fence leaves it. -/
def Channel.asFenced (c : Channel) : Channel :=
  { c with
    mode := .fenced, wipeBusy := false, rewipe := false, awaits := none, calBusy := false, retraining := false, dir := [], nacked := [], lines := []
    buf := [], queue := [], urgentFirst := false, colony := if c.mode == .transit then 0 else c.colony, claim := none }

theorem fenceChannel_eq {s : State} {n : Nat} (h : (chanAt s n).mode ≠ .fenced) :
    ∃ l, fenceChannel s n = { s with cmds := l, chans := tset s.chans n (chanAt s n).asFenced } := by
  have hgo : ((chanAt s n).mode == .fenced) = false := by simpa using h
  simp only [fenceChannel, hgo, Bool.false_eq_true, if_false, noteTransitFence, modCmd]
  split
  · split
    · exact ⟨_, rfl⟩
    · exact ⟨_, rfl⟩
  · exact ⟨_, rfl⟩

/-- A fence of a channel, with its records. -/
theorem fenceUnit_channel_eq {s : State} {n : Nat} (status : Nat) (rec : Option Nat) (h : (chanAt s n).mode ≠ .fenced) :
    ∃ l recs, afterFence (fenceUnit s (.channel n) status rec) =
        afterFence { s with cmds := l, chans := tset s.chans n (chanAt s n).asFenced, flt := { s.flt with recs := recs } } ∧
      ∀ i r, rec = some i → tfind s.flt.recs i = some r → r.st.live = true → r.xlt = false → tfind recs i = some { r with st := .fenced } := by
  obtain ⟨l, hl⟩ := fenceChannel_eq h
  have hunit : fenceUnit s (.channel n) status rec = fencedFor { s with cmds := l, chans := tset s.chans n (chanAt s n).asFenced } rec (.channel n) := by
    rw [← hl]
    rfl
  refine ⟨l, (fencedFor { s with cmds := l, chans := tset s.chans n (chanAt s n).asFenced } rec (.channel n)).flt.recs, ?_, fun i r hrec hr hlive hx => ?_⟩
  · rw [hunit]
    exact congrArg afterFence (fencedFor_eq ..)
  · rw [hrec]
    exact fencedFor_rec _ hr hlive hx

/- A control core is lost (R421). -/

theorem filter_tset {t : Tbl CtrlCore} {n : Nat} {x c : CtrlCore} (d : CtrlCore) (hx : x ≠ c) (hn : tget d t n ≠ c) :
    (tset t n x).filter (fun e => e.2 == c) = t.filter (fun e => e.2 == c) := by
  have hdrop (k : Nat) (v : CtrlCore) (hv : v ≠ c) (l : Tbl CtrlCore) : ((k, v) :: l).filter (fun e => e.2 == c) = l.filter (fun e => e.2 == c) :=
    List.filter_cons_of_neg (by simpa using hv)
  induction t with
  | nil => exact hdrop n x hx []
  | cons e r ih =>
    obtain ⟨k, v⟩ := e
    unfold tset
    split
    · exact hdrop n x hx _
    · split
      · next hk =>
        rw [tget, if_pos hk] at hn
        rw [hdrop n x hx, hdrop k v hn]
      · next hk =>
        rw [tget, if_neg hk] at hn
        simp only [List.filter_cons, ih hn]

theorem ctrlIn_setCtrl {s : State} {n : Nat} {x c : CtrlCore} (hx : x ≠ c) (hn : ctrlAt s n ≠ c) : ctrlIn (setCtrl s n x) c = ctrlIn s c := by
  show ((tset s.hub.ctrl n x).filter _).map _ = _
  rw [filter_tset .untested hx hn]
  rfl

theorem mem_ctrlIn_setCtrl (s : State) (n : Nat) (x : CtrlCore) : n ∈ ctrlIn (setCtrl s n x) x :=
  List.mem_map.mpr ⟨(n, x), List.mem_filter.mpr ⟨mem_tset_self .., by cases x <;> rfl⟩, rfl⟩

theorem ctrlAt_setCtrl_same (s : State) (n : Nat) (x : CtrlCore) : ctrlAt (setCtrl s n x) n = x := tget_tset_same ..
theorem ctrlAt_setCtrl_other (s : State) {n m : Nat} (x : CtrlCore) (h : m ≠ n) : ctrlAt (setCtrl s n x) m = ctrlAt s m := tget_tset_other _ _ _ h

theorem ctrl_of_frame {s t : State} (h : frame t = frame s) : t.hub.ctrl = s.hub.ctrl ∧ t.flt.fatal = s.flt.fatal ∧ t.flt.degraded = s.flt.degraded :=
  ⟨congrArg (fun v => v.1.hub.ctrl) h, congrArg (fun v => v.1.flt.fatal) h, congrArg (fun v => v.1.flt.degraded) h⟩

/-- The control cores where one is lost and others remain. -/
def ctrlLost (s : State) (n : Nat) (rec : Option Nat) : State :=
  noteLost (sexton (setCtrl s n .fenced) (640 + n)) 0 rec 0 0 (lostLines s (640 + n))

theorem ctrlLost_leaves (s : State) (n : Nat) (rec : Option Nat) : Leaves (setCtrl s n .fenced) (ctrlLost s n rec) :=
  (leaves_sexton _ _).trans (leaves_noteLost ..)

theorem ctrlLost_ctrl (s : State) (n : Nat) (rec : Option Nat) :
    (ctrlLost s n rec).hub.ctrl = tset s.hub.ctrl n .fenced ∧ (ctrlLost s n rec).flt.fatal = s.flt.fatal ∧ (ctrlLost s n rec).flt.degraded = s.flt.degraded :=
  ctrl_of_frame (ctrlLost_leaves s n rec).frame

/-- The work that is left, and whether it is enough. -/
def staffed (s : State) : State := if (ctrlIn s .active).length < 6 then { s with flt := { s.flt with degraded := true } } else s

theorem loseCtrl_eq {s u : State} {n : Nat} (rec : Option Nat)
    (hu : u = if ctrlAt s n == .active then (match ctrlIn (ctrlLost s n rec) .standby with | k :: _ => setCtrl (ctrlLost s n rec) k .active | [] => ctrlLost s n rec)
      else ctrlLost s n rec) (hleft : ctrlIn u .active ≠ []) : loseCtrl s n rec = staffed u := by
  have hlen : (ctrlIn u .active).length ≠ 0 := fun h => hleft (List.length_eq_zero_iff.mp h)
  have hlose : loseCtrl s n rec = if (ctrlIn u .active).length = 0 then deviceFault u 0x51 (.ctrlCore n) else staffed u := by
    rw [hu]
    rfl
  rw [hlose, if_neg hlen]

theorem staffed_eq (s : State) : staffed s = { s with flt := { s.flt with degraded := s.flt.degraded || decide ((ctrlIn s .active).length < 6) } } := by
  unfold staffed
  split
  · next h => rw [decide_eq_true h, Bool.or_true]
  · next h => rw [decide_eq_false h, Bool.or_false]

theorem loseCtrl_active {s : State} {n k : Nat} {rest : List Nat} (rec : Option Nat) (hn : ctrlAt s n = .active) (hk : ctrlIn s .standby = k :: rest) :
    loseCtrl s n rec = staffed (setCtrl (ctrlLost s n rec) k .active) := by
  have hstandby : ctrlIn (ctrlLost s n rec) .standby = k :: rest := by
    rw [ctrlIn, (ctrlLost_ctrl s n rec).1, ← hk]
    exact ctrlIn_setCtrl (by decide) (by rw [hn]; decide)
  refine loseCtrl_eq rec ?_ (List.ne_nil_of_mem (mem_ctrlIn_setCtrl ..))
  rw [hn, hstandby]
  rfl

theorem loseCtrl_standby {s : State} {n : Nat} (rec : Option Nat) (hn : ctrlAt s n = .standby) (hleft : ctrlIn s .active ≠ []) :
    loseCtrl s n rec = staffed (ctrlLost s n rec) := by
  have hactive : ctrlIn (ctrlLost s n rec) .active = ctrlIn s .active := by
    rw [ctrlIn, (ctrlLost_ctrl s n rec).1]
    exact ctrlIn_setCtrl (by decide) (by rw [hn]; decide)
  refine loseCtrl_eq rec ?_ (by rw [hactive]; exact hleft)
  rw [hn]
  rfl

/-- A fault that finds no live record and whose record ends in a state. -/
def Recorded (s t : State) (cause severity : Nat) (u : UnitRef) (st : RecState) : Prop :=
  (∀ e ∈ s.flt.recs, e.2.st.live = false) → ∀ i, recEntry s.flt.recs = some i →
    ∃ r, tfind t.flt.recs i = some r ∧ r.cause = cause ∧ r.severity = severity ∧ r.unit = u ∧ r.st = st

theorem onlyReports_takeHang (s : State) (kind n : Nat) : OnlyReports s (takeHang s kind n).1 ∧ (takeHang s kind n).1.flt.recs = s.flt.recs := by
  unfold takeHang
  split
  · exact ⟨onlyReports_flt .., rfl⟩
  · exact ⟨onlyReports_flt .., rfl⟩

/-- The record of a lost control core (R410, R417). -/
theorem ctrlLost_recorded {s s1 : State} {r : FaultRec} {n : Nat} (hrecs : s1.flt.recs = s.flt.recs) {t : State}
    (ht : t.flt.recs = (ctrlLost (recordFault s1 r).1 n (recordFault s1 r).2).flt.recs) (hsev : 3 ≤ r.severity) (hlive : (firstState r.severity).live = true)
    (hx : r.xlt = false) : Recorded s (fencedFor t (recordFault s1 r).2 (.ctrlCore n)) r.cause r.severity r.unit .fenced := by
  intro hidle i he
  rw [← hrecs] at hidle he
  obtain ⟨hi, htaken⟩ := recordFault_idle (r := r) hidle he (by omega)
  obtain ⟨r', hr', hcause, hsev', hunit, hst, hxlt⟩ := rec_of_frame (ctrlLost_leaves (recordFault s1 r).1 n (recordFault s1 r).2).frame
    (show tfind (setCtrl (recordFault s1 r).1 n .fenced).flt.recs i = some (r.taken s1) from htaken) (show r.severity ≠ 1 by omega)
  rw [← ht] at hr'
  rw [hi]
  exact fencedFor_keeps (r := r.taken s1) _ hr' hcause hsev' hunit hst hxlt hlive hx

/- A device stop (R425). -/

theorem flt_recordFault (s : State) (r : FaultRec) : ∃ recs last n w z, (recordFault s r).1.flt =
    { s.flt with recs := recs, last := last, unrecorded := n, unrecordedWin := w, unrecordedReset := z } := by
  unfold recordFault
  split
  · unfold mergeInto
    dsimp only
    split
    · exact ⟨_, _, _, _, _, rfl⟩
    · split
      · exact ⟨_, _, _, _, _, flt_faultIrq ..⟩
      · exact ⟨_, _, _, _, _, rfl⟩
  · split
    · exact ⟨_, _, _, _, _, flt_faultIrq ..⟩
    · exact ⟨_, _, _, _, _, flt_faultIrq ..⟩

/-- What a device stop leaves (R425, R426). -/
structure Halts (s t : State) (cause : Nat) : Prop where
  fatal : t.flt.fatal = true
  cause : t.flt.stopCause = cause
  alive : t.flt.alive = some false
  toggling : t.flt.toggling = false
  cores : t.cores = s.cores
  hbm : t.hbm = s.hbm

theorem deviceStop_halts {s : State} (cause : Nat) (h : s.flt.fatal = false) : Halts s (deviceStop s cause) cause := by
  have hgo : ¬ s.flt.fatal = true := by rw [h]; exact Bool.false_ne_true
  have hemit (t : State) : Halts s t cause → Halts s (emit t (.alive false)) cause := fun ⟨h1, h2, h3, h4, h5, h6⟩ => ⟨h1, h2, h3, h4, h5, h6⟩
  simp only [deviceStop, if_neg hgo]
  split
  · split
    · exact ⟨rfl, rfl, rfl, rfl, rfl, rfl⟩
    · exact ⟨rfl, rfl, rfl, rfl, rfl, rfl⟩
  · refine hemit _ ?_
    split
    · exact ⟨rfl, rfl, rfl, rfl, rfl, rfl⟩
    · exact ⟨rfl, rfl, rfl, rfl, rfl, rfl⟩

theorem deviceFault_halts {s : State} (cause : Nat) (u : UnitRef) (h : s.flt.fatal = false) : Halts s (deviceFault s cause u) cause := by
  have hrep := onlyReports_recordFault s (blankRec cause 5 u 0)
  obtain ⟨recs, last, k, w, z, hflt⟩ := flt_recordFault s (blankRec cause 5 u 0)
  obtain ⟨hfatal, hcause, halive, htog, hcores, hhbm⟩ := deviceStop_halts cause (s := (recordFault s (blankRec cause 5 u 0)).1) (by rw [hflt]; exact h)
  exact ⟨hfatal, hcause, halive, htog, hcores.trans (onlyReports_view State.cores (fun _ _ _ _ => rfl) hrep),
    hhbm.trans (onlyReports_view State.hbm (fun _ _ _ _ => rfl) hrep)⟩

/- A reset that ends (R410, R420). -/

theorem resetting_closeReset (s : State) (u : UnitRef) : resetting (closeReset s u) u = false := by
  simp only [resetting, closeReset, Bool.or_eq_false_iff, List.any_eq_false, List.mem_map]
  refine ⟨?_, ?_⟩
  · rintro e ⟨x, -, rfl⟩
    split
    · simp
    · next h => exact h
  · simp

theorem dropTags_drops (s : State) (n : Nat) : (coreAt (dropTags s n) n).tags = [] ∧ (coreAt (dropTags s n) n).st = (coreAt s n).st ∧
    (dropTags s n).cmds = s.cmds ∧ (dropTags s n).flt = s.flt ∧ (NoTeardown s → NoTeardown (dropTags s n)) := by
  have hkeep {α : Type} (view : State → α) (hview : ∀ t c i, view (inflightDec t c i) = view t) :
      view (dropTags s n) = view (modCore s n (fun c => { c with tags := [] })) := foldl_keeps view _ (fun t (g : DmaTag) => hview t g.colony g.instar) _ _
  have hcore : coreAt (dropTags s n) n = { coreAt s n with tags := [] } := (hkeep (fun t => coreAt t n) fun _ _ _ => rfl).trans (coreAt_modCore_same ..)
  refine ⟨by rw [hcore], by rw [hcore], hkeep State.cmds fun _ _ _ => rfl, hkeep State.flt fun _ _ _ => rfl, ?_⟩
  have hfold := leaves_foldl (fun t (g : DmaTag) => (stops_inflightDec t g.colony g.instar).leaves) (coreAt s n).tags (modCore s n (fun c => { c with tags := [] }))
  exact fun hno => hfold.calm hno

/- A channel whose fence a record begins or a host asks for (R410, R416). -/

/-- What the fence of a channel leaves once the rest has settled. -/
theorem channelFence_settles {s : State} {n : Nat} (status : Nat) (rec : Option Nat) (hno : NoTeardown s) (hm : (chanAt s n).mode ≠ .fenced) :
    ∃ l recs, afterFence (fenceUnit s (.channel n) status rec) =
        { s with cmds := l, chans := tset s.chans n (chanAt s n).asFenced, flt := { s.flt with recs := recs } } ∧
      ∀ i r, rec = some i → tfind s.flt.recs i = some r → r.st.live = true → r.xlt = false → tfind recs i = some { r with st := .fenced } := by
  obtain ⟨l, recs, heq, hrec⟩ := fenceUnit_channel_eq status rec hm
  exact ⟨l, recs, heq.trans (afterFence_idle hno), hrec⟩

theorem channelFence_fences {s t : State} {n : Nat} {l : Tbl Cmd} {f : Faults} (ht : t = { s with cmds := l, chans := tset s.chans n (chanAt s n).asFenced, flt := f }) :
    (chanAt t n).mode = .fenced ∧ (chanAt t n).dir = [] ∧ (chanAt t n).lines = [] ∧ (∀ m, m ≠ n → chanAt t m = chanAt s m) ∧ t.cores = s.cores ∧
      t.hbm = s.hbm := by
  subst ht
  have hself : chanAt { s with cmds := l, chans := tset s.chans n (chanAt s n).asFenced, flt := f } n = (chanAt s n).asFenced := tget_tset_same ..
  rw [hself]
  exact ⟨rfl, rfl, rfl, fun m hm => tget_tset_other _ _ _ hm, rfl, rfl⟩

theorem hangWindow_channel {s : State} {n : Nat} (hserv : serving s = true) (hno : NoTeardown s) (hn : n < 512) (hquiet : resetting s (.channel n) = false)
    (hm : (chanAt s n).mode ≠ .fenced) (hq : (chanAt s n).queue ≠ []) :
    ∃ t, exec (.hangWindowExpiry (.channel n)) s = .next t ∧ (chanAt t n).mode = .fenced ∧ (chanAt t n).dir = [] ∧ (chanAt t n).lines = [] ∧
      (∀ m, m ≠ n → chanAt t m = chanAt s m) ∧ Recorded s t (if channelHoldsOld s n then 0x15 else 0x13) 4 (.channel n) .fenced ∧ t.cores = s.cores ∧
      t.hbm = s.hbm := by
  obtain ⟨hhang, hrecs⟩ := onlyReports_takeHang s 8 n
  generalize hh : takeHang s 8 n = h at hhang hrecs
  let r : FaultRec := { blankRec (if channelHoldsOld s n then 0x15 else 0x13) 4 (.channel n) (chanAt h.1 n).colony with status := 0x09, injected := h.2 }
  have hrep := onlyReports_trans hhang (onlyReports_recordFault h.1 r)
  have hview {α : Type} (view : State → α) (hv : ∀ s f p o, view { s with flt := f, pcie := p, out := o } = view s) : view (recordFault h.1 r).1 = view s :=
    onlyReports_view view hv hrep
  have hchan (m : Nat) : chanAt (recordFault h.1 r).1 m = chanAt s m := hview (fun t => chanAt t m) fun _ _ _ _ => rfl
  obtain ⟨l, recs, heq, hrec⟩ := channelFence_settles (s := (recordFault h.1 r).1) (n := n) 0x09 (recordFault h.1 r).2 (leaves_onlyReports_cols hrep hno)
    (by rw [hchan]; exact hm)
  obtain ⟨hmode, hdir, hlines, hother, hcores, hhbm⟩ := channelFence_fences rfl (s := (recordFault h.1 r).1) (n := n) (l := l)
    (f := { (recordFault h.1 r).1.flt with recs := recs })
  refine ⟨_, ?_, hmode, hdir, hlines, fun m hm => (hother m hm).trans (hchan m), fun hidle i he => ?_, hcores.trans (hview State.cores fun _ _ _ _ => rfl),
    hhbm.trans (hview State.hbm fun _ _ _ _ => rfl)⟩
  · show execHangWindowExpiry (.channel n) s = _
    have hgo : (!serving s || resetting s (.channel n)) = false := by rw [hserv, hquiet]; rfl
    have hgo' : ((chanAt s n).mode == .fenced || ((chanAt s n).queue.isEmpty && !channelHoldsOld s n) || decide (512 ≤ n)) = false := by
      have h1 : ((chanAt s n).mode == .fenced) = false := by simpa using hm
      have h2 : (chanAt s n).queue.isEmpty = false := by simpa using hq
      rw [h1, h2, decide_eq_false (by omega)]
      rfl
    simp only [execHangWindowExpiry, hgo, hgo', hh, Bool.false_eq_true, if_false]
    exact next_congr heq
  · rw [← hrecs] at hidle he
    obtain ⟨hi, htaken⟩ := recordFault_idle (r := r) hidle he (show (4 : Nat) ≠ 0 by decide)
    exact ⟨_, hrec i _ hi htaken rfl rfl, rfl, rfl, rfl, rfl⟩

/-- A lost control core whose work another takes, or that had none (R421). -/
theorem watchdog_standby {s : State} {n k : Nat} {rest : List Nat} (hserv : serving s = true) (hn : ctrlAt s n = .active)
    (hk : ctrlIn s .standby = k :: rest) (hne : k ≠ n) :
    ∃ t, exec (.watchdogExpiry n) s = .next t ∧ ctrlAt t n = .fenced ∧ ctrlAt t k = .active ∧ t.flt.fatal = false ∧
      t.flt.degraded = (s.flt.degraded || decide ((ctrlIn t .active).length < 6)) ∧ Recorded s t 0x14 3 (.ctrlCore n) .fenced := by
  obtain ⟨hhang, hrecs⟩ := onlyReports_takeHang s 10 n
  have hhub : (takeHang s 10 n).1.flt.fatal = s.flt.fatal ∧ (takeHang s 10 n).1.flt.degraded = s.flt.degraded := by
    unfold takeHang
    split <;> exact ⟨rfl, rfl⟩
  generalize hh : takeHang s 10 n = h at hhang hrecs hhub
  let r : FaultRec := { blankRec 0x14 3 (.ctrlCore n) 0 with injected := h.2 }
  have hctrl : (recordFault h.1 r).1.hub = s.hub := onlyReports_view State.hub (fun _ _ _ _ => rfl) (onlyReports_trans hhang (onlyReports_recordFault h.1 r))
  obtain ⟨recs, last, j, w, z, hflt⟩ := flt_recordFault h.1 r
  have hlose := loseCtrl_active (s := (recordFault h.1 r).1) (recordFault h.1 r).2 (by rw [ctrlAt, hctrl]; exact hn) (by rw [ctrlIn, hctrl]; exact hk)
  have hlost := ctrlLost_leaves (recordFault h.1 r).1 n (recordFault h.1 r).2
  obtain ⟨hlctrl, hlfatal, hldeg⟩ := ctrlLost_ctrl (recordFault h.1 r).1 n (recordFault h.1 r).2
  generalize hu : setCtrl (ctrlLost (recordFault h.1 r).1 n (recordFault h.1 r).2) k .active = u at hlose
  have hunit : fenceUnit (recordFault h.1 r).1 (.ctrlCore n) 0 (recordFault h.1 r).2 = fencedFor (staffed u) (recordFault h.1 r).2 (.ctrlCore n) := by
    rw [← hlose]
    rfl
  have hforeign := fencedFor_eq (staffed u) (recordFault h.1 r).2 (.ctrlCore n)
  have hhub' : (fencedFor (staffed u) (recordFault h.1 r).2 (.ctrlCore n)).hub = u.hub := by rw [hforeign, staffed_eq]
  have hfatal' : (fencedFor (staffed u) (recordFault h.1 r).2 (.ctrlCore n)).flt.fatal = u.flt.fatal := by rw [hforeign, staffed_eq]
  have hdeg' : (fencedFor (staffed u) (recordFault h.1 r).2 (.ctrlCore n)).flt.degraded =
      (u.flt.degraded || decide ((ctrlIn u .active).length < 6)) := by rw [hforeign, staffed_eq]
  have huhub : u.hub.ctrl = tset (tset s.hub.ctrl n .fenced) k .active := by
    rw [← hu, ← hctrl, ← hlctrl]
    rfl
  have hserv' : s.flt.fatal = false := by
    simp only [serving, Bool.and_eq_true, Bool.not_eq_true'] at hserv
    exact hserv.2
  refine ⟨fencedFor (staffed u) (recordFault h.1 r).2 (.ctrlCore n), ?_, ?_, ?_, ?_, ?_, ?_⟩
  · show execWatchdogExpiry n s = _
    have hgo : (!serving s || ctrlAt s n != .active) = false := by rw [hserv, hn]; rfl
    simp only [execWatchdogExpiry, hgo, hh, Bool.false_eq_true, if_false]
    exact next_congr hunit
  · rw [ctrlAt, hhub', huhub, tget_tset_other _ _ _ (Ne.symm hne), tget_tset_same]
  · rw [ctrlAt, hhub', huhub, tget_tset_same]
  · rw [hfatal', ← hu]
    exact hlfatal.trans ((congrArg Faults.fatal hflt).trans (hhub.1.trans hserv'))
  · rw [hdeg', ctrlIn, ctrlIn, hhub', ← hu]
    exact congrArg (· || _) (hldeg.trans ((congrArg Faults.degraded hflt).trans hhub.2))
  · refine ctrlLost_recorded (r := r) (n := n) hrecs ?_ (Nat.le_refl 3) rfl rfl
    rw [staffed_eq, ← hu]
    rfl

theorem ctrlError_standby {s : State} {n : Nat} (hserv : serving s = true) (hn : ctrlAt s n = .standby) (hleft : ctrlIn s .active ≠ []) :
    ∃ t, exec (.controlCoreUncorrectableError n) s = .next t ∧ ctrlAt t n = .fenced ∧ (∀ m, m ≠ n → ctrlAt t m = ctrlAt s m) ∧
      t.flt.fatal = false ∧ Recorded s t 0x23 4 (.ctrlCore n) .fenced := by
  let r : FaultRec := { blankRec 0x23 4 (.ctrlCore n) 0 with status := 0 }
  have hctrl : (recordFault s r).1.hub = s.hub := onlyReports_view State.hub (fun _ _ _ _ => rfl) (onlyReports_recordFault s r)
  obtain ⟨recs, last, j, w, z, hflt⟩ := flt_recordFault s r
  have hlose := loseCtrl_standby (s := (recordFault s r).1) (recordFault s r).2 (by rw [ctrlAt, hctrl]; exact hn) (by rw [ctrlIn, hctrl]; exact hleft)
  obtain ⟨hlctrl, hlfatal, hldeg⟩ := ctrlLost_ctrl (recordFault s r).1 n (recordFault s r).2
  generalize hu : ctrlLost (recordFault s r).1 n (recordFault s r).2 = u at hlose hlctrl hlfatal
  have hunit : fenceUnit (recordFault s r).1 (.ctrlCore n) 0 (recordFault s r).2 = fencedFor (staffed u) (recordFault s r).2 (.ctrlCore n) := by
    rw [← hlose]
    rfl
  have hforeign := fencedFor_eq (staffed u) (recordFault s r).2 (.ctrlCore n)
  have hhub' : (fencedFor (staffed u) (recordFault s r).2 (.ctrlCore n)).hub.ctrl = tset s.hub.ctrl n .fenced := by
    rw [hforeign, staffed_eq, ← hctrl]
    exact hlctrl
  have hfatal' : (fencedFor (staffed u) (recordFault s r).2 (.ctrlCore n)).flt.fatal = u.flt.fatal := by rw [hforeign, staffed_eq]
  have hserv' : s.flt.fatal = false := by
    simp only [serving, Bool.and_eq_true, Bool.not_eq_true'] at hserv
    exact hserv.2
  refine ⟨fencedFor (staffed u) (recordFault s r).2 (.ctrlCore n), ?_, ?_, fun m hm => ?_, ?_, ?_⟩
  · show execControlCoreUncorrectableError n s = _
    have hgo : (!serving s || !(ctrlAt s n == .active || ctrlAt s n == .standby)) = false := by rw [hserv, hn]; rfl
    simp only [execControlCoreUncorrectableError, hgo, Bool.false_eq_true, if_false, fenceFault, nameUnit]
    exact next_congr hunit
  · rw [ctrlAt, hhub', tget_tset_same]
  · rw [ctrlAt, hhub', tget_tset_other _ _ _ hm]
    rfl
  · rw [hfatal']
    exact hlfatal.trans ((congrArg Faults.fatal hflt).trans hserv')
  · refine ctrlLost_recorded (r := r) (n := n) rfl ?_ (Nat.le_succ 3) rfl rfl
    rw [staffed_eq, ← hu]

/-- Settles O51, unit by unit: a hung core and a hung channel, the ends of resets, lost control cores, device stops, reaction windows. -/
theorem hangsAndReactions : Obligations.HangsAndReactions := by
  unfold Obligations.HangsAndReactions
  intro s hserv hno
  have hfatal : s.flt.fatal = false := by
    simp only [serving, Bool.and_eq_true, Bool.not_eq_true'] at hserv
    exact hserv.2
  dsimp only
  refine ⟨fun n id c hn hquiet hcmd hc hph hjob hmem hold htr hbar => ?hung, fun n hn hquiet hm hq => hangWindow_channel hserv hno hn hquiet hm hq,
    fun n hres => ?engine, fun n hres hst => ?core, fun n hres hst => ?timeout, fun n k rest hn hk hne => watchdog_standby hserv hn hk hne,
    fun n hn hleft => ctrlError_standby hserv hn hleft, ?check, fun d hd => ?quarantine, fun i r n hi hr hst hx hu hm => ?window,
    fun i n hi hu hm => ?unrecorded, fun htog => ?alive⟩
  case hung =>
    obtain ⟨hhang, hrecs⟩ := onlyReports_takeHang s 7 n
    generalize hh : takeHang s 7 n = h at hhang hrecs
    have hcores : h.1.cores = s.cores := onlyReports_view State.cores (fun _ _ _ _ => rfl) hhang
    have hcmds : h.1.cmds = s.cmds := onlyReports_view State.cmds (fun _ _ _ _ => rfl) hhang
    have hcore : coreAt h.1 n = coreAt s n := by rw [coreAt, hcores, coreAt]
    obtain ⟨hcalm, hkilled, hrecorded, k, hk, hkph, hkruns, hkafter⟩ := resetCore_kills (s := h.1) (cause := 0x10) h.2 (by rw [hcore]; exact hcmd)
      (by rw [cmdAt, hcmds]; exact hc) hph hjob (by rw [runningCores]; simp only [coreAt, hcores]; exact hmem)
    refine ⟨resetCore h.1 n 0x10 h.2, k, ?_, hkilled, fun hidle i he => ?_, hk, hkph, hkruns, hkafter⟩
    · show execHangWindowExpiry (.core n) s = _
      have hgo : (!serving s || resetting s (.core n)) = false := by rw [hserv, hquiet]; rfl
      have hrun : (coreAt s n).st = .running := (mem_runningCores hmem).2.1
      have hhung : hangCore s n = resetCore h.1 n 0x10 h.2 := by
        simp only [hangCore, hrun, hold, hcmd, htr, hbar, hh, reduceCtorEq, Bool.false_eq_true, if_false, bne_self_eq_false]
      simp only [execHangWindowExpiry, hgo, hhung, Bool.false_eq_true, if_false]
      exact next_congr (settleColonies_idle (hcalm (leaves_onlyReports_cols hhang hno)))
    · rw [← hrecs] at hidle he
      exact hrecorded hidle i he
  case engine =>
    refine ⟨modEngine (closeReset s (.copyEngine n)) n (fun x => { x with inService := true }), ?_, ?_, resetting_closeReset s _, fun m hm => ?_, rfl, rfl⟩
    · show execEngineResetDone (.copyEngine n) s = _
      have hgo : (!serving s || !resetting s (.copyEngine n)) = false := by rw [hserv, hres]; rfl
      simp only [execEngineResetDone, hgo, Bool.false_eq_true, if_false]
    · exact congrArg CopyEngine.inService (tget_tset_same ..)
    · exact engineAt_modEngine_ne _ _ hm
  case core =>
    obtain ⟨htags, hcst, hcmds, hflt, hcalm⟩ := dropTags_drops (closeReset s (.core n)) n
    refine ⟨dropTags (closeReset s (.core n)) n, ?_, ?_, hcst, htags, hcmds⟩
    · show execEngineResetDone (.core n) s = _
      have hgo : (!serving s || !resetting s (.core n)) = false := by rw [hserv, hres]; rfl
      simp only [execEngineResetDone, hgo, Bool.false_eq_true, if_false, if_neg hst]
      exact next_congr (settleColonies_idle (hcalm hno))
    · rw [resetting, hflt]
      exact resetting_closeReset s (.core n)
  case timeout =>
    generalize hi : (s.flt.recs.find? (fun e => e.2.st == .resetting && e.2.unit == .core n)).map (fun e => e.1) = i
    generalize hu : ({ s with flt := { s.flt with unrecordedReset := s.flt.unrecordedReset.filter (fun x => x != .core n) } } : State) = u
    have hcore : coreAt u n = coreAt s n := by rw [← hu]; rfl
    have hleaves := fenceCore_leaves (s := u) (n := n) 0x09 i (by rw [hcore]; exact hst)
    have hcalm : NoTeardown (fenceCore u n 0x09 i) := hleaves.calm (by rw [← hu]; exact hno)
    have hfence : (coreAt (fenceCore u n 0x09 i) n).fence = some true := by
      rw [fence_of_frame hleaves.frame, coreAt_setCore_same]
      rfl
    have hunit : fenceUnit u (.core n) 0x09 i = fencedFor (fenceCore u n 0x09 i) i (.core n) := rfl
    have hforeign := fencedFor_eq (fenceCore u n 0x09 i) i (.core n)
    obtain ⟨hfst, hfpend⟩ := fenced_of_fence hfence
    refine ⟨fencedFor (fenceCore u n 0x09 i) i (.core n), ?_, ?_, ?_⟩
    · show execEngineResetTimeout (.core n) s = _
      have hgo : (!serving s || !resetting s (.core n)) = false := by rw [hserv, hres]; rfl
      simp only [execEngineResetTimeout, hgo, Bool.false_eq_true, if_false, hi, hu, hunit]
      refine next_congr (afterFence_idle ?_)
      rw [hforeign]
      exact hcalm
    · rw [hforeign]
      exact hfst
    · rw [hforeign]
      exact hfpend
  case check =>
    obtain ⟨h1, h2, h3, h4, h5, h6⟩ := deviceFault_halts 0x52 .none hfatal
    refine ⟨deviceFault s 0x52 .none, ?_, h1, h2, h3, h4, h5, h6⟩
    show execCollectorSelfCheckFailure s = _
    rw [execCollectorSelfCheckFailure, if_pos hserv]
  case quarantine =>
    obtain ⟨h1, h2, h3, h4, h5, h6⟩ := deviceFault_halts 0x50 (.die d) hfatal
    refine ⟨deviceFault s 0x50 (.die d), ?_, h1, h2, h3, h4, h5, h6⟩
    show execQuarantineTimeout d s = _
    rw [execQuarantineTimeout, if_pos (by rw [hserv, hd]; rfl)]
  case window =>
    obtain ⟨l, recs, heq, hrec⟩ := channelFence_settles 0x09 (some i) hno hm
    obtain ⟨hmode, -, -, hother, -, hhbm⟩ := channelFence_fences rfl (s := s) (n := n) (l := l) (f := { s.flt with recs := recs })
    have hlive : r.st.live = true := by rw [hst]; rfl
    have hrec' := hrec i r rfl hr hlive hx
    refine ⟨⟨_, ?_, hmode, hother, hrec', hhbm⟩, fun hpf => ⟨⟨_, ?_, hmode, hother, hrec', hhbm⟩, ?_⟩⟩
    · show execReactionWindowExpiry i s = _
      have hi' : ¬ 512 ≤ i := by omega
      simp only [execReactionWindowExpiry, hserv, hi', hr, hst, hu, heq, Bool.not_true, Bool.false_eq_true, if_false, if_true]
    · show execFltAckFence i s = _
      simp only [execFltAckFence, hr, hpf, hserv, hst, hu, heq, Bool.and_self, beq_self_eq_true, if_true]
    · refine ⟨modChan (modRec s i (fun x => { x with st := .closed })) n (fun c => { c with ueFaults := 0 }), ?_, ?_, ?_, ?_, ?_, ?_, ?_⟩
      · show execFltAckKeep i s = _
        simp only [execFltAckKeep, hr, hpf, hserv, hst, hu, Bool.and_self, beq_self_eq_true, if_true, restartCount]
      all_goals simp only [modRec, hr]
      · exact tfind_tset_same ..
      · exact tget_tset_same ..
      · exact fun m hm => tget_tset_other _ _ _ hm
      · exact fun j hj => tfind_tset_other _ _ hj
      · rfl
      · rfl
  case unrecorded =>
    generalize hv : ({ s with flt := { s.flt with unrecordedWin := s.flt.unrecordedWin.eraseIdx (i - 512) } } : State) = v
    have hno' : NoTeardown v := by rw [← hv]; exact hno
    have hm' : (chanAt v n).mode ≠ .fenced := by rw [← hv]; exact hm
    obtain ⟨l, recs, heq, -⟩ := channelFence_settles 0x09 none hno' hm'
    obtain ⟨hmode, -, -, -, -, hhbm⟩ := channelFence_fences rfl (s := v) (n := n) (l := l) (f := { v.flt with recs := recs })
    refine ⟨_, ?_, hmode, by rw [← hv], hhbm.trans (by rw [← hv])⟩
    show execReactionWindowExpiry i s = _
    simp only [execReactionWindowExpiry, hserv, hi, hu, hv, heq, Bool.not_true, Bool.false_eq_true, if_false, if_true]
  case alive =>
    refine ⟨emit { s with flt := { s.flt with alive := some (!(s.flt.alive.getD false)), beats := wrapAdd 32 s.flt.beats 1 } } (.alive (!(s.flt.alive.getD false))),
      ?_, rfl, rfl, rfl⟩
    show execAliveToggle s = _
    have hgo : (!s.flt.toggling || s.flt.fatal) = false := by rw [htog, hfatal]; rfl
    simp only [execAliveToggle, hgo, Bool.false_eq_true, if_false]

end Sys2Proof.Machine
end
section
/-! PROOFS. Replies to a collective's requests (R197, R347, R357, R359, R361, R363, R423). -/

namespace Sys2Proof.Machine

/- A reply that nothing awaits (R423). -/

theorem lateReply_counts {s : State} {h : FabHeader} (hd : (portAt s h.tagPort).drain = []) :
    (lateReply s h).flt.late = satInc 32 s.flt.late ∧ (lateReply s h).cmds = s.cmds ∧ (lateReply s h).ports = s.ports ∧
      (lateReply s h).cores = s.cores ∧ (lateReply s h).hbm = s.hbm ∧ (NoTeardown s → NoTeardown (lateReply s h)) ∧
      (1 ≤ h.scol → h.scol ≤ 64 → (colAt (lateReply s h) h.scol).stale =
        (if ((colAt s h.scol).cur.valid = true ∧ (colAt s h.scol).cur.instar = h.instar) ∨ ((colAt s h.scol).old.valid = true ∧ (colAt s h.scol).old.instar = h.instar)
          then (colAt s h.scol).stale else satInc 32 (colAt s h.scol).stale)) := by
  simp only [lateReply, hd, List.find?_nil]
  split
  · next hgo =>
    refine ⟨rfl, rfl, rfl, rfl, rfl, id, fun h1 h64 => ?_⟩
    rw [if_pos]
    · rfl
    · simp only [Bool.or_eq_true, decide_eq_true_eq, Bool.and_eq_true, beq_iff_eq] at hgo
      exact (hgo.resolve_right (by omega)).resolve_right (by omega)
  · next hgo =>
    refine ⟨rfl, rfl, rfl, rfl, rfl, fun hno => noTeardown_setCol (s := { s with flt := { s.flt with late := satInc 32 s.flt.late } }) rfl hno, fun h1 h64 => ?_⟩
    rw [if_neg]
    · exact congrArg Colony.stale (colAt_modCol_same ..)
    · simp only [Bool.or_eq_true, decide_eq_true_eq, Bool.and_eq_true, beq_iff_eq] at hgo
      exact fun h => hgo (.inl (.inl h))

/- A request that is answered (R357, R423). -/

theorem freeReq_eq (s : State) (e : Nat) (r : FabReq) : ∃ p c, freeReq s e r = setCol (setPort s e p) r.colony c ∧
    p = { portAt s e with reqs := (portAt s e).reqs.filter (fun x => x.tag != r.tag) } ∧
    c.st = (colAt s r.colony).st ∧ c.stalled = (colAt s r.colony).stalled ∧ c.cur.ports = (colAt s r.colony).cur.ports := by
  refine ⟨_, _, rfl, rfl, ?_⟩
  dsimp only
  split <;> exact ⟨rfl, rfl, rfl⟩

theorem cmdAt_freeReq (s : State) (e : Nat) (r : FabReq) (id : Nat) : cmdAt (freeReq s e r) id = cmdAt s id := rfl

theorem freeReq_leaves (s : State) (e : Nat) (r : FabReq) : Leaves s (freeReq s e r) := by
  have hport : Leaves s (modPort s e (fun p => { p with reqs := p.reqs.filter (fun x => x.tag != r.tag) })) := leaves_modPort fun _ => rfl
  exact hport.trans (stops_finishReqs _ [r]).leaves

/-- A collective's port engine is free for it after a request's answer as before. -/
theorem engine_freeReq {s : State} {c : Cmd} (e : Nat) (r : FabReq) (h : engineHalted s (localEngine s c) = false) :
    engineHalted (freeReq s e r) (localEngine (freeReq s e r) c) = false := by
  obtain ⟨p, x, heq, hp, -, hstalled, hports⟩ := freeReq_eq s e r
  have hst (n : Nat) : (portAt (setPort s e p) n).st = (portAt s n).st ∧ (portAt (setPort s e p) n).want = (portAt s n).want := by
    by_cases hn : n = e
    · rw [hn, portAt_setPort_same, hp]
      exact ⟨rfl, rfl⟩
    · rw [portAt_setPort_other _ _ hn]
      exact ⟨rfl, rfl⟩
  have hcols : (colAt (freeReq s e r) c.colony).cur.ports = (colAt s c.colony).cur.ports := by
    rw [heq]
    by_cases hc : c.colony = r.colony
    · rw [hc, colAt_setCol_same, hports]
    · exact congrArg (fun y : Colony => y.cur.ports) (colAt_setCol_other (setPort s e p) x hc)
  have hfst (n : Nat) : (portAt (freeReq s e r) n).st = (portAt s n).st := by
    rw [heq]
    exact (hst n).1
  have heng : localEngine (freeReq s e r) c = localEngine s c := by
    simp only [localEngine, hcols, hfst]
  rw [heng, heq]
  refine engineHalted_setCol (s := setPort s e p) hstalled ?_
  have hhalt : engineHalted (setPort s e p) (localEngine s c) = engineHalted s (localEngine s c) := by
    simp only [engineHalted, (hst _).2]
    rfl
  rw [hhalt]
  exact h

/-- The last acknowledgement awaited ends the step, and with it the attempt (R361). -/
theorem progress_lastAck {s : State} {id i : Nat} {c : Cmd} {p : PlanStep} {f : PlanStep → PlanStep} (hc : cmdAt s id = some c)
    (hcoll : c.isCollective = true) (hop : c.op ≠ 0x30) (hph : c.phase = .running) (hh : engineHalted s (localEngine s c) = false)
    (hp : c.plan[i]? = some p) (hf : (f p).done = true) (hothers : ∀ j q, j ≠ i → c.plan[j]? = some q → q.done = true) :
    ∃ k, cmdAt (progress (modStep s id i f) id) id = some k ∧ k.phase = .ended ∧ (progress (modStep s id i f) id).hbm = s.hbm ∧
      (progress (modStep s id i f) id).ports = s.ports ∧ (progress (modStep s id i f) id).cols = s.cols := by
  have hdone (q : PlanStep) (hq : q ∈ changeStep i f c.plan) : q.done = true := by
    obtain ⟨j, hj⟩ := List.mem_iff_getElem?.mp hq
    rw [getElem?_changeStep] at hj
    obtain ⟨q', hq', rfl⟩ := Option.map_eq_some_iff.mp hj
    by_cases hij : j = i
    · rw [hij, hp] at hq'
      rw [if_pos hij, ← Option.some.inj hq']
      exact hf
    · rw [if_neg hij]
      exact hothers j q' hij hq'
  have hck : cmdAt (setCmd s id { c with plan := changeStep i f c.plan }) id = some { c with plan := changeStep i f c.plan } := cmdAt_setCmd_same ..
  rw [modStep_eq i f hc, progress_idle hck hph hcoll hh (fun h => absurd h hop) (fun q hq => .inl (hdone q hq))]
  simp only [finishCollective, hck]
  rw [if_pos ⟨hph, List.all_eq_true.mpr hdone, .inl hop⟩, chargeAttempt_eq hck, modCmd_some _ (cmdAt_setCmd_same ..)]
  exact ⟨_, cmdAt_setCmd_same .., rfl, rfl, rfl, rfl⟩

/- A refusal that ends the command (R359, R363). -/

theorem cmdAt_stampFin {s : State} {id : Nat} {k : Cmd} (hk : cmdAt s id = some k) : cmdAt (stampFin s id) id = some { k with fin := s.hub.finished } := by
  have hmod := modCmd_some (s := modHub s (fun h => { h with finished := h.finished + 1 })) (fun c => { c with fin := s.hub.finished }) hk
  rw [stampFin, hmod]
  exact cmdAt_setCmd_same ..

theorem cmdAt_closeCmdRec (s : State) (c : Cmd) (id : Nat) : cmdAt (closeCmdRec s c) id = cmdAt s id := by
  unfold closeCmdRec modRec
  split
  · split <;> rfl
  · rfl

theorem cmdAt_endOne {s : State} {id : Nat} {c : Cmd} (status detail result : Nat) (hc : cmdAt s id = some c) (hfin : c.finished = false) :
    ∃ k, cmdAt (endOne s id status detail result) id = some k ∧ k.phase = .done ∧ k.status = status := by
  obtain ⟨k, hk, hph, hst⟩ : ∃ k, endOne s id status detail result = closeCmdRec (stampFin (setCmd (freeEngines (endReqs s id) id) id k) id) c ∧
      k.phase = .done ∧ k.status = status := by
    unfold endOne
    simp only [hc, hfin, Bool.false_eq_true, if_false]
    exact ⟨_, rfl, rfl, rfl⟩
  rw [hk, cmdAt_closeCmdRec, cmdAt_stampFin (cmdAt_setCmd_same ..)]
  exact ⟨_, rfl, hph, hst⟩

theorem cmdAt_endCmd {s : State} {id : Nat} {c : Cmd} (status detail result : Nat) (hc : cmdAt s id = some c) (hfin : c.finished = false) :
    ∃ k, cmdAt (endCmd s id status detail result) id = some k ∧ k.phase = .done ∧ k.status = status := by
  obtain ⟨k, hk, hd, hst⟩ := cmdAt_endOne status detail result hc hfin
  have hlater {t : State} (h : Stops (endOne s id status detail result) t) : ∃ k, cmdAt t id = some k ∧ k.phase = .done ∧ k.status = status := by
    obtain ⟨k', hk', hd', hst'⟩ := h.done id k hk hd
    exact ⟨k', hk', hd', hst'.trans hst⟩
  unfold endCmd
  simp only [hc, hfin, Bool.false_eq_true, if_false]
  split
  · exact ⟨k, hk, hd, hst⟩
  · split
    · exact ⟨k, hk, hd, hst⟩
    · split
      · exact hlater ((stops_startedOnce ..).trans (stops_endOne ..))
      · exact hlater ((stops_unclaimed ..).trans ((stops_startedOnce ..).trans (stops_endOne ..)))

/-- An abort of an attempt none of whose cores run ends its command at once (R175). -/
theorem abortCmd_ends {s : State} {id status : Nat} {c : Cmd} (hc : cmdAt s id = some c) (hph : c.phase = .running) (hrun : runningCores s id c = []) :
    ∃ k, cmdAt (abortCmd s id status) id = some k ∧ k.phase = .done ∧ k.status = status := by
  have habort : abortCmd s id status = killAttempt s id (some status) true := by
    simp only [abortCmd, hc, hph]
  obtain ⟨k, hk, hkph, -, hafter⟩ := cmdAt_stopped s id c (some status) true
  have hempty : (runningCores s id c).isEmpty = true := by rw [hrun]; rfl
  rw [habort, killAttempt_eq _ _ hc, hempty]
  dsimp only
  rw [if_pos rfl]
  simp only [finishKill, hk, hafter]
  exact cmdAt_endCmd _ _ _ (cmdAt_setCmd_same ..) (by rw [Cmd.finished]; simp only [hkph])

/-- A refusal with a status ends the collective, and aborts its group once (R359, R363). -/
theorem endCollective_ends {s : State} {id status : Nat} {c : Cmd} (hc : cmdAt s id = some c) (hph : c.phase = .running) (hjob : c.job ≠ 0)
    (hrun : runningCores s id c = []) :
    ∃ k, cmdAt (endCollective s id status) id = some k ∧ k.phase = .done ∧ k.status = status ∧
      (endCollective s id status).fab.raised = (s.fab.raised + 1) % 2 ^ 32 ∧ c.job ∈ (colAt (endCollective s id status) c.colony).aborted ∧
      (NoTeardown s → NoTeardown (endCollective s id status)) := by
  have hend : endCollective s id status = raiseAbort (abortCmd s id status) c.colony c.job status id none := by
    simp only [endCollective, hc]
  obtain ⟨k, hk, hd, hst⟩ := abortCmd_ends (status := status) hc hph hrun
  have hstop := stops_abortCmd s id status
  obtain ⟨hdone, hraised, hmark⟩ := raiseAbort_marks (abortCmd s id status) (colony := c.colony) status id none hjob
  obtain ⟨k', hk', hd', hst'⟩ := hdone id k hk hd
  rw [hend]
  refine ⟨k', hk', hd', hst'.trans hst, ?_, hmark, fun hno => (leaves_raiseAbort ..).calm (hstop.calm hno)⟩
  rw [hraised, hstop.fab]

/- A request that waited after BUSY (R359). -/

/-- The scratch's partials go out again to the same peer (R357, R359). -/
theorem sendUnits_again {s : State} {c : Cmd} {r : FabReq} {p : PlanStep} (n out : Nat) (eng : Option Nat) (hop : p.op = 1) (hbuf : p.buf = 1) :
    ∃ t q, sendUnits s r.cmd r.step c eng p r.unit r.units n out r.tag = (t, true) ∧ q ∈ (portAt t n).reqs ∧ (NoTeardown s → NoTeardown t) ∧
      q.tag = r.tag ∧ q.waiting = false ∧ q.cmd = r.cmd ∧ q.step = r.step ∧ q.unit = r.unit ∧ q.units = r.units ∧ q.kind = .add := by
  simp only [sendUnits, sendData, hop, hbuf, if_true, Nat.one_ne_zero, if_false]
  generalize ((scratchOf c r.unit r.units).flatMap fun e => leBytes 16 (elemWide e).toNat) = d
  generalize hhigh : (scratchOf c r.unit r.units).any elemHigh = high
  generalize ht1 : modCmd s r.cmd (fun x => { x with high := x.high || high }) = t1
  have hno1 (hno : NoTeardown s) : NoTeardown t1 := by
    rw [← ht1]
    exact (leaves_modCmd ..).calm hno
  generalize requestHeader t1 c n r.tag p.window c.cseqNo (p.roff + (r.unit - p.loff)) p.peer c.cAnchor high = hd
  generalize hq : ({ tag := r.tag, kind := .add, cmd := r.cmd, step := r.step, unit := r.unit, units := r.units, colony := c.colony
                     instar := stampOf t1 c.colony, xepoch := (colAt t1 c.colony).epoch, dst := p.peer, window := p.window, offset := hd.offset } : FabReq) = q
  have hinc (t : State) (colony instar : Nat) : NoTeardown t → NoTeardown (inflightInc t colony instar) :=
    (stops_modCol (s := t) (n := colony) fun x => by split <;> exact ⟨rfl, rfl⟩).calm
  have hcount (t : State) (f : Acct → Acct) : (countFor t r.cmd c.colony f).ports = t.ports ∧ (countFor t r.cmd c.colony f).cols = t.cols := by
    unfold countFor
    split
    · split <;> exact ⟨rfl, rfl⟩
    · exact ⟨rfl, rfl⟩
  generalize hu : modPort t1 n (fun y => { y with reqs := y.reqs.filter (fun x => x.tag != r.tag) ++ [q] }) = u
  have hmem : q ∈ (portAt u n).reqs := by
    rw [← hu, portAt_modPort_same]
    exact List.mem_append_right _ (List.mem_singleton.mpr rfl)
  have hnou (hno : NoTeardown t1) : NoTeardown u := by rw [← hu]; exact hno
  have hput := still_putPacket (inflightInc u c.colony (stampOf t1 c.colony)) out c.cls 2 hd d
  generalize putPacket (inflightInc u c.colony (stampOf t1 c.colony)) out c.cls 2 hd d = w at hput ⊢
  obtain ⟨hports, hcols⟩ := hcount w (addFab out d.length)
  have hreqs : (portAt w n).reqs = (portAt u n).reqs := (congrArg Port.reqs (quiet_of_still hput n) :)
  refine ⟨_, q, rfl, ?_, fun hno => noTeardown_congr hcols (noTeardown_congr (cols_of_still hput) (hinc _ _ _ (hnou (hno1 hno)))), ?_⟩
  · rw [portAt, hports, ← portAt, hreqs]
    exact hmem
  · rw [← hq]
    exact ⟨rfl, rfl, rfl, rfl, rfl, rfl, rfl⟩

/- A reply that its command awaits finds it as it stands once the packet has been noted (R335, R347). -/

theorem wack_ends {s : State} {h : FabHeader} {r : FabReq} {c : Cmd} {p : PlanStep} (hr : requestOf s h = some r) (hc : cmdAt s r.cmd = some c)
    (hph : c.phase = .running) (hno : NoTeardown s) (hcoll : c.isCollective = true) (hop : c.op ≠ 0x30) (hp : c.plan[r.step]? = some p)
    (hcount : p.count ≤ p.acked + r.units) (hh : engineHalted s (localEngine s c) = false)
    (hothers : ∀ j q, j ≠ r.step → c.plan[j]? = some q → q.done = true) :
    let t := settleColonies (progress (modStep (freeReq s h.tagPort r) r.cmd r.step (fun p =>
      { p with acked := p.acked + r.units, done := decide (p.count ≤ p.acked + r.units) })) r.cmd)
    ∃ k, cmdAt t r.cmd = some k ∧ k.phase = .ended ∧ (∀ x ∈ (portAt t h.tagPort).reqs, x.tag ≠ h.tag) ∧ t.hbm = s.hbm := by
  dsimp only
  have htag : r.tag = h.tag := by
    have hfound := List.find?_some hr
    simp only [Bool.and_eq_true, beq_iff_eq] at hfound
    exact hfound.1
  obtain ⟨k, hk, hkph, hhbm, hports, hcols⟩ := progress_lastAck (s := freeReq s h.tagPort r) (f := fun p =>
    { p with acked := p.acked + r.units, done := decide (p.count ≤ p.acked + r.units) }) hc hcoll hop hph (engine_freeReq h.tagPort r hh) hp
    (decide_eq_true hcount) hothers
  rw [settleColonies_idle (noTeardown_congr hcols ((freeReq_leaves ..).calm hno))]
  refine ⟨k, hk, hkph, fun x hx => ?_, hhbm⟩
  rw [portAt, hports] at hx
  obtain ⟨q, y, heq, hq, -⟩ := freeReq_eq s h.tagPort r
  have hport : portAt (freeReq s h.tagPort r) h.tagPort = q := by
    rw [heq]
    exact portAt_setPort_same ..
  have hx' : x ∈ (portAt (freeReq s h.tagPort r) h.tagPort).reqs := hx
  rw [hport, hq] at hx'
  obtain ⟨-, hne⟩ := List.mem_filter.mp hx'
  rw [← htag]
  simpa using hne

theorem refuse_busy {s : State} {h : FabHeader} {r : FabReq} (hr : requestOf s h = some r) :
    let t := modPort s h.tagPort (fun p => { p with reqs := p.reqs.map (fun x => if x.tag = r.tag then { x with waiting := true, busy := x.busy + 1 } else x) })
    OnlyPort s t h.tagPort ∧ ∃ x ∈ (portAt t h.tagPort).reqs, x = { r with waiting := true, busy := r.busy + 1 } := by
  refine ⟨⟨rfl, fun m hm => portAt_setPort_other _ _ hm⟩, _, ?_, rfl⟩
  rw [portAt_modPort_same]
  exact List.mem_map.mpr ⟨r, List.mem_of_find?_eq_some hr, if_pos rfl⟩

/-- Settles O42, reply by reply: late, acknowledged, refused with BUSY or a status, and the retry. -/
theorem collectiveReplies : Obligations.CollectiveReplies := by
  unfold Obligations.CollectiveReplies
  intro s port h ha hrep
  obtain ⟨d, hd⟩ := noteDelivered_eq s port h.bseq
  have hbulk : bulkArrives s port h = some (withDelivered s d) := by rw [bulkArrives, ha, hrep, ← hd]; rfl
  refine ⟨fun hr hno hdrain => ?late, fun r c hr hkind hc hph => ⟨fun p hno hcoll hop hp hcount hh hothers => ?ack, fun hst => ?busy,
    fun hst hno hjob hrun => ?refused⟩, fun n tag r c p x out hserv hn hno hfind hc hph hp hop hbuf hroute => ?retry⟩
  case late =>
    have hr' : requestOf (withDelivered s d) h = none := hr
    obtain ⟨hlate, hcmds, hports, hcores, hhbm, hcalm, hstale⟩ := lateReply_counts (s := withDelivered s d) hdrain
    have hsettle := next_congr (settleColonies_idle (hcalm hno))
    intro i hi
    refine ⟨lateReply (withDelivered s d) h, ?_, hlate, hcmds, hports, hcores, hhbm, fun c h1 h64 hc => ?_⟩
    · rcases List.mem_cons.mp hi with rfl | hi
      · show execWack port h s = _
        simp only [execWack, hbulk, hr', hsettle]
      · obtain rfl := List.mem_singleton.mp hi
        show execRefuse port h s = _
        simp only [execRefuse, hbulk, hr', hsettle]
    · rw [← hc]
      exact hstale h1 h64
  case ack =>
    have hr' : requestOf (withDelivered s d) h = some r := hr
    obtain ⟨k, hk, hkph, hreqs, hhbm⟩ := wack_ends hr' hc hph hno hcoll hop hp hcount hh hothers
    refine ⟨_, k, ?_, hk, hkph, hreqs, hhbm⟩
    show execWack port h s = _
    simp only [execWack, hbulk, hr', if_neg hkind]
  case busy =>
    have hr' : requestOf (withDelivered s d) h = some r := hr
    obtain ⟨honly, hx⟩ := refuse_busy hr'
    rw [hd]
    refine ⟨_, ?_, honly, hx⟩
    show execRefuse port h s = _
    simp only [execRefuse, hbulk, hr', if_pos hst]
  case refused =>
    have hr' : requestOf (withDelivered s d) h = some r := hr
    have hleaves := freeReq_leaves (withDelivered s d) h.tagPort r
    obtain ⟨k, hk, hkd, hkst, hraised, hmark, hcalm⟩ := endCollective_ends (s := freeReq (withDelivered s d) h.tagPort r) (status := h.status) hc hph hjob hrun
    refine ⟨endCollective (freeReq (withDelivered s d) h.tagPort r) r.cmd h.status, k, ?_, hk, hkd, hkst, hraised, hmark⟩
    show execRefuse port h s = _
    simp only [execRefuse, hbulk, hr', if_neg hst]
    exact next_congr (settleColonies_idle (hcalm (hleaves.calm hno)))
  case retry =>
    have htag : r.tag = tag := by
      have hfound := List.find?_some hfind
      simp only [Bool.and_eq_true, beq_iff_eq] at hfound
      exact hfound.1
    obtain ⟨t, q, hsend, hq, hcalm, hqtag, hqw, hqc, hqs, hqu, hqn, hqk⟩ := sendUnits_again (s := s) (c := c) (r := r) n out (localEngine s c) hop hbuf
    rw [htag] at hsend hqtag
    refine ⟨finishReqs t [r], ?_, q, hq, hqtag, hqw, hqc, hqs, hqu, hqn, hqk⟩
    show execCollectiveBusyRetry n tag s = _
    have hgo : (!serving s || c.phase != .running || decide (16 ≤ n)) = false := by
      rw [hserv, hph, decide_eq_false (by omega)]
      rfl
    simp only [execCollectiveBusyRetry, hfind, hc, hp, hgo, hroute, hsend, Bool.false_eq_true, if_false, if_true]
    exact next_congr (settleColonies_idle ((stops_finishReqs ..).calm (hcalm hno)))

end Sys2Proof.Machine
end
section
/-! PROOFS. A port joins, is refused, fenced and taken back (R313 to R318, R330, R336, R338 to R340). -/

namespace Sys2Proof.Machine

/- A port's change that a later change does not see. -/

theorem leaves_modPort_congr {s t : State} (h : Leaves s t) (n : Nat) {f : Port → Port} (hf : ∀ p, (f p).steady = (f p.steady).steady) :
    Leaves (modPort s n f) (modPort t n f) := by
  refine ⟨Prod.ext (congrArg Prod.fst h.frame :) (Prod.ext (congrArg (fun v => v.2.1) h.frame :) (Prod.ext (congrArg (fun v => v.2.2.1) h.frame :)
    (Prod.ext (funext fun m => ?_) (congrArg (fun v => v.2.2.2.2) h.frame :)))), h.calm, h.kind⟩
  have hm (k : Nat) : (portAt t k).steady = (portAt s k).steady := congrArg (fun v => v.2.2.2.1 k) h.frame
  show (portAt (modPort t n f) m).steady = (portAt (modPort s n f) m).steady
  by_cases hmn : m = n
  · rw [hmn, portAt_modPort_same, portAt_modPort_same, hf, hm, ← hf]
  · rw [modPort, modPort, portAt_setPort_other _ _ hmn, portAt_setPort_other _ _ hmn]
    exact hm m

theorem portAt_modPort_other (s : State) {n m : Nat} (f : Port → Port) (h : m ≠ n) : portAt (modPort s n f) m = portAt s m := portAt_setPort_other _ _ h

theorem steady_dropLink (st : PortState) (p : Port) : (dropLink p st).steady = (dropLink p.steady st).steady := rfl

/- The other ports, where a port stands alone and has no requests (R335, R336). -/

theorem bondMates_alone {s : State} {n : Nat} (h : (portAt s n).bond = 0) : bondMates s n = [n] := by
  have hmem : bondMember s n = false := by simp [bondMember, h]
  rw [bondMates, hmem]
  rfl

theorem resendBond_alone {s : State} {n : Nat} (h : (portAt s n).bond = 0) : resendBond s n = s := by
  have hmates : (bondMates s n).filter (fun m => m != n) = [] := by
    rw [bondMates_alone h]
    simp
  simp only [resendBond, hmates]
  rfl

theorem portAt_squashDrain_other (s : State) {n m : Nat} (p : FabReq → Bool) (h : m ≠ n) : portAt (squashDrain s n p) m = portAt s m := by
  have hfin (t : State) (l : List FabReq) : portAt (finishReqs t l) m = portAt t m :=
    foldl_keeps (fun u => portAt u m) _ (fun u (r : FabReq) => show portAt (inflightDec u r.colony r.instar) m = portAt u m from rfl) _ _
  have hstale (t : State) (l : List FabReq) : portAt (l.foldl (fun u r => countStale u r.colony) t) m = portAt t m :=
    foldl_keeps (fun u => portAt u m) _ (fun u (r : FabReq) => show portAt (countStale u r.colony) m = portAt u m from rfl) _ _
  rw [squashDrain, hstale, hfin, portAt_modPort_other _ _ h]

theorem endPortCmds_alone {s : State} {n : Nat} (status : Nat) (rec : Option Nat) (hb : (portAt s n).bond = 0) (hr : (portAt s n).reqs = []) :
    endPortCmds s n status rec = s := by
  have hgone : goneWith s n = [n] := by
    rw [goneWith, hb]
    simp
  have hids : sortNat ((goneWith s n).flatMap (fun m => (portAt s m).reqs.map (fun r => r.cmd))) = [] := by
    rw [hgone, List.flatMap_singleton, hr]
    rfl
  rw [endPortCmds, hids]
  rfl

theorem portAt_closeReqs_other {s : State} {n m : Nat} (status : Nat) (rec : Option Nat) (bonded : Bool) (hb : (portAt s n).bond = 0)
    (hr : (portAt s n).reqs = []) (h : m ≠ n) : portAt (closeReqs s n status rec bonded) m = portAt s m := by
  unfold closeReqs
  split
  · exact portAt_squashDrain_other _ _ h
  · rw [endPortCmds_alone status rec hb hr]
    dsimp only
    rw [portAt_modPort_other _ _ h, portAt_squashDrain_other _ _ h, hr]
    rfl

theorem portAt_noteTransitFence (s : State) (claim : Option Nat) (u : UnitRef) (m : Nat) : portAt (noteTransitFence s claim u) m = portAt s m := by
  unfold noteTransitFence modCmd
  split
  · split <;> rfl
  · rfl

/- The fence of a port, and the loss of its partner (R314, R336). -/

/-- A port out of transit (R211). -/
def Port.outOfTransit (q : Port) : Port :=
  { q with leaving := false, rewipe := false, transit := false, colony := if q.transit then 0 else q.colony, claim := none }

/-- The fence of a port that is not disabled, after its event. -/
def portFenced (s : State) (n : Nat) (p : Port) (st : PortState) (status : Nat) (rec : Option Nat) (bonded : Bool) : State :=
  noteTransitFence (modPort (closeReqs (modPort (resendBond s n) n (fun q => dropLink q st)) n status rec bonded) n Port.outOfTransit) p.claim (.port n)

theorem fencePortAs_eq {s : State} {n : Nat} (status : Nat) (rec : Option Nat) (detail : Nat) (hd : (portAt s n).st ≠ .disabled)
    (hf : (portAt s n).st = .fenced → detail = 3) :
    fencePortAs s n status rec detail = portFenced (if detail = 3 then s else zltEvent s 8 n detail) n (portAt s n) (if detail = 3 then .disabled else .fenced)
      status rec (decide (1 < (bondMates s n).length) && detail != 2) := by
  have h1 : ((portAt s n).st == .disabled) = false := by simpa using hd
  have h2 : ((portAt s n).st == .fenced && detail != 3) = false := by
    by_cases h : (portAt s n).st = .fenced
    · rw [hf h, Bool.and_eq_false_iff]
      exact .inr rfl
    · rw [Bool.and_eq_false_iff]
      exact .inl (by simpa using h)
  unfold fencePortAs
  simp only [h1, h2, Bool.false_eq_true, if_false]
  rfl

theorem portFenced_leaves (s : State) (n : Nat) (p : Port) (st : PortState) (status : Nat) (rec : Option Nat) (bonded : Bool) :
    Leaves (modPort (modPort s n (fun q => dropLink q st)) n Port.outOfTransit) (portFenced s n p st status rec bonded) := by
  have hdrop := leaves_modPort_congr (leaves_resendBond s n) n (f := fun q => dropLink q st) fun q => steady_dropLink st q
  have hclose := hdrop.trans (leaves_closeReqs (modPort (resendBond s n) n (fun q => dropLink q st)) n status rec bonded)
  exact (leaves_modPort_congr hclose n (f := Port.outOfTransit) fun _ => rfl).trans (leaves_noteTransitFence ..)

theorem portFenced_port (s : State) (n : Nat) (p : Port) (st : PortState) (status : Nat) (rec : Option Nat) (bonded : Bool) :
    (portAt (portFenced s n p st status rec bonded) n).steady = (dropLink (portAt s n) st).outOfTransit.steady := by
  have h := congrArg (fun v => v.2.2.2.1 n) (portFenced_leaves s n p st status rec bonded).frame
  refine Eq.trans (b := (portAt (modPort (modPort s n (fun q => dropLink q st)) n Port.outOfTransit) n).steady) h ?_
  rw [portAt_modPort_same, portAt_modPort_same]

theorem portFenced_others {s : State} {n m : Nat} (p : Port) (st : PortState) (status : Nat) (rec : Option Nat) (bonded : Bool)
    (hb : (portAt s n).bond = 0) (hr : (portAt s n).reqs = []) (h : m ≠ n) : portAt (portFenced s n p st status rec bonded) m = portAt s m := by
  have hdrop : portAt (modPort s n (fun q => dropLink q st)) n = dropLink (portAt s n) st := portAt_modPort_same ..
  rw [portFenced, resendBond_alone hb, portAt_noteTransitFence, portAt_modPort_other _ _ h,
    portAt_closeReqs_other _ _ _ (by rw [hdrop]; exact hb) (by rw [hdrop]; exact hr) h, portAt_modPort_other _ _ h]

theorem announce_idle {s : State} {n : Nat} (h : (portAt s n).st ≠ .discover) : announce s n = s := by
  have hst : ((portAt s n).st != .discover) = true := by simpa using h
  simp only [announce, hst, Bool.true_or, if_true]

/-- The departures within a second, with the one now (R315). -/
def recentDepartures (s : State) (p : Port) : List Nat := s.ticks :: p.departures.filter (fun x => decide (s.ticks < x + secondTicks))

/-- A port that its partner has left. -/
def Port.departed (recent : List Nat) (q : Port) : Port :=
  { dropLink q .detect with departures := recent, holdoff := q.holdoff || decide (4 ≤ recent.length) }

/-- What the loss of a partner leaves (R315, R336). -/
structure GoesDown (s t : State) (n : Nat) : Prop where
  st : (portAt t n).st = .detect
  departures : (portAt t n).departures = recentDepartures s (portAt s n)
  holdoff : (portAt t n).holdoff = ((portAt s n).holdoff || decide (4 ≤ (recentDepartures s (portAt s n)).length))
  event : t.zlt.evSeq = (s.zlt.evSeq + 1) % 2 ^ 32
  others : (portAt s n).bond = 0 → (portAt s n).reqs = [] → ∀ m, m ≠ n → portAt t m = portAt s m

theorem evSeq_of_frame {s t : State} (h : frame t = frame s) : t.zlt.evSeq = s.zlt.evSeq := congrArg (fun v => v.1.zlt.evSeq) h

theorem partnerLost_goesDown {s : State} {n cause : Nat} (hno : NoTeardown s) (hc : cause ≠ 2) : GoesDown s (partnerLost s n cause) n := by
  have hkeep : (cause == 2) = false := by simpa using hc
  obtain ⟨z, g, l, hev, hseq⟩ := zltEvent_eq s 2 n cause
  have hport (m : Nat) : portAt (zltEvent s 2 n cause) m = portAt s m := by rw [hev]; rfl
  generalize hu : closeReqs (modPort (resendBond (zltEvent s 2 n cause) n) n (Port.departed (recentDepartures s (portAt s n)))) n 7 none
    (decide (1 < (bondMates s n).length)) = u
  have hleaves : Leaves (modPort (zltEvent s 2 n cause) n (Port.departed (recentDepartures s (portAt s n)))) u := by
    rw [← hu]
    exact (leaves_modPort_congr (leaves_resendBond ..) n fun _ => rfl).trans (leaves_closeReqs ..)
  have hsteady : (portAt u n).steady = ((portAt s n).departed (recentDepartures s (portAt s n))).steady := by
    refine Eq.trans (b := (portAt (modPort (zltEvent s 2 n cause) n (Port.departed (recentDepartures s (portAt s n)))) n).steady)
      (congrArg (fun v => v.2.2.2.1 n) hleaves.frame) ?_
    rw [portAt_modPort_same, hport]
  have hst : (portAt u n).st = .detect := (congrArg Port.st hsteady :)
  have hlost : partnerLost s n cause = u := by
    have hcalm : NoTeardown u := hleaves.calm (by rw [hev]; exact hno)
    have hshape : partnerLost s n cause = settleColonies (announce u n) := by
      rw [← hu]
      simp only [partnerLost, hkeep, Bool.false_and, Bool.false_eq_true, if_false]
      rfl
    rw [hshape, announce_idle (by rw [hst]; exact fun h => nomatch h), settleColonies_idle hcalm]
  rw [hlost]
  refine ⟨hst, (congrArg Port.departures hsteady :), (congrArg Port.holdoff hsteady :), ?_, fun hb hr m hm => ?_⟩
  · rw [evSeq_of_frame hleaves.frame]
    show (zltEvent s 2 n cause).zlt.evSeq = _
    rw [hev]
    exact hseq
  · have hb' : (portAt (zltEvent s 2 n cause) n).bond = 0 := by rw [hport]; exact hb
    have hdep : portAt (modPort (zltEvent s 2 n cause) n (Port.departed (recentDepartures s (portAt s n)))) n =
        (portAt s n).departed (recentDepartures s (portAt s n)) := by rw [portAt_modPort_same, hport]
    rw [← hu, resendBond_alone hb', portAt_closeReqs_other _ _ _ (by rw [hdep]; exact hb) (by rw [hdep]; exact hr) hm, portAt_modPort_other _ _ hm, hport]

/- A transmission at one port (R326). -/

theorem portAt_startLink_other (s : State) {n m : Nat} (kind : Nat) (body : List Nat) (h : m ≠ n) : portAt (startLink s n kind body) m = portAt s m := by
  rw [startLink, portAt, ports_emitFlit]
  exact portAt_setPort_other _ _ h

theorem portAt_pumpLinks_other {n m : Nat} (h : m ≠ n) (l : List (Nat × List Nat)) (s : State) : portAt (pumpLinks n l s) m = portAt s m := by
  induction l generalizing s with
  | nil => exact portAt_modPort_other _ _ h
  | cons x r ih =>
    unfold pumpLinks
    split
    · exact (ih _).trans (portAt_startLink_other s _ _ h)
    · exact portAt_modPort_other _ _ h

theorem portAt_startPacket_other (s : State) {n m : Nat} (k : TxPacket) (h : m ≠ n) : portAt (startPacket s n k) m = portAt s m := by
  rw [startPacket, portAt_emitFlits]
  exact portAt_setPort_other _ _ h

theorem portAt_pumpLane_other {n m : Nat} (h : m ≠ n) (vl : Nat) (l : List TxPacket) (s : State) : portAt (pumpLane n vl l s).1 m = portAt s m := by
  induction l generalizing s with
  | nil => rfl
  | cons k r ih =>
    unfold pumpLane
    split
    · exact ih s
    · split
      · exact (ih _).trans (portAt_startPacket_other s k h)
      · rfl

theorem portAt_pumpVl_other {n m : Nat} (h : m ≠ n) (s : State) (vl : Nat) : portAt (pumpVl s n vl) m = portAt s m :=
  (portAt_modPort_other _ _ h).trans (portAt_pumpLane_other h vl _ s)

theorem portAt_pumpShared_other {n m : Nat} (h : m ≠ n) (k : Nat) (s : State) : portAt (pumpShared n k s) m = portAt s m := by
  induction k generalizing s with
  | zero => rfl
  | succ k ih =>
    unfold pumpShared
    split
    · rfl
    · split
      · exact (ih _).trans ((portAt_startPacket_other _ _ h).trans (portAt_setPort_other _ _ h))
      · rfl

theorem portAt_pump_other {n m : Nat} (h : m ≠ n) (s : State) : portAt (pump s n) m = portAt s m :=
  (portAt_pumpVl_other h _ 2).trans ((portAt_pumpShared_other h _ _).trans ((portAt_pumpVl_other h _ 0).trans (portAt_pumpLinks_other h _ s)))

/- Sorted lanes (R313). -/

theorem mem_insertSorted {l : List Nat} {x y : Nat} : y ∈ insertSorted l x ↔ y = x ∨ y ∈ l := by
  induction l with
  | nil => simp [insertSorted]
  | cons z r ih =>
    unfold insertSorted
    split
    · simp
    · split
      · next h => subst h; simp
      · simp only [List.mem_cons, ih]
        tauto

theorem insertSorted_perm {l : List Nat} {x : Nat} (h : x ∉ l) : (insertSorted l x).Perm (x :: l) := by
  induction l with
  | nil => exact List.Perm.refl _
  | cons y r ih =>
    obtain ⟨hne, hr⟩ := not_or.mp (mt List.mem_cons.mpr h)
    unfold insertSorted
    split
    · exact List.Perm.refl _
    · exact ((ih hr).cons y).trans (List.Perm.swap x y r)

theorem sortNat_perm {l : List Nat} (h : l.Nodup) : (sortNat l).Perm l := by
  have hfold : ∀ (l acc : List Nat), (l ++ acc).Nodup → (l.foldl insertSorted acc).Perm (l ++ acc) := by
    intro l
    induction l with
    | nil => exact fun acc _ => List.Perm.refl acc
    | cons x l ih =>
      intro acc hn
      obtain ⟨hx, hla⟩ := List.nodup_cons.mp hn
      have hperm := insertSorted_perm (l := acc) (x := x) fun hm => hx (List.mem_append_right _ hm)
      have hswap : (l ++ insertSorted acc x).Perm (x :: (l ++ acc)) := (hperm.append_left l).trans List.perm_middle
      exact (ih _ (hswap.nodup_iff.mpr hn)).trans hswap
  have hall := hfold l [] (by rw [List.append_nil]; exact h)
  rwa [List.append_nil] at hall

/- The fence that a host asks for (R314, R415). -/

theorem onlyPort_modPort (s : State) (n : Nat) (f : Port → Port) : OnlyPort s (modPort s n f) n ∧ portAt (modPort s n f) n = f (portAt s n) :=
  ⟨onlyPort_setPort .., portAt_modPort_same ..⟩

theorem zltEvent_keeps (s : State) (event n detail : Nat) : (∀ m, portAt (zltEvent s event n detail) m = portAt s m) ∧
    (zltEvent s event n detail).cols = s.cols ∧ (zltEvent s event n detail).flt = s.flt ∧ (zltEvent s event n detail).sec = s.sec ∧
    (zltEvent s event n detail).free = s.free ∧ (zltEvent s event n detail).zlt.evSeq = (s.zlt.evSeq + 1) % 2 ^ 32 ∧
    ∀ o ∈ s.out, o ∈ (zltEvent s event n detail).out := by
  obtain ⟨z, p, l, h, hseq⟩ := zltEvent_eq s event n detail
  rw [h]
  exact ⟨fun _ => rfl, rfl, rfl, rfl, rfl, hseq, fun o ho => List.mem_append_left _ ho⟩

theorem fencePortAs_host {s : State} {n : Nat} (rec : Option Nat) (hd : (portAt s n).st ≠ .disabled) :
    let u := fencePortAs s n 0x0F rec 0
    (portAt u n).st = .fenced ∧ ((portAt s n).bond = 0 → (portAt s n).reqs = [] → ∀ m, m ≠ n → portAt u m = portAt s m) ∧
      u.zlt.evSeq = (s.zlt.evSeq + 1) % 2 ^ 32 ∧ (NoTeardown s → NoTeardown u) ∧
      ∀ i r, tfind s.flt.recs i = some r → r.severity ≠ 1 →
        ∃ r', tfind u.flt.recs i = some r' ∧ r'.cause = r.cause ∧ r'.unit = r.unit ∧ r'.st = r.st ∧ r'.xlt = r.xlt := by
  obtain ⟨hports, hcols, hflt, -, -, hseq, -⟩ := zltEvent_keeps s 8 n 0
  dsimp only
  by_cases hf : (portAt s n).st = .fenced
  · have hstay : fencePortAs s n 0x0F rec 0 = zltEvent s 8 n 0 := by
      have h1 : ((portAt s n).st == .disabled) = false := by simpa using hd
      have h2 : ((portAt s n).st == .fenced && (0 : Nat) != 3) = true := by rw [hf]; rfl
      simp only [fencePortAs, h1, h2, Bool.false_eq_true, if_false, if_true]
    rw [hstay, hports]
    exact ⟨hf, fun _ _ m _ => hports m, hseq, noTeardown_congr hcols, fun i r hr _ => ⟨r, by rw [hflt]; exact hr, rfl, rfl, rfl, rfl⟩⟩
  · rw [fencePortAs_eq 0x0F rec 0 hd (fun h => absurd h hf)]
    have hzero : ¬ (0 : Nat) = 3 := by decide
    rw [if_neg hzero, if_neg hzero]
    generalize (decide (1 < (bondMates s n).length) && (0 : Nat) != 2) = bonded
    have hleaves := portFenced_leaves (zltEvent s 8 n 0) n (portAt s n) .fenced 0x0F rec bonded
    have hport := portFenced_port (zltEvent s 8 n 0) n (portAt s n) .fenced 0x0F rec bonded
    refine ⟨(congrArg Port.st hport :), fun hb hr m hm => ?_, (evSeq_of_frame hleaves.frame).trans hseq, fun hno => hleaves.calm (noTeardown_congr hcols hno),
      fun i r hr hsev => ?_⟩
    · rw [portFenced_others _ _ _ _ _ (by rw [hports]; exact hb) (by rw [hports]; exact hr) hm, hports]
    · have hr' : tfind (zltEvent s 8 n 0).flt.recs i = some r := by rw [hflt]; exact hr
      obtain ⟨r', h1, h2, -, h3, h4, h5⟩ := rec_of_frame hleaves.frame (i := i) (r := r) hr' hsev
      exact ⟨r', h1, h2, h3, h4, h5⟩

theorem fencedRecs_rec {s : State} {u : UnitRef} {i : Nat} {r : FaultRec} (hr : tfind s.flt.recs i = some r) (hu : r.unit = u) (hlive : r.st.live = true)
    (hx : r.xlt = false) : tfind (fencedRecs s u).flt.recs i = some { r with st := .fenced } := by
  have hmap : (fencedRecs s u).flt.recs = s.flt.recs.map (fun e => (e.1, e.2.fencedWith u)) := List.map_congr_left fun e _ => by
    unfold FaultRec.fencedWith
    split <;> rfl
  rw [hmap, tfind_map, hr, Option.map_some, FaultRec.fencedWith, if_pos]
  rw [hu, hlive, hx, beq_self_eq_true]
  rfl

/-- ZLT.CMD.FENCE: the port is fenced, and its record (R314, R415). -/
theorem portFence_fences {s : State} {n : Nat} (hpf : pfWrites s = true) (hn : n < 16) (hno : NoTeardown s) (hd : (portAt s n).st ≠ .disabled) :
    ∃ t, exec (.portFence n) s = .next t ∧ (portAt t n).st = .fenced ∧
      ((portAt s n).bond = 0 → (portAt s n).reqs = [] → ∀ m, m ≠ n → portAt t m = portAt s m) ∧ t.zlt.evSeq = (s.zlt.evSeq + 1) % 2 ^ 32 ∧
      ((∀ e ∈ s.flt.recs, e.2.st.live = false) → ∀ i, recEntry s.flt.recs = some i →
        ∃ r, tfind t.flt.recs i = some r ∧ r.cause = 0x40 ∧ r.unit = .port n ∧ r.st = .fenced) := by
  obtain ⟨r, hr, hcause, hsev, hunit, hx⟩ : ∃ r, nameUnit s { blankRec 0x40 4 (.port n) (portAt s n).colony with status := 0x0F } (.port n) = r ∧
      r.cause = 0x40 ∧ r.severity = 4 ∧ r.unit = .port n ∧ r.xlt = false := by
    refine ⟨_, rfl, ?_⟩
    simp only [nameUnit]
    split
    · exact nameCmd_keeps ..
    · exact ⟨rfl, rfl, rfl, rfl⟩
  have hrep := onlyReports_recordFault s r
  have hports (m : Nat) : portAt (recordFault s r).1 m = portAt s m := onlyReports_view (fun t => portAt t m) (fun _ _ _ _ => rfl) hrep
  have hzlt : (recordFault s r).1.zlt = s.zlt := onlyReports_view State.zlt (fun _ _ _ _ => rfl) hrep
  obtain ⟨hst, hothers, hseq, hcalm, hrecs⟩ := fencePortAs_host (s := (recordFault s r).1) (n := n) (recordFault s r).2 (by rw [hports]; exact hd)
  rw [hports] at hothers
  refine ⟨fencedRecs (fencePortAs (recordFault s r).1 n 0x0F (recordFault s r).2 0) (.port n), ?_, hst, fun hb hr0 m hm => (hothers hb hr0 m hm).trans (hports m),
    hseq.trans (by rw [hzlt]), fun hidle i he => ?_⟩
  · show execPortFence n s = _
    have hgo : (!pfWrites s || decide (16 ≤ n) || (portAt s n).st == .disabled) = false := by
      have h1 : ((portAt s n).st == .disabled) = false := by simpa using hd
      rw [hpf, h1, decide_eq_false (by omega)]
      rfl
    simp only [execPortFence, hgo, hr, Bool.false_eq_true, if_false]
    exact next_congr (afterFence_idle (hcalm (leaves_onlyReports_cols hrep hno)))
  · obtain ⟨hi, htaken⟩ := recordFault_idle (r := r) hidle he (by rw [hsev]; decide)
    obtain ⟨r', hr', hc', hu', hs', hx'⟩ := hrecs i _ htaken (show r.severity ≠ 1 by rw [hsev]; decide)
    have hopen : r'.st = .opened := by
      rw [hs']
      show firstState r.severity = .opened
      rw [hsev]
      rfl
    exact ⟨_, fencedRecs_rec hr' (hu'.trans hunit) (by rw [hopen]; rfl) (hx'.trans hx), hc'.trans hcause, hu'.trans hunit, rfl⟩

/- The join (R314 to R318). -/

theorem announce_sends {s : State} {n : Nat} (hst : (portAt s n).st = .discover) (hserv : serving s = true) (htree : treeReady s = true)
    (hown : (portAt s n).ownDesc = []) : ∃ d, d = descriptor s n ((drawFree s).1 % 2 ^ 256) ∧ announce s n =
      meetPartner (emit (setPort (drawFree s).2 n { portAt s n with
        ownDesc := d, nonce := (drawFree s).1 % 2 ^ 256, ownLms := !s.sec.lmsExhausted && !s.sec.lmsSpent }) (.join n 4 d)) n := by
  have hgo : ((portAt s n).st != .discover || !serving s || !treeReady s || !(portAt s n).ownDesc.isEmpty) = false := by
    rw [hst, hserv, htree, hown]
    rfl
  refine ⟨_, rfl, ?_⟩
  unfold announce
  simp only [hgo, Bool.false_eq_true, if_false]

theorem announce_silent {s : State} {n : Nat} (h : treeReady s = false ∨ (portAt s n).ownDesc ≠ []) : announce s n = s := by
  have hgo : ((portAt s n).st != .discover || !serving s || !treeReady s || !(portAt s n).ownDesc.isEmpty) = true := by
    rcases h with h | h
    · rw [h]
      simp
    · have hne : (portAt s n).ownDesc.isEmpty = false := by simpa using h
      rw [hne]
      simp
  unfold announce
  simp only [hgo, if_true]

theorem meetPartner_waits {s : State} {n : Nat} (h : (portAt s n).ownDesc = [] ∨ (portAt s n).peerDesc = []) : meetPartner s n = s := by
  have hgo : ((portAt s n).ownDesc.isEmpty || (portAt s n).peerDesc.isEmpty) = true := by
    rcases h with h | h
    · rw [h]; rfl
    · rw [h]; simp
  simp only [meetPartner, hgo, if_true]

theorem meetPartner_meets {s : State} {n : Nat} (h : (portAt s n).ownDesc ≠ []) (h' : (portAt s n).peerDesc ≠ []) :
    meetPartner s n = emit (setPort (drawFree s).2 n { portAt s n with st := .auth, ecdh := (drawFree s).1 % 2 ^ 776 })
      (.join n 5 (leBytes 97 ((drawFree s).1 % 2 ^ 776) ++ s.boot.chain)) := by
  have hgo : ((portAt s n).ownDesc.isEmpty || (portAt s n).peerDesc.isEmpty) = false := by
    have h1 : (portAt s n).ownDesc.isEmpty = false := by simpa using h
    have h2 : (portAt s n).peerDesc.isEmpty = false := by simpa using h'
    rw [h1, h2]
    rfl
  simp only [meetPartner, hgo, Bool.false_eq_true, if_false]

theorem descriptor_ne_nil (s : State) (n nonce : Nat) : descriptor s n nonce ≠ [] := by
  refine List.ne_nil_of_length_pos ?_
  simp only [descriptor, List.length_append, leBytes_length, zeros, List.length_replicate]
  omega

/-- A step of a join: one port, free values, and what is sent. -/
structure JoinStep (s t : State) (n : Nat) : Prop where
  others : ∀ m, m ≠ n → portAt t m = portAt s m
  boot : t.boot = s.boot

theorem joinStep_meetPartner (s : State) (n : Nat) : JoinStep s (meetPartner s n) n := by
  by_cases h : (portAt s n).ownDesc = [] ∨ (portAt s n).peerDesc = []
  · rw [meetPartner_waits h]
    exact ⟨fun _ _ => rfl, rfl⟩
  · obtain ⟨h1, h2⟩ := not_or.mp h
    rw [meetPartner_meets h1 h2]
    exact ⟨fun m hm => portAt_setPort_other _ _ hm, rfl⟩

/-- A port in DISCOVER has its descriptor sent, or waits for the tree (R315, R461). -/
theorem announce_joins {s : State} {n : Nat} (hst : (portAt s n).st = .discover) (hserv : serving s = true) :
    JoinStep s (announce s n) n ∧ (treeReady s = true ∨ (portAt s n).ownDesc ≠ [] → (portAt (announce s n) n).ownDesc ≠ []) := by
  by_cases h : treeReady s = false ∨ (portAt s n).ownDesc ≠ []
  · rw [announce_silent h]
    refine ⟨⟨fun _ _ => rfl, rfl⟩, fun hgo => ?_⟩
    rcases hgo with hgo | hgo
    · exact h.resolve_left fun hf => by rw [hgo] at hf; exact nomatch hf
    · exact hgo
  · obtain ⟨htree, hown⟩ := not_or.mp h
    obtain ⟨d, hd, heq⟩ := announce_sends hst hserv (by simpa using htree) (not_not.mp hown)
    rw [heq]
    generalize hu : emit (setPort (drawFree s).2 n { portAt s n with
        ownDesc := d, nonce := (drawFree s).1 % 2 ^ 256, ownLms := !s.sec.lmsExhausted && !s.sec.lmsSpent }) (.join n 4 d) = u
    have hport : (portAt u n).ownDesc = d := by
      rw [← hu]
      exact congrArg Port.ownDesc (portAt_setPort_same ..)
    have hstep := joinStep_meetPartner u n
    refine ⟨⟨fun m hm => (hstep.others m hm).trans ?_, hstep.boot.trans (by rw [← hu]; rfl)⟩, fun _ => ?_⟩
    · rw [← hu]
      exact portAt_setPort_other _ _ hm
    · have hne : (portAt u n).ownDesc ≠ [] := by
        rw [hport, hd]
        exact descriptor_ne_nil s n _
      by_cases hp : (portAt u n).peerDesc = []
      · rw [meetPartner_waits (.inr hp)]
        exact hne
      · rw [meetPartner_meets hne hp]
        refine Eq.mpr (congrArg (fun q : Port => q.ownDesc ≠ []) (portAt_setPort_same ..)) hne

/-- The training ends (R313 to R315). -/
theorem trainingDone_trains {s : State} {n weakest : Nat} {passed : List Nat} (hrun : portsRun s = true) (hserv : serving s = true) (hn : n < 16)
    (hst : (portAt s n).st = .train) (hnd : passed.Nodup) (hlt : ∀ l ∈ passed, l < 9) (hw : weakest < 9) (hpeer : (portAt s n).peerDesc = []) :
    ∃ t, exec (.trainingDone n passed weakest) s = .next t ∧ (∀ m, m ≠ n → portAt t m = portAt s m) ∧
      (if passed.length < 4 then (portAt t n).st = .detect ∧ t.zlt.evSeq = (s.zlt.evSeq + 1) % 2 ^ 32
       else (portAt t n).st = .discover ∧
        (treeReady s = true → (portAt s n).ownDesc = [] → ∃ nonce, (portAt t n).ownDesc = descriptor t n nonce ∧ (portAt t n).nonce = nonce ∧
          t.out = s.out ++ [.join n 4 (portAt t n).ownDesc]) ∧ (portAt t n).spare = (if passed.length = 9 then some weakest else none) ∧
        ∀ l, l ∈ (portAt t n).lanes ↔ (l ∈ passed ∧ ¬ (passed.length = 9 ∧ l = weakest))) := by
  have hgood : (sortNat passed).filter (fun l => decide (l < 9)) = sortNat passed := List.filter_eq_self.mpr fun l hl =>
    decide_eq_true (hlt l ((sortNat_perm hnd).mem_iff.mp hl))
  have hlen : (sortNat passed).length = passed.length := (sortNat_perm hnd).length_eq
  have hgo : (!portsRun s || decide (16 ≤ n) || (portAt s n).st != .train) = false := by
    rw [hrun, hst, decide_eq_false (by omega)]
    rfl
  by_cases hshort : passed.length < 4
  · obtain ⟨map, hexec⟩ : ∃ map, execTrainingDone n passed weakest s = .next (trainFail s n map) := by
      unfold execTrainingDone
      rw [hgo, hgood, if_neg Bool.false_ne_true]
      exact ⟨_, if_pos (by rw [hlen]; exact hshort)⟩
    obtain ⟨hports, -, -, -, -, hseq, -⟩ := zltEvent_keeps s 4 n (map % 512)
    refine ⟨trainFail s n map, hexec, fun m hm => (portAt_modPort_other _ _ hm).trans (hports m), ?_⟩
    · rw [if_pos hshort]
      exact ⟨congrArg Port.st (portAt_modPort_same ..), hseq⟩
  · generalize hsp : (if passed.length = 9 then some weakest else none) = sp
    have hspare : (if passed.length = 9 then some (if weakest < 9 then weakest else 8) else none) = sp := by rw [if_pos hw, hsp]
    generalize hq : (fun p : Port => ({ p with
      st := .discover, lanes := (sortNat passed).filter (fun l => sp != some l), rxLanes := (sortNat passed).filter (fun l => sp != some l), rxSwaps := []
      spare := sp, retraining := [], outLanes := (List.range 9).filter (fun l => !(sortNat passed).contains l) } : Port)) = q
    have hexec : exec (.trainingDone n passed weakest) s = .next (announce (modPort s n q) n) := by
      show execTrainingDone n passed weakest s = _
      simp only [execTrainingDone, hgo, hgood, hlen, hshort, hspare, Bool.false_eq_true, if_false]
      rw [← hq]
    have hlanes (l : Nat) : l ∈ (sortNat passed).filter (fun l => sp != some l) ↔ (l ∈ passed ∧ ¬ (passed.length = 9 ∧ l = weakest)) := by
      rw [List.mem_filter, (sortNat_perm hnd).mem_iff, ← hsp]
      by_cases h9 : passed.length = 9
      · simp only [h9, if_true, true_and, bne_iff_ne, ne_eq, Option.some.injEq, eq_comm (a := weakest)]
      · simp [h9]
    have hport : portAt (modPort s n q) n = q (portAt s n) := portAt_modPort_same ..
    have hqst : (q (portAt s n)).st = .discover ∧ (q (portAt s n)).spare = sp ∧ (q (portAt s n)).lanes = (sortNat passed).filter (fun l => sp != some l) ∧
        (q (portAt s n)).ownDesc = (portAt s n).ownDesc ∧ (q (portAt s n)).peerDesc = (portAt s n).peerDesc := by
      rw [← hq]
      exact ⟨rfl, rfl, rfl, rfl, rfl⟩
    obtain ⟨hqst, hqsp, hql, hqo, hqp⟩ := hqst
    refine ⟨announce (modPort s n q) n, hexec, ?_⟩
    rw [if_neg hshort]
    by_cases hsilent : treeReady (modPort s n q) = false ∨ (portAt (modPort s n q) n).ownDesc ≠ []
    · rw [announce_silent hsilent, hport, hqst, hqsp, hql]
      refine ⟨fun m hm => portAt_modPort_other _ _ hm, rfl, fun htree hown => ?_, rfl, hlanes⟩
      rcases hsilent with h | h
      · exact absurd (show treeReady (modPort s n q) = true from htree) (by rw [h]; exact Bool.false_ne_true)
      · rw [hport, hqo] at h
        exact absurd hown h
    · obtain ⟨htree, hown⟩ := not_or.mp hsilent
      obtain ⟨d, hd, heq⟩ := announce_sends (s := modPort s n q) (n := n) (by rw [hport]; exact hqst) hserv (by simpa using htree) (not_not.mp hown)
      generalize hu : emit (setPort (drawFree (modPort s n q)).2 n { portAt (modPort s n q) n with
        ownDesc := d, nonce := (drawFree (modPort s n q)).1 % 2 ^ 256, ownLms := !(modPort s n q).sec.lmsExhausted && !(modPort s n q).sec.lmsSpent })
        (.join n 4 d) = u at heq
      have huport : portAt u n = { q (portAt s n) with
          ownDesc := d, nonce := (drawFree (modPort s n q)).1 % 2 ^ 256
          ownLms := !(modPort s n q).sec.lmsExhausted && !(modPort s n q).sec.lmsSpent } := by
        rw [← hu, ← hport]
        exact portAt_setPort_same ..
      have hufree : (drawFree (modPort s n q)).1 = (drawFree s).1 := rfl
      have hpeer' : (portAt u n).peerDesc = [] := by
        rw [huport]
        exact hqp.trans hpeer
      rw [heq, meetPartner_waits (.inr hpeer')]
      refine ⟨fun m hm => ?_, ?_, fun _ _ => ⟨(drawFree (modPort s n q)).1 % 2 ^ 256, ?_, ?_, ?_⟩, ?_, ?_⟩
      · rw [← hu]
        exact (portAt_setPort_other _ _ hm).trans (portAt_modPort_other _ _ hm)
      · rw [huport]
        exact hqst
      · have hsame : descriptor u n ((drawFree (modPort s n q)).1 % 2 ^ 256) = d := by
          rw [hd, descriptor, descriptor, huport, hport, ← hu]
          rfl
        rw [hsame, huport]
      · rw [huport]
      · rw [huport, ← hu]
        rfl
      · rw [huport]
        exact hqsp
      · rw [huport]
        intro l
        rw [← hlanes, ← hql]

/-- The partner's descriptor (R314 to R316). -/
theorem discoveryDescriptor_joins {s : State} {n : Nat} {d : List Byte} (hrun : portsRun s = true) (hserv : serving s = true) (hn : n < 16)
    (hst : (portAt s n).st = .discover) : ∃ t, exec (.discoveryDescriptor n d) s = .next t ∧ (∀ m, m ≠ n → portAt t m = portAt s m) ∧
      (if descriptorOk d = true then
        (portAt t n).peerFaddr = bytesAt d 8 3 ∧ (portAt t n).peerPort = bytesAt d 6 1 % 16 ∧ (portAt t n).idhash = bytesAt d 16 48 ∧
        (portAt t n).peerValid = true ∧ (portAt t n).peerLms = (bytesAt d 11 1).testBit 0 ∧ (portAt t n).peerNonce = bytesAt d 64 32 ∧
        (treeReady s = true ∨ (portAt s n).ownDesc ≠ [] → (portAt t n).st = .auth ∧ .join n 5 (leBytes 97 (portAt t n).ecdh ++ s.boot.chain) ∈ t.out) ∧
        (treeReady s = false → (portAt s n).ownDesc = [] → (portAt t n).st = .discover)
       else (portAt t n).st = .refused ∧ t.zlt.evSeq = (s.zlt.evSeq + 1) % 2 ^ 32) := by
  have hgo : (!portsRun s || !serving s || decide (16 ≤ n) || (portAt s n).st != .discover) = false := by
    rw [hrun, hserv, hst, decide_eq_false (by omega)]
    rfl
  by_cases hok : descriptorOk d = true
  · obtain ⟨⟨hothers, hboot⟩, hown⟩ := announce_joins hst hserv
    generalize hq : (fun p : Port => ({ p with
      peerDesc := d, peerFaddr := bytesAt d 8 3, peerPort := bytesAt d 6 1 % 16, peerValid := true, idhash := bytesAt d 16 48
      peerLms := (bytesAt d 11 1).testBit 0, peerNonce := bytesAt d 64 32 } : Port)) = q
    have hport : portAt (modPort (announce s n) n q) n = q (portAt (announce s n) n) := portAt_modPort_same ..
    have hqo : (q (portAt (announce s n) n)).ownDesc = (portAt (announce s n) n).ownDesc := by rw [← hq]
    have hqd : (q (portAt (announce s n) n)).peerDesc ≠ [] := by
      rw [← hq]
      have hlen : d.length = 128 := by
        simp only [descriptorOk, Bool.and_eq_true, beq_iff_eq] at hok
        exact hok.1.1.1.1.1
      exact List.ne_nil_of_length_pos (by rw [hlen]; decide)
    have hstep := joinStep_meetPartner (modPort (announce s n) n q) n
    refine ⟨meetPartner (modPort (announce s n) n q) n, ?_,
      fun m hm => (hstep.others m hm).trans ((portAt_modPort_other _ _ hm).trans (hothers m hm)), ?_⟩
    · show execDiscoveryDescriptor n d s = _
      simp only [execDiscoveryDescriptor, hgo, hok, Bool.not_true, Bool.false_eq_true, if_false]
      rw [← hq]
    · rw [if_pos hok]
      by_cases hnone : (portAt (announce s n) n).ownDesc = []
      · rw [meetPartner_waits (.inl (by rw [hport, hqo]; exact hnone)), hport]
        refine ⟨by rw [← hq], by rw [← hq], by rw [← hq], by rw [← hq], by rw [← hq], by rw [← hq], fun h => absurd hnone (hown h), fun htree hown0 => ?_⟩
        rw [← hq, announce_silent (.inl htree)]
        exact hst
      · rw [meetPartner_meets (by rw [hport, hqo]; exact hnone) (by rw [hport]; exact hqd)]
        generalize hu : emit (setPort (drawFree (modPort (announce s n) n q)).2 n { portAt (modPort (announce s n) n q) n with
          st := .auth, ecdh := (drawFree (modPort (announce s n) n q)).1 % 2 ^ 776 })
          (.join n 5 (leBytes 97 ((drawFree (modPort (announce s n) n q)).1 % 2 ^ 776) ++ (modPort (announce s n) n q).boot.chain)) = u
        have huport : portAt u n = { q (portAt (announce s n) n) with st := .auth, ecdh := (drawFree (modPort (announce s n) n q)).1 % 2 ^ 776 } := by
          rw [← hu, ← hport]
          exact portAt_setPort_same ..
        have hchain : (modPort (announce s n) n q).boot.chain = s.boot.chain := congrArg Boot.chain hboot
        rw [huport]
        refine ⟨by rw [← hq], by rw [← hq], by rw [← hq], by rw [← hq], by rw [← hq], by rw [← hq], fun _ => ⟨rfl, ?_⟩, fun htree hown0 => ?_⟩
        · rw [← hu, hchain]
          exact List.mem_append_right _ (List.mem_singleton.mpr rfl)
        · rw [announce_silent (.inl htree)] at hnone
          exact absurd hown0 hnone
  · have hbad : descriptorOk d = false := by simpa using hok
    obtain ⟨hports, -, -, -, -, hseq, -⟩ := zltEvent_keeps s 3 n 3
    refine ⟨refusePartner s n 3, ?_, fun m hm => (portAt_modPort_other _ _ hm).trans (hports m), ?_⟩
    · show execDiscoveryDescriptor n d s = _
      simp only [execDiscoveryDescriptor, hgo, hbad, Bool.not_false, Bool.false_eq_true, if_false, if_true]
    · rw [if_neg hok]
      exact ⟨congrArg Port.st (portAt_modPort_same ..), hseq⟩

/- Authentication (R317, R318, R330). -/

theorem admission_zltEvent (s : State) (event n detail : Nat) : (zltEvent s event n detail).zlt.ecdsaOnly = s.zlt.ecdsaOnly ∧
    (zltEvent s event n detail).zlt.admitList = s.zlt.admitList ∧ (zltEvent s event n detail).zlt.allow = s.zlt.allow := by
  have hraise (t : State) (v : Nat) : (raiseMsix t .pf v).zlt = t.zlt := by
    obtain ⟨l, p, h⟩ := raiseMsix_eq t .pf v
    rw [h]
  unfold zltEvent
  dsimp only
  split
  · exact ⟨rfl, rfl, rfl⟩
  · split
    · exact ⟨rfl, rfl, rfl⟩
    · rw [hraise]
      exact ⟨rfl, rfl, rfl⟩

/-- This side's signature, where it has one to give. -/
def joinSigned (s : State) (lms : Bool) : State := if lms then (signDevice s).1 else s

theorem joinSigned_keeps {s : State} {lms : Bool} (h : lms = true → 0 < s.sec.lmsLeft) : (joinSigned s lms).ports = s.ports ∧ (joinSigned s lms).free = s.free ∧
    (joinSigned s lms).sec.idhash = s.sec.idhash ∧ (joinSigned s lms).sec.lmsLeft = (if lms then s.sec.lmsLeft - 1 else s.sec.lmsLeft) ∧
    (∀ p chainOk ecdsaOk lmsOk, authProblem (joinSigned s lms) p chainOk ecdsaOk lmsOk = authProblem s p chainOk ecdsaOk lmsOk) := by
  cases lms with
  | false => exact ⟨rfl, rfl, rfl, rfl, fun _ _ _ _ => rfl⟩
  | true =>
    obtain ⟨z, g, l, hsign, -⟩ := signDevice_eq s
    have hid : s.sec.signed.idhash = s.sec.idhash := by
      unfold Security.signed
      split <;> rfl
    have hjoin : joinSigned s true = (signDevice s).1 := rfl
    have hadmit : (signDevice s).1.zlt.ecdsaOnly = s.zlt.ecdsaOnly ∧ (signDevice s).1.zlt.admitList = s.zlt.admitList ∧
        (signDevice s).1.zlt.allow = s.zlt.allow := by
      unfold signDevice
      split
      · exact ⟨rfl, rfl, rfl⟩
      · dsimp only
        split
        · exact admission_zltEvent ..
        · exact ⟨rfl, rfl, rfl⟩
    obtain ⟨honly, hlist, hallow⟩ := hadmit
    have hfab : (signDevice s).1.fab = s.fab := by rw [hsign]
    rw [hjoin]
    refine ⟨by rw [hsign], by rw [hsign], by rw [hsign]; exact hid, ?_, fun p chainOk ecdsaOk lmsOk => ?_⟩
    · rw [hsign]
      exact lmsLeft_signed s.sec
    · have hallowed (x : Nat) : allowed (signDevice s).1.zlt x = allowed s.zlt x := by rw [allowed, hallow, ← allowed]
      simp only [authProblem, honly, hlist, hfab, hallowed]

/-- A port as its join makes it ACTIVE (R314, R320, R326). -/
def Port.joined (p : Port) (s : State) (secret : Nat) : Port :=
  { p with
    st := .active, kp := false, rxKp := false, txSeq := 0, rxSeq := 0, replayBuf := [], rxHold := [], rxQueue := [], fails := [], owed := []
    credits := [(0, creditCap 0), (1, creditCap 1), (2, creditCap 2)], keyFlits := 0, packets := 0, rekeying := false, keysLive := 1
    txKey := sessionKey s p secret true, rxKey := sessionKey s p secret false, rxOld := none, rxNext := none, rxPackets := 0, rxIv := [], rxSwaps := []
    linkQueue := [], arb := {}, arbCls := [], refreshing := false, lastId := p.idhash, txQueue := [], sent := [] }

theorem goActive_eq {s : State} {n : Nat} (h : (portAt s n).transit = false) : goActive s n =
    zltEvent (setPort (drawFree s).2 n ((portAt s n).joined s (drawFree s).1)) 1 n
      (b2n ((portAt s n).lastId != 0 && (portAt s n).lastId != (portAt s n).idhash)) := by
  unfold goActive Port.joined
  simp only [h, Bool.false_and, Bool.false_eq_true, if_false]

theorem authentication_joins {s : State} {n peerKey : Nat} {chainOk ecdsaOk lmsOk : Bool} (hrun : portsRun s = true) (hserv : serving s = true) (hn : n < 16)
    (hst : (portAt s n).st = .auth) (htree : treeReady s = true) (hleft : (portAt s n).ownLms = true → 0 < s.sec.lmsLeft)
    (htransit : (portAt s n).transit = false) :
    ∃ t, exec (.authentication n peerKey chainOk ecdsaOk lmsOk) s = .next t ∧ (∀ m, m ≠ n → portAt t m = portAt s m) ∧
      .join n 5 (signatureBlock (portAt s n).ownLms (transcript s (portAt s n) peerKey)) ∈ t.out ∧
      t.sec.lmsLeft = (if (portAt s n).ownLms then s.sec.lmsLeft - 1 else s.sec.lmsLeft) ∧
      (authProblem s (portAt s n) chainOk ecdsaOk lmsOk = none →
        (portAt t n).st = .active ∧ (portAt t n).txSeq = 0 ∧ (portAt t n).rxSeq = 0 ∧ (portAt t n).kp = false ∧ (portAt t n).keysLive = 1 ∧
        (∀ vl, vl < 3 → tget 0 (portAt t n).credits vl = creditCap vl) ∧ (portAt t n).lastId = (portAt s n).idhash ∧ t.free = s.free + 1 ∧
        (portAt t n).txKey = sessionKey s (portAt s n) (drawFree s).1 true ∧ (portAt t n).rxKey = sessionKey s (portAt s n) (drawFree s).1 false) ∧
      (authProblem s (portAt s n) chainOk ecdsaOk lmsOk ≠ none → (portAt t n).st = .refused ∧ t.free = s.free) := by
  obtain ⟨hports, hfree, hid, hlms, hprob⟩ := joinSigned_keeps hleft
  have hgo : (!portsRun s || !serving s || !treeReady s || decide (16 ≤ n) || (portAt s n).st != .auth) = false := by
    rw [hrun, hserv, htree, hst, decide_eq_false (by omega)]
    rfl
  have hspent : ((portAt s n).ownLms && s.sec.lmsLeft == 0) = false := by
    cases ho : (portAt s n).ownLms with
    | false => rfl
    | true =>
      have := hleft ho
      simpa using Nat.pos_iff_ne_zero.mp this
  generalize hu : emit (joinSigned s (portAt s n).ownLms) (.join n 5 (signatureBlock (portAt s n).ownLms (transcript s (portAt s n) peerKey))) = u
  have huports : u.ports = s.ports := by
    rw [← hu]
    exact hports
  have hport (m : Nat) : portAt u m = portAt s m := by rw [portAt, huports, portAt]
  have hsent : .join n 5 (signatureBlock (portAt s n).ownLms (transcript s (portAt s n) peerKey)) ∈ u.out := by
    rw [← hu]
    exact List.mem_append_right _ (List.mem_singleton.mpr rfl)
  have huprob : authProblem u (portAt s n) chainOk ecdsaOk lmsOk = authProblem s (portAt s n) chainOk ecdsaOk lmsOk := by
    rw [← hu, ← hprob]
    rfl
  have hufree : u.free = s.free := by
    rw [← hu]
    exact hfree
  have hulms : u.sec.lmsLeft = if (portAt s n).ownLms then s.sec.lmsLeft - 1 else s.sec.lmsLeft := by
    rw [← hu]
    exact hlms
  have hkey (q : Port) (x : Nat) (b : Bool) : sessionKey u q x b = sessionKey s q x b := by
    have hi : u.sec.idhash = s.sec.idhash := by
      rw [← hu]
      exact hid
    rw [sessionKey, sessionKey, initiates, initiates, hi]
  have hexec : exec (.authentication n peerKey chainOk ecdsaOk lmsOk) s =
      .next (match authProblem s (portAt s n) chainOk ecdsaOk lmsOk with | some d => refusePartner u n d | none => goActive u n) := by
    show execAuthentication n peerKey chainOk ecdsaOk lmsOk s = _
    simp only [execAuthentication, hgo, hspent, Bool.false_eq_true, if_false]
    rw [show emit (if (portAt s n).ownLms = true then (signDevice s).1 else s) _ = u from hu, huprob]
    cases authProblem s (portAt s n) chainOk ecdsaOk lmsOk <;> rfl
  rw [hexec]
  cases hverdict : authProblem s (portAt s n) chainOk ecdsaOk lmsOk with
  | some d =>
    obtain ⟨hep, -, -, hesec, hefree, -, heout⟩ := zltEvent_keeps u 3 n d
    refine ⟨refusePartner u n d, rfl, fun m hm => (portAt_modPort_other _ _ hm).trans ((hep m).trans (hport m)), heout _ hsent,
      (congrArg Security.lmsLeft hesec).trans hulms, fun h => absurd h (Option.some_ne_none d), fun _ => ⟨congrArg Port.st (portAt_modPort_same ..), hefree.trans hufree⟩⟩
  | none =>
    have hgoes := goActive_eq (s := u) (n := n) (by rw [hport]; exact htransit)
    obtain ⟨hep, -, -, hesec, hefree, -, heout⟩ := zltEvent_keeps (setPort (drawFree u).2 n ((portAt u n).joined u (drawFree u).1)) 1 n
      (b2n ((portAt u n).lastId != 0 && (portAt u n).lastId != (portAt u n).idhash))
    rw [← hgoes] at hep hesec hefree heout
    have hself : portAt (goActive u n) n = (portAt s n).joined u (drawFree u).1 := by
      rw [hep, portAt_setPort_same, hport]
    have hdraw : (drawFree u).1 = (drawFree s).1 := by rw [drawFree, drawFree, hufree]
    refine ⟨goActive u n, rfl, fun m hm => (hep m).trans ((portAt_setPort_other _ _ hm).trans (hport m)), heout _ hsent,
      (congrArg Security.lmsLeft hesec).trans hulms, fun _ => ?_, fun h => absurd rfl h⟩
    rw [hself, hefree]
    refine ⟨rfl, rfl, rfl, rfl, rfl, fun vl hvl => ?_, rfl, congrArg (· + 1) hufree, ?_, ?_⟩
    · match vl, hvl with
      | 0, _ => rfl
      | 1, _ => rfl
      | 2, _ => rfl
    · show sessionKey u (portAt s n) (drawFree u).1 true = _
      rw [hkey, hdraw]
    · show sessionKey u (portAt s n) (drawFree u).1 false = _
      rw [hkey, hdraw]

/- Lanes (R313). -/

theorem laneFail_spare {s : State} {n lane sp : Nat} (hl : lane ∈ (portAt s n).lanes) (hsp : (portAt s n).spare = some sp) :
    let t := laneFail s n lane
    (∀ m, m ≠ n → portAt t m = portAt s m) ∧ (portAt t n).st = (portAt s n).st ∧
      (portAt t n).lanes = (portAt s n).lanes.map (fun l => if l = lane then sp else l) ∧ (portAt t n).spare = none ∧
      lane ∈ (portAt t n).retraining ∧ t.zlt.evSeq = (s.zlt.evSeq + 1) % 2 ^ 32 := by
  have hcon : (portAt s n).lanes.contains lane = true := List.contains_iff_mem.mpr hl
  generalize hf : (fun q : Port => ({ q with
    lanes := q.lanes.map (fun l => if l = lane then sp else l), spare := none, retraining := q.retraining ++ [lane], fails := []
    replayBuf := q.replayBuf.map (fun f => if f.lane = lane then { f with lane := sp } else f) } : Port)) = f
  obtain ⟨u, hfail, hstill, hother⟩ : ∃ u, laneFail s n lane = zltEvent u 5 n lane ∧ still u = still (modPort s n f) ∧
      ∀ m, m ≠ n → portAt u m = portAt s m := by
    refine ⟨if (portAt s n).st == .active then sendLink (modPort s n f) n 3
      [(portAt s n).txSeq, (findIdx? (fun l => l == lane) (portAt s n).lanes).elim 0 (fun x => x.1), sp] else modPort s n f, ?_, ?_, fun m hm => ?_⟩
    · unfold laneFail
      simp only [hcon, hsp, Bool.not_true, Bool.false_eq_true, if_false]
      rw [← hf]
    · split
      · exact (still_pump ..).trans (still_modPort fun _ => rfl)
      · rfl
    · split
      · exact (portAt_pump_other hm _).trans ((portAt_modPort_other _ _ hm).trans (portAt_modPort_other _ _ hm))
      · exact portAt_modPort_other _ _ hm
  obtain ⟨hep, -, -, -, -, hseq, -⟩ := zltEvent_keeps u 5 n lane
  have hquiet : (portAt u n).quiet = (f (portAt s n)).quiet := by
    rw [quiet_of_still hstill, portAt_modPort_same]
  have huseq : u.zlt.evSeq = s.zlt.evSeq := congrArg (fun v => v.1.zlt.evSeq) hstill
  rw [hfail]
  simp only [hep]
  rw [hseq, huseq]
  rw [← hf] at hquiet
  refine ⟨hother, (congrArg Port.st hquiet :), (congrArg Port.lanes hquiet :), (congrArg Port.spare hquiet :), ?_, rfl⟩
  have hre : (portAt u n).retraining = (portAt s n).retraining ++ [lane] := (congrArg Port.retraining hquiet :)
  rw [hre]
  exact List.mem_append_right _ (List.mem_singleton.mpr rfl)

theorem laneFail_drops {s : State} {n lane : Nat} (hl : lane ∈ (portAt s n).lanes) (hsp : (portAt s n).spare = none) (h4 : 4 < (portAt s n).lanes.length) :
    let t := laneFail s n lane
    (∀ m, m ≠ n → portAt t m = portAt s m) ∧ (portAt t n).st = (portAt s n).st ∧
      (portAt t n).lanes = (portAt s n).lanes.filter (fun l => l != lane) ∧ lane ∈ (portAt t n).retraining ∧ t.zlt.evSeq = (s.zlt.evSeq + 1) % 2 ^ 32 := by
  have hcon : (portAt s n).lanes.contains lane = true := List.contains_iff_mem.mpr hl
  obtain ⟨f, hfail, hst, hlanes, hre⟩ : ∃ f : Port → Port, laneFail s n lane = zltEvent (modPort s n f) 6 n ((portAt s n).lanes.length - 1) ∧
      (f (portAt s n)).st = (portAt s n).st ∧ (f (portAt s n)).lanes = (portAt s n).lanes.filter (fun l => l != lane) ∧
      (f (portAt s n)).retraining = (portAt s n).retraining ++ [lane] := by
    unfold laneFail
    simp only [hcon, hsp, if_neg (Nat.not_le.mpr h4), Bool.not_true, Bool.false_eq_true, if_false]
    exact ⟨_, rfl, rfl, rfl, rfl⟩
  obtain ⟨hep, -, -, -, -, hseq, -⟩ := zltEvent_keeps (modPort s n f) 6 n ((portAt s n).lanes.length - 1)
  dsimp only
  rw [hfail]
  refine ⟨fun m hm => (hep m).trans (portAt_modPort_other _ _ hm), ?_, ?_, ?_, hseq⟩
  · rw [hep, portAt_modPort_same, hst]
  · rw [hep, portAt_modPort_same, hlanes]
  · rw [hep, portAt_modPort_same, hre]
    exact List.mem_append_right _ (List.mem_singleton.mpr rfl)

theorem laneRetrain_passes {s : State} {n lane : Nat} (hrun : portsRun s = true) (hn : n < 16) (hre : lane ∈ (portAt s n).retraining) :
    ∃ t, exec (.laneRetrainDone n lane true) s = .next t ∧ (∀ m, m ≠ n → portAt t m = portAt s m) ∧ lane ∉ (portAt t n).retraining ∧
      (if (portAt s n).lanes.length < 8 then lane ∈ (portAt t n).lanes ∧ t.zlt.evSeq = (s.zlt.evSeq + 1) % 2 ^ 32
       else (portAt t n).spare = some lane ∧ (portAt t n).lanes = (portAt s n).lanes) := by
  have hgo : (!portsRun s || decide (16 ≤ n) || !(portAt s n).retraining.contains lane) = false := by
    rw [hrun, decide_eq_false (by omega), List.contains_iff_mem.mpr hre]
    rfl
  have hgone : lane ∉ (portAt s n).retraining.filter (fun l => l != lane) := fun h => by simpa using (List.mem_filter.mp h).2
  by_cases h8 : (portAt s n).lanes.length < 8
  · generalize hq : ({ portAt s n with retraining := (portAt s n).retraining.filter (fun l => l != lane), lanes := insertSorted (portAt s n).lanes lane
                                       rxLanes := insertSorted (portAt s n).rxLanes lane } : Port) = q
    obtain ⟨hep, -, -, -, -, hseq, -⟩ := zltEvent_keeps (setPort s n q) 7 n lane
    refine ⟨zltEvent (setPort s n q) 7 n lane, ?_, fun m hm => (hep m).trans (portAt_setPort_other _ _ hm), ?_, ?_⟩
    · show execLaneRetrainDone n lane true s = _
      simp only [execLaneRetrainDone, hgo, h8, Bool.not_true, Bool.false_eq_true, if_false, if_true, hq]
    · rw [hep, portAt_setPort_same, ← hq]
      exact hgone
    · rw [if_pos h8, hep, portAt_setPort_same, ← hq]
      exact ⟨mem_insertSorted.mpr (.inl rfl), hq ▸ hseq⟩
  · refine ⟨setPort s n { portAt s n with retraining := (portAt s n).retraining.filter (fun l => l != lane), spare := some lane }, ?_,
      fun m hm => portAt_setPort_other _ _ hm, ?_, ?_⟩
    · show execLaneRetrainDone n lane true s = _
      simp only [execLaneRetrainDone, hgo, h8, Bool.not_true, Bool.false_eq_true, if_false]
    · rw [portAt_setPort_same]
      exact hgone
    · rw [if_neg h8, portAt_setPort_same]
      exact ⟨rfl, rfl⟩

theorem bit_getLsbD (v : Word) (i : Nat) : bit v i = v.getLsbD i := rfl

/-- A write of ZLT.CTL.EN as 0 takes the port out of service (R314, R338). -/
theorem portEnWrite_disables {s : State} {n : Nat} {v : Word} (hpf : pfWrites s = true) (hn : n < 16) (hno : NoTeardown s) (hv : v.getLsbD 0 = false)
    (hd : (portAt s n).st ≠ .disabled) : ∃ t, exec (.portEnWrite n v) s = .next t ∧ (portAt t n).en = false ∧ (portAt t n).st = .disabled ∧
      ((portAt s n).bond = 0 → (portAt s n).reqs = [] → ∀ m, m ≠ n → portAt t m = portAt s m) := by
  generalize hu : modPort s n (fun p => { p with en := false }) = u
  have hport : portAt u n = { portAt s n with en := false } := by
    rw [← hu]
    exact portAt_modPort_same ..
  have hnou : NoTeardown u := by rw [← hu]; exact hno
  have hfence := fencePortAs_eq (s := u) (n := n) 0x0F none 3 (by rw [hport]; exact hd) (fun _ => rfl)
  rw [if_pos rfl, if_pos rfl] at hfence
  generalize (decide (1 < (bondMates u n).length) && (3 : Nat) != 2) = bonded at hfence
  have hleaves := portFenced_leaves u n (portAt u n) .disabled 0x0F none bonded
  have hp := portFenced_port u n (portAt u n) .disabled 0x0F none bonded
  rw [hport] at hp
  refine ⟨fencePortAs u n 0x0F none 3, ?_, ?_, ?_, fun hb hr m hm => ?_⟩
  · show execPortEnWrite n v s = _
    have hgo : (!pfWrites s || decide (16 ≤ n)) = false := by
      rw [hpf, decide_eq_false (by omega)]
      rfl
    simp only [execPortEnWrite, hgo, bit_getLsbD, hv, hu, Bool.not_false, Bool.false_eq_true, if_false, if_true]
    refine next_congr (afterFence_idle ?_)
    rw [hfence]
    exact hleaves.calm hnou
  · rw [hfence, hport]
    exact (congrArg Port.en hp :)
  · rw [hfence, hport]
    exact (congrArg Port.st hp :)
  · rw [hfence, portFenced_others _ _ _ _ _ (by rw [hport]; exact hb) (by rw [hport]; exact hr) hm, ← hu]
    exact portAt_modPort_other _ _ hm

theorem becomes_modPort {s : State} {n : Nat} {f : Port → Port} {q : Port} (h : f (portAt s n) = q) :
    OnlyPort s (modPort s n f) n ∧ portAt (modPort s n f) n = q := h ▸ onlyPort_modPort s n f

/-- A write of ZLT.EVCFG (R339, R340). -/
theorem eventRing_configured {s : State} (hpf : pfWrites s = true) (v : Word) :
    ∃ t, exec (.eventRingEnable v) s = .next t ∧ { t with zlt := s.zlt } = s ∧ t.zlt.evEnable = v.getLsbD 4 ∧
      t.zlt.evVec = v.toNat / 2 ^ 5 % 2 ^ 6 ∧ (s.zlt.evEnable = false → v.getLsbD 4 = true → t.zlt.evTail = 0 ∧ t.zlt.evPhase = true) ∧
      t.zlt.evLog2n = (if s.zlt.evEnable = false ∧ 6 ≤ v.toNat % 16 ∧ v.toNat % 16 ≤ 12 then v.toNat % 16 else s.zlt.evLog2n) := by
  have hvec : field v 10 5 = v.toNat / 2 ^ 5 % 2 ^ 6 := by rw [field, nbits, Nat.shiftRight_eq_div_pow]
  have hlog : field v 3 0 = v.toNat % 16 := by rw [field, nbits, Nat.shiftRight_zero]; rfl
  have hlog' : (if s.zlt.evEnable || decide (v.toNat % 16 < 6) || decide (12 < v.toNat % 16) then s.zlt.evLog2n else v.toNat % 16) =
      if s.zlt.evEnable = false ∧ 6 ≤ v.toNat % 16 ∧ v.toNat % 16 ≤ 12 then v.toNat % 16 else s.zlt.evLog2n := by
    by_cases h : s.zlt.evEnable = false ∧ 6 ≤ v.toNat % 16 ∧ v.toNat % 16 ≤ 12
    · obtain ⟨he, h6, h12⟩ := h
      have hlow : decide (v.toNat % 16 < 6) = false := decide_eq_false (by omega)
      have hhigh : decide (12 < v.toNat % 16) = false := decide_eq_false (by omega)
      refine (if_neg ?_).trans (if_pos ⟨he, h6, h12⟩).symm
      rw [he, hlow, hhigh]
      exact Bool.false_ne_true
    · refine (if_pos ?_).trans (if_neg h).symm
      simp only [Bool.or_eq_true, decide_eq_true_eq]
      cases he : s.zlt.evEnable with
      | true => exact .inl (.inl rfl)
      | false =>
        have hrange : ¬ (6 ≤ v.toNat % 16 ∧ v.toNat % 16 ≤ 12) := fun hr => h ⟨he, hr⟩
        omega
  generalize hz : ({ s.zlt with
    evLog2n := if s.zlt.evEnable = false ∧ 6 ≤ v.toNat % 16 ∧ v.toNat % 16 ≤ 12 then v.toNat % 16 else s.zlt.evLog2n
    evEnable := v.getLsbD 4, evVec := v.toNat / 2 ^ 5 % 2 ^ 6 } : ZltDev) = z
  have hexec : exec (.eventRingEnable v) s =
      .next { s with zlt := if v.getLsbD 4 && !s.zlt.evEnable then { z with evTail := 0, evPhase := true } else z } := by
    show execEventRingEnable v s = _
    simp only [execEventRingEnable, hpf, hvec, hlog, hlog', bit_getLsbD, Bool.not_true, Bool.false_eq_true, if_false, ← hz]
  refine ⟨_, hexec, rfl, ?_⟩
  by_cases hstart : (v.getLsbD 4 && !s.zlt.evEnable) = true
  · rw [if_pos hstart, ← hz]
    exact ⟨rfl, rfl, fun _ _ => ⟨rfl, rfl⟩, rfl⟩
  · rw [if_neg hstart, ← hz]
    exact ⟨rfl, rfl, fun he hon => absurd (by rw [he, hon]; rfl) hstart, rfl⟩

/-- Settles O53, state by state of the port: enabled, fenced, taken back, trained, discovered, authenticated, its lanes, its partner lost. -/
theorem portJoin : Obligations.PortJoin := by
  unfold Obligations.PortJoin
  intro s n hn hserv hclk hpf hno
  have hpfw : pfWrites s = true := by rw [pfWrites, hserv, hpf]; rfl
  have hfree : decide (16 ≤ n) = false := decide_eq_false (by omega)
  have hlt : decide (n < 16) = true := decide_eq_true hn
  have hrun : portsRun s = true := by
    have hstage : s.boot.stage = .running := by
      simp only [serving, Bool.and_eq_true, beq_iff_eq] at hserv
      exact hserv.1.1
    rw [portsRun, hclk, hstage]
    rfl
  have hgo : (!pfWrites s || decide (16 ≤ n)) = false := by rw [hpfw, hfree]; rfl
  have hgo' : (!portsRun s || decide (16 ≤ n)) = false := by rw [hrun, hfree]; rfl
  have hdown {t : State} (h : GoesDown s t n) : (portAt t n).st = .detect ∧
      (portAt t n).departures = s.ticks :: (portAt s n).departures.filter (fun x => decide (s.ticks < x + secondTicks)) ∧
      (portAt t n).holdoff = ((portAt s n).holdoff || decide (4 ≤ (s.ticks :: (portAt s n).departures.filter (fun x => decide (s.ticks < x + secondTicks))).length)) ∧
      t.zlt.evSeq = (s.zlt.evSeq + 1) % 2 ^ 32 ∧ ((portAt s n).bond = 0 → (portAt s n).reqs = [] → ∀ m, m ≠ n → portAt t m = portAt s m) := by
    obtain ⟨h1, h2, h3, h4, h5⟩ := h
    exact ⟨h1, h2, h3, h4, h5⟩
  dsimp only
  refine ⟨fun v hv => ?on, fun v hv hd => portEnWrite_disables hpfw hn hno hv hd, fun hd => portFence_fences hpfw hn hno hd, fun hst => ?unfence,
    fun hst => ?retrain, fun hst => ⟨?down, fun cause => ?lost⟩, fun cause hst => ?leaves, fun v => ?events, fun lanes hst hhold hl => ?presence,
    fun passed weakest hst hnd hlt9 hw hpeer => trainingDone_trains hrun hserv hn hst hnd hlt9 hw hpeer, fun failed hst => ?timeout,
    fun d hst => discoveryDescriptor_joins hrun hserv hn hst,
    fun peerKey chainOk ecdsaOk lmsOk hst htree => ⟨fun hown hleft => ?spent, fun hleft htransit => authentication_joins hrun hserv hn hst htree hleft htransit⟩,
    fun lane hl => ⟨fun sp hsp => ?spare, fun hsp h4 => ?drop, fun hsp h4 hst => ?few⟩, fun lane hre => ⟨?fails, laneRetrain_passes hrun hn hre⟩, ?holdoff⟩
  case on =>
    refine ⟨modPort (modPort s n (fun p => { p with en := true })) n (fun p => if p.st == .disabled then { p with st := .detect } else p), ?_, ?_⟩
    · show execPortEnWrite n v s = _
      simp only [execPortEnWrite, hgo, bit_getLsbD, hv, Bool.not_true, Bool.false_eq_true, if_false]
    · refine ⟨⟨rfl, fun m hm => (portAt_modPort_other _ _ hm).trans (portAt_modPort_other _ _ hm)⟩, ?_⟩
      rw [portAt_modPort_same, portAt_modPort_same]
      by_cases h : (portAt s n).st = .disabled
      · rw [if_pos (by rw [h]; rfl), if_pos h]
      · rw [if_neg (by simpa using h), if_neg h]
  case unfence =>
    refine ⟨modPort s n (fun p => { p with st := .detect }), ?_, becomes_modPort rfl⟩
    show execPortUnfence n s = _
    rw [execPortUnfence, hpfw, hlt, hst]
    rfl
  case retrain =>
    refine ⟨modPort s n (fun p => dropLink p .detect), ?_, becomes_modPort rfl⟩
    show execPortRetrain n s = _
    rcases hst with h | h | h | h <;> simp only [execPortRetrain, hgo, h, Bool.false_eq_true, if_false]
  case down =>
    refine ⟨partnerLost s n 0, ?_, hdown (partnerLost_goesDown hno (by decide))⟩
    show execPortRetrain n s = _
    simp only [execPortRetrain, hgo, hst, Bool.false_eq_true, if_false]
  case lost =>
    refine ⟨partnerLost s n (if cause = 1 then 1 else 0), ?_, hdown (partnerLost_goesDown hno (by split <;> decide))⟩
    show execLossOfPartner n cause s = _
    simp only [execLossOfPartner, hgo', hst, Bool.false_eq_true, if_false]
  case leaves =>
    refine ⟨modPort s n (fun p => dropLink p .detect), ?_, becomes_modPort rfl⟩
    show execLossOfPartner n cause s = _
    rcases hst with h | h | h <;> simp only [execLossOfPartner, hgo', h, Bool.false_eq_true, if_false]
  case events => exact eventRing_configured hpfw v
  case presence =>
    refine ⟨modPort s n (fun q => { dropLink q .train with departures := q.departures }), ?_, becomes_modPort rfl⟩
    show execPartnerPresence n lanes s = _
    have hyes : (portsRun s && decide (n < 16) && (portAt s n).st == .detect && !(portAt s n).holdoff && decide (4 ≤ lanes)) = true := by
      rw [hrun, hlt, hst, hhold, decide_eq_true hl]
      rfl
    simp only [execPartnerPresence, hyes, if_true]
  case timeout =>
    obtain ⟨hports, -, -, -, -, hseq, -⟩ := zltEvent_keeps s 4 n (failed % 512)
    refine ⟨trainFail s n failed, ?_, congrArg Port.st (portAt_modPort_same ..), fun m hm => (portAt_modPort_other _ _ hm).trans (hports m), hseq⟩
    show execTrainTimeout n failed s = _
    rw [execTrainTimeout, hrun, hlt, hst]
    rfl
  case spent =>
    refine ⟨refusePartner s n 4, ?_, congrArg Port.st (portAt_modPort_same ..)⟩
    show execAuthentication n peerKey chainOk ecdsaOk lmsOk s = _
    have hauth : (!portsRun s || !serving s || !treeReady s || decide (16 ≤ n) || (portAt s n).st != .auth) = false := by
      rw [hrun, hserv, htree, hfree, hst]
      rfl
    have hnone : ((portAt s n).ownLms && s.sec.lmsLeft == 0) = true := by rw [hown, hleft]; rfl
    simp only [execAuthentication, hauth, hnone, Bool.false_eq_true, if_false, if_true]
  case spare =>
    obtain ⟨h1, h2, h3, h4, h5, h6⟩ := laneFail_spare hl hsp
    refine ⟨laneFail s n lane, ?_, h1, h2, h3, h4, h5, h6⟩
    show execLaneFailing n lane s = _
    rw [execLaneFailing, hrun, hlt]
    rfl
  case drop =>
    obtain ⟨h1, h2, h3, h5, h6⟩ := laneFail_drops hl hsp h4
    refine ⟨laneFail s n lane, ?_, h1, h2, h3, h5, h6⟩
    show execLaneFailing n lane s = _
    rw [execLaneFailing, hrun, hlt]
    rfl
  case few =>
    have hcon : (portAt s n).lanes.contains lane = true := List.contains_iff_mem.mpr hl
    refine ⟨partnerLost s n 3, ?_, hdown (partnerLost_goesDown hno (by decide))⟩
    show execLaneFailing n lane s = _
    rw [execLaneFailing, hrun, hlt]
    refine next_congr ?_
    simp only [laneFail, hcon, hsp, h4, hst, Bool.not_true, Bool.false_eq_true, if_false, if_true, Bool.and_self, beq_self_eq_true]
  case fails =>
    refine ⟨setPort s n { portAt s n with
      retraining := (portAt s n).retraining.filter (fun l => l != lane), outLanes := insertNew (portAt s n).outLanes lane }, ?_,
      fun m hm => portAt_setPort_other _ _ hm, ?_⟩
    · show execLaneRetrainDone n lane false s = _
      have hback : (!portsRun s || decide (16 ≤ n) || !(portAt s n).retraining.contains lane) = false := by
        rw [hrun, hfree, List.contains_iff_mem.mpr hre]
        rfl
      simp only [execLaneRetrainDone, hback, Bool.not_false, Bool.false_eq_true, if_false, if_true]
    · rw [portAt_setPort_same]
      exact ⟨mem_insertNew_self .., fun h => by simpa using (List.mem_filter.mp h).2, rfl⟩
  case holdoff =>
    refine ⟨modPort s n (fun p => { p with holdoff := false }), ?_, becomes_modPort rfl⟩
    show execDetectHoldoffExpiry n s = _
    rw [execDetectHoldoffExpiry, hclk, hlt]
    rfl

end Sys2Proof.Machine
end
section
/-! PROOFS. A window boundary (R192, R258 to R260, R448 to R454, R457). -/

namespace Sys2Proof.Machine

/- What a fold establishes at one of its elements. -/

theorem foldl_stays {σ α : Type} {f : σ → α → σ} {P : σ → Prop} {l : List α} (h : ∀ t, ∀ x ∈ l, P t → P (f t x)) {s : σ} (hs : P s) : P (l.foldl f s) := by
  induction l generalizing s with
  | nil => exact hs
  | cons x l ih => exact ih (fun t y hy => h t y (List.mem_cons_of_mem _ hy)) (h s x (List.mem_cons_self ..) hs)

theorem foldl_reaches {σ α : Type} {f : σ → α → σ} {I P : σ → Prop} {l : List α} {x : α} (hI : ∀ t y, I t → I (f t y)) (hset : ∀ t, I t → P (f t x))
    (hkeep : ∀ t, ∀ y ∈ l, P t → P (f t y)) (hx : x ∈ l) {s : σ} (hs : I s) : P (l.foldl f s) := by
  induction l generalizing s with
  | nil => cases hx
  | cons y l ih =>
    have hrest : ∀ t, ∀ z ∈ l, P t → P (f t z) := fun t z hz => hkeep t z (List.mem_cons_of_mem _ hz)
    rcases List.mem_cons.mp hx with rfl | hx
    · exact foldl_stays hrest (hset s hs)
    · exact ih hrest hx (hI s y hs)

/- Misses (R258, R259). -/

/-- Whether a bit map holds an index. -/
theorem testBit_bitMap (l : List Nat) (i : Nat) : (bitMap l).testBit i = decide (i ∈ l) := by
  have hfold : ∀ (l : List Nat) (n : Nat), (l.foldl (fun acc j => acc ||| (1 <<< j)) n).testBit i = (n.testBit i || decide (i ∈ l)) := by
    intro l
    induction l with
    | nil => simp
    | cons j l ih =>
      intro n
      have hj : (1 <<< j).testBit i = decide (i = j) := by
        rw [Nat.one_shiftLeft, Nat.testBit_two_pow]
        exact decide_eq_decide.mpr eq_comm
      rw [List.foldl_cons, ih, Nat.testBit_or, hj, Bool.or_assoc, ← Bool.decide_or]
      simp only [List.mem_cons]
  rw [bitMap, hfold, Nat.zero_testBit, Bool.false_or]

/-- Only the dies' and the ports' counts of misses change, and what is raised for them. -/
def Missed (s t : State) : Prop := ∃ m p c o, t = { s with mesh := m, ports := p, pcie := c, out := o }

theorem missed_refl (s : State) : Missed s s := ⟨_, _, _, _, rfl⟩

theorem Missed.trans {s t u : State} (h : Missed s t) (h' : Missed t u) : Missed s u := by
  obtain ⟨_, _, _, _, rfl⟩ := h
  obtain ⟨_, _, _, _, rfl⟩ := h'
  exact ⟨_, _, _, _, rfl⟩

theorem Missed.isCold {s t : State} (h : Missed s t) (c : Nat) : isCold t c = isCold s c := by
  obtain ⟨_, _, _, _, rfl⟩ := h
  rfl

theorem missed_raise (s : State) (b : Bool) (v : Nat) : ∃ c o, (if b then raiseMsix s .pf v else s) = { s with pcie := c, out := o } := by
  split
  · obtain ⟨l, p, h⟩ := raiseMsix_eq s .pf v
    exact ⟨p, _, h⟩
  · exact ⟨_, _, rfl⟩

/-- The colonies that missed their floor on a die. -/
def missing (s : State) (misses : List (Nat × Nat)) (d : Nat) : List Nat :=
  (misses.filter (fun m => m.1 == d && decide (1 ≤ m.2) && decide (m.2 ≤ 64) && !isCold s m.2)).map (fun m => m.2)

theorem meshMiss_eq (s : State) (misses : List (Nat × Nat)) (d : Nat) : missing s misses d = [] ∧ meshMiss s misses d = s ∨
    ∃ c o, meshMiss s misses d = { modMesh s d (fun m => { m with
      lmiss := m.lmiss ||| BitVec.ofNat 64 (bitMap ((missing s misses d).map (fun c => c - 1))) }) with pcie := c, out := o } := by
  unfold meshMiss
  dsimp only
  split
  · next h => exact .inl ⟨List.isEmpty_iff.mp h, rfl⟩
  · exact .inr (missed_raise ..)

theorem missed_meshMiss (s : State) (misses : List (Nat × Nat)) (d : Nat) : Missed s (meshMiss s misses d) := by
  rcases meshMiss_eq s misses d with ⟨-, h⟩ | ⟨c, o, h⟩
  · rw [h]
    exact missed_refl s
  · rw [h]
    exact ⟨_, _, _, _, rfl⟩

theorem lmiss_meshMiss_keeps (s : State) (misses : List (Nat × Nat)) (d : Nat) {e i : Nat} (h : (meshAt s e).lmiss.getLsbD i = true) :
    (meshAt (meshMiss s misses d) e).lmiss.getLsbD i = true := by
  rcases meshMiss_eq s misses d with ⟨-, hm⟩ | ⟨c, o, hm⟩
  · rw [hm]
    exact h
  · rw [hm]
    show (tget {} (tset s.mesh d _) e).lmiss.getLsbD i = true
    by_cases he : e = d
    · subst he
      rw [tget_tset_same, BitVec.getLsbD_or, h, Bool.true_or]
    · rw [tget_tset_other _ _ _ he]
      exact h

theorem lmiss_meshMiss_sets {s : State} {misses : List (Nat × Nat)} {d c : Nat} (hm : (d, c) ∈ misses) (h1 : 1 ≤ c) (h2 : c ≤ 64)
    (hc : isCold s c = false) : (meshAt (meshMiss s misses d) d).lmiss.getLsbD (c - 1) = true := by
  have hmem : c ∈ missing s misses d := List.mem_map.mpr ⟨(d, c), List.mem_filter.mpr ⟨hm, by simp [h1, h2, hc]⟩, rfl⟩
  rcases meshMiss_eq s misses d with ⟨hnil, -⟩ | ⟨x, o, hmiss⟩
  · rw [hnil] at hmem
    cases hmem
  · rw [hmiss]
    show (tget {} (tset s.mesh d _) d).lmiss.getLsbD (c - 1) = true
    have hbit : (bitMap ((missing s misses d).map (fun c => c - 1))).testBit (c - 1) = true := by
      rw [testBit_bitMap]
      exact decide_eq_true (List.mem_map.mpr ⟨c, hmem, rfl⟩)
    rw [tget_tset_same, BitVec.getLsbD_or, BitVec.getLsbD_ofNat, hbit, decide_eq_true (show c - 1 < 64 by omega)]
    simp

theorem portMissed_eq (s : State) (misses : List (Nat × Bool)) (n : Nat) :
    (misses.contains (n, false) && !isCold s (portAt s n).colony) = false ∧ portMissed s misses n = s ∨
    ∃ b c o, portMissed s misses n = { setPort s n { portAt s n with
      missOwner := (portAt s n).missOwner || (misses.contains (n, false) && !isCold s (portAt s n).colony), missTransit := b } with pcie := c, out := o } := by
  unfold portMissed
  dsimp only
  split
  · next h =>
    simp only [Bool.and_eq_true, Bool.not_eq_true'] at h
    exact .inl ⟨h.1, rfl⟩
  · obtain ⟨c, o, h⟩ := missed_raise (setPort s n { portAt s n with
      missOwner := (portAt s n).missOwner || (misses.contains (n, false) && !isCold s (portAt s n).colony)
      missTransit := (portAt s n).missTransit || (misses.contains (n, true) && s.hub.cold == 0) }) (portAt s n).missEn (portAt s n).missVec
    exact .inr ⟨_, c, o, h⟩

theorem missed_portMissed (s : State) (misses : List (Nat × Bool)) (n : Nat) : Missed s (portMissed s misses n) ∧ (portMissed s misses n).mesh = s.mesh := by
  rcases portMissed_eq s misses n with ⟨-, h⟩ | ⟨b, c, o, h⟩
  · rw [h]
    exact ⟨missed_refl s, rfl⟩
  · rw [h]
    exact ⟨⟨_, _, _, _, rfl⟩, rfl⟩

theorem portMissed_port (s : State) (misses : List (Nat × Bool)) (n m : Nat) :
    (portAt (portMissed s misses n) m).colony = (portAt s m).colony ∧
      ((portAt s m).missOwner = true → (portAt (portMissed s misses n) m).missOwner = true) := by
  rcases portMissed_eq s misses n with ⟨-, h⟩ | ⟨b, c, o, h⟩
  · rw [h]
    exact ⟨rfl, id⟩
  · rw [h]
    show (portAt (setPort s n _) m).colony = _ ∧ (_ → (portAt (setPort s n _) m).missOwner = true)
    by_cases hm : m = n
    · subst hm
      rw [portAt_setPort_same]
      exact ⟨rfl, fun ho => by simp [ho]⟩
    · rw [portAt_setPort_other _ _ hm]
      exact ⟨rfl, id⟩

theorem portMissed_sets {s : State} {misses : List (Nat × Bool)} {n : Nat} (hm : (n, false) ∈ misses) (hc : isCold s (portAt s n).colony = false) :
    (portAt (portMissed s misses n) n).missOwner = true := by
  have hown : (misses.contains (n, false) && !isCold s (portAt s n).colony) = true := by
    rw [hc, List.contains_iff_mem.mpr hm]
    rfl
  rcases portMissed_eq s misses n with ⟨h, -⟩ | ⟨b, c, o, h⟩
  · rw [hown] at h
    exact nomatch h
  · rw [h, hown]
    show (portAt (setPort s n _) n).missOwner = true
    rw [portAt_setPort_same]
    exact Bool.or_true _

/-- The misses of a window, noted (R258, R259). -/
def missesNoted (lm : List (Nat × Nat)) (pm : List (Nat × Bool)) (s : State) : State :=
  (List.range 16).foldl (fun t n => portMissed t pm n) ((List.range 4).foldl (fun t d => meshMiss t lm d) s)

theorem missesNoted_notes (lm : List (Nat × Nat)) (pm : List (Nat × Bool)) (s : State) :
    Missed s (missesNoted lm pm s) ∧
      (∀ d c, (d, c) ∈ lm → d < 4 → 1 ≤ c → c ≤ 64 → isCold s c = false → (meshAt (missesNoted lm pm s) d).lmiss.getLsbD (c - 1) = true) ∧
      ∀ n, n < 16 → (n, false) ∈ pm → isCold s (portAt s n).colony = false → (portAt (missesNoted lm pm s) n).missOwner = true := by
  have hmesh : Missed s ((List.range 4).foldl (fun t d => meshMiss t lm d) s) :=
    foldl_stays (P := Missed s) (fun t d _ ht => ht.trans (missed_meshMiss t lm d)) (missed_refl s)
  have hports : ((List.range 4).foldl (fun t d => meshMiss t lm d) s).ports = s.ports :=
    foldl_keeps State.ports _ (fun t d => by
      rcases meshMiss_eq t lm d with ⟨-, h⟩ | ⟨c, o, h⟩ <;> rw [h]
      rfl) _ _
  have hlmiss (d c : Nat) (hm : (d, c) ∈ lm) (hd : d < 4) (h1 : 1 ≤ c) (h2 : c ≤ 64) (hc : isCold s c = false) :
      (meshAt ((List.range 4).foldl (fun t d => meshMiss t lm d) s) d).lmiss.getLsbD (c - 1) = true :=
    foldl_reaches (I := Missed s) (P := fun t => (meshAt t d).lmiss.getLsbD (c - 1) = true) (fun t e ht => ht.trans (missed_meshMiss t lm e))
      (fun t ht => lmiss_meshMiss_sets hm h1 h2 (by rw [ht.isCold]; exact hc)) (fun t e _ ht => lmiss_meshMiss_keeps t lm e ht) (List.mem_range.mpr hd)
      (missed_refl s)
  unfold missesNoted
  generalize (List.range 4).foldl (fun t d => meshMiss t lm d) s = u at hmesh hports hlmiss ⊢
  have hall : Missed u ((List.range 16).foldl (fun t n => portMissed t pm n) u) :=
    foldl_stays (P := Missed u) (fun t n _ ht => ht.trans (missed_portMissed t pm n).1) (missed_refl u)
  have hsame : ((List.range 16).foldl (fun t n => portMissed t pm n) u).mesh = u.mesh :=
    foldl_keeps State.mesh _ (fun t n => (missed_portMissed t pm n).2) _ _
  refine ⟨hmesh.trans hall, fun d c hm hd h1 h2 hc => ?_, fun n hn hm hc => ?_⟩
  · rw [meshAt, hsame]
    exact hlmiss d c hm hd h1 h2 hc
  · have hcol : (portAt u n).colony = (portAt s n).colony := by rw [portAt, hports, portAt]
    exact foldl_reaches (I := fun t => Missed u t ∧ (portAt t n).colony = (portAt s n).colony) (P := fun t => (portAt t n).missOwner = true)
      (fun t m ht => ⟨ht.1.trans (missed_portMissed t pm m).1, (portMissed_port t pm m n).1.trans ht.2⟩)
      (fun t ht => portMissed_sets hm (by rw [ht.2, ht.1.isCold, hmesh.isCold]; exact hc))
      (fun t m _ ht => (portMissed_port t pm m n).2 ht) (List.mem_range.mpr hn) ⟨missed_refl u, hcol⟩

end Sys2Proof.Machine
end
section
/-! PROOFS. The configuration, the readings and the evaluation of a window boundary (R192, R258 to R260, R448 to R454, R457). -/

namespace Sys2Proof.Machine

/- The state in which the dies are evaluated. -/

theorem urgentWindow_eq (s : State) :
    ∃ m f b, urgentWindow s = { s with mesh := m, free := f, hub := { s.hub with urgSeen := b } } ∧ ∀ d, (tget {} m d).lmiss = (meshAt s d).lmiss := by
  have hfold (l : List Nat) (t : State) : ∃ m f, l.foldl meshUrgent t = { t with mesh := m, free := f } ∧ ∀ d, (tget {} m d).lmiss = (meshAt t d).lmiss := by
    induction l generalizing t with
    | nil => exact ⟨_, _, rfl, fun _ => rfl⟩
    | cons e l ih =>
      obtain ⟨m, f, h, hm⟩ := ih (meshUrgent t e)
      refine ⟨m, f, h, fun d => (hm d).trans ?_⟩
      show (tget {} (tset t.mesh e _) d).lmiss = _
      by_cases hd : d = e
      · subst hd
        rw [tget_tset_same]
        rfl
      · rw [tget_tset_other _ _ _ hd]
        rfl
  unfold urgentWindow
  split
  · obtain ⟨m, f, h, hm⟩ := hfold (List.range 4) s
    rw [h]
    exact ⟨m, f, false, rfl, hm⟩
  · exact ⟨s.mesh, s.free, s.hub.urgSeen, rfl, fun _ => rfl⟩

theorem takeReadings_eq (s : State) (r : PowerReading) : ∃ t h b u a, takeReadings s r =
    { s with
      pwr := { s.pwr with dieTemp := t, hubTemp := h, hbmMax := b, secondUj := u, energy := (s.pwr.energy + (r.energy.map (fun e => e.2)).sum) % 2 ^ 64 }
      hub := { s.hub with acct := a } } := by
  have hfold (l : List (Nat × Nat)) (t : State) : ∃ a,
      l.foldl (fun t e => modAcct t e.1 (fun a => { a with energy := wrapAdd 64 a.energy e.2 })) t = { t with hub := { t.hub with acct := a } } := by
    induction l generalizing t with
    | nil => exact ⟨_, rfl⟩
    | cons e l ih =>
      obtain ⟨a, h⟩ := ih (modAcct t e.1 (fun a => { a with energy := wrapAdd 64 a.energy e.2 }))
      exact ⟨a, h⟩
  unfold takeReadings
  obtain ⟨a, h⟩ := hfold r.energy { s with pwr := { s.pwr with
    dieTemp := (List.range 4).map (reading r.dieTemp), hubTemp := r.hubTemp, hbmMax := hottest r.stackTemp
    energy := wrapAdd 64 s.pwr.energy (r.energy.map (fun e => e.2)).sum, secondUj := s.pwr.secondUj + (r.energy.map (fun e => e.2)).sum } }
  exact ⟨_, _, _, _, a, h⟩

/-- The state of a boundary before its dies act. -/
def windowOpened (r : PowerReading) (lm : List (Nat × Nat)) (pm : List (Nat × Bool)) (s : State) : State :=
  takeReadings (quarRuns (coldRuns (applyConfig (urgentWindow (missesNoted lm pm s))))) r

/-- What a boundary changes before its dies act (R192, R258 to R260). -/
structure WindowOpens (r : PowerReading) (lm : List (Nat × Nat)) (pm : List (Nat × Bool)) (s t : State) : Prop where
  windows : t.hub.windows = (s.hub.windows + 1) % 2 ^ 32
  cold : t.hub.cold = s.hub.cold - 1
  classes : t.hub.classesNext = []
  noNext : t.hub.regNext = none
  reg : ∀ m o p, s.hub.regNext = some (m, o, p) → t.hub.regMode = m ∧ t.hub.outLim = o ∧ t.hub.pMax = p
  cols : ∀ c, (colAt t c).linkw = ((colAt s c).linkwNext).getD (colAt s c).linkw ∧ (colAt t c).linkwNext = none ∧ (colAt t c).cold = (colAt s c).cold - 1
  energy : t.pwr.energy = (s.pwr.energy + (r.energy.map (fun e => e.2)).sum) % 2 ^ 64
  lmiss : ∀ d c, (d, c) ∈ lm → d < 4 → 1 ≤ c → c ≤ 64 → isCold s c = false → (meshAt t d).lmiss.getLsbD (c - 1) = true
  missOwner : ∀ n, n < 16 → (n, false) ∈ pm → isCold s (portAt s n).colony = false → (portAt t n).missOwner = true
  dies : t.pwr.dies = s.pwr.dies
  cap : t.pwr.cap = s.pwr.cap
  kept : t.cores = s.cores ∧ t.cmds = s.cmds ∧ t.hbm = s.hbm

theorem windowOpened_opens (r : PowerReading) (lm : List (Nat × Nat)) (pm : List (Nat × Bool)) (s : State) : WindowOpens r lm pm s (windowOpened r lm pm s) := by
  obtain ⟨hmissed, hlmiss, hown⟩ := missesNoted_notes lm pm s
  unfold windowOpened
  generalize missesNoted lm pm s = u at hmissed hlmiss hown ⊢
  obtain ⟨m, f, b, hurg, hkeep⟩ := urgentWindow_eq u
  rw [hurg]
  generalize hv : quarRuns (coldRuns (applyConfig { u with mesh := m, free := f, hub := { u.hub with urgSeen := b } })) = v
  obtain ⟨t1, t2, t3, t4, a, hread⟩ := takeReadings_eq v r
  obtain ⟨m0, p0, c0, o0, rfl⟩ := hmissed
  have hreg : v.hub.regNext = none ∧ ∀ x o p, s.hub.regNext = some (x, o, p) → v.hub.regMode = x ∧ v.hub.outLim = o ∧ v.hub.pMax = p := by
    rw [← hv]
    simp only [quarRuns, coldRuns, applyConfig]
    cases hn : s.hub.regNext with
    | none => exact ⟨rfl, nofun⟩
    | some e =>
      refine ⟨rfl, fun x o p h => ?_⟩
      cases h
      exact ⟨rfl, rfl, rfl⟩
  have hclock : v.hub.windows = (s.hub.windows + 1) % 2 ^ 32 ∧ v.hub.cold = s.hub.cold - 1 ∧ v.hub.classesNext = [] := by
    rw [← hv]
    simp only [quarRuns, coldRuns, applyConfig]
    cases s.hub.regNext <;> exact ⟨rfl, rfl, rfl⟩
  have hcols (c : Nat) : (colAt v c).linkw = ((colAt s c).linkwNext).getD (colAt s c).linkw ∧ (colAt v c).linkwNext = none ∧
      (colAt v c).cold = (colAt s c).cold - 1 := by
    have h1 := tget_map (fun x : Colony => { x with linkw := x.linkwNext.getD x.linkw, linkwNext := none }) {} s.cols c
    have h2 := tget_map (fun x : Colony => { x with cold := x.cold - 1 }) {} (s.cols.map (fun e => (e.1, { e.2 with linkw := e.2.linkwNext.getD e.2.linkw
                                                                                                                    linkwNext := none }))) c
    have hcol : colAt v c = { colAt s c with linkw := (colAt s c).linkwNext.getD (colAt s c).linkw, linkwNext := none, cold := (colAt s c).cold - 1 } := by
      rw [← hv]
      refine h2.trans ?_
      exact congrArg (fun x : Colony => { x with cold := x.cold - 1 }) h1
    rw [hcol]
    exact ⟨rfl, rfl, rfl⟩
  have hrest : v.pwr = s.pwr ∧ v.mesh = m ∧ v.ports = p0 ∧ v.cores = s.cores ∧ v.cmds = s.cmds ∧ v.hbm = s.hbm := by
    rw [← hv]
    exact ⟨rfl, rfl, rfl, rfl, rfl, rfl⟩
  obtain ⟨hpwr, hmesh, hports, hcores, hcmds, hhbm⟩ := hrest
  rw [hread]
  refine ⟨hclock.1, hclock.2.1, hclock.2.2, hreg.1, hreg.2, hcols, by rw [hpwr], fun d c hm hd h1 h2 hc => ?_, fun n hn hm hc => ?_, (congrArg Power.dies hpwr :),
    (congrArg Power.cap hpwr :), hcores, hcmds, hhbm⟩
  · show (tget {} v.mesh d).lmiss.getLsbD (c - 1) = true
    rw [hmesh, hkeep]
    exact hlmiss d c hm hd h1 h2 hc
  · show (tget {} v.ports n).missOwner = true
    rw [hports]
    exact hown n hn hm hc

/- The dies at a boundary (R450 to R454). -/

theorem dieAt_modDie_other (s : State) {n m : Nat} (f : DiePower → DiePower) (h : m ≠ n) : dieAt (modDie s n f) m = dieAt s m := tget_tset_other _ _ _ h

/-- Only the dies change. -/
def OnlyDies (s t : State) : Prop := ∃ l, t = { s with pwr := { s.pwr with dies := l } }

theorem onlyDies_refl (s : State) : OnlyDies s s := ⟨_, rfl⟩
theorem onlyDies_modDie (s : State) (n : Nat) (f : DiePower → DiePower) : OnlyDies s (modDie s n f) := ⟨_, rfl⟩
theorem OnlyDies.trans {s t u : State} (h : OnlyDies s t) (h' : OnlyDies t u) : OnlyDies s u := by
  obtain ⟨_, rfl⟩ := h
  obtain ⟨_, rfl⟩ := h'
  exact ⟨_, rfl⟩

theorem onlyDies_all (f : DiePower → DiePower) (l : List Nat) (s : State) : OnlyDies s (l.foldl (fun t d => modDie t d f) s) :=
  foldl_stays (P := OnlyDies s) (fun t d _ ht => ht.trans (onlyDies_modDie t d f)) (onlyDies_refl s)

/-- Every die of a list takes a change once. -/
theorem dieAt_modAll (f : DiePower → DiePower) {l : List Nat} (hl : l.Nodup) (s : State) (d : Nat) :
    dieAt (l.foldl (fun t e => modDie t e f) s) d = if d ∈ l then f (dieAt s d) else dieAt s d := by
  induction l generalizing s with
  | nil => rfl
  | cons e l ih =>
    obtain ⟨he, hl⟩ := List.nodup_cons.mp hl
    rw [List.foldl_cons, ih hl]
    by_cases hd : d = e
    · subst hd
      rw [if_neg he, if_pos (List.mem_cons_self ..), dieAt_modDie_same]
    · rw [dieAt_modDie_other _ _ hd]
      simp only [List.mem_cons, hd, false_or]

/-- A die has not stepped since a state of its own, or once, and then it takes no planned step (R451). -/
def Paced (p q : DiePower) : Prop := q.pstate = p.pstate ∨ q.pstate = p.pstate + 1 ∧ ¬ (q.mode = .steady ∧ q.wait = 0)

theorem paced_dieWindow (p : DiePower) : Paced p (dieWindow p) := by
  unfold dieWindow
  dsimp only
  split
  · split
    · exact .inr ⟨rfl, fun h => Nat.one_ne_zero h.2⟩
    · exact .inl rfl
  · exact .inl rfl

theorem mayStep_iff {s : State} {d : Nat} : mayStep s d = true ↔ (dieAt s d).mode = .steady ∧ (dieAt s d).wait = 0 := by simp [mayStep]

theorem Paced.stepDown {p q : DiePower} (h : Paced p q) (hq : q.mode = .steady ∧ q.wait = 0) : Paced p (stepDown q) := by
  have hp : q.pstate = p.pstate := h.resolve_right fun h' => h'.2 hq
  unfold Machine.stepDown
  split
  · exact .inr ⟨congrArg (· + 1) hp, fun h => absurd h.2 (Nat.one_ne_zero)⟩
  · exact .inl hp

theorem Paced.raise {p q : DiePower} (h : Paced p q) : Paced p { q with mode := .raising } := h.imp_right fun h' => ⟨h'.1, fun h => nomatch h.1⟩

/-- Every die is paced, and nothing but the dies changes. -/
def AllPaced (s t : State) : Prop := OnlyDies s t ∧ ∀ d, Paced (dieAt s d) (dieAt t d)

theorem allPaced_modDie {s t : State} {n : Nat} {f : DiePower → DiePower} (h : AllPaced s t) (hf : Paced (dieAt s n) (f (dieAt t n))) :
    AllPaced s (modDie t n f) := by
  refine ⟨h.1.trans (onlyDies_modDie ..), fun d => ?_⟩
  by_cases hd : d = n
  · rw [hd, dieAt_modDie_same]
    exact hf
  · rw [dieAt_modDie_other _ _ hd]
    exact h.2 d

theorem allPaced_stepDown {s t : State} {n : Nat} (h : AllPaced s t) (hm : mayStep t n = true) : AllPaced s (modDie t n stepDown) :=
  allPaced_modDie h ((h.2 n).stepDown (mayStep_iff.mp hm))

theorem allPaced_coolDown {s t : State} (r : PowerReading) (h : AllPaced s t) : AllPaced s (coolDown t r) := by
  refine foldl_stays (P := AllPaced s) (fun u d _ hu => ?_) h
  split
  · next hm => exact allPaced_stepDown hu (Bool.and_eq_true_iff.mp hm).1
  · exact hu

theorem allPaced_capDown {s : State} (r : PowerReading) (cap : Nat) (l : List Nat) (w : Nat) {t : State} (h : AllPaced s t) :
    AllPaced s (capDown r cap l w t) := by
  induction l generalizing w t with
  | nil => exact h
  | cons d l ih =>
    unfold capDown
    split
    · exact h
    · split
      · next hm => exact ih _ (allPaced_stepDown h hm)
      · exact ih _ h

theorem allPaced_capUp {s : State} (r : PowerReading) (cap : Nat) (l : List Nat) (w : Nat) {t : State} (h : AllPaced s t) :
    AllPaced s (capUp r cap l w t) := by
  induction l generalizing w t with
  | nil => exact h
  | cons d l ih =>
    unfold capUp
    split
    · exact ih _ (allPaced_modDie h (h.2 d).raise)
    · exact ih _ h

/-- Whether every die stands at its lowest. -/
def atLowest (s : State) : Bool := (List.range 4).all (fun d => (dieAt s d).mode == .stopped || (dieAt s d).pstate == 4)

theorem evaluate_paces {s t : State} (r : PowerReading) (h : AllPaced s t) :
    ∃ u, AllPaced s u ∧ evaluate t r = { u with pwr := { u.pwr with capUnmet := decide (10 * t.pwr.cap < r.packageW) && atLowest u } } := by
  unfold evaluate
  dsimp only
  have hcool := allPaced_coolDown r h
  split
  · exact ⟨_, allPaced_capDown _ _ _ _ hcool, rfl⟩
  · exact ⟨_, allPaced_capUp _ _ _ _ hcool, rfl⟩

theorem secondEnd_eq (s : State) : ∃ l x, secondEnd s = { s with pwr := { s.pwr with dies := l, telemetry := x, secondUj := 0 } } ∧
    ∀ d, (tget {} l d).mode = (dieAt s d).mode ∧ (tget {} l d).pstate = (dieAt s d).pstate := by
  have hdies (d : Nat) : dieAt ((List.range 4).foldl (fun t d => modDie t d (fun p => { p with holdWindows := 0 })) s) d =
      if d ∈ List.range 4 then { dieAt s d with holdWindows := 0 } else dieAt s d := dieAt_modAll _ List.nodup_range s d
  obtain ⟨l, hl⟩ := onlyDies_all (fun p => { p with holdWindows := 0 }) (List.range 4) s
  unfold secondEnd
  dsimp only
  rw [hl] at hdies ⊢
  refine ⟨l, _, rfl, fun d => ?_⟩
  have hd : tget {} l d = _ := hdies d
  rw [hd]
  split <;> exact ⟨rfl, rfl⟩

/-- What a boundary leaves of the state in which it evaluates the dies. -/
structure Closes (r : PowerReading) (s t : State) : Prop where
  rest : t = { s with pwr := t.pwr, mgt := t.mgt }
  energy : t.pwr.energy = s.pwr.energy
  paced : ∀ d, (dieAt s d).pstate ≤ (dieAt t d).pstate ∧ (dieAt t d).pstate ≤ (dieAt s d).pstate + 1
  capUnmet : s.boot.stage = .running → t.pwr.capUnmet = (decide (10 * s.pwr.cap < r.packageW) && atLowest t)

theorem atLowest_congr {s t : State} (h : ∀ d, (dieAt t d).mode = (dieAt s d).mode ∧ (dieAt t d).pstate = (dieAt s d).pstate) : atLowest t = atLowest s := by
  unfold atLowest
  simp only [h]

theorem Paced.bounds {p q : DiePower} (h : Paced p q) : p.pstate ≤ q.pstate ∧ q.pstate ≤ p.pstate + 1 := by
  rcases h with h | ⟨h, -⟩ <;> omega

/-- The dies act, the handshake's wait runs on, and the second ends (R450 to R454). -/
def windowClosed (r : PowerReading) (s : State) : State :=
  let s4 := (List.range 4).foldl (fun t d => modDie t d dieWindow) s
  let s5 := if s.boot.stage = .running then evaluate s4 r else s4
  let s6 := { s5 with mgt := { s5.mgt with handshakeWait := s5.mgt.handshakeWait - 1 } }
  if s6.hub.windows % 10000 = 0 then secondEnd s6 else s6

theorem windowClosed_closes (r : PowerReading) (s : State) : Closes r s (windowClosed r s) := by
  have hdies : AllPaced s ((List.range 4).foldl (fun t d => modDie t d dieWindow) s) := by
    refine ⟨onlyDies_all .., fun d => ?_⟩
    rw [dieAt_modAll dieWindow List.nodup_range]
    split
    · exact paced_dieWindow _
    · exact .inl rfl
  have hact : ∃ u b, AllPaced s u ∧ (if s.boot.stage = .running then evaluate ((List.range 4).foldl (fun t d => modDie t d dieWindow) s) r
        else (List.range 4).foldl (fun t d => modDie t d dieWindow) s) = { u with pwr := { u.pwr with capUnmet := b } } ∧
      (s.boot.stage = .running → b = (decide (10 * s.pwr.cap < r.packageW) && atLowest u)) := by
    split
    · obtain ⟨u, hu, heq⟩ := evaluate_paces r hdies
      refine ⟨u, _, hu, heq, fun _ => ?_⟩
      obtain ⟨l, hl⟩ := hdies.1
      rw [hl]
    · next h => exact ⟨_, _, hdies, rfl, fun h' => absurd h' h⟩
  obtain ⟨u, b, ⟨⟨l, rfl⟩, hpaced⟩, heq, hb⟩ := hact
  unfold windowClosed
  simp only [heq]
  split
  · generalize hv : ({ s with pwr := { s.pwr with dies := l, capUnmet := b }, mgt := { s.mgt with handshakeWait := s.mgt.handshakeWait - 1 } } : State) = v
    obtain ⟨l', x, hend, hkeep⟩ := secondEnd_eq v
    rw [hend]
    subst hv
    refine ⟨rfl, rfl, fun d => ?_, fun h => (hb h).trans (congrArg _ (atLowest_congr (t := { s with pwr := { s.pwr with dies := l' } }) (s := { s with pwr := { s.pwr with dies := l } }) hkeep).symm)⟩
    have hd : (tget {} l' d).pstate = (tget {} l d).pstate := (hkeep d).2
    show _ ≤ (tget {} l' d).pstate ∧ (tget {} l' d).pstate ≤ _
    rw [hd]
    exact (hpaced d).bounds
  · exact ⟨rfl, rfl, fun d => (hpaced d).bounds, hb⟩

/-- R192, R258 to R260, R448 to R454: a window boundary. -/
theorem windowBoundary_runs {s : State} (hclk : clocked s = true) (r : PowerReading) (lm : List (Nat × Nat)) (pm : List (Nat × Bool)) :
    ∃ u t, exec (.windowBoundary r lm pm) s = .next t ∧ WindowOpens r lm pm s u ∧ u.boot = s.boot ∧ Closes r u t := by
  have hopen := windowOpened_opens r lm pm s
  have hboot : (windowOpened r lm pm s).boot = s.boot := by
    obtain ⟨⟨m0, p0, c0, o0, hmissed⟩, -⟩ := missesNoted_notes lm pm s
    obtain ⟨m, f, b, hurg, -⟩ := urgentWindow_eq (missesNoted lm pm s)
    unfold windowOpened
    rw [hurg, hmissed]
    obtain ⟨t1, t2, t3, t4, a, hread⟩ := takeReadings_eq (quarRuns (coldRuns (applyConfig
      { s with mesh := m, ports := p0, pcie := c0, out := o0, free := f, hub := { s.hub with urgSeen := b } }))) r
    rw [hread]
    rfl
  refine ⟨windowOpened r lm pm s, windowClosed r (windowOpened r lm pm s), ?_, hopen, hboot, windowClosed_closes ..⟩
  show execWindowBoundary r lm pm s = _
  unfold execWindowBoundary windowClosed
  rw [hboot]
  simp only [hclk, Bool.not_true, Bool.false_eq_true, if_false]
  rfl

end Sys2Proof.Machine
end
section
/-! PROOFS. A die's quarantine, and the power controller of a die (R417, R440 to R443, R446, R451 to R454). -/

namespace Sys2Proof.Machine

/- Fences add up (R34, R211, R314). -/

/-- What is fenced stays fenced, and the power, the stopped dies' list and the colonies' calm stay. -/
structure Dims (s t : State) : Prop where
  calm : NoTeardown s → NoTeardown t
  quar : t.flt.quar = s.flt.quar
  pwr : t.pwr = s.pwr
  core : ∀ m, (coreAt s m).st = .fenced → (coreAt t m).st = .fenced
  chan : ∀ m, (chanAt s m).mode = .fenced → (chanAt t m).mode = .fenced
  port : ∀ m, (portAt s m).st = .fenced ∨ (portAt s m).st = .disabled → (portAt t m).st = .fenced ∨ (portAt t m).st = .disabled

theorem Dims.refl (s : State) : Dims s s := ⟨id, rfl, rfl, fun _ => id, fun _ => id, fun _ => id⟩

theorem Dims.trans {s t u : State} (h : Dims s t) (h' : Dims t u) : Dims s u :=
  ⟨fun hs => h'.calm (h.calm hs), h'.quar.trans h.quar, h'.pwr.trans h.pwr, fun m hm => h'.core m (h.core m hm), fun m hm => h'.chan m (h.chan m hm),
    fun m hm => h'.port m (h.port m hm)⟩

theorem dims_foldl {α : Type} {f : State → α → State} (hf : ∀ t x, Dims t (f t x)) (l : List α) (s : State) : Dims s (l.foldl f s) :=
  foldl_stays (P := Dims s) (fun t x _ ht => ht.trans (hf t x)) (Dims.refl s)

theorem isSome_fence (c : Core) : c.fence.isSome = true ↔ c.st = .fenced := by
  unfold Core.fence
  split
  · next h => simp [h]
  · next h => simp [h]

theorem steady_st_of_frame {s t : State} (h : frame t = frame s) (m : Nat) : (portAt t m).st = (portAt s m).st :=
  congrArg (fun v : State × (Nat → Option Bool) × (Nat → ChanMode) × (Nat → Port) × (Nat → Option FaultRec) => (v.2.2.2.1 m).st) h

theorem Leaves.dims {s t : State} (h : Leaves s t) : Dims s t := by
  refine ⟨h.calm, congrArg (fun v => v.1.flt.quar) h.frame, congrArg (fun v => v.1.pwr) h.frame, fun m hm => ?_, fun m hm => ?_, fun m hm => ?_⟩
  · rw [← isSome_fence, fence_of_frame h.frame, isSome_fence]
    exact hm
  · exact (congrArg (fun v => v.2.2.1 m) h.frame).trans hm
  · rw [steady_st_of_frame h.frame]
    exact hm

theorem fenceCore_dims (s : State) (n status : Nat) (rec : Option Nat) : Dims s (fenceCore s n status rec) ∧ (coreAt (fenceCore s n status rec) n).st = .fenced := by
  by_cases h : (coreAt s n).st = .fenced
  · have hstay : fenceCore s n status rec = s := by
      unfold fenceCore
      simp only [h, beq_self_eq_true, if_true]
    rw [hstay]
    exact ⟨Dims.refl s, h⟩
  · have hset : Dims s (setCore s n (coreAt s n).asFenced) := by
      refine ⟨fun hs => hs, rfl, rfl, fun m hm => ?_, fun _ => id, fun _ => id⟩
      by_cases hmn : m = n
      · rw [hmn, coreAt_setCore_same]
        rfl
      · rw [coreAt_setCore_other _ _ hmn]
        exact hm
    have hrest := (fenceCore_leaves status rec h).dims
    refine ⟨hset.trans hrest, hrest.core n ?_⟩
    rw [coreAt_setCore_same]
    rfl

theorem fenceChannel_dims (s : State) (n : Nat) : Dims s (fenceChannel s n) ∧ (chanAt (fenceChannel s n) n).mode = .fenced := by
  by_cases h : (chanAt s n).mode = .fenced
  · have hstay : fenceChannel s n = s := by
      unfold fenceChannel
      simp only [h, beq_self_eq_true, if_true]
    rw [hstay]
    exact ⟨Dims.refl s, h⟩
  · obtain ⟨l, hl⟩ := fenceChannel_eq h
    have hsame : (tget {} (tset s.chans n (chanAt s n).asFenced) n).mode = .fenced := by
      rw [tget_tset_same]
      rfl
    rw [hl]
    refine ⟨⟨fun hs => hs, rfl, rfl, fun _ => id, fun m hm => ?_, fun _ => id⟩, hsame⟩
    by_cases hmn : m = n
    · rw [hmn]
      exact hsame
    · exact (congrArg Channel.mode (tget_tset_other _ _ _ hmn)).trans hm

theorem zltEvent_dims (s : State) (e n d : Nat) : Dims s (zltEvent s e n d) := by
  obtain ⟨z, p, l, h, -⟩ := zltEvent_eq s e n d
  rw [h]
  exact ⟨fun hs => hs, rfl, rfl, fun _ => id, fun _ => id, fun _ => id⟩

theorem setPort_dims {s : State} {n : Nat} {p : Port} (h : p.st = .fenced ∨ p.st = .disabled) :
    Dims s (setPort s n p) := by
  refine ⟨fun hs => hs, rfl, rfl, fun _ => id, fun _ => id, fun m hm => ?_⟩
  by_cases hmn : m = n
  · rw [hmn, portAt_setPort_same]
    exact h
  · rw [portAt_setPort_other _ _ hmn]
    exact hm

theorem fencePort_dims (s : State) (n status : Nat) (rec : Option Nat) :
    Dims s (fencePort s n status rec) ∧ ((portAt (fencePort s n status rec) n).st = .fenced ∨ (portAt (fencePort s n status rec) n).st = .disabled) := by
  unfold fencePort
  by_cases hd : (portAt s n).st = .disabled
  · have hstay : fencePortAs s n status rec 2 = s := by
      simp only [fencePortAs, hd, beq_self_eq_true, if_true]
    rw [hstay]
    exact ⟨Dims.refl s, .inr hd⟩
  · by_cases hf : (portAt s n).st = .fenced
    · have hstay : fencePortAs s n status rec 2 = zltEvent s 8 n 2 := by
        have h1 : ((portAt s n).st == .disabled) = false := by simpa using hd
        have h2 : ((portAt s n).st == .fenced && (2 : Nat) != 3) = true := by rw [hf]; rfl
        simp only [fencePortAs, h1, h2, Bool.false_eq_true, if_false, if_true]
      rw [hstay, (zltEvent_keeps s 8 n 2).1]
      exact ⟨zltEvent_dims .., .inl hf⟩
    · have htwo : ¬ (2 : Nat) = 3 := by decide
      rw [fencePortAs_eq status rec 2 hd (fun h => absurd h hf), if_neg htwo, if_neg htwo]
      generalize (decide (1 < (bondMates s n).length) && (2 : Nat) != 2) = bonded
      have hdown : Dims (zltEvent s 8 n 2) (modPort (zltEvent s 8 n 2) n (fun q => dropLink q .fenced)) := setPort_dims (.inl rfl)
      have hout : Dims (modPort (zltEvent s 8 n 2) n (fun q => dropLink q .fenced))
          (modPort (modPort (zltEvent s 8 n 2) n (fun q => dropLink q .fenced)) n Port.outOfTransit) :=
        setPort_dims (.inl (by rw [portAt_modPort_same]; rfl))
      refine ⟨(zltEvent_dims s 8 n 2).trans (hdown.trans (hout.trans (portFenced_leaves ..).dims)), .inl ?_⟩
      have hport := portFenced_port (zltEvent s 8 n 2) n (portAt s n) .fenced status rec bonded
      exact (congrArg Port.st hport :)

/- Quarantine (R417). -/

/-- A die's cores, channels and ports, fenced. -/
structure DieFenced (t : State) (d : Nat) : Prop where
  core : ∀ i, i < 160 → (coreAt t (160 * d + i)).st = .fenced
  chan : ∀ i, i < 128 → (chanAt t (128 * d + i)).mode = .fenced
  port : ∀ i, i < 4 → (portAt t (4 * d + i)).st = .fenced ∨ (portAt t (4 * d + i)).st = .disabled

/-- The fences of a die's units. -/
def fenceDie (s : State) (d : Nat) (rec : Option Nat) : State :=
  (List.range 4).foldl (fun t i => fencePort t (4 * d + i) 0x0F rec)
    ((List.range 128).foldl (fun t i => fenceChannel t (128 * d + i)) ((List.range 160).foldl (fun t i => fenceCore t (160 * d + i) 9 rec) s))

/-- Every unit of a list is fenced, where each fence dims its unit and leaves the others' fences. -/
theorem foldl_fences {f : State → Nat → State} {P : State → Nat → Prop} (hf : ∀ t i, Dims t (f t i)) (hset : ∀ t i, P (f t i) i)
    (hkeep : ∀ {s t : State} (i : Nat), Dims s t → P s i → P t i) (l : List Nat) (s : State) : Dims s (l.foldl f s) ∧ ∀ i ∈ l, P (l.foldl f s) i :=
  ⟨dims_foldl hf l s, fun i hi => foldl_reaches (I := fun _ => True) (P := fun t => P t i) (fun _ _ _ => trivial) (fun t _ => hset t i)
    (fun t j _ ht => hkeep i (hf t j) ht) hi trivial⟩

theorem fenceDie_fences (s : State) (d : Nat) (rec : Option Nat) : Dims s (fenceDie s d rec) ∧ DieFenced (fenceDie s d rec) d := by
  obtain ⟨h1, hcores⟩ := foldl_fences (f := fun t i => fenceCore t (160 * d + i) 9 rec) (P := fun t i => (coreAt t (160 * d + i)).st = .fenced)
    (fun t i => (fenceCore_dims t (160 * d + i) 9 rec).1) (fun t i => (fenceCore_dims t (160 * d + i) 9 rec).2) (fun i h => h.core _) (List.range 160) s
  unfold fenceDie
  generalize (List.range 160).foldl (fun t i => fenceCore t (160 * d + i) 9 rec) s = u at h1 hcores ⊢
  obtain ⟨h2, hchans⟩ := foldl_fences (f := fun t i => fenceChannel t (128 * d + i)) (P := fun t i => (chanAt t (128 * d + i)).mode = .fenced)
    (fun t i => (fenceChannel_dims t (128 * d + i)).1) (fun t i => (fenceChannel_dims t (128 * d + i)).2) (fun i h => h.chan _) (List.range 128) u
  generalize (List.range 128).foldl (fun t i => fenceChannel t (128 * d + i)) u = v at h2 hchans ⊢
  obtain ⟨h3, hports⟩ := foldl_fences (f := fun t i => fencePort t (4 * d + i) 0x0F rec)
    (P := fun t i => (portAt t (4 * d + i)).st = .fenced ∨ (portAt t (4 * d + i)).st = .disabled)
    (fun t i => (fencePort_dims t (4 * d + i) 0x0F rec).1) (fun t i => (fencePort_dims t (4 * d + i) 0x0F rec).2) (fun i h => h.port _) (List.range 4) v
  generalize (List.range 4).foldl (fun t i => fencePort t (4 * d + i) 0x0F rec) v = w at h3 hports ⊢
  exact ⟨h1.trans (h2.trans h3), fun i hi => h3.core _ (h2.core _ (hcores i (List.mem_range.mpr hi))),
    fun i hi => h3.chan _ (hchans i (List.mem_range.mpr hi)), fun i hi => hports i (List.mem_range.mpr hi)⟩

theorem quarantine_eq {s : State} {d : Nat} (rec : Option Nat) (hd : d ∉ s.flt.quar) (hc : cutsOff (d :: s.flt.quar) = false) :
    quarantine s d rec = modDie (fenceDie { s with flt := { s.flt with quar := insertSorted s.flt.quar d, quarPending := tset s.flt.quarPending d 0 } } d rec) d
      (fun x => { x with mode := .stopped }) := by
  unfold quarantine
  rw [if_neg (by simpa using hd), if_neg (by rw [hc]; exact Bool.false_ne_true)]
  rfl

/-- A die that is quarantined: what the obligation says of it. -/
structure Quarantined (t : State) (d : Nat) : Prop extends DieFenced t d where
  quar : d ∈ t.flt.quar
  mode : (dieAt t d).mode = .stopped

theorem flt_quar_recordFault (s : State) (r : FaultRec) : (recordFault s r).1.flt.quar = s.flt.quar := by
  obtain ⟨recs, last, i, w, z, h⟩ := flt_recordFault s r
  rw [h]

theorem fenceUnit_die (s : State) (d status : Nat) (rec : Option Nat) :
    fenceUnit s (.die d) status rec = fencedFor (quarantine s d rec) rec (.die d) := by
  cases rec <;> simp only [fenceUnit, fencedFor]

/-- DIE_LINK on a die that leaves the others connected (R417). -/
theorem dieFault_quarantines {s : State} {d : Nat} (hno : NoTeardown s) (hd : d ∉ s.flt.quar) (hc : cutsOff (d :: s.flt.quar) = false) :
    Quarantined (dieFault s d) d := by
  generalize hr : nameUnit s { blankRec 0x21 4 (.die d) 0 with status := 0x09 } (.die d) = r
  have hrep := onlyReports_recordFault s r
  have hfault : dieFault s d = afterFence (fencedFor (quarantine (recordFault s r).1 d (recordFault s r).2) (recordFault s r).2 (.die d)) := by
    rw [← hr, ← fenceUnit_die _ d 0x09]
    simp only [dieFault, fenceFault]
  have hqcalm : NoTeardown (recordFault s r).1 := leaves_onlyReports_cols hrep hno
  generalize hq : recordFault s r = q at hfault hrep hqcalm
  have hquar : q.1.flt.quar = s.flt.quar := by rw [← hq, flt_quar_recordFault]
  rw [quarantine_eq q.2 (by rw [hquar]; exact hd) (by rw [hquar]; exact hc)] at hfault
  generalize hu : ({ q.1 with flt := { q.1.flt with quar := insertSorted q.1.flt.quar d, quarPending := tset q.1.flt.quarPending d 0 } } : State) = u at hfault
  obtain ⟨hdims, hfenced⟩ := fenceDie_fences u d q.2
  have huquar : d ∈ (fenceDie u d q.2).flt.quar := by
    rw [hdims.quar, ← hu]
    exact mem_insertSorted.mpr (.inl rfl)
  have hcalm : NoTeardown (fenceDie u d q.2) := hdims.calm (by rw [← hu]; exact hqcalm)
  generalize fenceDie u d q.2 = v at hfault hfenced huquar hcalm
  have hforeign := fencedFor_eq (modDie v d (fun x => { x with mode := .stopped })) q.2 (.die d)
  have hquar' : (fencedFor (modDie v d (fun x => { x with mode := .stopped })) q.2 (.die d)).flt.quar = v.flt.quar := by
    unfold fencedFor fencedRecs modRec
    split
    · split <;> rfl
    · rfl
  have hidle : dieFault s d = fencedFor (modDie v d (fun x => { x with mode := .stopped })) q.2 (.die d) := by
    rw [hfault]
    exact afterFence_idle (by rw [hforeign]; exact hcalm)
  rw [hidle]
  refine ⟨⟨fun i hi => ?_, fun i hi => ?_, fun i hi => ?_⟩, by rw [hquar']; exact huquar, ?_⟩
  · rw [hforeign]
    exact hfenced.core i hi
  · rw [hforeign]
    exact hfenced.chan i hi
  · rw [hforeign]
    exact hfenced.port i hi
  · rw [hforeign]
    exact congrArg DiePower.mode (dieAt_modDie_same v d (fun x => { x with mode := .stopped }))

end Sys2Proof.Machine
end
section
/-! PROOFS. What a colony's reset and teardown leave of the host's side of the device (R162, R212, R213). -/

namespace Sys2Proof.Machine

/-- The boot and the power stay, and a ring that is disabled stays so. -/
structure HostSide (s t : State) : Prop where
  boot : t.boot = s.boot
  pwr : t.pwr = s.pwr
  sq : ∀ k, (tget {} s.hub.sqs k).enable = false → (tget {} t.hub.sqs k).enable = false
  cq : ∀ k, (tget {} s.hub.cqs k).enable = false → (tget {} t.hub.cqs k).enable = false

theorem HostSide.refl (s : State) : HostSide s s := ⟨rfl, rfl, fun _ => id, fun _ => id⟩
theorem HostSide.trans {s t u : State} (h : HostSide s t) (h' : HostSide t u) : HostSide s u :=
  ⟨h'.boot.trans h.boot, h'.pwr.trans h.pwr, fun k hk => h'.sq k (h.sq k hk), fun k hk => h'.cq k (h.cq k hk)⟩

/-- The host's side stays, and every colony's state, function and progress. -/
structure Settled (s t : State) : Prop extends HostSide s t where
  kind : ∀ n, (colAt t n).kind = (colAt s n).kind

theorem Settled.refl (s : State) : Settled s s := ⟨HostSide.refl s, fun _ => rfl⟩
theorem Settled.trans {s t u : State} (h : Settled s t) (h' : Settled t u) : Settled s u :=
  ⟨h.toHostSide.trans h'.toHostSide, fun n => (h'.kind n).trans (h.kind n)⟩

/-- The host's side stays, and every other colony's state, function and progress. -/
structure SettledBut (m : Nat) (s t : State) : Prop extends HostSide s t where
  kind : ∀ n, n ≠ m → (colAt t n).kind = (colAt s n).kind

theorem Settled.but {s t : State} (h : Settled s t) (m : Nat) : SettledBut m s t := ⟨h.toHostSide, fun n _ => h.kind n⟩
theorem SettledBut.trans {m : Nat} {s t u : State} (h : SettledBut m s t) (h' : SettledBut m t u) : SettledBut m s u :=
  ⟨h.toHostSide.trans h'.toHostSide, fun n hn => (h'.kind n hn).trans (h.kind n hn)⟩

theorem settled_foldl {α : Type} {f : State → α → State} (hf : ∀ t x, Settled t (f t x)) (l : List α) (s : State) : Settled s (l.foldl f s) :=
  foldl_stays (P := Settled s) (fun t x _ ht => ht.trans (hf t x)) (Settled.refl s)

theorem Leaves.settled {s t : State} (h : Leaves s t) : Settled s t := by
  have hsqs : t.hub.sqs = s.hub.sqs := congrArg (fun v => v.1.hub.sqs) h.frame
  have hcqs : t.hub.cqs = s.hub.cqs := congrArg (fun v => v.1.hub.cqs) h.frame
  refine ⟨⟨congrArg (fun v => v.1.boot) h.frame, congrArg (fun v => v.1.pwr) h.frame, fun k hk => ?_, fun k hk => ?_⟩, h.kind⟩
  · rw [hsqs]
    exact hk
  · rw [hcqs]
    exact hk

theorem settled_of_onlyReports {s t : State} (h : OnlyReports s t) : Settled s t := by
  obtain ⟨f, p, l, rfl⟩ := h
  exact ⟨⟨rfl, rfl, fun _ => id, fun _ => id⟩, fun _ => rfl⟩

theorem settled_modCol {s : State} {n : Nat} {f : Colony → Colony} (h : ∀ c, (f c).kind = c.kind) : Settled s (modCol s n f) := by
  refine ⟨⟨rfl, rfl, fun _ => id, fun _ => id⟩, fun m => ?_⟩
  by_cases hm : m = n
  · rw [hm, colAt_modCol_same, h]
  · exact congrArg Colony.kind (colAt_setCol_other s _ hm)

theorem settledBut_setCol (s : State) (n : Nat) (c : Colony) : SettledBut n s (setCol s n c) :=
  ⟨⟨rfl, rfl, fun _ => id, fun _ => id⟩, fun _ hm => congrArg Colony.kind (colAt_setCol_other s _ hm)⟩
theorem settledBut_modCol (s : State) (n : Nat) (f : Colony → Colony) : SettledBut n s (modCol s n f) := settledBut_setCol ..

theorem settled_units (s : State) (cores : Tbl Core) (chans : Tbl Channel) (ports : Tbl Port) (mesh : Tbl Mesh) (signals : List SignalMsg) (cmds : Tbl Cmd)
    (fab : Fabric) (flt : Faults) : Settled s { s with
      cores := cores, chans := chans, ports := ports, mesh := mesh, signals := signals, cmds := cmds, fab := fab, flt := flt } :=
  ⟨⟨rfl, rfl, fun _ => id, fun _ => id⟩, fun _ => rfl⟩

theorem settled_cores (s : State) (l : Tbl Core) : Settled s { s with cores := l } := settled_units s l _ _ _ _ _ _ _
theorem settled_chans (s : State) (l : Tbl Channel) : Settled s { s with chans := l } := settled_units s _ l _ _ _ _ _ _
theorem settled_ports (s : State) (l : Tbl Port) : Settled s { s with ports := l } := settled_units s _ _ l _ _ _ _ _
theorem settled_cmds (s : State) (l : Tbl Cmd) : Settled s { s with cmds := l } := settled_units s _ _ _ _ _ l _ _
theorem settled_fab (s : State) (f : Fabric) : Settled s { s with fab := f } := settled_units s _ _ _ _ _ _ f _
theorem settled_flt (s : State) (f : Faults) : Settled s { s with flt := f } := settled_units s _ _ _ _ _ _ _ f

theorem settled_setCore (s : State) (n : Nat) (c : Core) : Settled s (setCore s n c) := settled_cores ..
theorem settled_setCmd (s : State) (id : Nat) (c : Cmd) : Settled s (setCmd s id c) := settled_cmds ..
theorem settled_setChan (s : State) (n : Nat) (c : Channel) : Settled s (setChan s n c) := settled_chans ..
theorem settled_setPort (s : State) (n : Nat) (p : Port) : Settled s (setPort s n p) := settled_ports ..
theorem settled_modCmd (s : State) (id : Nat) (f : Cmd → Cmd) : Settled s (modCmd s id f) := (leaves_modCmd ..).settled

/- The rings (R162, R212). -/

theorem tget_filter_key {α : Type} (d : α) (p : Nat → Bool) (t : Tbl α) (n : Nat) : tget d (t.filter (fun e => p e.1)) n = if p n then tget d t n else d := by
  induction t with
  | nil => simp [tget]
  | cons e r ih =>
    obtain ⟨k, v⟩ := e
    simp only [List.filter_cons, tget]
    by_cases hk : k = n
    · subst hk
      by_cases hp : p k = true
      · rw [if_pos hp, tget, if_pos rfl, if_pos hp, if_pos rfl]
      · rw [if_neg hp, ih, if_neg hp, if_neg hp]
    · rw [if_neg hk]
      split
      · rw [tget, if_neg hk, ih]
      · exact ih

theorem tget_mapKey {α : Type} {P : α → Prop} {d : α} {f : Nat → α → α} {n : Nat} (hf : ∀ v, P v → P (f n v)) (t : Tbl α) (h : P (tget d t n)) :
    P (tget d (t.map (fun e => (e.1, f e.1 e.2))) n) := by
  induction t with
  | nil => exact h
  | cons e r ih =>
    obtain ⟨k, v⟩ := e
    simp only [List.map_cons, tget] at h ⊢
    split at h
    · next hk =>
      rw [if_pos hk, hk]
      exact hf v h
    · next hk =>
      rw [if_neg hk]
      exact ih h

theorem settled_disableRings (s : State) (page : Nat) : Settled s (disableRings s page) := by
  refine ⟨⟨rfl, rfl, fun k hk => ?_, fun k hk => ?_⟩, fun _ => rfl⟩
  · exact tget_mapKey (P := fun q : SqRing => q.enable = false) (f := fun k q => if k / 16 = page then { q with enable := false, st := .disabled } else q)
      (fun q hq => by
        split
        · rfl
        · exact hq) s.hub.sqs hk
  · exact tget_mapKey (P := fun q : CqRing => q.enable = false) (f := fun k q => if k / 16 = page then { q with enable := false } else q)
      (fun q hq => by
        split
        · rfl
        · exact hq) s.hub.cqs hk

theorem settled_resetFunction (s : State) (v : Nat) : Settled s (resetFunction s v) := by
  refine ⟨⟨rfl, rfl, fun k hk => ?_, fun k hk => ?_⟩, fun _ => rfl⟩
  · refine Eq.trans (congrArg SqRing.enable (tget_filter_key {} (fun k => !s.cols.any (fun e => e.1 == k / 16 && e.2.vf == v)) s.hub.sqs k)) ?_
    split
    · exact hk
    · rfl
  · refine Eq.trans (congrArg CqRing.enable (tget_filter_key {} (fun k => !s.cols.any (fun e => e.1 == k / 16 && e.2.vf == v)) s.hub.cqs k)) ?_
    split
    · exact hk
    · rfl

theorem settled_flrDone (s : State) (n : Nat) : Settled s (flrDone s n) := by
  unfold flrDone
  split
  · exact settled_resetFunction ..
  · exact Settled.refl s

/- A core is wiped (R36, R37). -/

theorem settled_fenceCore (s : State) (n status : Nat) (rec : Option Nat) : Settled s (fenceCore s n status rec) := by
  by_cases h : (coreAt s n).st = .fenced
  · have hstay : fenceCore s n status rec = s := by
      unfold fenceCore
      simp only [h, beq_self_eq_true, if_true]
    rw [hstay]
    exact Settled.refl s
  · exact (settled_setCore ..).trans (fenceCore_leaves status rec h).settled

theorem settled_fencedFor (s : State) (rec : Option Nat) (u : UnitRef) : Settled s (fencedFor s rec u) := by
  rw [fencedFor_eq]
  exact settled_flt ..

theorem fenceUnit_core (s : State) (n status : Nat) (rec : Option Nat) :
    fenceUnit s (.core n) status rec = fencedFor (fenceCore s n status rec) rec (.core n) := by
  cases rec <;> simp only [fenceUnit, fencedFor]

theorem settled_fenceUnit_core (s : State) (n status : Nat) (rec : Option Nat) : Settled s (fenceUnit s (.core n) status rec) := by
  rw [fenceUnit_core]
  exact (settled_fenceCore ..).trans (settled_fencedFor ..)

theorem settled_mergeInto (s : State) (i : Nat) (r : FaultRec) : Settled s (mergeInto s i r) := by
  unfold mergeInto
  split
  · exact Settled.refl s
  · dsimp only
    split
    · exact (settled_flt s _).trans (settled_of_onlyReports (onlyReports_faultIrq ..))
    · exact settled_flt ..

theorem settled_fenceFault_core (s : State) (cause n colony status : Nat) : Settled s (fenceFault s cause (.core n) colony status) := by
  simp only [fenceFault]
  exact (settled_of_onlyReports (onlyReports_recordFault ..)).trans (settled_fenceUnit_core ..)

theorem settled_wipeFault (s : State) (n cause status : Nat) : Settled s (wipeFault s n cause status) := by
  unfold wipeFault
  split
  · exact (settled_mergeInto ..).trans (settled_fenceUnit_core ..)
  · exact settled_fenceFault_core ..

theorem settled_wipeCore (s : State) (n : Nat) : Settled s (wipeCore s n) := by
  have hcache : Settled s (killCache s n) := (leaves_of_offLine (offLine_killCache ..)).settled
  unfold wipeCore
  dsimp only
  split
  · exact hcache.trans ((settled_setCore ..).trans (settled_wipeFault ..))
  · exact hcache.trans (settled_setCore ..)

/- A reset, step by step (R212). -/

theorem kind_giveFrames (l : List (Nat × List (Nat × Nat × Nat))) (c : Colony) :
    (l.foldl (fun x f => giveFrame x { colony := 0, start := f.1, size := 65536 }) c).kind = c.kind :=
  foldl_keeps Colony.kind (fun x f => giveFrame x { colony := 0, start := f.1, size := 65536 }) (fun _ _ => rfl) l c

theorem kind_dropFrames (mine : List Nat) (c : Colony) : (dropFrames mine c).kind = c.kind := kind_giveFrames ..

theorem settled_silentEnd (s : State) (id : Nat) : Settled s (silentEnd s id) := by
  unfold silentEnd
  split
  · exact Settled.refl s
  · next c hc =>
    dsimp only
    have hdrop : Settled s (if c.due = true then dropRecord s c.colony else s) := by
      split
      · exact settled_of_onlyReports (onlyReports_recordFault ..)
      · exact Settled.refl s
    generalize (if c.due = true then dropRecord s c.colony else s) = u at hdrop ⊢
    generalize hk : { c with attemptNs := c.attemptNs + (runningCores u id c).length * nsSince u c.startTick } = k
    have hbegin : Leaves u (chargeAttempt (setCmd { u with signals := u.signals.filter (fun m => m.cmd != id) } id k) id true) :=
      ((stops_signals u _).leaves.trans (leaves_setCmd ..)).trans (stops_chargeAttempt ..).leaves
    have hcores := stops_killCores (l := runningCores u id c) (s := chargeAttempt (setCmd { u with signals := u.signals.filter (fun m => m.cmd != id) } id k) id true)
      fun n hn => by
        rw [← fence_eq_none, fence_of_frame hbegin.frame, fence_eq_none, (mem_runningCores hn).2.1]
        exact fun h => nomatch h
    have hstop := ((hbegin.trans hcores.leaves).trans (stops_freeEngines _ id).leaves).trans (stops_endReqs _ id).leaves
    have hall := hdrop.trans hstop.settled
    split
    · exact hall
    · split
      · exact hall.trans ((settled_modCol fun x => kind_dropFrames ..).trans (settled_cmds ..))
      · exact hall.trans ((settled_modCol fun x => kind_dropFrames ..).trans (settled_setCmd ..))

theorem settled_endForReset (s : State) (n : Nat) : Settled s (endForReset s n) := by
  refine settled_foldl (fun t e => ?_) _ _
  split
  · exact settled_silentEnd ..
  · exact Settled.refl t

theorem settled_closeColonyXlt (s : State) (n status : Nat) : Settled s (closeColonyXlt s n status) :=
  (settled_flt s _).trans (settled_modCol fun _ => rfl)

theorem settled_abortJobs (s : State) (n status : Nat) (l : List Nat) : Settled s (abortJobs s n status l) :=
  settled_foldl (fun t j => (leaves_raiseAbort t n j status t.nextCmd none).settled) _ _

theorem settled_dropColonyState (s : State) (n : Nat) : Settled s (dropColonyState s n) :=
  (settled_fab s _).trans (settled_modCol fun _ => rfl)

theorem settled_sendRetire (s : State) (n value : Nat) (cmd : Option Nat) : Settled s (sendRetire s n value cmd) :=
  settled_foldl (fun t d => (leaves_sendMsg ..).settled) _ _

theorem settled_filterTcs (s : State) (keep : TcEntry → Bool) : Settled s (filterTcs s keep) := ⟨⟨rfl, rfl, fun _ => id, fun _ => id⟩, fun _ => rfl⟩
theorem settled_filterWalkers (s : State) (keep : WalkEntry → Bool) : Settled s (filterWalkers s keep) := ⟨⟨rfl, rfl, fun _ => id, fun _ => id⟩, fun _ => rfl⟩

theorem settled_retireDue (s : State) (n : Nat) : Settled s (retireDue s n) := by
  unfold retireDue
  dsimp only
  split
  · exact Settled.refl s
  · exact (settled_sendRetire ..).trans (settled_modCol fun _ => rfl)

theorem settled_mapUpdate (s : State) (n : Nat) (mayMerge : Bool) (cores channels ports : List Nat) : Settled s (mapUpdate s n mayMerge cores channels ports) := by
  have hadvance : Settled s (modCol s n (fun c => advance c mayMerge cores channels ports)) := settled_modCol fun _ => rfl
  exact hadvance.trans ((settled_cores _ _).trans ((settled_filterTcs ..).trans (settled_retireDue ..)))

theorem settled_squashOld (s : State) (n : Nat) : Settled s (squashOld s n) := by
  unfold squashOld
  dsimp only
  refine Settled.trans (Settled.trans ?_ (settled_foldl (fun t p => (leaves_squashDrain ..).settled) _ _)) (settled_modCol fun _ => rfl)
  exact settled_units s _ _ _ _ _ _ _ _

theorem settled_awaitSent {s : State} {n : Nat} {f : State → State} (h : Settled s (f s)) :
    SettledBut n s (awaitSent s n f) ∧ ((colAt (awaitSent s n f) n).st, (colAt (awaitSent s n f) n).vf) = ((colAt s n).st, (colAt s n).vf) := by
  unfold awaitSent
  dsimp only
  refine ⟨(h.but n).trans (settledBut_modCol (f s) n _), ?_⟩
  rw [colAt_modCol_same]
  exact congrArg (fun k => (k.1, k.2.1)) (h.kind n)

theorem resetMessages_settles (s : State) (n : Nat) : SettledBut n s (resetMessages s n) ∧
    ((colAt (resetMessages s n) n).st, (colAt (resetMessages s n) n).vf) = ((colAt s n).st, (colAt s n).vf) :=
  settled_awaitSent ((settled_sendRetire ..).trans (settled_modCol fun _ => rfl))

end Sys2Proof.Machine
end
section
/-! PROOFS. A colony's reset, from its beginning to where it waits (R212, R482 to R484). -/

namespace Sys2Proof.Machine

/-- What a step of a colony's reset may make of its state, its function and its progress. -/
structure ResetMoves (c d : Colony) : Prop where
  st : d.st = c.st ∨ d.st = .active
  vf : d.vf = c.vf
  passes : c.stage = .waitingPeers → c.awaiting = [] → d.stage = .wiping ∧ d.awaiting = []
  past : c.stage = .wiping ∨ c.stage = .none → (d.stage = .wiping ∨ d.stage = .none) ∧ d.awaiting = c.awaiting

theorem kind_ext {c : Colony} {st : ColState} {vf : Nat} {stage : SeqStage} {aw : List Nat} (h : c.kind = (st, vf, stage, aw)) :
    c.st = st ∧ c.vf = vf ∧ c.stage = stage ∧ c.awaiting = aw := by
  cases h
  exact ⟨rfl, rfl, rfl, rfl⟩

theorem not_starting {x : SeqStage} (h : x = .wiping ∨ x = .none) : x ≠ .issueStopped ∧ x ≠ .draining ∧ x ≠ .waitingPeers := by
  rcases h with rfl | rfl <;> decide

theorem resetStep_moves (s : State) (n : Nat) : SettledBut n s (resetStep s n (colAt s n)) ∧ ResetMoves (colAt s n) (colAt (resetStep s n (colAt s n)) n) := by
  generalize hc : colAt s n = c
  have hstay (h : c.stage ≠ .waitingPeers ∨ c.awaiting ≠ []) : SettledBut n s s ∧ ResetMoves c (colAt s n) := by
    rw [hc]
    exact ⟨(Settled.refl s).but n, .inl rfl, rfl, fun h1 h2 => absurd h2 (h.resolve_left fun h' => h' h1), fun h' => ⟨h', rfl⟩⟩
  unfold resetStep
  cases hstage : c.stage with
  | none => exact hstay (.inl (by rw [hstage]; exact fun h => nomatch h))
  | issueStopped =>
    dsimp only
    split
    · exact hstay (.inl (by rw [hstage]; exact fun h => nomatch h))
    · have hto : Settled s (filterWalkers (squashOld (mapUpdate s n false c.cur.cores c.cur.channels c.cur.ports) n) (fun e => e.colony != n)) :=
        (settled_mapUpdate ..).trans ((settled_squashOld ..).trans (settled_filterWalkers ..))
      generalize filterWalkers (squashOld (mapUpdate s n false c.cur.cores c.cur.channels c.cur.ports) n) (fun e => e.colony != n) = u at hto
      refine ⟨(hto.but n).trans (settledBut_modCol u n _), ?_⟩
      obtain ⟨hst, hvf, -, -⟩ := kind_ext (hc ▸ hto.kind n)
      rw [colAt_modCol_same]
      exact ⟨.inl hst, hvf, fun h => absurd (hstage.symm.trans h) (by decide), fun h => absurd hstage (not_starting h).1⟩
  | draining =>
    dsimp only
    split
    · exact hstay (.inl (by rw [hstage]; exact fun h => nomatch h))
    · obtain ⟨hto, hkind⟩ := resetMessages_settles s n
      refine ⟨hto.trans (settledBut_modCol _ n _), ?_⟩
      rw [hc] at hkind
      rw [colAt_modCol_same]
      exact ⟨.inl (congrArg Prod.fst hkind), (congrArg Prod.snd hkind), fun h => absurd (hstage.symm.trans h) (by decide),
        fun h => absurd hstage (not_starting h).2.1⟩
  | waitingPeers =>
    dsimp only
    split
    · next haw =>
      refine ⟨settledBut_modCol .., ?_⟩
      rw [colAt_modCol_same, hc]
      exact ⟨.inl rfl, rfl, fun _ _ => ⟨rfl, by simpa using haw⟩, fun h => absurd hstage (not_starting h).2.2⟩
    · next haw => exact hstay (.inr (by simpa using haw))
  | wiping =>
    dsimp only
    split
    · exact hstay (.inl (by rw [hstage]; exact fun h => nomatch h))
    · have hto : Settled s (modHub (c.cur.cores.foldl (fun t k => if (coreAt t k).st == .bound then wipeCore t k else t) s)
          (fun h => { h with syncs := h.syncs.filter (fun e => e.1 / 256 != n) })) := by
        refine Settled.trans (settled_foldl (fun t k => ?_) c.cur.cores s) ⟨⟨rfl, rfl, fun _ => id, fun _ => id⟩, fun _ => rfl⟩
        split
        · exact settled_wipeCore ..
        · exact Settled.refl t
      generalize modHub (c.cur.cores.foldl (fun t k => if (coreAt t k).st == .bound then wipeCore t k else t) s)
          (fun h => { h with syncs := h.syncs.filter (fun e => e.1 / 256 != n) }) = u at hto
      have hend := settled_flrDone (modCol u n (fun x => { x with stage := .none, st := .active })) n
      refine ⟨((hto.but n).trans (settledBut_modCol u n _)).trans (hend.but n), ?_⟩
      have hown : (colAt (flrDone (modCol u n (fun x => { x with stage := .none, st := .active })) n) n).kind =
          (.active, (colAt u n).vf, .none, (colAt u n).awaiting) := by
        rw [hend.kind n, colAt_modCol_same]
        rfl
      obtain ⟨hst, hvf, hsg, haw⟩ := kind_ext hown
      obtain ⟨-, hvf', -, haw'⟩ := kind_ext (hc ▸ hto.kind n)
      exact ⟨.inr hst, hvf.trans hvf', fun h => absurd (hstage.symm.trans h) (by decide), fun _ => ⟨.inr hsg, haw.trans haw'⟩⟩

/-- What any number of steps of a reset may make of a colony. -/
structure ResetRuns (n : Nat) (s t : State) : Prop extends SettledBut n s t where
  st : (colAt t n).st = (colAt s n).st ∨ (colAt t n).st = .active
  vf : (colAt t n).vf = (colAt s n).vf
  past : (colAt s n).stage = .wiping ∨ (colAt s n).stage = .none →
    ((colAt t n).stage = .wiping ∨ (colAt t n).stage = .none) ∧ (colAt t n).awaiting = (colAt s n).awaiting

theorem ResetRuns.refl (n : Nat) (s : State) : ResetRuns n s s := ⟨(Settled.refl s).but n, .inl rfl, rfl, fun h => ⟨h, rfl⟩⟩

theorem ResetRuns.trans {n : Nat} {s t u : State} (h : ResetRuns n s t) (h' : ResetRuns n t u) : ResetRuns n s u := by
  refine ⟨h.toSettledBut.trans h'.toSettledBut, ?_, h'.vf.trans h.vf, fun hs => ?_⟩
  · rcases h'.st with hst | hst
    · rw [hst]
      exact h.st
    · exact .inr hst
  · obtain ⟨hp, haw⟩ := h.past hs
    obtain ⟨hp', haw'⟩ := h'.past hp
    exact ⟨hp', haw'.trans haw⟩

theorem colonyStep_resets {s : State} {n : Nat} (h : (colAt s n).st ≠ .teardown) : ResetRuns n s (colonyStep s n) := by
  unfold colonyStep
  dsimp only
  split
  · obtain ⟨hto, hmoves⟩ := resetStep_moves s n
    exact ⟨hto, hmoves.st, hmoves.vf, hmoves.past⟩
  · next hst => exact absurd hst h
  · exact ResetRuns.refl n s

theorem ResetRuns.calm {n : Nat} {s t : State} (h : ResetRuns n s t) (hs : (colAt s n).st ≠ .teardown) : (colAt t n).st ≠ .teardown := by
  rcases h.st with hst | hst
  · rw [hst]
    exact hs
  · rw [hst]
    exact fun h => nomatch h

theorem colonyProgress_resets {s : State} {n : Nat} (h : (colAt s n).st ≠ .teardown) : ResetRuns n s (colonyProgress s n) := by
  have h1 := colonyStep_resets h
  have h2 := h1.trans (colonyStep_resets (h1.calm h))
  have h3 := h2.trans (colonyStep_resets (h2.calm h))
  exact h3.trans (colonyStep_resets (h3.calm h))

/-- A colony that waits for its peers, and awaits none any more, goes on (R212). -/
theorem colonyProgress_passes {s : State} {n : Nat} (h : (colAt s n).st = .resetting) (hstage : (colAt s n).stage = .waitingPeers)
    (haw : (colAt s n).awaiting = []) :
    ResetRuns n s (colonyProgress s n) ∧ ((colAt (colonyProgress s n) n).stage = .wiping ∨ (colAt (colonyProgress s n) n).stage = .none) ∧
      (colAt (colonyProgress s n) n).awaiting = [] := by
  have hcalm : (colAt s n).st ≠ .teardown := by
    rw [h]
    exact fun h => nomatch h
  have h1 := colonyStep_resets hcalm
  have hpass : (colAt (colonyStep s n) n).stage = .wiping ∧ (colAt (colonyStep s n) n).awaiting = [] := by
    have hstep : colonyStep s n = resetStep s n (colAt s n) := by
      unfold colonyStep
      simp only [h]
    rw [hstep]
    exact (resetStep_moves s n).2.passes hstage haw
  have hrest : ResetRuns n (colonyStep s n) (colonyProgress s n) := by
    have h2 := colonyStep_resets (h1.calm hcalm)
    have h3 := h2.trans (colonyStep_resets (h2.calm (h1.calm hcalm)))
    exact h3.trans (colonyStep_resets (h3.calm (h1.calm hcalm)))
  obtain ⟨hp, hp'⟩ := hrest.past (.inl hpass.1)
  exact ⟨h1.trans hrest, hp, hp'.trans hpass.2⟩

/- The beginning of a reset (R212). -/

/-- A colony's reset, before its first step. -/
def resetBegun (s : State) (n : Nat) : State :=
  dropColonyState (abortJobs (closeColonyXlt (endForReset (disableRings
    (modCol (drainReqs s (fun _ r => r.colony == n)) n (fun c => { c with st := .resetting, stage := .issueStopped, awaiting := [], wdBusy := none })) n) n) n 0)
    n 7 (liveJobs s n)) n

theorem startReset_eq (s : State) (n : Nat) : startReset s n = colonyProgress (resetBegun s n) n := rfl

theorem resetBegun_begins (s : State) (n : Nat) :
    SettledBut n s (resetBegun s n) ∧ (colAt (resetBegun s n) n).kind = (.resetting, (colAt s n).vf, .issueStopped, []) := by
  unfold resetBegun
  generalize hu : modCol (drainReqs s (fun _ r => r.colony == n)) n
    (fun c => { c with st := .resetting, stage := .issueStopped, awaiting := [], wdBusy := none }) = u
  have hto : SettledBut n s u := by
    rw [← hu]
    exact ((settled_ports s _).but n).trans (settledBut_modCol (drainReqs s (fun _ r => r.colony == n)) n _)
  have hkind : (colAt u n).kind = (.resetting, (colAt s n).vf, .issueStopped, []) := by
    rw [← hu, colAt_modCol_same]
    rfl
  have hrest : Settled u (dropColonyState (abortJobs (closeColonyXlt (endForReset (disableRings u n) n) n 0) n 7 (liveJobs s n)) n) :=
    (settled_disableRings ..).trans ((settled_endForReset ..).trans ((settled_closeColonyXlt ..).trans ((settled_abortJobs ..).trans (settled_dropColonyState ..))))
  exact ⟨hto.trans (hrest.but n), (hrest.kind n).trans hkind⟩

/-- A colony's reset leaves the host's side, every other colony, and its own function. -/
theorem startReset_resets (s : State) (n : Nat) :
    SettledBut n s (startReset s n) ∧ (colAt (startReset s n) n).vf = (colAt s n).vf ∧
      ((colAt (startReset s n) n).st = .resetting ∨ (colAt (startReset s n) n).st = .active) := by
  obtain ⟨hto, hkind⟩ := resetBegun_begins s n
  obtain ⟨hst, hvf, -, -⟩ := kind_ext hkind
  have hruns := colonyProgress_resets (s := resetBegun s n) (n := n) (by rw [hst]; exact fun h => nomatch h)
  rw [startReset_eq]
  refine ⟨hto.trans hruns.toSettledBut, hruns.vf.trans hvf, ?_⟩
  rw [← hst]
  exact hruns.st.imp_right id

end Sys2Proof.Machine
end
section
/-! PROOFS. Power, cooling and clocks (R436, R440 to R443, R446, R451 to R454, R462, R471, R484). -/

namespace Sys2Proof.Machine

/- The link is lost (R484). -/

/-- Every ring is disabled. -/
def RingsOff (t : State) : Prop := ∀ page ring, (sqAt t page ring).enable = false ∧ (cqAt t page ring).enable = false

theorem HostSide.ringsOff {s t : State} (h : HostSide s t) (hs : RingsOff s) : RingsOff t :=
  fun page ring => ⟨h.sq _ (hs page ring).1, h.cq _ (hs page ring).2⟩

theorem ringsOff_disableAllRings (s : State) : RingsOff (disableAllRings s) := fun page ring => by
  have hsq := congrArg SqRing.enable (tget_map (fun q : SqRing => { q with enable := false, st := .disabled }) {} s.hub.sqs (16 * page + ring))
  have hcq := congrArg CqRing.enable (tget_map (fun q : CqRing => { q with enable := false }) {} s.hub.cqs (16 * page + ring))
  exact ⟨hsq, hcq⟩

/-- The link and the rings after a loss, and the power. -/
theorem linkLost_loses (s : State) : (linkLost s).boot = { s.boot with link := false, cfg := false, removed := true } ∧ (linkLost s).pwr = s.pwr ∧
    RingsOff (linkLost s) := by
  generalize hu : disableAllRings { s with boot := { s.boot with link := false, cfg := false, removed := true }, pcie := {} } = u
  have hoff : RingsOff u := by
    rw [← hu]
    exact ringsOff_disableAllRings _
  have hto : HostSide u (linkLost s) := by
    unfold linkLost
    dsimp only
    rw [hu]
    split
    · exact HostSide.refl u
    · refine foldl_stays (P := HostSide u) (fun t e _ ht => ?_) (HostSide.refl u)
      split
      · exact ht.trans (startReset_resets t e.1).1.toHostSide
      · exact ht
  refine ⟨hto.boot.trans ?_, hto.pwr.trans ?_, hto.ringsOff hoff⟩
  · rw [← hu]
    rfl
  · rw [← hu]
    rfl

/- A device fault (R425, R440, R442, R443, R446). -/

theorem pwr_deviceFault (s : State) (cause : Nat) (u : UnitRef) : (deviceFault s cause u).pwr = s.pwr := by
  have hrep := onlyReports_recordFault s (blankRec cause 5 u 0)
  have hstop (t : State) (k : Nat) : (deviceStop t k).pwr = t.pwr := by
    unfold deviceStop
    dsimp only
    split
    · rfl
    · repeat' split
      all_goals rfl
  exact (hstop _ _).trans (onlyReports_view State.pwr (fun _ _ _ _ => rfl) hrep)

theorem pwr_deviceStop (s : State) (cause : Nat) : (deviceStop s cause).pwr = s.pwr := by
  unfold deviceStop
  dsimp only
  split
  · rfl
  · repeat' split
    all_goals rfl

/-- Every die stops (R442, R443). -/
theorem stopDies_stops (s : State) : OnlyDies s (stopDies s) ∧ ∀ d, d < 4 → (dieAt (stopDies s) d).mode = .stopped ∧ (dieAt (stopDies s) d).pstate = 4 := by
  refine ⟨onlyDies_all .., fun d hd => ?_⟩
  rw [stopDies, dieAt_modAll _ List.nodup_range, if_pos (List.mem_range.mpr hd)]
  exact ⟨rfl, rfl⟩

/-- The dies stop and the device with them (R425, R442, R443). -/
theorem stopDies_deviceFault {s : State} (cause : Nat) (h : s.flt.fatal = false) :
    let t := deviceFault (stopDies s) cause .none
    Halts s t cause ∧ (∀ d, d < 4 → (dieAt t d).mode = .stopped ∧ (dieAt t d).pstate = 4) ∧ ∃ l, t.pwr = { s.pwr with dies := l } := by
  obtain ⟨⟨l, hl⟩, hdark⟩ := stopDies_stops s
  have hfatal : (stopDies s).flt.fatal = false := by rw [hl]; exact h
  obtain ⟨h1, h2, h3, h4, h5, h6⟩ := deviceFault_halts cause .none hfatal
  have hpwr := pwr_deviceFault (stopDies s) cause .none
  refine ⟨⟨h1, h2, h3, h4, h5.trans (by rw [hl]), h6.trans (by rw [hl])⟩, fun d hd => ?_, l, hpwr.trans (by rw [hl])⟩
  rw [dieAt, hpwr]
  exact hdark d hd

/- The power controller of one die (R451 to R454). -/

theorem modDie_only (s : State) (d : Nat) (f : DiePower → DiePower) (p : DiePower) (h : f (dieAt s d) = p) :
    dieAt (modDie s d f) d = p ∧ (∀ e, e ≠ d → dieAt (modDie s d f) e = dieAt s e) ∧
      { modDie s d f with pwr := { (modDie s d f).pwr with dies := s.pwr.dies } } = s :=
  ⟨(dieAt_modDie_same ..).trans h, fun _ he => dieAt_modDie_other s f he, rfl⟩

theorem voltageReached_steps {s : State} {d : Nat} (hclk : clocked s = true) (hm : (dieAt s d).mode = .raising) :
    exec (.voltageReached d) s = .next (modDie s d (fun p => { p with pstate := p.pstate - 1, vstate := p.pstate - 1, mode := .steady, wait := 2 })) := by
  show execVoltageReached d s = _
  have hgo : (!clocked s || (dieAt s d).mode != .raising) = false := by
    rw [hclk, hm]
    rfl
  simp only [execVoltageReached, hgo, Bool.false_eq_true, if_false]

theorem droopTrip_holds {s : State} {d : Nat} (hclk : clocked s = true) (hm : (dieAt s d).mode = .steady ∨ (dieAt s d).mode = .raising) :
    exec (.droopTrip d) s = .next (modDie s d (fun _ => { droopStep (dieAt s d) with mode := .hold, preTrip := (dieAt s d).pstate })) := by
  show execDroopTrip d s = _
  rcases hm with hm | hm <;> simp only [execDroopTrip, hclk, hm, Bool.not_true, Bool.false_eq_true, if_false]

theorem droopHoldExpiry_ends {s : State} {d : Nat} (target : Nat) (hclk : clocked s = true) (hm : (dieAt s d).mode = .hold) :
    exec (.droopHoldExpiry d target) s = .next (modDie s d (fun p => endHold p target)) := by
  show execDroopHoldExpiry d target s = _
  have hgo : (!clocked s || (dieAt s d).mode != .hold) = false := by
    rw [hclk, hm]
    rfl
  simp only [execDroopHoldExpiry, hgo, Bool.false_eq_true, if_false]

/-- What a droop trip makes of a die (R453). -/
theorem droopStep_held (p : DiePower) : { droopStep p with mode := .hold, preTrip := p.pstate } =
    if p.pstate < 4 then { p with pstate := p.pstate + 1, wait := 2, mode := .hold, preTrip := p.pstate } else { p with gating := true, mode := .hold, preTrip := p.pstate } := by
  unfold droopStep
  split <;> rfl

/-- What the end of a hold makes of a die whose spacing has passed (R453). -/
theorem endHold_ends (p : DiePower) (target : Nat) (hw : p.wait = 0) :
    let goal := max (min target 4) p.preTrip
    let q := { p with gating := false, owed := false, mode := .steady }
    (goal = p.pstate → endHold p target = q) ∧
      (p.pstate < goal → p.pstate < 4 → endHold p target = { q with pstate := p.pstate + 1, vstate := p.pstate + 1, wait := 1 }) ∧
      (goal < p.pstate → p.vstate = p.pstate → endHold p target = { q with mode := .raising }) := by
  dsimp only
  unfold endHold
  dsimp only
  generalize max (min target 4) p.preTrip = goal
  refine ⟨fun h => if_pos (.inr h), fun h h4 => ?_, fun h hv => ?_⟩
  · rw [if_neg (by omega), if_pos h, stepDown, if_pos h4]
  · rw [if_neg (by omega), if_neg (by omega), if_neg (by omega)]

end Sys2Proof.Machine
end
section
/-! PROOFS. Regulation, droop, rails, PLLs, thermal limits and coolant (R192, R258 to R260, R440 to R454, R457, R462, R471). -/

namespace Sys2Proof.Machine

/- The rails (R440). -/

/-- The rails' bits after a rail has left its tolerance. -/
def railNoted (rail : Nat) (s : State) : State :=
  { s with pwr := { s.pwr with railGood := s.pwr.railGood &&& ~~~(BitVec.ofNat 12 (2 ^ rail)), railFault := s.pwr.railFault ||| BitVec.ofNat 12 (2 ^ rail) } }

theorem clocked_iff {s : State} : clocked s = true ↔ s.boot.powered = true ∧ s.boot.inReset = false ∧ s.flt.fatal = false := by
  simp [clocked, and_assoc]

theorem railOut_eq {s : State} {rail : Nat} (hclk : clocked s = true) (h : rail < 12) : exec (.railOutOfTolerance rail) s = .next
    (if rail < 4 then (if s.flt.quar.contains rail then railNoted rail s else dieFault (railNoted rail s) rail)
      else if rail = 9 ∨ rail = 10 then afterFence ((List.range 16).foldl (fun t n => fencePort t n 0x0F none) (railNoted rail s))
      else if rail = 11 then linkLost (railNoted rail s)
      else if rail = 6 then deviceStop (railNoted rail s) 0
      else deviceFault (railNoted rail s) 0x50 .none) := by
  obtain ⟨hp, hr, hf⟩ := clocked_iff.mp hclk
  show execRailOutOfTolerance rail s = _
  have hgo : (!s.boot.powered || s.boot.inReset || decide (12 ≤ rail)) = false := by
    rw [hp, hr, decide_eq_false (by omega)]
    rfl
  unfold execRailOutOfTolerance
  simp only [hgo, hf, Bool.false_eq_true, if_false]
  simp only [apply_ite Host.Outcome.next]
  rfl

theorem cols_deviceFault (s : State) (cause : Nat) (u : UnitRef) : (deviceFault s cause u).cols = s.cols := by
  have hstop (t : State) (k : Nat) : (deviceStop t k).cols = t.cols := by
    unfold deviceStop
    dsimp only
    split
    · rfl
    · repeat' split
      all_goals rfl
  exact (hstop _ _).trans (onlyReports_view State.cols (fun _ _ _ _ => rfl) (onlyReports_recordFault s (blankRec cause 5 u 0)))

/-- Whatever a quarantine comes to, the colonies stay calm, and the power stays but for the dies. -/
theorem quarantine_keeps (s : State) (d : Nat) (rec : Option Nat) :
    (NoTeardown s → NoTeardown (quarantine s d rec)) ∧ ∃ l, (quarantine s d rec).pwr = { s.pwr with dies := l } := by
  by_cases hd : d ∈ s.flt.quar
  · have hstay : quarantine s d rec = s := by
      unfold quarantine
      rw [if_pos (by simpa using hd)]
    rw [hstay]
    exact ⟨id, _, rfl⟩
  · by_cases hc : cutsOff (d :: s.flt.quar) = true
    · have hdevice : quarantine s d rec = deviceFault s 0x50 (.die d) := by
        unfold quarantine
        rw [if_neg (by simpa using hd), if_pos hc]
      rw [hdevice]
      exact ⟨noTeardown_congr (cols_deviceFault ..), s.pwr.dies, pwr_deviceFault ..⟩
    · obtain ⟨hdims, -⟩ := fenceDie_fences { s with flt := { s.flt with quar := insertSorted s.flt.quar d, quarPending := tset s.flt.quarPending d 0 } } d rec
      rw [quarantine_eq rec hd (by simpa using hc)]
      generalize fenceDie { s with flt := { s.flt with quar := insertSorted s.flt.quar d, quarPending := tset s.flt.quarPending d 0 } } d rec = v at hdims
      exact ⟨fun hno => hdims.calm hno, tset v.pwr.dies d { dieAt v d with mode := .stopped }, congrArg (fun p : Power => { p with
        dies := tset v.pwr.dies d { dieAt v d with mode := .stopped } }) hdims.pwr⟩

theorem pwr_dieFault {s : State} (d : Nat) (hno : NoTeardown s) : ∃ l, (dieFault s d).pwr = { s.pwr with dies := l } := by
  simp only [dieFault, fenceFault, fenceUnit_die]
  generalize nameUnit s { blankRec 0x21 4 (.die d) 0 with status := 0x09 } (.die d) = r
  have hrep := onlyReports_recordFault s r
  have hpwr : (recordFault s r).1.pwr = s.pwr := onlyReports_view State.pwr (fun _ _ _ _ => rfl) hrep
  have hcalm := leaves_onlyReports_cols hrep hno
  obtain ⟨hq, l, hl⟩ := quarantine_keeps (recordFault s r).1 d (recordFault s r).2
  have hforeign := fencedFor_eq (quarantine (recordFault s r).1 d (recordFault s r).2) (recordFault s r).2 (.die d)
  rw [afterFence_idle (by rw [hforeign]; exact hq hcalm), hforeign]
  exact ⟨l, hl.trans (by rw [hpwr])⟩

theorem fencePorts_fences (s : State) : let t := (List.range 16).foldl (fun t n => fencePort t n 0x0F none) s
    Dims s t ∧ ∀ n, n < 16 → (portAt t n).st = .fenced ∨ (portAt t n).st = .disabled := by
  obtain ⟨hdims, hports⟩ := foldl_fences (f := fun t n => fencePort t n 0x0F none) (P := fun t n => (portAt t n).st = .fenced ∨ (portAt t n).st = .disabled)
    (fun t n => (fencePort_dims t n 0x0F none).1) (fun t n => (fencePort_dims t n 0x0F none).2) (fun n h => h.port n) (List.range 16) s
  exact ⟨hdims, fun n hn => hports n (List.mem_range.mpr hn)⟩

/-- What a rail that leaves its tolerance does (R440). -/
structure RailActs (s t : State) (rail : Nat) : Prop where
  good : t.pwr.railGood = s.pwr.railGood &&& ~~~(BitVec.ofNat 12 (2 ^ rail))
  fault : t.pwr.railFault = s.pwr.railFault ||| BitVec.ofNat 12 (2 ^ rail)
  device : rail = 4 ∨ rail = 5 ∨ rail = 7 ∨ rail = 8 → Halts s t 0x50
  ports : rail = 9 ∨ rail = 10 → ∀ n, n < 16 → (portAt t n).st = .fenced ∨ (portAt t n).st = .disabled
  hub : rail = 6 → Halts s t 0
  link : rail = 11 → t.boot.link = false ∧ t.boot.removed = true ∧ RingsOff t

/-- The rails' bits, where a fault leaves the power but for its dies. -/
theorem railBits {s t : State} {rail : Nat} {l : Tbl DiePower} (h : t.pwr = { (railNoted rail s).pwr with dies := l }) :
    t.pwr.railGood = s.pwr.railGood &&& ~~~(BitVec.ofNat 12 (2 ^ rail)) ∧ t.pwr.railFault = s.pwr.railFault ||| BitVec.ofNat 12 (2 ^ rail) := by
  rw [h]
  exact ⟨rfl, rfl⟩

theorem halts_of_railNoted {s t : State} {rail cause : Nat} (h : Halts (railNoted rail s) t cause) : Halts s t cause :=
  ⟨h.fatal, h.cause, h.alive, h.toggling, h.cores, h.hbm⟩

theorem railOut_acts {s : State} {rail : Nat} (hclk : clocked s = true) (hno : NoTeardown s) (h : rail < 12) :
    ∃ t, exec (.railOutOfTolerance rail) s = .next t ∧ RailActs s t rail := by
  obtain ⟨-, -, hf⟩ := clocked_iff.mp hclk
  refine ⟨_, railOut_eq hclk h, ?_⟩
  have hnot : NoTeardown (railNoted rail s) := hno
  have hfatal : (railNoted rail s).flt.fatal = false := hf
  by_cases hdie : rail < 4
  · rw [if_pos hdie]
    have hbits {t : State} {l : Tbl DiePower} (hp : t.pwr = { (railNoted rail s).pwr with dies := l }) : RailActs s t rail :=
      ⟨(railBits hp).1, (railBits hp).2, fun _ => by omega, fun _ => by omega, fun _ => by omega, fun _ => by omega⟩
    split
    · exact hbits (l := s.pwr.dies) rfl
    · obtain ⟨l, hl⟩ := pwr_dieFault rail hnot
      exact hbits hl
  · rw [if_neg hdie]
    by_cases hport : rail = 9 ∨ rail = 10
    · rw [if_pos hport]
      obtain ⟨hdims, hports⟩ := fencePorts_fences (railNoted rail s)
      rw [afterFence_idle (hdims.calm hnot)]
      obtain ⟨h1, h2⟩ := railBits (s := s) (rail := rail) (l := s.pwr.dies) (hdims.pwr.trans rfl)
      exact ⟨h1, h2, fun _ => by omega, fun _ => hports, fun _ => by omega, fun _ => by omega⟩
    · rw [if_neg hport]
      by_cases hlink : rail = 11
      · rw [if_pos hlink]
        obtain ⟨hboot, hpwr, hoff⟩ := linkLost_loses (railNoted rail s)
        obtain ⟨h1, h2⟩ := railBits (s := s) (rail := rail) (l := s.pwr.dies) (hpwr.trans rfl)
        exact ⟨h1, h2, fun _ => by omega, fun _ => by omega, fun _ => by omega, fun _ => ⟨by rw [hboot], by rw [hboot], hoff⟩⟩
      · rw [if_neg hlink]
        by_cases hhub : rail = 6
        · rw [if_pos hhub]
          obtain ⟨h1, h2⟩ := railBits (s := s) (rail := rail) (l := s.pwr.dies) ((pwr_deviceStop (railNoted rail s) 0).trans rfl)
          exact ⟨h1, h2, fun _ => by omega, fun _ => by omega, fun _ => halts_of_railNoted (deviceStop_halts 0 hfatal), fun _ => by omega⟩
        · rw [if_neg hhub]
          obtain ⟨h1, h2⟩ := railBits (s := s) (rail := rail) (l := s.pwr.dies) ((pwr_deviceFault (railNoted rail s) 0x50 .none).trans rfl)
          exact ⟨h1, h2, fun _ => halts_of_railNoted (deviceFault_halts 0x50 .none hfatal), fun _ => by omega, fun _ => by omega, fun _ => by omega⟩

/- The device's cooling and clocks (R436, R442, R443, R446, R462, R471). -/

/-- A die's PLL loses its lock in service (R446). -/
theorem pllLockLoss_die {s : State} {d : Nat} (hclk : clocked s = true) (hno : NoTeardown s) (hd : d < 4) (hq : d ∉ s.flt.quar)
    (hc : cutsOff (d :: s.flt.quar) = false) (hst : s.boot.stage ≠ .hold) :
    ∃ t, exec (.pllLockLoss d) s = .next t ∧ Quarantined t d ∧ t.pwr.rootLock = s.pwr.rootLock &&& ~~~(BitVec.ofNat 5 (2 ^ d)) := by
  generalize hu : ({ s with pwr := { s.pwr with rootLock := s.pwr.rootLock &&& ~~~(BitVec.ofNat 5 (2 ^ d)) } } : State) = u
  have hno' : NoTeardown u := by rw [← hu]; exact hno
  have hq' : d ∉ u.flt.quar := by rw [← hu]; exact hq
  have hc' : cutsOff (d :: u.flt.quar) = false := by rw [← hu]; exact hc
  obtain ⟨l, hl⟩ := pwr_dieFault d hno'
  refine ⟨dieFault u d, ?_, dieFault_quarantines hno' hq' hc', ?lock⟩
  case lock =>
    rw [hl, ← hu]
  show execPllLockLoss d s = _
  have hgo : (!clocked s || decide (5 ≤ d)) = false := by
    rw [hclk, decide_eq_false (by omega)]
    rfl
  have hin : s.flt.quar.contains d = false := by simpa using hq
  simp only [execPllLockLoss, hgo, hu, Bool.false_eq_true, if_false, if_neg hst, if_neg (show ¬ d = 4 by omega), hin]

theorem pllLockLoss_hub {s : State} (hclk : clocked s = true) (hst : s.boot.stage ≠ .hold) :
    ∃ t, exec (.pllLockLoss 4) s = .next t ∧ Halts s t 0x52 := by
  obtain ⟨-, -, hf⟩ := clocked_iff.mp hclk
  generalize hu : ({ s with pwr := { s.pwr with rootLock := s.pwr.rootLock &&& ~~~(BitVec.ofNat 5 (2 ^ 4)) } } : State) = u
  obtain ⟨h1, h2, h3, h4, h5, h6⟩ := deviceFault_halts (s := u) 0x52 .none (by rw [← hu]; exact hf)
  refine ⟨deviceFault u 0x52 .none, ?_, ⟨h1, h2, h3, h4, h5.trans (by rw [← hu]), h6.trans (by rw [← hu])⟩⟩
  show execPllLockLoss 4 s = _
  have hgo : (!clocked s || decide (5 ≤ 4)) = false := by
    rw [hclk]
    rfl
  simp only [execPllLockLoss, hgo, hu, Bool.false_eq_true, if_false, if_neg hst, if_true]

theorem pllLockLoss_boot {s : State} {d : Nat} (hclk : clocked s = true) (hd : d < 5) (hst : s.boot.stage = .hold) :
    ∃ t, exec (.pllLockLoss d) s = .next t ∧ t.boot.stage = .failed ∧ t.boot.refuse = 0x86 ∧ t.cores = s.cores := by
  refine ⟨{ s with
    pwr := { s.pwr with rootLock := s.pwr.rootLock &&& ~~~(BitVec.ofNat 5 (2 ^ d)) }
    boot := { s.boot with stage := .failed, refuse := 0x86, coolWait := false } }, ?_, rfl, rfl, rfl⟩
  show execPllLockLoss d s = _
  have hgo : (!clocked s || decide (5 ≤ d)) = false := by
    rw [hclk, decide_eq_false (by omega)]
    rfl
  simp only [execPllLockLoss, hgo, Bool.false_eq_true, if_false, if_pos hst]

theorem thermalTrip_stops {s : State} (n : Nat) (hclk : clocked s = true) (htrip : s.pwr.trip = false) :
    ∃ t, exec (.thermalTrip n) s = .next t ∧ t.pwr.trip = true ∧ (∀ d, d < 4 → (dieAt t d).mode = .stopped ∧ (dieAt t d).pstate = 4) ∧ Halts s t 0x53 := by
  obtain ⟨hp, hr, hf⟩ := clocked_iff.mp hclk
  generalize hu : ({ s with pwr := { s.pwr with trip := true } } : State) = u
  obtain ⟨⟨l, hl⟩, -⟩ := stopDies_stops u
  obtain ⟨hhalt, hdark, l', hpwr⟩ := stopDies_deviceFault (s := u) 0x53 (by rw [← hu]; exact hf)
  refine ⟨deviceFault (stopDies u) 0x53 .none, ?_, by rw [hpwr, ← hu], hdark,
    ⟨hhalt.fatal, hhalt.cause, hhalt.alive, hhalt.toggling, hhalt.cores.trans (by rw [← hu]), hhalt.hbm.trans (by rw [← hu])⟩⟩
  show execThermalTrip n s = _
  have hgo : (!s.boot.powered || s.pwr.trip) = false := by rw [hp, htrip]; rfl
  have hrun : ((stopDies u).boot.inReset || (stopDies u).flt.fatal) = false := by
    rw [hl, ← hu]
    show (s.boot.inReset || s.flt.fatal) = false
    rw [hr, hf]
    rfl
  simp only [execThermalTrip, hgo, hu, hrun, Bool.false_eq_true, if_false]

theorem coolantLoss_stops {s : State} (hclk : clocked s = true) (hcool : pastCooling s = true) :
    ∃ t, exec .coolantLoss s = .next t ∧ t.pwr.coolantOk = false ∧ (∀ d, d < 4 → (dieAt t d).mode = .stopped ∧ (dieAt t d).pstate = 4) ∧ Halts s t 0x53 := by
  obtain ⟨-, -, hf⟩ := clocked_iff.mp hclk
  generalize hu : ({ s with pwr := { s.pwr with coolantOk := false } } : State) = u
  obtain ⟨hhalt, hdark, l', hpwr⟩ := stopDies_deviceFault (s := u) 0x53 (by rw [← hu]; exact hf)
  refine ⟨deviceFault (stopDies u) 0x53 .none, ?_, by rw [hpwr, ← hu], hdark,
    ⟨hhalt.fatal, hhalt.cause, hhalt.alive, hhalt.toggling, hhalt.cores.trans (by rw [← hu]), hhalt.hbm.trans (by rw [← hu])⟩⟩
  show execCoolantLoss s = _
  simp only [execCoolantLoss, hu, hclk, hcool, Bool.and_self, if_true]

/-- Settles O52: a window boundary stage by stage, the power controller of a die, and what each supply, clock or temperature stops. -/
theorem powerAndCooling : Obligations.PowerAndCooling := by
  unfold Obligations.PowerAndCooling
  intro s hclk hno
  obtain ⟨-, -, hfatal⟩ := clocked_iff.mp hclk
  dsimp only
  have hstop {t : State} {cause : Nat} (h : Halts s t cause) : t.flt.fatal = true ∧ t.flt.stopCause = cause ∧ t.flt.alive = some false ∧ t.hbm = s.hbm :=
    ⟨h.fatal, h.cause, h.alive, h.hbm⟩
  have hquar {t : State} {d : Nat} (h : Quarantined t d) : d ∈ t.flt.quar ∧ (dieAt t d).mode = .stopped ∧
      (∀ i, i < 160 → (coreAt t (160 * d + i)).st = .fenced) ∧ (∀ i, i < 128 → (chanAt t (128 * d + i)).mode = .fenced) ∧
      ∀ i, i < 4 → (portAt t (4 * d + i)).st = .fenced ∨ (portAt t (4 * d + i)).st = .disabled := ⟨h.quar, h.mode, h.core, h.chan, h.port⟩
  refine ⟨fun r lm pm => ?window, fun d => ⟨fun hm => ?voltage, fun hm => ?trip, fun target hm hw => ?hold, fun hd hq hc => ⟨?sense, ?rail, fun hst => ?pll⟩⟩,
    fun rail hrail => ?rails, fun hst => ?hub, fun d hd hst => pllLockLoss_boot hclk hd hst, fun n htrip => ?thermal, ?low, ?high, fun hcool => ?coolant⟩
  case window =>
    obtain ⟨u, t, ht, hopen, hboot, hclose⟩ := windowBoundary_runs hclk r lm pm
    obtain ⟨hcores, hcmds, hhbm⟩ := hopen.kept
    have hview {α : Type} (view : State → α) (hv : ∀ v p m, view { v with pwr := p, mgt := m } = view v) : view t = view u := by
      rw [hclose.rest]
      exact hv ..
    have hhub : t.hub = u.hub := hview State.hub fun _ _ _ => rfl
    have hcold {c : Nat} (h : s.hub.cold = 0) (hc : (colAt s c).cold = 0) : isCold s c = false := by
      simp [isCold, h, hc]
    refine ⟨t, ht, by rw [hhub]; exact hopen.windows, by rw [hhub]; exact hopen.cold, by rw [hhub]; exact hopen.classes, by rw [hhub]; exact hopen.noNext,
      fun m o p h => by rw [hhub]; exact hopen.reg m o p h, fun c => ?_, hclose.energy.trans hopen.energy, fun d c hm hd h1 h2 h hc => ?_,
      fun n hn hm h hc => ?_, fun d _ => ?_, fun hrun => ?_, (hview State.cores fun _ _ _ => rfl).trans hcores, (hview State.cmds fun _ _ _ => rfl).trans hcmds,
      (hview State.hbm fun _ _ _ => rfl).trans hhbm⟩
    · rw [hview (fun v => colAt v c) fun _ _ _ => rfl]
      exact hopen.cols c
    · rw [hview (fun v => meshAt v d) fun _ _ _ => rfl]
      exact hopen.lmiss d c hm hd h1 h2 (hcold h hc)
    · rw [hview (fun v => portAt v n) fun _ _ _ => rfl]
      exact hopen.missOwner n hn hm (hcold h hc)
    · have hdie : dieAt u d = dieAt s d := by rw [dieAt, hopen.dies, dieAt]
      rw [← hdie]
      exact hclose.paced d
    · rw [hclose.capUnmet (by rw [hboot]; exact hrun), hopen.cap]
      rfl
  case voltage => exact ⟨_, voltageReached_steps hclk hm, modDie_only s d _ _ rfl⟩
  case trip => exact ⟨_, droopTrip_holds hclk hm, modDie_only s d _ _ (droopStep_held _)⟩
  case hold =>
    obtain ⟨h1, h2, h3⟩ := endHold_ends (dieAt s d) target hw
    exact ⟨_, droopHoldExpiry_ends target hclk hm, fun h => modDie_only s d _ _ (h1 h), fun h h4 => modDie_only s d _ _ (h2 h h4),
      fun h hv => modDie_only s d _ _ (h3 h hv)⟩
  case sense =>
    have hin : s.flt.quar.contains d = false := by simpa using hq
    refine ⟨dieFault s d, ?_, hquar (dieFault_quarantines hno hq hc)⟩
    show execSenseBelowMinimum d s = _
    simp only [execSenseBelowMinimum, hclk, hin, Bool.not_false, Bool.and_self, if_true]
  case rail =>
    have hin : s.flt.quar.contains d = false := by simpa using hq
    refine ⟨dieFault (railNoted d s) d, ?_, hquar (dieFault_quarantines (s := railNoted d s) hno hq hc)⟩
    rw [railOut_eq hclk (by omega), if_pos hd, hin]
    rfl
  case pll =>
    obtain ⟨t, ht, hq', hlock⟩ := pllLockLoss_die hclk hno hd hq hc hst
    exact ⟨t, ht, hquar hq', hlock⟩
  case rails =>
    obtain ⟨t, ht, hacts⟩ := railOut_acts hclk hno hrail
    refine ⟨t, ht, hacts.good, hacts.fault, fun h => hstop (hacts.device h), hacts.ports, fun h => hstop (hacts.hub h), fun h => ?_⟩
    obtain ⟨hlink, hremoved, hoff⟩ := hacts.link h
    exact ⟨hlink, hremoved, fun page ring => (hoff page ring).1⟩
  case hub =>
    obtain ⟨t, ht, h⟩ := pllLockLoss_hub hclk hst
    exact ⟨t, ht, hstop h⟩
  case thermal =>
    obtain ⟨t, ht, htrip', hdark, h⟩ := thermalTrip_stops n hclk htrip
    exact ⟨t, ht, htrip', hdark, hstop h⟩
  case low => exact ⟨{ s with pwr := { s.pwr with coolantOk := false } }, rfl, rfl, rfl⟩
  case high =>
    refine ⟨{ s with pwr := { s.pwr with coolantOk := true, lost := s.pwr.lost || (!s.pwr.coolantOk && pastCooling s) } }, ?_, rfl, rfl⟩
    show execCoolantOkHigh s = _
    simp only [execCoolantOkHigh, hclk, Bool.and_true]
  case coolant =>
    obtain ⟨t, ht, hok, hdark, h⟩ := coolantLoss_stops hclk hcool
    exact ⟨t, ht, hok, hdark, hstop h⟩

end Sys2Proof.Machine
end
